-- ==== Sys2Proof/Word.lean ====
section
/-! DEFINITION. The register word (R8: registers are 32 bits), the byte, the sparse table type and the
numbered things of which the block has a fixed number. -/
namespace Sys2Proof

/-- A register word (R8). -/
abbrev Word := BitVec 32
/-- A byte. -/
abbrev Byte := BitVec 8
/-- A Marten general register, a synchronisation object, an atomic operand. -/
abbrev Dword := BitVec 64

/-- A sparse table: key and value pairs, keys strictly rising, no entry equal to what an unlisted key holds. -/
abbrev Tbl (α : Type) := List (Nat × α)

/-- A link port (R11: p = 0 to 11). -/
abbrev Port := Fin 12
/-- A lane (R11: lane 8p+k belongs to port p). -/
abbrev Lane := Fin 96
/-- A Host Memory Port channel (R82). -/
abbrev Chan := Fin 20
/-- A Marten context. -/
abbrev Ctx := Fin 512
/-- A command queue (R99). -/
abbrev QNum := Fin 4096
/-- A collective group. -/
abbrev Grp := Fin 4096
/-- A trigger entry (R368). -/
abbrev Trig := Fin 4096
/-- A synchronisation object (R358). -/
abbrev ObjNum := Fin 65536
/-- A window (R296). -/
abbrev WinNum := Fin 65536

end Sys2Proof
end

