-- ==== Sys2Proof/Syntax.lean ====
section
/-! DEFINITION. The commands that the block takes, one constructor for each row of the opcode table, and the data they
carry. -/
namespace Sys2Proof.Machine

/-- A packet as it travels (R263, R265): the header's fields, the payload, and the trailer as received. -/
structure Pkt where
  dest : Nat := 0
  src : Nat := 0
  pkey : Nat := 0
  tc : Nat := 0
  rsp : Bool := false
  epoch : Bool := false
  ord : Bool := false
  retx : Bool := false
  opcode : Nat := 0
  fn : Nat := 0
  w8 : Bool := false
  length : Nat := 0
  window : Nat := 0
  offset : Nat := 0
  seq : Nat := 0
  stag : Nat := 0
  ackedLow : Nat := 0
  tag : Nat := 0
  ctx : Nat := 0
  status : Nat := 0
  life : Nat := 0
  /-- The reserved bits [63], [79:78] and [95:93], from bit 0 up. -/
  rsvd : Nat := 0
  payload : List Byte := []
  /-- Trailer bytes 0–3, byte 4 and bytes 6–7. -/
  crc : Nat := 0
  mark : Nat := 0xA5
  words : Nat := 0
deriving DecidableEq, Repr

/-- A control frame as it arrives on a lane (R139): the lane's number in its port, its arrival in UI, its 34 bytes. -/
structure CtlFrame where
  lane : Nat
  ui : Nat
  bytes : List Byte
deriving DecidableEq, Repr

end Sys2Proof.Machine

namespace Sys2Proof
open Sys2Proof.Machine

/-- The commands: requests on the block's ports, events at its pins, and the steps of its own engines, each with the
operands that say which instance acts and what arrives. -/
inductive Instr
  /-- REGISTER_WRITE (R9). -/
  | registerWrite (side : Bool) (a : BitVec 24) (w : Word)
  /-- MRP_TIMEOUT (R130). -/
  | mrpTimeout (write : Bool) (a : BitVec 24) (w : Word)
  /-- LOW_WORD_READ (R361). -/
  | lowWordRead (side : Bool) (o : ObjNum)
  /-- OBJECT_WINDOW_WRITE (R361). -/
  | objectWindowWrite (side : Bool) (o : ObjNum) (high : Bool) (w : Word)
  /-- FTIME_LO_READ (R646). -/
  | ftimeLoRead (side : Bool)
  /-- ENTRY_LATCH_READ (R677). -/
  | entryLatchRead (side : Bool) (a : BitVec 24)
  /-- PORST_ASSERT (R50). -/
  | porstAssert
  /-- PORST_RELEASE (R597). -/
  | porstRelease (sfdp : List Byte) (clk : Fin 5) (delay : Fin 4)
  /-- IMAGE_CHECK (R518). -/
  | imageCheck
  /-- HRST_ASSERT (R51). -/
  | hrstAssert
  /-- HRST_RELEASE (R51). -/
  | hrstRelease
  /-- REF_LOSS (R41). -/
  | refLoss
  /-- SUPPLY_FAULT (R49). -/
  | supplyFault (rail : Fin 4)
  /-- AON_POWER_ON_RESET (R49). -/
  | aonPowerOnReset
  /-- FABRIC_PLL_LOCK (R42). -/
  | fabricPllLock
  /-- FABRIC_PLL_TMO (R42). -/
  | fabricPllTmo
  /-- FLT_ALIVE_TOGGLE (R62). -/
  | fltAliveToggle
  /-- HERR_ERROR (R60). -/
  | herrError (pair : Fin 8)
  /-- WIRE_FAULT (R571). -/
  | wireFault (pair : Fin 27)
  /-- JT_TRST (R72). -/
  | jtTrst
  /-- EXTEST (R75). -/
  | extest (inputs : BitVec 26) (cells : BitVec 45)
  /-- IDCODE (R73). -/
  | idcode
  /-- SAMPLE_PRELOAD (R72). -/
  | samplePreload (inputs : BitVec 26) (cells : BitVec 45)
  /-- CLAMP (R75). -/
  | clamp
  /-- HIGHZ (R75). -/
  | highz
  /-- IJTAG_ACCESS (R76). -/
  | ijtagAccess
  /-- BYPASS (R72). -/
  | bypass (code : Byte) (tdi : Bool)
  /-- HMP_READ_BEAT (R92). -/
  | hmpReadBeat (c : Chan) (tag : Fin 2048) (line : List Byte) (stat : Fin 4) (last : Bool)
  /-- HMP_WRITE_RESPONSE (R92). -/
  | hmpWriteResponse (c : Chan) (tag : Fin 2048) (stat : Fin 4)
  /-- HMP_RESP_TMO (R94). -/
  | hmpRespTmo (c : Chan) (tag : Fin 2048)
  /-- QUARANTINE_TAG_FREE (R94). -/
  | quarantineTagFree (c : Chan)
  /-- QUIESCE_DONE (R132). -/
  | quiesceDone
  /-- OPP_PUSH (R100). -/
  | oppPush (q : QNum) (bytes : List Byte)
  /-- DESC_FETCH (R117). -/
  | descFetch (q : QNum)
  /-- DESC_NOP (R102). -/
  | descNop (q : QNum)
  /-- DESC_PUT (R22). -/
  | descPut (q : QNum)
  /-- DESC_GET (R102). -/
  | descGet (q : QNum)
  /-- DESC_ATOMIC (R102). -/
  | descAtomic (q : QNum)
  /-- DESC_SIGNAL (R102). -/
  | descSignal (q : QNum)
  /-- DESC_FENCE (R103). -/
  | descFence (q : QNum)
  /-- OPEN (R114). -/
  | openQueue (q : QNum)
  /-- CLOSE (R119). -/
  | closeQueue (q : QNum)
  /-- QUEUE_CLOSED (R119). -/
  | queueClosed (q : QNum)
  /-- Q_DB (R116). -/
  | qDb (q : QNum) (tail : BitVec 16)
  /-- Q_CQDB (R116). -/
  | qCqdb (q : QNum) (head : BitVec 16)
  /-- TRG_TOKEN (R122). -/
  | trgToken (k : Ctx) (obj : ObjNum) (late : Nat)
  /-- TRG_CFG_WRITE (R126). -/
  | trgCfgWrite (w : Word)
  /-- PORT_ON (R142). -/
  | portOn (p : Port) (errs : List Nat) (test : Option (BitVec 3))
  /-- PORT_OFF (R142). -/
  | portOff (p : Port)
  /-- RECAL (R142). -/
  | recal (p : Port)
  /-- LANE_PLL_LOCK (R142). -/
  | lanePllLock (p : Port)
  /-- LANE_PLL_TMO (R144). -/
  | lanePllTmo (p : Port)
  /-- SIGNAL_DETECT (R142). -/
  | signalDetect (p : Port) (mask : BitVec 8)
  /-- ADAPT_DONE (R145). -/
  | adaptDone (p : Port) (offsets : List Int) (live : List Word)
  /-- ALIGN_DONE (R146). -/
  | alignDone (p : Port)
  /-- ALIGN_TMO (R142). -/
  | alignTmo (p : Port)
  /-- EXCH_DONE (R149). -/
  | exchDone (p : Port)
  /-- EXCH_TMO (R142). -/
  | exchTmo (p : Port)
  /-- TS1 (R146). -/
  | ts1 (p : Port) (frames : List CtlFrame)
  /-- TS2 (R149). -/
  | ts2 (p : Port) (frames : List CtlFrame)
  /-- EI (R142). -/
  | ei (p : Port) (frames : List CtlFrame)
  /-- DX (R154). -/
  | dx (p : Port) (frames : List CtlFrame)
  /-- DOZE_EXIT (R154). -/
  | dozeExit (p : Port)
  /-- SHORT_TRAINING (R155). -/
  | shortTraining (p : Port) (live : List Word) (firsts seconds : List CtlFrame)
  /-- SHORT_TRAIN_TMO (R155). -/
  | shortTrainTmo (p : Port)
  /-- ELASTIC_SLIP (R153). -/
  | elasticSlip (k : Lane) (fill : BitVec 5)
  /-- CDR_LOCK_LOSS (R153). -/
  | cdrLockLoss (k : Lane)
  /-- ADAPT_STEP (R151). -/
  | adaptStep (k : Lane) (dirs : List (Fin 3))
  /-- OWL_SCAN_START (R157). -/
  | owlScanStart (w : Word) (jtag : Bool)
  /-- OWL_SCAN_DONE (R157). -/
  | owlScanDone (mismatches : Word)
  /-- OWL_HEALTH_SCAN (R158). -/
  | owlHealthScan (k : Lane) (width height : BitVec 8)
  /-- FLIT_RX (R186). -/
  | flitRx (p : Port) (levels : List (List Nat))
  /-- NAK_TMO (R186). -/
  | nakTmo (p : Port)
  /-- REPLAY_TMO (R187). -/
  | replayTmo (p : Port)
  /-- LOCK_TMO (R188). -/
  | lockTmo (p : Port)
  /-- RETRAIN_BOUND (R188). -/
  | retrainBound (p : Port)
  /-- PROBE (R196). -/
  | probe (p : Port) (m : List Byte)
  /-- ECHO (R201). -/
  | echo (p : Port) (m : List Byte)
  /-- CAP (R202). -/
  | cap (p : Port) (m : List Byte)
  /-- VERDICT (R201). -/
  | verdict (p : Port) (m : List Byte)
  /-- CAP_TMO (R197). -/
  | capTmo (p : Port)
  /-- REEXCH (R197). -/
  | reexch (p : Port)
  /-- RETRAIN (R188). -/
  | retrain (p : Port)
  /-- LINK_SLEEP_CMD (R205). -/
  | linkSleepCmd (p : Port) (deep : Bool)
  /-- SLEEP_REQ (R205). -/
  | sleepReq (p : Port) (m : List Byte)
  /-- SLEEP_ACK (R205). -/
  | sleepAck (p : Port) (m : List Byte)
  /-- SLEEP_NAK (R205). -/
  | sleepNak (p : Port) (m : List Byte)
  /-- WAKE (R206). -/
  | wake (p : Port) (m : List Byte)
  /-- SLEEP_TMO (R205). -/
  | sleepTmo (p : Port)
  /-- DRAIN_DONE (R205). -/
  | drainDone (p : Port)
  /-- LINK_WAKE (R206). -/
  | linkWake (p : Port) (far : Bool)
  /-- WIDTH_REQ (R208). -/
  | widthReq (p : Port) (m : List Byte)
  /-- WIDTH_ACK (R208). -/
  | widthAck (p : Port) (m : List Byte)
  /-- WIDTH_NAK (R208). -/
  | widthNak (p : Port) (m : List Byte)
  /-- WIDTH_SWITCH (R30). -/
  | widthSwitch (p : Port) (tx : Bool) (failed : Option (Fin 8)) (live : List Word)
  /-- S_HELLO (R526). -/
  | sHello (p : Port) (m : List Byte)
  /-- S_CRED (R526). -/
  | sCred (p : Port) (m : List Byte)
  /-- S_KEX (R526). -/
  | sKex (p : Port) (m : List Byte)
  /-- S_FIN (R526). -/
  | sFin (p : Port) (m : List Byte)
  /-- S_REKEY (R529). -/
  | sRekey (p : Port) (m : List Byte)
  /-- S_REKEY_ACK (R529). -/
  | sRekeyAck (p : Port) (m : List Byte)
  /-- S_FAIL (R526). -/
  | sFail (p : Port) (m : List Byte)
  /-- REKEY_START (R529). -/
  | rekeyStart (p : Port) (fw : Bool)
  /-- REKEY_RETRY_TMO (R530). -/
  | rekeyRetryTmo (p : Port)
  /-- RNG_FAIL (R513). -/
  | rngFail
  /-- ATTEST_REPORT (R520). -/
  | attestReport
  /-- SESSION_IDLE (R521). -/
  | sessionIdle
  /-- ROUTER_PACKET (R231). -/
  | routerPacket (from_ : Fin 13)
  /-- EGRESS_GRANT (R235). -/
  | egressGrant (p : Port)
  /-- DOWN_HOLD_TMO (R231). -/
  | downHoldTmo
  /-- ENTRY_WAIT (R235). -/
  | entryWait
  /-- FLIP_ARM (R240). -/
  | flipArm
  /-- HOLD (R245). -/
  | hold (on : Bool)
  /-- EPOCH_FLIP (R239). -/
  | epochFlip
  /-- DRAIN_DEADLINE (R242). -/
  | drainDeadline
  /-- CONG_SAMPLE (R247). -/
  | congSample (p : Port)
  /-- PUT_PACKET (R273). -/
  | putPacket (p : Pkt)
  /-- GET_PACKET (R277). -/
  | getPacket (p : Pkt)
  /-- ATOMIC_PACKET (R313). -/
  | atomicPacket (p : Pkt)
  /-- SIGNAL_PACKET (R367). -/
  | signalPacket (p : Pkt)
  /-- SYNC (R270). -/
  | sync (p : Pkt)
  /-- NOTICE (R287). -/
  | notice (p : Pkt)
  /-- READY (R412). -/
  | ready (p : Pkt)
  /-- PART (R437). -/
  | part (p : Pkt)
  /-- BCAST (R402). -/
  | bcast (p : Pkt)
  /-- A2A_PACKET (R408). -/
  | a2aPacket (p : Pkt)
  /-- COUNT (R406). -/
  | count (p : Pkt)
  /-- FAIL (R413). -/
  | fail (p : Pkt)
  /-- ABORT (R417). -/
  | abort (p : Pkt)
  /-- ACK (R282). -/
  | ack (p : Pkt)
  /-- DATA (R282). -/
  | data (p : Pkt)
  /-- RESULT (R340). -/
  | result (p : Pkt)
  /-- SYNC_ACK (R269). -/
  | syncAck (p : Pkt)
  /-- RESYNC (R288). -/
  | resync (p : Pkt)
  /-- ROUTER_NAK (R282). -/
  | routerNak (p : Pkt)
  /-- RETX_TMO (R280). -/
  | retxTmo (sync : Bool) (n : Fin 2097152)
  /-- STREAM_HANDSHAKE (R269). -/
  | streamHandshake (stream : Fin 2097152)
  /-- SEQ_BUDGET_RELEASE (R271). -/
  | seqBudgetRelease (n : Fin 2097152)
  /-- OOT_ALLOCATE (R284). -/
  | ootAllocate (n : Nat)
  /-- ORD_EXECUTE (R275). -/
  | ordExecute (h : Fin 4096)
  /-- HELD_AGE_OUT (R275). -/
  | heldAgeOut (h : Fin 4096)
  /-- RECORD_AGE_OUT (R278). -/
  | recordAgeOut (r : Fin 32768)
  /-- CREATE (R300). -/
  | create (mrp : Bool)
  /-- CREATE_LIST_READ (R303). -/
  | createListRead
  /-- NARROW (R306). -/
  | narrow
  /-- REVOKE (R306). -/
  | revoke
  /-- REVOKE_ACK (R306). -/
  | revokeAck (engine : Fin 19)
  /-- CHUNK_MISS_FILL (R304). -/
  | chunkMissFill (w : WinNum) (line : Nat)
  /-- TGT_ADMIT (R310). -/
  | tgtAdmit (id : Nat)
  /-- BUSY_BOUND_TMO (R310). -/
  | busyBoundTmo (id : Nat)
  /-- HEAT_HALVE (R314). -/
  | heatHalve
  /-- START (R321). -/
  | start (k : Ctx)
  /-- STOP (R322). -/
  | stop (k : Ctx)
  /-- TIER0 (R601). -/
  | tier0 (k : Ctx)
  /-- CONTEXT_STOPPED (R322). -/
  | contextStopped (k : Ctx)
  /-- ILOAD (R330). -/
  | iload
  /-- ILOAD_DONE (R330). -/
  | iloadDone
  /-- BACKEND_ENTRY_START (R327). -/
  | backendEntryStart (k : Ctx)
  /-- BACKEND_ENTRY_DONE (R326). -/
  | backendEntryDone (k : Ctx) (id : Nat)
  /-- FENCE_DONE (R341). -/
  | fenceDone (k : Ctx)
  /-- SYNWAIT_TMO (R342). -/
  | synwaitTmo (k : Ctx)
  /-- NOP (R334). -/
  | nop (k : Ctx)
  /-- MOVI (R334). -/
  | movi (k : Ctx)
  /-- ADD (R334). -/
  | add (k : Ctx)
  /-- SUB (R334). -/
  | sub (k : Ctx)
  /-- MUL (R334). -/
  | mul (k : Ctx)
  /-- MULHU (R334). -/
  | mulhu (k : Ctx)
  /-- AND (R334). -/
  | and (k : Ctx)
  /-- OR (R334). -/
  | or (k : Ctx)
  /-- XOR (R334). -/
  | xor (k : Ctx)
  /-- SHL (R334). -/
  | shl (k : Ctx)
  /-- SHR (R334). -/
  | shr (k : Ctx)
  /-- SRA (R334). -/
  | sra (k : Ctx)
  /-- MINU (R334). -/
  | minu (k : Ctx)
  /-- MAXU (R334). -/
  | maxu (k : Ctx)
  /-- MINS (R334). -/
  | mins (k : Ctx)
  /-- MAXS (R334). -/
  | maxs (k : Ctx)
  /-- CLZ (R334). -/
  | clz (k : Ctx)
  /-- SEL (R334). -/
  | sel (k : Ctx)
  /-- CMP (R335). -/
  | cmp (k : Ctx)
  /-- PLOG (R335). -/
  | plog (k : Ctx)
  /-- BR (R336). -/
  | br (k : Ctx)
  /-- CALL (R336). -/
  | call (k : Ctx)
  /-- JR (R336). -/
  | jr (k : Ctx)
  /-- END (R322). -/
  | endProg (k : Ctx)
  /-- FAULT (R336). -/
  | fault (k : Ctx)
  /-- SRD (R325). -/
  | srd (k : Ctx)
  /-- LDS (R337). -/
  | lds (k : Ctx)
  /-- STS (R337). -/
  | sts (k : Ctx)
  /-- LDW (R337). -/
  | ldw (k : Ctx)
  /-- STW (R337). -/
  | stw (k : Ctx)
  /-- CPIN (R337). -/
  | cpin (k : Ctx)
  /-- CPOUT (R337). -/
  | cpout (k : Ctx)
  /-- PUT (R339). -/
  | put (k : Ctx)
  /-- GET (R339). -/
  | get (k : Ctx)
  /-- ATOM (R339). -/
  | atom (k : Ctx)
  /-- SIGNAL (R339). -/
  | signal (k : Ctx)
  /-- FENCE (R341). -/
  | fence (k : Ctx)
  /-- SYNADD (R342). -/
  | synadd (k : Ctx)
  /-- SYNSET (R342). -/
  | synset (k : Ctx)
  /-- SYNRD (R342). -/
  | synrd (k : Ctx)
  /-- SYNWAIT (R342). -/
  | synwait (k : Ctx)
  /-- WTRIG (R342). -/
  | wtrig (k : Ctx)
  /-- RS (R400). -/
  | rs (k : Ctx)
  /-- AG (R400). -/
  | ag (k : Ctx)
  /-- AR (R400). -/
  | ar (k : Ctx)
  /-- RUG (R400). -/
  | rug (k : Ctx)
  /-- A2A (R407). -/
  | a2a (k : Ctx)
  /-- CX (R406). -/
  | cx (k : Ctx)
  /-- STO (R419). -/
  | sto (k : Ctx)
  /-- GSTAT (R343). -/
  | gstat (k : Ctx)
  /-- FXLW (R464). -/
  | fxlw (k : Ctx)
  /-- FXCM (R465). -/
  | fxcm (k : Ctx)
  /-- FXPASS (R480). -/
  | fxpass (k : Ctx)
  /-- ARM (R374). -/
  | armTrig (t : Trig)
  /-- DISARM (R374). -/
  | disarmTrig (t : Trig)
  /-- SYN_HOST_ADD (R382). -/
  | synHostAdd (obj : ObjNum) (addend : BitVec 16)
  /-- TRIGGER_DELIVERY (R370). -/
  | triggerDelivery
  /-- DESCRIPTOR_CREATE (R390). -/
  | descriptorCreate (g : Grp)
  /-- CREATE_IMAGE_READ (R390). -/
  | createImageRead
  /-- DESTROY (R392). -/
  | destroy (g : Grp)
  /-- CANCEL (R392). -/
  | cancel (g : Grp) (mrp : Bool)
  /-- GROUP_RUN_ADMIT (R404). -/
  | groupRunAdmit
  /-- STO_ADMIT (R423). -/
  | stoAdmit
  /-- ABORT_TMO (R417). -/
  | abortTmo (g : Grp)
  /-- COLL_RETRY (R408). -/
  | collRetry
  /-- SVAL (R421). -/
  | sval (p : Port) (m : List Byte)
  /-- SFAIL (R425). -/
  | sfail (p : Port) (m : List Byte)
  /-- UPDATE_COMMIT (R448). -/
  | updateCommit (u : Fin 256)
  /-- UPDATE_SEGMENT (R453). -/
  | updateSegment
  /-- STAGE_COMMIT (R472). -/
  | stageCommit (n : Fin 256)
  /-- FOX_DISPATCH (R483). -/
  | foxDispatch
  /-- FOX_ISLAND_UP (R487). -/
  | foxIslandUp
  /-- FOX_IDLE_OFF (R487). -/
  | foxIdleOff
  /-- SCHED_GRANT (R497). -/
  | schedGrant
  /-- SHAPER_REFILL (R502). -/
  | shaperRefill
  /-- SHAPER_WRITE (R504). -/
  | shaperWrite (n : Fin 64) (w : Word)
  /-- RUN (R541). -/
  | run
  /-- NAP (R539). -/
  | nap
  /-- HIBERNATE (R539). -/
  | hibernate
  /-- NAP_ENTRY_DONE (R539). -/
  | napEntryDone
  /-- HIBERNATE_ENTRY_DONE (R539). -/
  | hibernateEntryDone
  /-- WAKE_AT (R566). -/
  | wakeAt
  /-- WAKE_DONE (R539). -/
  | wakeDone
  /-- DROWSE_ENTRY (R539). -/
  | drowseEntry
  /-- DROWSE_EXIT (R541). -/
  | drowseExit
  /-- TOKEN_PERIOD (R547). -/
  | tokenPeriod (used : List Nat)
  /-- AUTO_DOZE (R544). -/
  | autoDoze (p : Port)
  /-- AUTO_DORMOUSE (R544). -/
  | autoDormouse (p : Port)
  /-- LOCAL_LEVEL (R562). -/
  | localLevel (v : Fin 16)
  /-- DIRECTIVE_APPLY (R552). -/
  | directiveApply
  /-- RAMP_FORCE_OFF (R556). -/
  | rampForceOff
  /-- FAULT_EVENT (R573). -/
  | faultEvent
  /-- HHG_PEND (R574). -/
  | hhgPend (w : Word)
  /-- SELF_CHECK (R577). -/
  | selfCheck (f : Fin 3)
  /-- QUIET_EXPIRY (R579). -/
  | quietExpiry
  /-- SCRUB_WORD (R583). -/
  | scrubWord (g : Fin 15) (w : Nat) (r : Fin 4)
  /-- INIT_FILL_DONE (R584). -/
  | initFillDone
  /-- INIT_FILL_TMO (R584). -/
  | initFillTmo (g : Fin 15)
  /-- TIER1 (R602). -/
  | tier1 (engine : Fin 256) (capture : Bool)
  /-- TIER2 (R603). -/
  | tier2 (capture : Bool)
  /-- TIER3 (R605). -/
  | tier3 (capture : Bool)
  /-- TIER2_LINKS_DRAINED (R604). -/
  | tier2LinksDrained
  /-- LINK_DRAIN_TMO (R604). -/
  | linkDrainTmo (p : Port)
  /-- TIER3_COMPLETE (R605). -/
  | tier3Complete
  /-- FENCE_SW (R606). -/
  | fenceSw (on : Bool)
  /-- HOST_EN (R611). -/
  | hostEn (on : Bool)
  /-- HOST_HB (R611). -/
  | hostHb (v : Word)
  /-- HOST_HB_EXPIRY (R611). -/
  | hostHbExpiry
  /-- WATCHDOG (R610). -/
  | watchdog
  /-- FW_RESTART_DONE (R610). -/
  | fwRestartDone
  /-- MPU_VIOLATION (R631). -/
  | mpuViolation (component : Fin 8)
  /-- HANG (R612). -/
  | hang (engine : Fin 21)
  /-- CAPTURE_HOLD_TMO (R614). -/
  | captureHoldTmo
  /-- RELEASE (R614). -/
  | release
  /-- SOLO_SLOT_END (R616). -/
  | soloSlotEnd
  /-- HELD_RELEASE (R616). -/
  | heldRelease (j : Fin 16) (w : Word)
  /-- AMM_FRAGMENT (R634). -/
  | ammFragment (p : Port) (m : List Byte)
  /-- CHALLENGE_REQ (R521). -/
  | challengeReq (via : Fin 16) (m : List Byte)
  /-- SESSION_OPEN (R521). -/
  | sessionOpen (via : Fin 16) (m : List Byte)
  /-- DIRECTIVE (R644). -/
  | directive (via : Fin 16) (m : List Byte)
  /-- ATTEST_REQ (R520). -/
  | attestReq (via : Fin 16) (m : List Byte)
  /-- HEALTH (R643). -/
  | health (via : Fin 16) (m : List Byte)
  /-- HEALTH_ACK (R641). -/
  | healthAck (via : Fin 16) (m : List Byte)
  /-- CONG_MAP (R643). -/
  | congMap (via : Fin 16) (m : List Byte)
  /-- CONFIG (R638). -/
  | config (via : Fin 16) (m : List Byte)
  /-- PKEY_WRITE (R523). -/
  | pkeyWrite (via : Fin 16) (m : List Byte)
  /-- ROUTE_WRITE (R638). -/
  | routeWrite (via : Fin 16) (m : List Byte)
  /-- ROUTE_CTRL (R638). -/
  | routeCtrl (via : Fin 16) (m : List Byte)
  /-- EPOCH_SET (R638). -/
  | epochSet (via : Fin 16) (m : List Byte)
  /-- POLICY (R523). -/
  | policy (via : Fin 16) (m : List Byte)
  /-- WINDOW_CREATE (R301). -/
  | windowCreate (via : Fin 16) (m : List Byte)
  /-- GROUP_CREATE (R390). -/
  | groupCreate (via : Fin 16) (m : List Byte)
  /-- SEAL (R638). -/
  | seal (via : Fin 16) (m : List Byte)
  /-- CRED_INSTALL (R524). -/
  | credInstall (via : Fin 16) (m : List Byte)
  /-- DEBUG_UNLOCK (R522). -/
  | debugUnlock (via : Fin 16) (m : List Byte)
  /-- RETURN_SERVICE (R619). -/
  | returnService (via : Fin 16) (m : List Byte)
  /-- MIN_SVN (R522). -/
  | minSvn (via : Fin 16) (m : List Byte)
  /-- ANCHOR_REVOKE (R522). -/
  | anchorRevoke (via : Fin 16) (m : List Byte)
  /-- FW_WRITE (R655). -/
  | fwWrite (via : Fin 16) (m : List Byte)
  /-- FW_CHECK (R638). -/
  | fwCheck (via : Fin 16) (m : List Byte)
  /-- REG_READ (R638). -/
  | regRead (via : Fin 16) (m : List Byte)
  /-- REG_WRITE (R638). -/
  | regWrite (via : Fin 16) (m : List Byte)
  /-- TIME_CFG (R647). -/
  | timeCfg (via : Fin 16) (m : List Byte)
  /-- STEWARD (R640). -/
  | steward (via : Fin 16) (m : List Byte)
  /-- GROVE_ADD (R640). -/
  | groveAdd (via : Fin 16) (m : List Byte)
  /-- MEMBER (R641). -/
  | member (via : Fin 16) (m : List Byte)
  /-- HEALTH_PERIOD (R641). -/
  | healthPeriod
  /-- CONG_PERIOD (R641). -/
  | congPeriod
  /-- MEMBER_SILENT (R643). -/
  | memberSilent (entry : Fin 512)
  /-- TIME_SYNC (R647). -/
  | timeSync (ofs : Int)
  /-- LOG_ENABLE (R663). -/
  | logEnable (on : Bool)
  /-- BURROW_REFRESH (R660). -/
  | burrowRefresh (copy : Fin 5)
  /-- WRITE (R652). -/
  | sbWrite (a : BitVec 24) (ws : List Word)
  /-- READ (R652). -/
  | sbRead (a : BitVec 24) (count : Byte)
  /-- STATUS (R653). -/
  | sbStatus
  /-- READ_DATA (R652). -/
  | sbReadData (first : Fin 64) (n : Nat)
  /-- AMM_PUT (R652). -/
  | ammPut (ofs : Fin 4096) (ws : List Word)
  /-- AMM_SEND (R652). -/
  | ammSend (len : Nat)
  /-- AMM_GET (R652). -/
  | ammGet (ofs : Fin 4096) (n : Nat)
  /-- AMM_DONE (R652). -/
  | ammDone
  /-- LOAD_PUT (R652). -/
  | loadPut (ofs : Nat) (ws : List Word)
  /-- LOAD_START (R598). -/
  | loadStart
  /-- SB_BAD_FRAME (R654). -/
  | sbBadFrame (kind : Fin 4)
  /-- FRAME_SLOT (R184). -/
  | frameSlot (p : Port)
  /-- SYMBOL_LOCK_REGAINED (R188). -/
  | symbolLockRegained (k : Lane)
  /-- REFCLK_RETURN (R579). -/
  | refclkReturn
  /-- HERR_NO_ERROR (R571). -/
  | herrNoError (pair : Fin 27)
  /-- HMP_COMMAND_TRANSFER (R85). -/
  | hmpCommandTransfer (c : Chan) (data : Bool)
  /-- COMMIT_MARKER_PASSED (R465). -/
  | commitMarkerPassed
  /-- FLASH_ERASE_PROGRAM_DONE (R661). -/
  | flashEraseProgramDone (ok : Bool)
deriving DecidableEq, Repr

end Sys2Proof
end

