-- ==== Sys2Proof/Config.lean ====
section
/-! DEFINITION. What an implementation fixes and what the spec leaves open: constants without a body, so that no proof
can see their values. -/
namespace Sys2Proof

/-- A free value: what the spec leaves open, drawn anew at each index of the state's counter. -/
opaque Config.freeValue : Nat → Nat

/-- The ABI of the loaded firmware, major in [15:8], minor in [7:0] (R108). -/
opaque Config.firmwareAbi : Nat

end Sys2Proof
end

