-- ==== Sys2Proof/Machine/Fields.lean ====
section
/-! DEFINITION. The register fields of the aperture, each by the name the spec gives it, at its address and bits (R8: 32-bit words; the rule that names a field stands in its docstring). -/
namespace Sys2Proof.Machine

/-- A field of a register: the byte address of its word in the aperture, its highest and its lowest bit (R8). -/
structure Fld where
  addr : Nat
  hi : Nat
  lo : Nat
deriving DecidableEq, Repr

/-- R3. -/ def VERSION.MAJOR : Fld := ⟨0x4, 23, 16⟩
/-- R3. -/ def VERSION.MINOR : Fld := ⟨0x4, 15, 8⟩
/-- R3. -/ def VERSION.PATCH : Fld := ⟨0x4, 7, 0⟩
/-- R5. -/ def BUILD_CFG.STAGING_MIB : Fld := ⟨0x8, 15, 11⟩
/-- R5. -/ def BUILD_CFG.FOX_PRESENT : Fld := ⟨0x8, 10, 10⟩
/-- R5. -/ def BUILD_CFG.HMP_CHANNELS : Fld := ⟨0x8, 9, 5⟩
/-- R5. -/ def BUILD_CFG.LANES_8 : Fld := ⟨0x8, 4, 4⟩
/-- R5. -/ def BUILD_CFG.LINK_PORTS : Fld := ⟨0x8, 3, 0⟩
/-- R58. -/ def IRQ_LINE_STATE.LEVEL : Fld := ⟨0x40, 15, 0⟩
/-- R59. -/ def IRQ_LINE_MASK.ENABLE : Fld := ⟨0x44, 15, 0⟩
/-- R95. -/ def HMP_CFG.RESP_TMO : Fld := ⟨0x300000, 29, 16⟩
/-- R95. -/ def HMP_CFG.TAG_LIMIT : Fld := ⟨0x300000, 11, 0⟩
/-- R96. -/ def HMP_CH_STATUS.QUARANTINED (i : Nat) : Fld := ⟨0x300100 + 0x4 * i, 27, 16⟩
/-- R96. -/ def HMP_CH_STATUS.QUIESCED (i : Nat) : Fld := ⟨0x300100 + 0x4 * i, 12, 12⟩
/-- R96. -/ def HMP_CH_STATUS.OUTSTANDING (i : Nat) : Fld := ⟨0x300100 + 0x4 * i, 11, 0⟩
/-- R97. -/ def HMP_CH_ERR.STRAY (i : Nat) : Fld := ⟨0x300200 + 0x4 * i, 31, 24⟩
/-- R97. -/ def HMP_CH_ERR.TMO (i : Nat) : Fld := ⟨0x300200 + 0x4 * i, 23, 16⟩
/-- R97. -/ def HMP_CH_ERR.ERROR (i : Nat) : Fld := ⟨0x300200 + 0x4 * i, 15, 8⟩
/-- R97. -/ def HMP_CH_ERR.POISON (i : Nat) : Fld := ⟨0x300200 + 0x4 * i, 7, 0⟩
/-- R98. -/ def HMP_CH_STALL.STALL_FC (i : Nat) : Fld := ⟨0x300300 + 0x4 * i, 31, 0⟩
/-- R106. -/ def Q_SEL.QUEUE : Fld := ⟨0x304000, 11, 0⟩
/-- R120. -/ def OPP_ERR.QUOTA_CNT : Fld := ⟨0x301000, 31, 16⟩
/-- R120. -/ def OPP_ERR.DISCARD_CNT : Fld := ⟨0x301000, 15, 0⟩
/-- R126. -/ def TRG_CFG.IRQ_WIRE : Fld := ⟨0x302000, 19, 16⟩
/-- R126. -/ def TRG_CFG.LOWAT : Fld := ⟨0x302000, 13, 8⟩
/-- R126. -/ def TRG_CFG.HIWAT : Fld := ⟨0x302000, 5, 0⟩
/-- R127. -/ def TRG_CTX.DISCARD (i : Nat) : Fld := ⟨0x302800 + 0x4 * i, 31, 24⟩
/-- R127. -/ def TRG_CTX.LATE (i : Nat) : Fld := ⟨0x302800 + 0x4 * i, 23, 16⟩
/-- R127. -/ def TRG_CTX.OVERFLOW (i : Nat) : Fld := ⟨0x302800 + 0x4 * i, 8, 8⟩
/-- R127. -/ def TRG_CTX.LEVEL (i : Nat) : Fld := ⟨0x302800 + 0x4 * i, 6, 0⟩
/-- R160. -/ def LAN_ADAPT_CFG.FREEZE : Fld := ⟨0x50000, 16, 16⟩
/-- R160. -/ def LAN_ADAPT_CFG.PERIOD : Fld := ⟨0x50000, 15, 8⟩
/-- R160. -/ def LAN_ADAPT_CFG.BOUND : Fld := ⟨0x50000, 3, 0⟩
/-- R161. -/ def LAN_TRAIN_CFG.RETRIES : Fld := ⟨0x50004, 26, 24⟩
/-- R161. -/ def LAN_TRAIN_CFG.OFFSET_PPM : Fld := ⟨0x50004, 23, 20⟩
/-- R161. -/ def LAN_TRAIN_CFG.EXCH_TMO : Fld := ⟨0x50004, 19, 12⟩
/-- R161. -/ def LAN_TRAIN_CFG.ALIGN_TMO : Fld := ⟨0x50004, 11, 4⟩
/-- R161. -/ def LAN_TRAIN_CFG.ADAPT_MS : Fld := ⟨0x50004, 3, 0⟩
/-- R162. -/ def LAN_PORT_CFG.TEST (i : Nat) : Fld := ⟨0x50100 + 0x10 * i, 7, 5⟩
/-- R162. -/ def LAN_PORT_CFG.RECAL (i : Nat) : Fld := ⟨0x50100 + 0x10 * i, 2, 2⟩
/-- R162. -/ def LAN_PORT_CFG.LOOPBACK_OK (i : Nat) : Fld := ⟨0x50100 + 0x10 * i, 1, 1⟩
/-- R162. -/ def LAN_PORT_CFG.OFF (i : Nat) : Fld := ⟨0x50100 + 0x10 * i, 0, 0⟩
/-- R163. -/ def LAN_PORT_STATUS.RX_MASK (i : Nat) : Fld := ⟨0x50104 + 0x10 * i, 31, 24⟩
/-- R163. -/ def LAN_PORT_STATUS.FAIL_CAUSE (i : Nat) : Fld := ⟨0x50104 + 0x10 * i, 23, 20⟩
/-- R163. -/ def LAN_PORT_STATUS.ATTEMPTS (i : Nat) : Fld := ⟨0x50104 + 0x10 * i, 19, 17⟩
/-- R163. -/ def LAN_PORT_STATUS.LEADER (i : Nat) : Fld := ⟨0x50104 + 0x10 * i, 16, 16⟩
/-- R163. -/ def LAN_PORT_STATUS.WIDTH_MAX (i : Nat) : Fld := ⟨0x50104 + 0x10 * i, 15, 14⟩
/-- R163. -/ def LAN_PORT_STATUS.WIDTH (i : Nat) : Fld := ⟨0x50104 + 0x10 * i, 13, 12⟩
/-- R163. -/ def LAN_PORT_STATUS.PLL_LOCKED (i : Nat) : Fld := ⟨0x50104 + 0x10 * i, 8, 8⟩
/-- R163. -/ def LAN_PORT_STATUS.STATE (i : Nat) : Fld := ⟨0x50104 + 0x10 * i, 3, 0⟩
/-- R164. -/ def LAN_PORT_HOLD.LOCK_TMO (i : Nat) : Fld := ⟨0x50108 + 0x10 * i, 31, 24⟩
/-- R164. -/ def LAN_PORT_HOLD.HELD (i : Nat) : Fld := ⟨0x50108 + 0x10 * i, 23, 0⟩
/-- R165. -/ def LAN_PORT_FAR.FAR_PORT (i : Nat) : Fld := ⟨0x5010C + 0x10 * i, 31, 28⟩
/-- R165. -/ def LAN_PORT_FAR.FAR_NODE (i : Nat) : Fld := ⟨0x5010C + 0x10 * i, 19, 0⟩
/-- R166. -/ def LAN_EQ_SEED_TX.SWING (i : Nat) : Fld := ⟨0x51000 + 0x8 * i, 21, 16⟩
/-- R166. -/ def LAN_EQ_SEED_TX.PRE2 (i : Nat) : Fld := ⟨0x51000 + 0x8 * i, 15, 12⟩
/-- R166. -/ def LAN_EQ_SEED_TX.POST1 (i : Nat) : Fld := ⟨0x51000 + 0x8 * i, 11, 6⟩
/-- R166. -/ def LAN_EQ_SEED_TX.PRE1 (i : Nat) : Fld := ⟨0x51000 + 0x8 * i, 5, 0⟩
/-- R166. -/ def LAN_EQ_LIVE_TX.SWING (i : Nat) : Fld := ⟨0x52000 + 0x8 * i, 21, 16⟩
/-- R166. -/ def LAN_EQ_LIVE_TX.PRE2 (i : Nat) : Fld := ⟨0x52000 + 0x8 * i, 15, 12⟩
/-- R166. -/ def LAN_EQ_LIVE_TX.POST1 (i : Nat) : Fld := ⟨0x52000 + 0x8 * i, 11, 6⟩
/-- R166. -/ def LAN_EQ_LIVE_TX.PRE1 (i : Nat) : Fld := ⟨0x52000 + 0x8 * i, 5, 0⟩
/-- R167. -/ def LAN_EQ_SEED_RX.DFE3 (i : Nat) : Fld := ⟨0x51004 + 0x8 * i, 28, 23⟩
/-- R167. -/ def LAN_EQ_SEED_RX.DFE2 (i : Nat) : Fld := ⟨0x51004 + 0x8 * i, 22, 17⟩
/-- R167. -/ def LAN_EQ_SEED_RX.DFE1 (i : Nat) : Fld := ⟨0x51004 + 0x8 * i, 16, 10⟩
/-- R167. -/ def LAN_EQ_SEED_RX.VGA (i : Nat) : Fld := ⟨0x51004 + 0x8 * i, 9, 5⟩
/-- R167. -/ def LAN_EQ_SEED_RX.CTLE (i : Nat) : Fld := ⟨0x51004 + 0x8 * i, 4, 0⟩
/-- R167. -/ def LAN_EQ_LIVE_RX.DFE3 (i : Nat) : Fld := ⟨0x52004 + 0x8 * i, 28, 23⟩
/-- R167. -/ def LAN_EQ_LIVE_RX.DFE2 (i : Nat) : Fld := ⟨0x52004 + 0x8 * i, 22, 17⟩
/-- R167. -/ def LAN_EQ_LIVE_RX.DFE1 (i : Nat) : Fld := ⟨0x52004 + 0x8 * i, 16, 10⟩
/-- R167. -/ def LAN_EQ_LIVE_RX.VGA (i : Nat) : Fld := ⟨0x52004 + 0x8 * i, 9, 5⟩
/-- R167. -/ def LAN_EQ_LIVE_RX.CTLE (i : Nat) : Fld := ⟨0x52004 + 0x8 * i, 4, 0⟩
/-- R168. -/ def LAN_LANE_STATUS.ELASTIC (i : Nat) : Fld := ⟨0x53000 + 0x4 * i, 28, 24⟩
/-- R168. -/ def LAN_LANE_STATUS.CLAMPED (i : Nat) : Fld := ⟨0x53000 + 0x4 * i, 17, 17⟩
/-- R168. -/ def LAN_LANE_STATUS.SKEW_UI (i : Nat) : Fld := ⟨0x53000 + 0x4 * i, 16, 8⟩
/-- R168. -/ def LAN_LANE_STATUS.IN_USE (i : Nat) : Fld := ⟨0x53000 + 0x4 * i, 5, 5⟩
/-- R168. -/ def LAN_LANE_STATUS.HEALTHY (i : Nat) : Fld := ⟨0x53000 + 0x4 * i, 4, 4⟩
/-- R168. -/ def LAN_LANE_STATUS.INVERTED (i : Nat) : Fld := ⟨0x53000 + 0x4 * i, 3, 3⟩
/-- R168. -/ def LAN_LANE_STATUS.LOGICAL (i : Nat) : Fld := ⟨0x53000 + 0x4 * i, 2, 0⟩
/-- R169. -/ def LAN_LANE_ERR.SLIP (i : Nat) : Fld := ⟨0x54000 + 0x4 * i, 31, 24⟩
/-- R169. -/ def LAN_LANE_ERR.STUFF_EXH (i : Nat) : Fld := ⟨0x54000 + 0x4 * i, 23, 16⟩
/-- R169. -/ def LAN_LANE_ERR.CORR_SYM (i : Nat) : Fld := ⟨0x54000 + 0x4 * i, 15, 0⟩
/-- R170. -/ def OWL_CTRL.START : Fld := ⟨0x60000, 31, 31⟩
/-- R170. -/ def OWL_CTRL.DWELL : Fld := ⟨0x60000, 27, 24⟩
/-- R170. -/ def OWL_CTRL.VOLT : Fld := ⟨0x60000, 23, 16⟩
/-- R170. -/ def OWL_CTRL.PHASE : Fld := ⟨0x60000, 14, 9⟩
/-- R170. -/ def OWL_CTRL.EYE : Fld := ⟨0x60000, 8, 7⟩
/-- R170. -/ def OWL_CTRL.LANE : Fld := ⟨0x60000, 6, 0⟩
/-- R171. -/ def OWL_STATUS.REFUSED : Fld := ⟨0x60004, 2, 2⟩
/-- R171. -/ def OWL_STATUS.DONE : Fld := ⟨0x60004, 1, 1⟩
/-- R171. -/ def OWL_STATUS.BUSY : Fld := ⟨0x60004, 0, 0⟩
/-- R172. -/ def OWL_COUNT.MISMATCH : Fld := ⟨0x60008, 31, 0⟩
/-- R173. -/ def OWL_HEALTH_CFG.ENABLE : Fld := ⟨0x60010, 24, 24⟩
/-- R173. -/ def OWL_HEALTH_CFG.PERIOD : Fld := ⟨0x60010, 23, 16⟩
/-- R173. -/ def OWL_HEALTH_CFG.MIN_HEIGHT : Fld := ⟨0x60010, 15, 8⟩
/-- R173. -/ def OWL_HEALTH_CFG.MIN_WIDTH : Fld := ⟨0x60010, 7, 0⟩
/-- R174. -/ def OWL_SUMMARY.AGE (i : Nat) : Fld := ⟨0x60100 + 0x4 * i, 23, 16⟩
/-- R174. -/ def OWL_SUMMARY.HEIGHT (i : Nat) : Fld := ⟨0x60100 + 0x4 * i, 15, 8⟩
/-- R174. -/ def OWL_SUMMARY.WIDTH (i : Nat) : Fld := ⟨0x60100 + 0x4 * i, 7, 0⟩
/-- R215. -/ def LNK_CTRL.REEXCH (i : Nat) : Fld := ⟨0x80000 + 0x10000 * i, 31, 31⟩
/-- R215. -/ def LNK_CTRL.RETRAIN (i : Nat) : Fld := ⟨0x80000 + 0x10000 * i, 30, 30⟩
/-- R215. -/ def LNK_CTRL.SEAL_REQ (i : Nat) : Fld := ⟨0x80000 + 0x10000 * i, 29, 29⟩
/-- R215. -/ def LNK_CTRL.NO_SLEEP (i : Nat) : Fld := ⟨0x80000 + 0x10000 * i, 28, 28⟩
/-- R215. -/ def LNK_CTRL.EXPECT_EN (i : Nat) : Fld := ⟨0x80000 + 0x10000 * i, 27, 27⟩
/-- R215. -/ def LNK_CTRL.EXPECT_NODE (i : Nat) : Fld := ⟨0x80000 + 0x10000 * i, 19, 0⟩
/-- R216. -/ def LNK_STATUS.VC_RUN (i : Nat) : Fld := ⟨0x80004 + 0x10000 * i, 31, 16⟩
/-- R216. -/ def LNK_STATUS.SEALED (i : Nat) : Fld := ⟨0x80004 + 0x10000 * i, 15, 15⟩
/-- R216. -/ def LNK_STATUS.QCAUSE (i : Nat) : Fld := ⟨0x80004 + 0x10000 * i, 14, 4⟩
/-- R216. -/ def LNK_STATUS.STATE (i : Nat) : Fld := ⟨0x80004 + 0x10000 * i, 3, 0⟩
/-- R217. -/ def LNK_TMR0.LOCK_TMO (i : Nat) : Fld := ⟨0x80008 + 0x10000 * i, 31, 22⟩
/-- R217. -/ def LNK_TMR0.REPLAY_TMO (i : Nat) : Fld := ⟨0x80008 + 0x10000 * i, 21, 14⟩
/-- R217. -/ def LNK_TMR0.NAK_TMO (i : Nat) : Fld := ⟨0x80008 + 0x10000 * i, 13, 7⟩
/-- R217. -/ def LNK_TMR0.REPLAY_MAX (i : Nat) : Fld := ⟨0x80008 + 0x10000 * i, 3, 0⟩
/-- R218. -/ def LNK_TMR1.TIME_TOL (i : Nat) : Fld := ⟨0x8000C + 0x10000 * i, 23, 16⟩
/-- R218. -/ def LNK_TMR1.CAP_TMO (i : Nat) : Fld := ⟨0x8000C + 0x10000 * i, 15, 8⟩
/-- R218. -/ def LNK_TMR1.SLEEP_TMO (i : Nat) : Fld := ⟨0x8000C + 0x10000 * i, 7, 0⟩
/-- R219. -/ def LNK_SEQ.TX_NEXT (i : Nat) : Fld := ⟨0x80010 + 0x10000 * i, 31, 16⟩
/-- R219. -/ def LNK_SEQ.TX_ACKED (i : Nat) : Fld := ⟨0x80010 + 0x10000 * i, 15, 0⟩
/-- R219. -/ def LNK_RSEQ.RB_FILL (i : Nat) : Fld := ⟨0x80014 + 0x10000 * i, 27, 16⟩
/-- R219. -/ def LNK_RSEQ.RX_EXPECT (i : Nat) : Fld := ⟨0x80014 + 0x10000 * i, 15, 0⟩
/-- R220. -/ def LNK_RTT.TIME_OFS (i : Nat) : Fld := ⟨0x80018 + 0x10000 * i, 31, 16⟩
/-- R220. -/ def LNK_RTT.RTT_NS (i : Nat) : Fld := ⟨0x80018 + 0x10000 * i, 15, 0⟩
/-- R221. -/ def LNK_ERR.PROTO (i : Nat) : Fld := ⟨0x80020 + 0x10000 * i, 31, 24⟩
/-- R221. -/ def LNK_ERR.TAG_FAIL (i : Nat) : Fld := ⟨0x80020 + 0x10000 * i, 23, 16⟩
/-- R221. -/ def LNK_ERR.SLEEP_FAIL (i : Nat) : Fld := ⟨0x80020 + 0x10000 * i, 15, 8⟩
/-- R221. -/ def LNK_ERR.DOWN (i : Nat) : Fld := ⟨0x80020 + 0x10000 * i, 7, 0⟩
/-- R221. -/ def LNK_REPLAY.RETRAINS (i : Nat) : Fld := ⟨0x80024 + 0x10000 * i, 31, 24⟩
/-- R221. -/ def LNK_REPLAY.REPLAYS (i : Nat) : Fld := ⟨0x80024 + 0x10000 * i, 23, 12⟩
/-- R221. -/ def LNK_REPLAY.NAKS (i : Nat) : Fld := ⟨0x80024 + 0x10000 * i, 11, 0⟩
/-- R222. -/ def LNK_CREDIT_ADV.ADV_HDR (p v : Nat) : Fld := ⟨0x80100 + 0x10000 * p + 4 * v, 21, 13⟩
/-- R222. -/ def LNK_CREDIT_ADV.ADV_DATA (p v : Nat) : Fld := ⟨0x80100 + 0x10000 * p + 4 * v, 12, 0⟩
/-- R223. -/ def LNK_CREDIT_FAR0.USED_H (p v : Nat) : Fld := ⟨0x80200 + 0x10000 * p + 16 * v, 31, 16⟩
/-- R223. -/ def LNK_CREDIT_FAR0.LIM_H (p v : Nat) : Fld := ⟨0x80200 + 0x10000 * p + 16 * v, 15, 0⟩
/-- R223. -/ def LNK_CREDIT_FAR1.LIM_D (p v : Nat) : Fld := ⟨0x80204 + 0x10000 * p + 16 * v, 19, 0⟩
/-- R223. -/ def LNK_CREDIT_FAR2.USED_D (p v : Nat) : Fld := ⟨0x80208 + 0x10000 * p + 16 * v, 19, 0⟩
/-- R249. -/ def RTR_CTRL.HOLD : Fld := ⟨0x140000, 1, 1⟩
/-- R249. -/ def RTR_CTRL.ARM : Fld := ⟨0x140000, 0, 0⟩
/-- R250. -/ def RTR_EPOCH.LATE : Fld := ⟨0x140004, 19, 19⟩
/-- R250. -/ def RTR_EPOCH.ARMED : Fld := ⟨0x140004, 18, 18⟩
/-- R250. -/ def RTR_EPOCH.OLD_FREE : Fld := ⟨0x140004, 17, 17⟩
/-- R250. -/ def RTR_EPOCH.DRAINING : Fld := ⟨0x140004, 16, 16⟩
/-- R250. -/ def RTR_EPOCH.EPOCH : Fld := ⟨0x140004, 15, 0⟩
/-- R252. -/ def RTR_TMR.DRAIN_LIMIT : Fld := ⟨0x140010, 31, 24⟩
/-- R252. -/ def RTR_TMR.ENTRY_WAIT : Fld := ⟨0x140010, 23, 16⟩
/-- R252. -/ def RTR_TMR.DOWN_HOLD : Fld := ⟨0x140010, 15, 8⟩
/-- R253. -/ def RTR_VER_CFG.VALID (i : Nat) : Fld := ⟨0x140020 + 0x4 * i, 31, 31⟩
/-- R253. -/ def RTR_VER_CFG.RANK (i : Nat) : Fld := ⟨0x140020 + 0x4 * i, 17, 0⟩
/-- R254. -/ def RTR_VC_MAXPKT.CODE : Fld := ⟨0x140030, 31, 0⟩
/-- R255. -/ def RTR_ERR.NOROUTE : Fld := ⟨0x140040, 31, 24⟩
/-- R255. -/ def RTR_ERR.ORDER : Fld := ⟨0x140040, 23, 16⟩
/-- R255. -/ def RTR_ERR.STALE : Fld := ⟨0x140040, 15, 8⟩
/-- R255. -/ def RTR_ERR.TBLWR : Fld := ⟨0x140040, 7, 0⟩
/-- R256. -/ def RTR_RESIDENT.RES1 : Fld := ⟨0x140044, 31, 16⟩
/-- R256. -/ def RTR_RESIDENT.RES0 : Fld := ⟨0x140044, 15, 0⟩
/-- R257. -/ def RTR_CONG_CFG.SHIFT : Fld := ⟨0x140050, 11, 8⟩
/-- R257. -/ def RTR_CONG_CFG.PERIOD : Fld := ⟨0x140050, 7, 0⟩
/-- R258. -/ def RTR_PORT_CFG.DIR (i : Nat) : Fld := ⟨0x140100 + 0x4 * i, 3, 0⟩
/-- R259. -/ def RTR_PORT_STAT.DOWN_DROP (i : Nat) : Fld := ⟨0x140140 + 0x4 * i, 31, 16⟩
/-- R259. -/ def RTR_PORT_STAT.BUBBLE_SHORT (i : Nat) : Fld := ⟨0x140140 + 0x4 * i, 1, 1⟩
/-- R259. -/ def RTR_PORT_STAT.USABLE (i : Nat) : Fld := ⟨0x140140 + 0x4 * i, 0, 0⟩
/-- R260. -/ def RTR_CONG.ENTRY_LATE (i : Nat) : Fld := ⟨0x140180 + 0x4 * i, 31, 16⟩
/-- R260. -/ def RTR_CONG.UTIL (i : Nat) : Fld := ⟨0x140180 + 0x4 * i, 11, 8⟩
/-- R260. -/ def RTR_CONG.LEVEL (i : Nat) : Fld := ⟨0x140180 + 0x4 * i, 3, 0⟩
/-- R261. -/ def RTR_PKEY_REF.COUNT (i : Nat) : Fld := ⟨0x1401C0 + 0x4 * i, 15, 0⟩
/-- R262. -/ def RTR_PKEY.VALID (i : Nat) : Fld := ⟨0x141000 + 0x4 * i, 31, 31⟩
/-- R262. -/ def RTR_PKEY.LOCAL (i : Nat) : Fld := ⟨0x141000 + 0x4 * i, 30, 30⟩
/-- R262. -/ def RTR_PKEY.PORTS (i : Nat) : Fld := ⟨0x141000 + 0x4 * i, 29, 18⟩
/-- R262. -/ def RTR_PKEY.KEY (i : Nat) : Fld := ⟨0x141000 + 0x4 * i, 15, 0⟩
/-- R291. -/ def XPT_CFG.REC_AGE : Fld := ⟨0x180000, 31, 24⟩
/-- R291. -/ def XPT_CFG.ATTEMPTS : Fld := ⟨0x180000, 23, 20⟩
/-- R291. -/ def XPT_CFG.BACKOFF_MAX : Fld := ⟨0x180000, 19, 16⟩
/-- R291. -/ def XPT_CFG.RTO : Fld := ⟨0x180000, 15, 8⟩
/-- R291. -/ def XPT_CFG.PKT_LIFE : Fld := ⟨0x180000, 7, 0⟩
/-- R292. -/ def XPT_STAG.NEXT : Fld := ⟨0x180004, 23, 0⟩
/-- R293. -/ def XPT_USE.REC_USED : Fld := ⟨0x180008, 31, 16⟩
/-- R293. -/ def XPT_USE.OOT_USED : Fld := ⟨0x180008, 15, 0⟩
/-- R293. -/ def XPT_USE2.HOLD_USED : Fld := ⟨0x18000C, 28, 16⟩
/-- R293. -/ def XPT_USE2.BMP_USED : Fld := ⟨0x18000C, 13, 0⟩
/-- R294. -/ def XPT_ERR.STALE_LIFE : Fld := ⟨0x180010, 31, 24⟩
/-- R294. -/ def XPT_ERR.STALE_STAG : Fld := ⟨0x180010, 23, 16⟩
/-- R294. -/ def XPT_ERR.WINDOW : Fld := ⟨0x180010, 15, 8⟩
/-- R294. -/ def XPT_ERR.STRAY : Fld := ⟨0x180010, 7, 0⟩
/-- R294. -/ def XPT_ERR2.REC_FULL : Fld := ⟨0x180014, 31, 24⟩
/-- R294. -/ def XPT_ERR2.BAD_FULL : Fld := ⟨0x180014, 23, 16⟩
/-- R294. -/ def XPT_ERR2.HOLD_FULL : Fld := ⟨0x180014, 15, 8⟩
/-- R294. -/ def XPT_ERR2.BAD : Fld := ⟨0x180014, 7, 0⟩
/-- R294. -/ def XPT_EVT.UNREACH : Fld := ⟨0x180018, 31, 24⟩
/-- R294. -/ def XPT_EVT.RESYNC : Fld := ⟨0x180018, 23, 16⟩
/-- R294. -/ def XPT_EVT.RETX : Fld := ⟨0x180018, 15, 0⟩
/-- R687. -/ def XPT_ERR3.RNAK_UNREACH : Fld := ⟨0x18001C, 31, 24⟩
/-- R687. -/ def XPT_ERR3.HELD_DUP : Fld := ⟨0x18001C, 23, 16⟩
/-- R687. -/ def XPT_ERR3.DUP_BUSY : Fld := ⟨0x18001C, 15, 8⟩
/-- R295. -/ def XPT_CTX.USED (i : Nat) : Fld := ⟨0x181000 + 0x4 * i, 31, 16⟩
/-- R295. -/ def XPT_CTX.CAP (i : Nat) : Fld := ⟨0x181000 + 0x4 * i, 15, 0⟩
/-- R295. -/ def XPT_LATE.COUNT (i : Nat) : Fld := ⟨0x181800 + 0x4 * i, 31, 8⟩
/-- R295. -/ def XPT_LATE.STATUS (i : Nat) : Fld := ⟨0x181800 + 0x4 * i, 7, 0⟩
/-- R315. -/ def TGT_CFG.MGMT_ONLY : Fld := ⟨0x1A0000, 31, 31⟩
/-- R315. -/ def TGT_CFG.HEAT_PERIOD : Fld := ⟨0x1A0000, 23, 16⟩
/-- R315. -/ def TGT_CFG.BUSY_BOUND : Fld := ⟨0x1A0000, 7, 0⟩
/-- R316. -/ def TGT_WCMD.BUSY : Fld := ⟨0x1A0004, 16, 16⟩
/-- R316. -/ def TGT_WCMD.STATUS : Fld := ⟨0x1A0004, 15, 8⟩
/-- R316. -/ def TGT_WCMD.CMD : Fld := ⟨0x1A0004, 1, 0⟩
/-- R316. -/ def TGT_WWAIT.PENDING : Fld := ⟨0x1A0008, 18, 0⟩
/-- R317. -/ def TGT_WARG0.COUNT_M1 : Fld := ⟨0x1A0010, 31, 16⟩
/-- R317. -/ def TGT_WARG0.WINDOW : Fld := ⟨0x1A0010, 15, 0⟩
/-- R317. -/ def TGT_WARG1.BASE_LO : Fld := ⟨0x1A0014, 31, 0⟩
/-- R317. -/ def TGT_WARG2.BASE_HI : Fld := ⟨0x1A0018, 19, 0⟩
/-- R317. -/ def TGT_WARG3.BOUND_LO : Fld := ⟨0x1A001C, 31, 0⟩
/-- R317. -/ def TGT_WARG4.PKEY : Fld := ⟨0x1A0020, 31, 16⟩
/-- R317. -/ def TGT_WARG4.BOUND_HI : Fld := ⟨0x1A0020, 15, 0⟩
/-- R317. -/ def TGT_WARG5.CHUNK_LOG2 : Fld := ⟨0x1A0024, 8, 4⟩
/-- R317. -/ def TGT_WARG5.KIND : Fld := ⟨0x1A0024, 3, 3⟩
/-- R317. -/ def TGT_WARG5.AT : Fld := ⟨0x1A0024, 2, 2⟩
/-- R317. -/ def TGT_WARG5.WR : Fld := ⟨0x1A0024, 1, 1⟩
/-- R317. -/ def TGT_WARG5.RD : Fld := ⟨0x1A0024, 0, 0⟩
/-- R318. -/ def TGT_OVF_LO.BASE_LO : Fld := ⟨0x1A0030, 31, 12⟩
/-- R318. -/ def TGT_OVF_HI.BASE_HI : Fld := ⟨0x1A0034, 19, 0⟩
/-- R318. -/ def TGT_OVF_SIZE.PAGES : Fld := ⟨0x1A0038, 19, 0⟩
/-- R318. -/ def TGT_OVF_SERIAL.SERIAL : Fld := ⟨0x1A003C, 31, 0⟩
/-- R319. -/ def TGT_ERR.TAG_FAIL : Fld := ⟨0x1A0040, 31, 24⟩
/-- R319. -/ def TGT_ERR.REVOKED_CNT : Fld := ⟨0x1A0040, 23, 16⟩
/-- R319. -/ def TGT_ERR.RIGHTS_CNT : Fld := ⟨0x1A0040, 15, 8⟩
/-- R319. -/ def TGT_ERR.BOUND_CNT : Fld := ⟨0x1A0040, 7, 0⟩
/-- R319. -/ def TGT_BUSY.BUSY_CNT : Fld := ⟨0x1A0044, 31, 0⟩
/-- R319. -/ def TGT_SPILL.CHUNK_MISS : Fld := ⟨0x1A0048, 31, 0⟩
/-- R348. -/ def MRT_CFG.IRQ_WIRE : Fld := ⟨0x1C0000, 19, 16⟩
/-- R349. -/ def MRT_ILOAD_LO.ADDR_LO : Fld := ⟨0x1C0010, 31, 4⟩
/-- R349. -/ def MRT_ILOAD_HI.ADDR_HI : Fld := ⟨0x1C0014, 19, 0⟩
/-- R349. -/ def MRT_ILOAD_RANGE.COUNT : Fld := ⟨0x1C0018, 31, 16⟩
/-- R349. -/ def MRT_ILOAD_RANGE.INDEX : Fld := ⟨0x1C0018, 14, 0⟩
/-- R350. -/ def MRT_ILOAD_CMD.BUSY : Fld := ⟨0x1C001C, 16, 16⟩
/-- R350. -/ def MRT_ILOAD_CMD.STATUS : Fld := ⟨0x1C001C, 15, 8⟩
/-- R350. -/ def MRT_ILOAD_CMD.GO : Fld := ⟨0x1C001C, 0, 0⟩
/-- R351. -/ def MRT_FAULT_SUM.FAULTED (i : Nat) : Fld := ⟨0x1C0040 + 0x4 * i, 31, 0⟩
/-- R352. -/ def MRT_CTX_CFG0.ENTRY (i : Nat) : Fld := ⟨0x1C1000 + 0x10 * i, 30, 16⟩
/-- R352. -/ def MRT_CTX_CFG0.CODE_BASE (i : Nat) : Fld := ⟨0x1C1000 + 0x10 * i, 14, 0⟩
/-- R353. -/ def MRT_CTX_CFG1.PKEY (i : Nat) : Fld := ⟨0x1C1004 + 0x10 * i, 31, 16⟩
/-- R353. -/ def MRT_CTX_CFG1.CODE_LEN (i : Nat) : Fld := ⟨0x1C1004 + 0x10 * i, 15, 0⟩
/-- R354. -/ def MRT_CTX_CFG2.SCR_SIZE (i : Nat) : Fld := ⟨0x1C1008 + 0x10 * i, 24, 16⟩
/-- R354. -/ def MRT_CTX_CFG2.SCR_BASE (i : Nat) : Fld := ⟨0x1C1008 + 0x10 * i, 7, 0⟩
/-- R355. -/ def MRT_CTX_CMD.CMD (i : Nat) : Fld := ⟨0x1C100C + 0x10 * i, 1, 0⟩
/-- R356. -/ def MRT_CTX_STATUS0.STATE (i : Nat) : Fld := ⟨0x1C4000 + 0x8 * i, 31, 28⟩
/-- R356. -/ def MRT_CTX_STATUS0.CAUSE (i : Nat) : Fld := ⟨0x1C4000 + 0x8 * i, 27, 24⟩
/-- R356. -/ def MRT_CTX_STATUS0.CMD_ERR (i : Nat) : Fld := ⟨0x1C4000 + 0x8 * i, 23, 23⟩
/-- R356. -/ def MRT_CTX_STATUS0.PC (i : Nat) : Fld := ⟨0x1C4000 + 0x8 * i, 14, 0⟩
/-- R356. -/ def MRT_CTX_STATUS1.INFO (i : Nat) : Fld := ⟨0x1C4004 + 0x8 * i, 31, 16⟩
/-- R356. -/ def MRT_CTX_STATUS1.WAIT_OBJ (i : Nat) : Fld := ⟨0x1C4004 + 0x8 * i, 15, 0⟩
/-- R379. -/ def SYN_CFG.MGMT_LOCK : Fld := ⟨0x1E0000, 31, 31⟩
/-- R379. -/ def SYN_CFG.IRQ_WIRE : Fld := ⟨0x1E0000, 19, 16⟩
/-- R380. -/ def SYN_TCMD.ENTRY : Fld := ⟨0x1E0004, 31, 20⟩
/-- R380. -/ def SYN_TCMD.BUSY : Fld := ⟨0x1E0004, 16, 16⟩
/-- R380. -/ def SYN_TCMD.STATUS : Fld := ⟨0x1E0004, 15, 8⟩
/-- R380. -/ def SYN_TCMD.CMD : Fld := ⟨0x1E0004, 1, 0⟩
/-- R381. -/ def SYN_POISON.COUNT : Fld := ⟨0x1E0008, 31, 16⟩
/-- R381. -/ def SYN_POISON.LAST : Fld := ⟨0x1E0008, 15, 0⟩
/-- R382. -/ def SYN_HOST_ADD.ADDEND : Fld := ⟨0x1E000C, 31, 16⟩
/-- R382. -/ def SYN_HOST_ADD.OBJ : Fld := ⟨0x1E000C, 15, 0⟩
/-- R383. -/ def SYN_TARG0.CTX : Fld := ⟨0x1E0010, 29, 21⟩
/-- R383. -/ def SYN_TARG0.ACTION : Fld := ⟨0x1E0010, 20, 18⟩
/-- R383. -/ def SYN_TARG0.COND : Fld := ⟨0x1E0010, 17, 16⟩
/-- R383. -/ def SYN_TARG0.OBJ : Fld := ⟨0x1E0010, 15, 0⟩
/-- R383. -/ def SYN_TARG1.THRESH_LO : Fld := ⟨0x1E0014, 31, 0⟩
/-- R383. -/ def SYN_TARG2.THRESH_HI : Fld := ⟨0x1E0018, 31, 0⟩
/-- R383. -/ def SYN_TARG3.STEP : Fld := ⟨0x1E001C, 31, 0⟩
/-- R383. -/ def SYN_TARG4.ARG_LO : Fld := ⟨0x1E0020, 31, 0⟩
/-- R383. -/ def SYN_TARG5.ARG_HI : Fld := ⟨0x1E0024, 31, 0⟩
/-- R384. -/ def SYN_DELIV.RETRY : Fld := ⟨0x1E0030, 31, 16⟩
/-- R384. -/ def SYN_DELIV.AFAIL : Fld := ⟨0x1E0030, 13, 13⟩
/-- R384. -/ def SYN_DELIV.QUEUED : Fld := ⟨0x1E0030, 12, 0⟩
/-- R385. -/ def SYN_PAGE.REMOTE (i : Nat) : Fld := ⟨0x1E0400 + 0x4 * i, 16, 16⟩
/-- R385. -/ def SYN_PAGE.PKEY (i : Nat) : Fld := ⟨0x1E0400 + 0x4 * i, 15, 0⟩
/-- R386. -/ def SYN_IRQ_PEND.PEND (i : Nat) : Fld := ⟨0x1E0800 + 0x4 * i, 31, 0⟩
/-- R426. -/ def YAR_GCMD.GROUP : Fld := ⟨0x284000, 31, 20⟩
/-- R426. -/ def YAR_GCMD.BUSY : Fld := ⟨0x284000, 16, 16⟩
/-- R426. -/ def YAR_GCMD.STATUS : Fld := ⟨0x284000, 15, 8⟩
/-- R426. -/ def YAR_GCMD.CMD : Fld := ⟨0x284000, 1, 0⟩
/-- R427. -/ def YAR_GARG_LO.ADDR_LO : Fld := ⟨0x284004, 31, 7⟩
/-- R427. -/ def YAR_GARG_HI.ADDR_HI : Fld := ⟨0x284008, 19, 0⟩
/-- R428. -/ def YAR_GCFG.IRQ_WIRE : Fld := ⟨0x28400C, 19, 16⟩
/-- R428. -/ def YAR_GCFG.COLL_RETRY : Fld := ⟨0x28400C, 15, 8⟩
/-- R429. -/ def YAR_GRUN.RUNNING : Fld := ⟨0x284010, 26, 16⟩
/-- R429. -/ def YAR_GRUN.CREATED : Fld := ⟨0x284010, 12, 0⟩
/-- R429. -/ def YAR_CERR.VERSION_RETRY : Fld := ⟨0x284014, 31, 24⟩
/-- R429. -/ def YAR_CERR.EARLY_BUSY : Fld := ⟨0x284014, 23, 16⟩
/-- R429. -/ def YAR_CERR.MISMATCH : Fld := ⟨0x284014, 15, 8⟩
/-- R429. -/ def YAR_CERR.FAIL_RX : Fld := ⟨0x284014, 7, 0⟩
/-- R429. -/ def STO_STAT.SLOTS : Fld := ⟨0x284018, 15, 8⟩
/-- R429. -/ def STO_STAT.OUTSTANDING : Fld := ⟨0x284018, 3, 0⟩
/-- R448. -/ def UPD_S00.STATE_WIN (i : Nat) : Fld := ⟨0x288000 + 0x40 * i, 31, 16⟩
/-- R448. -/ def UPD_S00.SKIP_NF (i : Nat) : Fld := ⟨0x288000 + 0x40 * i, 4, 4⟩
/-- R448. -/ def UPD_S00.STATE_BF16 (i : Nat) : Fld := ⟨0x288000 + 0x40 * i, 3, 3⟩
/-- R448. -/ def UPD_S00.MASTER (i : Nat) : Fld := ⟨0x288000 + 0x40 * i, 2, 2⟩
/-- R448. -/ def UPD_S00.KIND (i : Nat) : Fld := ⟨0x288000 + 0x40 * i, 1, 0⟩
/-- R448. -/ def UPD_S04.STATE_OFF_LO (i : Nat) : Fld := ⟨0x288004 + 0x40 * i, 31, 0⟩
/-- R448. -/ def UPD_S08.STATE_OFF_HI (i : Nat) : Fld := ⟨0x288008 + 0x40 * i, 15, 0⟩
/-- R448. -/ def UPD_S0C.LR (i : Nat) : Fld := ⟨0x28800C + 0x40 * i, 31, 0⟩
/-- R448. -/ def UPD_S10.B1 (i : Nat) : Fld := ⟨0x288010 + 0x40 * i, 31, 0⟩
/-- R448. -/ def UPD_S14.OMB1 (i : Nat) : Fld := ⟨0x288014 + 0x40 * i, 31, 0⟩
/-- R448. -/ def UPD_S18.B2 (i : Nat) : Fld := ⟨0x288018 + 0x40 * i, 31, 0⟩
/-- R448. -/ def UPD_S1C.OMB2 (i : Nat) : Fld := ⟨0x28801C + 0x40 * i, 31, 0⟩
/-- R448. -/ def UPD_S20.EPS (i : Nat) : Fld := ⟨0x288020 + 0x40 * i, 31, 0⟩
/-- R448. -/ def UPD_S24.WD (i : Nat) : Fld := ⟨0x288024 + 0x40 * i, 31, 0⟩
/-- R448. -/ def UPD_S28.BC1 (i : Nat) : Fld := ⟨0x288028 + 0x40 * i, 31, 0⟩
/-- R448. -/ def UPD_S2C.BC2 (i : Nat) : Fld := ⟨0x28802C + 0x40 * i, 31, 0⟩
/-- R448. -/ def UPD_S30.GSCALE (i : Nat) : Fld := ⟨0x288030 + 0x40 * i, 31, 0⟩
/-- R448. -/ def UPD_S3C.COMMIT (i : Nat) : Fld := ⟨0x28803C + 0x40 * i, 0, 0⟩
/-- R448. -/ def UPD_L00.STATE_WIN (i : Nat) : Fld := ⟨0x28C000 + 0x40 * i, 31, 16⟩
/-- R448. -/ def UPD_L00.SKIP_NF (i : Nat) : Fld := ⟨0x28C000 + 0x40 * i, 4, 4⟩
/-- R448. -/ def UPD_L00.STATE_BF16 (i : Nat) : Fld := ⟨0x28C000 + 0x40 * i, 3, 3⟩
/-- R448. -/ def UPD_L00.MASTER (i : Nat) : Fld := ⟨0x28C000 + 0x40 * i, 2, 2⟩
/-- R448. -/ def UPD_L00.KIND (i : Nat) : Fld := ⟨0x28C000 + 0x40 * i, 1, 0⟩
/-- R448. -/ def UPD_L04.STATE_OFF_LO (i : Nat) : Fld := ⟨0x28C004 + 0x40 * i, 31, 0⟩
/-- R448. -/ def UPD_L08.STATE_OFF_HI (i : Nat) : Fld := ⟨0x28C008 + 0x40 * i, 15, 0⟩
/-- R448. -/ def UPD_L0C.LR (i : Nat) : Fld := ⟨0x28C00C + 0x40 * i, 31, 0⟩
/-- R448. -/ def UPD_L10.B1 (i : Nat) : Fld := ⟨0x28C010 + 0x40 * i, 31, 0⟩
/-- R448. -/ def UPD_L14.OMB1 (i : Nat) : Fld := ⟨0x28C014 + 0x40 * i, 31, 0⟩
/-- R448. -/ def UPD_L18.B2 (i : Nat) : Fld := ⟨0x28C018 + 0x40 * i, 31, 0⟩
/-- R448. -/ def UPD_L1C.OMB2 (i : Nat) : Fld := ⟨0x28C01C + 0x40 * i, 31, 0⟩
/-- R448. -/ def UPD_L20.EPS (i : Nat) : Fld := ⟨0x28C020 + 0x40 * i, 31, 0⟩
/-- R448. -/ def UPD_L24.WD (i : Nat) : Fld := ⟨0x28C024 + 0x40 * i, 31, 0⟩
/-- R448. -/ def UPD_L28.BC1 (i : Nat) : Fld := ⟨0x28C028 + 0x40 * i, 31, 0⟩
/-- R448. -/ def UPD_L2C.BC2 (i : Nat) : Fld := ⟨0x28C02C + 0x40 * i, 31, 0⟩
/-- R448. -/ def UPD_L30.GSCALE (i : Nat) : Fld := ⟨0x28C030 + 0x40 * i, 31, 0⟩
/-- R457. -/ def YAR_ACNT0.SAT : Fld := ⟨0x280000, 31, 24⟩
/-- R457. -/ def YAR_ACNT0.OUT_OVF : Fld := ⟨0x280000, 23, 16⟩
/-- R457. -/ def YAR_ACNT0.NAN : Fld := ⟨0x280000, 15, 8⟩
/-- R457. -/ def YAR_ACNT0.UNWRITTEN : Fld := ⟨0x280000, 7, 0⟩
/-- R457. -/ def YAR_ACNT1.SKIP : Fld := ⟨0x280004, 31, 16⟩
/-- R457. -/ def YAR_ACNT1.FP32_OVF : Fld := ⟨0x280004, 15, 0⟩
/-- R458. -/ def YAR_FLOOR_DROP.COUNT : Fld := ⟨0x280008, 31, 0⟩
/-- R459. -/ def YAR_STG_STAT.RETIRED : Fld := ⟨0x280010, 24, 16⟩
/-- R459. -/ def YAR_STG_STAT.FREE : Fld := ⟨0x280010, 8, 0⟩
/-- R459. -/ def YAR_STG_SPILL.SPILLS : Fld := ⟨0x280014, 31, 0⟩
/-- R460. -/ def YAR_SOVF_LO.BASE_LO : Fld := ⟨0x280020, 31, 16⟩
/-- R460. -/ def YAR_SOVF_HI.BASE_HI : Fld := ⟨0x280024, 19, 0⟩
/-- R460. -/ def YAR_SOVF_SIZE.IN_USE : Fld := ⟨0x280028, 31, 16⟩
/-- R460. -/ def YAR_SOVF_SIZE.SEGS : Fld := ⟨0x280028, 15, 0⟩
/-- R473. -/ def STG_S00.OUT_FMT (i : Nat) : Fld := ⟨0x2C4000 + 0x40 * i, 31, 28⟩
/-- R473. -/ def STG_S00.SRC_FMT (i : Nat) : Fld := ⟨0x2C4000 + 0x40 * i, 27, 24⟩
/-- R473. -/ def STG_S00.RES_BF16 (i : Nat) : Fld := ⟨0x2C4000 + 0x40 * i, 23, 23⟩
/-- R473. -/ def STG_S00.ERRFB (i : Nat) : Fld := ⟨0x2C4000 + 0x40 * i, 22, 22⟩
/-- R473. -/ def STG_S00.TRANSPOSE (i : Nat) : Fld := ⟨0x2C4000 + 0x40 * i, 21, 21⟩
/-- R473. -/ def STG_S00.COMPLEX (i : Nat) : Fld := ⟨0x2C4000 + 0x40 * i, 20, 20⟩
/-- R473. -/ def STG_S00.TILES (i : Nat) : Fld := ⟨0x2C4000 + 0x40 * i, 19, 16⟩
/-- R473. -/ def STG_S00.GANG (i : Nat) : Fld := ⟨0x2C4000 + 0x40 * i, 13, 12⟩
/-- R473. -/ def STG_S00.WFMT (i : Nat) : Fld := ⟨0x2C4000 + 0x40 * i, 10, 8⟩
/-- R473. -/ def STG_S00.KIND (i : Nat) : Fld := ⟨0x2C4000 + 0x40 * i, 2, 0⟩
/-- R473. -/ def STG_S04.RANK (i : Nat) : Fld := ⟨0x2C4004 + 0x40 * i, 23, 16⟩
/-- R473. -/ def STG_S04.K (i : Nat) : Fld := ⟨0x2C4004 + 0x40 * i, 15, 0⟩
/-- R473. -/ def STG_S08.SLOT (i : Nat) : Fld := ⟨0x2C4008 + 0x40 * i, 27, 24⟩
/-- R473. -/ def STG_S08.KEEP (i : Nat) : Fld := ⟨0x2C4008 + 0x40 * i, 20, 16⟩
/-- R473. -/ def STG_S08.T_LEN (i : Nat) : Fld := ⟨0x2C4008 + 0x40 * i, 15, 0⟩
/-- R473. -/ def STG_S0C.SCALE (i : Nat) : Fld := ⟨0x2C400C + 0x40 * i, 31, 0⟩
/-- R473. -/ def STG_S10.RES_WIN (i : Nat) : Fld := ⟨0x2C4010 + 0x40 * i, 15, 0⟩
/-- R473. -/ def STG_S14.RES_OFF_LO (i : Nat) : Fld := ⟨0x2C4014 + 0x40 * i, 31, 0⟩
/-- R473. -/ def STG_S18.RES_OFF_HI (i : Nat) : Fld := ⟨0x2C4018 + 0x40 * i, 15, 0⟩
/-- R473. -/ def STG_S3C.COMMIT (i : Nat) : Fld := ⟨0x2C403C + 0x40 * i, 0, 0⟩
/-- R473. -/ def STG_L00.OUT_FMT (i : Nat) : Fld := ⟨0x2C8000 + 0x40 * i, 31, 28⟩
/-- R473. -/ def STG_L00.SRC_FMT (i : Nat) : Fld := ⟨0x2C8000 + 0x40 * i, 27, 24⟩
/-- R473. -/ def STG_L00.RES_BF16 (i : Nat) : Fld := ⟨0x2C8000 + 0x40 * i, 23, 23⟩
/-- R473. -/ def STG_L00.ERRFB (i : Nat) : Fld := ⟨0x2C8000 + 0x40 * i, 22, 22⟩
/-- R473. -/ def STG_L00.TRANSPOSE (i : Nat) : Fld := ⟨0x2C8000 + 0x40 * i, 21, 21⟩
/-- R473. -/ def STG_L00.COMPLEX (i : Nat) : Fld := ⟨0x2C8000 + 0x40 * i, 20, 20⟩
/-- R473. -/ def STG_L00.TILES (i : Nat) : Fld := ⟨0x2C8000 + 0x40 * i, 19, 16⟩
/-- R473. -/ def STG_L00.GANG (i : Nat) : Fld := ⟨0x2C8000 + 0x40 * i, 13, 12⟩
/-- R473. -/ def STG_L00.WFMT (i : Nat) : Fld := ⟨0x2C8000 + 0x40 * i, 10, 8⟩
/-- R473. -/ def STG_L00.KIND (i : Nat) : Fld := ⟨0x2C8000 + 0x40 * i, 2, 0⟩
/-- R473. -/ def STG_L04.RANK (i : Nat) : Fld := ⟨0x2C8004 + 0x40 * i, 23, 16⟩
/-- R473. -/ def STG_L04.K (i : Nat) : Fld := ⟨0x2C8004 + 0x40 * i, 15, 0⟩
/-- R473. -/ def STG_L08.SLOT (i : Nat) : Fld := ⟨0x2C8008 + 0x40 * i, 27, 24⟩
/-- R473. -/ def STG_L08.KEEP (i : Nat) : Fld := ⟨0x2C8008 + 0x40 * i, 20, 16⟩
/-- R473. -/ def STG_L08.T_LEN (i : Nat) : Fld := ⟨0x2C8008 + 0x40 * i, 15, 0⟩
/-- R473. -/ def STG_L0C.SCALE (i : Nat) : Fld := ⟨0x2C800C + 0x40 * i, 31, 0⟩
/-- R473. -/ def STG_L10.RES_WIN (i : Nat) : Fld := ⟨0x2C8010 + 0x40 * i, 15, 0⟩
/-- R473. -/ def STG_L14.RES_OFF_LO (i : Nat) : Fld := ⟨0x2C8014 + 0x40 * i, 31, 0⟩
/-- R473. -/ def STG_L18.RES_OFF_HI (i : Nat) : Fld := ⟨0x2C8018 + 0x40 * i, 15, 0⟩
/-- R473. -/ def STG_L1C.SRC_BLK (i : Nat) : Fld := ⟨0x2C801C + 0x40 * i, 31, 0⟩
/-- R473. -/ def STG_L20.OUT_BLK (i : Nat) : Fld := ⟨0x2C8020 + 0x40 * i, 31, 0⟩
/-- R473. -/ def STG_L24.VALID (i : Nat) : Fld := ⟨0x2C8024 + 0x40 * i, 0, 0⟩
/-- R488. -/ def FOX_CFG.IRQ_WIRE : Fld := ⟨0x2C0000, 19, 16⟩
/-- R488. -/ def FOX_CFG.IDLE_OFF : Fld := ⟨0x2C0000, 7, 0⟩
/-- R489. -/ def FOX_STATUS.QUEUE : Fld := ⟨0x2C0004, 25, 20⟩
/-- R489. -/ def FOX_STATUS.MARKER : Fld := ⟨0x2C0004, 19, 16⟩
/-- R489. -/ def FOX_STATUS.LOADING : Fld := ⟨0x2C0004, 11, 8⟩
/-- R489. -/ def FOX_STATUS.FEEDING : Fld := ⟨0x2C0004, 7, 4⟩
/-- R489. -/ def FOX_STATUS.ISLAND : Fld := ⟨0x2C0004, 1, 0⟩
/-- R490. -/ def FOX_TILE_OWN.VALID (i : Nat) : Fld := ⟨0x2C0010 + 0x4 * i, 31, 31⟩
/-- R490. -/ def FOX_TILE_OWN.CTX (i : Nat) : Fld := ⟨0x2C0010 + 0x4 * i, 8, 0⟩
/-- R491. -/ def FOX_WBANK.BANK : Fld := ⟨0x2C0020, 2, 0⟩
/-- R493. -/ def FOX_SLOT_POISON.SHADOW (i : Nat) : Fld := ⟨0x2C0030 + 0x4 * i, 31, 16⟩
/-- R493. -/ def FOX_SLOT_POISON.ACTIVE (i : Nat) : Fld := ⟨0x2C0030 + 0x4 * i, 15, 0⟩
/-- R494. -/ def FOX_ERR.POISON : Fld := ⟨0x2C0040, 31, 24⟩
/-- R494. -/ def FOX_ERR.RIGHTS : Fld := ⟨0x2C0040, 23, 16⟩
/-- R494. -/ def FOX_ERR.OUT_OVF : Fld := ⟨0x2C0040, 15, 8⟩
/-- R494. -/ def FOX_ERR.NONFINITE : Fld := ⟨0x2C0040, 7, 0⟩
/-- R494. -/ def FOX_PASSES.COUNT : Fld := ⟨0x2C0044, 31, 0⟩
/-- R507. -/ def SCH_CFG.BYP_CHARGE : Fld := ⟨0x340000, 24, 24⟩
/-- R507. -/ def SCH_CFG.OVH : Fld := ⟨0x340000, 23, 16⟩
/-- R507. -/ def SCH_CFG.DEF_QUANTUM : Fld := ⟨0x340000, 15, 0⟩
/-- R508. -/ def SCH_STAT.RESV_DEG : Fld := ⟨0x340004, 31, 16⟩
/-- R508. -/ def SCH_STAT.FLOWS : Fld := ⟨0x340004, 13, 0⟩
/-- R509. -/ def SCH_CLASS.SHAPER (i : Nat) : Fld := ⟨0x340100 + 0x4 * i, 23, 16⟩
/-- R509. -/ def SCH_CLASS.QUANTUM (i : Nat) : Fld := ⟨0x340100 + 0x4 * i, 15, 0⟩
/-- R509. -/ def SCH_QUEUE.SHAPER (i : Nat) : Fld := ⟨0x344000 + 0x4 * i, 23, 16⟩
/-- R509. -/ def SCH_QUEUE.QUANTUM (i : Nat) : Fld := ⟨0x344000 + 0x4 * i, 15, 0⟩
/-- R509. -/ def SCH_CTX.SHAPER (i : Nat) : Fld := ⟨0x348000 + 0x4 * i, 23, 16⟩
/-- R509. -/ def SCH_CTX.QUANTUM (i : Nat) : Fld := ⟨0x348000 + 0x4 * i, 15, 0⟩
/-- R509. -/ def SCH_GROUP.SHAPER (i : Nat) : Fld := ⟨0x34C000 + 0x4 * i, 23, 16⟩
/-- R509. -/ def SCH_GROUP.QUANTUM (i : Nat) : Fld := ⟨0x34C000 + 0x4 * i, 15, 0⟩
/-- R510. -/ def SCH_PORT.RATE (i : Nat) : Fld := ⟨0x340200 + 0x4 * i, 31, 16⟩
/-- R510. -/ def SCH_PORT.SHARE (i : Nat) : Fld := ⟨0x340200 + 0x4 * i, 4, 0⟩
/-- R511. -/ def SCH_SHAPER.BURST (i : Nat) : Fld := ⟨0x341000 + 0x10 * i, 31, 16⟩
/-- R511. -/ def SCH_SHAPER.RATE (i : Nat) : Fld := ⟨0x341000 + 0x10 * i, 15, 0⟩
/-- R511. -/ def SCH_TOKENS.TOKENS (i : Nat) : Fld := ⟨0x341004 + 0x10 * i, 31, 0⟩
/-- R511. -/ def SCH_HELD.HELD (i : Nat) : Fld := ⟨0x341008 + 0x10 * i, 31, 0⟩
/-- R532. -/ def SEA_STATUS.SESSIONS : Fld := ⟨0x40000, 27, 25⟩
/-- R532. -/ def SEA_STATUS.CRED : Fld := ⟨0x40000, 24, 24⟩
/-- R532. -/ def SEA_STATUS.MIN_SVN : Fld := ⟨0x40000, 23, 16⟩
/-- R532. -/ def SEA_STATUS.LOCK : Fld := ⟨0x40000, 7, 7⟩
/-- R532. -/ def SEA_STATUS.DBG_UNLOCKED : Fld := ⟨0x40000, 6, 6⟩
/-- R532. -/ def SEA_STATUS.DEBUG_LOCK : Fld := ⟨0x40000, 5, 5⟩
/-- R532. -/ def SEA_STATUS.ANCHOR_KNOWN : Fld := ⟨0x40000, 4, 4⟩
/-- R532. -/ def SEA_STATUS.ANCHOR_SLOT : Fld := ⟨0x40000, 3, 2⟩
/-- R532. -/ def SEA_STATUS.FW_VERIFIED : Fld := ⟨0x40000, 1, 1⟩
/-- R532. -/ def SEA_STATUS.RNG_OK : Fld := ⟨0x40000, 0, 0⟩
/-- R533. -/ def SEA_POLICY.LOCK : Fld := ⟨0x40004, 0, 0⟩
/-- R533. -/ def SEA_LINK_CFG.RETRY_MS : Fld := ⟨0x40008, 23, 16⟩
/-- R533. -/ def SEA_LINK_CFG.REKEY_S : Fld := ⟨0x40008, 15, 0⟩
/-- R535. -/ def SEA_RCMD.BUSY : Fld := ⟨0x40020, 16, 16⟩
/-- R535. -/ def SEA_RCMD.STATUS : Fld := ⟨0x40020, 15, 8⟩
/-- R535. -/ def SEA_RCMD.GO : Fld := ⟨0x40020, 0, 0⟩
/-- R536. -/ def SEA_LINK0.REKEYS (i : Nat) : Fld := ⟨0x40100 + 0x8 * i, 31, 24⟩
/-- R536. -/ def SEA_LINK0.KGEN (i : Nat) : Fld := ⟨0x40100 + 0x8 * i, 23, 16⟩
/-- R536. -/ def SEA_LINK0.CAUSE (i : Nat) : Fld := ⟨0x40100 + 0x8 * i, 11, 8⟩
/-- R536. -/ def SEA_LINK0.RX_PH (i : Nat) : Fld := ⟨0x40100 + 0x8 * i, 3, 3⟩
/-- R536. -/ def SEA_LINK0.TX_PH (i : Nat) : Fld := ⟨0x40100 + 0x8 * i, 2, 2⟩
/-- R536. -/ def SEA_LINK0.STATE (i : Nat) : Fld := ⟨0x40100 + 0x8 * i, 1, 0⟩
/-- R536. -/ def SEA_LINK1.TX_GROUPS (i : Nat) : Fld := ⟨0x40104 + 0x8 * i, 31, 0⟩
/-- R558. -/ def CSP_CFG.RAMP_UP : Fld := ⟨0x10000, 23, 16⟩
/-- R558. -/ def CSP_CFG.DYN_SHARE : Fld := ⟨0x10000, 15, 12⟩
/-- R558. -/ def CSP_CFG.WAKE_SLOTS : Fld := ⟨0x10000, 9, 8⟩
/-- R558. -/ def CSP_CFG.AUTO_DOZE : Fld := ⟨0x10000, 1, 1⟩
/-- R558. -/ def CSP_CFG.DROWSE_EN : Fld := ⟨0x10000, 0, 0⟩
/-- R559. -/ def CSP_TMR.DORM_IDLE : Fld := ⟨0x10004, 31, 24⟩
/-- R559. -/ def CSP_TMR.DOZE_IDLE : Fld := ⟨0x10004, 23, 16⟩
/-- R559. -/ def CSP_TMR.DROWSE_IDLE : Fld := ⟨0x10004, 15, 8⟩
/-- R560. -/ def CSP_CMD.BUSY : Fld := ⟨0x10008, 16, 16⟩
/-- R560. -/ def CSP_CMD.STATUS : Fld := ⟨0x10008, 15, 8⟩
/-- R560. -/ def CSP_CMD.TARGET : Fld := ⟨0x10008, 1, 0⟩
/-- R561. -/ def CSP_STATUS.DIR_LEVEL : Fld := ⟨0x1000C, 31, 28⟩
/-- R561. -/ def CSP_STATUS.LOCAL_LEVEL : Fld := ⟨0x1000C, 27, 24⟩
/-- R561. -/ def CSP_STATUS.LEVEL : Fld := ⟨0x1000C, 23, 20⟩
/-- R561. -/ def CSP_STATUS.RAMPING : Fld := ⟨0x1000C, 19, 19⟩
/-- R561. -/ def CSP_STATUS.FC_RUN : Fld := ⟨0x1000C, 18, 18⟩
/-- R561. -/ def CSP_STATUS.STATE : Fld := ⟨0x1000C, 2, 0⟩
/-- R562. -/ def CSP_LOCAL_LEVEL.LEVEL : Fld := ⟨0x10010, 3, 0⟩
/-- R563. -/ def CSP_BUDGET.RESERVE : Fld := ⟨0x10014, 29, 20⟩
/-- R563. -/ def CSP_BUDGET.FIXED : Fld := ⟨0x10014, 19, 10⟩
/-- R563. -/ def CSP_BUDGET.CEIL : Fld := ⟨0x10014, 9, 0⟩
/-- R563. -/ def CSP_BUDGET2.FLOOR : Fld := ⟨0x10018, 19, 10⟩
/-- R563. -/ def CSP_BUDGET2.DYN_GRANT : Fld := ⟨0x10018, 9, 0⟩
/-- R564. -/ def CSP_LEVEL_TBL.CEIL (i : Nat) : Fld := ⟨0x10040 + 0x4 * i, 9, 0⟩
/-- R565. -/ def CSP_DIR.LEVEL : Fld := ⟨0x10020, 19, 16⟩
/-- R565. -/ def CSP_DIR.PENDING : Fld := ⟨0x10020, 0, 0⟩
/-- R567. -/ def CSP_EVT.LEVEL_LATE : Fld := ⟨0x10038, 31, 24⟩
/-- R567. -/ def CSP_EVT.FORCED_OFF : Fld := ⟨0x10038, 23, 16⟩
/-- R567. -/ def CSP_EVT.OVER : Fld := ⟨0x10038, 15, 8⟩
/-- R567. -/ def CSP_EVT.NAP_ABORT : Fld := ⟨0x10038, 7, 0⟩
/-- R567. -/ def CSP_EVT_PEND.PORT_FORCED_OFF : Fld := ⟨0x1003C, 4, 4⟩
/-- R567. -/ def CSP_EVT_PEND.ENTRY_ABORT : Fld := ⟨0x1003C, 3, 3⟩
/-- R567. -/ def CSP_EVT_PEND.LEVEL_LATE : Fld := ⟨0x1003C, 2, 2⟩
/-- R567. -/ def CSP_EVT_PEND.LEVEL_REACHED : Fld := ⟨0x1003C, 1, 1⟩
/-- R567. -/ def CSP_EVT_PEND.WAKE_DONE : Fld := ⟨0x1003C, 0, 0⟩
/-- R568. -/ def CSP_PORT.MIN_STATE (i : Nat) : Fld := ⟨0x10100 + 0x4 * i, 7, 6⟩
/-- R568. -/ def CSP_PORT.PSTATE (i : Nat) : Fld := ⟨0x10100 + 0x4 * i, 2, 0⟩
/-- R586. -/ def HHG_CFG.IRQ_MIN : Fld := ⟨0x20000, 26, 24⟩
/-- R586. -/ def HHG_CFG.RECOV_MAX : Fld := ⟨0x20000, 23, 16⟩
/-- R586. -/ def HHG_CFG.QUIET : Fld := ⟨0x20000, 15, 8⟩
/-- R586. -/ def HHG_CFG.WIRE_CLASS : Fld := ⟨0x20000, 6, 4⟩
/-- R586. -/ def HHG_CFG.AUTO_EXIT : Fld := ⟨0x20000, 2, 2⟩
/-- R586. -/ def HHG_CFG.SELF_SAFE : Fld := ⟨0x20000, 1, 1⟩
/-- R586. -/ def HHG_CFG.ESC_EN : Fld := ⟨0x20000, 0, 0⟩
/-- R587. -/ def HHG_STATUS.LOG_COUNT : Fld := ⟨0x20004, 22, 16⟩
/-- R587. -/ def HHG_STATUS.HEAD : Fld := ⟨0x20004, 9, 4⟩
/-- R587. -/ def HHG_STATUS.TIME_INVALID : Fld := ⟨0x20004, 3, 3⟩
/-- R587. -/ def HHG_STATUS.STATE : Fld := ⟨0x20004, 2, 0⟩
/-- R588. -/ def HHG_PEND.PEND : Fld := ⟨0x20008, 4, 0⟩
/-- R589. -/ def HHG_CNT_A.F0 : Fld := ⟨0x2000C, 31, 16⟩
/-- R589. -/ def HHG_CNT_A.F1 : Fld := ⟨0x2000C, 15, 0⟩
/-- R589. -/ def HHG_CNT_B.F4 : Fld := ⟨0x20010, 31, 24⟩
/-- R589. -/ def HHG_CNT_B.F3 : Fld := ⟨0x20010, 23, 16⟩
/-- R589. -/ def HHG_CNT_B.F2 : Fld := ⟨0x20010, 15, 0⟩
/-- R590. -/ def HHG_MISC.ESCALATED : Fld := ⟨0x20014, 31, 24⟩
/-- R590. -/ def HHG_MISC.WIRE : Fld := ⟨0x20014, 23, 16⟩
/-- R590. -/ def HHG_MISC.LOST : Fld := ⟨0x20014, 15, 0⟩
/-- R591. -/ def HHG_RECOVERY.SINCE_SERVICE : Fld := ⟨0x20018, 15, 8⟩
/-- R591. -/ def HHG_RECOVERY.TOTAL : Fld := ⟨0x20018, 7, 0⟩
/-- R592. -/ def HHG_SRC_CFG.MASK (i : Nat) : Fld := ⟨0x20100 + 0x4 * i, 4, 4⟩
/-- R592. -/ def HHG_SRC_CFG.NO_ESC (i : Nat) : Fld := ⟨0x20100 + 0x4 * i, 3, 3⟩
/-- R592. -/ def HHG_SRC_CFG.MIN_CLASS (i : Nat) : Fld := ⟨0x20100 + 0x4 * i, 2, 0⟩
/-- R594. -/ def HHG_SCRUB_CFG.ENABLE : Fld := ⟨0x20040, 31, 31⟩
/-- R594. -/ def HHG_SCRUB_CFG.INTERVAL : Fld := ⟨0x20040, 14, 0⟩
/-- R594. -/ def HHG_SCRUB_STAT.CORRECTED : Fld := ⟨0x20044, 31, 16⟩
/-- R594. -/ def HHG_SCRUB_STAT.UNCORR : Fld := ⟨0x20044, 15, 8⟩
/-- R594. -/ def HHG_SCRUB_STAT.PASSES : Fld := ⟨0x20044, 7, 0⟩
/-- R595. -/ def HHG_SCRUB_TIME.LAST_MS : Fld := ⟨0x20048, 31, 0⟩
/-- R596. -/ def HHG_INIT.BUSY : Fld := ⟨0x20050, 31, 31⟩
/-- R596. -/ def HHG_INIT.DONE : Fld := ⟨0x20050, 15, 0⟩
/-- R620. -/ def BDG_TIER_CMD.ENGINE : Fld := ⟨0x30000, 31, 24⟩
/-- R620. -/ def BDG_TIER_CMD.BUSY : Fld := ⟨0x30000, 16, 16⟩
/-- R620. -/ def BDG_TIER_CMD.STATUS : Fld := ⟨0x30000, 15, 8⟩
/-- R620. -/ def BDG_TIER_CMD.CAPTURE : Fld := ⟨0x30000, 4, 4⟩
/-- R620. -/ def BDG_TIER_CMD.TIER : Fld := ⟨0x30000, 2, 0⟩
/-- R621. -/ def BDG_STATUS.TIER : Fld := ⟨0x30004, 31, 30⟩
/-- R621. -/ def BDG_STATUS.OUT_OF_SERVICE : Fld := ⟨0x30004, 29, 29⟩
/-- R621. -/ def BDG_STATUS.CAP_HOLD : Fld := ⟨0x30004, 28, 28⟩
/-- R621. -/ def BDG_STATUS.FW_RESTART : Fld := ⟨0x30004, 27, 27⟩
/-- R621. -/ def BDG_STATUS.HRST_IGN : Fld := ⟨0x30004, 26, 24⟩
/-- R621. -/ def BDG_STATUS.WDOG : Fld := ⟨0x30004, 23, 16⟩
/-- R621. -/ def BDG_STATUS.RESETS : Fld := ⟨0x30004, 15, 8⟩
/-- R621. -/ def BDG_STATUS.HB_EXP : Fld := ⟨0x30004, 7, 0⟩
/-- R622. -/ def BDG_FENCE.FENCED : Fld := ⟨0x30008, 9, 9⟩
/-- R622. -/ def BDG_FENCE.DRAINED : Fld := ⟨0x30008, 8, 8⟩
/-- R622. -/ def BDG_FENCE.SVC : Fld := ⟨0x30008, 5, 5⟩
/-- R622. -/ def BDG_FENCE.SAFE : Fld := ⟨0x30008, 4, 4⟩
/-- R622. -/ def BDG_FENCE.TIER : Fld := ⟨0x30008, 3, 3⟩
/-- R622. -/ def BDG_FENCE.HB : Fld := ⟨0x30008, 2, 2⟩
/-- R622. -/ def BDG_FENCE.FW : Fld := ⟨0x30008, 1, 1⟩
/-- R622. -/ def BDG_FENCE.SW : Fld := ⟨0x30008, 0, 0⟩
/-- R623. -/ def BDG_HB_CFG.HOST_EN : Fld := ⟨0x30010, 31, 31⟩
/-- R623. -/ def BDG_HB_CFG.EXPIRED : Fld := ⟨0x30010, 17, 17⟩
/-- R623. -/ def BDG_HB_CFG.ACTION : Fld := ⟨0x30010, 16, 16⟩
/-- R623. -/ def BDG_HB_CFG.HOST_TMO : Fld := ⟨0x30010, 9, 0⟩
/-- R623. -/ def BDG_HOST_HB.VALUE : Fld := ⟨0x30014, 31, 0⟩
/-- R624. -/ def BDG_HANG_CFG.ENABLE : Fld := ⟨0x30018, 31, 31⟩
/-- R624. -/ def BDG_HANG_CFG.TMO : Fld := ⟨0x30018, 7, 0⟩
/-- R624. -/ def BDG_HANG_STAT.HUNG : Fld := ⟨0x3001C, 20, 0⟩
/-- R625. -/ def BDG_CAP_CFG.RELEASE : Fld := ⟨0x30020, 31, 31⟩
/-- R625. -/ def BDG_CAP_CFG.HOLD : Fld := ⟨0x30020, 7, 0⟩
/-- R626. -/ def BDG_SUSPECT.ENABLE : Fld := ⟨0x30024, 31, 31⟩
/-- R626. -/ def BDG_SUSPECT.SOLO_MS : Fld := ⟨0x30024, 23, 16⟩
/-- R626. -/ def BDG_SUSPECT.STATE : Fld := ⟨0x30024, 13, 12⟩
/-- R626. -/ def BDG_SUSPECT.GUILTY : Fld := ⟨0x30024, 8, 0⟩
/-- R627. -/ def BDG_SUSPECT_SET.SUSPECT (i : Nat) : Fld := ⟨0x30080 + 0x4 * i, 31, 0⟩
/-- R627. -/ def BDG_HELD.HELD (i : Nat) : Fld := ⟨0x300C0 + 0x4 * i, 31, 0⟩
/-- R628. -/ def BDG_RST_STAMP.STAMP (i : Nat) : Fld := ⟨0x30030 + 0x4 * i, 31, 0⟩
/-- R662. -/ def BDG_LOG_BASE_LO.BASE_LO : Fld := ⟨0x30100, 31, 5⟩
/-- R662. -/ def BDG_LOG_BASE_HI.BASE_HI : Fld := ⟨0x30104, 19, 0⟩
/-- R663. -/ def BDG_LOG_CFG.EN : Fld := ⟨0x30108, 31, 31⟩
/-- R663. -/ def BDG_LOG_CFG.LOST : Fld := ⟨0x30108, 27, 12⟩
/-- R663. -/ def BDG_LOG_CFG.IRQ_LEVEL : Fld := ⟨0x30108, 11, 10⟩
/-- R663. -/ def BDG_LOG_CFG.LEVEL_MIN : Fld := ⟨0x30108, 9, 8⟩
/-- R663. -/ def BDG_LOG_CFG.LOG2_ENTRIES : Fld := ⟨0x30108, 4, 0⟩
/-- R663. -/ def BDG_LOG_PTR.HEAD : Fld := ⟨0x3010C, 31, 16⟩
/-- R663. -/ def BDG_LOG_PTR.TAIL : Fld := ⟨0x3010C, 15, 0⟩
/-- R664. -/ def BDG_TIME_CFG.ROOT : Fld := ⟨0x30120, 31, 31⟩
/-- R664. -/ def BDG_TIME_CFG.PARENT_PORT : Fld := ⟨0x30120, 27, 24⟩
/-- R664. -/ def BDG_TIME_CFG.SYNC_PERIOD : Fld := ⟨0x30120, 23, 16⟩
/-- R664. -/ def BDG_TIME_CFG.SPREAD_COMP : Fld := ⟨0x30120, 15, 0⟩
/-- R664. -/ def BDG_TIME_STAT.VALID : Fld := ⟨0x30124, 31, 31⟩
/-- R664. -/ def BDG_TIME_STAT.PARENT_LOST : Fld := ⟨0x30124, 30, 30⟩
/-- R664. -/ def BDG_TIME_STAT.STEPS : Fld := ⟨0x30124, 29, 24⟩
/-- R664. -/ def BDG_TIME_STAT.OFFSET : Fld := ⟨0x30124, 15, 0⟩
/-- R665. -/ def BDG_FTIME_LO.TIME_LO : Fld := ⟨0x30128, 31, 0⟩
/-- R665. -/ def BDG_FTIME_HI.TIME_HI : Fld := ⟨0x3012C, 31, 0⟩
/-- R666. -/ def BDG_GROVE.STEWARD : Fld := ⟨0x30140, 31, 31⟩
/-- R666. -/ def BDG_GROVE.MEMBER : Fld := ⟨0x30140, 30, 30⟩
/-- R666. -/ def BDG_GROVE.STEWARD_LOST : Fld := ⟨0x30140, 29, 29⟩
/-- R666. -/ def BDG_GROVE.MEMBERS : Fld := ⟨0x30140, 25, 16⟩
/-- R666. -/ def BDG_GROVE.GROVE_ID : Fld := ⟨0x30140, 15, 0⟩
/-- R666. -/ def BDG_GROVE2.GROVE_PORTS : Fld := ⟨0x30144, 31, 20⟩
/-- R666. -/ def BDG_GROVE2.STEWARD_NODE : Fld := ⟨0x30144, 19, 0⟩
/-- R667. -/ def BDG_AMM_ERR.BROKEN : Fld := ⟨0x30150, 31, 24⟩
/-- R667. -/ def BDG_AMM_ERR.AUTH : Fld := ⟨0x30150, 23, 16⟩
/-- R667. -/ def BDG_AMM_ERR.DROP : Fld := ⟨0x30150, 15, 8⟩
/-- R667. -/ def BDG_AMM_ERR.LOST : Fld := ⟨0x30150, 7, 0⟩
/-- R667. -/ def SB_ERR.SHORT : Fld := ⟨0x30180, 31, 24⟩
/-- R667. -/ def SB_ERR.PARTIAL : Fld := ⟨0x30180, 23, 16⟩
/-- R667. -/ def SB_ERR.EXCESS : Fld := ⟨0x30180, 15, 8⟩
/-- R667. -/ def SB_ERR.BADOP : Fld := ⟨0x30180, 7, 0⟩
/-- R668. -/ def BDG_BURROW.OPEN : Fld := ⟨0x30160, 31, 31⟩
/-- R668. -/ def BDG_BURROW.DEGRADED : Fld := ⟨0x30160, 30, 30⟩
/-- R668. -/ def BDG_BURROW.BAD : Fld := ⟨0x30160, 29, 24⟩
/-- R668. -/ def BDG_BURROW.LOST : Fld := ⟨0x30160, 23, 16⟩
/-- R668. -/ def BDG_BURROW.GOOD : Fld := ⟨0x30160, 15, 0⟩
/-- R668. -/ def BDG_BURROW_SEQ.SECTOR_SEQ : Fld := ⟨0x30164, 31, 0⟩
/-- R671. -/ def NODE_ID.CONFIGURED : Fld := ⟨0x10, 31, 31⟩
/-- R671. -/ def NODE_ID.NODE : Fld := ⟨0x10, 19, 0⟩
/-- R672. -/ def CFG_HASH_LO.HASH_LO : Fld := ⟨0x14, 31, 0⟩
/-- R672. -/ def CFG_HASH_HI.HASH_HI : Fld := ⟨0x18, 15, 0⟩
/-- R673. -/ def GLOBAL_STATUS.TIME_VALID : Fld := ⟨0x1C, 10, 10⟩
/-- R673. -/ def GLOBAL_STATUS.SAFE : Fld := ⟨0x1C, 9, 9⟩
/-- R673. -/ def GLOBAL_STATUS.OUT_OF_SERVICE : Fld := ⟨0x1C, 8, 8⟩
/-- R673. -/ def GLOBAL_STATUS.FENCED : Fld := ⟨0x1C, 7, 7⟩
/-- R673. -/ def GLOBAL_STATUS.INIT_BUSY : Fld := ⟨0x1C, 6, 6⟩
/-- R673. -/ def GLOBAL_STATUS.TIER : Fld := ⟨0x1C, 5, 4⟩
/-- R673. -/ def GLOBAL_STATUS.FC_RUN : Fld := ⟨0x1C, 3, 3⟩
/-- R673. -/ def GLOBAL_STATUS.PSTATE : Fld := ⟨0x1C, 2, 0⟩
/-- R674. -/ def RESET_GEN.HIB : Fld := ⟨0x20, 31, 24⟩
/-- R674. -/ def RESET_GEN.T3 : Fld := ⟨0x20, 23, 12⟩
/-- R674. -/ def RESET_GEN.T2 : Fld := ⟨0x20, 11, 0⟩
/-- R674. -/ def POWERON_ID.POWERON_ID : Fld := ⟨0x24, 31, 0⟩
/-- R676. -/ def XPT_RBSEL.VIEW : Fld := ⟨0x180020, 1, 0⟩
/-- R2. -/ def IDENT.IDENT : Fld := ⟨0x0, 31, 0⟩
/-- R251. -/ def RTR_FLIP_TIME_LO.TIME_LO : Fld := ⟨0x140008, 31, 0⟩
/-- R251. -/ def RTR_FLIP_TIME_HI.TIME_HI : Fld := ⟨0x14000C, 31, 0⟩
/-- R565. -/ def CSP_DIR_AT_LO.AT_LO : Fld := ⟨0x10024, 31, 0⟩
/-- R565. -/ def CSP_DIR_AT_HI.AT_HI : Fld := ⟨0x10028, 31, 0⟩
/-- R566. -/ def CSP_WAKE_AT_LO.AT_LO : Fld := ⟨0x10030, 31, 0⟩
/-- R566. -/ def CSP_WAKE_AT_HI.AT_HI : Fld := ⟨0x10034, 31, 0⟩
/-- R534. -/ def SEA_SERIAL_LO.SERIAL : Fld := ⟨0x40010, 31, 0⟩
/-- R534. -/ def SEA_SERIAL_HI.SERIAL : Fld := ⟨0x40014, 31, 0⟩
/-- R534. -/ def SEA_FW_SVN.SVN : Fld := ⟨0x40018, 31, 0⟩
/-- R535. -/ def SEA_NONCE.NONCE (i : Nat) : Fld := ⟨0x42000 + 0x4 * i, 31, 0⟩

end Sys2Proof.Machine
end

