-- ==== Sys2Proof/Machine/RegTable.lean ====
section
/-! DEFINITION. The register table: where each register lies, what it resets to, and how each field takes a write (R9, and the ranges each register chapter gives its fields). -/
namespace Sys2Proof.Machine

/-- How a field takes a write (R9); `cnt` is an RW counter that a written 0 clears and any other value leaves. -/
inductive FTy | ro | rw | w1c | wo | cnt
deriving DecidableEq, Repr

/-- One field of a register: its bits, how it is written, the values a write may give it (none listed: any), whether it is reserved to firmware (R129), and its reset value in register `i` of the array. -/
structure RegField where
  hi : Nat
  lo : Nat
  ty : FTy
  ok : List (Nat × Nat)
  fw : Bool
  reset : Nat → Nat

/-- An array of registers: the address of the first, the strides and counts of its one or two indices, its fields. -/
structure RegRow where
  base : Nat
  st : Nat
  n : Nat
  st2 : Nat
  n2 : Nat
  fields : List RegField

/-- The registers from VERSION on (R3 to R127). -/
def regTable0 : List RegRow := [
  -- VERSION (R3)
  ⟨0x4, 0x0, 1, 0, 1, [⟨23, 16, .ro, [], false, fun _ => 9⟩, ⟨15, 8, .ro, [], false, fun _ => 3⟩, ⟨7, 0, .ro, [], false, fun _ => 0⟩]⟩,
  -- BUILD_CFG (R5)
  ⟨0x8, 0x0, 1, 0, 1, [⟨15, 11, .ro, [], false, fun _ => 24⟩, ⟨10, 10, .ro, [], false, fun _ => 1⟩, ⟨9, 5, .ro, [], false, fun _ => 20⟩, ⟨4, 4, .ro, [], false, fun _ => 1⟩, ⟨3, 0, .ro, [], false, fun _ => 12⟩]⟩,
  -- IRQ_LINE_STATE (R58)
  ⟨0x40, 0x0, 1, 0, 1, [⟨15, 0, .ro, [], false, fun _ => 0⟩]⟩,
  -- IRQ_LINE_MASK (R59)
  ⟨0x44, 0x0, 1, 0, 1, [⟨15, 0, .rw, [], false, fun _ => 32768⟩]⟩,
  -- HMP_CFG (R95)
  ⟨0x300000, 0x0, 1, 0, 1, [⟨29, 16, .rw, [(1, 10000)], false, fun _ => 100⟩, ⟨11, 0, .rw, [(1, 2048)], false, fun _ => 2048⟩]⟩,
  -- HMP_CH_STATUS (R96)
  ⟨0x300100, 0x4, 20, 0, 1, [⟨27, 16, .ro, [], false, fun _ => 0⟩, ⟨12, 12, .ro, [], false, fun _ => 1⟩, ⟨11, 0, .ro, [], false, fun _ => 0⟩]⟩,
  -- HMP_CH_ERR (R97)
  ⟨0x300200, 0x4, 20, 0, 1, [⟨31, 24, .cnt, [], false, fun _ => 0⟩, ⟨23, 16, .cnt, [], false, fun _ => 0⟩, ⟨15, 8, .cnt, [], false, fun _ => 0⟩, ⟨7, 0, .cnt, [], false, fun _ => 0⟩]⟩,
  -- HMP_CH_STALL (R98)
  ⟨0x300300, 0x4, 20, 0, 1, [⟨31, 0, .ro, [], false, fun _ => 0⟩]⟩,
  -- Q_SEL (R106)
  ⟨0x304000, 0x0, 1, 0, 1, [⟨11, 0, .rw, [], false, fun _ => 0⟩]⟩,
  -- OPP_ERR (R120)
  ⟨0x301000, 0x0, 1, 0, 1, [⟨31, 16, .cnt, [], false, fun _ => 0⟩, ⟨15, 0, .cnt, [], false, fun _ => 0⟩]⟩,
  -- TRG_CFG (R126)
  ⟨0x302000, 0x0, 1, 0, 1, [⟨19, 16, .rw, [(0, 12), (15, 15)], false, fun _ => 15⟩, ⟨13, 8, .rw, [], false, fun _ => 40⟩, ⟨5, 0, .rw, [], false, fun _ => 48⟩]⟩,
  -- TRG_CTX (R127)
  ⟨0x302800, 0x4, 512, 0, 1, [⟨31, 24, .cnt, [], false, fun _ => 0⟩, ⟨23, 16, .cnt, [], false, fun _ => 0⟩, ⟨8, 8, .w1c, [], false, fun _ => 0⟩, ⟨6, 0, .ro, [], false, fun _ => 0⟩]⟩]

/-- The registers from LAN_ADAPT_CFG on (R160 to R169). -/
def regTable1 : List RegRow := [
  -- LAN_ADAPT_CFG (R160)
  ⟨0x50000, 0x0, 1, 0, 1, [⟨16, 16, .rw, [], false, fun _ => 0⟩, ⟨15, 8, .rw, [(1, 255)], false, fun _ => 10⟩, ⟨3, 0, .rw, [(1, 15)], false, fun _ => 8⟩]⟩,
  -- LAN_TRAIN_CFG (R161)
  ⟨0x50004, 0x0, 1, 0, 1, [⟨26, 24, .rw, [(1, 7)], false, fun _ => 3⟩, ⟨23, 20, .rw, [(1, 15)], false, fun _ => 2⟩, ⟨19, 12, .rw, [(1, 255)], false, fun _ => 10⟩, ⟨11, 4, .rw, [(1, 255)], false, fun _ => 10⟩, ⟨3, 0, .rw, [(1, 15)], false, fun _ => 4⟩]⟩,
  -- LAN_PORT_CFG (R162)
  ⟨0x50100, 0x10, 12, 0, 1, [⟨7, 5, .rw, [(0, 4)], false, fun _ => 0⟩, ⟨2, 2, .wo, [], false, fun _ => 0⟩, ⟨1, 1, .rw, [], false, fun _ => 0⟩, ⟨0, 0, .rw, [], false, fun _ => 1⟩]⟩,
  -- LAN_PORT_STATUS (R163)
  ⟨0x50104, 0x10, 12, 0, 1, [⟨31, 24, .ro, [], false, fun _ => 0⟩, ⟨23, 20, .ro, [], false, fun _ => 0⟩, ⟨19, 17, .ro, [], false, fun _ => 0⟩, ⟨16, 16, .ro, [], false, fun _ => 0⟩, ⟨15, 14, .ro, [], false, fun _ => 0⟩, ⟨13, 12, .ro, [], false, fun _ => 0⟩, ⟨8, 8, .ro, [], false, fun _ => 0⟩, ⟨3, 0, .ro, [], false, fun _ => 0⟩]⟩,
  -- LAN_PORT_HOLD (R164)
  ⟨0x50108, 0x10, 12, 0, 1, [⟨31, 24, .cnt, [], false, fun _ => 0⟩, ⟨23, 0, .cnt, [], false, fun _ => 0⟩]⟩,
  -- LAN_PORT_FAR (R165)
  ⟨0x5010C, 0x10, 12, 0, 1, [⟨31, 28, .ro, [], false, fun _ => 0⟩, ⟨19, 0, .ro, [], false, fun _ => 0⟩]⟩,
  -- LAN_EQ_SEED_TX (R166)
  ⟨0x51000, 0x8, 96, 0, 1, [⟨21, 16, .rw, [], false, fun _ => 40⟩, ⟨15, 12, .rw, [], false, fun _ => 0⟩, ⟨11, 6, .rw, [], false, fun _ => 12⟩, ⟨5, 0, .rw, [], false, fun _ => 8⟩]⟩,
  -- LAN_EQ_LIVE_TX (R166)
  ⟨0x52000, 0x8, 96, 0, 1, [⟨21, 16, .ro, [], false, fun _ => 40⟩, ⟨15, 12, .ro, [], false, fun _ => 0⟩, ⟨11, 6, .ro, [], false, fun _ => 12⟩, ⟨5, 0, .ro, [], false, fun _ => 8⟩]⟩,
  -- LAN_EQ_SEED_RX (R167)
  ⟨0x51004, 0x8, 96, 0, 1, [⟨28, 23, .rw, [], false, fun _ => 0⟩, ⟨22, 17, .rw, [], false, fun _ => 0⟩, ⟨16, 10, .rw, [], false, fun _ => 0⟩, ⟨9, 5, .rw, [], false, fun _ => 16⟩, ⟨4, 0, .rw, [], false, fun _ => 12⟩]⟩,
  -- LAN_EQ_LIVE_RX (R167)
  ⟨0x52004, 0x8, 96, 0, 1, [⟨28, 23, .ro, [], false, fun _ => 0⟩, ⟨22, 17, .ro, [], false, fun _ => 0⟩, ⟨16, 10, .ro, [], false, fun _ => 0⟩, ⟨9, 5, .ro, [], false, fun _ => 16⟩, ⟨4, 0, .ro, [], false, fun _ => 12⟩]⟩,
  -- LAN_LANE_STATUS (R168)
  ⟨0x53000, 0x4, 96, 0, 1, [⟨28, 24, .ro, [], false, fun _ => 0⟩, ⟨17, 17, .ro, [], false, fun _ => 0⟩, ⟨16, 8, .ro, [], false, fun _ => 0⟩, ⟨5, 5, .ro, [], false, fun _ => 0⟩, ⟨4, 4, .ro, [], false, fun _ => 0⟩, ⟨3, 3, .ro, [], false, fun _ => 0⟩, ⟨2, 0, .ro, [], false, fun _ => 0⟩]⟩,
  -- LAN_LANE_ERR (R169)
  ⟨0x54000, 0x4, 96, 0, 1, [⟨31, 24, .cnt, [], false, fun _ => 0⟩, ⟨23, 16, .cnt, [], false, fun _ => 0⟩, ⟨15, 0, .cnt, [], false, fun _ => 0⟩]⟩]

/-- The registers from OWL_CTRL on (R170 to R220). -/
def regTable2 : List RegRow := [
  -- OWL_CTRL (R170)
  ⟨0x60000, 0x0, 1, 0, 1, [⟨31, 31, .wo, [], false, fun _ => 0⟩, ⟨27, 24, .rw, [], false, fun _ => 4⟩, ⟨23, 16, .rw, [], false, fun _ => 0⟩, ⟨14, 9, .rw, [], false, fun _ => 0⟩, ⟨8, 7, .rw, [], false, fun _ => 1⟩, ⟨6, 0, .rw, [], false, fun _ => 0⟩]⟩,
  -- OWL_STATUS (R171)
  ⟨0x60004, 0x0, 1, 0, 1, [⟨2, 2, .w1c, [], false, fun _ => 0⟩, ⟨1, 1, .w1c, [], false, fun _ => 0⟩, ⟨0, 0, .ro, [], false, fun _ => 0⟩]⟩,
  -- OWL_COUNT (R172)
  ⟨0x60008, 0x0, 1, 0, 1, [⟨31, 0, .ro, [], false, fun _ => 0⟩]⟩,
  -- OWL_HEALTH_CFG (R173)
  ⟨0x60010, 0x0, 1, 0, 1, [⟨24, 24, .rw, [], false, fun _ => 1⟩, ⟨23, 16, .rw, [(1, 255)], false, fun _ => 10⟩, ⟨15, 8, .rw, [], false, fun _ => 12⟩, ⟨7, 0, .rw, [], false, fun _ => 10⟩]⟩,
  -- OWL_SUMMARY (R174)
  ⟨0x60100, 0x4, 96, 0, 1, [⟨23, 16, .ro, [], false, fun _ => 255⟩, ⟨15, 8, .ro, [], false, fun _ => 0⟩, ⟨7, 0, .ro, [], false, fun _ => 0⟩]⟩,
  -- LNK_CTRL (R215)
  ⟨0x80000, 0x10000, 12, 0, 1, [⟨31, 31, .wo, [], false, fun _ => 0⟩, ⟨30, 30, .wo, [], false, fun _ => 0⟩, ⟨29, 29, .rw, [], true, fun _ => 0⟩, ⟨28, 28, .rw, [], false, fun _ => 0⟩, ⟨27, 27, .rw, [], false, fun _ => 0⟩, ⟨19, 0, .rw, [], false, fun _ => 0⟩]⟩,
  -- LNK_STATUS (R216)
  ⟨0x80004, 0x10000, 12, 0, 1, [⟨31, 16, .ro, [], false, fun _ => 0⟩, ⟨15, 15, .ro, [], false, fun _ => 0⟩, ⟨14, 4, .ro, [], false, fun _ => 0⟩, ⟨3, 0, .ro, [], false, fun _ => 0⟩]⟩,
  -- LNK_TMR0 (R217)
  ⟨0x80008, 0x10000, 12, 0, 1, [⟨31, 22, .rw, [(1, 1000)], false, fun _ => 10⟩, ⟨21, 14, .rw, [(5, 255)], false, fun _ => 20⟩, ⟨13, 7, .rw, [(5, 127)], false, fun _ => 16⟩, ⟨3, 0, .rw, [(1, 15)], false, fun _ => 8⟩]⟩,
  -- LNK_TMR1 (R218)
  ⟨0x8000C, 0x10000, 12, 0, 1, [⟨23, 16, .rw, [(1, 255)], false, fun _ => 10⟩, ⟨15, 8, .rw, [(1, 255)], false, fun _ => 10⟩, ⟨7, 0, .rw, [(5, 255)], false, fun _ => 20⟩]⟩,
  -- LNK_SEQ (R219)
  ⟨0x80010, 0x10000, 12, 0, 1, [⟨31, 16, .ro, [], false, fun _ => 0⟩, ⟨15, 0, .ro, [], false, fun _ => 65535⟩]⟩,
  -- LNK_RSEQ (R219)
  ⟨0x80014, 0x10000, 12, 0, 1, [⟨27, 16, .ro, [], false, fun _ => 0⟩, ⟨15, 0, .ro, [], false, fun _ => 0⟩]⟩,
  -- LNK_RTT (R220)
  ⟨0x80018, 0x10000, 12, 0, 1, [⟨31, 16, .ro, [], false, fun _ => 0⟩, ⟨15, 0, .ro, [], false, fun _ => 0⟩]⟩]

/-- The registers from LNK_ERR on (R221 to R255). -/
def regTable3 : List RegRow := [
  -- LNK_ERR (R221)
  ⟨0x80020, 0x10000, 12, 0, 1, [⟨31, 24, .cnt, [], false, fun _ => 0⟩, ⟨23, 16, .cnt, [], false, fun _ => 0⟩, ⟨15, 8, .cnt, [], false, fun _ => 0⟩, ⟨7, 0, .cnt, [], false, fun _ => 0⟩]⟩,
  -- LNK_REPLAY (R221)
  ⟨0x80024, 0x10000, 12, 0, 1, [⟨31, 24, .cnt, [], false, fun _ => 0⟩, ⟨23, 12, .cnt, [], false, fun _ => 0⟩, ⟨11, 0, .cnt, [], false, fun _ => 0⟩]⟩,
  -- LNK_CREDIT_ADV (R222)
  ⟨0x80100, 0x10000, 12, 4, 16, [⟨21, 13, .rw, [], false, fun _ => 0⟩, ⟨12, 0, .rw, [(0, 4096)], false, fun _ => 0⟩]⟩,
  -- LNK_CREDIT_ADV of channel 16 (R222)
  ⟨0x80140, 0x10000, 12, 0, 1, [⟨21, 13, .ro, [], false, fun _ => 64⟩, ⟨12, 0, .ro, [], false, fun _ => 0⟩]⟩,
  -- LNK_CREDIT_FAR0 (R223)
  ⟨0x80200, 0x10000, 12, 16, 17, [⟨31, 16, .ro, [], false, fun _ => 0⟩, ⟨15, 0, .ro, [], false, fun _ => 0⟩]⟩,
  -- LNK_CREDIT_FAR1 (R223)
  ⟨0x80204, 0x10000, 12, 16, 17, [⟨19, 0, .ro, [], false, fun _ => 0⟩]⟩,
  -- LNK_CREDIT_FAR2 (R223)
  ⟨0x80208, 0x10000, 12, 16, 17, [⟨19, 0, .ro, [], false, fun _ => 0⟩]⟩,
  -- RTR_CTRL (R249)
  ⟨0x140000, 0x0, 1, 0, 1, [⟨1, 1, .rw, [], true, fun _ => 0⟩, ⟨0, 0, .wo, [], true, fun _ => 0⟩]⟩,
  -- RTR_EPOCH (R250)
  ⟨0x140004, 0x0, 1, 0, 1, [⟨19, 19, .w1c, [], false, fun _ => 0⟩, ⟨18, 18, .ro, [], false, fun _ => 0⟩, ⟨17, 17, .ro, [], false, fun _ => 1⟩, ⟨16, 16, .ro, [], false, fun _ => 0⟩, ⟨15, 0, .ro, [], false, fun _ => 0⟩]⟩,
  -- RTR_TMR (R252)
  ⟨0x140010, 0x0, 1, 0, 1, [⟨31, 24, .rw, [(1, 255)], false, fun _ => 10⟩, ⟨23, 16, .rw, [(1, 255)], false, fun _ => 20⟩, ⟨15, 8, .rw, [], false, fun _ => 10⟩]⟩,
  -- RTR_VER_CFG (R253)
  ⟨0x140020, 0x4, 2, 0, 1, [⟨31, 31, .rw, [], true, fun _ => 0⟩, ⟨17, 0, .rw, [], true, fun _ => 181896⟩]⟩,
  -- RTR_VC_MAXPKT (R254)
  ⟨0x140030, 0x0, 1, 0, 1, [⟨31, 0, .rw, [], false, fun _ => 0⟩]⟩,
  -- RTR_ERR (R255)
  ⟨0x140040, 0x0, 1, 0, 1, [⟨31, 24, .cnt, [], false, fun _ => 0⟩, ⟨23, 16, .cnt, [], false, fun _ => 0⟩, ⟨15, 8, .cnt, [], false, fun _ => 0⟩, ⟨7, 0, .cnt, [], false, fun _ => 0⟩]⟩]

/-- The registers from RTR_RESIDENT on (R256 to R294). -/
def regTable4 : List RegRow := [
  -- RTR_RESIDENT (R256)
  ⟨0x140044, 0x0, 1, 0, 1, [⟨31, 16, .ro, [], false, fun _ => 0⟩, ⟨15, 0, .ro, [], false, fun _ => 0⟩]⟩,
  -- RTR_CONG_CFG (R257)
  ⟨0x140050, 0x0, 1, 0, 1, [⟨11, 8, .rw, [(0, 7)], false, fun _ => 3⟩, ⟨7, 0, .rw, [(1, 255)], false, fun _ => 10⟩]⟩,
  -- RTR_PORT_CFG (R258)
  ⟨0x140100, 0x4, 12, 0, 1, [⟨3, 0, .rw, [(0, 11), (15, 15)], false, fun i => i⟩]⟩,
  -- RTR_PORT_STAT (R259)
  ⟨0x140140, 0x4, 12, 0, 1, [⟨31, 16, .cnt, [], false, fun _ => 0⟩, ⟨1, 1, .ro, [], false, fun _ => 0⟩, ⟨0, 0, .ro, [], false, fun _ => 0⟩]⟩,
  -- RTR_CONG (R260)
  ⟨0x140180, 0x4, 12, 0, 1, [⟨31, 16, .cnt, [], false, fun _ => 0⟩, ⟨11, 8, .ro, [], false, fun _ => 0⟩, ⟨3, 0, .ro, [], false, fun _ => 0⟩]⟩,
  -- RTR_PKEY_REF (R261)
  ⟨0x1401C0, 0x4, 13, 0, 1, [⟨15, 0, .cnt, [], false, fun _ => 0⟩]⟩,
  -- RTR_PKEY (R262)
  ⟨0x141000, 0x4, 256, 0, 1, [⟨31, 31, .rw, [], true, fun _ => 0⟩, ⟨30, 30, .rw, [], true, fun _ => 0⟩, ⟨29, 18, .rw, [], true, fun _ => 0⟩, ⟨15, 0, .rw, [], true, fun _ => 0⟩]⟩,
  -- XPT_CFG (R291)
  ⟨0x180000, 0x0, 1, 0, 1, [⟨31, 24, .rw, [(1, 255)], true, fun _ => 80⟩, ⟨23, 20, .rw, [(1, 15)], true, fun _ => 8⟩, ⟨19, 16, .rw, [(0, 7)], true, fun _ => 6⟩, ⟨15, 8, .rw, [(1, 255)], true, fun _ => 20⟩, ⟨7, 0, .rw, [(2, 64)], true, fun _ => 10⟩]⟩,
  -- XPT_STAG (R292)
  ⟨0x180004, 0x0, 1, 0, 1, [⟨23, 0, .ro, [], false, fun _ => 131072⟩]⟩,
  -- XPT_USE (R293)
  ⟨0x180008, 0x0, 1, 0, 1, [⟨31, 16, .ro, [], false, fun _ => 0⟩, ⟨15, 0, .ro, [], false, fun _ => 0⟩]⟩,
  -- XPT_USE2 (R293)
  ⟨0x18000C, 0x0, 1, 0, 1, [⟨28, 16, .ro, [], false, fun _ => 0⟩, ⟨13, 0, .ro, [], false, fun _ => 0⟩]⟩,
  -- XPT_ERR (R294)
  ⟨0x180010, 0x0, 1, 0, 1, [⟨31, 24, .cnt, [], false, fun _ => 0⟩, ⟨23, 16, .cnt, [], false, fun _ => 0⟩, ⟨15, 8, .cnt, [], false, fun _ => 0⟩, ⟨7, 0, .cnt, [], false, fun _ => 0⟩]⟩]

/-- The registers from XPT_ERR2 on (R294 to R317). -/
def regTable5 : List RegRow := [
  -- XPT_ERR2 (R294)
  ⟨0x180014, 0x0, 1, 0, 1, [⟨31, 24, .cnt, [], false, fun _ => 0⟩, ⟨23, 16, .cnt, [], false, fun _ => 0⟩, ⟨15, 8, .cnt, [], false, fun _ => 0⟩, ⟨7, 0, .cnt, [], false, fun _ => 0⟩]⟩,
  -- XPT_EVT (R294)
  ⟨0x180018, 0x0, 1, 0, 1, [⟨31, 24, .cnt, [], false, fun _ => 0⟩, ⟨23, 16, .cnt, [], false, fun _ => 0⟩, ⟨15, 0, .cnt, [], false, fun _ => 0⟩]⟩,
  -- XPT_ERR3 (R687)
  ⟨0x18001C, 0x0, 1, 0, 1, [⟨31, 24, .cnt, [], false, fun _ => 0⟩, ⟨23, 16, .cnt, [], false, fun _ => 0⟩, ⟨15, 8, .cnt, [], false, fun _ => 0⟩]⟩,
  -- XPT_CTX (R295)
  ⟨0x181000, 0x4, 512, 0, 1, [⟨31, 16, .ro, [], false, fun _ => 0⟩, ⟨15, 0, .rw, [(1, 32768)], false, fun _ => 4096⟩]⟩,
  -- XPT_LATE (R295)
  ⟨0x181800, 0x4, 512, 0, 1, [⟨31, 8, .ro, [], false, fun _ => 0⟩, ⟨7, 0, .ro, [], false, fun _ => 0⟩]⟩,
  -- TGT_CFG (R315)
  ⟨0x1A0000, 0x0, 1, 0, 1, [⟨31, 31, .rw, [], true, fun _ => 0⟩, ⟨23, 16, .rw, [(1, 255)], false, fun _ => 10⟩, ⟨7, 0, .rw, [(1, 255)], false, fun _ => 20⟩]⟩,
  -- TGT_WCMD (R316)
  ⟨0x1A0004, 0x0, 1, 0, 1, [⟨16, 16, .ro, [], false, fun _ => 0⟩, ⟨15, 8, .ro, [], false, fun _ => 0⟩, ⟨1, 0, .wo, [], false, fun _ => 0⟩]⟩,
  -- TGT_WWAIT (R316)
  ⟨0x1A0008, 0x0, 1, 0, 1, [⟨18, 0, .ro, [], false, fun _ => 0⟩]⟩,
  -- TGT_WARG0 (R317)
  ⟨0x1A0010, 0x0, 1, 0, 1, [⟨31, 16, .rw, [], false, fun _ => 0⟩, ⟨15, 0, .rw, [], false, fun _ => 0⟩]⟩,
  -- TGT_WARG1 (R317)
  ⟨0x1A0014, 0x0, 1, 0, 1, [⟨31, 0, .rw, [], false, fun _ => 0⟩]⟩,
  -- TGT_WARG2 (R317)
  ⟨0x1A0018, 0x0, 1, 0, 1, [⟨19, 0, .rw, [], false, fun _ => 0⟩]⟩,
  -- TGT_WARG3 (R317)
  ⟨0x1A001C, 0x0, 1, 0, 1, [⟨31, 0, .rw, [], false, fun _ => 0⟩]⟩]

/-- The registers from TGT_WARG4 on (R317 to R349). -/
def regTable6 : List RegRow := [
  -- TGT_WARG4 (R317)
  ⟨0x1A0020, 0x0, 1, 0, 1, [⟨31, 16, .rw, [], false, fun _ => 0⟩, ⟨15, 0, .rw, [], false, fun _ => 0⟩]⟩,
  -- TGT_WARG5 (R317)
  ⟨0x1A0024, 0x0, 1, 0, 1, [⟨8, 4, .rw, [], false, fun _ => 0⟩, ⟨3, 3, .rw, [], false, fun _ => 0⟩, ⟨2, 2, .rw, [], false, fun _ => 0⟩, ⟨1, 1, .rw, [], false, fun _ => 0⟩, ⟨0, 0, .rw, [], false, fun _ => 0⟩]⟩,
  -- TGT_OVF_LO (R318)
  ⟨0x1A0030, 0x0, 1, 0, 1, [⟨31, 12, .rw, [], true, fun _ => 0⟩]⟩,
  -- TGT_OVF_HI (R318)
  ⟨0x1A0034, 0x0, 1, 0, 1, [⟨19, 0, .rw, [], true, fun _ => 0⟩]⟩,
  -- TGT_OVF_SIZE (R318)
  ⟨0x1A0038, 0x0, 1, 0, 1, [⟨19, 0, .rw, [], true, fun _ => 0⟩]⟩,
  -- TGT_OVF_SERIAL (R318)
  ⟨0x1A003C, 0x0, 1, 0, 1, [⟨31, 0, .ro, [], false, fun _ => 0⟩]⟩,
  -- TGT_ERR (R319)
  ⟨0x1A0040, 0x0, 1, 0, 1, [⟨31, 24, .cnt, [], false, fun _ => 0⟩, ⟨23, 16, .cnt, [], false, fun _ => 0⟩, ⟨15, 8, .cnt, [], false, fun _ => 0⟩, ⟨7, 0, .cnt, [], false, fun _ => 0⟩]⟩,
  -- TGT_BUSY (R319)
  ⟨0x1A0044, 0x0, 1, 0, 1, [⟨31, 0, .cnt, [], false, fun _ => 0⟩]⟩,
  -- TGT_SPILL (R319)
  ⟨0x1A0048, 0x0, 1, 0, 1, [⟨31, 0, .ro, [], false, fun _ => 0⟩]⟩,
  -- MRT_CFG (R348)
  ⟨0x1C0000, 0x0, 1, 0, 1, [⟨19, 16, .rw, [(0, 12), (15, 15)], false, fun _ => 15⟩]⟩,
  -- MRT_ILOAD_LO (R349)
  ⟨0x1C0010, 0x0, 1, 0, 1, [⟨31, 4, .rw, [], false, fun _ => 0⟩]⟩,
  -- MRT_ILOAD_HI (R349)
  ⟨0x1C0014, 0x0, 1, 0, 1, [⟨19, 0, .rw, [], false, fun _ => 0⟩]⟩]

/-- The registers from MRT_ILOAD_RANGE on (R349 to R381). -/
def regTable7 : List RegRow := [
  -- MRT_ILOAD_RANGE (R349)
  ⟨0x1C0018, 0x0, 1, 0, 1, [⟨31, 16, .rw, [], false, fun _ => 0⟩, ⟨14, 0, .rw, [], false, fun _ => 0⟩]⟩,
  -- MRT_ILOAD_CMD (R350)
  ⟨0x1C001C, 0x0, 1, 0, 1, [⟨16, 16, .ro, [], false, fun _ => 0⟩, ⟨15, 8, .ro, [], false, fun _ => 0⟩, ⟨0, 0, .wo, [], false, fun _ => 0⟩]⟩,
  -- MRT_FAULT_SUM (R351)
  ⟨0x1C0040, 0x4, 16, 0, 1, [⟨31, 0, .ro, [], false, fun _ => 0⟩]⟩,
  -- MRT_CTX_CFG0 (R352)
  ⟨0x1C1000, 0x10, 512, 0, 1, [⟨30, 16, .rw, [], false, fun _ => 0⟩, ⟨14, 0, .rw, [], false, fun _ => 0⟩]⟩,
  -- MRT_CTX_CFG1 (R353)
  ⟨0x1C1004, 0x10, 512, 0, 1, [⟨31, 16, .rw, [], false, fun _ => 0⟩, ⟨15, 0, .rw, [], false, fun _ => 0⟩]⟩,
  -- MRT_CTX_CFG2 (R354)
  ⟨0x1C1008, 0x10, 512, 0, 1, [⟨24, 16, .rw, [], false, fun _ => 0⟩, ⟨7, 0, .rw, [], false, fun _ => 0⟩]⟩,
  -- MRT_CTX_CMD (R355)
  ⟨0x1C100C, 0x10, 512, 0, 1, [⟨1, 0, .wo, [], false, fun _ => 0⟩]⟩,
  -- MRT_CTX_STATUS0 (R356)
  ⟨0x1C4000, 0x8, 512, 0, 1, [⟨31, 28, .ro, [], false, fun _ => 0⟩, ⟨27, 24, .ro, [], false, fun _ => 0⟩, ⟨23, 23, .w1c, [], false, fun _ => 0⟩, ⟨14, 0, .ro, [], false, fun _ => 0⟩]⟩,
  -- MRT_CTX_STATUS1 (R356)
  ⟨0x1C4004, 0x8, 512, 0, 1, [⟨31, 16, .ro, [], false, fun _ => 0⟩, ⟨15, 0, .ro, [], false, fun _ => 0⟩]⟩,
  -- SYN_CFG (R379)
  ⟨0x1E0000, 0x0, 1, 0, 1, [⟨31, 31, .rw, [], true, fun _ => 0⟩, ⟨19, 16, .rw, [(0, 12), (15, 15)], false, fun _ => 15⟩]⟩,
  -- SYN_TCMD (R380)
  ⟨0x1E0004, 0x0, 1, 0, 1, [⟨31, 20, .rw, [], false, fun _ => 0⟩, ⟨16, 16, .ro, [], false, fun _ => 0⟩, ⟨15, 8, .ro, [], false, fun _ => 0⟩, ⟨1, 0, .wo, [], false, fun _ => 0⟩]⟩,
  -- SYN_POISON (R381)
  ⟨0x1E0008, 0x0, 1, 0, 1, [⟨31, 16, .cnt, [], false, fun _ => 0⟩, ⟨15, 0, .ro, [], false, fun _ => 0⟩]⟩]

/-- The registers from SYN_HOST_ADD on (R382 to R427). -/
def regTable8 : List RegRow := [
  -- SYN_HOST_ADD (R382)
  ⟨0x1E000C, 0x0, 1, 0, 1, [⟨31, 16, .wo, [], false, fun _ => 0⟩, ⟨15, 0, .wo, [], false, fun _ => 0⟩]⟩,
  -- SYN_TARG0 (R383)
  ⟨0x1E0010, 0x0, 1, 0, 1, [⟨29, 21, .rw, [], false, fun _ => 0⟩, ⟨20, 18, .rw, [], false, fun _ => 0⟩, ⟨17, 16, .rw, [], false, fun _ => 0⟩, ⟨15, 0, .rw, [], false, fun _ => 0⟩]⟩,
  -- SYN_TARG1 (R383)
  ⟨0x1E0014, 0x0, 1, 0, 1, [⟨31, 0, .rw, [], false, fun _ => 0⟩]⟩,
  -- SYN_TARG2 (R383)
  ⟨0x1E0018, 0x0, 1, 0, 1, [⟨31, 0, .rw, [], false, fun _ => 0⟩]⟩,
  -- SYN_TARG3 (R383)
  ⟨0x1E001C, 0x0, 1, 0, 1, [⟨31, 0, .rw, [], false, fun _ => 0⟩]⟩,
  -- SYN_TARG4 (R383)
  ⟨0x1E0020, 0x0, 1, 0, 1, [⟨31, 0, .rw, [], false, fun _ => 0⟩]⟩,
  -- SYN_TARG5 (R383)
  ⟨0x1E0024, 0x0, 1, 0, 1, [⟨31, 0, .rw, [], false, fun _ => 0⟩]⟩,
  -- SYN_DELIV (R384)
  ⟨0x1E0030, 0x0, 1, 0, 1, [⟨31, 16, .cnt, [], false, fun _ => 0⟩, ⟨13, 13, .w1c, [], false, fun _ => 0⟩, ⟨12, 0, .ro, [], false, fun _ => 0⟩]⟩,
  -- SYN_PAGE (R385)
  ⟨0x1E0400, 0x4, 254, 0, 1, [⟨16, 16, .rw, [], false, fun _ => 0⟩, ⟨15, 0, .rw, [], false, fun _ => 0⟩]⟩,
  -- SYN_IRQ_PEND (R386)
  ⟨0x1E0800, 0x4, 128, 0, 1, [⟨31, 0, .w1c, [], false, fun _ => 0⟩]⟩,
  -- YAR_GCMD (R426)
  ⟨0x284000, 0x0, 1, 0, 1, [⟨31, 20, .rw, [], false, fun _ => 0⟩, ⟨16, 16, .ro, [], false, fun _ => 0⟩, ⟨15, 8, .ro, [], false, fun _ => 0⟩, ⟨1, 0, .wo, [], false, fun _ => 0⟩]⟩,
  -- YAR_GARG_LO (R427)
  ⟨0x284004, 0x0, 1, 0, 1, [⟨31, 7, .rw, [], false, fun _ => 0⟩]⟩]

/-- The registers from YAR_GARG_HI on (R427 to R448). -/
def regTable9 : List RegRow := [
  -- YAR_GARG_HI (R427)
  ⟨0x284008, 0x0, 1, 0, 1, [⟨19, 0, .rw, [], false, fun _ => 0⟩]⟩,
  -- YAR_GCFG (R428)
  ⟨0x28400C, 0x0, 1, 0, 1, [⟨19, 16, .rw, [(0, 12), (15, 15)], false, fun _ => 15⟩, ⟨15, 8, .rw, [(1, 255)], false, fun _ => 10⟩]⟩,
  -- YAR_GRUN (R429)
  ⟨0x284010, 0x0, 1, 0, 1, [⟨26, 16, .ro, [], false, fun _ => 0⟩, ⟨12, 0, .ro, [], false, fun _ => 0⟩]⟩,
  -- YAR_CERR (R429)
  ⟨0x284014, 0x0, 1, 0, 1, [⟨31, 24, .cnt, [], false, fun _ => 0⟩, ⟨23, 16, .cnt, [], false, fun _ => 0⟩, ⟨15, 8, .cnt, [], false, fun _ => 0⟩, ⟨7, 0, .cnt, [], false, fun _ => 0⟩]⟩,
  -- STO_STAT (R429)
  ⟨0x284018, 0x0, 1, 0, 1, [⟨15, 8, .ro, [], false, fun _ => 0⟩, ⟨3, 0, .ro, [], false, fun _ => 0⟩]⟩,
  -- UPD_S00 (R448)
  ⟨0x288000, 0x40, 256, 0, 1, [⟨31, 16, .rw, [], false, fun _ => 0⟩, ⟨4, 4, .rw, [], false, fun _ => 0⟩, ⟨3, 3, .rw, [], false, fun _ => 0⟩, ⟨2, 2, .rw, [], false, fun _ => 0⟩, ⟨1, 0, .rw, [], false, fun _ => 0⟩]⟩,
  -- UPD_S04 (R448)
  ⟨0x288004, 0x40, 256, 0, 1, [⟨31, 0, .rw, [], false, fun _ => 0⟩]⟩,
  -- UPD_S08 (R448)
  ⟨0x288008, 0x40, 256, 0, 1, [⟨15, 0, .rw, [], false, fun _ => 0⟩]⟩,
  -- UPD_S0C (R448)
  ⟨0x28800C, 0x40, 256, 0, 1, [⟨31, 0, .rw, [], false, fun _ => 0⟩]⟩,
  -- UPD_S10 (R448)
  ⟨0x288010, 0x40, 256, 0, 1, [⟨31, 0, .rw, [], false, fun _ => 0⟩]⟩,
  -- UPD_S14 (R448)
  ⟨0x288014, 0x40, 256, 0, 1, [⟨31, 0, .rw, [], false, fun _ => 0⟩]⟩,
  -- UPD_S18 (R448)
  ⟨0x288018, 0x40, 256, 0, 1, [⟨31, 0, .rw, [], false, fun _ => 0⟩]⟩]

/-- The registers from UPD_S1C on (R448 to R448). -/
def regTable10 : List RegRow := [
  -- UPD_S1C (R448)
  ⟨0x28801C, 0x40, 256, 0, 1, [⟨31, 0, .rw, [], false, fun _ => 0⟩]⟩,
  -- UPD_S20 (R448)
  ⟨0x288020, 0x40, 256, 0, 1, [⟨31, 0, .rw, [], false, fun _ => 0⟩]⟩,
  -- UPD_S24 (R448)
  ⟨0x288024, 0x40, 256, 0, 1, [⟨31, 0, .rw, [], false, fun _ => 0⟩]⟩,
  -- UPD_S28 (R448)
  ⟨0x288028, 0x40, 256, 0, 1, [⟨31, 0, .rw, [], false, fun _ => 0⟩]⟩,
  -- UPD_S2C (R448)
  ⟨0x28802C, 0x40, 256, 0, 1, [⟨31, 0, .rw, [], false, fun _ => 0⟩]⟩,
  -- UPD_S30 (R448)
  ⟨0x288030, 0x40, 256, 0, 1, [⟨31, 0, .rw, [], false, fun _ => 0⟩]⟩,
  -- UPD_S3C (R448)
  ⟨0x28803C, 0x40, 256, 0, 1, [⟨0, 0, .wo, [], false, fun _ => 0⟩]⟩,
  -- UPD_L00 (R448)
  ⟨0x28C000, 0x40, 256, 0, 1, [⟨31, 16, .ro, [], false, fun _ => 0⟩, ⟨4, 4, .ro, [], false, fun _ => 0⟩, ⟨3, 3, .ro, [], false, fun _ => 0⟩, ⟨2, 2, .ro, [], false, fun _ => 0⟩, ⟨1, 0, .ro, [], false, fun _ => 0⟩]⟩,
  -- UPD_L04 (R448)
  ⟨0x28C004, 0x40, 256, 0, 1, [⟨31, 0, .ro, [], false, fun _ => 0⟩]⟩,
  -- UPD_L08 (R448)
  ⟨0x28C008, 0x40, 256, 0, 1, [⟨15, 0, .ro, [], false, fun _ => 0⟩]⟩,
  -- UPD_L0C (R448)
  ⟨0x28C00C, 0x40, 256, 0, 1, [⟨31, 0, .ro, [], false, fun _ => 0⟩]⟩,
  -- UPD_L10 (R448)
  ⟨0x28C010, 0x40, 256, 0, 1, [⟨31, 0, .ro, [], false, fun _ => 0⟩]⟩]

/-- The registers from UPD_L14 on (R448 to R459). -/
def regTable11 : List RegRow := [
  -- UPD_L14 (R448)
  ⟨0x28C014, 0x40, 256, 0, 1, [⟨31, 0, .ro, [], false, fun _ => 0⟩]⟩,
  -- UPD_L18 (R448)
  ⟨0x28C018, 0x40, 256, 0, 1, [⟨31, 0, .ro, [], false, fun _ => 0⟩]⟩,
  -- UPD_L1C (R448)
  ⟨0x28C01C, 0x40, 256, 0, 1, [⟨31, 0, .ro, [], false, fun _ => 0⟩]⟩,
  -- UPD_L20 (R448)
  ⟨0x28C020, 0x40, 256, 0, 1, [⟨31, 0, .ro, [], false, fun _ => 0⟩]⟩,
  -- UPD_L24 (R448)
  ⟨0x28C024, 0x40, 256, 0, 1, [⟨31, 0, .ro, [], false, fun _ => 0⟩]⟩,
  -- UPD_L28 (R448)
  ⟨0x28C028, 0x40, 256, 0, 1, [⟨31, 0, .ro, [], false, fun _ => 0⟩]⟩,
  -- UPD_L2C (R448)
  ⟨0x28C02C, 0x40, 256, 0, 1, [⟨31, 0, .ro, [], false, fun _ => 0⟩]⟩,
  -- UPD_L30 (R448)
  ⟨0x28C030, 0x40, 256, 0, 1, [⟨31, 0, .ro, [], false, fun _ => 0⟩]⟩,
  -- YAR_ACNT0 (R457)
  ⟨0x280000, 0x0, 1, 0, 1, [⟨31, 24, .cnt, [], false, fun _ => 0⟩, ⟨23, 16, .cnt, [], false, fun _ => 0⟩, ⟨15, 8, .cnt, [], false, fun _ => 0⟩, ⟨7, 0, .cnt, [], false, fun _ => 0⟩]⟩,
  -- YAR_ACNT1 (R457)
  ⟨0x280004, 0x0, 1, 0, 1, [⟨31, 16, .cnt, [], false, fun _ => 0⟩, ⟨15, 0, .cnt, [], false, fun _ => 0⟩]⟩,
  -- YAR_FLOOR_DROP (R458)
  ⟨0x280008, 0x0, 1, 0, 1, [⟨31, 0, .ro, [], false, fun _ => 0⟩]⟩,
  -- YAR_STG_STAT (R459)
  ⟨0x280010, 0x0, 1, 0, 1, [⟨24, 16, .ro, [], false, fun _ => 0⟩, ⟨8, 0, .ro, [], false, fun _ => 384⟩]⟩]

/-- The registers from YAR_STG_SPILL on (R459 to R473). -/
def regTable12 : List RegRow := [
  -- YAR_STG_SPILL (R459)
  ⟨0x280014, 0x0, 1, 0, 1, [⟨31, 0, .ro, [], false, fun _ => 0⟩]⟩,
  -- YAR_SOVF_LO (R460)
  ⟨0x280020, 0x0, 1, 0, 1, [⟨31, 16, .rw, [], true, fun _ => 0⟩]⟩,
  -- YAR_SOVF_HI (R460)
  ⟨0x280024, 0x0, 1, 0, 1, [⟨19, 0, .rw, [], true, fun _ => 0⟩]⟩,
  -- YAR_SOVF_SIZE (R460)
  ⟨0x280028, 0x0, 1, 0, 1, [⟨31, 16, .ro, [], true, fun _ => 0⟩, ⟨15, 0, .rw, [], true, fun _ => 0⟩]⟩,
  -- STG_S00 (R473)
  ⟨0x2C4000, 0x40, 256, 0, 1, [⟨31, 28, .rw, [], false, fun _ => 0⟩, ⟨27, 24, .rw, [], false, fun _ => 0⟩, ⟨23, 23, .rw, [], false, fun _ => 0⟩, ⟨22, 22, .rw, [], false, fun _ => 0⟩, ⟨21, 21, .rw, [], false, fun _ => 0⟩, ⟨20, 20, .rw, [], false, fun _ => 0⟩, ⟨19, 16, .rw, [], false, fun _ => 0⟩, ⟨13, 12, .rw, [], false, fun _ => 0⟩, ⟨10, 8, .rw, [], false, fun _ => 0⟩, ⟨2, 0, .rw, [], false, fun _ => 0⟩]⟩,
  -- STG_S04 (R473)
  ⟨0x2C4004, 0x40, 256, 0, 1, [⟨23, 16, .rw, [], false, fun _ => 0⟩, ⟨15, 0, .rw, [], false, fun _ => 0⟩]⟩,
  -- STG_S08 (R473)
  ⟨0x2C4008, 0x40, 256, 0, 1, [⟨27, 24, .rw, [], false, fun _ => 0⟩, ⟨20, 16, .rw, [], false, fun _ => 0⟩, ⟨15, 0, .rw, [], false, fun _ => 0⟩]⟩,
  -- STG_S0C (R473)
  ⟨0x2C400C, 0x40, 256, 0, 1, [⟨31, 0, .rw, [], false, fun _ => 0⟩]⟩,
  -- STG_S10 (R473)
  ⟨0x2C4010, 0x40, 256, 0, 1, [⟨15, 0, .rw, [], false, fun _ => 0⟩]⟩,
  -- STG_S14 (R473)
  ⟨0x2C4014, 0x40, 256, 0, 1, [⟨31, 0, .rw, [], false, fun _ => 0⟩]⟩,
  -- STG_S18 (R473)
  ⟨0x2C4018, 0x40, 256, 0, 1, [⟨15, 0, .rw, [], false, fun _ => 0⟩]⟩,
  -- STG_S3C (R473)
  ⟨0x2C403C, 0x40, 256, 0, 1, [⟨0, 0, .wo, [], false, fun _ => 0⟩]⟩]

/-- The registers from STG_L00 on (R473 to R489). -/
def regTable13 : List RegRow := [
  -- STG_L00 (R473)
  ⟨0x2C8000, 0x40, 256, 0, 1, [⟨31, 28, .ro, [], false, fun _ => 0⟩, ⟨27, 24, .ro, [], false, fun _ => 0⟩, ⟨23, 23, .ro, [], false, fun _ => 0⟩, ⟨22, 22, .ro, [], false, fun _ => 0⟩, ⟨21, 21, .ro, [], false, fun _ => 0⟩, ⟨20, 20, .ro, [], false, fun _ => 0⟩, ⟨19, 16, .ro, [], false, fun _ => 0⟩, ⟨13, 12, .ro, [], false, fun _ => 0⟩, ⟨10, 8, .ro, [], false, fun _ => 0⟩, ⟨2, 0, .ro, [], false, fun _ => 0⟩]⟩,
  -- STG_L04 (R473)
  ⟨0x2C8004, 0x40, 256, 0, 1, [⟨23, 16, .ro, [], false, fun _ => 0⟩, ⟨15, 0, .ro, [], false, fun _ => 0⟩]⟩,
  -- STG_L08 (R473)
  ⟨0x2C8008, 0x40, 256, 0, 1, [⟨27, 24, .ro, [], false, fun _ => 0⟩, ⟨20, 16, .ro, [], false, fun _ => 0⟩, ⟨15, 0, .ro, [], false, fun _ => 0⟩]⟩,
  -- STG_L0C (R473)
  ⟨0x2C800C, 0x40, 256, 0, 1, [⟨31, 0, .ro, [], false, fun _ => 0⟩]⟩,
  -- STG_L10 (R473)
  ⟨0x2C8010, 0x40, 256, 0, 1, [⟨15, 0, .ro, [], false, fun _ => 0⟩]⟩,
  -- STG_L14 (R473)
  ⟨0x2C8014, 0x40, 256, 0, 1, [⟨31, 0, .ro, [], false, fun _ => 0⟩]⟩,
  -- STG_L18 (R473)
  ⟨0x2C8018, 0x40, 256, 0, 1, [⟨15, 0, .ro, [], false, fun _ => 0⟩]⟩,
  -- STG_L1C (R473)
  ⟨0x2C801C, 0x40, 256, 0, 1, [⟨31, 0, .ro, [], false, fun _ => 0⟩]⟩,
  -- STG_L20 (R473)
  ⟨0x2C8020, 0x40, 256, 0, 1, [⟨31, 0, .ro, [], false, fun _ => 0⟩]⟩,
  -- STG_L24 (R473)
  ⟨0x2C8024, 0x40, 256, 0, 1, [⟨0, 0, .ro, [], false, fun _ => 0⟩]⟩,
  -- FOX_CFG (R488)
  ⟨0x2C0000, 0x0, 1, 0, 1, [⟨19, 16, .rw, [(0, 12), (15, 15)], false, fun _ => 15⟩, ⟨7, 0, .rw, [], false, fun _ => 10⟩]⟩,
  -- FOX_STATUS (R489)
  ⟨0x2C0004, 0x0, 1, 0, 1, [⟨25, 20, .ro, [], false, fun _ => 0⟩, ⟨19, 16, .ro, [], false, fun _ => 0⟩, ⟨11, 8, .ro, [], false, fun _ => 0⟩, ⟨7, 4, .ro, [], false, fun _ => 0⟩, ⟨1, 0, .ro, [], false, fun _ => 0⟩]⟩]

/-- The registers from FOX_TILE_OWN on (R490 to R510). -/
def regTable14 : List RegRow := [
  -- FOX_TILE_OWN (R490)
  ⟨0x2C0010, 0x4, 4, 0, 1, [⟨31, 31, .rw, [], false, fun _ => 0⟩, ⟨8, 0, .rw, [], false, fun _ => 0⟩]⟩,
  -- FOX_WBANK (R491)
  ⟨0x2C0020, 0x0, 1, 0, 1, [⟨2, 0, .rw, [], false, fun _ => 0⟩]⟩,
  -- FOX_SLOT_POISON (R493)
  ⟨0x2C0030, 0x4, 4, 0, 1, [⟨31, 16, .ro, [], false, fun _ => 0⟩, ⟨15, 0, .ro, [], false, fun _ => 0⟩]⟩,
  -- FOX_ERR (R494)
  ⟨0x2C0040, 0x0, 1, 0, 1, [⟨31, 24, .cnt, [], false, fun _ => 0⟩, ⟨23, 16, .cnt, [], false, fun _ => 0⟩, ⟨15, 8, .cnt, [], false, fun _ => 0⟩, ⟨7, 0, .cnt, [], false, fun _ => 0⟩]⟩,
  -- FOX_PASSES (R494)
  ⟨0x2C0044, 0x0, 1, 0, 1, [⟨31, 0, .ro, [], false, fun _ => 0⟩]⟩,
  -- SCH_CFG (R507)
  ⟨0x340000, 0x0, 1, 0, 1, [⟨24, 24, .rw, [], false, fun _ => 1⟩, ⟨23, 16, .rw, [], false, fun _ => 0⟩, ⟨15, 0, .rw, [(1, 65535)], false, fun _ => 16⟩]⟩,
  -- SCH_STAT (R508)
  ⟨0x340004, 0x0, 1, 0, 1, [⟨31, 16, .cnt, [], false, fun _ => 0⟩, ⟨13, 0, .ro, [], false, fun _ => 0⟩]⟩,
  -- SCH_CLASS (R509)
  ⟨0x340100, 0x4, 8, 0, 1, [⟨23, 16, .rw, [(0, 63), (255, 255)], false, fun _ => 255⟩, ⟨15, 0, .rw, [], false, fun _ => 0⟩]⟩,
  -- SCH_QUEUE (R509)
  ⟨0x344000, 0x4, 4096, 0, 1, [⟨23, 16, .rw, [(0, 63), (255, 255)], false, fun _ => 255⟩, ⟨15, 0, .rw, [], false, fun _ => 0⟩]⟩,
  -- SCH_CTX (R509)
  ⟨0x348000, 0x4, 512, 0, 1, [⟨23, 16, .rw, [(0, 63), (255, 255)], false, fun _ => 255⟩, ⟨15, 0, .rw, [], false, fun _ => 0⟩]⟩,
  -- SCH_GROUP (R509)
  ⟨0x34C000, 0x4, 4096, 0, 1, [⟨23, 16, .rw, [(0, 63), (255, 255)], false, fun _ => 255⟩, ⟨15, 0, .rw, [], false, fun _ => 0⟩]⟩,
  -- SCH_PORT (R510)
  ⟨0x340200, 0x4, 12, 0, 1, [⟨31, 16, .ro, [], false, fun _ => 0⟩, ⟨4, 0, .rw, [(1, 16)], false, fun _ => 16⟩]⟩]

/-- The registers from SCH_SHAPER on (R511 to R560). -/
def regTable15 : List RegRow := [
  -- SCH_SHAPER (R511)
  ⟨0x341000, 0x10, 64, 0, 1, [⟨31, 16, .rw, [(1, 65535)], false, fun _ => 64⟩, ⟨15, 0, .rw, [], false, fun _ => 0⟩]⟩,
  -- SCH_TOKENS (R511)
  ⟨0x341004, 0x10, 64, 0, 1, [⟨31, 0, .ro, [], false, fun _ => 16384⟩]⟩,
  -- SCH_HELD (R511)
  ⟨0x341008, 0x10, 64, 0, 1, [⟨31, 0, .cnt, [], false, fun _ => 0⟩]⟩,
  -- SEA_STATUS (R532)
  ⟨0x40000, 0x0, 1, 0, 1, [⟨27, 25, .ro, [], false, fun _ => 0⟩, ⟨24, 24, .ro, [], false, fun _ => 0⟩, ⟨23, 16, .ro, [], false, fun _ => 0⟩, ⟨7, 7, .ro, [], false, fun _ => 0⟩, ⟨6, 6, .ro, [], false, fun _ => 0⟩, ⟨5, 5, .ro, [], false, fun _ => 0⟩, ⟨4, 4, .ro, [], false, fun _ => 0⟩, ⟨3, 2, .ro, [], false, fun _ => 0⟩, ⟨1, 1, .ro, [], false, fun _ => 0⟩, ⟨0, 0, .ro, [], false, fun _ => 0⟩]⟩,
  -- SEA_POLICY (R533)
  ⟨0x40004, 0x0, 1, 0, 1, [⟨0, 0, .rw, [], true, fun _ => 0⟩]⟩,
  -- SEA_LINK_CFG (R533)
  ⟨0x40008, 0x0, 1, 0, 1, [⟨23, 16, .rw, [(1, 255)], false, fun _ => 10⟩, ⟨15, 0, .rw, [(1, 65535)], false, fun _ => 600⟩]⟩,
  -- SEA_RCMD (R535)
  ⟨0x40020, 0x0, 1, 0, 1, [⟨16, 16, .ro, [], false, fun _ => 0⟩, ⟨15, 8, .ro, [], false, fun _ => 0⟩, ⟨0, 0, .wo, [], false, fun _ => 0⟩]⟩,
  -- SEA_LINK0 (R536)
  ⟨0x40100, 0x8, 12, 0, 1, [⟨31, 24, .cnt, [], false, fun _ => 0⟩, ⟨23, 16, .ro, [], false, fun _ => 0⟩, ⟨11, 8, .ro, [], false, fun _ => 0⟩, ⟨3, 3, .ro, [], false, fun _ => 0⟩, ⟨2, 2, .ro, [], false, fun _ => 0⟩, ⟨1, 0, .ro, [], false, fun _ => 0⟩]⟩,
  -- SEA_LINK1 (R536)
  ⟨0x40104, 0x8, 12, 0, 1, [⟨31, 0, .ro, [], false, fun _ => 0⟩]⟩,
  -- CSP_CFG (R558)
  ⟨0x10000, 0x0, 1, 0, 1, [⟨23, 16, .rw, [(1, 90)], true, fun _ => 50⟩, ⟨15, 12, .rw, [], true, fun _ => 4⟩, ⟨9, 8, .rw, [(1, 3)], true, fun _ => 2⟩, ⟨1, 1, .rw, [], true, fun _ => 1⟩, ⟨0, 0, .rw, [], true, fun _ => 1⟩]⟩,
  -- CSP_TMR (R559)
  ⟨0x10004, 0x0, 1, 0, 1, [⟨31, 24, .rw, [(1, 255)], false, fun _ => 10⟩, ⟨23, 16, .rw, [(1, 255)], false, fun _ => 5⟩, ⟨15, 8, .rw, [(1, 255)], false, fun _ => 20⟩]⟩,
  -- CSP_CMD (R560)
  ⟨0x10008, 0x0, 1, 0, 1, [⟨16, 16, .ro, [], false, fun _ => 0⟩, ⟨15, 8, .ro, [], false, fun _ => 0⟩, ⟨1, 0, .wo, [], false, fun _ => 0⟩]⟩]

/-- The registers from CSP_STATUS on (R561 to R588). -/
def regTable16 : List RegRow := [
  -- CSP_STATUS (R561)
  ⟨0x1000C, 0x0, 1, 0, 1, [⟨31, 28, .ro, [], false, fun _ => 15⟩, ⟨27, 24, .ro, [], false, fun _ => 15⟩, ⟨23, 20, .ro, [], false, fun _ => 15⟩, ⟨19, 19, .ro, [], false, fun _ => 0⟩, ⟨18, 18, .ro, [], false, fun _ => 0⟩, ⟨2, 0, .ro, [], false, fun _ => 0⟩]⟩,
  -- CSP_LOCAL_LEVEL (R562)
  ⟨0x10010, 0x0, 1, 0, 1, [⟨3, 0, .rw, [], false, fun _ => 15⟩]⟩,
  -- CSP_BUDGET (R563)
  ⟨0x10014, 0x0, 1, 0, 1, [⟨29, 20, .ro, [], false, fun _ => 0⟩, ⟨19, 10, .ro, [], false, fun _ => 0⟩, ⟨9, 0, .ro, [], false, fun _ => 0⟩]⟩,
  -- CSP_BUDGET2 (R563)
  ⟨0x10018, 0x0, 1, 0, 1, [⟨19, 10, .ro, [], false, fun _ => 0⟩, ⟨9, 0, .ro, [], false, fun _ => 0⟩]⟩,
  -- CSP_LEVEL_TBL (R564)
  ⟨0x10040, 0x4, 16, 0, 1, [⟨9, 0, .rw, [(1, 720)], true, fun i => (105 + 41 * i)⟩]⟩,
  -- CSP_DIR (R565)
  ⟨0x10020, 0x0, 1, 0, 1, [⟨19, 16, .ro, [], false, fun _ => 15⟩, ⟨0, 0, .ro, [], false, fun _ => 0⟩]⟩,
  -- CSP_EVT (R567)
  ⟨0x10038, 0x0, 1, 0, 1, [⟨31, 24, .cnt, [], false, fun _ => 0⟩, ⟨23, 16, .cnt, [], false, fun _ => 0⟩, ⟨15, 8, .cnt, [], false, fun _ => 0⟩, ⟨7, 0, .cnt, [], false, fun _ => 0⟩]⟩,
  -- CSP_EVT_PEND (R567)
  ⟨0x1003C, 0x0, 1, 0, 1, [⟨4, 4, .w1c, [], false, fun _ => 0⟩, ⟨3, 3, .w1c, [], false, fun _ => 0⟩, ⟨2, 2, .w1c, [], false, fun _ => 0⟩, ⟨1, 1, .w1c, [], false, fun _ => 0⟩, ⟨0, 0, .w1c, [], false, fun _ => 0⟩]⟩,
  -- CSP_PORT (R568)
  ⟨0x10100, 0x4, 12, 0, 1, [⟨7, 6, .rw, [(0, 2)], false, fun _ => 0⟩, ⟨2, 0, .ro, [], false, fun _ => 0⟩]⟩,
  -- HHG_CFG (R586)
  ⟨0x20000, 0x0, 1, 0, 1, [⟨26, 24, .rw, [(0, 4)], true, fun _ => 2⟩, ⟨23, 16, .rw, [], true, fun _ => 3⟩, ⟨15, 8, .rw, [(1, 255)], true, fun _ => 10⟩, ⟨6, 4, .rw, [(2, 4)], true, fun _ => 3⟩, ⟨2, 2, .rw, [], true, fun _ => 1⟩, ⟨1, 1, .rw, [], true, fun _ => 1⟩, ⟨0, 0, .rw, [], true, fun _ => 1⟩]⟩,
  -- HHG_STATUS (R587)
  ⟨0x20004, 0x0, 1, 0, 1, [⟨22, 16, .ro, [], false, fun _ => 0⟩, ⟨9, 4, .ro, [], false, fun _ => 0⟩, ⟨3, 3, .ro, [], false, fun _ => 0⟩, ⟨2, 0, .ro, [], false, fun _ => 0⟩]⟩,
  -- HHG_PEND (R588)
  ⟨0x20008, 0x0, 1, 0, 1, [⟨4, 0, .w1c, [], false, fun _ => 0⟩]⟩]

/-- The registers from HHG_CNT_A on (R589 to R622). -/
def regTable17 : List RegRow := [
  -- HHG_CNT_A (R589)
  ⟨0x2000C, 0x0, 1, 0, 1, [⟨31, 16, .cnt, [], false, fun _ => 0⟩, ⟨15, 0, .cnt, [], false, fun _ => 0⟩]⟩,
  -- HHG_CNT_B (R589)
  ⟨0x20010, 0x0, 1, 0, 1, [⟨31, 24, .cnt, [], false, fun _ => 0⟩, ⟨23, 16, .cnt, [], false, fun _ => 0⟩, ⟨15, 0, .cnt, [], false, fun _ => 0⟩]⟩,
  -- HHG_MISC (R590)
  ⟨0x20014, 0x0, 1, 0, 1, [⟨31, 24, .cnt, [], false, fun _ => 0⟩, ⟨23, 16, .cnt, [], false, fun _ => 0⟩, ⟨15, 0, .cnt, [], false, fun _ => 0⟩]⟩,
  -- HHG_RECOVERY (R591)
  ⟨0x20018, 0x0, 1, 0, 1, [⟨15, 8, .ro, [], false, fun _ => 0⟩, ⟨7, 0, .ro, [], false, fun _ => 0⟩]⟩,
  -- HHG_SRC_CFG (R592)
  ⟨0x20100, 0x4, 27, 0, 1, [⟨4, 4, .rw, [], false, fun _ => 0⟩, ⟨3, 3, .rw, [], false, fun i => (if i = 0x12 ∨ i = 0x13 then 1 else 0)⟩, ⟨2, 0, .rw, [(0, 4)], false, fun i => (if i < 8 then 2 else if i = 8 ∨ i = 9 then 4 else 0)⟩]⟩,
  -- HHG_SCRUB_CFG (R594)
  ⟨0x20040, 0x0, 1, 0, 1, [⟨31, 31, .rw, [], true, fun _ => 1⟩, ⟨14, 0, .rw, [(1024, 16384)], false, fun _ => 16384⟩]⟩,
  -- HHG_SCRUB_STAT (R594)
  ⟨0x20044, 0x0, 1, 0, 1, [⟨31, 16, .cnt, [], false, fun _ => 0⟩, ⟨15, 8, .cnt, [], false, fun _ => 0⟩, ⟨7, 0, .ro, [], false, fun _ => 0⟩]⟩,
  -- HHG_SCRUB_TIME (R595)
  ⟨0x20048, 0x0, 1, 0, 1, [⟨31, 0, .ro, [], false, fun _ => 0⟩]⟩,
  -- HHG_INIT (R596)
  ⟨0x20050, 0x0, 1, 0, 1, [⟨31, 31, .ro, [], false, fun _ => 0⟩, ⟨15, 0, .ro, [], false, fun _ => 0⟩]⟩,
  -- BDG_TIER_CMD (R620)
  ⟨0x30000, 0x0, 1, 0, 1, [⟨31, 24, .rw, [], false, fun _ => 0⟩, ⟨16, 16, .ro, [], false, fun _ => 0⟩, ⟨15, 8, .ro, [], false, fun _ => 0⟩, ⟨4, 4, .rw, [], false, fun _ => 0⟩, ⟨2, 0, .wo, [], false, fun _ => 0⟩]⟩,
  -- BDG_STATUS (R621)
  ⟨0x30004, 0x0, 1, 0, 1, [⟨31, 30, .ro, [], false, fun _ => 0⟩, ⟨29, 29, .ro, [], false, fun _ => 0⟩, ⟨28, 28, .ro, [], false, fun _ => 0⟩, ⟨27, 27, .ro, [], false, fun _ => 0⟩, ⟨26, 24, .ro, [], false, fun _ => 0⟩, ⟨23, 16, .ro, [], false, fun _ => 0⟩, ⟨15, 8, .ro, [], false, fun _ => 0⟩, ⟨7, 0, .ro, [], false, fun _ => 0⟩]⟩,
  -- BDG_FENCE (R622)
  ⟨0x30008, 0x0, 1, 0, 1, [⟨9, 9, .ro, [], false, fun _ => 0⟩, ⟨8, 8, .ro, [], false, fun _ => 0⟩, ⟨5, 5, .ro, [], false, fun _ => 0⟩, ⟨4, 4, .ro, [], false, fun _ => 0⟩, ⟨3, 3, .ro, [], false, fun _ => 0⟩, ⟨2, 2, .ro, [], false, fun _ => 0⟩, ⟨1, 1, .ro, [], false, fun _ => 0⟩, ⟨0, 0, .rw, [], false, fun _ => 0⟩]⟩]

/-- The registers from BDG_HB_CFG on (R623 to R663). -/
def regTable18 : List RegRow := [
  -- BDG_HB_CFG (R623)
  ⟨0x30010, 0x0, 1, 0, 1, [⟨31, 31, .rw, [], false, fun _ => 0⟩, ⟨17, 17, .ro, [], false, fun _ => 0⟩, ⟨16, 16, .rw, [], false, fun _ => 1⟩, ⟨9, 0, .rw, [(5, 1000)], false, fun _ => 50⟩]⟩,
  -- BDG_HOST_HB (R623)
  ⟨0x30014, 0x0, 1, 0, 1, [⟨31, 0, .rw, [], false, fun _ => 0⟩]⟩,
  -- BDG_HANG_CFG (R624)
  ⟨0x30018, 0x0, 1, 0, 1, [⟨31, 31, .rw, [], false, fun _ => 1⟩, ⟨7, 0, .rw, [(1, 255)], false, fun _ => 20⟩]⟩,
  -- BDG_HANG_STAT (R624)
  ⟨0x3001C, 0x0, 1, 0, 1, [⟨20, 0, .w1c, [], false, fun _ => 0⟩]⟩,
  -- BDG_CAP_CFG (R625)
  ⟨0x30020, 0x0, 1, 0, 1, [⟨31, 31, .wo, [], false, fun _ => 0⟩, ⟨7, 0, .rw, [], false, fun _ => 0⟩]⟩,
  -- BDG_SUSPECT (R626)
  ⟨0x30024, 0x0, 1, 0, 1, [⟨31, 31, .rw, [], false, fun _ => 0⟩, ⟨23, 16, .rw, [(1, 255)], false, fun _ => 50⟩, ⟨13, 12, .ro, [], false, fun _ => 0⟩, ⟨8, 0, .ro, [], false, fun _ => 0⟩]⟩,
  -- BDG_SUSPECT_SET (R627)
  ⟨0x30080, 0x4, 16, 0, 1, [⟨31, 0, .ro, [], false, fun _ => 0⟩]⟩,
  -- BDG_HELD (R627)
  ⟨0x300C0, 0x4, 16, 0, 1, [⟨31, 0, .w1c, [], false, fun _ => 0⟩]⟩,
  -- BDG_RST_STAMP (R628)
  ⟨0x30030, 0x4, 4, 0, 1, [⟨31, 0, .ro, [], false, fun _ => 0⟩]⟩,
  -- BDG_LOG_BASE_LO (R662)
  ⟨0x30100, 0x0, 1, 0, 1, [⟨31, 5, .rw, [], false, fun _ => 0⟩]⟩,
  -- BDG_LOG_BASE_HI (R662)
  ⟨0x30104, 0x0, 1, 0, 1, [⟨19, 0, .rw, [], false, fun _ => 0⟩]⟩,
  -- BDG_LOG_CFG (R663)
  ⟨0x30108, 0x0, 1, 0, 1, [⟨31, 31, .rw, [], false, fun _ => 0⟩, ⟨27, 12, .cnt, [], false, fun _ => 0⟩, ⟨11, 10, .rw, [], false, fun _ => 3⟩, ⟨9, 8, .rw, [], false, fun _ => 1⟩, ⟨4, 0, .rw, [(6, 16)], false, fun _ => 6⟩]⟩]

/-- The registers from BDG_LOG_PTR on (R663 to R671). -/
def regTable19 : List RegRow := [
  -- BDG_LOG_PTR (R663)
  ⟨0x3010C, 0x0, 1, 0, 1, [⟨31, 16, .ro, [], false, fun _ => 0⟩, ⟨15, 0, .rw, [], false, fun _ => 0⟩]⟩,
  -- BDG_TIME_CFG (R664)
  ⟨0x30120, 0x0, 1, 0, 1, [⟨31, 31, .rw, [], true, fun _ => 0⟩, ⟨27, 24, .rw, [], true, fun _ => 15⟩, ⟨23, 16, .rw, [(1, 255)], true, fun _ => 10⟩, ⟨15, 0, .rw, [], true, fun _ => 0⟩]⟩,
  -- BDG_TIME_STAT (R664)
  ⟨0x30124, 0x0, 1, 0, 1, [⟨31, 31, .ro, [], false, fun _ => 0⟩, ⟨30, 30, .ro, [], false, fun _ => 0⟩, ⟨29, 24, .ro, [], false, fun _ => 0⟩, ⟨15, 0, .ro, [], false, fun _ => 0⟩]⟩,
  -- BDG_FTIME_LO (R665)
  ⟨0x30128, 0x0, 1, 0, 1, [⟨31, 0, .ro, [], false, fun _ => 0⟩]⟩,
  -- BDG_FTIME_HI (R665)
  ⟨0x3012C, 0x0, 1, 0, 1, [⟨31, 0, .ro, [], false, fun _ => 0⟩]⟩,
  -- BDG_GROVE (R666)
  ⟨0x30140, 0x0, 1, 0, 1, [⟨31, 31, .ro, [], false, fun _ => 0⟩, ⟨30, 30, .ro, [], false, fun _ => 0⟩, ⟨29, 29, .ro, [], false, fun _ => 0⟩, ⟨25, 16, .ro, [], false, fun _ => 0⟩, ⟨15, 0, .ro, [], false, fun _ => 0⟩]⟩,
  -- BDG_GROVE2 (R666)
  ⟨0x30144, 0x0, 1, 0, 1, [⟨31, 20, .ro, [], false, fun _ => 0⟩, ⟨19, 0, .ro, [], false, fun _ => 0⟩]⟩,
  -- BDG_AMM_ERR (R667)
  ⟨0x30150, 0x0, 1, 0, 1, [⟨31, 24, .cnt, [], false, fun _ => 0⟩, ⟨23, 16, .cnt, [], false, fun _ => 0⟩, ⟨15, 8, .cnt, [], false, fun _ => 0⟩, ⟨7, 0, .cnt, [], false, fun _ => 0⟩]⟩,
  -- SB_ERR (R667)
  ⟨0x30180, 0x0, 1, 0, 1, [⟨31, 24, .cnt, [], false, fun _ => 0⟩, ⟨23, 16, .cnt, [], false, fun _ => 0⟩, ⟨15, 8, .cnt, [], false, fun _ => 0⟩, ⟨7, 0, .cnt, [], false, fun _ => 0⟩]⟩,
  -- BDG_BURROW (R668)
  ⟨0x30160, 0x0, 1, 0, 1, [⟨31, 31, .ro, [], false, fun _ => 0⟩, ⟨30, 30, .ro, [], false, fun _ => 0⟩, ⟨29, 24, .ro, [], false, fun _ => 0⟩, ⟨23, 16, .cnt, [], false, fun _ => 0⟩, ⟨15, 0, .ro, [], false, fun _ => 0⟩]⟩,
  -- BDG_BURROW_SEQ (R668)
  ⟨0x30164, 0x0, 1, 0, 1, [⟨31, 0, .ro, [], false, fun _ => 0⟩]⟩,
  -- NODE_ID (R671)
  ⟨0x10, 0x0, 1, 0, 1, [⟨31, 31, .rw, [], true, fun _ => 0⟩, ⟨19, 0, .rw, [], true, fun _ => 1048575⟩]⟩]

/-- The registers from CFG_HASH_LO on (R672 to R566). -/
def regTable20 : List RegRow := [
  -- CFG_HASH_LO (R672)
  ⟨0x14, 0x0, 1, 0, 1, [⟨31, 0, .rw, [], true, fun _ => 0⟩]⟩,
  -- CFG_HASH_HI (R672)
  ⟨0x18, 0x0, 1, 0, 1, [⟨15, 0, .rw, [], true, fun _ => 0⟩]⟩,
  -- GLOBAL_STATUS (R673)
  ⟨0x1C, 0x0, 1, 0, 1, [⟨10, 10, .ro, [], false, fun _ => 0⟩, ⟨9, 9, .ro, [], false, fun _ => 0⟩, ⟨8, 8, .ro, [], false, fun _ => 0⟩, ⟨7, 7, .ro, [], false, fun _ => 0⟩, ⟨6, 6, .ro, [], false, fun _ => 0⟩, ⟨5, 4, .ro, [], false, fun _ => 0⟩, ⟨3, 3, .ro, [], false, fun _ => 0⟩, ⟨2, 0, .ro, [], false, fun _ => 0⟩]⟩,
  -- RESET_GEN (R674)
  ⟨0x20, 0x0, 1, 0, 1, [⟨31, 24, .ro, [], false, fun _ => 0⟩, ⟨23, 12, .ro, [], false, fun _ => 0⟩, ⟨11, 0, .ro, [], false, fun _ => 0⟩]⟩,
  -- POWERON_ID (R674)
  ⟨0x24, 0x0, 1, 0, 1, [⟨31, 0, .ro, [], false, fun _ => 0⟩]⟩,
  -- XPT_RBSEL (R676)
  ⟨0x180020, 0x0, 1, 0, 1, [⟨1, 0, .rw, [(0, 2)], false, fun _ => 0⟩]⟩,
  -- IDENT (R2)
  ⟨0x0, 0x0, 1, 0, 1, [⟨31, 0, .ro, [], false, fun _ => 1196883977⟩]⟩,
  -- RTR_FLIP_TIME_LO (R251)
  ⟨0x140008, 0x0, 1, 0, 1, [⟨31, 0, .rw, [], true, fun _ => 0⟩]⟩,
  -- RTR_FLIP_TIME_HI (R251)
  ⟨0x14000C, 0x0, 1, 0, 1, [⟨31, 0, .rw, [], true, fun _ => 0⟩]⟩,
  -- CSP_DIR_AT_LO (R565)
  ⟨0x10024, 0x0, 1, 0, 1, [⟨31, 0, .ro, [], false, fun _ => 0⟩]⟩,
  -- CSP_DIR_AT_HI (R565)
  ⟨0x10028, 0x0, 1, 0, 1, [⟨31, 0, .ro, [], false, fun _ => 0⟩]⟩,
  -- CSP_WAKE_AT_LO (R566)
  ⟨0x10030, 0x0, 1, 0, 1, [⟨31, 0, .rw, [], false, fun _ => 0⟩]⟩]

/-- The registers from CSP_WAKE_AT_HI on (R566 to R535). -/
def regTable21 : List RegRow := [
  -- CSP_WAKE_AT_HI (R566)
  ⟨0x10034, 0x0, 1, 0, 1, [⟨31, 0, .rw, [], false, fun _ => 0⟩]⟩,
  -- SEA_SERIAL_LO (R534)
  ⟨0x40010, 0x0, 1, 0, 1, [⟨31, 0, .ro, [], false, fun _ => 0⟩]⟩,
  -- SEA_SERIAL_HI (R534)
  ⟨0x40014, 0x0, 1, 0, 1, [⟨31, 0, .ro, [], false, fun _ => 0⟩]⟩,
  -- SEA_FW_SVN (R534)
  ⟨0x40018, 0x0, 1, 0, 1, [⟨31, 0, .ro, [], false, fun _ => 0⟩]⟩,
  -- SEA_NONCE (R535)
  ⟨0x42000, 0x4, 12, 0, 1, [⟨31, 0, .rw, [], false, fun _ => 0⟩]⟩]

/-- Every register of the aperture that is not banked by Q_SEL. -/
def regTable : List RegRow :=
  regTable0 ++ regTable1 ++ regTable2 ++ regTable3 ++ regTable4 ++ regTable5 ++ regTable6 ++ regTable7 ++ regTable8 ++ regTable9 ++ regTable10 ++ regTable11 ++ regTable12 ++ regTable13 ++ regTable14 ++ regTable15 ++ regTable16 ++ regTable17 ++ regTable18 ++ regTable19 ++ regTable20 ++ regTable21

/-- The index of the register of this array that lies at `a`, if one does. -/
def RegRow.index? (r : RegRow) (a : Nat) : Option Nat :=
  if a < r.base then none else
  let i := if r.st = 0 then 0 else (a - r.base) / r.st
  let d := (a - r.base) - i * r.st
  let j := if r.st2 = 0 then 0 else d / r.st2
  if i < r.n ∧ j < r.n2 ∧ a = r.base + i * r.st + j * r.st2 then some i else none

/-- The first array of a list that has a register at `a`, with its index. -/
def findRegIn : List RegRow → Nat → Option (RegRow × Nat)
  | [], _ => none
  | r :: t, a => match r.index? a with
    | some i => some (r, i)
    | none => findRegIn t a

/-- The register at `a`, if the spec gives one. -/
def findReg (a : Nat) : Option (RegRow × Nat) := findRegIn regTable a

/-- The word that a list of fields resets to. -/
def resetOfFields (i : Nat) : List RegField → Nat
  | [] => 0
  | f :: t => f.reset i * 2 ^ f.lo + resetOfFields i t

/-- What the register word at `a` holds after reset; 0 where no register lies (R669). -/
def resetWord (a : Nat) : Word :=
  match findReg a with
  | some (r, i) => BitVec.ofNat 32 (resetOfFields i r.fields)
  | none => 0

end Sys2Proof.Machine
end

