-- ==== Sys2Proof/Machine/Num.lean ====
section
/-! DEFINITION. Exact arithmetic on numbers m × 2^e and the binary formats that round them (R311, and the arithmetic
chapters). -/
namespace Sys2Proof.Machine

/-- The exact number `m × 2^e`. -/
structure Dy where
  m : Int := 0
  e : Int := 0
deriving DecidableEq, Repr

/-- A value of a floating-point format. -/
inductive Fv
  | nan
  | inf (neg : Bool)
  /-- A finite value; a zero keeps its sign in `neg`. -/
  | fin (neg : Bool) (v : Dy)
deriving DecidableEq, Repr

/-- A binary floating-point format: exponent bits, fraction bits, exponent bias. -/
structure Fmt where
  eb : Nat
  fb : Nat
  bias : Int
deriving DecidableEq, Repr

def fmtF32 : Fmt := ⟨8, 23, 127⟩
def fmtBf16 : Fmt := ⟨8, 7, 127⟩
def fmtF16 : Fmt := ⟨5, 10, 15⟩

/-- Shifts an integer left by `k`. -/
def shl (m : Int) (k : Nat) : Int := m * (2 : Int) ^ k

/-- The sum of two exact numbers. -/
def Dy.add (a b : Dy) : Dy :=
  let e := min a.e b.e
  ⟨shl a.m (a.e - e).toNat + shl b.m (b.e - e).toNat, e⟩

/-- The product of two exact numbers. -/
def Dy.mul (a b : Dy) : Dy := ⟨a.m * b.m, a.e + b.e⟩

def Dy.neg (a : Dy) : Dy := ⟨-a.m, a.e⟩

/-- The integer nearest to `m × 2^-k`, ties to even. -/
def rneShift (m k : Nat) : Nat :=
  let q := m / 2 ^ k
  let r := 2 * (m % 2 ^ k)
  if r < 2 ^ k then q else if 2 ^ k < r then q + 1 else if q % 2 = 0 then q else q + 1

/-- The value that the bits of an IEEE format spell. -/
def Fmt.decode (f : Fmt) (bits : Nat) : Fv :=
  let neg := bits / 2 ^ (f.eb + f.fb) % 2 = 1
  let ex := bits / 2 ^ f.fb % 2 ^ f.eb
  let fr := bits % 2 ^ f.fb
  if ex = 2 ^ f.eb - 1 then (if fr = 0 then .inf neg else .nan)
  else
    let m := if ex = 0 then fr else fr + 2 ^ f.fb
    let e := (if ex = 0 then 1 else (ex : Int)) - f.bias - f.fb
    .fin neg ⟨if neg then -(m : Int) else m, e⟩

/-- Rounds the magnitude `m × 2^e` to a format's units: the integer significand and its exponent, `m = 0` for zero. -/
def Fmt.round (f : Fmt) (m : Nat) (e : Int) : Nat × Int :=
  let emin : Int := 1 - f.bias - f.fb
  let top : Int := Int.ofNat (Nat.log2 m) + e
  let q := max emin (top - f.fb)
  if q ≤ e then (m * 2 ^ (e - q).toNat, q)
  else
    let r := rneShift m (q - e).toNat
    if r = 2 ^ (f.fb + 1) then (2 ^ f.fb, q + 1) else (r, q)

/-- The bits of the format's value nearest to an exact number, ties to even, infinity on overflow; `neg` gives the sign
of a zero. -/
def Fmt.encode (f : Fmt) (neg : Bool) (v : Dy) : Nat :=
  let sgn := if v.m < 0 ∨ (v.m = 0 ∧ neg) then 2 ^ (f.eb + f.fb) else 0
  if v.m = 0 then sgn else
  let (m, q) := f.round v.m.natAbs v.e
  if m < 2 ^ f.fb then sgn + m
  else
    let ex := q + f.fb + f.bias
    if (2 ^ f.eb - 1 : Int) ≤ ex then sgn + (2 ^ f.eb - 1) * 2 ^ f.fb
    else sgn + ex.toNat * 2 ^ f.fb + (m - 2 ^ f.fb)

/-- The canonical NaN of R311, 0x7FC0_0000 in binary32: a quiet NaN with a zero payload. -/
def Fmt.qnan (f : Fmt) : Nat := (2 ^ f.eb - 1) * 2 ^ f.fb + 2 ^ (f.fb - 1)

/-- The sum of two values, as the bits of a format, rounded to nearest even, subnormals kept (R311). -/
def Fmt.addBits (f : Fmt) (a b : Nat) : Nat :=
  match f.decode a, f.decode b with
  | .nan, _ => f.qnan
  | _, .nan => f.qnan
  | .inf x, .inf y => if x = y then b2 x else f.qnan
  | .inf x, _ => b2 x
  | _, .inf y => b2 y
  | .fin x u, .fin y v => f.encode (x && y) (u.add v)
where b2 (neg : Bool) : Nat := (if neg then 2 ^ (f.eb + f.fb) else 0) + (2 ^ f.eb - 1) * 2 ^ f.fb

end Sys2Proof.Machine
end

