-- ==== Sys2Proof/Machine/State.lean ====
section
/-! DEFINITION. The state of the block as plain data: registers, FIFOs, tables, engines, pins, and the queue of waiting
commands; why a command may stop; the state after reset. -/
namespace Sys2Proof.Machine

/-- The build options of R5. -/
structure Build where
  ports : Nat := 12
  lanes8 : Bool := true
  channels : Nat := 20
  fox : Bool := true
  stagingMib : Nat := 24
  /-- The integrator's JEDEC code in IDCODE (R73). DESIGN CHOICE (log entry 76): a build value that the spec does
  not give; 0 by default. -/
  manufacturer : Nat := 0
deriving DecidableEq, Repr

/-- Fabric time and the reference clock (R17, R18, R41, R646). -/
structure Time where
  /-- Fabric time in units of 1/160,000,000 ns. -/
  units : Nat := 0
  /-- REFCLK cycles since the always-on slice started; an ac cycle is 100 of them. -/
  refclks : Nat := 0
  /-- REFCLK has edges. -/
  ref : Bool := true
deriving DecidableEq, Repr

/-- The instructions of the test access port (R72), as an 8-bit code selects them. -/
inductive JtagIr | extest | idcode | samplePreload | clamp | highz | ijtagAccess | bypass
deriving DecidableEq, Repr

/-- Read modes of the flash, by the lines that carry opcode, address and data (R65). -/
inductive ReadMode | m111 | m112 | m122 | m114 | m144
deriving DecidableEq, Repr

/-- The flash part as discovery found it, and how the block drives it (R64 to R68). -/
structure FlashPart where
  mib : Nat
  mode : ReadMode := .m111
  /-- It is addressed with 4 bytes. -/
  addr4 : Bool := false
  /-- Opcode of the 4 KiB erase, and the quad-enable method of the table. -/
  eraseOp : Nat := 0x20
  quadEnable : Nat := 0
  /-- FL_SCK is the management clock divided by 3, 4, 6, 8 or 16; cycles of delay of the sample point. -/
  divider : Nat := 16
  delay : Nat := 0
deriving DecidableEq, Repr

/-- The block's pins and what lies directly behind them (R37 to R76). -/
structure Pins where
  /-- PORST_n is low, or its release is not recognised yet. -/
  porst : Bool := true
  /-- HRST_n's recognised level is low (R51). -/
  hrst : Bool := false
  fcValid : Bool := false
  trgReady : Bool := false
  fltAlive : Bool := false
  /-- FLT_ALIVE is stopped, holding its last level (R62). -/
  fltStopped : Bool := true
  /-- ac cycle of the last toggle of FLT_ALIVE. -/
  fltLast : Nat := 0
  /-- EXTEST, CLAMP or HIGHZ is selected, and fences the block (R75). -/
  testFence : Bool := false
  /-- The 8-bit instruction register of the test access port (R72). -/
  ir : Byte := 0x01
  /-- The boundary register as last captured, and the values preloaded into it, which EXTEST and CLAMP drive (R72, R74). -/
  boundary : Nat := 0
  preload : Nat := 0
  /-- The 1-bit bypass register (R72). -/
  bypass : Bool := false
  /-- The bits that JT_TDO carried in the last scan, first bit first; between scans it is in high impedance (R37). -/
  tdo : List Bool := []
  /-- The HERR pairs and internal pairs in a wire fault (R571). -/
  wireFaults : List Nat := []
deriving DecidableEq, Repr

/-- An event that a source has reported and Hedgehog has not recognised yet (R569, R570). -/
structure HhgEvent where
  src : Nat
  cls : Nat
  cause : Nat
  info : Nat
  wire : Bool
deriving DecidableEq, Repr

/-- A fault log record (R575). -/
structure FaultRec where
  src : Nat := 0
  reported : Nat := 0
  effective : Nat := 0
  escalated : Bool := false
  cause : Nat := 0
  wire : Bool := false
  acked : Bool := false
  lostBefore : Bool := false
  info : Nat := 0
  ftime : Nat := 0
  seq : Nat := 0
  repeats : Nat := 0
  /-- The slot holds a record. -/
  valid : Bool := false
deriving DecidableEq, Repr

/-- Hedgehog (R569 to R596). -/
structure Hhg where
  waiting : List HhgEvent := []
  log : Tbl FaultRec := []
  /-- HHG_FATAL (R593). -/
  fatal : Option FaultRec := none
  seq : Nat := 0
  /-- Records were lost since the previous record (R575). -/
  lost : Bool := false
  /-- End of the quiet period: in fabric time, or in ac cycles while fabric time is invalid (R579). -/
  quietEnd : Option Nat := none
  quietInAc : Bool := false
  /-- The word that the self-check reads next (R577). -/
  selfPtr : Nat := 0
  /-- Words scrubbed in this pass, when the pass began and when the last word was read (R581, R595). -/
  scrubPos : Nat := 0
  scrubStart : Nat := 0
  scrubAt : Nat := 0
  /-- When the initialisation fill began (R584). -/
  fillStart : Nat := 0
  /-- A group of the running fill has exceeded its 200 µs (R584). -/
  fillBad : Bool := false
deriving DecidableEq, Repr

/-- What the end of a host memory transfer does. -/
inductive Purpose
  /-- Nothing: its operation has been abandoned. -/
  | none
  /-- A ring read of queue `q`: `n` descriptors from index `first` on (R117). -/
  | descFetch (q first n : Nat)
  /-- A completion entry of queue `q`, with its CNT object (R25). -/
  | cplEntry (q : Nat) (cnt : Option Nat) (imm : Bool)
  /-- An ILOAD (R330). -/
  | iload
  /-- Data of back-end entry `id` of context `k`: an LDW, STW, CPIN or CPOUT (R337). -/
  | backEnd (k id : Nat)
  /-- A HOSTWR of trigger entry `t` (R371, R373). -/
  | hostWr (t : Nat)
  /-- Line `line` of the chunk list of window `w` (R304). -/
  | chunkLine (w line serial : Nat)
  /-- The source list of a KIND 1 CREATE (R303). -/
  | chunkSource
  /-- The source bytes of the PUT packet with TAG `t` (R22 step 4, R280). -/
  | putSource (t : Nat)
  /-- The DATA of the GET packet with TAG `t`, of `n` bytes (R282). -/
  | getData (t n : Nat)
  /-- A host access of operation `id` at the target engine, for its bytes from `off` on (R310). -/
  | target (id off : Nat)
  /-- The read or the write-back of a line held by the atomic unit (R313). -/
  | atomLine (line : Nat)
  /-- The contribution of segment `k` of step `y` (R400). -/
  | yarOwn (y k : Nat)
  /-- A write of segment `k` at its owner (R402). -/
  | yarWrite (y k : Nat)
  /-- A write of a gathered slice of segment `k` (R402). -/
  | yarGather (y k : Nat)
  /-- The member list, the source, the CX table and the write of the own part of an A2A or CX step (R406, R407). -/
  | yarList (y : Nat)
  | yarBody (y : Nat)
  | yarTable (y : Nat)
  | yarSelf (y : Nat)
  /-- A slice of segment `k` of a step whose staging lies in the overflow area, in the reduce or the gather half, and the
  whole contribution of such a step where it waits (R34, R399). -/
  | yarSpill (y k : Nat) (half : Bool)
  | yarHold (y : Nat)
  /-- The member list that names the sender of a COUNT, and the write of a collective packet's data (R406, R408). -/
  | collList (id : Nat)
  | collWrite (id : Nat)
  /-- The image and the member list entry of a group CREATE (R390). -/
  | groupImage
  | groupList
  /-- State, old weights and writes of the update stage (R453). -/
  | updState (y k : Nat)
  | updWeights (y k : Nat)
  | updWrite (y k : Nat)
  /-- Foxglove: weights, source, residuals and writes of an entry (R464, R480). -/
  | foxLoad (id : Nat)
  | foxSource (id : Nat)
  | foxResid (id : Nat)
  | foxSpill (id : Nat)
  | foxWrite (id : Nat)
  /-- An entry of the firmware log (R632), of this level. -/
  | logEntry (level : Nat)
deriving DecidableEq, Repr

/-- A raw 64-byte operation descriptor, read by its fields (R101). -/
structure Desc where
  opcode : Nat := 0
  flags : Nat := 0
  sync : Nat := 0
  cls : Nat := 0
  dest : Nat := 0
  localWin : Nat := 0
  remoteWin : Nat := 0
  length : Nat := 0
  localOff : Nat := 0
  remoteOff : Nat := 0
  userTag : Nat := 0
  op0 : Nat := 0
  op1 : Nat := 0
  /-- Bytes 48–61, the reserved bits of FLAGS and of DEST are all zero (R102). -/
  rsvdZero : Bool := true
  format : Nat := 0
  /-- Its ring index, or the count of descriptors accepted since OPEN (R104). -/
  index : Nat := 0
  /-- Its place among the descriptors that the block has accepted or fetched (R102). -/
  seq : Nat := 0
deriving DecidableEq, Repr

/-- One completion on its way to a queue's completion ring (R100, R104). -/
structure Cpl where
  userTag : Nat := 0
  flags : Nat := 0
  sync : Nat := 0
  index : Nat := 0
  status : Nat := 0
  bytes : Nat := 0
  result : Nat := 0
  /-- An immediate completion of R100, which never reached a context. -/
  imm : Bool := false
deriving DecidableEq, Repr

/-- Q_STATE.STATE (R112). -/
inductive QState | closed | opened | closing | closedByReset | error
deriving DecidableEq, Repr

/-- A command queue: its configuration (R107 to R111) and its live state (R112 to R119). -/
structure Queue where
  state : QState := .closed
  /-- Q_CMD.STATUS of its last command (R107). -/
  cmdStatus : Nat := 0
  driverAbi : Nat := 0
  irqWire : Nat := 15
  context : Nat := 0
  push : Bool := false
  log2 : Nat := 6
  ring : Nat := 0
  cpl : Nat := 0
  head : Nat := 0
  tail : Nat := 0
  cplTail : Nat := 0
  phase : Bool := true
  /-- Entries written and not yet consumed, oldest first: whether each was written with FLAGS.IRQ (R118). -/
  unconsumed : List Bool := []
  /-- Descriptors waiting to be started, oldest first: the push FIFO, or those fetched. -/
  waiting : List Desc := []
  /-- Descriptors accepted since OPEN, modulo 2^32 (R104). -/
  accepted : Nat := 0
  /-- A ring read is in flight (R117). -/
  fetching : Bool := false
  /-- Descriptors that the context has started and that have not completed. -/
  started : List Desc := []
  /-- Completions held while the completion ring is full (R118). -/
  held : List Cpl := []
  /-- Completion entry writes without their response yet (R25). -/
  writing : Nat := 0
  /-- CLOSE found the queue in ERROR: its started descriptors write no entry (R119). -/
  noEntries : Bool := false
deriving DecidableEq, Repr

/-- One HMP request: 1 to 4 lines of 128 B (R83), the bytes `addr` to `addr + len − 1` of them. -/
structure HmpReq where
  write : Bool
  addr : Nat
  len : Nat
  src : Nat
  bytes : List Byte
  /-- Bit i enables byte `addr + i` of a write (HMP_WSTRB). -/
  strb : Nat
  xfer : Nat
  /-- Offset of its first byte in its transfer. -/
  off : Nat
deriving DecidableEq, Repr

/-- A tag in use or in quarantine (R85, R94). -/
structure HmpTag where
  req : HmpReq
  /-- Fabric time of its command's transfer. -/
  since : Nat
  beats : Nat
  quarantined : Bool
deriving DecidableEq, Repr

/-- One HMP channel (R82 to R94). -/
structure HmpChan where
  /-- Commands waiting for HMP_CREADY, oldest first. -/
  cmds : List HmpReq := []
  /-- The front command stands on the pins (HMP_CVALID): it was presented before a quiesce began, and goes on (R52, R80). -/
  up : Bool := false
  /-- Data beats that the host has taken of the front write ahead of its command (R86). -/
  early : Nat := 0
  /-- Data beats still to transfer of the write whose command was taken last (R86). -/
  wleft : Nat := 0
  tags : Tbl HmpTag := []
  /-- Tags quarantined before the last reset, not to be issued before `holdUntil` (R94). -/
  held : List Nat := []
  holdUntil : Nat := 0
deriving DecidableEq, Repr

/-- One piece of a transfer that has returned: its offset, its bytes and its status (R91). -/
structure Piece where
  off : Nat
  bytes : List Byte
  stat : Nat
deriving DecidableEq, Repr

/-- A transfer between a unit and host memory, split into requests by R83. -/
structure Xfer where
  k : Purpose
  write : Bool
  len : Nat
  got : List Piece
  /-- Requests without their last beat or response. -/
  left : Nat
deriving DecidableEq, Repr

/-- The Host Memory Port. -/
structure Hmp where
  chans : Tbl HmpChan := []
  xfers : Tbl Xfer := []
  next : Nat := 0
  /-- Finished transfers whose use is a step of its own. -/
  returned : List Xfer := []
  /-- No new command may be issued (R52, R132). -/
  quiesce : Bool := false
deriving DecidableEq, Repr

/-- MRT_CTX_STATUS.STATE, by the codes of R322. -/
inductive CtxState | stopped | ready | waitSync | waitTrig | fencing | stopping | faulted
deriving DecidableEq, Repr

/-- The group's most recent CX step (R407). -/
structure CxRec where
  step : Nat
  /-- Its status once it has ended. -/
  status : Option Nat := none
  dwin : Nat
  off : Nat
  /-- The counts that this member sends, by rank. -/
  counts : List Nat := []
deriving DecidableEq, Repr

/-- One back-end queue entry (R326, R327): the instruction and the register values captured at issue, or the queue
descriptor that stands in its place (R328). -/
structure BeEntry where
  id : Nat := 0
  /-- The index of its instruction (R356). -/
  pc : Nat := 0
  opcode : Nat := 0
  va : Nat := 0
  vb : Nat := 0
  vc : Nat := 0
  /-- g[C+1], the second operand of ATOM. -/
  vc1 : Nat := 0
  d : Nat := 0
  fn : Nat := 0
  imm : Nat := 0
  order : Bool := false
  /-- The object that the entry adds 1 to when it ends. -/
  cnt : Option Nat := none
  started : Bool := false
  /-- It has been passed on and has left the queue; it stands here until its operation completes (R326, R341). -/
  left : Bool := false
  /-- The value that a finished scratch entry will write (LDS), or 0. -/
  result : Option Nat := none
  /-- The queue and index of the descriptor this entry executes. -/
  desc : Option (Nat × Nat) := none
  /-- The step number of a collective instruction and when it was issued (R343, R418). -/
  step : Nat := 0
  since : Nat := 0
  /-- The live update record as RUG found it, and the CX step that a counted A2A follows (R407, R449). -/
  upd : List Nat := []
  cx : Option CxRec := none
  /-- The live stage record of the group, as the issue of its step found it (R472). -/
  stg : List Nat := []
  /-- Chunk list lines that it waits for, by window and line (R304). -/
  lines : List (Nat × Nat) := []
  /-- The translation of its local range, as far as it has been resolved (R22 step 2, R304). -/
  ext : List (Nat × Nat) := []
  /-- First byte of a copy in scratch, and the failure that the copy has met (R337, R338). -/
  base : Nat := 0
  bad : Nat := 0
  /-- Its context has had a Tier 0 since it started: it records no failure and writes no register (R601). -/
  muted : Bool := false
deriving DecidableEq, Repr

/-- The entry is the FENCE instruction's own (R341): it holds its place in the queue until the fence ends. -/
def BeEntry.isFence (e : BeEntry) : Bool := e.opcode = 0x44 && e.desc.isNone

/-- One Marten context (R320 to R346, R356, R357). -/
structure Ctxt where
  state : CtxState := .stopped
  pc : Nat := 0
  cause : Nat := 0
  info : Nat := 0
  cmdErr : Bool := false
  /-- G1 to G31; G0 is never listed (R324). -/
  g : Tbl Dword := []
  /-- P1 to P7; P0 is never listed (R324). -/
  p : Tbl Bool := []
  pendG : List Nat := []
  pendP : List Nat := []
  beq : List BeEntry := []
  nextId : Nat := 0
  /-- The record of program failures for FENCE: first status and count (R341). -/
  recStatus : Nat := 0
  recCount : Nat := 0
  /-- The first late failure was recorded before any program failure. -/
  lateFirst : Bool := false
  /-- Late failures recorded, to 2^32 − 1 (R103); XPT_LATE.COUNT shows them to its own end (R295). -/
  lateCount : Nat := 0
  astat : Nat := 0
  /-- The wait in progress: object, condition and value of SYNWAIT, its deadline, the destination register or predicate. -/
  waitObj : Nat := 0
  waitCond : Nat := 0
  waitVal : Nat := 0
  waitEnd : Option Nat := none
  waitDst : Nat := 0
  /-- The trigger FIFO: the objects of its tokens, oldest first (R122, R377). -/
  fifo : List Nat := []
deriving DecidableEq, Repr

/-- An ILOAD in progress (R330): the next index to write, and the instructions still to read. -/
structure Iload where
  index : Nat
  left : Nat
deriving DecidableEq, Repr

/-- The Marten cores' shared memories. -/
structure Marten where
  /-- Instruction memory: 128-bit words by index (R329). -/
  imem : Tbl (BitVec 128) := []
  /-- What the cores' fetch caches hold: lines of 4 instructions by 8,192 × core + line, 64 for each core (R329). -/
  cached : Tbl (List (BitVec 128)) := []
  /-- Poisoned lines of 4 instructions (R329). -/
  imemPoison : List Nat := []
  /-- Scratch: bytes by 65,536 × core + offset (R331). -/
  scratch : List Host.Cell := []
  /-- Scratch words marked uncorrectable, by byte offset ÷ 8 (R583). -/
  scratchPoison : List Nat := []
  iload : Option Iload := none
  /-- Descriptors accepted by the queues so far (R102). -/
  descSeq : Nat := 0
deriving DecidableEq, Repr

/-- A threshold trigger entry (R368, R387). -/
structure TrigEntry where
  obj : Nat := 0
  cond : Nat := 0
  action : Nat := 0
  armed : Bool := false
  pending : Bool := false
  ctx : Nat := 0
  laps : Nat := 0
  poisoned : Bool := false
  thresh : Nat := 0
  step : Nat := 0
  fires : Nat := 0
  arg : Nat := 0
  value : Nat := 0
  ftime : Nat := 0
deriving DecidableEq, Repr

/-- The synchronisation store (R358 to R387). -/
structure Syn where
  /-- Objects, unlisted ones 0. -/
  objs : Tbl Dword := []
  poison : List Nat := []
  trigs : Tbl TrigEntry := []
  /-- The delivery queue, oldest first (R370). -/
  deliv : List Nat := []
  /-- An entry whose DISARM waits for its pending delivery (R374). -/
  disarming : Option Nat := none
deriving DecidableEq, Repr

/-- STATE of a window entry (R296). -/
inductive WinState | free | valid | revoking | invalid
deriving DecidableEq, Repr

/-- A window table entry (R296). -/
structure Win where
  state : WinState := .free
  base : Nat := 0
  gen : Nat := 0
  bound : Nat := 0
  pkey : Nat := 0
  rd : Bool := false
  wr : Bool := false
  at_ : Bool := false
  chunked : Bool := false
  chunkLog2 : Nat := 0
  serial : Nat := 0
  heatRd : Nat := 0
  heatWr : Nat := 0
  heatAt : Nat := 0
  candSrc : Nat := 0
  candCnt : Nat := 0
deriving DecidableEq, Repr

/-- A NARROW or REVOKE that waits for its engines (R306). -/
structure WinCmd where
  revoke : Bool
  first : Nat
  count : Nat
deriving DecidableEq, Repr

/-- The window table and what belongs to it. -/
structure Windows where
  tbl : Tbl Win := []
  cmd : Option WinCmd := none
  /-- A KIND 1 CREATE waits for its source list: the entry it will make (R303). -/
  creating : Option (Nat × Win) := none
  /-- Chunk list lines in use in the overflow area: first line and number of lines, by window (R303). -/
  lists : Tbl (Nat × Nat) := []
  /-- The chunk translation cache: address by 2^33 × window + chunk index (R304). -/
  cache : Tbl Nat := []
  /-- Chunk list lines being read: 2^33 × window + line index (R304). -/
  filling : List Nat := []
  /-- The spill key (R303). -/
  spillKey : Nat := 0
  /-- Number of the last heat period boundary (R314). -/
  heatNext : Nat := 0
deriving DecidableEq, Repr

/-- What an operation in transport reports to when it ends. -/
inductive Owner
  /-- Back-end entry `id` of context `k`, a program's or a descriptor's. -/
  | entry (k id : Nat)
  /-- The SIGNAL of trigger entry `t` (R371). -/
  | trig (t : Nat)
  /-- A NOTICE of the target engine (R286). -/
  | notice
  /-- A collective packet of step `y`. -/
  | coll (y : Nat)
deriving DecidableEq, Repr

/-- An operation handed to transport (R266). -/
structure XOp where
  id : Nat := 0
  owner : Owner := .notice
  ctx : Nat := 0
  opcode : Nat := 0
  dest : Nat := 0
  tc : Nat := 0
  pkey : Nat := 0
  win : Nat := 0
  off : Nat := 0
  len : Nat := 0
  /-- The translation of the local bytes: host ranges, and the local window they were resolved through (R22, R26). -/
  ext : List (Nat × Nat) := []
  lwin : Nat := 0
  fn : Nat := 0
  w8 : Bool := false
  /-- The payload of an ATOMIC, SIGNAL, NOTICE or collective packet. -/
  payload : List Byte := []
  /-- Bytes for which a packet has been made; a packet without bytes counts 1. -/
  made : Nat := 0
  /-- The first packet holds a table entry: the operation is open (R29). -/
  opened : Bool := false
  /-- The first HMP access has been issued (R26, R306). -/
  accessed : Bool := false
  /-- Packets without an outcome. -/
  out : Nat := 0
  doneBytes : Nat := 0
  /-- The lowest-offset packet that failed, with its status (R266). -/
  fail : Option (Nat × Nat) := none
  result : Nat := 0
deriving DecidableEq, Repr

/-- An Outstanding Operation Table entry (R284, R285), numbered by its TAG. -/
structure OotEntry where
  /-- STATE: 1 waiting, 2 in flight, 3 waiting for a new numbering. -/
  state : Nat := 1
  op : Nat := 0
  ctx : Nat := 0
  peer : Nat := 0
  tc : Nat := 0
  opcode : Nat := 0
  seq : Nat := 0
  stag : Nat := 0
  attempt : Nat := 0
  deadline : Option Nat := none
  /-- Offset of the packet in its operation, and its LENGTH. -/
  poff : Nat := 0
  len : Nat := 0
  /-- The payload is at hand; a PUT's source is being read while it is not (R280). -/
  ready : Bool := false
  payload : List Byte := []
  /-- The DATA of a GET is being written through the local translation. -/
  writing : Bool := false
deriving DecidableEq, Repr

/-- A stream's halves in the Peer State Table (R267), and what the handshake and the budget keep beside them. -/
structure Peer where
  txNext : Nat := 0
  txStag : Nat := 0
  /-- 0 NONE, 1 SYNCING, 2 OPEN, 3 LOST, 4 INVALID. -/
  txState : Nat := 0
  rxBase : Nat := 0
  rxStag : Nat := 0
  /-- 0 FRESH, 1 OPEN, 4 INVALID. -/
  rxState : Nat := 0
  /-- Bit k: sequence number RX_BASE + k has been accepted (R274). -/
  bmp : Nat := 0
  bmpIdx : Option Nat := none
  /-- The pending SYNC: its STAG, key, class, attempt and deadline, and the state before SYNCING (R269). -/
  syncStag : Nat := 0
  syncPkey : Nat := 0
  syncTc : Nat := 0
  syncAttempt : Nat := 0
  syncEnd : Option Nat := none
  before : Nat := 0
  /-- No SYNC of a new STAG before this time (R269). -/
  syncHold : Nat := 0
  /-- When the numbering began its recent sequence numbers (R271). -/
  begun : List Nat := []
deriving DecidableEq, Repr

/-- A response record (R278, R279); without a status it is reserved. -/
structure RespRec where
  stream : Nat
  stag : Nat
  seq : Nat
  status : Option Nat
  opcode : Nat
  result : Nat
  created : Nat
deriving DecidableEq, Repr

/-- An ordered packet held until it is eligible (R275). -/
structure HeldPkt where
  stream : Nat
  pkt : Pkt
  since : Nat
deriving DecidableEq, Repr

/-- Transport (R263 to R295). -/
structure Xpt where
  ops : Tbl XOp := []
  nextOp : Nat := 0
  oot : Tbl OotEntry := []
  peers : Tbl Peer := []
  recs : Tbl RespRec := []
  held : Tbl HeldPkt := []
deriving DecidableEq, Repr

/-- Which flow of the scheduler a packet belongs to (R495). -/
inductive Flow
  | response
  | control
  | queue (q : Nat)
  | ctx (k : Nat)
  | group (g : Nat)
deriving DecidableEq, Repr

/-- A packet waiting for the scheduler, with its flow. -/
structure OutPkt where
  flow : Flow
  pkt : Pkt
  /-- Shapers that have counted it as waiting (R511). -/
  waited : List Nat := []
  /-- The local crossbar port that presents it, 0 to 9, once the scheduler has begun it; 10 is the router's own (R15). -/
  xbar : Nat := 0
deriving DecidableEq, Repr

/-- Where an operation at the target engine stands (R309 to R313). -/
inductive TgtPhase | waiting | resolving | reading | writing | atomic
deriving DecidableEq, Repr

/-- An accepted request at the target engine. -/
structure TgtOp where
  id : Nat := 0
  pkt : Pkt := {}
  stream : Nat := 0
  recIdx : Option Nat := none
  /-- When transport handed it over: the BUSY_BOUND timer runs from here (R310). -/
  since : Nat := 0
  phase : TgtPhase := .waiting
  /-- The chunk list lines it waits for. -/
  lines : List Nat := []
  /-- Lines of 128 B that its admission has reserved (R310), and the host address of an ATOMIC. -/
  space : Nat := 0
  addr : Nat := 0
  /-- Host transfers without their end yet, and the bytes read so far by offset. -/
  left : Nat := 0
  got : List (Nat × List Byte) := []
  bad : Option Nat := none
deriving DecidableEq, Repr

/-- A line held by the atomic unit (R313). -/
structure AtomLine where
  /-- The line's bytes once read. -/
  data : Option (List Byte) := none
  /-- Operations queued for the line, in arrival order. -/
  queue : List Nat := []
  /-- Packets whose effect the coming write-back carries, each with the offset of its operand in the line. -/
  applied : List (Pkt × Nat) := []
  /-- The packets of the write-back that is in flight. -/
  inFlight : List Pkt := []
  writing : Bool := false
deriving DecidableEq, Repr

/-- The target engine (R309 to R314). -/
structure Tgt where
  ops : Tbl TgtOp := []
  next : Nat := 0
  /-- Held lines by line number. -/
  atoms : Tbl AtomLine := []
deriving DecidableEq, Repr

/-- A record of the Burrow (R656). -/
structure BurrowRec where
  type : Nat
  body : List Byte
  /-- Fabric time in ns, or 0 while it is invalid. -/
  time : Nat
deriving DecidableEq, Repr

/-- A 4 KiB sector of the Burrow area (R656): its header and its records, oldest first. -/
structure Sector where
  seq : Nat := 0
  erases : Nat := 0
  records : List BurrowRec := []
deriving DecidableEq, Repr

/-- The board flash and Burrow's view of it (R268, R618, R655 to R661). -/
structure Burrow where
  /-- The stored XPT_STAG.NEXT (R268). -/
  stag : Nat := 0
  /-- The part that discovery has found (R65, R66). -/
  part : Option FlashPart := none
  /-- Image copies and board configuration copies: bytes of the flash below 0x20_0000; erased bytes are 0xFF. -/
  flash : Tbl Byte := []
  /-- Sectors of the Burrow area, by the part that discovery found (R655). -/
  sectors : Nat := 1536
  /-- Written sectors by index; an unlisted sector is erased. -/
  area : Tbl Sector := []
  /-- Index of the newest sector, and the fabric time at which it was opened (R660). -/
  cur : Nat := 0
  opened : Nat := 0
  /-- Bad sectors in the order in which they were found: the recorded ones, and those beyond 64 (R661). -/
  bad : List Nat := []
  skipped : List Nat := []
  /-- Last refresh times of the four copies: images 0 and 1, configurations 0 and 1 (R660). -/
  refreshed : List Nat := [0, 0, 0, 0]
  /-- Copies marked failed (R661), numbered in the same way. -/
  failed : List Nat := []
  /-- Image and configuration copies rewritten and not verified since (R655). -/
  dirty : List Nat := []
  /-- Start of the hour of R659, and sectors opened in it for FAULT and CAPTURE records. -/
  hour : Nat := 0
  hourUsed : Nat := 0
  /-- Erases and programs that have not been checked yet, oldest first: a sector of the area, or a copy (R661). -/
  checking : List (Nat ⊕ Nat) := []
deriving DecidableEq, Repr

/-- One lane: its generators and run counts, and what its last training found (R134 to R137, R146, R153, R156). -/
structure LaneIo where
  /-- The scramblers' states s[30:0] (R134). -/
  txGen : Nat := 0
  rxGen : Nat := 0
  /-- Level and length of the run of identical levels sent and received (R137). -/
  txLevel : Nat := 0
  txRun : Nat := 0
  rxLevel : Nat := 0
  rxRun : Nat := 0
  /-- The lane has reported loss of symbol lock (R153). -/
  lockLost : Bool := false
  /-- Left out of training (R146). -/
  excluded : Bool := false
  /-- MARKER found in this attempt, and when it arrived, in UI (R146). -/
  aligned : Bool := false
  arrival : Nat := 0
  /-- The far lane has announced electrical idle (R139, R142). -/
  rxIdle : Bool := false
  /-- The transmitter is off in lane Dormouse rather than in Doze while parked (R156). -/
  parkedDeep : Bool := false
  /-- Fabric time of the last background step (R151) and of the last health scan (R174). -/
  lastStep : Nat := 0
  scanAt : Option Nat := none
deriving DecidableEq, Repr

/-- What a transmitter sends on one lane: electrical idle; the training or test pattern PRBS of an order, or its own
receiver's data (R159); frames of transition fill (R137); a control frame (R139); the levels of data frames (R133). -/
inductive TxFrame
  | idle
  | prbs (order : Nat)
  | loop
  | fill (frames : Nat)
  | ctl (bytes : List Byte)
  | data (levels : List Nat)
deriving DecidableEq, Repr

/-- A port's lane state machine (R142 to R156). -/
structure LanePort where
  /-- Deadline of the timer of the state it is in (R143). -/
  timer : Option Nat := none
  /-- LAN_TRAIN_CFG as the attempt in progress took it (R161). -/
  cfg : Nat := 0x03200000
  /-- Its candidate seed, and the agreed LINK_SEED (R135, R147). -/
  seed : Nat := 0
  linkSeed : Nat := 0
  /-- NODE, port and SEED of the far TS frames (R147). -/
  far : Option (Nat × Nat × Nat) := none
  farAligned : Bool := false
  /-- RXMASK and COUNT of the last far TS2 (R148, R149). -/
  farMask : Option Nat := none
  farCount : Option Nat := none
  /-- COUNT of the next TS2, and whether a TS2 with COUNT 0 has gone out (R149). -/
  count : Nat := 15
  zeroSent : Bool := false
  skewBad : Bool := false
  /-- Transmit logical lanes, and far logical lanes, that carry data at the full trained width (R148). -/
  txMask : Nat := 0
  rxMask : Nat := 0
deriving DecidableEq, Repr

/-- The lane complex and Owl (R133 to R174). -/
structure Lanes where
  lanes : Tbl LaneIo := []
  ports : Tbl LanePort := []
  /-- End of the manual eye scan (R157). -/
  owlEnd : Option Nat := none
  /-- The 1687 public segments hold the offset sampler (R158). -/
  owlJtag : Bool := false
  /-- By port, what its transmitters sent last: each lane's number in the port and what it sent, in order. -/
  wire : Tbl (List (Nat × List TxFrame)) := []
deriving DecidableEq, Repr


/-- The fuses of the Seal unit (R514). -/
structure Fuses where
  uds : Nat := 0
  serial : Nat := 0
  fwAnchor : List Byte := []
  /-- OP_ANCHOR[0] and [1]: 48 bytes each, or none while not programmed. -/
  anchor0 : List Byte := []
  anchor1 : List Byte := []
  revoked0 : Bool := false
  revoked1 : Bool := false
  minSvn : Nat := 0
  debugLock : Bool := false
deriving DecidableEq, Repr

/-- The exchange and rekey of a sealed link (R525 to R530). -/
structure SealLink where
  egen : Nat := 0
  /-- Own nonce and ephemeral private key; far nonce and ephemeral public key. -/
  nonce : List Byte := []
  eph : Nat := 0
  farNonce : List Byte := []
  farEph : List Byte := []
  /-- The far ALIAS_PUB, once its credential has been accepted. -/
  farAlias : List Byte := []
  /-- S_KEX has been verified and the keys derived: k_lf, salt_lf, k_fl, salt_fl, k_cf. -/
  derived : Option (List (List Byte)) := none
  /-- Fragments received of types 0x21, 0x22, 0x24 and 0x25: by 16 × type + index. -/
  frags : Tbl (List Byte) := []
  /-- An exchange is under way. -/
  running : Bool := false
  /-- A rekey: 1 this end sent S_REKEY, 2 it answered one; the tries made, and its retry timer. -/
  rekey : Nat := 0
  tries : Nat := 0
  retryEnd : Option Nat := none
  /-- A rekey is wanted once the old keys are retired (R530). -/
  wanted : Bool := false
  /-- Fabric time of the last key installation (R529). -/
  installed : Nat := 0
  /-- The new transmit phase begins at the next group; the old keys are not retired yet. -/
  flipTx : Bool := false
  oldTxEnd : Option Nat := none
  /-- A complete S_REKEY of the far end that waits until both directions have retired their old keys (R530). -/
  held : Option (List Byte) := none
  oldRx : Bool := false
deriving DecidableEq, Repr

/-- A management session (R521). -/
structure Session where
  number : Nat
  key : List Byte
  /-- The counter of the last command accepted, if one has been, and the anchor slot it was opened under. -/
  last : Option Nat := none
  slot : Nat := 0
  /-- Fabric time of the last command. -/
  used : Nat := 0
deriving DecidableEq, Repr

/-- The Seal unit (R512 to R537). -/
structure SealUnit where
  fuses : Fuses := {}
  /-- Measurements and identities (R516 to R519). -/
  fwMeas : List Byte := []
  fwSvn : Nat := 0
  cfgMeas : List Byte := []
  devKey : Nat := 0
  aliasKey : Nat := 0
  endorse : List Byte := []
  /-- The operator anchor's public key, while held (R515). -/
  anchorKey : List Byte := []
  /-- The fabric credential's bytes, while installed (R524). -/
  cred : List Byte := []
  links : Tbl SealLink := []
  sessions : List Session := []
  nextSession : Nat := 0
  /-- The challenge that is open: nonce and ephemeral private key (R521). -/
  challenge : Option (List Byte × Nat) := none
  /-- The last accepted directive sequence (R521). -/
  directive : Nat := 0
  /-- Generate requests since the last reseed (R513), and the seed counter used while RNG_OK is 0. -/
  generated : Nat := 0
  seedCounter : Nat := 0
deriving DecidableEq, Repr


/-- A sequenced flit in the replay buffer: what rule R189 keeps. -/
structure SentFlit where
  seq : Nat
  kind : Nat
  blen : Nat
  keyph : Bool
  first : Nat
  pwords : Nat
  /-- The 240 payload bytes as sent. -/
  payload : List Byte
  /-- The scrubber has found it uncorrectable (R583). -/
  marked : Bool := false
deriving DecidableEq, Repr

/-- A received sequenced flit of a sealed group that waits for its tag (R212). -/
structure HeldFlit where
  aad : List Byte
  blen : Nat
  first : Nat
  pwords : Nat
  payload : List Byte
deriving DecidableEq, Repr

/-- The credits of one channel (R190 to R193). -/
structure Credit where
  /-- The far limits, and what this end has used. -/
  limH : Nat := 0
  limD : Nat := 0
  usedH : Nat := 0
  usedD : Nat := 0
  /-- The advertisement in force, and what this end has freed. -/
  advH : Nat := 0
  advD : Nat := 0
  freedH : Nat := 0
  freedD : Nat := 0
  /-- What the packets in this end's ingress buffer occupy (R194). -/
  heldH : Nat := 0
  heldD : Nat := 0
deriving DecidableEq, Repr

/-- The link keys of one direction and phase, as the Seal unit installs them (R211, R214). -/
structure LinkKey where
  key : Nat := 0
  salt : Nat := 0
  /-- The next group counter. -/
  counter : Nat := 0
deriving DecidableEq, Repr

/-- A link port (R175 to R223). -/
structure LinkPort where
  txNext : Nat := 0
  txAcked : Nat := 0xFFFF
  rxExpect : Nat := 0
  replay : List SentFlit := []
  /-- The sequence number that a replay sends next (R187). -/
  replayAt : Option Nat := none
  /-- Consecutive replays, whether TX_ACKED has advanced since the last one, and since the entry to RETRAIN (R188). -/
  consec : Nat := 0
  advanced : Bool := true
  retrained : Bool := false
  /-- The state that RETRAIN was entered from; when, and what its bound adds to LOCK_TMO, in ns (R188). -/
  leftState : Nat := 3
  retrainFrom : Option (Nat × Nat) := none
  /-- After RETRAIN, the first far header is still to be examined (R684). -/
  resuming : Bool := false
  /-- A loss is unanswered; the next header carries NAK (R186). -/
  nakPending : Bool := false
  nakSend : Bool := false
  -- since when NAK_TMO, REPLAY_TMO and LOCK_TMO run (R186 to R188)
  nakFrom : Option Nat := none
  replayFrom : Option Nat := none
  lockFrom : Option Nat := none
  /-- Since when the timers stand still for a lost symbol lock (R188). -/
  frozen : Option Nat := none
  /-- Credits by channel; channel 16 is bypass (R190). -/
  credits : Tbl Credit := []
  /-- RTR_VC_MAXPKT as the exchange took it (R254), and the next CVC (R193). -/
  maxpkt : Nat := 0
  cvc : Nat := 0
  reachedUp : Bool := false
  /-- Words of granted packets still to send, each with whether a packet begins in it (R181). -/
  txWords : List (Bool × Dword) := []
  /-- Waiting bypass messages: LINK, STOAT, AMM (R182, R183). -/
  bpLink : List (List Byte) := []
  bpStoat : List (List Byte) := []
  bpAmm : List (List Byte) := []
  /-- Packet words received and not yet a whole packet (R181); the packet in progress as QUARANTINE was entered is still
  accepted (R197). -/
  rxWords : List Dword := []
  rxFinish : Bool := false
  /-- LINK messages received, with their arrival, waiting to be consumed (R182). -/
  rxLink : List (Nat × List Byte) := []
  /-- STOAT and AMM messages that hold one of the 64 places (R182). -/
  rxBypass : List (List Byte) := []
  -- the capability exchange (R197, R200 to R204)
  probes : Nat := 0
  echoes : Nat := 0
  bestRtt : Option Nat := none
  bestOfs : Int := 0
  ownCap : List Byte := []
  ownGen : Nat := 0
  farCap : Option (List Byte) := none
  /-- The causes of this end's verdict and of the far one, with the CAP generations they judge. -/
  ownVerdict : Option (Nat × Nat) := none
  farVerdict : Option (Nat × Nat) := none
  capEnd : Option Nat := none
  /-- The probed RTT and the CAP of this exchange have been handled. -/
  capSent : Bool := false
  -- sleep and width (R205 to R209)
  sleepReq : Option Nat := none
  sleepAcked : Option Nat := none
  responding : Option Nat := none
  ackSent : Bool := false
  sleepEnd : Option Nat := none
  /-- The lanes are back from Doze or Dormouse, and UP waits for an IDLE sent and for a matching far FSEQ (R207). -/
  waking : Bool := false
  wakeIdle : Bool := false
  wakeMatch : Bool := false
  /-- Frame indexes of both directions (R208). -/
  txFrames : Nat := 0
  rxFrames : Nat := 0
  /-- The width this end has asked for, with its index once the request has gone out; the changes due in each direction;
  the width that both had, once one has changed (R208). -/
  widthReq : Option (Nat × Option Nat) := none
  oldWidth : Option Nat := none
  txWidthAt : Option (Nat × Nat) := none
  rxWidthAt : Option (Nat × Nat) := none
  /-- Lanes in use in each direction. -/
  txWidth : Nat := 0
  rxWidth : Nat := 0
  -- sealing (R210 to R214, R526 to R530)
  txKeys : Tbl LinkKey := []
  rxKeys : Tbl LinkKey := []
  txPhase : Bool := false
  /-- Flits of the transmit group that is open: headers as authenticated, and plaintexts (R210, R211). -/
  txGroup : List HeldFlit := []
  rxGroup : List HeldFlit := []
  /-- The group counter of the last tag failure (R213). -/
  tagFailed : Option Nat := none
  /-- TX_NEXT recorded at the drain deadline, while the port is not clean (R242). -/
  drainMark : Option Nat := none
  /-- Flit slots and those with a sequenced flit in this congestion window (R247). -/
  slots : Nat := 0
  busySlots : Nat := 0
deriving DecidableEq, Repr


/-- A packet in the router's buffers. -/
structure RtPkt where
  /-- 0 to 11: the link port it arrived on; 12 to 21: a local crossbar port; 22: the router itself (R15). -/
  from_ : Nat
  pkt : Pkt
  /-- When its header reached the router. -/
  since : Nat
  /-- The routing decision has been made: the direction it waits for. -/
  dir : Option Nat := none
  /-- The egress port that the hash selected, and the one it selected last (R226, R231). -/
  egress : Option Nat := none
  lastEgress : Option Nat := none
  entering : Bool := false
  late : Bool := false
  downEnd : Option Nat := none
deriving DecidableEq, Repr

/-- The router (R224 to R262). -/
structure Router where
  /-- The routing tables: 4-bit entries by 2^17 × version + node (R228). -/
  table : Tbl Nat := []
  /-- Table words whose protected word reads as no route, until firmware rewrites each: 16,384 × version + word (R583). -/
  spoiled : List Nat := []
  /-- Packets that the scheduler has begun and that wait at the local crossbar ports (R15, R235). -/
  inject : List OutPkt := []
  /-- Packets in the buffers, oldest first. -/
  bufs : List RtPkt := []
  /-- Packets delivered to the local units, oldest first. -/
  deliver : List Pkt := []
  /-- The version that is not current has passed its drain deadline, or never carried traffic since (R231). -/
  drained : Bool := false
  /-- The armed flip time T, in ns (R240). -/
  flipAt : Nat := 0
  /-- The drain deadline of the last flip (R242). -/
  deadline : Option Nat := none
  /-- By link port, when its sampling window began, and the fc in it in which a packet could not begin (R247). -/
  congFrom : Tbl Nat := []
  blocked : Tbl Nat := []
  /-- Round-robin positions by egress, for continuing and for entering packets (R235). -/
  rrCont : Tbl Nat := []
  rrEnt : Tbl Nat := []
  /-- The epoch bit whose local packets HOLD holds (R245). -/
  holdBit : Option Nat := none
deriving DecidableEq, Repr



/-- A flow of the scheduler with its class and its deficit (R495, R499). -/
structure SchFlow where
  flow : Flow
  tc : Nat
  deficit : Nat := 0
deriving DecidableEq, Repr

/-- The scheduler (R495 to R506). Token counts are in fifths of a byte. -/
structure Sched where
  /-- Active classes in order, each with its deficit, and active flows in order (R499). -/
  classes : List (Nat × Nat) := []
  flows : List SchFlow := []
  /-- Counts of the 64 shapers below their reset depth of 16 KiB, and the rate of each in this window (R502). -/
  tokens : Tbl Int := []
  rates : Tbl Nat := []
  /-- Counts of the port shapers (R503). -/
  ports : Tbl Int := []
  /-- Reservation buckets by 16 × group + port (R505). -/
  resv : Tbl Int := []
  /-- The group that a reservation served last. -/
  last : Nat := 0
  /-- Windows of 32 ns whose end has been handled. -/
  window : Nat := 0
deriving DecidableEq, Repr

/-- An abort record (R417). -/
structure AbortRec where
  time : Nat
  origin : Nat
  step : Nat
  cause : Nat
deriving DecidableEq, Repr

/-- A group descriptor and its live state (R388, R430). -/
structure Group where
  /-- 0 FREE, 1 CREATED, 2 ABORTED, 3 ERROR. -/
  state : Nat := 0
  image : List Byte := []
  issued : Nat := 0
  ended : Nat := 0
  failSt : Nat := 0
  failStep : Nat := 0
  lagNode : Nat := 0
  lagIdx : Nat := 0
  lastWait : Nat := 0
  maxWait : Nat := 0
  slow : Tbl Nat := []
  selfLate : Nat := 0
  abort : Option AbortRec := none
  degraded : Bool := false
  /-- Failures kept for steps not issued yet (R413): step and status. -/
  kept : List (Nat × Nat) := []
  /-- Status of each step that has ended here, by step number (R412). -/
  endedSt : Tbl (Option Nat) := []
  /-- Steps whose FAIL has been forwarded (R413). -/
  fwd : List Nat := []
  cx : Option CxRec := none
deriving DecidableEq, Repr

/-- A slice that is being received from one neighbour into staging (R401, R437). -/
structure SliceIn where
  /-- The neighbour index: 2g positive, 2g + 1 negative (R430). -/
  nb : Nat
  granted : Bool := false
  complete : Bool := false
  /-- Bytes that its packets have declared. -/
  declared : Nat := 0
  data : List Byte := []
  /-- Granules of 256 B written. -/
  marks : List Nat := []
  /-- Byte ranges that came in packets with SAT set: first and length. -/
  sat : List (Nat × Nat) := []
deriving DecidableEq, Repr

/-- A segment of a step at this member (R394 to R402). -/
structure Seg where
  /-- The contribution's partials as they go on the wire; none while it is being read. -/
  own : Option (List Byte) := none
  /-- The slice of the reduce half that is being combined, and its inputs in the order in which they are combined. -/
  slice : Nat := 0
  kids : List SliceIn := []
  /-- Complete inputs of the slice, by arrival (R444). -/
  arrived : List Nat := []
  /-- Slices that the parent has granted. -/
  upGrant : Nat := 0
  /-- In the overflow area: 0 the slice is not there, 1 it is on its way, 2 it has been read back (R34, R399). -/
  staged : Nat := 0
  /-- The slice has been combined, and its packets or its write are still unanswered: how many. -/
  passing : Bool := false
  left : Nat := 0
  reduced : Bool := false
  /-- At the owner: the reduced values so far where an MX block or the update stage takes them, each with its SAT
  mark. -/
  vals : List (Fv × Bool) := []
  /-- The gather half has begun here; its data at the owner, and byte ranges that derive from saturated values. -/
  gathering : Bool := false
  gdata : List Byte := []
  gsat : List (Nat × Nat) := []
  gslice : Nat := 0
  gin : Option SliceIn := none
  /-- Slices that each child has granted, by neighbour index, and the children that the current slice has been sent to. -/
  gGrant : Tbl Nat := []
  gSent : List Nat := []
  /-- Packets of the current gather slice and its write, still unanswered. -/
  gLeft : Nat := 0
  gWritten : Bool := false
  done : Bool := false
deriving DecidableEq, Repr

/-- An outstanding step of a group (R397 to R407). -/
structure YStep where
  g : Nat
  step : Nat
  /-- 1 RS, 2 AG, 3 AR, 4 RUG, 5 A2A, 6 CX. -/
  phase : Nat
  ctx : Nat
  /-- The back-end entry that issued it. -/
  be : Nat
  ga : Nat
  gb : Nat
  gc : Nat
  swin : Nat
  dwin : Nat
  var_ : Bool := false
  /-- The length that enters the tree: g[A], or the output of the group's stage (R482). -/
  len : Nat
  since : Nat
  /-- Translations of the source and destination ranges. -/
  src : List (Nat × Nat) := []
  dst : List (Nat × Nat) := []
  /-- Offset in swin and dwin at which the translations begin. -/
  segs : Tbl Seg := []
  /-- Staging segments granted, or segments of the overflow area (R34). -/
  stag : List Nat := []
  spill : List Nat := []
  /-- An element written here derives from a saturated value (R414). -/
  ovf : Bool := false
  /-- Host accesses without their end, and the status with which it ends once they have returned (R415). -/
  acc : Nat := 0
  ending : Option (Nat × Bool) := none
  /-- The live update record and the group's live stage record as copied at issue (R449, R472). -/
  upd : List Nat := []
  stg : List Nat := []
  /-- Last input waited for: neighbour index, node, and ns from issue (R418). -/
  lag : Option (Nat × Nat × Nat) := none
  /-- The member list, the contribution of A2A and the counts of CX once read. -/
  members : Option (List Byte) := none
  body : Option (List Byte) := none
  /-- The CX step that a counted A2A follows, and its table. -/
  cx : Option CxRec := none
  table : Option (List Byte) := none
  /-- Chunk list lines that it waits for. -/
  lines : List (Nat × Nat) := []
  /-- A2A and CX: sends without their acknowledgement, whether they have been made, and own block pending. -/
  sent : Bool := false
  sends : Nat := 0
  ownLeft : Nat := 0
  /-- Bytes arrived with write responses; the counts received by rank; places sent. -/
  got : Nat := 0
  counts : Tbl (Option Nat) := []
  placed : Bool := false
deriving DecidableEq, Repr

/-- READY grants of steps not issued yet (R408). -/
structure EarlyGrant where
  g : Nat
  step : Nat
  src : Nat
  phase : Nat
  ga : Nat
  gc : Nat
  seg : Nat
  slice : Nat
  half : Bool
deriving DecidableEq, Repr

/-- Data of a step that has not been issued (R408). -/
structure EarlyData where
  g : Nat
  step : Nat
  got : Nat := 0
  counts : Tbl (Option Nat) := []
deriving DecidableEq, Repr

/-- An accepted A2A or COUNT packet on its way to host memory (R407, R408). -/
structure CollIn where
  pkt : Pkt
  recIdx : Option Nat
  /-- The chunk list lines it waits for. -/
  lines : List Nat := []
  left : Nat := 0
  bad : Option Nat := none
  /-- The rank of its sender, once the member list has been read. -/
  rank : Option Nat := none
deriving DecidableEq, Repr

/-- An owned segment at the update stage (R448 to R454): its step and segment, and the state and old weights read. -/
structure UpdJob where
  y : Nat
  seg : Nat
  running : Bool := false
  lines : List (Nat × Nat) := []
  st : Option (List Byte) := none
  w : Option (List Byte) := none
  left : Nat := 0
  bad : Option Nat := none
deriving DecidableEq, Repr

/-- A CREATE under way (R390): the group, whether it came from management, and the image once it has been checked. -/
structure GroupCreate where
  g : Nat
  priv : Bool
  image : Option (List Byte) := none
  lines : List Nat := []
deriving DecidableEq, Repr

/-- A Stoat operation slot (R421, R423). -/
structure StoOp where
  g : Nat
  step : Nat
  /-- The entry that issued it: context and back-end entry, LEN, destination in scratch, issue time. -/
  be : Option (Nat × Nat) := none
  len : Nat := 0
  dst : Nat := 0
  since : Nat := 0
  dim : Nat := 0
  val : List Byte := []
  /-- Values received, by dimension. -/
  got : Tbl (List (List Byte)) := []
  /-- Messages that wait for the issue to be forwarded. -/
  fwd : List (List Byte) := []
  lag : Option (Nat × Nat × Nat) := none
deriving DecidableEq, Repr

/-- A collective packet that is sent again after COLL_RETRY (R408, R412). -/
structure CollRetry where
  due : Nat
  y : Nat
  op : XOp
deriving DecidableEq, Repr

/-- A write of step `y` that meets a line held by the atomic unit: its host ranges, data and purpose (R312). -/
structure HeldWrite where
  y : Nat
  ext : List (Nat × Nat)
  data : List Byte
  k : Purpose
deriving DecidableEq, Repr

/-- Yarrow and Stoat (R388 to R460). -/
structure Yarrow where
  groups : Tbl Group := []
  steps : Tbl YStep := []
  next : Nat := 0
  grants : List EarlyGrant := []
  early : List EarlyData := []
  ins : Tbl CollIn := []
  upds : List UpdJob := []
  creating : Option GroupCreate := none
  stoats : List StoOp := []
  retries : List CollRetry := []
  /-- Steps stalled by the bound on running groups and by the bound on Stoat steps: context and entry (R404, R423). -/
  runWait : List (Nat × Nat) := []
  stoWait : List (Nat × Nat) := []
  /-- Staging segments granted, and retired (R34, R35). -/
  used : List Nat := []
  retired : List Nat := []
  /-- Writes of steps that wait for the write-back of a line that the atomic unit holds (R312). -/
  held : List HeldWrite := []
deriving DecidableEq, Repr

/-- What a Foxglove queue entry does. -/
inductive FoxKind | load | commit | pass | group
deriving DecidableEq, Repr

/-- An entry of the Foxglove queue, waiting or running (R464 to R483). -/
structure FoxEntry where
  id : Nat
  kind : FoxKind
  ctx : Nat
  /-- The back-end entry that issued it, or the step it works for. -/
  be : Nat := 0
  y : Nat := 0
  tiles : Nat := 0
  slot : Nat := 0
  len : Nat := 0
  win : Nat := 0
  off : Nat := 0
  dwin : Nat := 0
  doff : Nat := 0
  stage : Nat := 0
  /-- The live stage record as copied: words 0 to 9 (R472). -/
  cfg : List Nat := []
  ext : List (Nat × Nat) := []
  dext : List (Nat × Nat) := []
  rext : List (Nat × Nat) := []
  lines : List (Nat × Nat) := []
  /-- Weights and poison of its tiles when it started (R466). -/
  snap : Tbl Nat := []
  bad : List Nat := []
  stag : List Nat := []
  spill : List Nat := []
  /-- Source bytes that have passed through the overflow area. -/
  spAt : Nat := 0
  srcGot : Option (List Piece) := none
  resGot : Option (List Piece) := none
  left : Nat := 0
  /-- Output bytes computed for the group's step. -/
  out : List Byte := []
  st : Nat := 0
deriving DecidableEq, Repr

/-- Foxglove (R461 to R494). -/
structure Fox where
  /-- 0 off, 1 powering up, 2 on (R487). -/
  island : Nat := 0
  upEnd : Option Nat := none
  /-- Since when nothing keeps the island powered. -/
  idleSince : Nat := 0
  /-- 16-bit words by 65,536 × (4 × plane + tile) + 4,096 × slot + 64 × row + column (R461). -/
  weights : Tbl Nat := []
  /-- Poisoned tile-slots: 16 × (4 × plane + tile) + slot (R485). -/
  poison : List Nat := []
  queue : List FoxEntry := []
  running : List FoxEntry := []
  /-- Entries whose commit marker is in the array (R465). -/
  markers : List FoxEntry := []
  next : Nat := 0
deriving DecidableEq, Repr



/-- A lane measure that the arbiter has taken (R554, R556). -/
inductive Measure
  /-- Port `p` narrowed from `frm` to `to_` lanes. -/
  | narrow (p frm to_ : Nat)
  /-- Port `p` sent to Dormouse. -/
  | sleep (p : Nat)
  /-- Port `p` set Off. -/
  | off (p : Nat)
deriving DecidableEq, Repr

/-- Cowslip (R538 to R568). -/
structure Cowslip where
  /-- Token period boundaries handled. -/
  period : Nat := 0
  /-- Tokens granted to the six consumers for this period (R548). -/
  grants : List Nat := []
  /-- The ceiling before the last change of LEVEL, the time of that change, whether it was a rise (R554, R555). -/
  oldCeil : Nat := 0
  changed : Option Nat := none
  rising : Bool := false
  /-- LEVEL_REACHED has been set, and R556 applied, for that change. -/
  reached : Bool := true
  forced : Bool := true
  /-- Measures in force, latest first; they may be undone (R555). -/
  measures : List Measure := []
  widen : Bool := false
  /-- Ports whose wake waits for the next boundary, and wake slots taken since the last one (R546). -/
  waking : List Nat := []
  slots : Nat := 0
  /-- Since the last boundary the far end has woken a port for which no slot was free; the period under way is counted in
  OVER already (R550). -/
  unpaid : Bool := false
  owing : Bool := false
  /-- When each port last carried or held traffic (R544). -/
  busyAt : Tbl Nat := []
  /-- Ports that leave Doze in order to go to Dormouse. -/
  deepen : List Nat := []
  /-- When the idle conditions last did not hold (R539). -/
  activeAt : Nat := 0
  /-- The power state that is being entered: 2 Nap, 3 Hibernate. -/
  entering : Option Nat := none
  /-- The power state that is being left, and LEVEL when Nap was entered (R557). -/
  leaving : Option Nat := none
  napLevel : Nat := 0
  /-- Ports in use when Hibernate was entered (R542). -/
  ports : List Nat := []
  /-- A Tier 3 that waits for the exit from Nap or Hibernate (R53, R75): whether it captures, is counted, ends the safe state. -/
  tier3After : Option (Bool × Bool × Bool) := none
  /-- Fabric time at which HRST_n was recognised, where its Tier 3 waits for that exit (R617). -/
  hrstStamp : Option Nat := none
  /-- The fabric PLL has been started: its 100 µs deadline, and failures in a row (R42). -/
  pllEnd : Option Nat := none
  pllFails : Nat := 0
deriving DecidableEq, Repr

/-- Where a reset that is under way stands (R597, R603, R605). -/
inductive TierStep
  /-- A capture hold (R614). -/
  | hold
  /-- The HMP quiesces, and in a Tier 2 the links drain. -/
  | quiesce
  /-- A Tier 3 waits for HRST_n (R605 step 3). -/
  | hrst
  /-- The initialisation fill runs. -/
  | fill
  /-- The ports train (R605 step 6). -/
  | train
  /-- A Tier 1 waits for its engine's accesses (R602). -/
  | engine
deriving DecidableEq, Repr

/-- A reset under way. -/
structure TierRun where
  n : Nat
  step : TierStep
  engine : Nat := 0
  capture : Bool := false
  /-- It counts under R617, and its stamp in ns: none while fabric time is invalid. -/
  counted : Bool := false
  stamp : Option Nat := none
  /-- Fabric time at which it began. -/
  began : Nat := 0
  /-- It is Hedgehog's exit (R579). -/
  exit : Bool := false
  /-- End of the hold, of the link drain, or start of the training. -/
  mark : Option Nat := none
deriving DecidableEq, Repr

/-- A suspect replay (R616): the suspects still to run, the solo one, its slot's end, the fault that may recur. -/
structure Replay where
  rest : List Nat
  solo : Nat
  slotEnd : Nat
  /-- The solo suspect has been running in its slot. -/
  ran : Bool := false
  src : Nat
  cause : Nat
deriving DecidableEq, Repr

/-- Bring-up (R597). -/
inductive Boot
  /-- PORST_n is low, or discovery has failed, or both images have: no firmware runs. -/
  | none
  /-- Discovery has ended; the images are read and checked next. -/
  | image
  /-- Firmware runs and the fabric domain comes up. -/
  | bringup
  /-- Bring-up is complete. -/
  | done
deriving DecidableEq, Repr

/-- The reassembly of AMM fragments on a port (R634). -/
structure AmmPart where
  msgId : Nat
  /-- The index expected next, and the bytes so far. -/
  next : Nat
  bytes : List Byte
deriving DecidableEq, Repr

/-- A member of the grove that this block is steward of (R640, R643). -/
structure GroveEntry where
  node : Nat
  route : List Byte := []
  n : Nat := 0
  silent : Bool := false
  /-- When its last HEALTH arrived, and its body; the port map of its last CONG_MAP. -/
  last : Nat := 0
  health : List Byte := []
  map : List Byte := []
deriving DecidableEq, Repr

/-- A session command whose answer waits for its unit (R301, R390, R639): the arrival port and the CMD message, its
session and counter, its OP, and whether a reset has ended it. -/
structure HeldRsp where
  via : Nat
  cmd : List Byte
  session : Nat
  counter : Nat
  op : Nat
  aborted : Bool := false
deriving DecidableEq, Repr

/-- Badger: recovery, management messages, groves, the log ring (R597 to R668). -/
structure Badger where
  boot : Boot := .none
  /-- The sideband's LOAD field (R653), and the image that LOAD_PUT has written. -/
  load : Nat := 0
  image : Tbl Byte := []
  /-- The running image (R629). -/
  running : List Byte := []
  tier : Option TierRun := none
  /-- Counted resets that wait for a valid time to be judged (R617). -/
  unstamped : Nat := 0
  /-- A capture has been taken whose suspects no replay has run yet (R615, R616). -/
  captured : Bool := false
  hbEnd : Option Nat := none
  /-- The source and cause of the fault that the last capture followed (R613, R616). -/
  fault : Nat × Nat := (0, 0)
  replay : Option Replay := none
  /-- Restarts of each component in the last second (R631): component and time. -/
  restarts : List (Nat × Nat) := []
  /-- When firmware began to run: the watchdog's window cannot have begun earlier (R610). -/
  fwSince : Nat := 0
  /-- The progress monitors (R612): by engine code, the items as last seen, and when they last advanced. -/
  seen : Tbl (List Nat × Nat) := []
  -- management messages
  parts : Tbl AmmPart := []
  /-- Messages delivered here, oldest first: arrival port (15: sideband) and bytes. -/
  inbox : List (Nat × List Byte) := []
  msgId : Nat := 0
  /-- The command under way that its unit still executes. -/
  rspWait : Option HeldRsp := none
  /-- Sequences of the last 8 directives forwarded (R644). -/
  flooded : List Nat := []
  -- groves
  grove : Tbl GroveEntry := []
  healthPeriod : Nat := 100
  congPeriod : Nat := 10
  /-- The member's route to its steward. -/
  route : List Byte := []
  routeN : Nat := 0
  healthSeq : Nat := 0
  unacked : Nat := 0
  lastHealth : Nat := 0
  lastCong : Nat := 0
  /-- What the last HEALTH told of the events of R641: a difference calls for another. -/
  told : List Nat := []
  -- time
  /-- When the last offset was measured, and periods without the parent (R647). -/
  lastSync : Nat := 0
  missed : Nat := 0
  /-- What is left of an adjustment, in units of fabric time (R646). -/
  slew : Int := 0
  -- the log ring
  logSeq : Nat := 0
  logLost : Bool := false
  /-- Entries waiting in log staging, and levels of the entries between TAIL and HEAD (R632). -/
  logWait : List (List Byte) := []
  logLevels : List Nat := []
  /-- Log writes without their response. -/
  logWriting : Nat := 0
deriving DecidableEq, Repr

/-- Words latched by one access path (R361, R646, R677). -/
structure Latch where
  /-- High half of the object read last: address of its low word, and the half. -/
  obj : Option (Nat × Word) := none
  /-- The low word staged for an object: its address, and the word. -/
  staged : Option (Nat × Word) := none
  ftime : Option Word := none
  /-- Address and words of a latched entry. -/
  entry : Option (Nat × List Word) := none
  /-- XPT_RBSEL.VIEW of the path (R676). -/
  view : Nat := 0
deriving DecidableEq, Repr

/-- The Register Port and the sideband target: what each path has latched and last answered (R128, R129, R651 to R653). -/
structure Access where
  mrp : Latch := {}
  sideband : Latch := {}
  amm : Latch := {}
  /-- MRP_PDATA and MRP_PSTAT of the last response. -/
  pdata : Word := 0
  pstat : Nat := 0
  /-- The words last driven on SB_MISO. -/
  miso : List Word := []
  /-- The sideband's read buffer, and the status of the first word that failed. -/
  rdBuf : List Word := []
  rdFail : Nat := 0
  ammIn : Tbl Byte := []
  /-- Outbound messages, the first one in the outbound buffer (R652). -/
  ammOut : List (List Byte) := []
deriving DecidableEq, Repr


/-- Why a command stops the machine. -/
inductive Fault
  /-- Raised by no command of this model: the spec gives every row an effect. Safe. -/
  | none
deriving DecidableEq, Repr

/-- Why a command has no meaning here. -/
inductive Refusal
  /-- Raised by the dispatch for a row whose meaning is not written. Safe. -/
  | notModelled (mnemonic : String)
deriving DecidableEq, Repr

/-- The whole block. -/
structure State where
  build : Build := {}
  /-- The register words, by aperture byte address; an unlisted word holds its reset value. -/
  regs : Tbl Word := []
  time : Time := {}
  pins : Pins := {}
  hhg : Hhg := {}
  hmp : Hmp := {}
  queues : Tbl Queue := []
  ctxs : Tbl Ctxt := []
  mrt : Marten := {}
  syn : Syn := {}
  wins : Windows := {}
  xpt : Xpt := {}
  tgt : Tgt := {}
  /-- Packets waiting for the scheduler, oldest first. -/
  out : List OutPkt := []
  lanes : Lanes := {}
  links : Tbl LinkPort := []
  rtr : Router := {}
  sch : Sched := {}
  sea : SealUnit := {}
  burrow : Burrow := {}
  csp : Cowslip := {}
  bdg : Badger := {}
  acc : Access := {}
  yar : Yarrow := {}
  fox : Fox := {}
  /-- The commands that wait, first in, first out. -/
  pending : List Instr := []
  /-- The model's own counter of free values drawn. -/
  freeIdx : Nat := 0
deriving DecidableEq, Repr

/-- The block as PORST_n leaves it (R50, R54, R680): every register at its reset value, every table empty. -/
def State.reset : State := {}

end Sys2Proof.Machine
end

