-- ==== Sys2Proof/Machine/Tbl.lean ====
section
/-! DEFINITION. The operations of a sparse table in its canonical form: reading, writing, clearing and walking it. -/
namespace Sys2Proof

/-- The value at key `a`; `d` where no entry lists it. -/
def Tbl.get {α : Type} (d : α) : Tbl α → Nat → α
  | [], _ => d
  | (k, v) :: t, a => if a < k then d else if a = k then v else Tbl.get d t a

/-- The entry at key `a`, if one is listed. -/
def Tbl.find? {α : Type} : Tbl α → Nat → Option α
  | [], _ => none
  | (k, v) :: t, a => if a < k then none else if a = k then some v else Tbl.find? t a

/-- Lists `v` at key `a`, in key order. -/
def Tbl.put {α : Type} : Tbl α → Nat → α → Tbl α
  | [], a, v => [(a, v)]
  | (k, w) :: t, a, v =>
    if a < k then (a, v) :: (k, w) :: t else if a = k then (a, v) :: t else (k, w) :: Tbl.put t a v

/-- Lists nothing at key `a`. -/
def Tbl.drop {α : Type} : Tbl α → Nat → Tbl α
  | [], _ => []
  | (k, w) :: t, a => if a < k then (k, w) :: t else if a = k then t else (k, w) :: Tbl.drop t a

/-- Writes `v` at key `a`, where an unlisted key holds `d`: writing `d` removes the entry. -/
def Tbl.set {α : Type} [DecidableEq α] (d : α) (t : Tbl α) (a : Nat) (v : α) : Tbl α :=
  if v = d then t.drop a else t.put a v

/-- Applies `f` to the value at key `a`. -/
def Tbl.upd {α : Type} [DecidableEq α] (d : α) (t : Tbl α) (a : Nat) (f : α → α) : Tbl α :=
  t.set d a (f (t.get d a))

/-- Keeps the entries that `p` accepts. -/
def Tbl.keep {α : Type} (p : Nat → α → Bool) (t : Tbl α) : Tbl α := t.filter fun e => p e.1 e.2

/-- Applies `f` to every listed value; a value that becomes `d` is no longer listed. -/
def Tbl.mapAll {α : Type} [DecidableEq α] (d : α) (f : Nat → α → α) : Tbl α → Tbl α
  | [] => []
  | (k, v) :: t => if f k v = d then Tbl.mapAll d f t else (k, f k v) :: Tbl.mapAll d f t

/-- The listed keys are strictly rising from `lo` on, and no listed value equals the unlisted one. -/
def Tbl.wfFrom {α : Type} [DecidableEq α] (d : Nat → α) : Nat → Tbl α → Bool
  | _, [] => true
  | lo, (k, v) :: t => decide (lo ≤ k) && decide (v ≠ d k) && Tbl.wfFrom d (k + 1) t

/-- The canonical form of a table in which an unlisted key `k` holds `d k`. -/
def Tbl.wf {α : Type} [DecidableEq α] (d : Nat → α) (t : Tbl α) : Bool := Tbl.wfFrom d 0 t

end Sys2Proof
end

