-- ==== Sys2Proof/Machine/Ops.lean ====
section
/-! DEFINITION. The named operations that every unit shares: register fields, fabric time, byte order, the completion
status codes, and the report of an event to Hedgehog. -/
namespace Sys2Proof.Machine

/-- What a command's meaning answers. -/
abbrev Out := Host.Outcome State Fault Refusal

-- The completion status codes (R13).
def stOK : Nat := 0x00
def stPARTITION : Nat := 0x01
def stBOUND : Nat := 0x02
def stRIGHTS : Nat := 0x03
def stUNREACHABLE : Nat := 0x04
def stFENCED : Nat := 0x05
def stPOISON : Nat := 0x06
def stTIMEOUT : Nat := 0x07
def stABORTED : Nat := 0x08
def stREVOKED : Nat := 0x09
def stOVERFLOW : Nat := 0x0A
def stVERSION : Nat := 0x0B
def stBUSY : Nat := 0x0C
def stUNWRITTEN : Nat := 0x0D
def stQUOTA : Nat := 0x0E
def stINTERNAL : Nat := 0x0F

/-- ATOMIC_FN is defined, and FETCH_ADD_F32 comes with W8 = 0 (R311). -/
def atomicOk (fn : Nat) (w8 : Bool) : Bool := fn ≤ 0x0A && !(fn = 0x0A && w8)

/-- Bits `hi` to `lo` of a number. -/
def bitsOf (v hi lo : Nat) : Nat := v / 2 ^ lo % 2 ^ (hi + 1 - lo)

/-- Bit `i` of a number. -/
def bitOf (v i : Nat) : Bool := v / 2 ^ i % 2 = 1

/-- A Bool as a bit. -/
def b2n (b : Bool) : Nat := if b then 1 else 0

/-- Bits `hi` to `lo` of `w` replaced by `v`. -/
def putBits (w : Word) (hi lo v : Nat) : Word :=
  let m := 2 ^ (hi + 1 - lo)
  BitVec.ofNat 32 (w.toNat - bitsOf w.toNat hi lo * 2 ^ lo + (v % m) * 2 ^ lo)

/-- The number that little-endian bytes spell (R8). -/
def leNat : List Byte → Nat
  | [] => 0
  | b :: t => b.toNat + 256 * leNat t

/-- `n` bytes of a number, little-endian. -/
def natLE : Nat → Nat → List Byte
  | 0, _ => []
  | n + 1, v => BitVec.ofNat 8 v :: natLE n (v / 256)

/-- Bytes `o` to `o + n − 1` of a list of bytes, as a little-endian number. -/
def leAt (b : List Byte) (o n : Nat) : Nat := leNat ((b.drop o).take n)

/-- A list with element `i` replaced. -/
def setAt {α : Type} (l : List α) (i : Nat) (v : α) : List α := l.set i v

/-- Fabric time is kept in units of 1/160,000,000 ns, so that 6.4 ns, 0.4 ns and one part per million of a REFCLK cycle
are whole numbers of them (R18, R647). -/
def ns (n : Nat) : Nat := n * 160000000

/-- The fabric time of the state, in units. -/
def State.now (s : State) : Nat := s.time.units

/-- The fabric time of the state in whole nanoseconds (R646). -/
def State.nowNs (s : State) : Nat := s.time.units / 160000000 % 2 ^ 64

/-- The deadline that lies `n` nanoseconds after now; the window is half-open (R12). -/
def State.after (s : State) (n : Nat) : Nat := s.now + ns n

/-- A running timer has reached its deadline (R12: an event at exactly start + length belongs to the next window). -/
def State.due (s : State) (t : Option Nat) : Bool :=
  match t with | some d => decide (d ≤ s.now) | none => false

/-- A timer that has run since `t` has reached its length of `n` ns: a register's length that acts at once (R12, R217). -/
def State.ran (s : State) (t : Option Nat) (n : Nat) : Bool := s.due (t.map (· + ns n))

/-- ac cycles since the always-on slice started (R17: REFCLK ÷ 100). -/
def State.acs (s : State) : Nat := s.time.refclks / 100

/-- The word of the register at `a`. -/
def State.reg (s : State) (a : Nat) : Word := s.regs.get (resetWord a) a

/-- Writes the whole word of the register at `a`. -/
def State.setReg (s : State) (a : Nat) (w : Word) : State := { s with regs := s.regs.set (resetWord a) a w }

/-- The value of a register field. -/
def State.rd (s : State) (f : Fld) : Nat := bitsOf (s.reg f.addr).toNat f.hi f.lo

/-- Writes a register field; the rest of its word stays. -/
def State.wr (s : State) (f : Fld) (v : Nat) : State := s.setReg f.addr (putBits (s.reg f.addr) f.hi f.lo v)

/-- Adds to a counter field that saturates. -/
def State.bump (s : State) (f : Fld) (n : Nat) : State := s.wr f (min (s.rd f + n) (2 ^ (f.hi + 1 - f.lo) - 1))

/-- Adds to a field that wraps. -/
def State.wrapAdd (s : State) (f : Fld) (n : Nat) : State := s.wr f (s.rd f + n)

/-- A one-bit field reads 1. -/
def State.on (s : State) (f : Fld) : Bool := s.rd f ≠ 0

/-- A fresh free value: an opaque constant applied to a counter that the step advances. -/
def State.free (s : State) : Nat := Config.freeValue s.freeIdx

/-- The counter of free values, advanced. -/
def State.useFree (s : State) : State := { s with freeIdx := s.freeIdx + 1 }

/-- A source reports an event: its class, cause and info wait for Hedgehog's next ac sample (R569, R570, R683). -/
def report (s : State) (src cls cause info : Nat) : State :=
  { s with hhg := { s.hhg with waiting := s.hhg.waiting ++ [⟨src, cls, cause, info, false⟩] } }

/-- The block is fenced: some source of BDG_FENCE is asserted (R606), or a test instruction of R75 fences it. -/
def State.fenced (s : State) : Bool := s.reg BDG_FENCE.SW.addr &&& 0x3F#32 ≠ 0#32 || s.pins.testFence

/-- Hedgehog's STATE is NORMAL (R587). -/
def State.normal (s : State) : Bool := s.rd HHG_STATUS.STATE = 0

/-- The safe state or the way into it holds (R578). -/
def State.safe (s : State) : Bool := s.rd HHG_STATUS.STATE = 1 ∨ s.rd HHG_STATUS.STATE = 2

/-- No initialisation fill runs (R10, R584). -/
def State.initDone (s : State) : Bool := s.rd HHG_INIT.BUSY = 0

/-- Link ports present in the build (R5, R6). -/
def State.portPresent (s : State) (p : Nat) : Bool := p < s.build.ports

/-- Lanes of each port in the build (R6). -/
def State.laneCount (s : State) : Nat := if s.build.lanes8 then 8 else 4

/-- A lane that the build populates (R6). -/
def State.lanePresent (s : State) (k : Nat) : Bool := s.portPresent (k / 8) && k % 8 < s.laneCount

/-- Fabric time is valid (R648). -/
def State.timeValid (s : State) : Bool := s.on BDG_TIME_STAT.VALID

/-- Fabric time as a record shows it: zero while it is invalid. -/
def State.stampNs (s : State) : Nat := if s.timeValid then s.nowNs else 0

/-- CSP_STATUS.STATE (R539): 0 RUN, 1 DROWSE, 2 NAP, 3 HIBERNATE, 4 ENTERING, 5 EXITING. -/
def State.power (s : State) : Nat := s.rd CSP_STATUS.STATE

/-- DROWSE_EXIT (R539, R541): the units are clocked again. -/
def drowseExit (s : State) : State :=
  if s.power = 1 then { s.wr CSP_STATUS.STATE 0 with csp := { s.csp with activeAt := s.now } } else s

/-- The CONFIGURED flag of CAP (R200): 0 while the block is out of service (R619). -/
def State.configured (s : State) : Bool := s.on NODE_ID.CONFIGURED && !s.on BDG_STATUS.OUT_OF_SERVICE

/-- From step 3 to the end of step 6 of a Tier 2, the router discards what arrives (R603, R604). -/
def State.tier2Drops (s : State) : Bool :=
  match s.bdg.tier with | some r => r.n = 2 && (r.step = .quiesce || r.step = .fill) | none => false

/-- The fabric regions of the aperture answer (R10, R20, R21, R54, R681): fc runs, no fill runs, no Tier 3 runs, no Tier 2
is past its capture hold, and a Hibernate exit is not waiting for its restore. -/
def State.fabricOpen (s : State) : Bool :=
  s.on CSP_STATUS.FC_RUN && s.initDone && !(s.power = 5 && s.csp.leaving = some 3) &&
    (match s.bdg.tier with | some r => r.n < 2 || (r.n = 2 && r.step = .hold) | none => true)

/-- A command written to a register of a fabric region: discarded while the region answers BUSY (R21); an access in Drowse
ends Drowse (R541). -/
def viaFabric (s : State) (f : State → State) : State := if s.fabricOpen then f (drowseExit s) else s

/-- A command that firmware executes: ignored while the command before it runs (R299, R329, R374, R426); while firmware
restarts, it reports BUSY in its status field at once (R610). -/
def viaFirmware (busy status : Fld) (s : State) (f : State → State) : State :=
  viaFabric s fun t => if t.on busy then t else if t.on BDG_STATUS.FW_RESTART then t.wr status stBUSY else f t

end Sys2Proof.Machine
end

