-- ==== Sys2Proof/Machine/Crypto.lean ====
section
/-! DEFINITION. The standards that the Seal unit implements (R512): SHA-384 and HMAC-SHA-384, AES-256-GCM, ECDSA and
ECDH on P-384. -/
namespace Sys2Proof.Machine

/-- A number's `n` bytes, big-endian. -/
def natBE (n v : Nat) : List Byte := (natLE n v).reverse

/-- The number that big-endian bytes spell. -/
def beNat (b : List Byte) : Nat := leNat b.reverse

/-- Round constants of SHA-384, in four parts. -/
def shaK0 : List Nat :=
  [0x428A2F98D728AE22, 0x7137449123EF65CD, 0xB5C0FBCFEC4D3B2F, 0xE9B5DBA58189DBBC,
   0x3956C25BF348B538, 0x59F111F1B605D019, 0x923F82A4AF194F9B, 0xAB1C5ED5DA6D8118,
   0xD807AA98A3030242, 0x12835B0145706FBE, 0x243185BE4EE4B28C, 0x550C7DC3D5FFB4E2,
   0x72BE5D74F27B896F, 0x80DEB1FE3B1696B1, 0x9BDC06A725C71235, 0xC19BF174CF692694,
   0xE49B69C19EF14AD2, 0xEFBE4786384F25E3, 0x0FC19DC68B8CD5B5, 0x240CA1CC77AC9C65]
def shaK1 : List Nat :=
  [0x2DE92C6F592B0275, 0x4A7484AA6EA6E483, 0x5CB0A9DCBD41FBD4, 0x76F988DA831153B5,
   0x983E5152EE66DFAB, 0xA831C66D2DB43210, 0xB00327C898FB213F, 0xBF597FC7BEEF0EE4,
   0xC6E00BF33DA88FC2, 0xD5A79147930AA725, 0x06CA6351E003826F, 0x142929670A0E6E70,
   0x27B70A8546D22FFC, 0x2E1B21385C26C926, 0x4D2C6DFC5AC42AED, 0x53380D139D95B3DF,
   0x650A73548BAF63DE, 0x766A0ABB3C77B2A8, 0x81C2C92E47EDAEE6, 0x92722C851482353B]
def shaK2 : List Nat :=
  [0xA2BFE8A14CF10364, 0xA81A664BBC423001, 0xC24B8B70D0F89791, 0xC76C51A30654BE30,
   0xD192E819D6EF5218, 0xD69906245565A910, 0xF40E35855771202A, 0x106AA07032BBD1B8,
   0x19A4C116B8D2D0C8, 0x1E376C085141AB53, 0x2748774CDF8EEB99, 0x34B0BCB5E19B48A8,
   0x391C0CB3C5C95A63, 0x4ED8AA4AE3418ACB, 0x5B9CCA4F7763E373, 0x682E6FF3D6B2B8A3,
   0x748F82EE5DEFB2FC, 0x78A5636F43172F60, 0x84C87814A1F0AB72, 0x8CC702081A6439EC]
def shaK3 : List Nat :=
  [0x90BEFFFA23631E28, 0xA4506CEBDE82BDE9, 0xBEF9A3F7B2C67915, 0xC67178F2E372532B,
   0xCA273ECEEA26619C, 0xD186B8C721C0C207, 0xEADA7DD6CDE0EB1E, 0xF57D4F7FEE6ED178,
   0x06F067AA72176FBA, 0x0A637DC5A2C898A6, 0x113F9804BEF90DAE, 0x1B710B35131C471B,
   0x28DB77F523047D84, 0x32CAAB7B40C72493, 0x3C9EBE0A15C9BEBC, 0x431D67C49C100D4C,
   0x4CC5D4BECB3E42B6, 0x597F299CFC657E2A, 0x5FCB6FAB3AD6FAEC, 0x6C44198C4A475817]

/-- The round constants: the first 64 bits of the fractions of the cube roots of the first 80 primes. -/
def shaK : List Nat := shaK0 ++ shaK1 ++ shaK2 ++ shaK3

/-- The initial hash value of SHA-384. -/
def shaInit : List Nat :=
  [0xCBBB9D5DC1059ED8, 0x629A292A367CD507, 0x9159015A3070DD17, 0x152FECD8F70E5939,
   0x67332667FFC00B31, 0x8EB44A8768581511, 0xDB0C2E0D64F98FA7, 0x47B5481DBEFA4FA4]

/-- Rotation right of 64 bits. -/
def rotr64 (x n : Nat) : Nat := x / 2 ^ n + x % 2 ^ n * 2 ^ (64 - n)

/-- The message schedule of one block, 80 words, from its 16. -/
def shaSchedule : Nat → List Nat → List Nat
  | 0, w => w
  | n + 1, w =>
    -- `w` is kept newest first
    let w15 := w.getD 14 0
    let w2 := w.getD 1 0
    let s0 := rotr64 w15 1 ^^^ rotr64 w15 8 ^^^ (w15 / 2 ^ 7)
    let s1 := rotr64 w2 19 ^^^ rotr64 w2 61 ^^^ (w2 / 2 ^ 6)
    shaSchedule n (((w.getD 15 0 + s0 + w.getD 6 0 + s1) % 2 ^ 64) :: w)

/-- One round over the eight working variables. -/
def shaRound (v : List Nat) (kw : Nat × Nat) : List Nat :=
  match v with
  | [a, b, c, d, e, f, g, h] =>
    let s1 := rotr64 e 14 ^^^ rotr64 e 18 ^^^ rotr64 e 41
    let ch := (e &&& f) ^^^ ((2 ^ 64 - 1 - e) &&& g)
    let t1 := h + s1 + ch + kw.1 + kw.2
    let s0 := rotr64 a 28 ^^^ rotr64 a 34 ^^^ rotr64 a 39
    let maj := (a &&& b) ^^^ (a &&& c) ^^^ (b &&& c)
    [(t1 + s0 + maj) % 2 ^ 64, a, b, c, (d + t1) % 2 ^ 64, e, f, g]
  | _ => v

/-- One 128-byte block. -/
def shaBlock (h : List Nat) (b : List Byte) : List Nat :=
  let w0 := (List.range 16).map fun i => beNat ((b.drop (8 * i)).take 8)
  let w := (shaSchedule 64 w0.reverse).reverse
  List.zipWith (fun x y => (x + y) % 2 ^ 64) h ((List.zip shaK w).foldl shaRound h)

/-- All blocks of a padded message. -/
def shaBlocks : Nat → List Byte → List Nat → List Nat
  | 0, _, h => h
  | n + 1, b, h => shaBlocks n (b.drop 128) (shaBlock h (b.take 128))

/-- SHA-384, as 48 bytes. -/
def sha384 (m : List Byte) : List Byte :=
  let z := (239 - m.length % 128) % 128
  let p := m ++ [0x80] ++ List.replicate z 0 ++ natBE 16 (8 * m.length)
  ((shaBlocks (p.length / 128) p shaInit).take 6).flatMap (natBE 8)

/-- HMAC-SHA-384. -/
def hmac384 (key m : List Byte) : List Byte :=
  let k0 := if 128 < key.length then sha384 key else key
  let k := k0 ++ List.replicate (128 - k0.length) 0
  sha384 (k.map (· ^^^ 0x5C) ++ sha384 (k.map (· ^^^ 0x36) ++ m))

/-- The bytes of an ASCII text. -/
def ascii (t : String) : List Byte := t.toList.map fun c => BitVec.ofNat 8 c.toNat

/-- Doubling in the field of AES. -/
def aesDouble (a : Nat) : Nat := if 128 ≤ a then (a * 2 % 256) ^^^ 0x1B else a * 2

def aesMulN : Nat → Nat → Nat → Nat
  | 0, _, _ => 0
  | n + 1, a, b => (if b % 2 = 1 then a else 0) ^^^ aesMulN n (aesDouble a) (b / 2)

def aesMul (a b : Nat) : Nat := aesMulN 8 a b

/-- The inverse in the field of AES, a^254 by squaring and multiplying. -/
def aesInv (a : Nat) : Nat :=
  let sq (x : Nat) : Nat := aesMul x x
  let a2 := sq a
  let a3 := aesMul a2 a
  let a12 := sq (sq a3)
  let a15 := aesMul a12 a3
  let a240 := sq (sq (sq (sq a15)))
  aesMul (aesMul a240 a12) a2

/-- The S-box of AES. -/
def aesSbox (a : Nat) : Nat :=
  let x := aesInv a
  let r (n : Nat) : Nat := x * 2 ^ n % 256 + x / 2 ^ (8 - n)
  x ^^^ r 1 ^^^ r 2 ^^^ r 3 ^^^ r 4 ^^^ 0x63

/-- The 60 words of the key schedule of AES-256, from the newest back. -/
def aesExpand : Nat → Nat → List (List Nat) → List (List Nat)
  | 0, _, w => w
  | n + 1, i, w =>
    let t := w.getD 0 []
    let t1 :=
      if i % 8 = 0 then
        ((t.drop 1 ++ t.take 1).map aesSbox).mapIdx fun j x => if j = 0 then x ^^^ 2 ^ (i / 8 - 1) else x
      else if i % 8 = 4 then t.map aesSbox
      else t
    aesExpand n (i + 1) (List.zipWith (· ^^^ ·) (w.getD 7 []) t1 :: w)

/-- The round keys, 15 blocks of 16 bytes. -/
def aesKeys (key : List Byte) : List (List Nat) :=
  let k := key.map (·.toNat)
  let w := (aesExpand 52 8 (((List.range 8).map fun i => (k.drop (4 * i)).take 4).reverse)).reverse
  (List.range 15).map fun r => ((w.drop (4 * r)).take 4).flatten

/-- ShiftRows over a block in column order. -/
def aesShift (b : List Nat) : List Nat := (List.range 16).map fun i => b.getD ((i + 4 * (i % 4)) % 16) 0

/-- MixColumns. -/
def aesMix (b : List Nat) : List Nat :=
  (List.range 16).map fun i =>
    let at_ (j : Nat) : Nat := b.getD (i / 4 * 4 + (i + j) % 4) 0
    aesMul 2 (at_ 0) ^^^ aesMul 3 (at_ 1) ^^^ at_ 2 ^^^ at_ 3

/-- AES-256 of one block. -/
def aes256 (key block : List Byte) : List Byte :=
  let ks := aesKeys key
  let add (a b : List Nat) : List Nat := List.zipWith (· ^^^ ·) a b
  let mid := ((ks.drop 1).take 13).foldl (fun b k => add (aesMix (aesShift (b.map aesSbox))) k)
    (add (block.map (·.toNat)) (ks.getD 0 []))
  (add (aesShift (mid.map aesSbox)) (ks.getD 14 [])).map (BitVec.ofNat 8)

/-- One step of the multiplication of GHASH: bit 0 is the most significant. -/
def ghashStep (x : Nat) (i : Nat) (zv : Nat × Nat) : Nat × Nat :=
  (if x / 2 ^ (127 - i) % 2 = 1 then zv.1 ^^^ zv.2 else zv.1,
    if zv.2 % 2 = 1 then (zv.2 / 2) ^^^ (0xE1 * 2 ^ 120) else zv.2 / 2)

/-- Multiplication in GF(2^128) as GCM takes it. -/
def ghashMul (x y : Nat) : Nat := ((List.range 128).foldl (fun zv i => ghashStep x i zv) (0, y)).1

/-- GHASH over whole blocks. -/
def ghash (h : Nat) : Nat → List Byte → Nat → Nat
  | 0, _, y => y
  | n + 1, b, y => ghash h n (b.drop 16) (ghashMul (y ^^^ beNat (b.take 16)) h)

/-- Zero padding to whole blocks of 16 bytes. -/
def pad16 (b : List Byte) : List Byte := b ++ List.replicate ((16 - b.length % 16) % 16) 0

/-- The key stream of GCM from counter 2 on, XORed with a text. -/
def gcmCrypt (key iv text : List Byte) : List Byte :=
  let n := (text.length + 15) / 16
  let stream := (List.range n).flatMap fun i => aes256 key (iv ++ natBE 4 (i + 2))
  List.zipWith (· ^^^ ·) text stream

/-- The 16-byte tag of GCM with a 96-bit IV. -/
def gcmTag (key iv aad cipher : List Byte) : List Byte :=
  let h := beNat (aes256 key (List.replicate 16 0))
  let b := pad16 aad ++ pad16 cipher ++ natBE 8 (8 * aad.length) ++ natBE 8 (8 * cipher.length)
  List.zipWith (· ^^^ ·) (natBE 16 (ghash h (b.length / 16) b 0)) (aes256 key (iv ++ natBE 4 1))

/-- The prime, the coefficient b, the order and the base point of P-384. -/
def ecP : Nat := 2 ^ 384 - 2 ^ 128 - 2 ^ 96 + 2 ^ 32 - 1
def ecB : Nat := 0xB3312FA7E23EE7E4988E056BE3F82D19181D9C6EFE8141120314088F5013875AC656398D8A2ED19D2A85C8EDD3EC2AEF
def ecN : Nat := 0xFFFFFFFFFFFFFFFFFFFFFFFFFFFFFFFFFFFFFFFFFFFFFFFFC7634D81F4372DDF581A0DB248B0A77AECEC196ACCC52973
def ecG : Nat × Nat :=
  (0xAA87CA22BE8B05378EB1C71EF320AD746E1D3B628BA79B9859F741E082542A385502F25DBF55296C3A545E3872760AB7,
   0x3617DE4A96262C6F5D9E98BF9292DC29F8F41DBD289A147CE9DA3113B5F0B8C00A60B1CE1D7E819D7A431D7C90EA0E5F)

/-- b^e modulo m, by the bits of e from the lowest. -/
def powMod (m : Nat) : Nat → Nat → Nat → Nat → Nat
  | 0, _, _, acc => acc
  | n + 1, b, e, acc => powMod m n (b * b % m) (e / 2) (if e % 2 = 1 then acc * b % m else acc)

/-- The inverse modulo a prime. -/
def invMod (m a : Nat) : Nat := powMod m 384 (a % m) (m - 2) 1

/-- The sum of two points; `none` is the point at infinity. -/
def ecAdd (a b : Option (Nat × Nat)) : Option (Nat × Nat) :=
  match a, b with
  | none, b => b
  | a, none => a
  | some (x1, y1), some (x2, y2) =>
    if x1 = x2 ∧ (y1 + y2) % ecP = 0 then none else
    let l := if x1 = x2 then (3 * x1 * x1 + ecP - 3) * invMod ecP (2 * y1) % ecP
      else (y2 + ecP - y1) * invMod ecP (x2 + ecP - x1) % ecP
    let x3 := (l * l + 2 * ecP - x1 - x2) % ecP
    some (x3, (l * (x1 + ecP - x3) + ecP - y1) % ecP)

/-- Scalar multiplication by the bits of k from the lowest. -/
def ecMulN : Nat → Nat → Option (Nat × Nat) → Option (Nat × Nat) → Option (Nat × Nat)
  | 0, _, _, acc => acc
  | n + 1, k, p, acc => ecMulN n (k / 2) (ecAdd p p) (if k % 2 = 1 then ecAdd acc p else acc)

def ecMul (k : Nat) (p : Nat × Nat) : Option (Nat × Nat) := ecMulN 384 k (some p) none

/-- A public key's 96 bytes and back: X then Y, big-endian (R512). -/
def ecBytes (p : Option (Nat × Nat)) : List Byte :=
  match p with | some (x, y) => natBE 48 x ++ natBE 48 y | none => List.replicate 96 0
def ecPoint (b : List Byte) : Nat × Nat := (beNat (b.take 48), beNat ((b.drop 48).take 48))

/-- The point lies on the curve. -/
def ecOn (p : Nat × Nat) : Bool :=
  p.1 < ecP && p.2 < ecP && p.2 * p.2 % ecP = (p.1 * p.1 * p.1 + (ecP - 3) * p.1 + ecB) % ecP

/-- The public key of a private one. -/
def pubOf (d : Nat) : List Byte := ecBytes (ecMul d ecG)

/-- ECDSA over the SHA-384 digest of a message with private key `d` and the random `k`: r then s (R512). -/
def ecSign (d k : Nat) (m : List Byte) : List Byte :=
  let r := match ecMul k ecG with | some (x, _) => x % ecN | none => 0
  natBE 48 r ++ natBE 48 (invMod ecN k * (beNat (sha384 m) + r * d) % ecN)

/-- ECDSA verification under a public key. -/
def ecVerify (pub m sig : List Byte) : Bool :=
  let q := ecPoint pub
  let r := beNat (sig.take 48)
  let t := beNat ((sig.drop 48).take 48)
  let w := invMod ecN t
  0 < r && r < ecN && 0 < t && t < ecN && ecOn q &&
    (match ecAdd (ecMul (beNat (sha384 m) * w % ecN) ecG) (ecMul (r * w % ecN) q) with
     | some (x, _) => x % ecN = r
     | none => false)

/-- The x-coordinate of the shared point (R512). -/
def ecdh (d : Nat) (pub : List Byte) : List Byte :=
  match ecMul d (ecPoint pub) with | some (x, _) => natBE 48 x | none => List.replicate 48 0

end Sys2Proof.Machine
end

