-- ==== Sys2Proof/Machine/Hmp.lean ====
section
/-! DEFINITION. The Host Memory Port (R82 to R98): splitting a transfer into requests, tags, responses, quarantine. -/
namespace Sys2Proof.Machine

/-- HMP_CHANNELS of the build (R5). -/
def State.chanCount (s : State) : Nat := s.build.channels

/-- The channel of the request whose first byte lies at `a` (R84). -/
def hmpChanOf (n a : Nat) : Nat := a / 512 % n

/-- Lines of 128 B that the bytes `a` to `a + n − 1` touch. -/
def linesOf (a n : Nat) : Nat := if n = 0 then 0 else (a + n - 1) / 128 - a / 128 + 1

/-- The pieces (address, length) into which R83 cuts the bytes `a` to `a + n − 1`: none crosses a 512 B boundary. -/
def hmpSplit : Nat → Nat → Nat → List (Nat × Nat)
  | 0, _, _ => []
  | fuel + 1, a, n =>
    if n = 0 then [] else
    let m := min n (512 - a % 512)
    (a, m) :: hmpSplit fuel (a + m) (n - m)

def State.chan (s : State) (c : Nat) : HmpChan := s.hmp.chans.get {} c

def State.setChan (s : State) (c : Nat) (h : HmpChan) : State :=
  { s with hmp := { s.hmp with chans := s.hmp.chans.set {} c h } }

/-- Puts one command at the end of its channel's list (R84, R86). -/
def hmpIssue (s : State) (r : HmpReq) : State :=
  let c := hmpChanOf s.chanCount r.addr
  let h := s.chan c
  s.setChan c { h with cmds := h.cmds ++ [r] }

/-- Issues the requests of one transfer in order; `off` is the offset of the next one's first byte. -/
def hmpIssueAll (write : Bool) (src id : Nat) (data : List Byte) : List (Nat × Nat) → Nat → State → State
  | [], _, s => s
  | (a, n) :: t, off, s =>
    hmpIssueAll write src id data t (off + n)
      (hmpIssue s ⟨write, a, n, src, if write then (data.drop off).take n else [], 2 ^ n - 1, id, off⟩)

/-- The requests of the host ranges `ext`, each an address and a length (R83). -/
def requestsOf (ext : List (Nat × Nat)) : List (Nat × Nat) := ext.flatMap fun e => hmpSplit (e.2 / 512 + 2) e.1 e.2

/-- Starts one transfer over the host ranges `ext` in order; `k` says what its end does (R83, R84). -/
def hmpStart (s : State) (write : Bool) (src : Nat) (ext : List (Nat × Nat)) (data : List Byte) (k : Purpose) : State :=
  let parts := requestsOf ext
  let id := s.hmp.next
  let x : Xfer := { k := k, write := write, len := (ext.map (·.2)).sum, got := [], left := parts.length }
  hmpIssueAll write src id data parts 0
    { s with hmp := { s.hmp with next := id + 1, xfers := s.hmp.xfers.put id x } }

/-- A read of `n` bytes of host memory at `a`. -/
def hmpRead (s : State) (src a n : Nat) (k : Purpose) : State := hmpStart s false src [(a, n)] [] k

/-- A write of `data` to host memory at `a`. -/
def hmpWrite (s : State) (src a : Nat) (data : List Byte) (k : Purpose) : State :=
  hmpStart s true src [(a, data.length)] data k

/-- A read of the host ranges `ext`. -/
def hmpGather (s : State) (src : Nat) (ext : List (Nat × Nat)) (k : Purpose) : State := hmpStart s false src ext [] k

/-- A write of `data` over the host ranges `ext`. -/
def hmpScatter (s : State) (src : Nat) (ext : List (Nat × Nat)) (data : List Byte) (k : Purpose) : State :=
  hmpStart s true src ext data k

/-- A write of some bytes of one 128 B line: bit i of `strb` enables byte i (R83). -/
def hmpWriteLine (s : State) (src line : Nat) (data : List Byte) (strb : Nat) (k : Purpose) : State :=
  let id := s.hmp.next
  let x : Xfer := { k := k, write := true, len := 128, got := [], left := 1 }
  hmpIssue { s with hmp := { s.hmp with next := id + 1, xfers := s.hmp.xfers.put id x } }
    ⟨true, 128 * line, 128, src, data, strb, id, 0⟩

/-- Tags in use on a channel, quarantined tags excluded (R96). -/
def HmpChan.outstanding (h : HmpChan) : Nat := (h.tags.filter fun e => !e.2.quarantined).length

/-- Tags in quarantine on a channel (R96). -/
def HmpChan.quarantined (h : HmpChan) : Nat := (h.tags.filter fun e => e.2.quarantined).length

/-- HMP_CH_STATUS.QUIESCED: no tag in use and no command pending (R96). -/
def HmpChan.quiesced (h : HmpChan) : Bool := h.outstanding = 0 && h.cmds.isEmpty

/-- Every channel reads QUIESCED 1. -/
def State.hmpQuiesced (s : State) : Bool := s.hmp.chans.all fun e => e.2.quiesced

/-- The tags that a new command may take (R85, R94). -/
def HmpChan.freeTags (h : HmpChan) (now : Nat) : List Nat :=
  (List.range 2048).filter fun t =>
    (h.tags.find? t).isNone && (h.holdUntil ≤ now || !h.held.contains t)

/-- The front command is presented (R80, R85, R86): it has been put on the pins, or nothing keeps it off them. A quiesce
presents no new one, a tag must be free, and a write's first beat, presented with its command, waits for the beats of the
write before it. -/
def State.presents (s : State) (h : HmpChan) : Bool :=
  match h.cmds with
  | [] => false
  | r :: _ =>
    h.up || h.early ≠ 0 ||
      (!s.hmp.quiesce && decide (h.outstanding < s.rd HMP_CFG.TAG_LIMIT) && !(h.freeTags s.now).isEmpty &&
        (!r.write || h.wleft = 0))

/-- HMP_COMMAND_TRANSFER, the command side: HMP_CREADY is high, and the front command takes a free tag (R85, R86). Which free
tag is the model's free choice. -/
def hmpTakeCommand (s : State) (c : Nat) : State :=
  let h := s.chan c
  if !s.presents h then s else
  match h.cmds with
  | [] => s
  | r :: rest =>
    let free := h.freeTags s.now
    match free[Config.freeValue s.freeIdx % free.length]? with
    | none => s
    | some t =>
      { s.setChan c { h with
          cmds := rest, tags := h.tags.put t ⟨r, s.now, 0, false⟩, up := false
          wleft := if r.write then linesOf r.addr r.len - h.early else h.wleft
          early := if r.write then 0 else h.early } with freeIdx := s.freeIdx + 1 }

/-- HMP_COMMAND_TRANSFER, the data side: HMP_WREADY is high, and a beat transfers: of the write whose command was taken, or
of the front write that is presented (R86). -/
def hmpTakeBeat (s : State) (c : Nat) : State :=
  let h := s.chan c
  if h.wleft ≠ 0 then s.setChan c { h with wleft := h.wleft - 1 }
  else match h.cmds with
    | r :: _ => if r.write && s.presents h && decide (h.early < linesOf r.addr r.len) then s.setChan c { h with early := h.early + 1 } else s
    | [] => s

/-- HMP_WVALID is high: a beat is left of the write taken, or the front write that is presented has one (R86). -/
def State.beatUp (s : State) (h : HmpChan) : Bool :=
  h.wleft ≠ 0 || (match h.cmds with | r :: _ => r.write && s.presents h && decide (h.early < linesOf r.addr r.len) | [] => false)

/-- A quiesce begins (R52, R132): what is presented stays and transfers, and nothing new is presented. -/
def hmpQuiesce (s : State) : State :=
  if s.hmp.quiesce then s else
  { s with hmp := { s.hmp with quiesce := true, chans := s.hmp.chans.mapAll {} fun _ h => { h with up := s.presents h } } }

/-- STALL_FC of channel `c` over `n` fc (R98): HMP_CVALID or HMP_WVALID was high while the host did not take it. -/
def stallCount (s : State) (n c : Nat) : State :=
  let h := s.chan c
  if s.presents h || s.beatUp h then s.wrapAdd (HMP_CH_STALL.STALL_FC c) n else s

/-- A response that names a tag not in use: discarded, STRAY, F2 (R93). -/
def strayResponse (s : State) (c : Nat) : State :=
  report (s.bump (HMP_CH_ERR.STRAY c) 1) 0x11 2 0x01 c

/-- Counts a response status that is not OK; code 11 counts as ERROR (R91, R97). -/
def countStat (s : State) (c stat : Nat) : State :=
  if stat = 0 then s else if stat = 1 then s.bump (HMP_CH_ERR.POISON c) 1 else s.bump (HMP_CH_ERR.ERROR c) 1

/-- Records one returned piece in its transfer; the Bool says that the request has ended. Answers the transfer when
this was its last request. -/
def xferPiece (s : State) (id : Nat) (p : Piece) (ended : Bool) : State × Option Xfer :=
  match s.hmp.xfers.find? id with
  | none => (s, none)
  | some x =>
    let x' : Xfer := { x with got := x.got ++ [p], left := if ended then x.left - 1 else x.left }
    if x'.left = 0 then
      ({ s with hmp := { s.hmp with xfers := s.hmp.xfers.drop id } }, some x')
    else ({ s with hmp := { s.hmp with xfers := s.hmp.xfers.put id x' } }, none)

/-- The R13 status of a transfer: TIMEOUT where a tag timed out, POISON where a beat or response was not OK. -/
def Xfer.status (x : Xfer) : Nat :=
  if x.got.any (·.stat = 4) then stTIMEOUT else if x.got.any (·.stat ≠ 0) then stPOISON else stOK

/-- The byte at offset `o` of a read transfer; 0 where its beat was not OK. -/
def pieceByte : List Piece → Nat → Byte
  | [], _ => 0
  | p :: t, o => if p.off ≤ o ∧ o < p.off + p.bytes.length ∧ p.stat = 0 then p.bytes.getD (o - p.off) 0 else pieceByte t o

/-- The bytes of a read transfer, in address order. -/
def Xfer.data (x : Xfer) : List Byte := (List.range x.len).map (pieceByte x.got)

/-- Every beat that covers the bytes `o` to `o + n − 1` came with status OK. -/
def Xfer.okAt (x : Xfer) (o n : Nat) : Bool :=
  !(x.got.any fun p => p.stat ≠ 0 && p.off < o + n && o < p.off + p.bytes.length)

/-- The status of the bytes `o` to `o + n − 1`. -/
def Xfer.statusAt (x : Xfer) (o n : Nat) : Nat :=
  if x.okAt o n then stOK
  else if x.got.any fun p => p.stat = 4 && p.off < o + n && o < p.off + p.bytes.length then stTIMEOUT else stPOISON

/-- The bytes of a beat that its request asked for: beat `b` of request `r`, cut to the bytes wanted. -/
def beatPiece (r : HmpReq) (b : Nat) (line : List Byte) (stat : Nat) : Piece :=
  let first := r.addr / 128 * 128 + 128 * b
  let lo := max first r.addr
  let hi := min (first + 128) (r.addr + r.len)
  ⟨lo - r.addr + r.off, (((List.range 128).map fun i => line.getD i 0).drop (lo - first)).take (hi - lo), stat⟩

/-- A read beat with a tag in use (R88, R92): its piece joins the transfer, and DLAST frees the tag. A beat that names a tag
in use by a write is taken as stray and frees nothing. DESIGN CHOICE (log entry 78): R93 speaks of tags not in use. -/
def takeReadBeat (s : State) (c t : Nat) (line : List Byte) (stat : Nat) (last : Bool) : State × Option Xfer :=
  let h := s.chan c
  match h.tags.find? t with
  | none => (strayResponse s c, none)
  | some g =>
    if g.quarantined then
      -- R94: the response of a quarantined tag is discarded; it counted in TMO, and its last beat frees the tag
      if last then ((s.setChan c { h with tags := h.tags.drop t }).bump (HMP_CH_ERR.TMO c) 1, none) else (s, none)
    else if g.req.write then (strayResponse s c, none)
    else
      let s1 := countStat s c stat
      let s2 := s1.setChan c { h with
        tags := if last then h.tags.drop t else h.tags.put t { g with beats := g.beats + 1 } }
      xferPiece s2 g.req.xfer (beatPiece g.req g.beats line stat) last

/-- A write response with a tag in use (R89, R92). One that names a tag in use by a read is taken as stray and frees nothing.
DESIGN CHOICE (log entry 78). -/
def takeWriteResponse (s : State) (c t stat : Nat) : State × Option Xfer :=
  let h := s.chan c
  match h.tags.find? t with
  | none => (strayResponse s c, none)
  | some g =>
    if g.quarantined then ((s.setChan c { h with tags := h.tags.drop t }).bump (HMP_CH_ERR.TMO c) 1, none)
    else if !g.req.write then (strayResponse s c, none)
    else
      xferPiece ((countStat s c stat).setChan c { h with tags := h.tags.drop t }) g.req.xfer
        ⟨g.req.off, g.req.bytes, stat⟩ true

/-- RESP_TMO in fabric time units (R95: units of 100 µs). -/
def State.respTmo (s : State) : Nat := ns (100000 * s.rd HMP_CFG.RESP_TMO)

/-- A tag in use for longer than RESP_TMO goes to quarantine, and its request ends with TIMEOUT (R94). -/
def takeRespTmo (s : State) (c t : Nat) : State × Option Xfer :=
  let h := s.chan c
  match h.tags.find? t with
  | none => (s, none)
  | some g =>
    if g.quarantined ∨ s.now ≤ g.since + s.respTmo then (s, none) else
    let s1 := s.setChan c { h with tags := h.tags.put t { g with quarantined := true } }
    xferPiece (report s1 0x11 2 0x02 c) g.req.xfer ⟨g.req.off, List.replicate g.req.len 0, 4⟩ true

/-- The end of a Tier 2 or higher reset frees the quarantined tags, which stay unissued for RESP_TMO (R94). -/
def hmpFreeQuarantine (s : State) : State :=
  { s with hmp := { s.hmp with chans := s.hmp.chans.mapAll {} fun _ h =>
      let q := (h.tags.filter fun e => e.2.quarantined).map (·.1)
      { h with
        tags := h.tags.filter (fun e => !e.2.quarantined)
        held := (if s.now < h.holdUntil then h.held else []) ++ q, holdUntil := s.now + s.respTmo } } }

/-- The HMP quiesce of R132 has completed: every started write is answered, every tag answered or quarantined. -/
def State.quiesceDone (s : State) : Bool :=
  s.hmp.chans.all fun e => e.2.outstanding = 0 && e.2.wleft = 0 && !e.2.up && e.2.early = 0

end Sys2Proof.Machine
end

