-- ==== Sys2Proof/Machine/Log.lean ====
section
/-! DEFINITION. The firmware log ring in host memory and its trace points (R632, R633). -/
namespace Sys2Proof.Machine

/-- The ring has room at HEAD (R632). -/
def logRoom (s : State) : Bool :=
  (s.rd BDG_LOG_PTR.HEAD + 65536 - s.rd BDG_LOG_PTR.TAIL) % 65536 < 2 ^ s.rd BDG_LOG_CFG.LOG2_ENTRIES

/-- `n` entries are dropped (R632). -/
def logDrop (s : State) (n : Nat) : State :=
  if n = 0 then s else { s.bump BDG_LOG_CFG.LOST n with bdg := { s.bdg with logLost := true } }

/-- Address of the entry at HEAD. -/
def logAddr (s : State) : Nat :=
  32 * s.rd BDG_LOG_BASE_LO.BASE_LO + 2 ^ 32 * s.rd BDG_LOG_BASE_HI.BASE_HI +
    32 * (s.rd BDG_LOG_PTR.HEAD % 2 ^ s.rd BDG_LOG_CFG.LOG2_ENTRIES)

/-- The oldest staged entry is written while fc runs; a full ring drops what is staged (R632). -/
def logPump (s : State) : State :=
  match s.bdg.logWait with
  | [] => s
  | e :: _ =>
    if !s.on BDG_LOG_CFG.EN || s.bdg.logWriting ≠ 0 || !s.on CSP_STATUS.FC_RUN then s
    else if !logRoom s then logDrop { s with bdg := { s.bdg with logWait := [] } } s.bdg.logWait.length
    else
      hmpWrite { s with bdg := { s.bdg with logWriting := 1, logLost := false } } 6 (logAddr s)
        (e.take 7 ++ natLE 1 (b2n s.bdg.logLost) ++ e.drop 8) (.logEntry (leAt e 6 1))

/-- An entry is formed (R632, R633); entries below LEVEL_MIN are not written, and staging holds 64. -/
def logEvent (s : State) (point level : Nat) (args : List Nat) : State :=
  if !s.on BDG_LOG_CFG.EN then s else
  let e := natLE 4 s.bdg.logSeq ++ natLE 2 point ++ natLE 1 level ++ [0] ++ natLE 8 s.stampNs ++
    (List.range 4).flatMap fun i => natLE 4 (args.getD i 0)
  let s1 := { s with bdg := { s.bdg with logSeq := (s.bdg.logSeq + 1) % 2 ^ 32 } }
  if level < s.rd BDG_LOG_CFG.LEVEL_MIN then s1
  else if 64 ≤ s.bdg.logWait.length then logDrop s1 1
  else logPump { s1 with bdg := { s1.bdg with logWait := s.bdg.logWait ++ [e] } }

/-- The write of the entry at HEAD is answered (R632): HEAD advances. -/
def logWritten (s : State) (level : Nat) : State :=
  logPump { s.wrapAdd BDG_LOG_PTR.HEAD 1 with bdg := { s.bdg with
    logWait := s.bdg.logWait.drop 1, logLevels := s.bdg.logLevels ++ [level], logWriting := 0 } }

/-- A write of TAIL (R632, R663): the entries up to it are consumed. -/
def logTail (s : State) (v : Nat) : State :=
  let n := (v + 65536 - s.rd BDG_LOG_PTR.TAIL) % 65536
  { s.wr BDG_LOG_PTR.TAIL v with bdg := { s.bdg with logLevels := s.bdg.logLevels.drop n } }

/-- LOG_ENABLE (R663): setting EN, which was 0, zeroes HEAD and TAIL; with EN 0 nothing is written. -/
def logEnable (s : State) (on : Bool) : State :=
  if on && !s.on BDG_LOG_CFG.EN then
    { (s.wr BDG_LOG_CFG.EN 1).setReg BDG_LOG_PTR.HEAD.addr 0#32 with bdg := { s.bdg with logLevels := [] } }
  else if on then s
  else { s.wr BDG_LOG_CFG.EN 0 with bdg := { s.bdg with logWait := [] } }

end Sys2Proof.Machine
end

