-- ==== Sys2Proof/Machine/Burrow.lean ====
section
/-! DEFINITION. The board flash: image and configuration copies, and the Burrow record (R655 to R661). -/
namespace Sys2Proof.Machine

/-- `n` bytes of the flash from address `a` on; erased bytes are 0xFF. -/
def flashBytes (s : State) (a n : Nat) : List Byte := (List.range n).map fun i => s.burrow.flash.get 0xFF (a + i)

/-- Programs bytes of the flash below the Burrow area. -/
def flashWrite (s : State) (a : Nat) (b : List Byte) : State :=
  { s with burrow := { s.burrow with
    flash := ((List.range b.length).zip b).foldl (fun f x => f.set 0xFF (a + x.1) x.2) s.burrow.flash } }

-- Record types (R656)
def recCHECKPOINT : Nat := 0x01
def recRESET_STAMP : Nat := 0x02
def recSTAG : Nat := 0x03
def recFAULT : Nat := 0x04
def recFATAL : Nat := 0x05
def recCAPTURE : Nat := 0x06
def recSERVICE : Nat := 0x07
def recFW_EVENT : Nat := 0x08
def recREFRESH : Nat := 0x09

/-- Stamp s0 or s1 (R618, R628), as the two halves `i` and `i + 1`. -/
def stampAt (s : State) (i : Nat) : Nat := s.rd (BDG_RST_STAMP.STAMP i) + 2 ^ 32 * s.rd (BDG_RST_STAMP.STAMP (i + 1))

/-- Writes both stamps. -/
def putStamps (s : State) (s0 s1 : Nat) : State :=
  (((s.wr (BDG_RST_STAMP.STAMP 0) s0).wr (BDG_RST_STAMP.STAMP 1) (s0 / 2 ^ 32)).wr (BDG_RST_STAMP.STAMP 2) s1).wr
    (BDG_RST_STAMP.STAMP 3) (s1 / 2 ^ 32)

/-- The body of a CHECKPOINT (R656). -/
def checkpointBody (s : State) : List Byte :=
  natLE 8 (stampAt s 0) ++ natLE 8 (stampAt s 2) ++ natLE 4 s.burrow.stag ++
    natLE 4 (s.reg HHG_RECOVERY.TOTAL.addr).toNat ++ natLE 1 (s.rd CSP_STATUS.DIR_LEVEL) ++ [0, 0, 0] ++
    natLE 4 s.burrow.bad.length ++ s.burrow.bad.flatMap (natLE 4) ++ s.burrow.refreshed.flatMap (natLE 8)

/-- Bytes that a record takes in its sector (R656). -/
def recSize (r : BurrowRec) : Nat := (16 + r.body.length + 15) / 16 * 16

/-- Bytes used of a sector. -/
def sectorUsed (v : Sector) : Nat := 32 + (v.records.map recSize).sum

/-- The next good sector after index `i`, in the circular journal. -/
def nextSector (s : State) (i : Nat) : Nat :=
  let n := s.burrow.sectors
  (((List.range n).map fun k => (i + 1 + k) % n).find? fun k =>
    !s.burrow.bad.contains k && !s.burrow.skipped.contains k).getD i

/-- Good sectors left (R661). -/
def goodSectors (s : State) : Nat := s.burrow.sectors - s.burrow.bad.length - s.burrow.skipped.length

/-- A new sector is opened; a CHECKPOINT is its first record (R656, R658, R660). -/
def openSector (s : State) : State :=
  let i := nextSector s s.burrow.cur
  let q := (s.burrow.area.get {} s.burrow.cur).seq + 1
  let v : Sector := { seq := q, erases := (s.burrow.area.get {} i).erases + 1, records := [⟨recCHECKPOINT, checkpointBody s, s.stampNs⟩] }
  ({ s with burrow := { s.burrow with
    area := s.burrow.area.put i v, cur := i, opened := s.nowNs, checking := s.burrow.checking ++ [Sum.inl i] } }).wr
    BDG_BURROW_SEQ.SECTOR_SEQ q

/-- Record types that a degraded Burrow still writes (R661). -/
def recVital (t : Nat) : Bool := t = recFATAL || t = recRESET_STAMP || t = recSTAG || t = recSERVICE || t = recCHECKPOINT

/-- An hour in ns (R659). -/
def hourNs : Nat := 3600000000000

/-- Writes a record to the Burrow (R656 to R661): nothing while it is not open; FAULT and CAPTURE records open at most 64
sectors in an hour. -/
def burrowPut (s : State) (t : Nat) (body : List Byte) : State :=
  if !s.on BDG_BURROW.OPEN then s
  else if s.on BDG_BURROW.DEGRADED && !recVital t then s.bump BDG_BURROW.LOST 1
  else
    let r : BurrowRec := ⟨t, body, s.stampNs⟩
    let b0 := if s.burrow.hour + hourNs ≤ s.nowNs then { s.burrow with hour := s.nowNs / hourNs * hourNs, hourUsed := 0 } else s.burrow
    let s0 := { s with burrow := b0 }
    let v := b0.area.get {} b0.cur
    let limited := t = recFAULT || t = recCAPTURE
    let add (u : State) : State :=
      let w := u.burrow.area.get {} u.burrow.cur
      { u with burrow := { u.burrow with
        area := u.burrow.area.put u.burrow.cur { w with records := w.records ++ [r] }
        checking := u.burrow.checking ++ [Sum.inl u.burrow.cur] } }
    if sectorUsed v + recSize r ≤ 4096 then add s0
    else if limited && 64 ≤ b0.hourUsed then s0.bump BDG_BURROW.LOST 1
    else
      let s1 := openSector s0
      add (if limited then { s1 with burrow := { s1.burrow with hourUsed := s1.burrow.hourUsed + 1 } } else s1)

/-- A SERVICE record: 1 removed, 2 returned (R619, R656). -/
def serviceRecord (s : State) (event : Nat) : State := burrowPut s recSERVICE (natLE 1 event ++ natLE 8 s.stampNs)

/-- The newest sector: the highest sequence in the area (R658). -/
def newestSector (s : State) : Option (Nat × Sector) :=
  s.burrow.area.foldl (fun b e => match b with
    | none => some e
    | some x => if x.2.seq < e.2.seq then some e else some x) none

/-- One record applied at opening (R618, R658). -/
def applyRec (s : State) (r : BurrowRec) : State :=
  if r.type = recCHECKPOINT then
    let n := leAt r.body 28 4
    let s1 := putStamps s (leAt r.body 0 8) (leAt r.body 8 8)
    { s1 with burrow := { s1.burrow with
      stag := leAt r.body 16 4, bad := (List.range n).map fun i => leAt r.body (32 + 4 * i) 4
      refreshed := (List.range 4).map fun i => leAt r.body (32 + 4 * n + 8 * i) 8 } }
  else if r.type = recRESET_STAMP then putStamps s (leAt r.body 0 8) (leAt r.body 8 8)
  else if r.type = recSTAG then { s with burrow := { s.burrow with stag := leAt r.body 0 4 } }
  else if r.type = recREFRESH then
    { s with burrow := { s.burrow with refreshed := s.burrow.refreshed.set (2 * leAt r.body 0 1 + leAt r.body 1 1) r.time } }
  else s

/-- The newest SERVICE record's event, from the records of the newest sector that has one. -/
def lastService (s : State) : Nat :=
  let l := s.burrow.area.flatMap fun e => (e.2.records.filter (·.type = recSERVICE)).map fun r => (e.2.seq, leAt r.body 0 1)
  (l.foldl (fun b x => if b.1 ≤ x.1 then x else b) (0, 0)).2

/-- Stores a value of the STAG counter in the Burrow record (R268). -/
def putStag (s : State) (n : Nat) : State :=
  burrowPut { s with burrow := { s.burrow with stag := n } } recSTAG (natLE 4 n)

/-- BURROW_OPEN (R618, R619, R658): the newest sector is applied, or the area is formatted. A newest SERVICE record that
is a removal makes this PORST_n the return to service. The STAG counter restarts at the stored value plus 2^17 (R268); that
value is stored in its turn, so that a further Tier 4 starts above every STAG drawn since (log entry 82). -/
def burrowOpen (s : State) : State :=
  let s1 := match newestSector s with
    | some (i, v) =>
      let t := v.records.foldl applyRec { s with burrow := { s.burrow with cur := i } }
      t.wr BDG_BURROW_SEQ.SECTOR_SEQ v.seq
    | none => openSector { s with burrow := { s.burrow with cur := s.burrow.sectors - 1, area := [] } }
  let s2 := ((s1.wr BDG_BURROW.OPEN 1).wr BDG_BURROW.GOOD (min (goodSectors s1) 65535)).wr BDG_BURROW.BAD (min s1.burrow.bad.length 63)
  let n := (s2.burrow.stag + 2 ^ 17) % 2 ^ 24
  let s3 := putStag (s2.wr XPT_STAG.NEXT (if n = 0 then 1 else n)) (if n = 0 then 1 else n)
  if lastService s = 1 then serviceRecord (putStamps s3 0 0) 2 else s3

/-- A sector is marked bad (R661). -/
def markBad (s : State) (i : Nat) : State :=
  if s.burrow.bad.contains i || s.burrow.skipped.contains i then s else
  let b := s.burrow
  let s1 := if b.bad.length < 64 then { s with burrow := { b with bad := b.bad ++ [i] } }
    else
      let t := { s with burrow := { b with skipped := b.skipped ++ [i] } }
      if b.skipped.isEmpty then report t 0x18 2 0x09 i else t
  let s2 := logEvent ((s1.wr BDG_BURROW.BAD (min s1.burrow.bad.length 63)).wr BDG_BURROW.GOOD (min (goodSectors s1) 65535))
    0x6001 3 [0x200000 + 4096 * i]
  if goodSectors s2 < 16 && !s2.on BDG_BURROW.DEGRADED then
    report (s2.wr BDG_BURROW.DEGRADED 1) 0x18 3 0x0A (goodSectors s2)
  else s2

/-- FLASH_ERASE_PROGRAM_DONE (R661): the oldest erase or program is checked. The records of a sector that fails are
written again in a new sector. -/
def flashDone (s : State) (ok : Bool) : State :=
  match s.burrow.checking with
  | [] => s
  | x :: rest =>
    let s1 := { s with burrow := { s.burrow with checking := rest } }
    if ok then s1 else
    match x with
    | Sum.inl i =>
      let v := s1.burrow.area.get {} i
      let s2 := markBad s1 i
      if i ≠ s2.burrow.cur then s2 else
      let s3 := openSector s2
      (v.records.filter (·.type ≠ recCHECKPOINT)).foldl (fun t r => burrowPut t r.type r.body) s3
    | Sum.inr c =>
      let s2 := { s1 with burrow := { s1.burrow with failed := c :: s1.burrow.failed.erase c } }
      let s3 := burrowPut s2 recFW_EVENT (natLE 1 (c % 2) ++ natLE 1 stINTERNAL ++ natLE 4 s.sea.fwSvn ++ s.sea.fwMeas.take 16)
      report s3 0x18 3 0x0B (c % 2 + (if 2 ≤ c then 256 else 0))

end Sys2Proof.Machine
end

