-- ==== Sys2Proof/Machine/Sync.lean ====
section
/-! DEFINITION. The synchronisation store (R358 to R387) and what an update of an object reaches: waits, triggers,
context wakes; the trigger FIFOs; the failure records and faults of a context. -/
namespace Sys2Proof.Machine

def State.ctx (s : State) (k : Nat) : Ctxt := s.ctxs.get {} k
def State.setCtx (s : State) (k : Nat) (c : Ctxt) : State := { s with ctxs := s.ctxs.set {} k c }

/-- Entries in the back-end queue of a context (R326). -/
def Ctxt.queued (c : Ctxt) : Nat := c.beq.countP fun e => !e.left

/-- A general register; G0 reads 0 (R324). -/
def Ctxt.gr (c : Ctxt) (i : Nat) : Nat := if i = 0 then 0 else (c.g.get 0 i).toNat

/-- A predicate; P0 reads 1 (R324). -/
def Ctxt.pr (c : Ctxt) (i : Nat) : Bool := if i = 0 then true else c.p.get false i

/-- Writes a general register; a write to G0 is discarded (R324). -/
def Ctxt.setG (c : Ctxt) (i v : Nat) : Ctxt := if i = 0 then c else { c with g := c.g.set 0 i (BitVec.ofNat 64 v) }

/-- Writes a predicate; a write to P0 is discarded (R324). -/
def Ctxt.setP (c : Ctxt) (i : Nat) (v : Bool) : Ctxt := if i = 0 then c else { c with p := c.p.set false i v }

/-- The partition key of a context (R353). -/
def State.ctxPkey (s : State) (k : Nat) : Nat := s.rd (MRT_CTX_CFG1.PKEY k)

/-- The error counter of a context: object 0xFE00 + k (R364). -/
def errorCounterOf (k : Nat) : Nat := 0xFE00 + k

/-- A context may use an object: its page's key equals the context's, or it is its own error counter (R360). -/
def synMayUse (s : State) (k obj : Nat) : Bool :=
  if obj / 256 ≤ 253 then s.rd (SYN_PAGE.PKEY (obj / 256)) = s.ctxPkey k else obj = errorCounterOf k

/-- The value of an object. -/
def State.obj (s : State) (o : Nat) : Nat := (s.syn.objs.get 0 o).toNat
def State.objPoisoned (s : State) (o : Nat) : Bool := s.syn.poison.contains o

def State.trig (s : State) (t : Nat) : TrigEntry := s.syn.trigs.get {} t
def State.setTrig (s : State) (t : Nat) (e : TrigEntry) : State :=
  { s with syn := { s.syn with trigs := s.syn.trigs.set {} t e } }

/-- A trigger's condition on a value: GE or EQ against THRESH (R369). -/
def TrigEntry.meets (e : TrigEntry) (v : Nat) : Bool := if e.cond = 0 then e.thresh ≤ v else v = e.thresh

/-- One firing of an entry by the value `v` at fabric time `t` (R369). -/
def TrigEntry.fired (e : TrigEntry) (v t : Nat) : TrigEntry :=
  let k := if e.step ≠ 0 ∧ e.cond = 0 then (v - e.thresh) / e.step + 1 else 1
  { e with
    armed := if e.step = 0 then false else e.armed
    thresh := if e.step = 0 then e.thresh else (e.thresh + k * e.step) % 2 ^ 64
    value := v
    ftime := t
    laps := min (e.laps + (if e.pending then k else k - 1)) 0xFFFF
    pending := true }

/-- TRIGGER_FIRE: fires entry `t` and queues its delivery once (R369, R370). -/
def fireTrig (s : State) (t v : Nat) : State :=
  let s1 := s.setTrig t ((s.trig t).fired v s.nowNs)
  { s1 with syn := { s1.syn with deliv := if s1.syn.deliv.contains t then s1.syn.deliv else s1.syn.deliv ++ [t] } }

/-- SYNWAIT's condition: 0 ge, 1 eq, 2 ne, unsigned (R342). -/
def waitHolds (cond ctr v : Nat) : Bool := if cond = 0 then v ≤ ctr else if cond = 1 then ctr = v else ctr ≠ v

/-- Ends the SYNWAIT of a context, writing its predicate (R322, R342). -/
def Ctxt.endWait (c : Ctxt) (b : Bool) : Ctxt :=
  { c.setP c.waitDst b with state := .ready, waitObj := 0, waitEnd := none }

/-- Evaluates every SYNWAIT on object `o` against the value `v` (R363). -/
def wakeWaits (s : State) (o v : Nat) : State :=
  { s with ctxs := s.ctxs.mapAll {} fun _ c =>
      if c.state = .waitSync ∧ c.waitObj = o ∧ waitHolds c.waitCond v c.waitVal then c.endWait true else c }

/-- The armed entries that name object `o`, in ascending order (R363). -/
def trigsOn (s : State) (o : Nat) : List Nat :=
  (s.syn.trigs.filter fun e => e.2.armed && e.2.obj = o).map (·.1)

/-- A low word staged for the object at `a` is dropped (R361). -/
def Latch.unstage (l : Latch) (a : Nat) : Latch :=
  if l.staged.any (fun x => x.1 = a) then { l with staged := none } else l

/-- One update leaves object `o` at `v`: what a path has staged for it is dropped (R361); its waits, then its armed
triggers, are evaluated (R363). -/
def synPut (s : State) (o v : Nat) : State :=
  let w := v % 2 ^ 64
  let a := 0x200000 + 8 * o
  let s1 := { s with
    syn := { s.syn with objs := s.syn.objs.set 0 o (BitVec.ofNat 64 w) }
    acc := { s.acc with mrp := s.acc.mrp.unstage a, sideband := s.acc.sideband.unstage a, amm := s.acc.amm.unstage a } }
  let s2 := wakeWaits s1 o w
  (trigsOn s2 o).foldl (fun t i => if (t.trig i).armed && (t.trig i).meets w then fireTrig t i w else t) s2

/-- A CNT bump, a host add or an error bump: discarded on a poisoned object (R363, R366). -/
def synAdd (s : State) (o n : Nat) : State := if s.objPoisoned o then s else synPut s o (s.obj o + n)

/-- A set: it clears the poison and writes the value (R361, R366). -/
def synSet (s : State) (o v : Nat) : State :=
  synPut { s with syn := { s.syn with poison := s.syn.poison.filter (· ≠ o) } } o v

/-- An object's word turns out uncorrectable (R366): poison, SYN_POISON, the waits end with 0, its armed triggers are
disarmed and marked. The report is the finder's: the scrubber's, or F2 from 0x14 (R583). -/
def synPoison (s : State) (o : Nat) : State :=
  if s.objPoisoned o then s else
  let s1 := (s.bump SYN_POISON.COUNT 1).wr SYN_POISON.LAST o
  { s1 with
    syn := { s1.syn with
      poison := s1.syn.poison ++ [o]
      trigs := s1.syn.trigs.mapAll {} fun _ e =>
        if e.armed && e.obj = o then { e with armed := false, poisoned := true } else e }
    ctxs := s1.ctxs.mapAll {} fun _ c => if c.state = .waitSync ∧ c.waitObj = o then c.endWait false else c }

/-- Records a program failure for the next FENCE instruction (R341). -/
def recordFail (s : State) (k st : Nat) : State :=
  let c := s.ctx k
  s.setCtx k { c with
    recStatus := if c.recCount = 0 then st else c.recStatus
    recCount := min (c.recCount + 1) (2 ^ 32 - 1) }

/-- Records a late failure of a posted write against a context (R103, R287, R295). -/
def recordLate (s : State) (k st : Nat) : State :=
  let c := s.ctx k
  let first := s.rd (XPT_LATE.COUNT k) = 0
  let s1 := s.setCtx k { c with
    lateFirst := if first then c.recCount = 0 else c.lateFirst, lateCount := min (c.lateCount + 1) (2 ^ 32 - 1) }
  (if first then s1.wr (XPT_LATE.STATUS k) st else s1).bump (XPT_LATE.COUNT k) 1

/-- TRG_READY after the FIFO levels have changed (R122): it falls at HIWAT and rises when every level is below LOWAT. -/
def trgUpdate (s : State) : State :=
  let hi := s.rd TRG_CFG.HIWAT
  let lo := s.rd TRG_CFG.LOWAT
  if s.ctxs.any (fun e => hi ≤ e.2.fifo.length) then { s with pins := { s.pins with trgReady := false } }
  else if s.ctxs.all (fun e => e.2.fifo.length < lo) then { s with pins := { s.pins with trgReady := s.pins.fcValid && !s.pins.testFence && s.rd BDG_STATUS.TIER < 2 && s.initDone } }
  else s

/-- A context in WAIT_TRIG with a token pops it: its object goes to the destination register (R322, R342). -/
def wakeTrig (s : State) (k : Nat) : State :=
  let c := s.ctx k
  match c.state, c.fifo with
  | .waitTrig, o :: rest => s.setCtx k { c.setG c.waitDst o with state := .ready, fifo := rest }
  | _, _ => s

/-- A token cannot be admitted to context `k`: no program is loaded, or the context is faulted (R124). -/
def trgDiscards (s : State) (k : Nat) : Bool := s.rd (MRT_CTX_CFG1.CODE_LEN k) = 0 || (s.ctx k).state = .faulted

/-- A token for context `k`: discarded, dropped on a full FIFO (TRG_OVERFLOW), taken by a context in WAIT_TRIG, or
queued (R124, R125, R378). -/
def tokenTo (s : State) (k obj : Nat) : State :=
  if trgDiscards s k then report (s.bump (TRG_CTX.DISCARD k) 1) 0x12 0 0x02 k
  else if 64 ≤ (s.ctx k).fifo.length then
    report (synAdd (s.wr (TRG_CTX.OVERFLOW k) 1) (errorCounterOf k) 1) 0x12 2 0x01 k
  else trgUpdate (wakeTrig (s.setCtx k { s.ctx k with fifo := (s.ctx k).fifo ++ [obj] }) k)

/-- CONTEXT_FAULT (R345, R346): the context is FAULTED, its unstarted entries are discarded, F2 is reported. -/
def ctxFault (s : State) (k cause info : Nat) : State :=
  let c := s.ctx k
  if c.state = .faulted then s else
  let keep := c.beq.filter fun e => e.started && !e.isFence
  report (s.setCtx k { c with
    state := .faulted, cause := cause, info := info % 65536, beq := keep, waitObj := 0, waitEnd := none
    pendG := c.pendG.filter (fun r => keep.any fun e => e.d = r)
    pendP := c.pendP.filter (fun r => keep.any fun e => e.opcode = 0x42 && e.desc.isNone && e.imm / 256 % 8 = r) })
    0x13 2 0x01 (k + cause * 2 ^ 24)

/-- A trigger action fails (R373): the record of its context, its error counter, AFAIL and F2. -/
def actionFails (s : State) (t st : Nat) : State :=
  let k := (s.trig t).ctx
  report ((synAdd (recordFail s k st) (errorCounterOf k) 1).wr SYN_DELIV.AFAIL 1) 0x14 2 0x02 t

/-- ARG is valid for the action: its fields are in range and the others zero (R371). -/
def argValid (action arg : Nat) : Bool :=
  match action with
  | 0 => arg = 0
  | 1 => arg ≤ 12
  | 2 => arg < 2 ^ 52 && arg % 8 = 0
  | 3 => arg < 2 ^ 48
  | 4 => arg < 2 ^ 55
  | 5 => arg / 512 % 128 = 0 && arg < 2 ^ 32
  | _ => false

/-- The arguments of ARM as SYN_TARG0 to SYN_TARG5 hold them (R383). -/
def armArgs (s : State) : TrigEntry :=
  { obj := s.rd SYN_TARG0.OBJ, cond := s.rd SYN_TARG0.COND, action := s.rd SYN_TARG0.ACTION, armed := true
    ctx := s.rd SYN_TARG0.CTX
    thresh := s.rd SYN_TARG1.THRESH_LO + 2 ^ 32 * s.rd SYN_TARG2.THRESH_HI
    step := s.rd SYN_TARG3.STEP
    arg := s.rd SYN_TARG4.ARG_LO + 2 ^ 32 * s.rd SYN_TARG5.ARG_HI }

/-- The checks of ARM, in order (R374). -/
def armStatus (s : State) (t : Nat) : Nat :=
  let e := armArgs s
  let target := e.arg % 65536
  if !s.initDone then stBUSY
  else if (s.trig t).armed ∨ 1 < e.cond ∨ !argValid e.action e.arg then stINTERNAL
  else if !synMayUse s e.ctx e.obj ∨ (e.action = 3 ∧ !synMayUse s e.ctx target) then stRIGHTS
  else if s.objPoisoned e.obj ∨ (e.action = 3 ∧ s.objPoisoned target) then stPOISON
  else stOK

/-- ARM of entry `t` (R374): LAPS, FIRES and POISONED are cleared, VALUE and FTIME stay; it fires at once when its
condition holds (R369). A delivery still pending stays pending. -/
def synArm (s : State) (t : Nat) : State :=
  let st := armStatus s t
  let s0 := (s.wr SYN_TCMD.ENTRY t).wr SYN_TCMD.STATUS st
  if st ≠ stOK then s0 else
  let e := armArgs s
  let old := s.trig t
  let s1 := s0.setTrig t { e with pending := old.pending, value := old.value, ftime := old.ftime }
  if e.meets (s.obj e.obj) then fireTrig s1 t (s.obj e.obj) else s1

/-- DISARM of entry `t` (R374): it completes only after a pending delivery has been made; BUSY reads 1 till then. -/
def synDisarm (s : State) (t : Nat) : State :=
  let s0 := s.wr SYN_TCMD.ENTRY t
  if !s.initDone then s0.wr SYN_TCMD.STATUS stBUSY else
  let s1 := s0.setTrig t { s0.trig t with armed := false }
  if (s.trig t).pending then
    { s1.wr SYN_TCMD.BUSY 1 with syn := { s1.syn with disarming := some t } }
  else s1.wr SYN_TCMD.STATUS stOK

/-- A pending delivery of entry `t` has been made: PENDING clears, FIRES counts, and a DISARM that waited ends. -/
def delivered (s : State) (t : Nat) : State :=
  let e := s.trig t
  let s1 := s.setTrig t { e with pending := false, fires := (e.fires + 1) % 2 ^ 32 }
  let s2 := { s1 with syn := { s1.syn with deliv := s1.syn.deliv.filter (· ≠ t) } }
  if s2.syn.disarming = some t then
    { (s2.wr SYN_TCMD.BUSY 0).wr SYN_TCMD.STATUS stOK with syn := { s2.syn with disarming := none } }
  else s2

/-- A delivery that cannot proceed goes to the back of the queue and counts in RETRY (R370). -/
def redeliver (s : State) (t : Nat) : State :=
  ({ s with syn := { s.syn with deliv := s.syn.deliv.filter (· ≠ t) ++ [t] } }).bump SYN_DELIV.RETRY 1

/-- SYN_HOST_ADD: adds ADDEND to OBJ as one update; an ADDEND of 0 is ignored (R382). -/
def synHostAdd (s : State) (obj addend : Nat) : State := if addend = 0 then s else synAdd s obj addend

end Sys2Proof.Machine
end

