-- ==== Sys2Proof/Machine/Operands.lean ====
section
/-! DEFINITION. The operand forms of the Marten instruction set (R332, R333): the fields of a 128-bit instruction word,
the operand b, which fields an instruction uses, the fetch of the next instruction and the stall on a pending register. -/
namespace Sys2Proof.Machine

-- The fields of an instruction word (R332).
def iOp (w : Nat) : Nat := bitsOf w 127 120
def iPneg (w : Nat) : Bool := bitOf w 119
def iPg (w : Nat) : Nat := bitsOf w 118 116
def iD (w : Nat) : Nat := bitsOf w 115 111
def iA (w : Nat) : Nat := bitsOf w 110 106
def iB (w : Nat) : Nat := bitsOf w 105 101
def iC (w : Nat) : Nat := bitsOf w 100 96
def iFn (w : Nat) : Nat := bitsOf w 95 80
def iRsv (w : Nat) : Nat := bitsOf w 79 64
def iImm (w : Nat) : Nat := bitsOf w 63 0

/-- How an instruction uses a register field: not at all, as a general register, or as a predicate. -/
inductive Use | no | reg | pred
deriving DecidableEq, Repr

/-- The fields an instruction uses (R333): D, A, B, C, the bits of FN and of IMM it may set; `opB` says that it has the
operand b, which is g[B] or IMM by FN[0]. -/
structure Form where
  d : Use := .no
  a : Use := .no
  b : Use := .no
  c : Use := .no
  fn : Nat := 0
  imm : Nat := 0
  opB : Bool := false
deriving DecidableEq, Repr

/-- A register field holds a value its use allows: a predicate occupies the low 3 bits, an unused field is zero. -/
def Use.ok (u : Use) (v : Nat) : Bool :=
  match u with | .no => v = 0 | .reg => true | .pred => v < 8

/-- Every field and bit that the instruction does not use is zero (R333). -/
def Form.ok (f : Form) (w : Nat) : Bool :=
  let immB := f.opB && bitOf (iFn w) 0
  let bUse : Use := if f.opB then (if immB then .no else .reg) else f.b
  let fnMask := if f.opB then f.fn ||| 1 else f.fn
  let immMask := if f.opB then (if immB then 2 ^ 64 - 1 else 0) else f.imm
  f.d.ok (iD w) && f.a.ok (iA w) && bUse.ok (iB w) && f.c.ok (iC w) && iRsv w = 0 &&
    iFn w &&& fnMask = iFn w && iImm w &&& immMask = iImm w

/-- The operand b: g[B], or IMM when FN[0] is 1 (R333). -/
def opB (c : Ctxt) (w : Nat) : Nat := if bitOf (iFn w) 0 then iImm w else c.gr (iB w)

/-- The width in bytes of code FN[2:1] (R333). -/
def iWidth (w : Nat) : Nat := 2 ^ bitsOf (iFn w) 2 1

/-- The guard holds: p[PG] xor PNEG is 1 (R333). -/
def guardOn (c : Ctxt) (w : Nat) : Bool := c.pr (iPg w) != iPneg w

/-- A register field's use meets a pending register or predicate (R326). -/
def Use.pending (u : Use) (c : Ctxt) (v : Nat) : Bool :=
  match u with | .no => false | .reg => c.pendG.contains v | .pred => c.pendP.contains v

/-- The instruction reads or writes a pending register or predicate, and stalls (R326). -/
def Form.stalls (f : Form) (c : Ctxt) (w : Nat) : Bool :=
  let bUse : Use := if f.opB then (if bitOf (iFn w) 0 then .no else .reg) else f.b
  f.d.pending c (iD w) || f.a.pending c (iA w) || bUse.pending c (iB w) || f.c.pending c (iC w)

/-- The opcodes of R334 to R344. -/
def opcodeDefined (op : Nat) : Bool :=
  op ≤ 0x11 || op = 0x18 || op = 0x19 || (0x20 ≤ op && op ≤ 0x24) || op = 0x28 || op = 0x30 || op = 0x31 ||
  (0x38 ≤ op && op ≤ 0x3B) || (0x40 ≤ op && op ≤ 0x44) || (0x50 ≤ op && op ≤ 0x54) ||
  (0x60 ≤ op && op ≤ 0x67) || (0x70 ≤ op && op ≤ 0x72)

/-- The opcode names a unit absent from the build: Foxglove (R6, R344). -/
def opcodeAbsent (s : State) (op : Nat) : Bool := 0x70 ≤ op && !s.build.fox

/-- The units of the fabric run: fc runs, no fill stands in the way, no reset of the fabric domain runs, no capture hold
keeps the tables unchanged, and the safe state does not hold (R10, R578, R603, R614). -/
def State.unitsRun (s : State) : Bool :=
  s.on CSP_STATUS.FC_RUN && s.initDone && !s.safe && s.rd BDG_STATUS.TIER < 2 && !s.on BDG_STATUS.CAP_HOLD

/-- A context is held after suspect replay, or while another suspect runs solo (R616). -/
def State.ctxHeld (s : State) (k : Nat) : Bool :=
  bitOf (s.rd (BDG_HELD.HELD (k / 32))) (k % 32) ||
    (match s.bdg.replay with
    | some r => r.solo ≠ k && bitOf (s.rd (BDG_SUSPECT_SET.SUSPECT (k / 32))) (k % 32)
    | none => false)

/-- The index the program counter of a context moves to after an instruction that does not branch. -/
def nextPc (pc : Nat) : Nat := (pc + 1) % 32768

/-- Moves a context past its instruction. -/
def advance (s : State) (k : Nat) : State := s.setCtx k { s.ctx k with pc := nextPc (s.ctx k).pc }

/-- The PC lies in the context's code range (R336). -/
def inCode (s : State) (k : Nat) : Bool :=
  let b := s.rd (MRT_CTX_CFG0.CODE_BASE k)
  b ≤ (s.ctx k).pc && (s.ctx k).pc < b + s.rd (MRT_CTX_CFG1.CODE_LEN k)

/-- The line of instruction memory that holds instruction `i`. -/
def State.imemLine (s : State) (i : Nat) : List (BitVec 128) := (List.range 4).map fun j => s.mrt.imem.get 0 (i / 4 * 4 + j)

/-- The instruction word that context `k` fetches from index `i`: its core's cache holds the line, or is filled with it
(R329). -/
def State.instr (s : State) (k i : Nat) : Nat :=
  (((s.mrt.cached.find? (8192 * (k / 32) + i / 4)).getD (s.imemLine i)).getD (i % 4) 0).toNat

/-- The fetch of the instruction at the PC of context `k`: a miss fills the line into its core's cache of 64 lines (R329).
Which line makes room is left open. -/
def State.fetch (s : State) (k : Nat) : State :=
  let i := (s.ctx k).pc
  let key := 8192 * (k / 32) + i / 4
  if (s.mrt.cached.find? key).isSome then s else
  let mine := (s.mrt.cached.map (·.1)).filter (· / 8192 = k / 32)
  let s1 := if mine.length < 64 then s else
    { s with mrt := { s.mrt with cached := s.mrt.cached.drop (mine.getD (s.free % mine.length) 0) } }.useFree
  { s1 with mrt := { s1.mrt with cached := s1.mrt.cached.put key (s.imemLine i) } }

/-- Lines of instruction memory leave every core's cache (R329, R330). -/
def dropLines (s : State) (p : Nat → Bool) : State :=
  { s with mrt := { s.mrt with cached := s.mrt.cached.filter fun e => !p (e.1 % 8192) } }

/-- Issues the instruction at the PC of context `k`, which must have opcode `op` (R320, R326, R333, R345): fetch faults,
the fetch, the guard, undefined opcodes, the unused fields, the stall on pending registers, the values that the
instruction's own chapter refuses (`extra`), and then `run`. A context that is not READY, or whose next instruction is
another, issues nothing here. -/
def issue (op : Nat) (f : Form) (extra : State → Nat → Bool) (run : State → Nat → Nat → State) (s : State) (k : Nat) :
    State :=
  let c := s.ctx k
  if c.state ≠ .ready || !s.unitsRun || s.ctxHeld k then s
  else if !inCode s k then ctxFault s k 4 c.pc
  else if s.mrt.imemPoison.contains (c.pc / 4) then ctxFault s k 3 c.pc
  else
    let w := s.instr k c.pc
    let t := s.fetch k
    if c.pendP.contains (iPg w) then t
    else if !opcodeDefined (iOp w) || opcodeAbsent s (iOp w) then
      if guardOn c w then ctxFault t k 1 (iOp w) else advance t k
    else if iOp w ≠ op then s
    else if !guardOn c w then advance t k
    else if !f.ok w then ctxFault t k 2 op
    else if f.stalls c w then t
    else if extra t w then ctxFault t k 2 op
    else run t k w

/-- No value is refused beyond the form. -/
def noExtra : State → Nat → Bool := fun _ _ => false

end Sys2Proof.Machine
end

