-- ==== Sys2Proof/Machine/Marten.lean ====
section
/-! DEFINITION. The Marten front end (R320 to R346): scalar, compare, control, special-register, scratch,
synchronisation and trigger instructions, the context commands, and loading instruction memory. -/
namespace Sys2Proof.Machine

/-- A scalar instruction: g[d] := `f` of the context and the word; pc moves on (R334). -/
def scalarRun (f : Ctxt → Nat → Nat) (s : State) (k w : Nat) : State :=
  let c := s.ctx k
  s.setCtx k { c.setG (iD w) (f c w) with pc := nextPc c.pc }

/-- The form of g[d] := g[a] op b. -/
def formDAb : Form := { d := .reg, a := .reg, opB := true }

/-- A two-operand scalar instruction of opcode `op` (R334), modulo 2^64. -/
def scalar2 (op : Nat) (f : Nat → Nat → Nat) (s : State) (k : Nat) : State :=
  issue op formDAb noExtra (scalarRun fun c w => f (c.gr (iA w)) (opB c w)) s k

/-- The two's complement value of a 64-bit number. -/
def sint64 (v : Nat) : Int := (BitVec.ofNat 64 v).toInt

def aluAdd (a b : Nat) : Nat := (a + b) % 2 ^ 64
def aluSub (a b : Nat) : Nat := (a + 2 ^ 64 - b % 2 ^ 64) % 2 ^ 64
def aluMul (a b : Nat) : Nat := a * b % 2 ^ 64
def aluMulhu (a b : Nat) : Nat := a * b / 2 ^ 64
def aluShl (a b : Nat) : Nat := a * 2 ^ (b % 64) % 2 ^ 64
def aluShr (a b : Nat) : Nat := a / 2 ^ (b % 64)
def aluSra (a b : Nat) : Nat := ((BitVec.ofNat 64 a).sshiftRight (b % 64)).toNat
def aluMins (a b : Nat) : Nat := if sint64 a ≤ sint64 b then a else b
def aluMaxs (a b : Nat) : Nat := if sint64 a ≤ sint64 b then b else a

/-- The number of leading zero bits of a 64-bit value, 64 for zero (R334). -/
def aluClz (a : Nat) : Nat := if a = 0 then 64 else 63 - Nat.log2 a

/-- cmp's conditions by FN[3:1] (R335). -/
def cmpHolds (code a b : Nat) : Bool :=
  match code with
  | 0 => a = b
  | 1 => a ≠ b
  | 2 => a < b
  | 3 => b ≤ a
  | 4 => sint64 a < sint64 b
  | _ => sint64 b ≤ sint64 a

/-- plog's functions by FN[2:1] (R335). -/
def plogOf (code : Nat) (a b : Bool) : Bool :=
  match code with | 0 => a && b | 1 => a || b | 2 => a != b | _ => a && !b

/-- cmp: p[d] := cc(g[a], b); codes 6 and 7 raise FIELD (R335). -/
def cmpInstr (s : State) (k : Nat) : State :=
  issue 0x18 { d := .pred, a := .reg, fn := 0xE, opB := true } (fun _ w => 6 ≤ bitsOf (iFn w) 3 1)
    (fun s k w =>
      let c := s.ctx k
      s.setCtx k { c.setP (iD w) (cmpHolds (bitsOf (iFn w) 3 1) (c.gr (iA w)) (opB c w)) with pc := nextPc c.pc }) s k

/-- plog: p[d] := f(p[a], p[b]) (R335). -/
def plogInstr (s : State) (k : Nat) : State :=
  issue 0x19 { d := .pred, a := .pred, b := .pred, fn := 0x6 } noExtra
    (fun s k w =>
      let c := s.ctx k
      s.setCtx k { c.setP (iD w) (plogOf (bitsOf (iFn w) 2 1) (c.pr (iA w)) (c.pr (iB w))) with pc := nextPc c.pc }) s k

/-- br (R336). -/
def brInstr (s : State) (k : Nat) : State :=
  issue 0x20 { imm := 0x7FFF } noExtra (fun s k w => s.setCtx k { s.ctx k with pc := iImm w }) s k

/-- call: g[d] := pc + 1; pc := imm[14:0] (R336). -/
def callInstr (s : State) (k : Nat) : State :=
  issue 0x21 { d := .reg, imm := 0x7FFF } noExtra
    (fun s k w => s.setCtx k { (s.ctx k).setG (iD w) ((s.ctx k).pc + 1) with pc := iImm w }) s k

/-- jr: pc := g[a] mod 32,768 (R336). -/
def jrInstr (s : State) (k : Nat) : State :=
  issue 0x22 { a := .reg } noExtra (fun s k w => s.setCtx k { s.ctx k with pc := (s.ctx k).gr (iA w) % 32768 }) s k

/-- end: no further instruction issues; the context is STOPPING (R322, R336). -/
def endInstr (s : State) (k : Nat) : State :=
  issue 0x23 {} noExtra (fun s k _ => s.setCtx k { s.ctx k with state := .stopping, pc := nextPc (s.ctx k).pc }) s k

/-- fault: raises SOFTWARE with INFO imm[15:0] (R336). -/
def faultInstr (s : State) (k : Nat) : State :=
  issue 0x24 { imm := 0xFFFF } noExtra (fun s k w => ctxFault s k 7 (iImm w)) s k

/-- The special registers of SRD (R325). -/
def special (s : State) (k i : Nat) : Nat :=
  match i with
  | 0 => k
  | 1 => k / 32
  | 2 => s.rd NODE_ID.NODE
  | 3 => s.nowNs
  | 4 => s.ctxPkey k
  | 5 => (s.ctx k).fifo.length
  | 6 => (s.ctx k).astat
  | _ => (s.ctx k).queued

/-- srd: g[d] := special[imm]; any other index raises FIELD (R325, R336). -/
def srdInstr (s : State) (k : Nat) : State :=
  issue 0x28 { d := .reg, imm := 2 ^ 64 - 1 } (fun _ w => 7 < iImm w)
    (fun s k w => s.setCtx k { (s.ctx k).setG (iD w) (special s k (iImm w)) with pc := nextPc (s.ctx k).pc }) s k

/-- Puts an instruction into the back-end queue of its context, its register operands captured (R326); a full queue
stalls it. `d` and `pd` are the register and the predicate the entry will write, 0 for none; `step` is the number of a
collective step. -/
def enqueue (order : Bool) (cnt : Option Nat) (d pd : Nat) (s : State) (k w : Nat) (step : Nat := 0) : State :=
  let c := s.ctx k
  if 16 ≤ c.queued then s else
  let e : BeEntry :=
    { id := c.nextId, pc := c.pc, opcode := iOp w, va := c.gr (iA w), vb := c.gr (iB w), vc := c.gr (iC w),
      vc1 := c.gr ((iC w + 1) % 32), d := d, fn := iFn w, imm := iImm w, order := order, cnt := cnt, step := step }
  s.setCtx k { c with
    beq := c.beq ++ [e], nextId := c.nextId + 1, pc := nextPc c.pc
    pendG := if d = 0 then c.pendG else c.pendG ++ [d]
    pendP := if pd = 0 then c.pendP else c.pendP ++ [pd] }

/-- The sync object of an instruction whose CNT bit is `bit` may not be used by the context, or it is named although CNT is
0 and nothing uses it: FIELD at issue (R333, R339, R360). -/
def cntRefused (bit k : Nat) (s : State) (w : Nat) : Bool :=
  if bitOf (iImm w) bit then !synMayUse s k (iFn w) else iFn w ≠ 0

/-- lds (R337). -/
def ldsInstr (s : State) (k : Nat) : State :=
  issue 0x30 { d := .reg, a := .reg, fn := 0x6, imm := 2 ^ 64 - 1 } noExtra
    (fun s k w => enqueue false none (iD w) 0 s k w) s k

/-- sts (R337). -/
def stsInstr (s : State) (k : Nat) : State :=
  issue 0x31 { a := .reg, c := .reg, fn := 0x6, imm := 2 ^ 64 - 1 } noExtra
    (fun s k w => enqueue false none 0 0 s k w) s k

/-- The first byte of a context's scratch access of `n` bytes at relative address `a`, in the scratch of all cores;
`none` where the address is invalid (R331). -/
def scratchAddr (s : State) (k a n align : Nat) : Option Nat :=
  if a + n ≤ s.rd (MRT_CTX_CFG2.SCR_SIZE k) * 256 ∧ a % align = 0 then
    some (65536 * (k / 32) + s.rd (MRT_CTX_CFG2.SCR_BASE k) * 256 + a)
  else none

/-- A byte of scratch. -/
def State.scr (s : State) (a : Nat) : Byte := Tbl.get 0 s.mrt.scratch a

/-- Writes bytes to scratch; a write clears the mark of a word it reaches (R583). -/
def scrWrite (s : State) (a : Nat) : List Byte → State
  | [] => s
  | b :: t =>
    scrWrite { s with mrt := { s.mrt with
      scratch := Tbl.set 0 s.mrt.scratch a b, scratchPoison := s.mrt.scratchPoison.filter (· ≠ a / 8) } } (a + 1) t

/-- Bytes of scratch. -/
def scrRead (s : State) (a n : Nat) : List Byte := (List.range n).map fun i => s.scr (a + i)

/-- A word of these bytes of scratch is marked uncorrectable (R331, R583). -/
def scrPoisoned (s : State) (a n : Nat) : Bool := s.mrt.scratchPoison.any fun x => a < 8 * x + 8 && 8 * x < a + n

/-- Removes a back-end entry, freeing its place and what it held pending (R326). -/
def dropEntry (s : State) (k id : Nat) : State :=
  let c := s.ctx k
  match c.beq.find? (fun e => e.id = id) with
  | none => s
  | some e =>
    if e.muted then s.setCtx k { c with beq := c.beq.filter (fun x => x.id ≠ id) } else
    s.setCtx k { c with
      beq := c.beq.filter (fun x => x.id ≠ id)
      pendG := c.pendG.erase e.d
      pendP := if e.opcode = 0x42 ∧ e.desc = none then c.pendP.erase (e.imm / 256 % 8) else c.pendP }

/-- A failure of entry `id` of context `k` is recorded for FENCE, unless a Tier 0 came between (R341, R601). -/
def failEntry (s : State) (k id st : Nat) : State :=
  if (s.ctx k).beq.any fun e => e.id = id && e.muted then s else recordFail s k st

/-- The object of a synchronisation instruction: (g[a] + imm[15:0]) mod 65,536 (R342). -/
def synObj (c : Ctxt) (w : Nat) : Nat := (c.gr (iA w) + iImm w % 65536) % 65536

/-- The object may not be used by the context: FIELD at issue (R360). -/
def synRefused (k : Nat) (s : State) (w : Nat) : Bool := !synMayUse s k (synObj (s.ctx k) w)

/-- g[d] := old counter, 0 where the object is poisoned, which records POISON when `rec` is set (R342, R366). -/
def synRead (rec : Bool) (s : State) (k w : Nat) : State :=
  let c := s.ctx k
  let o := synObj c w
  let s1 := s.setCtx k { c.setG (iD w) (if s.objPoisoned o then 0 else s.obj o) with pc := nextPc c.pc }
  if rec && s.objPoisoned o then recordFail s1 k stPOISON else s1

/-- synadd (R342, R366). -/
def synaddInstr (s : State) (k : Nat) : State :=
  issue 0x50 { d := .reg, a := .reg, b := .reg, imm := 0xFFFF } (synRefused k)
    (fun s k w => synAdd (synRead true s k w) (synObj (s.ctx k) w) ((s.ctx k).gr (iB w))) s k

/-- synset: it clears the poison and writes the value (R342, R366). -/
def synsetInstr (s : State) (k : Nat) : State :=
  issue 0x51 { d := .reg, a := .reg, b := .reg, imm := 0xFFFF } (synRefused k)
    (fun s k w => synSet (synRead false s k w) (synObj (s.ctx k) w) ((s.ctx k).gr (iB w))) s k

/-- synrd (R342). -/
def synrdInstr (s : State) (k : Nat) : State :=
  issue 0x52 { d := .reg, a := .reg, imm := 0xFFFF } (synRefused k) (synRead true) s k

/-- synwait: p[d] := 1 at once when the condition holds, 0 on a poisoned object; otherwise the context waits, with the
timeout g[c] in ns, 0 for none (R342, R366). -/
def synwaitInstr (s : State) (k : Nat) : State :=
  issue 0x53 { d := .pred, a := .reg, b := .reg, c := .reg, fn := 0x3, imm := 0xFFFF }
    (fun s w => 3 ≤ iFn w || synRefused k s w)
    (fun s k w =>
      let c := s.ctx k
      let o := synObj c w
      let c1 := { c with pc := nextPc c.pc }
      if s.objPoisoned o then s.setCtx k (c1.setP (iD w) false)
      else if waitHolds (iFn w) (s.obj o) (c.gr (iB w)) then s.setCtx k (c1.setP (iD w) true)
      else s.setCtx k { c1 with
        state := .waitSync, waitObj := o, waitCond := iFn w, waitVal := c.gr (iB w), waitDst := iD w
        waitEnd := if c.gr (iC w) = 0 then none else some (s.after (c.gr (iC w))) }) s k

/-- SYNWAIT_TMO: the timeout expires before the condition holds, and p[d] := 0 (R342). -/
def synwaitTmo (s : State) (k : Nat) : State :=
  let c := s.ctx k
  if c.state = .waitSync ∧ s.due c.waitEnd then s.setCtx k (c.endWait false) else s

/-- wtrig: pops the oldest token, or waits for one (R342). -/
def wtrigInstr (s : State) (k : Nat) : State :=
  issue 0x54 { d := .reg } noExtra
    (fun s k w =>
      let c := s.ctx k
      trgUpdate (wakeTrig (s.setCtx k { c with state := .waitTrig, pc := nextPc c.pc, waitDst := iD w }) k)) s k

/-- fence: it takes a place of the back-end queue, and the front end stops in FENCING (R326, R341). -/
def fenceInstr (s : State) (k : Nat) : State :=
  issue 0x44 { d := .reg } noExtra
    (fun s k w =>
      if 16 ≤ (s.ctx k).queued then s else
      let s1 := enqueue false none (iD w) 0 s k w
      let c := s1.ctx k
      s1.setCtx k { c with
        state := .fencing, waitDst := iD w, beq := c.beq.map fun e => if e.isFence then { e with started := true } else e }) s k

/-- A FENCE that is abandoned leaves the back-end queue (R322, R346). -/
def Ctxt.noFence (c : Ctxt) : Ctxt :=
  { c with beq := c.beq.filter fun e => !e.isFence
           pendG := c.pendG.filter fun r => c.beq.any fun e => !e.isFence && e.d = r }

/-- The FENCE record of a context: the status of its first failure and the number of failures, late ones included
(R341, R357). -/
def fenceRecord (s : State) (k : Nat) : Nat × Nat :=
  let c := s.ctx k
  let late := c.lateCount
  let first := if c.recCount = 0 ∨ (late ≠ 0 ∧ c.lateFirst) then (if late = 0 then 0 else s.rd (XPT_LATE.STATUS k))
    else c.recStatus
  (first, min (c.recCount + late) (2 ^ 32 - 1))

/-- Clears the record of late failures (R103). -/
def clearLate (s : State) (k : Nat) : State :=
  ((s.wr (XPT_LATE.COUNT k) 0).wr (XPT_LATE.STATUS k) 0).setCtx k { s.ctx k with lateCount := 0 }

/-- FENCE_DONE: every operation the program issued before has completed; g[d] takes the record, which is cleared
(R322, R341). -/
def fenceDone (s : State) (k : Nat) : State :=
  let c := s.ctx k
  if c.state ≠ .fencing ∨ c.beq.any (fun e => e.desc.isNone && !e.isFence) then s else
  let r := fenceRecord s k
  clearLate (s.setCtx k
    { c.noFence.setG c.waitDst (r.1 + 2 ^ 32 * r.2) with state := .ready, recStatus := 0, recCount := 0, lateFirst := false }) k

/-- START is accepted: the context is STOPPED and its configuration passes every check (R321). -/
def startOk (s : State) (k : Nat) : Bool :=
  let base := s.rd (MRT_CTX_CFG0.CODE_BASE k)
  let len := s.rd (MRT_CTX_CFG1.CODE_LEN k)
  let entry := s.rd (MRT_CTX_CFG0.ENTRY k)
  (s.ctx k).state = .stopped && len ≠ 0 && base + len ≤ 32768 && base ≤ entry && entry < base + len &&
    s.rd (MRT_CTX_CFG2.SCR_BASE k) + s.rd (MRT_CTX_CFG2.SCR_SIZE k) ≤ 256

/-- START (R321, R322, R616): the slot of a solo suspect begins as it runs; PC := ENTRY, P1 to P7 := 0, the G registers kept; ASTAT reads 0 since START (R325). -/
def ctxStart (s : State) (k : Nat) : State :=
  if startOk s k then
    let s1 := match s.bdg.replay with
      | some r => if r.solo = k then
          { s with bdg := { s.bdg with replay := some { r with ran := true, slotEnd := s.after (1000000 * s.rd BDG_SUSPECT.SOLO_MS) } } }
        else s
      | none => s
    s1.setCtx k { s.ctx k with state := .ready, pc := s.rd (MRT_CTX_CFG0.ENTRY k), p := [], astat := 0 }
  else s.setCtx k { s.ctx k with cmdErr := true }

/-- STOP: the wait is abandoned at an instruction boundary, no token is popped (R322, R377). -/
def ctxStop (s : State) (k : Nat) : State :=
  let c := s.ctx k
  match c.state with
  | .ready | .waitTrig | .waitSync | .fencing =>
    s.setCtx k { c.noFence with state := .stopping, waitObj := 0, waitEnd := none }
  | _ => s

/-- CONTEXT_STOPPED: the back-end queue of a STOPPING context is empty (R322). -/
def contextStopped (s : State) (k : Nat) : State :=
  let c := s.ctx k
  if c.state = .stopping ∧ c.queued = 0 then s.setCtx k { c with state := .stopped } else s

/-- A context that runs or may yet run: ILOAD must not overlap its code (R330). -/
def CtxState.busy (st : CtxState) : Bool :=
  match st with | .ready | .waitTrig | .waitSync | .fencing | .stopping => true | _ => false

/-- The range of an ILOAD overlaps the code range of a busy context. -/
def iloadOverlaps (s : State) (i n : Nat) : Bool :=
  s.ctxs.any fun e => e.2.state.busy &&
    (let b := s.rd (MRT_CTX_CFG0.CODE_BASE e.1)
     b < i + n && i < b + s.rd (MRT_CTX_CFG1.CODE_LEN e.1))

/-- ILOAD, its checks and the start of its read (R330, R350). -/
def iloadGo (s : State) : State :=
  let i := s.rd MRT_ILOAD_RANGE.INDEX
  let n := s.rd MRT_ILOAD_RANGE.COUNT
  if s.on MRT_ILOAD_CMD.BUSY then s
  else if !s.initDone then s.wr MRT_ILOAD_CMD.STATUS stBUSY
  else if n = 0 ∨ 32768 < i + n then s.wr MRT_ILOAD_CMD.STATUS stINTERNAL
  else if iloadOverlaps s i n then s.wr MRT_ILOAD_CMD.STATUS stBUSY
  else
    let a := 16 * s.rd MRT_ILOAD_LO.ADDR_LO + 2 ^ 32 * s.rd MRT_ILOAD_HI.ADDR_HI
    hmpRead ({ s.wr MRT_ILOAD_CMD.BUSY 1 with mrt := { s.mrt with iload := some ⟨i, n⟩ } }) 0 a (16 * n) .iload

/-- Writes instruction `j` of a load, where every beat up to it came with OK (R330). -/
def iloadWrite (x : Xfer) (i : Nat) : Nat → Nat → State → State
  | 0, _, s => s
  | n + 1, j, s =>
    if x.okAt (16 * j) 16 then
      iloadWrite x i n (j + 1) { s with mrt := { s.mrt with
        imem := s.mrt.imem.set 0 (i + j) (BitVec.ofNat 128 (leNat ((List.range 16).map fun b => pieceByte x.got (16 * j + b))))
        imemPoison := s.mrt.imemPoison.filter (· ≠ (i + j) / 4) } }
    else s

/-- ILOAD_DONE: the load's reads have returned, and the caches drop its range; a beat that is not OK ends it with POISON,
what was written stands, and what the caches hold they keep (R330). -/
def iloadDone (s : State) : State :=
  match s.mrt.iload, s.hmp.returned.find? (fun x => x.k = .iload) with
  | some l, some x =>
    let s1 := iloadWrite x l.index l.left 0
      { s with hmp := { s.hmp with returned := s.hmp.returned.erase x }, mrt := { s.mrt with iload := none } }
    let s2 := if x.status = stOK then
        dropLines s1 fun n => l.index / 4 ≤ n && n ≤ (l.index + l.left - 1) / 4
      else s1
    (s2.wr MRT_ILOAD_CMD.BUSY 0).wr MRT_ILOAD_CMD.STATUS x.status
  | _, _ => s

end Sys2Proof.Machine
end

