-- ==== Sys2Proof/Machine/Windows.lean ====
section
/-! DEFINITION. The window table (R296 to R309, R314): entries, the commands CREATE, NARROW and REVOKE, chunked windows,
the checks of an access, the resolution of an offset, heat. -/
namespace Sys2Proof.Machine

def State.win (s : State) (w : Nat) : Win := s.wins.tbl.get {} w
def State.setWin (s : State) (w : Nat) (v : Win) : State :=
  { s with wins := { s.wins with tbl := s.wins.tbl.set {} w v } }

/-- The right an access needs. -/
inductive Need | rd | wr | at_
deriving DecidableEq, Repr

def Win.has (v : Win) (n : Need) : Bool := match n with | .rd => v.rd | .wr => v.wr | .at_ => v.at_

/-- Rows 2 to 5 of R309 for `len` bytes at `off` under partition key `pkey`. -/
def winCheck (v : Win) (pkey : Nat) (need : Need) (off len : Nat) : Nat :=
  if v.state ≠ .valid then stREVOKED
  else if v.pkey ≠ pkey then stRIGHTS
  else if !v.has need then stRIGHTS
  else if v.bound < off + len ∨ (need = .at_ ∧ off % len ≠ 0) then stBOUND
  else stOK

/-- A range of a chunked window that does not lie within one chunk (R305). -/
def Win.crosses (v : Win) (off len : Nat) : Bool := v.chunked && off / 2 ^ v.chunkLog2 ≠ (off + len - 1) / 2 ^ v.chunkLog2

/-- The local rows of R309 for a range of a local window; a chunked window admits a range only within one chunk (R305). -/
def localCheck (v : Win) (pkey : Nat) (need : Need) (off len : Nat) : Nat :=
  let st := winCheck v pkey need off len
  if st = stOK ∧ v.crosses off len then stBOUND else st

/-- Counts an access that rows 2 to 5 refuse (R309, R319). -/
def countTgtErr (s : State) (st : Nat) : State :=
  if st = stREVOKED then s.bump TGT_ERR.REVOKED_CNT 1
  else if st = stRIGHTS then s.bump TGT_ERR.RIGHTS_CNT 1
  else if st = stBOUND then s.bump TGT_ERR.BOUND_CNT 1
  else s

/-- The key of chunk or line `i` of window `w`. -/
def chunkKey (w i : Nat) : Nat := w * 2 ^ 33 + i

/-- Where an offset of a window leads: a host address, or the chunk list line that must be read first (R304). -/
inductive Resolved
  | at (addr : Nat)
  | miss (line : Nat)
deriving DecidableEq, Repr

/-- The translation of one offset (R304): the base of a plain window, or the chunk's cached address. -/
def resolve (s : State) (w off : Nat) : Resolved :=
  let v := s.win w
  if !v.chunked then .at (v.base + off) else
  let i := off / 2 ^ v.chunkLog2
  match s.wins.cache.find? (chunkKey w i) with
  | some a => .at (a + off % 2 ^ v.chunkLog2)
  | none => .miss (i / 15)

/-- The pieces (offset, length) of the bytes `off` to `off + n − 1` of a window: one for a plain window, one per chunk
for a chunked one (R304). -/
def chunkPieces (v : Win) : Nat → Nat → Nat → List (Nat × Nat)
  | 0, _, _ => []
  | fuel + 1, off, n =>
    if n = 0 then [] else
    let m := if v.chunked then min n (2 ^ v.chunkLog2 - off % 2 ^ v.chunkLog2) else n
    (off, m) :: chunkPieces v fuel (off + m) (n - m)

/-- The pieces of a range of window `w`. -/
def piecesOf (s : State) (w off n : Nat) : List (Nat × Nat) := chunkPieces (s.win w) (n / 65536 + 3) off n

/-- The chunk list lines that a range needs and that are not cached (R304). -/
def linesMissing (s : State) (w off n : Nat) : List Nat :=
  (piecesOf s w off n).filterMap fun x => match resolve s w x.1 with | .miss l => some l | .at _ => none

/-- The translation of a range: its host ranges, each an address and a length (R22 step 2, R304). -/
def extents (s : State) (w off n : Nat) : List (Nat × Nat) :=
  (piecesOf s w off n).map fun x => (match resolve s w x.1 with | .at a => a | .miss _ => 0, x.2)

/-- The part of a translation that covers the bytes `off` to `off + n − 1` of it. -/
def cutExt : List (Nat × Nat) → Nat → Nat → List (Nat × Nat)
  | [], _, _ => []
  | (a, l) :: t, off, n =>
    if n = 0 then []
    else if l ≤ off then cutExt t (off - l) n
    else (a + off, min n (l - off)) :: cutExt t 0 (n - min n (l - off))

/-- Starts the read of a chunk list line, unless it is already on its way (R304, R319). -/
def fillLine (s : State) (w line : Nat) : State :=
  let key := chunkKey w line
  if s.wins.filling.contains key then s else
  hmpRead (({ s with wins := { s.wins with filling := s.wins.filling ++ [key] } }).wrapAdd TGT_SPILL.CHUNK_MISS 1)
    5 ((s.win w).base + 128 * line) 128 (.chunkLine w line (s.win w).serial)

/-- The 64-bit tag of a chunk list line (R303): AES-256-GCM under the spill key over bytes 0–119, its IV the SERIAL,
the line index and the window number. -/
def spillTag (s : State) (w line : Nat) (bytes : List Byte) : Nat :=
  leAt (gcmTag (natLE 32 s.wins.spillKey) (natLE 4 (s.win w).serial ++ natLE 4 line ++ natLE 2 w ++ [0, 0])
    (bytes.take 120) []) 0 8

/-- Caches the chunks of a line; at 4,096 translations an entry makes room (R304). Which one is left open. -/
def cacheLine (w line : Nat) (bytes : List Byte) : Nat → Nat → State → State
  | 0, _, s => s
  | n + 1, j, s =>
    let s1 := if s.wins.cache.length < 4096 then s else
      { s with wins := { s.wins with cache := s.wins.cache.eraseIdx (s.free % 4096) } }.useFree
    cacheLine w line bytes n (j + 1) { s1 with wins := { s1.wins with
      cache := s1.wins.cache.put (chunkKey w (15 * line + j)) (leAt bytes (8 * j) 8 % 2 ^ 52) } }

/-- Chunks of a window (R303). -/
def Win.chunks (v : Win) : Nat := (v.bound + 2 ^ v.chunkLog2 - 1) / 2 ^ v.chunkLog2

/-- The first half of CHUNK_MISS_FILL (R304): a line whose tag holds fills the cache and answers OK; one whose tag fails
sets the window INVALID, counts, reports F3 and answers POISON. A window that an access may no longer use answers REVOKED
(R297); only a REVOKING one still serves what was admitted before (R306). -/
def takeChunkLine (s : State) (w line : Nat) (x : Xfer) : State × Nat :=
  let key := chunkKey w line
  let s1 := { s with wins := { s.wins with filling := s.wins.filling.filter (· ≠ key) } }
  if (s.win w).state ≠ .valid ∧ (s.win w).state ≠ .revoking then (s1, stREVOKED)
  else if x.status ≠ stOK then (s1, x.status)
  else if leAt x.data 120 8 = spillTag s w line x.data then
    (cacheLine w line x.data (min 15 ((s.win w).chunks - 15 * line)) 0 s1, stOK)
  else
    (report ((s1.setWin w { s1.win w with state := .invalid }).bump TGT_ERR.TAG_FAIL 1) 0x10 3 0x01 w, stPOISON)

/-- The arguments of a window command (R317). -/
def argWindow (s : State) : Nat := s.rd TGT_WARG0.WINDOW
def argBound (s : State) : Nat := s.rd TGT_WARG3.BOUND_LO + 2 ^ 32 * s.rd TGT_WARG4.BOUND_HI
def argBase (s : State) : Nat := s.rd TGT_WARG1.BASE_LO + 2 ^ 32 * s.rd TGT_WARG2.BASE_HI

/-- The entry that CREATE's arguments describe (R299). -/
def argWin (s : State) : Win :=
  { state := .valid, base := argBase s, bound := argBound s, pkey := s.rd TGT_WARG4.PKEY,
    rd := s.on TGT_WARG5.RD, wr := s.on TGT_WARG5.WR, at_ := s.on TGT_WARG5.AT, chunked := s.on TGT_WARG5.KIND,
    chunkLog2 := if s.on TGT_WARG5.KIND then s.rd TGT_WARG5.CHUNK_LOG2 else 0 }

/-- Host address and lines of the overflow area (R318). -/
def ovfBase (s : State) : Nat := 4096 * s.rd TGT_OVF_LO.BASE_LO + 2 ^ 32 * s.rd TGT_OVF_HI.BASE_HI
def ovfLines (s : State) : Nat := 32 * s.rd TGT_OVF_SIZE.PAGES

/-- The checks of CREATE before any list is read, in order (R300). -/
def createStatus (s : State) (w : Nat) (v : Win) : Nat :=
  if !s.initDone then stBUSY
  else if (s.win w).state ≠ .free ∨ v.pkey = 0 ∨
    (v.chunked ∧ (v.chunkLog2 < 16 ∨ 30 < v.chunkLog2 ∨ s.rd TGT_OVF_SIZE.PAGES = 0)) then stINTERNAL
  else if v.bound = 0 ∨ (!v.chunked ∧ 2 ^ 52 < v.base + v.bound) then stBOUND
  else stOK

/-- Fills a FREE entry: VALID, GEN incremented, heat clear (R299). -/
def putWindow (s : State) (w : Nat) (v : Win) : State := s.setWin w { v with gen := ((s.win w).gen + 1) % 256 }

/-- CREATE of window `w` with entry `v` (R299, R300, R303): a chunked window first reads its source list, and BUSY
reads 1 till then. -/
def createWindow (s : State) (w : Nat) (v : Win) : State :=
  let st := createStatus s w v
  if st ≠ stOK then s.wr TGT_WCMD.STATUS st
  else if !v.chunked then (putWindow s w v).wr TGT_WCMD.STATUS stOK
  else
    hmpRead ({ s.wr TGT_WCMD.BUSY 1 with wins := { s.wins with creating := some (w, v) } }) 5 v.base (8 * v.chunks)
      .chunkSource

/-- CREATE by TGT_WCMD. -/
def tgtCreate (s : State) : State :=
  if s.on TGT_WCMD.BUSY then s else createWindow s (argWindow s) (argWin s)

/-- Lines `a` to `a + n − 1` of the overflow area are free. -/
def linesFree (s : State) (a n : Nat) : Bool := s.wins.lists.all fun e => e.2.1 + e.2.2 ≤ a || a + n ≤ e.2.1

/-- Writes the tagged lines of a chunk list (R303): bits [63:52] of an entry, and entries beyond the last chunk, are zero. -/
def writeList (w base : Nat) (addrs : List Byte) : Nat → Nat → State → State
  | 0, _, s => s
  | n + 1, line, s =>
    let body := (List.range 15).flatMap fun j => natLE 8 (leAt addrs (120 * line + 8 * j) 8 % 2 ^ 52)
    writeList w base addrs n (line + 1)
      (hmpWrite s 5 (base + 128 * line) (body ++ natLE 8 (spillTag s w line body)) .none)

/-- CREATE_LIST_READ (R300, R303): the source list has been read; firmware checks it and writes the tagged list. -/
def createListRead (s : State) : State :=
  match s.wins.creating, s.hmp.returned.find? (fun x => x.k = .chunkSource) with
  | some (w, v), some x =>
    let s1 := { s with hmp := { s.hmp with returned := s.hmp.returned.erase x }, wins := { s.wins with creating := none } }
    let fin (t : State) (st : Nat) : State := (t.wr TGT_WCMD.BUSY 0).wr TGT_WCMD.STATUS st
    let n := (v.chunks + 14) / 15
    let aligned := (List.range v.chunks).all fun i => leAt x.data (8 * i) 8 % 2 ^ v.chunkLog2 = 0
    let room := (List.range (ovfLines s + 1 - n)).filter fun a => linesFree s a n
    if x.status ≠ stOK then fin s1 (if x.status = stPOISON then stPOISON else stINTERNAL)
    else if !aligned then fin s1 stINTERNAL
    else match room[s.free % room.length]?, decide (s.rd TGT_OVF_SERIAL.SERIAL = 0xFFFFFFFF) with
    | some a, false =>
      let base := ovfBase s + 128 * a
      let serial := s.rd TGT_OVF_SERIAL.SERIAL
      let s2 := (putWindow s1.useFree w { v with base := base, serial := serial }).wrapAdd TGT_OVF_SERIAL.SERIAL 1
      fin (writeList w base x.data n 0 { s2 with wins := { s2.wins with lists := s2.wins.lists.put w (a, n) } }) stOK
    | _, _ => fin s1 stQUOTA
  | _, _ => s

/-- Discards the chunk translations of the windows from `first` on (R306). -/
def dropChunks (s : State) (first count : Nat) : State :=
  { s with wins := { s.wins with cache := s.wins.cache.filter fun e =>
      !(first ≤ e.1 / 2 ^ 33 && e.1 / 2 ^ 33 < first + count) } }

/-- NARROW (R300, R306): the narrowed fields are written and every engine is asked to acknowledge. -/
def tgtNarrow (s : State) : State :=
  let w := argWindow s
  let v := s.win w
  let a := argWin s
  let st :=
    if !s.initDone then stBUSY
    else if v.state ≠ .valid then stREVOKED
    else if v.bound < a.bound ∨ (a.rd ∧ !v.rd) ∨ (a.wr ∧ !v.wr) ∨ (a.at_ ∧ !v.at_) then stRIGHTS
    else stOK
  if s.on TGT_WCMD.BUSY then s
  else if st ≠ stOK then s.wr TGT_WCMD.STATUS st
  else
    let s1 := s.setWin w { v with bound := a.bound, rd := a.rd, wr := a.wr, at_ := a.at_ }
    let s2 := dropChunks s1 w 1
    { (s2.wr TGT_WCMD.BUSY 1).wr TGT_WWAIT.PENDING 0x7FFFF with wins := { s2.wins with cmd := some ⟨false, w, 1⟩ } }

/-- Windows of a range that are not FREE become REVOKING (R306). -/
def setRevoking (s : State) (first count : Nat) : State :=
  { s with wins := { s.wins with tbl := s.wins.tbl.mapAll {} fun w v =>
      if first ≤ w ∧ w < first + count ∧ v.state ≠ .free then { v with state := .revoking } else v } }

/-- REVOKE (R299, R300, R306). -/
def tgtRevoke (s : State) : State :=
  let first := argWindow s
  let count := s.rd TGT_WARG0.COUNT_M1 + 1
  if s.on TGT_WCMD.BUSY then s
  else if !s.initDone then s.wr TGT_WCMD.STATUS stBUSY
  else if 65536 < first + count then s.wr TGT_WCMD.STATUS stINTERNAL
  else
    let s1 := dropChunks (setRevoking s first count) first count
    { (s1.wr TGT_WCMD.BUSY 1).wr TGT_WWAIT.PENDING 0x7FFFF with
      wins := { s1.wins with cmd := some ⟨true, first, count⟩ } }

/-- A window is concerned by the command that runs (R306). -/
def winConcerned (s : State) (w : Nat) : Bool :=
  match s.wins.cmd with | some c => c.first ≤ w && w < c.first + c.count | none => false

/-- The last acknowledgement has come: REVOKE frees its windows, keeping GEN, and their list lines; BUSY falls (R306). -/
def windowCmdEnd (s : State) : State :=
  match s.wins.cmd with
  | none => s
  | some c =>
    let s1 := { s with wins := { s.wins with cmd := none } }
    let s2 := if !c.revoke then s1 else { s1 with wins := { s1.wins with
      tbl := s1.wins.tbl.mapAll {} fun w v => if c.first ≤ w ∧ w < c.first + c.count then { gen := v.gen } else v
      lists := s1.wins.lists.filter fun e => !(c.first ≤ e.1 && e.1 < c.first + c.count)
      filling := s1.wins.filling.filter fun e => !(c.first ≤ e / 2 ^ 33 && e / 2 ^ 33 < c.first + c.count) } }
    (s2.wr TGT_WCMD.BUSY 0).wr TGT_WCMD.STATUS stOK

/-- Adds to a saturating heat field of `n` bits. -/
def satTo (n v a : Nat) : Nat := min (v + a) (2 ^ n - 1)

/-- Heat and the dominant source after an operation executed with OK (R314). -/
def heat (s : State) (w : Nat) (need : Need) (len src : Nat) : State :=
  let v := s.win w
  let u := (len + 4095) / 4096
  let v1 : Win := match need with
    | .wr => { v with heatWr := satTo 16 v.heatWr u }
    | .rd => { v with heatRd := satTo 16 v.heatRd u }
    | .at_ => { v with heatAt := satTo 8 v.heatAt 1 }
  s.setWin w (if v.candSrc = src then { v1 with candCnt := min (v.candCnt + 1) 127 }
    else if v.candCnt = 0 then { v1 with candSrc := src, candCnt := 1 }
    else { v1 with candCnt := v.candCnt - 1 })

/-- The heat period in fabric time units (R314, R317: units of 10 ms). -/
def heatPeriod (s : State) : Nat := ns (10000000 * s.rd TGT_CFG.HEAT_PERIOD)

/-- The next heat boundary is the first after now: fabric time is set, or a new HEAT_PERIOD takes effect (R314). -/
def heatAlign (s : State) : State :=
  { s with wins := { s.wins with heatNext := (s.now / heatPeriod s + 1) * heatPeriod s } }

/-- HEAT_HALVE (R314): at each boundary of HEAT_PERIOD, while fabric time is valid, every heat field and CAND_CNT of every
window is halved. -/
def heatHalve (s : State) : State :=
  if !s.on BDG_TIME_STAT.VALID ∨ s.now < s.wins.heatNext then s else
  let d := 2 ^ ((s.now - s.wins.heatNext) / heatPeriod s + 1)
  heatAlign { s with wins := { s.wins with tbl := s.wins.tbl.mapAll {} fun _ v =>
      { v with heatRd := v.heatRd / d, heatWr := v.heatWr / d, heatAt := v.heatAt / d, candCnt := v.candCnt / d } } }

end Sys2Proof.Machine
end

