-- ==== Sys2Proof/Machine/Packet.lean ====
section
/-! DEFINITION. Packets (R263 to R265): the header as bytes, CRC-32, the trailer, responses, and the streams they name. -/
namespace Sys2Proof.Machine

/-- One bit of a reflected CRC of polynomial `poly`. -/
def crcBit (poly c : Nat) : Nat := if c % 2 = 1 then (c / 2) ^^^ poly else c / 2

/-- One byte of a reflected CRC. -/
def crcByte (poly c : Nat) (b : Byte) : Nat :=
  let f := crcBit poly
  f (f (f (f (f (f (f (f (c ^^^ b.toNat))))))))

/-- CRC-32: polynomial 0x04C1_1DB7 reflected, initial and final all ones (R265). -/
def crc32 (bytes : List Byte) : Nat := (bytes.foldl (crcByte 0xEDB88320) 0xFFFFFFFF) ^^^ 0xFFFFFFFF

/-- The 256-bit header (R263). -/
def Pkt.headerNat (p : Pkt) : Nat :=
  p.dest + p.src * 2 ^ 20 + p.pkey * 2 ^ 40 + p.tc * 2 ^ 56 + b2n p.rsp * 2 ^ 59 + b2n p.epoch * 2 ^ 60 +
  b2n p.ord * 2 ^ 61 + b2n p.retx * 2 ^ 62 + p.opcode * 2 ^ 64 + p.fn * 2 ^ 72 + b2n p.w8 * 2 ^ 77 +
  p.length * 2 ^ 80 + p.window * 2 ^ 96 + p.offset * 2 ^ 112 + p.seq * 2 ^ 160 + p.stag * 2 ^ 176 +
  p.ackedLow * 2 ^ 200 + p.tag * 2 ^ 216 + p.ctx * 2 ^ 231 + p.status * 2 ^ 240 + p.life * 2 ^ 248 +
  p.rsvd % 2 * 2 ^ 63 + p.rsvd / 2 % 4 * 2 ^ 78 + p.rsvd / 8 % 8 * 2 ^ 93

/-- The virtual channel of a class: 2 × TC + K, K = 1 for responses (R190). -/
def vcOf (tc : Nat) (rsp : Bool) : Nat := 2 * tc + b2n rsp

/-- The packet that a header spells, with its payload and trailer (R263). -/
def pktOfHeader (h : Nat) (payload : List Byte) (crc mark words : Nat) : Pkt :=
  { dest := bitsOf h 19 0, src := bitsOf h 39 20, pkey := bitsOf h 55 40, tc := bitsOf h 58 56, rsp := bitOf h 59
    epoch := bitOf h 60, ord := bitOf h 61, retx := bitOf h 62, opcode := bitsOf h 71 64, fn := bitsOf h 76 72
    w8 := bitOf h 77, length := bitsOf h 92 80, window := bitsOf h 111 96, offset := bitsOf h 159 112
    seq := bitsOf h 175 160, stag := bitsOf h 199 176, ackedLow := bitsOf h 215 200, tag := bitsOf h 230 216
    ctx := bitsOf h 239 231, status := bitsOf h 247 240, life := bitsOf h 255 248
    rsvd := bitsOf h 63 63 + 2 * bitsOf h 79 78 + 8 * bitsOf h 95 93
    payload := payload, crc := crc, mark := mark, words := words }

/-- Payload bytes P that a packet carries: LENGTH, and 0 for a GET (R265). -/
def Pkt.extent (p : Pkt) : Nat := if p.opcode = 0x02 then 0 else p.length

/-- The packet's length in 8-byte words: 5 + ⌈P / 8⌉ (R265). -/
def Pkt.wordCount (p : Pkt) : Nat := 5 + (p.extent + 7) / 8

/-- The CRC-32 of a packet's header and payload (R265). -/
def Pkt.crcOf (p : Pkt) : Nat := crc32 (natLE 32 p.headerNat ++ p.payload)

/-- The packet with its trailer computed, as at every transmission (R265). -/
def Pkt.seal (p : Pkt) : Pkt := { p with crc := p.crcOf, mark := 0xA5, words := p.wordCount }

/-- The bytes of a packet on the wire (R265). -/
def Pkt.wire (p : Pkt) : List Byte :=
  natLE 32 p.headerNat ++ p.payload ++ List.replicate ((8 - p.payload.length % 8) % 8) 0 ++
    natLE 4 p.crc ++ natLE 1 p.mark ++ natLE 1 0 ++ natLE 2 p.words

/-- OPCODE is known and LENGTH is one its row allows (R264, R410). -/
def Pkt.rowOk (p : Pkt) : Bool :=
  match p.opcode with
  | 0x01 => !p.rsp && 1 ≤ p.length && p.length ≤ 4096
  | 0x02 => !p.rsp && 1 ≤ p.length && p.length ≤ 4096
  | 0x03 => !p.rsp && p.length = 16
  | 0x04 => !p.rsp && p.length = 8
  | 0x08 => !p.rsp && p.length = 0
  | 0x09 => !p.rsp && p.length = 16
  | 0x81 => p.rsp && p.length = 0
  | 0x82 => p.rsp && if p.status = stOK then 1 ≤ p.length && p.length ≤ 4096 else p.length = 0
  | 0x83 => p.rsp && p.length = 8
  | 0x88 => p.rsp && p.length = 0
  | 0x8A => p.rsp && p.length = 0
  | 0x8F => p.rsp && p.length = 0
  | 0x20 => p.length = 24
  | 0x21 => 1 ≤ p.length && p.length ≤ 4096
  | 0x22 => 1 ≤ p.length && p.length ≤ 4096
  | 0x23 => 17 ≤ p.length && p.length ≤ 4096
  | 0x24 => p.length = 24
  | 0x25 => p.length = 16
  | 0x26 => p.length = 32
  | _ => false

/-- OPCODE names a row (R264, R410). -/
def Pkt.known (p : Pkt) : Bool :=
  [0x01, 0x02, 0x03, 0x04, 0x08, 0x09, 0x81, 0x82, 0x83, 0x88, 0x8A, 0x8F].contains p.opcode ||
    (0x20 ≤ p.opcode && p.opcode ≤ 0x26)

/-- CRC, word count, byte 4, OPCODE and LENGTH are right: the first row of R273. -/
def Pkt.intact (p : Pkt) : Bool :=
  p.rowOk && p.payload.length = p.extent && p.crc = p.crcOf && p.mark = 0xA5 && p.words = p.wordCount

/-- The stream of a class toward a node: 2 × node + S, S = 1 for classes 4 to 7 (R267). -/
def streamOf (node tc : Nat) : Nat := 2 * node + (if 4 ≤ tc then 1 else 0)

/-- The node identifier of the block (R671). -/
def State.node (s : State) : Nat := s.rd NODE_ID.NODE

/-- LIFE of a packet sent now: fabric time bits [19:12] (R263). -/
def State.life (s : State) : Nat := s.nowNs / 4096 % 256

/-- Puts a packet to the scheduler, stamped with the epoch bit and LIFE of now and its CRC (R32, R263, R280). -/
def emit (s : State) (f : Flow) (p : Pkt) : State :=
  { s with out := s.out ++ [{ flow := f, pkt := { p with epoch := s.rd RTR_EPOCH.EPOCH % 2 = 1, life := s.life }.seal }] }

/-- A packet that the router has delivered leaves its list as the unit takes it (R231). -/
def takeDelivered (s : State) (p : Pkt) : State := { s with rtr := { s.rtr with deliver := s.rtr.deliver.erase p } }

/-- The response to a request (R263). -/
def respondTo (s : State) (q : Pkt) (opcode status : Nat) (payload : List Byte) : State :=
  emit s .response
    { dest := q.src, src := s.node, pkey := q.pkey, tc := q.tc, rsp := true, opcode := opcode
      length := payload.length, seq := q.seq, stag := q.stag, tag := q.tag, ctx := q.ctx, status := status
      payload := payload }

/-- PKT_LIFE + 1 lifetimes in fabric time units: the age beyond which no packet is accepted (R269, R271). -/
def State.lifetime (s : State) : Nat := ns (4096 * (s.rd XPT_CFG.PKT_LIFE + 1))

def State.peer (s : State) (i : Nat) : Peer := s.xpt.peers.get {} i
def State.setPeer (s : State) (i : Nat) (p : Peer) : State :=
  { s with xpt := { s.xpt with peers := s.xpt.peers.set {} i p } }

/-- TX_LOW: the oldest unresolved sequence number of the current numbering, or TX_NEXT (R267). -/
def txLow (s : State) (i : Nat) : Nat :=
  let p := s.peer i
  let ages := (s.xpt.oot.filter fun e => e.2.state = 2 && streamOf e.2.peer e.2.tc = i && e.2.stag = p.txStag).map
    fun e => (p.txNext + 65536 - e.2.seq) % 65536
  (p.txNext + 65536 - ages.foldl max 0) % 65536

/-- Draws the next STAG: XPT_STAG.NEXT, which then advances, skipping 0, modulo 2^24 (R268). The value is stored in the
Burrow record each time bits [15:0] pass 0. -/
def drawStag (s : State) : Nat × State :=
  let v := s.rd XPT_STAG.NEXT
  let n := if (v + 1) % 2 ^ 24 = 0 then 1 else v + 1
  let s1 := s.wr XPT_STAG.NEXT n
  (v, if n % 65536 < v % 65536 then putStag s1 n else s1)

end Sys2Proof.Machine
end

