-- ==== Sys2Proof/Machine/Coding.lean ====
section
/-! DEFINITION. Line coding: the scrambler, the PAM4 frame with its stuffing, control frames (R133 to R139), the
RS(264,256) code and the CRC-32C of a flit (R177, R178). -/
namespace Sys2Proof.Machine

/-- One step of the scrambler (R134): its output bit and its next state. -/
def scrStep (s : Nat) : Nat × Nat :=
  let o := (s / 2 ^ 30 + s / 2 ^ 27) % 2
  (o, s * 2 % 2 ^ 31 + o)

/-- Bits XORed with the generator's sequence (R134). -/
def scramble : List Nat → Nat → List Nat × Nat
  | [], s => ([], s)
  | b :: t, s =>
    let (o, s1) := scrStep s
    let (r, s2) := scramble t s1
    (((b + o) % 2) :: r, s2)

/-- The seed of a lane's generator (R135). -/
def laneSeed (linkSeed l : Nat) (fromLeader : Bool) : Nat :=
  let v := (if fromLeader then linkSeed else linkSeed ^^^ 0x2AAAAAAA) ^^^ ((l + 1) * 0x01010101)
  if v % 2 ^ 31 = 0 then 0x7FFFFFFF else v % 2 ^ 31

/-- The bits of bytes, bit 0 of each byte first (R133, R179). -/
def bitsOfBytes (b : List Byte) : List Nat := b.flatMap fun x => (List.range 8).map fun i => x.toNat / 2 ^ i % 2

/-- Bytes from bits, bit 0 of each byte first. -/
def bytesOfBits : Nat → List Nat → List Byte
  | 0, _ => []
  | n + 1, l =>
    BitVec.ofNat 8 ((l.take 8).foldr (fun b a => b + 2 * a) 0) :: bytesOfBits n (l.drop 8)

/-- The level of two bits, the first the most significant: 00, 01, 11, 10 are L0 to L3 (R133). -/
def grayLevel (a b : Nat) : Nat := if a = 0 then b else 3 - b

/-- The two bits of a level (R133). -/
def grayBits (l : Nat) : List Nat := match l % 4 with | 0 => [0, 0] | 1 => [0, 1] | 2 => [1, 1] | _ => [1, 0]

/-- The levels of a list of bits. -/
def levelsOf : List Nat → List Nat
  | a :: b :: t => grayLevel a b :: levelsOf t
  | _ => []

/-- A run of identical levels (R137). -/
structure Run where
  level : Nat := 0
  count : Nat := 0
deriving DecidableEq, Repr

/-- The run after a UI at level `l`. -/
def Run.feed (r : Run) (l : Nat) : Run := if l = r.level ∧ r.count ≠ 0 then { r with count := r.count + 1 } else ⟨l, 1⟩

/-- Transition fill: the one of L0 and L3 that differs from the preceding level (R137); after L1 or L2, where
both do, L0 (log entry 79). -/
def fillLevel (r : Run) : Nat := if r.level = 0 ∧ r.count ≠ 0 then 3 else 0

/-- A data frame of `n` more UI (R137, R138): stuff symbols after runs of 39, at most four of them, then fill. Answers
the levels, the run and whether a fifth stuff symbol was needed. -/
def txFrame : Nat → Run → Nat → Bool → List Nat → List Nat × Run × Bool
  | 0, r, _, ex, _ => ([], r, ex)
  | n + 1, r, stuffs, ex, syms =>
    let ex' := ex || (r.count = 39 && stuffs = 4)
    let l := if ex' then fillLevel r else if r.count = 39 then 3 - r.level else match syms with | x :: _ => x | [] => fillLevel r
    let stuffed := !ex' && r.count = 39
    let r' : Run := if stuffed then ⟨l, 1⟩ else r.feed l
    let (out, r2, e) := txFrame n r' (if stuffed then stuffs + 1 else stuffs) ex' (if ex' || stuffed then syms else syms.drop 1)
    (l :: out, r2, e)

/-- The reading of a data frame's levels (R137, R138): the codeword symbols, the run, and whether the frame is lost. -/
def rxFrame : List Nat → Run → Nat → Bool → Nat → List Nat × Run × Bool
  | [], r, _, ex, _ => ([], r, ex)
  | l :: t, r, stuffs, ex, left =>
    let ex' := ex || (r.count = 39 && stuffs = 4)
    let stuffed := !ex' && r.count = 39
    let r' : Run := if stuffed then ⟨l, 1⟩ else r.feed l
    let take := !ex' && !stuffed && left ≠ 0
    let (out, r2, e) := rxFrame t r' (if stuffed then stuffs + 1 else stuffs) ex' (if take then left - 1 else left)
    (if take then l :: out else out, r2, e)

/-- The marker of a control frame (R139). -/
def ctlMarker : List Byte := [0x96, 0x3C, 0xE1, 0x5A, 0x87, 0x2D, 0xF0, 0x4B]

/-- One bit of the CRC-16 of polynomial 0x1021. -/
def crc16Bit (c : Nat) : Nat := if 0x8000 ≤ c then (c * 2 % 65536) ^^^ 0x1021 else c * 2

/-- CRC-16: polynomial 0x1021, initial value 0xFFFF (R139). -/
def crc16 (b : List Byte) : Nat :=
  b.foldl (fun c x => crc16Bit (crc16Bit (crc16Bit (crc16Bit (crc16Bit (crc16Bit (crc16Bit (crc16Bit
    (c ^^^ (x.toNat * 256)))))))))) 0xFFFF

/-- The bytes of a control frame under an inversion (R133). -/
def ctlBytes (inverted : Bool) (b : List Byte) : List Byte := if inverted then b.map (· ^^^ 0x55) else b

/-- The frame shows the marker under one of the two polarities: whether inverted (R140). -/
def ctlPolarity (b : List Byte) : Option Bool :=
  if b.take 8 = ctlMarker then some false else if (ctlBytes true b).take 8 = ctlMarker then some true else none

/-- The CRC of a control frame holds (R139). -/
def ctlOk (b : List Byte) : Bool := b.length = 34 && leAt b 32 2 = crc16 (b.take 32)

/-- CRC-32C: the Castagnoli polynomial reflected, initial and final all ones (R177). -/
def crc32c (bytes : List Byte) : Nat := (bytes.foldl (crcByte 0x82F63B78) 0xFFFFFFFF) ^^^ 0xFFFFFFFF

/-- Multiplication by α in GF(2^8) with x^8 + x^4 + x^3 + x^2 + 1 (R178). -/
def gfDouble (a : Nat) : Nat := if 128 ≤ a then (a * 2 % 256) ^^^ 0x1D else a * 2

/-- Multiplication in GF(2^8). -/
def gfMulN : Nat → Nat → Nat → Nat
  | 0, _, _ => 0
  | n + 1, a, b => (if b % 2 = 1 then a else 0) ^^^ gfMulN n (gfDouble a) (b / 2)

def gfMul (a b : Nat) : Nat := gfMulN 8 a b

/-- Powers in GF(2^8). -/
def gfPow (a : Nat) : Nat → Nat
  | 0 => 1
  | n + 1 => gfMul a (gfPow a n)

/-- The inverse in GF(2^8): a^254. -/
def gfInv (a : Nat) : Nat := gfPow a 254

/-- The generator's coefficients below x^8, from x^7 down: the product of (x − α^i) for i = 0 to 7 (R178). -/
def rsGen : List Nat :=
  (List.range 8).foldl (fun (g : List Nat) i =>
    let r := gfPow 2 i
    (List.range (g.length + 1)).map fun j =>
      (g.getD j 0) ^^^ (if j = 0 then 0 else gfMul r (g.getD (j - 1) 0))) [1] |>.drop 1

/-- The parity bytes of a message: the remainder of message × x^8 by the generator (R178). -/
def rsParity (msg : List Byte) : List Byte :=
  (msg.foldl (fun (r : List Nat) b =>
    let f := b.toNat ^^^ r.getD 0 0
    (List.range 8).map fun j => (if j = 7 then 0 else r.getD (j + 1) 0) ^^^ gfMul f (rsGen.getD j 0))
    (List.replicate 8 0)).map (BitVec.ofNat 8)

/-- The value of the received word at α^i, by Horner's rule. -/
def rsSyndrome (w : List Byte) (i : Nat) : Nat := w.foldl (fun a b => gfMul a (gfPow 2 i) ^^^ b.toNat) 0

def rsSyndromes (w : List Byte) : List Nat := (List.range 8).map (rsSyndrome w)

/-- One row minus `f` times another. -/
def gfRowSub (a b : List Nat) (f : Nat) : List Nat := List.zipWith (fun x y => x ^^^ gfMul f y) a b

/-- Gauss elimination over GF(2^8) of rows whose last entry is the right side; `none` where a column has no pivot. -/
def gfSolve : Nat → List (List Nat) → Option (List Nat)
  | 0, _ => some []
  | n + 1, rows =>
    match rows.find? (fun r => r.getD 0 0 ≠ 0) with
    | none => none
    | some p =>
      let p1 := p.map (gfMul (gfInv (p.getD 0 0)))
      let rest := (rows.erase p).map fun r => (gfRowSub r p1 (r.getD 0 0)).drop 1
      match gfSolve n rest with
      | none => none
      | some xs =>
        let sum := (List.zipWith gfMul ((p1.drop 1).take n) xs).foldl (· ^^^ ·) 0
        some ((p1.getD (n + 1) 0 ^^^ sum) :: xs)

/-- The locators and magnitudes that explain the syndromes by exactly `v` symbol errors, if any do. A locator is named
by its power of α. -/
def rsErrors (syn : List Nat) (v : Nat) : Option (List (Nat × Nat)) :=
  let sys := (List.range v).map fun r => (List.range (v + 1)).map fun c => syn.getD (r + c) 0
  match gfSolve v sys with
  | none => none
  | some lam =>
    -- lam lists the coefficients of the locator polynomial below x^v, from the constant on
    let val (x : Nat) : Nat := ((lam ++ [1]).reverse).foldl (fun a c => gfMul a x ^^^ c) 0
    let pos := (List.range 255).filter fun e => val (gfPow 2 e) = 0
    if pos.length ≠ v then none else
    let vander := (List.range v).map fun i => (pos.map fun e => gfPow (gfPow 2 e) i) ++ [syn.getD i 0]
    match gfSolve v vander with
    | none => none
    | some mag =>
      let ok := (List.range 8).all fun i =>
        (List.zipWith (fun e y => gfMul y (gfPow (gfPow 2 e) i)) pos mag).foldl (· ^^^ ·) 0 = syn.getD i 0
      if ok && mag.all (· ≠ 0) then some (List.zip pos mag) else none

/-- The positions of a word that share the locator α^e: coefficient of x^(263−k), and the powers of α repeat after
255, so the first nine bytes share theirs with the last nine. -/
def rsPlaces (e : Nat) : List Nat := if e ≤ 8 then [8 - e, 263 - e] else [263 - e]

/-- Every way to place located errors in a word: the corrected word and the positions corrected. -/
def rsPatch : List (Nat × Nat) → List (List Byte × List Nat) → List (List Byte × List Nat)
  | [], l => l
  | (e, y) :: t, l =>
    rsPatch t (l.flatMap fun w => (rsPlaces e).map fun k => (w.1.set k (w.1.getD k 0 ^^^ BitVec.ofNat 8 y), w.2 ++ [k]))

/-- The decoder (R178): the words that correct at most 4 symbols. -/
def rsDecode (w : List Byte) : List (List Byte × List Nat) :=
  let syn := rsSyndromes w
  if syn.all (· = 0) then [(w, [])] else
  match (List.range 4).findSome? (fun v => rsErrors syn (v + 1)) with
  | some e => rsPatch e [(w, [])]
  | none => []

/-- The codeword of a flit (R178). -/
def rsEncode (flit : List Byte) : List Byte := flit ++ rsParity flit

end Sys2Proof.Machine
end

