-- ==== Sys2Proof/Machine/Lanes.lean ====
section
/-! DEFINITION. The lane complex and Owl (R133 to R174): port states and training, control frames, adaptation, loss of
lock, sleep of lanes, eye scans. What a receiver measures (signal, offset, arrival, an eye) is a command's operand. -/
namespace Sys2Proof.Machine

def State.lanePort (s : State) (p : Nat) : LanePort := s.lanes.ports.get {} p
def State.setLanePort (s : State) (p : Nat) (v : LanePort) : State :=
  { s with lanes := { s.lanes with ports := s.lanes.ports.set {} p v } }
def State.lane (s : State) (k : Nat) : LaneIo := s.lanes.lanes.get {} k
def State.setLane (s : State) (k : Nat) (v : LaneIo) : State :=
  { s with lanes := { s.lanes with lanes := s.lanes.lanes.set {} k v } }

/-- LAN_PORT_STATUS.STATE of a port (R142). -/
def State.laneState (s : State) (p : Nat) : Nat := s.rd (LAN_PORT_STATUS.STATE p)
def setLaneState (s : State) (p v : Nat) : State := s.wr (LAN_PORT_STATUS.STATE p) v

/-- The physical lanes of a port that the build has (R6, R11). -/
def lanesOf (s : State) (p : Nat) : List Nat := (List.range s.laneCount).map fun i => 8 * p + i

/-- Applies `f` to every lane of a port. -/
def mapLanes (s : State) (p : Nat) (f : LaneIo → LaneIo) : State :=
  (lanesOf s p).foldl (fun t k => t.setLane k (f (t.lane k))) s

/-- Bits set in a mask of 8. -/
def popcount8 (m : Nat) : Nat := (List.range 8).countP fun i => bitOf m i

/-- The width and its code: 8, 4, 2 lanes are 3, 2, 1 (R163). -/
def widthCode (w : Nat) : Nat := if 8 ≤ w then 3 else if 4 ≤ w then 2 else if 2 ≤ w then 1 else 0
def widthOfCode (c : Nat) : Nat := match c with | 3 => 8 | 2 => 4 | 1 => 2 | _ => 0

/-- The largest width of {8, 4, 2}, {4, 2} in a 4-lane build, that `n` lanes allow (R148). -/
def widthFor (s : State) (n : Nat) : Nat := widthOfCode (widthCode (min n s.laneCount))

/-- The lowest `w` bits set in a mask, as a list of their numbers. -/
def lowest (m w : Nat) : List Nat := ((List.range 8).filter fun i => bitOf m i).take w

/-- A fresh candidate seed: 31 bits, not zero, from the Seal unit's random source, or from its counter while RNG_OK is 0
(R135, R513). -/
def drawSeed (s : State) : Nat × State :=
  if s.on SEA_STATUS.RNG_OK then (s.free % (2 ^ 31 - 1) + 1, s.useFree)
  else (s.sea.seedCounter % (2 ^ 31 - 1) + 1, { s with sea := { s.sea with seedCounter := s.sea.seedCounter + 1 } })

/-- The attempt in progress, or a new one, starts with the training configuration of now (R161, R163). -/
def beginAttempt (s : State) (p : Nat) : State :=
  (s.bump (LAN_PORT_STATUS.ATTEMPTS p) 1).setLanePort p
    { s.lanePort p with cfg := (s.reg LAN_TRAIN_CFG.ADAPT_MS.addr).toNat, timer := none }

-- LAN_TRAIN_CFG as the attempt took it (R161)
def LanePort.adaptMs (v : LanePort) : Nat := bitsOf v.cfg 3 0
def LanePort.alignTmo (v : LanePort) : Nat := bitsOf v.cfg 11 4
def LanePort.exchTmo (v : LanePort) : Nat := bitsOf v.cfg 19 12
def LanePort.offsetPpm (v : LanePort) : Nat := bitsOf v.cfg 23 20
def LanePort.retries (v : LanePort) : Nat := bitsOf v.cfg 26 24

/-- Starts the port's state timer. -/
def laneTimer (s : State) (p n : Nat) : State := s.setLanePort p { s.lanePort p with timer := some (s.after n) }

/-- Takes the lanes of a port out of data. -/
def lanesIdle (s : State) (p : Nat) : State := (lanesOf s p).foldl (fun t k => t.wr (LAN_LANE_STATUS.IN_USE k) 0) s

/-- What the lanes of a port send now. -/
def State.putWire (s : State) (p : Nat) (w : List (Nat × List TxFrame)) : State :=
  { s with lanes := { s.lanes with wire := s.lanes.wire.put p w } }

/-- The same on every lane that is not excluded; an excluded lane is idle (R142). -/
def sendAll (s : State) (p : Nat) (f : Nat → List TxFrame) : State :=
  s.putWire p ((List.range s.laneCount).map fun i => (i, if (s.lane (8 * p + i)).excluded then [.idle] else f i))

/-- DETECT with a new attempt: PRBS13 on every lane (R142). -/
def enterDetect (s : State) (p : Nat) : State :=
  sendAll (setLaneState (beginAttempt (lanesIdle s p) p) p 2) p fun _ => [.prbs 13]

/-- A retrain command of the link layer (R142): it acts in ACTIVE, DOZE and DORMOUSE. -/
def laneRetrain (s : State) (p : Nat) : State :=
  if s.laneState p = 6 ∨ s.laneState p = 7 ∨ s.laneState p = 8 then enterDetect s p else s

/-- A failed attempt (R142): its cause, its report, and another attempt in state `again` while attempts remain, else FAILED.
The class `cls` of the causes ALIGN, SKEW, EXCHANGE and LOOP is F2 (DESIGN CHOICE, log entry 79). -/
def attemptFails (s : State) (p cause cls again : Nat) : State :=
  let s1 := report (s.wr (LAN_PORT_STATUS.FAIL_CAUSE p) cause) 0x0C cls cause p
  if s.rd (LAN_PORT_STATUS.ATTEMPTS p) < (s.lanePort p).retries then
    if again = 1 then laneTimer (setLaneState (beginAttempt s1 p) p 1) p 200000 else enterDetect s1 p
  else setLaneState (s1.setLanePort p { s1.lanePort p with timer := none }) p 9

/-- The bit errors that a test finds, lane by lane (R159). -/
def testErrors (s : State) (p : Nat) (errs : List Nat) : State :=
  (List.range s.laneCount).foldl (fun t i => t.bump (LAN_LANE_ERR.CORR_SYM (8 * p + i)) (errs.getD i 0)) s

/-- What a port in TEST sends (R159). -/
def testFrame (s : State) (p : Nat) : TxFrame :=
  match s.rd (LAN_PORT_CFG.TEST p) with | 1 => .prbs 7 | 2 => .prbs 13 | 3 => .prbs 31 | _ => .loop

/-- PORT_ON (R142, R159): the PLL starts, or the test; `errs` are the bit errors that the test finds on each lane, at
its start or, while it runs, since. The PLL of a test counts as locked at once (log entry 79). -/
def portOn (s : State) (p : Nat) (errs : List Nat) : State :=
  if !s.portPresent p then s
  else if s.laneState p = 10 then testErrors s p errs
  else if s.laneState p ≠ 0 then s else
  let s1 := ((s.wr (LAN_PORT_CFG.OFF p) 0).wr (LAN_PORT_STATUS.ATTEMPTS p) 0).wr (LAN_PORT_STATUS.FAIL_CAUSE p) 0
  if s.rd (LAN_PORT_CFG.TEST p) ≠ 0 then
    sendAll (testErrors ((setLaneState s1 p 10).wr (LAN_PORT_STATUS.PLL_LOCKED p) 1) p errs) p fun _ => [testFrame s p]
  else
    let s2 := mapLanes s1 p fun l => { l with excluded := false, aligned := false }
    laneTimer (setLaneState (beginAttempt s2 p) p 1) p 200000

/-- A test that IJTAG_ACCESS starts (R159): as TEST and OFF written, while the port is Off. -/
def portTest (s : State) (p : Nat) (errs : List Nat) (test : Nat) : State :=
  if s.laneState p = 0 ∧ 1 ≤ test ∧ test ≤ 4 then portOn (s.wr (LAN_PORT_CFG.TEST p) test) p errs
  else if s.laneState p = 10 then portOn s p errs else s

/-- The lane side of PORT_OFF (R142): electrical idle, the PLL stopped. -/
def lanesOff (s : State) (p : Nat) : State :=
  let s1 := lanesIdle (setLaneState (s.wr (LAN_PORT_CFG.OFF p) 1) p 0) p
  let s2 := (s1.wr (LAN_PORT_STATUS.PLL_LOCKED p) 0).wr (LAN_PORT_STATUS.WIDTH p) 0
  sendAll (s2.setLanePort p { s2.lanePort p with timer := none }) p fun _ => [.idle]

/-- RECAL (R142): any state but FAILED; ready drops, the PLL restarts. -/
def portRecal (s : State) (p : Nat) : State :=
  if !s.portPresent p ∨ s.laneState p = 9 then s else
  laneTimer (setLaneState (beginAttempt ((lanesIdle s p).wr (LAN_PORT_STATUS.PLL_LOCKED p) 0) p) p 1) p 200000

/-- LANE_PLL_LOCK (R142). -/
def lanePllLock (s : State) (p : Nat) : State :=
  if s.laneState p ≠ 1 ∨ s.due (s.lanePort p).timer then s else
  let s1 := setLaneState (s.wr (LAN_PORT_STATUS.PLL_LOCKED p) 1) p 2
  sendAll (s1.setLanePort p { s1.lanePort p with timer := none }) p fun _ => [.prbs 13]

/-- LANE_PLL_TMO, the lane side (R142, R144). -/
def lanePllTmo (s : State) (p : Nat) : State :=
  if s.laneState p = 1 ∧ s.due (s.lanePort p).timer then
    attemptFails (s.bump (LAN_PORT_HOLD.LOCK_TMO p) 1) p 1 3 1
  else s

/-- A lane's equalisers start again from their seeds (R151, R152). -/
def seedEq (s : State) (k : Nat) : State :=
  ((s.setReg (LAN_EQ_LIVE_TX.PRE1 k).addr (s.reg (LAN_EQ_SEED_TX.PRE1 k).addr)).setReg
    (LAN_EQ_LIVE_RX.CTLE k).addr (s.reg (LAN_EQ_SEED_RX.CTLE k).addr)).wr (LAN_LANE_STATUS.CLAMPED k) 0

/-- SIGNAL_DETECT (R142, R151, R152): signal on at least 2 lanes; the equalisers start from their seeds. -/
def signalDetect (s : State) (p mask : Nat) : State :=
  if s.laneState p ≠ 2 ∨ popcount8 (mask % 2 ^ s.laneCount) < 2 then s else
  let s1 := (lanesOf s p).foldl seedEq s
  laneTimer (setLaneState s1 p 3) p (1000000 * (s.lanePort p).adaptMs)

/-- The five receiver parameters of R167: highest bit, lowest bit, whether two's complement. -/
def rxParams : List (Nat × Nat × Bool) := [(4, 0, false), (9, 5, false), (16, 10, true), (22, 17, true), (28, 23, true)]

/-- A receiver parameter of a word as an integer. -/
def rxParam (w : Word) (f : Nat × Nat × Bool) : Int :=
  let v := bitsOf w.toNat f.1 f.2.1
  let n := f.1 + 1 - f.2.1
  if f.2.2 ∧ 2 ^ (n - 1) ≤ v then (v : Int) - 2 ^ n else v

/-- Writes a receiver parameter, kept in its field's range. -/
def setRxParam (w : Word) (f : Nat × Nat × Bool) (v : Int) : Word :=
  let n := f.1 + 1 - f.2.1
  let lo : Int := if f.2.2 then -(2 ^ (n - 1)) else 0
  let hi : Int := if f.2.2 then 2 ^ (n - 1) - 1 else 2 ^ n - 1
  putBits w f.1 f.2.1 ((max lo (min hi v)) % 2 ^ n).toNat

/-- A lane's live receiver settings within seed ± BOUND (R151). -/
def boundLive (s : State) (k : Nat) (w : Word) : Word :=
  let seed := s.reg (LAN_EQ_SEED_RX.CTLE k).addr
  let b : Int := s.rd LAN_ADAPT_CFG.BOUND
  rxParams.foldl (fun x f => setRxParam x f (max (rxParam seed f - b) (min (rxParam seed f + b) (rxParam w f)))) 0#32

/-- Some parameter stands at its bound. -/
def atBound (s : State) (k : Nat) (w : Word) : Bool :=
  let seed := s.reg (LAN_EQ_SEED_RX.CTLE k).addr
  let b := s.rd LAN_ADAPT_CFG.BOUND
  rxParams.any fun f => b ≤ (rxParam w f - rxParam seed f).natAbs

/-- Writes a lane's live settings and CLAMPED, whose rise reports F0 (R151). -/
def putLive (s : State) (k : Nat) (w : Word) : State :=
  let c := atBound s k w
  let s1 := (s.setReg (LAN_EQ_LIVE_RX.CTLE k).addr w).wr (LAN_LANE_STATUS.CLAMPED k) (b2n c)
  if c && !s.on (LAN_LANE_STATUS.CLAMPED k) then report s1 0x0C 0 0x12 k else s1

/-- The lanes that adaptation has left with settings: those of `live`, by lane of the port, within the bound (R151). -/
def adaptTo (s : State) (p : Nat) (ks : List Nat) (live : List Word) : State :=
  ks.foldl (fun t k => putLive t k (boundLive t k (live.getD (k - 8 * p) (t.reg (LAN_EQ_SEED_RX.CTLE k).addr)))) s

/-- Clears what ALIGN finds on the lanes `ks`, for a new attempt (R146). -/
def clearAlign (s : State) (p : Nat) (ks : List Nat) : State :=
  let s1 := ks.foldl (fun t k => t.setLane k { t.lane k with aligned := false, arrival := 0 }) s
  s1.setLanePort p { s1.lanePort p with
    far := none, farAligned := false, farMask := none, farCount := none, skewBad := false, count := 15, zeroSent := false }

/-- ADAPT_DONE (R142, R145, R151): `ofs` are the lanes' mean offsets in 0.1 ppm, `live` the settings that adaptation
found. -/
def adaptDone (s : State) (p : Nat) (ofs : List Int) (live : List Word) : State :=
  let v := s.lanePort p
  if s.laneState p ≠ 3 ∨ !s.due v.timer then s else
  let used := (List.range s.laneCount).filter fun i => !(s.lane (8 * p + i)).excluded
  if used.any fun i => 10 * v.offsetPpm < (ofs.getD i 0).natAbs then attemptFails s p 2 2 2 else
  let (seed, s2) := drawSeed (clearAlign (adaptTo s p (lanesOf s p) live) p (lanesOf s p))
  laneTimer ((setLaneState s2 p 4).setLanePort p { s2.lanePort p with seed := seed }) p (100000 * v.alignTmo)

/-- The lane's frame as the receiver reads it: the polarity of the marker removed (R139, R140). -/
def readCtl (b : List Byte) (type : Nat) : Option (Bool × List Byte) :=
  match ctlPolarity b with
  | some inv => let x := ctlBytes inv b; if ctlOk x ∧ leAt x 8 1 = type then some (inv, x) else none
  | none => none

/-- One lane finds its marker (R140, R146): inversion, far logical lane, arrival; of two lanes with one logical number
the later is excluded. -/
def alignLane (s : State) (p i arrival : Nat) (inv : Bool) (x : List Byte) : State :=
  let k := 8 * p + i
  let l := s.lane k
  let logical := leAt x 9 1 % 8
  let twin := (lanesOf s p).find? fun j => j ≠ k && (s.lane j).aligned && s.rd (LAN_LANE_STATUS.LOGICAL j) = logical
  let put (t : State) : State := ((t.setLane k { t.lane k with aligned := true, arrival := arrival }).wr
    (LAN_LANE_STATUS.INVERTED k) (b2n inv)).wr (LAN_LANE_STATUS.LOGICAL k) logical
  if l.excluded ∨ s.laneCount ≤ i then s else
  match twin with
  | none => put s
  | some j =>
    if (s.lane j).arrival ≤ arrival then s.setLane k { l with aligned := false, excluded := true }
    else put (s.setLane j { s.lane j with aligned := false, excluded := true })

/-- SKEW_UI of every aligned lane of `ks`; one more than 408 UI behind the earliest is not aligned (R146). -/
def measureSkew (s : State) (p : Nat) (ks : List Nat) : State :=
  let al := ks.filter fun k => (s.lane k).aligned
  let first := al.foldl (fun m k => min m (s.lane k).arrival) (al.foldl (fun m k => max m (s.lane k).arrival) 0)
  al.foldl (fun t k =>
    let d := (t.lane k).arrival - first
    if 408 < d then
      (t.setLane k { t.lane k with aligned := false }).setLanePort p { t.lanePort p with skewBad := true }
    else t.wr (LAN_LANE_STATUS.SKEW_UI k) d) s

/-- Far logical lanes received aligned: this end's RXMASK (R139, R146). -/
def ownMask (s : State) (p : Nat) : Nat :=
  (lanesOf s p).foldl (fun m k => if (s.lane k).aligned then m ||| 2 ^ s.rd (LAN_LANE_STATUS.LOGICAL k) else m) 0

/-- What TS frames carry for the election and for ALIGNED (R139, R147). A SEED marked as agreed is no candidate where one
is known; where none is, the end that sends it leads with it. -/
def takeTs (s : State) (p : Nat) (x : List Byte) : State :=
  let v := s.lanePort p
  let cand := (leAt x 10 3 % 2 ^ 20, leAt x 9 1 / 16, leAt x 13 4 % 2 ^ 31)
  s.setLanePort p { v with
    far := match v.far with
      | some f => some (if 2 ^ 31 ≤ leAt x 13 4 then (cand.1, cand.2.1, f.2.2) else cand)
      | none => some cand
    farAligned := leAt x 18 1 % 2 = 1 }

/-- The frames of one TS of type `type`, lane by lane: (lane of the port, arrival in UI, bytes); the lanes `ks` search
for their markers (R146). -/
def takeTsFrames (s : State) (p type : Nat) (ks : List Nat) (frames : List (Nat × Nat × List Byte)) : State :=
  measureSkew (frames.foldl (fun t f =>
    match readCtl f.2.2 type with
    | some (inv, x) => takeTs (if ks.contains (8 * p + f.1) then alignLane t p f.1 f.2.1 inv x else t) p x
    | none => t) s) p ks

/-- The lanes that search for their markers: all of them in ALIGN (R146). -/
def seekers (s : State) (p : Nat) : List Nat := if s.laneState p = 4 then lanesOf s p else []

/-- TS1 (R146): it acts in ALIGN, and in EXCHANGE for what the election needs. -/
def takeTs1 (s : State) (p : Nat) (frames : List (Nat × Nat × List Byte)) : State :=
  if s.laneState p = 4 ∨ s.laneState p = 5 then takeTsFrames s p 0x1E (seekers s p) frames else s

/-- NODE, port and candidate seed of this end (R139, R147). -/
def ownTriple (s : State) (p : Nat) : Nat × Nat × Nat :=
  (s.node, p, (s.lanePort p).seed)

/-- The triple `a` is lower than `b`, node first (R147). -/
def tripleLt (a b : Nat × Nat × Nat) : Bool :=
  a.1 < b.1 || (a.1 = b.1 && (a.2.1 < b.2.1 || (a.2.1 = b.2.1 && a.2.2 < b.2.2)))

/-- This end leads, where the election is decided: the lower triple, or the transmitter of a permitted loop (R147). -/
def leads (s : State) (p : Nat) : Option Bool :=
  match (s.lanePort p).far with
  | none => none
  | some f =>
    let own := ownTriple s p
    if own = f then (if s.on (LAN_PORT_CFG.LOOPBACK_OK p) then some true else none) else some (tripleLt own f)

/-- The agreed seed (R147). -/
def electedSeed (s : State) (p : Nat) : Nat :=
  match leads s p, (s.lanePort p).far with
  | some false, some f => f.2.2
  | _, _ => (s.lanePort p).seed

/-- What a TS2 says of RXMASK, the seed and the countdown (R148, R149). An RXMASK that differs from the one before
disagrees, as an agreed seed does that is not the elected one (log entry 79): the countdown restarts at 15. -/
def takeTs2Word (s : State) (p : Nat) (x : List Byte) : State :=
  let v := s.lanePort p
  let mask := leAt x 17 1
  let seed := leAt x 13 4
  let differs := (v.farMask.isSome && v.farMask ≠ some mask) || (2 ^ 31 ≤ seed && seed % 2 ^ 31 ≠ electedSeed s p)
  s.setLanePort p { v with
    farMask := some mask, farCount := some (leAt x 19 1)
    count := if differs then 15 else v.count, zeroSent := !differs && v.zeroSent }

/-- TS2 (R148, R149). -/
def takeTs2 (s : State) (p : Nat) (frames : List (Nat × Nat × List Byte)) : State :=
  if s.laneState p ≠ 4 ∧ s.laneState p ≠ 5 then s else
  let s1 := takeTsFrames s p 0x2D (seekers s p) frames
  match frames.findSome? (fun f => readCtl f.2.2 0x2D) with
  | none => s1
  | some (_, x) => takeTs2Word s1 p x

/-- Every lane of `ks` that is not excluded is aligned (R139 STATUS, R146). -/
def alignedAll (s : State) (ks : List Nat) : Bool :=
  let used := ks.filter fun k => !(s.lane k).excluded
  !used.isEmpty && used.all fun k => (s.lane k).aligned

/-- A control frame of this end on lane `i` (R139). SEED is the candidate, marked as agreed in the leader's TS2; in EI
and DX it is the agreed seed (log entry 79). -/
def ctlFrame (s : State) (p i type : Nat) : List Byte :=
  let v := s.lanePort p
  let ts2 : Bool := type = 0x2D
  let seed := if type = 0x1E then v.seed
    else if ts2 then v.seed + (if leads s p = some true then 2 ^ 31 else 0) else v.linkSeed + 2 ^ 31
  let b := ctlMarker ++ natLE 1 type ++ natLE 1 (i + (if s.laneCount = 4 then 8 else 0) + 16 * p) ++ natLE 3 s.node ++
    natLE 4 seed ++ natLE 1 (if ts2 then ownMask s p else 0) ++
    natLE 1 (b2n (alignedAll s (lanesOf s p)) + 2 * s.rd (LAN_PORT_CFG.LOOPBACK_OK p)) ++
    natLE 1 (if ts2 then v.count else 0) ++ List.replicate 12 0
  b ++ natLE 2 (crc16 b)

/-- TS2 goes out on every lane, and COUNT falls; at 0 it stays (R149; log entry 79). -/
def sendTs2 (s : State) (p : Nat) : State :=
  let v := s.lanePort p
  let s1 := sendAll s p fun i => [.ctl (ctlFrame s p i 0x2D)]
  s1.setLanePort p { v with count := v.count - 1, zeroSent := v.zeroSent || v.count = 0 }

/-- The two EI frames and the idle that follows them (R142, R156). -/
def eiFrames (s : State) (p i : Nat) : List TxFrame := [.ctl (ctlFrame s p i 0x4B), .ctl (ctlFrame s p i 0x4B), .idle]

/-- The exit from Doze on a lane: 64 fill frames, then 4 DX frames (R154). -/
def dxFrames (s : State) (p i : Nat) : List TxFrame := .fill 64 :: List.replicate 4 (.ctl (ctlFrame s p i 0x78))

/-- A short training's frames on a lane (R155): PRBS13 to adapt by, TS1, TS2 with its countdown. -/
def shortFrames (s : State) (p i : Nat) : List TxFrame :=
  [.prbs 13, .ctl (ctlFrame s p i 0x1E)] ++ (List.range 16).map fun n =>
    .ctl (ctlFrame (s.setLanePort p { s.lanePort p with count := 15 - n }) p i 0x2D)

/-- The frame slot of a port that is not in data (R142, R149, R155, R159): patterns, TS1 and TS2; idle in Off, PLL_START,
FAILED, Doze and Dormouse, but PRBS13 while a Dormouse wakes (log entry 79). -/
def laneSlot (s : State) (p : Nat) : State :=
  match s.laneState p with
  | 2 => sendAll s p fun _ => [.prbs 13]
  | 3 => sendAll s p fun _ => [.prbs 13]
  | 4 => sendAll s p fun i => [.ctl (ctlFrame s p i 0x1E)]
  | 5 => sendTs2 s p
  | 8 => sendAll s p fun _ => [if (s.lanePort p).timer.isSome then .prbs 13 else .idle]
  | 10 => sendAll s p fun _ => [testFrame s p]
  | _ => sendAll s p fun _ => [.idle]

/-- LAN_PORT_FAR at an EXCHANGE (R165). -/
def putFar (s : State) (p : Nat) : State :=
  match (s.lanePort p).far with
  | some f => (s.wr (LAN_PORT_FAR.FAR_NODE p) f.1).wr (LAN_PORT_FAR.FAR_PORT p) f.2.1
  | none => s

/-- ALIGN_DONE (R142): every lane this end will use is aligned, and the far end says the same. -/
def alignDone (s : State) (p : Nat) : State :=
  let v := s.lanePort p
  if s.laneState p ≠ 4 ∨ s.due v.timer ∨ !alignedAll s (lanesOf s p) ∨ !v.farAligned then s
  else
    let s1 := putFar (setLaneState s p 5) p
    s1.setLanePort p { s1.lanePort p with timer := some (s.after (100000 * v.exchTmo)), count := 15, zeroSent := false }

/-- ALIGN_TMO (R142, R146): lanes without a marker are excluded, until OFF is cleared again (log entry 79); the attempt
fails with ALIGN or SKEW. -/
def alignTmo (s : State) (p : Nat) : State :=
  let v := s.lanePort p
  if s.laneState p ≠ 4 ∨ !(s.due v.timer || v.skewBad) then s else
  let s1 := if v.skewBad then s else mapLanes s p fun l => { l with excluded := l.excluded || !l.aligned }
  attemptFails s1 p (if v.skewBad then 6 else 3) 2 2

/-- The width that both RXMASKs allow (R148). -/
def agreedWidth (s : State) (p : Nat) : Nat :=
  widthFor s (min (popcount8 (ownMask s p)) (popcount8 ((s.lanePort p).farMask.getD 0)))

/-- Marks the lanes that carry data at width `w`, and those aligned (R148, R168). -/
def useLanes (s : State) (p w : Nat) : State :=
  let rx := lowest (s.lanePort p).rxMask w
  (lanesOf s p).foldl (fun t k =>
    let inUse := (t.lane k).aligned && rx.contains (t.rd (LAN_LANE_STATUS.LOGICAL k))
    (t.wr (LAN_LANE_STATUS.IN_USE k) (b2n inUse)).wr (LAN_LANE_STATUS.HEALTHY k) (b2n (t.lane k).aligned)) s

/-- Seeds a lane's generators of both directions (R135), the runs of R137 cleared, the elastic buffer centred (R153). -/
def seedLane (s : State) (p : Nat) (seed : Nat) (leader : Bool) (i : Nat) : State :=
  let k := 8 * p + i
  (s.setLane k { s.lane k with
    txGen := laneSeed seed i leader, rxGen := laneSeed seed (s.rd (LAN_LANE_STATUS.LOGICAL k)) (!leader)
    txLevel := 0, txRun := 0, rxLevel := 0, rxRun := 0, lockLost := false, rxIdle := false, parkedDeep := false }).wr
      (LAN_LANE_STATUS.ELASTIC k) 0

/-- Seeds every lane of a port. -/
def seedLanes (s : State) (p : Nat) (seed : Nat) (leader : Bool) : State :=
  (List.range s.laneCount).foldl (fun t i => seedLane t p seed leader i) s

/-- The end of training (R148, R149): the port becomes ACTIVE, the agreed width `w`, the width in use `cur`. -/
def laneActive (s : State) (p w cur : Nat) (leader : Bool) (seed : Nat) : State :=
  let v := s.lanePort p
  let s1 := s.setLanePort p { v with
    timer := none, linkSeed := seed, txMask := v.farMask.getD 0, rxMask := ownMask s p }
  let s2 := seedLanes (useLanes s1 p cur) p seed leader
  let s3 := ((((s2.wr (LAN_PORT_STATUS.RX_MASK p) (ownMask s p)).wr (LAN_PORT_STATUS.LEADER p) (b2n leader)).wr
    (LAN_PORT_STATUS.WIDTH_MAX p) (widthCode w)).wr (LAN_PORT_STATUS.WIDTH p) (widthCode cur))
  let s4 := setLaneState s3 p 6
  if w < s.laneCount then report s4 0x0C 2 7 p else s4

/-- EXCH_DONE's condition (R149): width and seed agreed, and COUNT at 0 at both ends. -/
def exchReady (s : State) (p : Nat) : Bool :=
  let v := s.lanePort p
  s.laneState p = 5 && !s.due v.timer && 2 ≤ agreedWidth s p && (leads s p).isSome && v.farCount = some 0 && v.zeroSent

/-- EXCH_TMO (R142): the timeout, a width below 2 lanes, or a forbidden loop. -/
def exchTmo (s : State) (p : Nat) : State :=
  let v := s.lanePort p
  if s.laneState p ≠ 5 then s
  else if v.farMask.isSome ∧ agreedWidth s p < 2 then attemptFails s p 7 2 2
  else if v.far = some (ownTriple s p) ∧ !s.on (LAN_PORT_CFG.LOOPBACK_OK p) then attemptFails s p 5 2 2
  else if s.due v.timer then attemptFails s p 4 2 2
  else s

/-- A control frame is recognised by its MARKER on every lane in use of an ACTIVE port at once, or alone on a lane that
carries no data (R141); on a lane where its CRC fails it is ignored (R139). Answers the lanes on which it acts. -/
def ctlLanes (s : State) (p type : Nat) (frames : List (Nat × Nat × List Byte)) : List Nat :=
  let marked := frames.filterMap fun f =>
    let k := 8 * p + f.1
    let x := ctlBytes (s.on (LAN_LANE_STATUS.INVERTED k)) f.2.2
    if f.1 < s.laneCount ∧ x.take 8 = ctlMarker then some (k, x) else none
  let used := (lanesOf s p).filter fun k => s.on (LAN_LANE_STATUS.IN_USE k)
  let all := used.all fun k => marked.any fun m => m.1 = k
  (marked.filter fun m => (all || !used.contains m.1) && ctlOk m.2 && leAt m.2 8 1 = type).map (·.1)

/-- EI (R139, R142, R156): electrical idle follows on these lanes. -/
def takeEi (s : State) (p : Nat) (frames : List (Nat × Nat × List Byte)) : State :=
  if s.laneState p < 6 ∨ 8 < s.laneState p then s else
  (ctlLanes s p 0x4B frames).foldl (fun t k => t.setLane k { t.lane k with rxIdle := true }) s

/-- DX (R139, R154): the lanes realign for the first data frame, their elastic buffers recentred. -/
def takeDx (s : State) (p : Nat) (frames : List (Nat × Nat × List Byte)) : State :=
  if s.laneState p < 6 ∨ 8 < s.laneState p then s else
  (ctlLanes s p 0x78 frames).foldl (fun t k =>
    (t.setLane k { t.lane k with rxIdle := false }).wr (LAN_LANE_STATUS.ELASTIC k) 0) s

/-- The lanes of a port that are in use. -/
def usedLanes (s : State) (p : Nat) : List Nat := (lanesOf s p).filter fun k => s.on (LAN_LANE_STATUS.IN_USE k)

/-- Frames on some lanes, the others silent. -/
def sendOn (s : State) (p : Nat) (ks : List Nat) (f : Nat → List TxFrame) : State :=
  s.putWire p ((List.range s.laneCount).map fun i => (i, if ks.contains (8 * p + i) then f i else [.idle]))

/-- The lane side of a Doze command, `deep` for Dormouse (R142). -/
def laneSleep (s : State) (p : Nat) (deep : Bool) : State :=
  if s.laneState p = 6 then
    let s1 := sendOn s p (usedLanes s p) (eiFrames s p)
    setLaneState (s1.setLanePort p { s1.lanePort p with timer := none }) p (if deep then 8 else 7)
  else s

/-- The lane side of a Doze exit: fill and DX go out, the elastic buffers recentre, generators resume where they stopped
(R136, R154). -/
def laneDozeExit (s : State) (p : Nat) : State :=
  (lanesOf s p).foldl (fun t k => (t.setLane k { t.lane k with rxIdle := false }).wr (LAN_LANE_STATUS.ELASTIC k) 0)
    (setLaneState ((sendOn s p (usedLanes s p) (dxFrames s p)).setLanePort p { s.lanePort p with timer := none }) p 6)

/-- What a short training finds (R152, R155), on the lanes in use: equalisers from their seeds to `live`, a fresh
candidate seed, then the alignment and the exchange by the far TS1 and TS2 frames. -/
def shortTrained (s : State) (p : Nat) (live : List Word) (ts1 ts2 : List (Nat × Nat × List Byte)) : State :=
  let ks := usedLanes s p
  let (seed, s1) := drawSeed (clearAlign (adaptTo (ks.foldl seedEq s) p ks live) p ks)
  let s2 := s1.setLanePort p { s1.lanePort p with seed := seed, timer := (s.lanePort p).timer }
  let on (fs : List (Nat × Nat × List Byte)) := fs.filter fun f => ks.contains (8 * p + f.1)
  let s3 := takeTsFrames (takeTsFrames s2 p 0x1E ks (on ts1)) p 0x2D [] (on ts2)
  match (on ts2).findSome? (fun f => readCtl f.2.2 0x2D) with
  | none => s3
  | some (_, x) => takeTs2Word s3 p x

/-- The short training ends in ACTIVE: its lanes aligned at both ends, width and seed agreed, COUNT down to 0, within
its 40 µs (R155). -/
def shortReady (s : State) (p : Nat) : Bool :=
  let v := s.lanePort p
  v.timer.isSome && !s.due v.timer && alignedAll s (usedLanes s p) && v.farAligned && !v.skewBad &&
    2 ≤ agreedWidth s p && (leads s p).isSome && v.farCount = some 0

/-- The lane side of a short training (R152, R155): a new LINK_SEED by the election, the width in use kept where the
exchange allows it. -/
def laneShortTraining (s : State) (p : Nat) : State :=
  let w := agreedWidth s p
  let s1 := sendOn s p (usedLanes s p) (shortFrames s p)
  laneActive (putFar s1 p) p w (min w (widthOfCode (s.rd (LAN_PORT_STATUS.WIDTH p)))) ((leads s p).getD true) (electedSeed s p)

/-- SHORT_TRAIN_TMO (R155): a wake has not reached ACTIVE within 40 µs; full training, and F1. -/
def shortTrainTmo (s : State) (p : Nat) : State :=
  let t := (s.lanePort p).timer
  if s.laneState p = 8 ∧ t.isSome ∧ s.due t then report (enterDetect s p) 0x0C 1 0x10 p else s

/-- One parameter's background step: toward the bound where it lies outside, else by `d` within it (R151, R152). -/
def stepParam (live seed b d : Int) (freeze : Bool) : Int :=
  if seed + b < live then live - 1
  else if live < seed - b then live + 1
  else if freeze then live
  else max (seed - b) (min (seed + b) (live + d))

/-- ADAPT_STEP (R151, R152), on a lane in use, for a parked lane's adaptation is held: each parameter moves by at most one code; `dirs` are the moves the loop asks for. -/
def adaptStep (s : State) (k : Nat) (dirs : List (Fin 3)) : State :=
  let l := s.lane k
  if s.laneState (k / 8) ≠ 6 ∨ !s.on (LAN_LANE_STATUS.IN_USE k) ∨ s.now < l.lastStep + ns (100000 * s.rd LAN_ADAPT_CFG.PERIOD) then s else
  let live := s.reg (LAN_EQ_LIVE_RX.CTLE k).addr
  let seed := s.reg (LAN_EQ_SEED_RX.CTLE k).addr
  let b : Int := s.rd LAN_ADAPT_CFG.BOUND
  let w := (List.zip rxParams (List.range 5)).foldl (fun x f =>
    setRxParam x f.1 (stepParam (rxParam live f.1) (rxParam seed f.1) b ((dirs.getD f.2 1 : Fin 3).val - 1 : Int)
      (s.on LAN_ADAPT_CFG.FREEZE))) live
  putLive (s.setLane k { l with lastStep := s.now }) k w

/-- The lane Owl is asked to scan is ACTIVE and in use (R157). -/
def owlLaneOk (s : State) (k : Nat) : Bool :=
  k < 96 && s.lanePresent k && s.laneState (k / 8) = 6 && s.on (LAN_LANE_STATUS.IN_USE k)

/-- OWL_SCAN_START (R157, R158, R170): the scan takes the sampler. A UI is 1/212.5 ns. DONE and REFUSED of earlier scans
stand until they are cleared (log entry 79). -/
def owlStart (s : State) (w : Word) : State :=
  if s.on OWL_STATUS.BUSY then s else
  let s1 := ({ s with lanes := { s.lanes with owlJtag := false } } : State).setReg OWL_CTRL.LANE.addr (w &&& 0x0FFF7FFF#32)
  if !owlLaneOk s1 (s1.rd OWL_CTRL.LANE) ∨ s1.rd OWL_CTRL.EYE = 3 then s1.wr OWL_STATUS.REFUSED 1 else
  let s2 := s1.wr OWL_STATUS.BUSY 1
  { s2 with lanes := { s2.lanes with
    owlEnd := some (s.now + 2 ^ (16 + s1.rd OWL_CTRL.DWELL) * 1600000000 / 2125) } }

/-- OWL_SCAN_DONE (R157): the dwell is over, or the lane has left use; `n` mismatches were counted. -/
def owlDone (s : State) (n : Word) : State :=
  if !s.on OWL_STATUS.BUSY then s else
  let fin (t : State) : State := { t.wr OWL_STATUS.BUSY 0 with lanes := { t.lanes with owlEnd := none } }
  if !owlLaneOk s (s.rd OWL_CTRL.LANE) then (fin s).wr OWL_STATUS.REFUSED 1
  else if s.due s.lanes.owlEnd then ((fin s).setReg OWL_COUNT.MISMATCH.addr n).wr OWL_STATUS.DONE 1
  else s

/-- A request through the 1687 public segments takes the sampler (R158): a manual scan ends early, refused. -/
def owlTest (s : State) : State :=
  let s1 := if s.on OWL_STATUS.BUSY then (s.wr OWL_STATUS.BUSY 0).wr OWL_STATUS.REFUSED 1 else s
  { s1 with lanes := { s1.lanes with owlEnd := none, owlJtag := true } }

/-- OWL_HEALTH_SCAN (R158, R174): the smallest eye of a lane in use; the scan takes the sampler back. -/
def owlHealth (s : State) (k width height : Nat) : State :=
  let l := s.lane k
  let early : Bool := match l.scanAt with | some t => decide (s.now < t + ns (10000000 * s.rd OWL_HEALTH_CFG.PERIOD)) | none => false
  if !s.on OWL_HEALTH_CFG.ENABLE ∨ s.on OWL_STATUS.BUSY ∨ !owlLaneOk s k ∨ early then s else
  let s0 : State := { s with lanes := { s.lanes with owlJtag := false } }
  let s1 := (((s0.setLane k { l with scanAt := some s.now }).wr (OWL_SUMMARY.WIDTH k) width).wr
    (OWL_SUMMARY.HEIGHT k) height).wr (OWL_SUMMARY.AGE k) 0
  if width < s.rd OWL_HEALTH_CFG.MIN_WIDTH ∨ height < s.rd OWL_HEALTH_CFG.MIN_HEIGHT then report s1 0x0C 1 0x11 k else s1

/-- OWL_SUMMARY.AGE as it reads: time since the last update in units of 10 ms (R174). -/
def owlAge (s : State) (k : Nat) : Nat :=
  match (s.lane k).scanAt with | some t => min 255 ((s.now - t) / ns 10000000) | none => 255

end Sys2Proof.Machine
end

