-- ==== Sys2Proof/Machine/Route.lean ====
section
/-! DEFINITION. Ports, stripes and buffers of the router as the link layer and the forwarding steps share them (R224 to
R234): usable ports, the stripe hash, the choice of an egress port. -/
namespace Sys2Proof.Machine

def State.link (s : State) (p : Nat) : LinkPort := s.links.get {} p
def State.setLink (s : State) (p : Nat) (v : LinkPort) : State := { s with links := s.links.set {} p v }

/-- LNK_STATUS.STATE of a port (R197). -/
def State.linkState (s : State) (p : Nat) : Nat := s.rd (LNK_STATUS.STATE p)

/-- MPU of virtual channel `v` in 16 B units, by the codes `maxpkt` (R232). -/
def mpuOf (maxpkt v : Nat) : Nat := match bitsOf maxpkt (2 * v + 1) (2 * v) with | 0 => 259 | 1 => 67 | 2 => 19 | _ => 7

/-- The credit account of a channel. -/
def LinkPort.credit (l : LinkPort) (v : Nat) : Credit := l.credits.get {} v
def LinkPort.setCredit (l : LinkPort) (v : Nat) (c : Credit) : LinkPort := { l with credits := l.credits.set {} v c }

/-- A virtual channel is enabled by its advertisement (R190). -/
def Credit.enabled (c : Credit) : Bool := c.advH ≠ 0 || c.advD ≠ 0

/-- Virtual channels enabled in the advertisement in force. -/
def vcEnabled (l : LinkPort) : List Nat := (List.range 16).filter fun v => (l.credit v).enabled

/-- An enabled channel is below its bubble minimum (R232, R234). -/
def bubbleShort (s : State) (p : Nat) : Bool :=
  let l := s.link p
  s.rd (RTR_PORT_CFG.DIR p) ≠ 15 &&
    (vcEnabled l).any fun v => (l.credit v).advD < 2 * mpuOf l.maxpkt v || (l.credit v).advH < 2

/-- The port is usable (R227, R234). -/
def usable (s : State) (p : Nat) : Bool :=
  s.portPresent p && 3 ≤ s.linkState p && s.linkState p ≤ 7 && s.rd (RTR_PORT_CFG.DIR p) ≠ 15 && !bubbleShort s p

/-- The ports of a direction's stripe set, in ascending order (R226). -/
def stripeSet (s : State) (dir : Nat) : List Nat :=
  (List.range s.build.ports).filter fun p => s.rd (RTR_PORT_CFG.DIR p) = dir

/-- The hash of R226. -/
def stripeHash (src dest tc : Nat) : Nat :=
  let h0 := src ^^^ dest ^^^ (tc * 2 ^ 17)
  h0 ^^^ (h0 / 2 ^ 7) ^^^ (h0 / 2 ^ 14)

/-- The port that the hash picks among some ports. -/
def hashPick (l : List Nat) (p : Pkt) : Option Nat := l[stripeHash p.src p.dest p.tc % l.length]?

/-- The usable port that a packet takes toward a direction (R226). -/
def pickEgress (s : State) (dir : Nat) (p : Pkt) : Option Nat := hashPick ((stripeSet s dir).filter (usable s)) p

/-- A routed packet's egress under the ports of now: one that has become unusable is left, and DOWN_HOLD runs until
another is usable (R226, R231). -/
def RtPkt.repoint (s : State) (b : RtPkt) : RtPkt :=
  match b.dir with
  | none => b
  | some d =>
    let keep := match b.egress with | some q => usable s q | none => false
    if keep then b else
    match pickEgress s d b.pkt with
    | some q => { b with egress := some q, lastEgress := some q, downEnd := none }
    | none => { b with
        egress := none
        downEnd := if b.downEnd.isSome then b.downEnd else some (s.now + ns (1000 * s.rd RTR_TMR.DOWN_HOLD)) }

/-- Every routed packet looks for its egress again after a change of the ports. -/
def repoint (s : State) : State := { s with rtr := { s.rtr with bufs := s.rtr.bufs.map (·.repoint s) } }

/-- OLD_FREE rises once the drain deadline has passed and every port is clean (R242, R243). -/
def cleanCheck (s : State) : State :=
  if s.on RTR_EPOCH.DRAINING && s.rtr.deadline.isNone && s.links.all (fun e => e.2.drainMark.isNone) then
    (s.wr RTR_EPOCH.OLD_FREE 1).wr RTR_EPOCH.DRAINING 0
  else s

/-- Data units of 16 B that a packet occupies (R191): ⌈bytes / 16⌉. -/
def Pkt.units (p : Pkt) : Nat := (40 + (p.extent + 7) / 8 * 8 + 15) / 16

end Sys2Proof.Machine
end

