-- ==== Sys2Proof/Machine/LinkBase.lean ====
section
/-! DEFINITION. Link control messages, the capability message and its judgement, verdicts, DOWN and the exchange
(R182, R196 to R204). -/
namespace Sys2Proof.Machine

def setLinkState (s : State) (p v : Nat) : State := s.wr (LNK_STATUS.STATE p) v

/-- A bypass message of 32 × `blen` bytes (R182). -/
def bypassMsg (bclass type blen : Nat) (body : List Byte) : List Byte :=
  let m := [BitVec.ofNat 8 bclass, BitVec.ofNat 8 type] ++ body
  m ++ List.replicate (32 * blen - m.length) 0

/-- Queues a LINK message for a port. -/
def sendLink (s : State) (p type blen : Nat) (body : List Byte) : State :=
  let l := s.link p
  s.setLink p { l with bpLink := l.bpLink ++ [bypassMsg 1 type blen body] }

/-- Takes a LINK message of a port: its arrival, where it waits among those received; now, where it comes alone. -/
def takeLinkMsg (s : State) (p : Nat) (m : List Byte) : State × Nat :=
  let l := s.link p
  match l.rxLink.find? (fun e => e.2 = m) with
  | some e => (s.setLink p { l with rxLink := l.rxLink.erase e }, e.1)
  | none => (s, s.now)

/-- A message is of LINK class and the given type (R196). -/
def isLinkMsg (m : List Byte) (type : Nat) : Bool := leAt m 0 1 = 1 && leAt m 1 1 = type

/-- Inserts a key into an ascending list without repeats. -/
def insertKey (k : Nat) : List Nat → List Nat
  | [] => [k]
  | x :: t => if k < x then k :: x :: t else if k = x then x :: t else x :: insertKey k t

/-- A valid entry of the partition table (R262). -/
def pkeyValid (s : State) (i : Nat) : Bool := s.on (RTR_PKEY.VALID i) && s.rd (RTR_PKEY.KEY i) ≠ 0

/-- A port's partition keys, ascending (R200). -/
def portKeys (s : State) (p : Nat) : List Nat :=
  (List.range 256).foldl (fun l i =>
    if pkeyValid s i && bitOf (s.rd (RTR_PKEY.PORTS i)) p then insertKey (s.rd (RTR_PKEY.KEY i)) l else l) []

/-- PKEY_HASH: the first 8 bytes of SHA-384 over the port's keys (R200). -/
def pkeyHash (s : State) (p : Nat) : List Byte := (sha384 ((portKeys s p).flatMap (natLE 2))).take 8

/-- VC_EN of a port: the channels that its advertisement in force enables (R190, R200). -/
def vcEn (l : LinkPort) : Nat := (vcEnabled l).foldl (fun m v => m + 2 ^ v) 0

/-- The fields of this end's CAP but GEN (R200); `sealReq` is SEAL_REQ as the exchange took it (R215). -/
def capBody (s : State) (p : Nat) (sealReq : Bool) : List Byte :=
  [0x04, BitVec.ofNat 8 (b2n sealReq + 2 * s.rd BDG_TIME_STAT.VALID + 4 * b2n s.configured)] ++
    natLE 4 (s.reg VERSION.MAJOR.addr).toNat ++ natLE 3 s.node ++ natLE 1 p ++
    natLE 4 (s.rd CFG_HASH_LO.HASH_LO) ++ natLE 2 (s.rd CFG_HASH_HI.HASH_HI) ++ natLE 2 (s.rd RTR_EPOCH.EPOCH) ++
    pkeyHash s p ++ natLE 2 (vcEn (s.link p))

/-- This end's CAP carries the fields of now; a change makes a new generation (R200, R204). -/
def renewCap (s : State) (p : Nat) : State :=
  let l := s.link p
  let body := capBody s p (leAt l.ownCap 1 1 % 2 = 1)
  if body = l.ownCap then s else s.setLink p { l with ownCap := body, ownGen := (l.ownGen + 1) % 256 }

/-- VC_RUN: the channels enabled at both ends, once the far CAP is known (R201, R216). -/
def putVcRun (s : State) (p : Nat) : State :=
  let l := s.link p
  match l.farCap with
  | some c => s.wr (LNK_STATUS.VC_RUN p) (vcEn l &&& leAt c 28 2)
  | none => s

/-- Sends this end's CAP (R200, R201). -/
def sendCap (s : State) (p : Nat) : State :=
  let l := s.link p
  sendLink (s.setLink p { l with capSent := true }) p 0x03 2 (l.ownCap ++ natLE 1 l.ownGen)

/-- SEAL_REQ of this end's CAP (R200). -/
def LinkPort.sealReq (l : LinkPort) : Bool := leAt l.ownCap 1 1 % 2 = 1

/-- SEAL_REQ is 1 in both CAPs (R526). -/
def LinkPort.bothSeal (l : LinkPort) : Bool :=
  l.sealReq && (match l.farCap with | some c => leAt c 3 1 % 2 = 1 | none => false)

/-- The advertisement breaks R190, or the bubble minimum on a routed port (R202 CREDIT, R234). -/
def creditBad (s : State) (p : Nat) : Bool :=
  let l := s.link p
  let en := vcEnabled l
  en.any (fun v => (l.credit v).advH < 1 || (l.credit v).advD < mpuOf l.maxpkt v) ||
    512 < (en.map fun v => (l.credit v).advH).sum || 4096 < (en.map fun v => (l.credit v).advD).sum || bubbleShort s p

/-- The causes of R202 that the far CAP and this end's own give, bit by bit. -/
def capCauses (s : State) (p : Nat) (far : List Byte) : Nat :=
  let l := s.link p
  let own := l.ownCap
  -- the far CAP is a whole message; this end's begins at its byte 2
  let f (o n : Nat) : Nat := leAt far o n
  let g (o n : Nat) : Nat := leAt own (o - 2) n
  let flag (v i : Nat) : Bool := bitOf v i
  let de := (f 18 2 + 65536 - g 18 2) % 65536
  let rtt := s.rd (LNK_RTT.RTT_NS p) + (if l.bothSeal then 72 else 0)
  b2n (f 2 1 ≠ 4) + 2 * b2n (f 4 4 / 65536 % 256 ≠ g 4 4 / 65536 % 256) +
  4 * b2n (!flag (f 3 1) 2 || !flag (g 3 1) 2) +
  8 * b2n (flag (f 3 1) 2 && flag (g 3 1) 2 && f 12 6 ≠ g 12 6) +
  16 * b2n (1 < de && de < 65535) +
  32 * b2n (flag (f 3 1) 1 && flag (g 3 1) 1 && 100 * s.rd (LNK_TMR1.TIME_TOL p) < l.bestOfs.natAbs) +
  64 * b2n (f 20 8 ≠ g 20 8) +
  128 * b2n (s.on (LNK_CTRL.EXPECT_EN p) && f 8 3 % 2 ^ 20 ≠ s.rd (LNK_CTRL.EXPECT_NODE p)) +
  256 * b2n (flag (f 3 1) 0 != flag (g 3 1) 0) + 512 * b2n (1200 < rtt) + 1024 * b2n (creditBad s p)

/-- Sends this end's VERDICT on the far CAP (R196, R201). -/
def sendVerdict (s : State) (p cause : Nat) : State :=
  let l := s.link p
  let farGen := match l.farCap with | some c => leAt c 30 1 | none => 0
  sendLink (s.setLink p { l with ownVerdict := some (cause, farGen) }) p 0x04 1
    (natLE 2 cause ++ natLE 1 farGen ++ natLE 1 l.ownGen)

/-- Both verdicts on the current generations, where given: their causes (R197, R201). -/
def currentVerdicts (l : LinkPort) : Option Nat × Option Nat :=
  let farGen := match l.farCap with | some c => leAt c 30 1 | none => 256
  (match l.ownVerdict with | some (c, g) => if g = farGen then some c else none | none => none,
   match l.farVerdict with | some (c, g) => if g = l.ownGen then some c else none | none => none)

/-- Quarantine with its causes and F2 (R197): the packet in progress is still finished, and the port counts as clean
(R246). Its replay buffer stays, for replay runs on (R203; log entry 81). -/
def enterQuarantine (s : State) (p causes : Nat) : State :=
  let s1 := setLinkState (s.wr (LNK_STATUS.QCAUSE p) causes) p 2
  let s2 := cleanCheck (s1.setLink p { s1.link p with
    capEnd := none, rxFinish := !(s1.link p).rxWords.isEmpty, drainMark := none })
  repoint (report s2 0x0D 2 0x02 (p + causes * 2 ^ 16))

/-- The keys of both directions are installed. -/
def LinkPort.keyed (l : LinkPort) : Bool := l.txKeys.length ≠ 0 && l.rxKeys.length ≠ 0

/-- Both verdicts accept: the link is UP, with the channels enabled at both ends (R197, R201). -/
def enterUp (s : State) (p : Nat) : State :=
  let l := s.link p
  let s1 := putVcRun ((setLinkState s p 3).wr (LNK_STATUS.QCAUSE p) 0) p
  repoint ((s1.wr (LNK_STATUS.SEALED p) (b2n (l.bothSeal && l.keyed))).setLink p { l with capEnd := none, reachedUp := true })

/-- What the verdicts say now (R197): in EXCHANGE to UP or QUARANTINE, in UP to QUARANTINE, in QUARANTINE the causes. -/
def evaluate (s : State) (p : Nat) : State :=
  let (own, far) := currentVerdicts (s.link p)
  let causes := (own.getD 0) ||| (far.getD 0)
  let st := s.linkState p
  if st = 2 then s.wr (LNK_STATUS.QCAUSE p) causes
  else if st ≠ 1 ∧ st ≠ 3 then s
  else if causes ≠ 0 then enterQuarantine s p causes
  else if st = 1 ∧ own.isSome ∧ far.isSome then enterUp s p
  else s

/-- The fields that writes change only at an exchange: advertisements, packet sizes, SEAL_REQ (R215, R222, R254). -/
def latchExchange (s : State) (p : Nat) : State :=
  let l := s.link p
  let l1 := (List.range 16).foldl (fun (x : LinkPort) v =>
    x.setCredit v { x.credit v with
      advH := s.rd (LNK_CREDIT_ADV.ADV_HDR p v), advD := s.rd (LNK_CREDIT_ADV.ADV_DATA p v) }) l
  let l2 := (l1.setCredit 16 { l1.credit 16 with advH := 64 })
  let s1 := s.setLink p { l2 with maxpkt := s.rd RTR_VC_MAXPKT.CODE }
  let body := capBody s1 p (s.on (LNK_CTRL.SEAL_REQ p))
  putVcRun (s1.setLink p { s1.link p with
    ownCap := body, ownGen := if l.ownCap = body ∨ l.ownCap.isEmpty then l.ownGen else (l.ownGen + 1) % 256 }) p

/-- Entry to EXCHANGE: CAP_TMO restarts (R197, R198). -/
def enterExchange (s : State) (p : Nat) : State :=
  let s1 := setLinkState (latchExchange s p) p 1
  s1.setLink p { s1.link p with
    ownVerdict := none, farVerdict := none, capEnd := some (s.after (100000 * s.rd (LNK_TMR1.CAP_TMO p))) }

/-- 8 PROBEs, t1 filled at transmission (R196, R201). -/
def sendProbes (s : State) (p : Nat) : State :=
  (List.range 8).foldl (fun t _ => sendLink t p 0x01 1 [])
    (s.setLink p { s.link p with probes := 8, echoes := 0, bestRtt := none, bestOfs := 0, capSent := false })

/-- The Seal keys of a port are discarded (R515, R528). -/
def dropKeys (s : State) (p : Nat) : State :=
  let k := s.sea.links.get {} p
  let s1 := { s with sea := { s.sea with links := s.sea.links.set {} p { egen := k.egen } } }
  (s1.wr (SEA_LINK0.STATE p) 0).setLink p { s1.link p with
    txKeys := [], rxKeys := [], txPhase := false, txGroup := [], rxGroup := [], tagFailed := none }

/-- The port carries or holds traffic: it is not idle (R544). -/
def portBusy (s : State) (p : Nat) : State := { s with csp := { s.csp with busyAt := s.csp.busyAt.set 0 p s.now } }

/-- The link goes DOWN (R197): replay buffer and partial packets are discarded; `cause` is the F2 to report, none where no
fault is reported; the lanes retrain where `retrain` says so. DOWN counts, but for a port turned Off: no cause and no
retrain (R221). -/
def linkDown (s : State) (p : Nat) (cause : Option Nat) (retrain : Bool) : State :=
  if s.linkState p = 0 then s else
  let s1 := (((setLinkState s p 0).wr (LNK_STATUS.SEALED p) 0).wr (LNK_STATUS.VC_RUN p) 0).wr (LNK_STATUS.QCAUSE p) 0
  let l := s.link p
  let s2 := dropKeys (s1.setLink p { ({} : LinkPort) with
    ownCap := l.ownCap, ownGen := l.ownGen, bpStoat := l.bpStoat, bpAmm := l.bpAmm, rxBypass := l.rxBypass
    reachedUp := l.reachedUp, bestOfs := l.bestOfs, slots := l.slots, busySlots := l.busySlots
    txFrames := l.txFrames, rxFrames := l.rxFrames, txNext := l.txNext, txAcked := l.txAcked, rxExpect := l.rxExpect, maxpkt := l.maxpkt
    credits := l.credits.mapAll {} fun _ c => { c with heldH := 0, heldD := 0 } }) p
  let s3 := if cause.isSome || retrain then s2.bump (LNK_ERR.DOWN p) 1 else s2
  let s4 := match cause with | some c => report s3 0x0D 2 c p | none => s3
  cleanCheck (repoint (if retrain then laneRetrain s4 p else s4))

/-- LINK_EXCHANGE_START (R197): a DOWN link whose port is ACTIVE starts its exchange with everything cleared. -/
def exchangeStart (s : State) (p : Nat) : State :=
  let l := s.link p
  let w := widthOfCode (s.rd (LAN_PORT_STATUS.WIDTH p))
  let s1 := s.setLink p { ({} : LinkPort) with
    ownCap := l.ownCap, ownGen := l.ownGen, bpStoat := l.bpStoat, bpAmm := l.bpAmm, rxBypass := l.rxBypass
    slots := l.slots, busySlots := l.busySlots, txFrames := l.txFrames, rxFrames := l.rxFrames, txWidth := w, rxWidth := w }
  sendProbes (enterExchange s1 p) p

/-- Timers that stood still for a lost lock run on (R188). -/
def thaw (s : State) (p : Nat) : State :=
  let l := s.link p
  match l.frozen with
  | none => s
  | some t0 =>
    let d := s.now - t0
    s.setLink p { l with frozen := none, lockFrom := none, nakFrom := l.nakFrom.map (· + d), replayFrom := l.replayFrom.map (· + d) }

/-- The timers stand still (R188). -/
def freeze (s : State) (p : Nat) : State :=
  let l := s.link p
  if l.frozen.isSome then s else s.setLink p { l with frozen := some s.now }

/-- The port reaches ACTIVE (R197, R684): frame indexes count from 0, so width changes that wait for an index lapse
(R208; log entry 80); a link in DOZE or DORMOUSE wakes, one in RETRAIN resumes. -/
def linkActive (s : State) (p : Nat) : State :=
  let w := widthOfCode (s.rd (LAN_PORT_STATUS.WIDTH p))
  let s1 := thaw s p
  let s2 := s1.setLink p { s1.link p with
    txFrames := 0, rxFrames := 0, txWidth := w, rxWidth := w
    widthReq := none, txWidthAt := none, rxWidthAt := none, oldWidth := none }
  match s.linkState p with
  | 0 => exchangeStart s2 p
  | 5 => s2.setLink p { s2.link p with waking := true, wakeIdle := false, wakeMatch := false }
  | 6 => s2.setLink p { s2.link p with waking := true, wakeIdle := false, wakeMatch := false }
  | 7 => s2.setLink p { s2.link p with retrainFrom := none, resuming := true }
  | _ => s2

/-- A lane in use has lost symbol lock: the timers stand still and LOCK_TMO runs, except in RETRAIN (R153, R188). -/
def lockLost (s : State) (p : Nat) : State :=
  let st := s.linkState p
  if st = 0 ∨ st = 7 then s else
  let l := s.link p
  if l.frozen.isSome then s else
  s.setLink p { l with frozen := some s.now, lockFrom := some s.now }

/-- A lane command has run: a port that is now FAILED takes its link DOWN (R144, R197). -/
def afterLane (s : State) (p : Nat) : State := if s.laneState p = 9 then linkDown s p (some 0x01) false else s

end Sys2Proof.Machine
end

