-- ==== Sys2Proof/Machine/SealKex.lean ====
section
/-! DEFINITION. Sealing a link: random draws, the key exchange of R526, the rekey of R529 and R530. -/
namespace Sys2Proof.Machine

def State.sealLink (s : State) (p : Nat) : SealLink := s.sea.links.get {} p
def State.setSealLink (s : State) (p : Nat) (k : SealLink) : State :=
  { s with sea := { s.sea with links := s.sea.links.set {} p k } }

/-- Bytes from the random source: a free value; the source reseeds after 2^20 requests (R512, R513). -/
def randBytes (s : State) (n : Nat) : List Byte × State :=
  (natLE n s.free, { s.useFree with sea := { s.sea with generated := (s.sea.generated + 1) % 2 ^ 20 } })

/-- An ephemeral private key. -/
def randScalar (s : State) : Nat × State :=
  (s.free % (ecN - 1) + 1, { s.useFree with sea := { s.sea with generated := (s.sea.generated + 1) % 2 ^ 20 } })

/-- The active anchor's hash: the lowest slot programmed and not revoked (R514). -/
def Fuses.anchor (f : Fuses) : Option (List Byte) :=
  if !f.anchor0.isEmpty && !f.revoked0 then some f.anchor0
  else if !f.anchor1.isEmpty && !f.revoked1 then some f.anchor1 else none

/-- Debug is unlocked (R516, R532), as the byte `dbg`. -/
def dbgByte (s : State) : List Byte := natLE 1 (s.rd SEA_STATUS.DBG_UNLOCKED)

/-- The credential with bytes 96–343 filled from the current identity (R524). -/
def currentCred (s : State) : List Byte :=
  let fit (n : Nat) (b : List Byte) : List Byte := (b ++ List.replicate n 0).take n
  if s.sea.cred.isEmpty then List.replicate 452 0 else
  s.sea.cred.take 96 ++ pubOf s.sea.aliasKey ++ fit 48 s.sea.fwMeas ++ natLE 4 s.sea.fwSvn ++
    natLE 4 (s.rd SEA_STATUS.DBG_UNLOCKED) ++ fit 96 s.sea.endorse ++ s.sea.cred.drop 344

/-- Queues a fragmented Seal message: 92 data bytes a fragment (R525). -/
def sendFrags (s : State) (p type egen : Nat) (data : List Byte) : State :=
  let n := (data.length + 91) / 92
  (List.range n).foldl (fun t i =>
    sendLink t p type 3 (natLE 1 egen ++ natLE 1 (i + 16 * n) ++ (data.drop (92 * i)).take 92)) s

/-- The SEAL cause in this end's verdict (R202, R526). -/
def sealVerdict (s : State) (p : Nat) : State := evaluate (sendVerdict s p 0x100) p

/-- An exchange fails at this end: cause, S_FAIL, verdict (R525, R526). -/
def sealFail (s : State) (p cause : Nat) : State :=
  let k := s.sealLink p
  let s1 := ((s.setSealLink p { k with running := false, derived := none }).wr (SEA_LINK0.CAUSE p) cause).wr (SEA_LINK0.STATE p) 0
  sealVerdict (sendLink s1 p 0x26 1 (natLE 1 k.egen ++ natLE 1 cause)) p

/-- The exchange starts (R526 step 1): a new EGEN, KGEN 0, S_HELLO with a fresh nonce. -/
def sealStart (s : State) (p : Nat) : State :=
  let k := s.sealLink p
  let (n, s1) := randBytes s 32
  let egen := (k.egen + 1) % 256
  let s2 := ((s1.setSealLink p { egen := egen, nonce := n, running := true }).wr (SEA_LINK0.STATE p) 1).wr (SEA_LINK0.KGEN p) 0
  if !s.on SEA_STATUS.RNG_OK then sealFail s2 p 6 else
  sendLink s2 p 0x20 2 (natLE 1 egen ++ [0] ++ n ++ ((s.sea.fuses.anchor.getD []) ++ List.replicate 8 0).take 8)

/-- This end judges the far CAP (R201, R202): a sealed request with no other cause first runs the key exchange. -/
def judge (s : State) (p : Nat) : State :=
  let l := s.link p
  match l.farCap with
  | none => s
  | some far =>
    let s1 := (s.wr (LAN_PORT_FAR.FAR_NODE p) (leAt far 8 3 % 2 ^ 20)).wr (LAN_PORT_FAR.FAR_PORT p) (leAt far 11 1 % 16)
    let c := capCauses s1 p far
    if c = 0 ∧ l.bothSeal ∧ !l.keyed then (if (s1.sealLink p).running then s1 else sealStart s1 p)
    else evaluate (sendVerdict s1 p c) p

/-- S_HELLO (R526 step 1): anchor prefixes that differ or a missing anchor fail; else S_CRED follows. Of
the two counts of EGEN the larger one holds (DESIGN CHOICE, log entry 47). -/
def sHello (s : State) (p : Nat) (m : List Byte) : State :=
  let k := s.sealLink p
  if !k.running then s else
  let k1 := { k with egen := max k.egen (leAt m 2 1), farNonce := (m.drop 4).take 32 }
  let s1 := s.setSealLink p k1
  match s.sea.fuses.anchor with
  | none => sealFail s1 p 1
  | some a =>
    if a.take 8 = (m.drop 36).take 8 then sendFrags s1 p 0x21 k1.egen (currentCred s) else sealFail s1 p 1

/-- A fragment joins its message; the whole data once every fragment is here (R525). -/
def takeFrag (s : State) (p type : Nat) (m : List Byte) : State × Option (List Byte) :=
  let k := s.sealLink p
  let i := leAt m 3 1 % 16
  let n := leAt m 3 1 / 16
  if leAt m 2 1 ≠ k.egen then (s, none) else
  let fr := k.frags.put (16 * type + i) ((m.drop 4).take 92)
  if (List.range n).all fun j => (fr.find? (16 * type + j)).isSome then
    (s.setSealLink p { k with frags := fr.filter fun e => e.1 / 16 ≠ type },
      some ((List.range n).flatMap fun j => (fr.find? (16 * type + j)).getD []))
  else (s.setSealLink p { k with frags := fr }, none)

/-- The checks of a far credential (R524, R526 step 2), by an end that may seal links at all (R522). -/
def credOk (s : State) (p : Nat) (c : List Byte) : Bool :=
  let dev := c.take 96
  let farNode := match (s.link p).farCap with | some f => leAt f 8 3 % 2 ^ 20 | none => 2 ^ 20
  ecVerify s.sea.anchorKey (dev ++ (c.drop 344).take 12) ((c.drop 356).take 96) && !s.sea.anchorKey.isEmpty &&
    s.rd SEA_STATUS.DBG_UNLOCKED = 0 &&
    ecVerify dev ((c.drop 96).take 148 ++ natLE 1 (leAt c 244 1 % 2)) ((c.drop 248).take 96) &&
    leAt c 344 4 % 2 ^ 20 = farNode && s.nowNs < leAt c 348 8 && leAt c 244 4 % 2 = 0

/-- The two nonces, the leader's first (R526). -/
def nonces (leader : Bool) (own far : List Byte) : List Byte := if leader then own ++ far else far ++ own

/-- This end led the last training (R147, R163). -/
def State.leader (s : State) (p : Nat) : Bool := s.on (LAN_PORT_STATUS.LEADER p)

/-- S_CRED (R526 step 2): a good credential is followed by S_KEX. -/
def sCred (s : State) (p : Nat) (m : List Byte) : State :=
  if !(s.sealLink p).running then s else
  match takeFrag s p 0x21 m with
  | (s1, none) => s1
  | (s1, some d) =>
    if !credOk s1 p d then sealFail s1 p 2 else
    let (e, s2) := randScalar s1
    let (kk, s3) := randScalar s2
    let k := s3.sealLink p
    let pub := pubOf e
    let sig := ecSign s.sea.aliasKey kk
      (ascii "KEX" ++ nonces (s.leader p) k.nonce k.farNonce ++ natLE 4 s.node ++ natLE 1 p ++ pub)
    if !s.on SEA_STATUS.RNG_OK then sealFail s3 p 6 else
    sendFrags (s3.setSealLink p { k with farAlias := (d.drop 96).take 96, eph := e }) p 0x22 k.egen (pub ++ sig)

/-- The keys of R526 step 4: k_lf, salt_lf, k_fl, salt_fl, k_cf. -/
def deriveKeys (nn x : List Byte) (egen kgen : Nat) : List (List Byte) :=
  let prk := hmac384 nn x
  let okm (lbl : String) : List Byte := hmac384 prk (ascii lbl ++ natLE 1 egen ++ natLE 1 kgen ++ [1])
  [(okm "LF-KEY").take 32, (okm "LF-SALT").take 4, (okm "FL-KEY").take 32, (okm "FL-SALT").take 4, (okm "CONF").take 32]

/-- The confirmation of a role (R526 step 5). -/
def confirmation (keys : List (List Byte)) (role : Nat) : List Byte :=
  (hmac384 (keys.getD 4 []) (ascii "FIN" ++ natLE 1 role)).take 16

/-- S_KEX (R526 steps 3 to 5): the far signature, the keys, and S_FIN. -/
def sKex (s : State) (p : Nat) (m : List Byte) : State :=
  if !(s.sealLink p).running then s else
  match takeFrag s p 0x22 m with
  | (s1, none) => s1
  | (s1, some d) =>
    let k := s1.sealLink p
    let (fn, fp) := match (s1.link p).farCap with | some f => (leAt f 8 3 % 2 ^ 20, leAt f 11 1 % 16) | none => (0, 0)
    let nn := nonces (s.leader p) k.nonce k.farNonce
    let pub := d.take 96
    if k.farAlias.isEmpty ∨
        !ecVerify k.farAlias (ascii "KEX" ++ nn ++ natLE 4 fn ++ natLE 1 fp ++ pub) ((d.drop 96).take 96) then
      sealFail s1 p 3
    else
      let keys := deriveKeys nn (ecdh k.eph pub) k.egen 0
      sendLink (s1.setSealLink p { k with farEph := pub, derived := some keys }) p 0x23 1
        (natLE 1 k.egen ++ [0] ++ confirmation keys (if s.leader p then 0 else 1))

/-- Installs derived keys in phase `ph` for both directions, group counters 0 (R526 step 6, R529). -/
def installKeys (s : State) (p ph : Nat) (keys : List (List Byte)) : State :=
  let l := s.link p
  let lf : LinkKey := { key := leNat (keys.getD 0 []), salt := leNat (keys.getD 1 []) }
  let fl : LinkKey := { key := leNat (keys.getD 2 []), salt := leNat (keys.getD 3 []) }
  let (tx, rx) := if s.leader p then (lf, fl) else (fl, lf)
  s.setLink p { l with txKeys := l.txKeys.put ph tx, rxKeys := l.rxKeys.put ph rx }

/-- S_FIN (R526 steps 5 and 6): a match installs the keys and sends the VERDICT. -/
def sFin (s : State) (p : Nat) (m : List Byte) : State :=
  let k := s.sealLink p
  match k.derived with
  | none => s
  | some keys =>
    if !k.running ∨ leAt m 2 1 ≠ k.egen then s
    else if (m.drop 4).take 16 ≠ confirmation keys (if s.leader p then 1 else 0) then sealFail s p 4
    else
      let s1 := installKeys s p 0 keys
      let s2 := s1.setSealLink p { k with running := false, derived := none, installed := s.now }
      let s3 := ((((s2.wr (SEA_LINK0.STATE p) 2).wr (SEA_LINK0.KGEN p) 0).wr (SEA_LINK0.TX_PH p) 0).wr (SEA_LINK0.RX_PH p) 0)
      judge (s3.setLink p { s3.link p with txPhase := false }) p

/-- S_FAIL (R526): the exchange fails here too. -/
def sFail (s : State) (p : Nat) (m : List Byte) : State :=
  let k := s.sealLink p
  if leAt m 2 1 ≠ k.egen ∨ !k.running then s else
  sealVerdict (((s.setSealLink p { k with running := false, derived := none }).wr (SEA_LINK0.CAUSE p) (leAt m 3 1)).wr
    (SEA_LINK0.STATE p) 0) p

/-- Old keys of a direction wait to be retired (R530). -/
def keysBusy (s : State) (p : Nat) : Bool := 2 ≤ (s.link p).txKeys.length || 2 ≤ (s.link p).rxKeys.length

/-- Sends S_REKEY with a new nonce and key for KGEN + 1 (R529 step 1). -/
def sendRekey (s : State) (p type : Nat) : State :=
  let (n, s1) := randBytes s 32
  let (e, s2) := randScalar s1
  let (kk, s3) := randScalar s2
  let k := s3.sealLink p
  let pub := pubOf e
  let kg := (s.rd (SEA_LINK0.KGEN p) + 1) % 256
  sendFrags (s3.setSealLink p { k with nonce := n, eph := e }) p type k.egen
    (n ++ pub ++ ecSign s.sea.aliasKey kk (ascii "REKEY" ++ n ++ pub ++ natLE 1 kg))

/-- RETRY_MS from now (R530). -/
def rekeyRetry (s : State) : Nat := s.after (1000000 * s.rd SEA_LINK_CFG.RETRY_MS)

/-- REKEY_START (R529): the counter reaches 2^31, REKEY_S elapses, or firmware commands it. -/
def rekeyStart (s : State) (p : Nat) (fw : Bool) : State :=
  let k := s.sealLink p
  let l := s.link p
  let count := match l.txKeys.find? (b2n l.txPhase) with | some x => x.counter | none => 0
  let due := 2 ^ 31 ≤ count || k.installed + ns (10 ^ 9 * s.rd SEA_LINK_CFG.REKEY_S) ≤ s.now || fw || k.wanted
  if !due ∨ s.rd (SEA_LINK0.STATE p) < 2 then s
  else if keysBusy s p then s.setSealLink p { k with wanted := true }
  else if s.rd (SEA_LINK0.STATE p) = 3 then s
  else if !s.on SEA_STATUS.RNG_OK then s.wr (SEA_LINK0.CAUSE p) 6
  else
    let s1 := sendRekey (s.wr (SEA_LINK0.STATE p) 3) p 0x24
    s1.setSealLink p { s1.sealLink p with rekey := 1, tries := 1, wanted := false, retryEnd := some (rekeyRetry s) }

/-- The far signature of a rekey message holds. -/
def rekeySigOk (s : State) (p : Nat) (d : List Byte) : Bool :=
  let k := s.sealLink p
  ecVerify k.farAlias (ascii "REKEY" ++ d.take 128 ++ natLE 1 ((s.rd (SEA_LINK0.KGEN p) + 1) % 256)) ((d.drop 128).take 96)

/-- The next keys, from both rekey nonces and the fresh agreement (R529 step 2). -/
def nextKeys (s : State) (p : Nat) (d : List Byte) : List (List Byte) :=
  let k := s.sealLink p
  deriveKeys (nonces (s.leader p) k.nonce (d.take 32)) (ecdh k.eph ((d.drop 32).take 96)) k.egen
    ((s.rd (SEA_LINK0.KGEN p) + 1) % 256)

/-- The responder's step (R529 step 2): a good request is answered, and the next keys of both directions installed. -/
def answerRekey (s : State) (p : Nat) (d : List Byte) : State :=
  if !rekeySigOk s p d then s.wr (SEA_LINK0.CAUSE p) 3
  else if !s.on SEA_STATUS.RNG_OK then s.wr (SEA_LINK0.CAUSE p) 6
  else
    let s1 := sendRekey (s.wr (SEA_LINK0.STATE p) 3) p 0x25
    let s2 := installKeys s1 p (1 - b2n (s.link p).txPhase) (nextKeys s1 p d)
    s2.setSealLink p { s2.sealLink p with rekey := 2, tries := 0, retryEnd := none, installed := s.now }

/-- The next keys that a responder has installed are not in use yet: no key is old (R529). -/
def nextUnused (k : SealLink) : Bool := k.rekey = 2 && !k.flipTx && k.oldTxEnd.isNone

/-- S_REKEY (R529 step 2, R530): of two requests the lower node's proceeds; one that comes while old keys are not yet
retired waits; one sent again is answered again. -/
def sRekey (s : State) (p : Nat) (m : List Byte) : State :=
  if s.rd (SEA_LINK0.STATE p) < 2 then s else
  match takeFrag s p 0x24 m with
  | (s1, none) => s1
  | (s1, some d) =>
    let k := s1.sealLink p
    if k.rekey = 1 ∧ k.retryEnd.isSome ∧ s.node < s.rd (LAN_PORT_FAR.FAR_NODE p) then s1
    else if keysBusy s1 p ∧ !nextUnused k then s1.setSealLink p { k with held := some d }
    else answerRekey s1 p d

/-- S_REKEY_ACK (R529 step 3): the initiator installs the next keys and flips at its next group. -/
def sRekeyAck (s : State) (p : Nat) (m : List Byte) : State :=
  match takeFrag s p 0x25 m with
  | (s1, none) => s1
  | (s1, some d) =>
    let k := s1.sealLink p
    if k.rekey ≠ 1 then s1
    else if !rekeySigOk s1 p d then s1.wr (SEA_LINK0.CAUSE p) 3
    else
      let s2 := installKeys s1 p (1 - b2n (s.link p).txPhase) (nextKeys s1 p d)
      s2.setSealLink p { k with retryEnd := none, flipTx := true, installed := s.now }

/-- REKEY_RETRY_TMO (R530): again with a new nonce and key, where the random source gives them (R513); after 3 failures
F3, and QUARANTINE with cause SEAL. -/
def rekeyRetryTmo (s : State) (p : Nat) : State :=
  let k := s.sealLink p
  if k.rekey ≠ 1 ∨ !s.due k.retryEnd then s
  else if 3 ≤ k.tries then
    let s1 := ((s.setSealLink p { k with rekey := 0, retryEnd := none }).wr (SEA_LINK0.CAUSE p) 7).wr (SEA_LINK0.STATE p) 2
    enterQuarantine (report s1 0x17 3 0x02 p) p 0x100
  else
    let s1 := if s.on SEA_STATUS.RNG_OK then sendRekey s p 0x24 else s.wr (SEA_LINK0.CAUSE p) 6
    s1.setSealLink p { s1.sealLink p with tries := k.tries + 1, retryEnd := some (rekeyRetry s) }

/-- A rekey ends once both directions have retired their old keys: KGEN advances (R529 step 5), and a request that waited
is answered (R530). -/
def rekeyEnd (s : State) (p : Nat) : State :=
  let k := s.sealLink p
  if k.rekey = 0 ∨ keysBusy s p ∨ k.flipTx ∨ k.retryEnd.isSome then s else
  let s1 := ((s.setSealLink p { k with rekey := 0, tries := 0, held := none }).wr (SEA_LINK0.STATE p) 2).wr (SEA_LINK0.KGEN p)
    (s.rd (SEA_LINK0.KGEN p) + 1) |>.bump (SEA_LINK0.REKEYS p) 1
  match k.held with
  | some d => answerRekey s1 p d
  | none => s1

/-- RNG_FAIL (R513): the health test fails. -/
def rngFail (s : State) : State := report (s.wr SEA_STATUS.RNG_OK 0) 0x17 3 0x01 0

end Sys2Proof.Machine
end

