-- ==== Sys2Proof/Machine/Link.lean ====
section
/-! DEFINITION. Flits in both directions: framing, acknowledgement, replay, credits, sealing (R175 to R194, R210 to R214,
R684). -/
namespace Sys2Proof.Machine

/-- The flit header (R176). -/
structure FlitHdr where
  fseq : Nat := 0
  ack : Nat := 0
  kind : Nat := 0
  nak : Bool := false
  blen : Nat := 0
  keyph : Bool := false
  first : Nat := 31
  pwords : Nat := 0
  cvc : Nat := 31
  chdr : Nat := 0
  cdata : Nat := 0
deriving DecidableEq, Repr

/-- The header's 96-bit value (R176). -/
def FlitHdr.toNat (h : FlitHdr) : Nat :=
  h.fseq + h.ack * 2 ^ 16 + h.kind * 2 ^ 32 + b2n h.nak * 2 ^ 36 + h.blen * 2 ^ 37 + b2n h.keyph * 2 ^ 39 +
  h.first * 2 ^ 40 + h.pwords * 2 ^ 45 + h.cvc * 2 ^ 50 + h.chdr * 2 ^ 56 + h.cdata * 2 ^ 72

/-- The header that 12 bytes spell (R176). -/
def hdrOf (b : List Byte) : FlitHdr :=
  let v := leAt b 0 12
  { fseq := bitsOf v 15 0, ack := bitsOf v 31 16, kind := bitsOf v 35 32, nak := bitOf v 36, blen := bitsOf v 38 37
    keyph := bitOf v 39, first := bitsOf v 44 40, pwords := bitsOf v 49 45, cvc := bitsOf v 54 50
    chdr := bitsOf v 71 56, cdata := bitsOf v 91 72 }

/-- The header as the tag authenticates it: ACK, NAK, CVC, CHDR and CDATA zero (R211). -/
def FlitHdr.aad (h : FlitHdr) : List Byte :=
  natLE 12 ({ h with ack := 0, nak := false, cvc := 0, chdr := 0, cdata := 0 } : FlitHdr).toNat

/-- The newest sequence number accepted in order, and on a sealed link verified (R186, R212). -/
def ackOf (l : LinkPort) : Nat := (l.rxExpect + 65535 - l.rxGroup.length) % 65536

/-- The limits that this end sends for a channel (R191). -/
def ownLimits (l : LinkPort) (v : Nat) : Nat × Nat :=
  let c := l.credit v
  ((c.advH + c.freedH) % 2 ^ 16, if v = 16 then 0 else (c.advD + c.freedD) % 2 ^ 20)

/-- The channel after `v` in the cycle: the enabled ones ascending, then 16 (R193). -/
def nextCvc (l : LinkPort) (v : Nat) : Nat :=
  match (vcEnabled l).find? (fun x => v < x) with
  | some x => x
  | none => if v = 16 then (vcEnabled l).headD 16 else 16

/-- Is a link sealed? The flits travel sealed from UP on (R210, R526). -/
def State.sealed (s : State) (p : Nat) : Bool := s.on (LNK_STATUS.SEALED p)

/-- The key of a phase. -/
def keyOf (t : Tbl LinkKey) (ph : Bool) : LinkKey := t.get {} (b2n ph)

/-- The 96-bit IV of a group: salt, then the group counter (R211). -/
def groupIv (k : LinkKey) (counter : Nat) : List Byte := natLE 4 k.salt ++ natLE 8 counter

/-- The payload of flit `i` of a group under its key (R211): the same operation encrypts and decrypts. -/
def cryptFlit (k : LinkKey) (counter i : Nat) (b : List Byte) : List Byte :=
  (gcmCrypt (natLE 32 k.key) (groupIv k counter) (List.replicate (240 * i) 0 ++ b)).drop (240 * i)

/-- The tag of a group: headers as additional data, ciphertexts (R211). -/
def groupTag (k : LinkKey) (counter : Nat) (g : List HeldFlit) : List Byte :=
  gcmTag (natLE 32 k.key) (groupIv k counter) (g.flatMap (·.aad)) (g.flatMap (·.payload))

/-- A STOAT or AMM message may go: bypass credit is there (R182, R183). -/
def bypassCredit (l : LinkPort) : Bool := (l.credit 16).limH ≠ (l.credit 16).usedH

/-- The bypass message that travels next: LINK, then STOAT, then AMM (R183, R203). -/
def nextBypass (s : State) (p : Nat) : Option (Nat × List Byte) :=
  let l := s.link p
  let st := s.linkState p
  match l.bpLink, l.bpStoat, l.bpAmm with
  | m :: _, _, _ => some (1, m)
  | [], m :: _, rest =>
    if (st = 3 ∨ st = 4) ∧ bypassCredit l then some (2, m)
    else match rest with
      | a :: _ => if 2 ≤ st ∧ st ≤ 4 ∧ bypassCredit l then some (3, a) else none
      | [] => none
  | [], [], a :: _ => if 2 ≤ st ∧ st ≤ 4 ∧ bypassCredit l then some (3, a) else none
  | [], [], [] => none

/-- The frames by which a width change must lie ahead: 256, or 65,536 for widening onto lanes in Dormouse (R208). -/
def widthAhead (s : State) (p w : Nat) : Nat :=
  let deep := (lanesOf s p).any fun k => (s.lane k).parkedDeep
  if (s.link p).txWidth < w && deep then 65536 else 256

/-- This end's index for a change whose message goes out in the next flit: far enough ahead of that flit's last frame,
at the start of a flit (R208). -/
def widthIndex (s : State) (p w : Nat) : Nat :=
  ((s.link p).txFrames + 8 / (s.link p).txWidth + widthAhead s p w + 7) / 8 * 8 % 2 ^ 32

/-- A LINK message at its transmission: a PROBE takes t1, an ECHO t2 and the time the PROBE was held (R196); a WIDTH_REQ
or WIDTH_ACK the index of its change (R208). -/
def stampMsg (s : State) (p : Nat) (m : List Byte) : List Byte :=
  if isLinkMsg m 0x18 || isLinkMsg m 0x19 then m.take 4 ++ natLE 4 (widthIndex s p (leAt m 2 1)) ++ m.drop 8
  else if isLinkMsg m 0x01 then m.take 2 ++ natLE 8 s.nowNs ++ m.drop 10
  else if isLinkMsg m 0x02 then
    m.take 10 ++ natLE 8 s.nowNs ++ natLE 4 (s.nowNs + 2 ^ 32 - leAt m 18 4) ++ m.drop 22
  else m

/-- A width message has gone out: this end's index stands (R208). The index of a request whose width is agreed already,
since requests crossed, is this direction's. -/
def noteWidth (l : LinkPort) (m : List Byte) : LinkPort :=
  let w := leAt m 2 1
  let i := leAt m 4 4
  if isLinkMsg m 0x19 then { l with txWidthAt := some (w, i) }
  else if isLinkMsg m 0x18 then
    match l.widthReq, l.rxWidthAt with
    | some (v, none), _ => if v = w then { l with widthReq := some (w, some i) } else l
    | none, some (v, _) => if v = w then { l with txWidthAt := some (w, i) } else l
    | _, _ => l
  else l

/-- The words that may go now: all of them in UP, else those of the packet in progress (R197, R203, R205, R604). -/
def sendable (s : State) (p : Nat) : List (Bool × Dword) :=
  let l := s.link p
  if s.linkState p = 3 && !s.tier2Drops then l.txWords else l.txWords.takeWhile fun x => !x.1

/-- Takes a bypass message off its queue, with its credit (R182). -/
def popBypass (l : LinkPort) (c : Nat) : LinkPort :=
  let use (x : LinkPort) : LinkPort := x.setCredit 16 { x.credit 16 with usedH := ((x.credit 16).usedH + 1) % 65536 }
  if c = 1 then { l with bpLink := l.bpLink.drop 1 }
  else if c = 2 then use { l with bpStoat := l.bpStoat.drop 1 }
  else use { l with bpAmm := l.bpAmm.drop 1 }

/-- RETRAIN with its bound: LOCK_TMO and the times of training (R188). Sequence state and replay buffer are kept; the
timers stand still, and replay waits for the check of R684. -/
def enterRetrain (s : State) (p : Nat) (l : LinkPort) : State :=
  let s1 := (setLinkState s p 7).bump (LNK_REPLAY.RETRAINS p) 1
  let rest := 1000000 * s.rd LAN_TRAIN_CFG.ADAPT_MS + 100000 * s.rd LAN_TRAIN_CFG.ALIGN_TMO +
    100000 * s.rd LAN_TRAIN_CFG.EXCH_TMO + 200000
  laneRetrain (freeze (s1.setLink p { l with
    leftState := s.linkState p, replayAt := none, replayFrom := none, lockFrom := none, nakSend := false
    waking := false, retrainFrom := some (s.now, rest) }) p) p

/-- A replay starts from sequence number `a`, by REPLAY_TMO where `timed` (R187, R188): REPLAYS counts; one that no
advance of TX_ACKED precedes counts as consecutive, and at REPLAY_MAX the link enters RETRAIN, or goes DOWN. -/
def startReplay (s : State) (p a : Nat) (timed : Bool) : State :=
  let l := s.link p
  let n := if l.advanced then l.consec else l.consec + 1
  let s1 := s.bump (LNK_REPLAY.REPLAYS p) 1
  if s.rd (LNK_TMR0.REPLAY_MAX p) ≤ n then
    if l.retrained then linkDown s1 p (some 0x01) true
    else enterRetrain s1 p { l with consec := 0, advanced := false, retrained := true }
  else
    s1.setLink p { l with
      consec := n, advanced := false, replayAt := some a, replayFrom := if timed then some s.now else l.replayFrom }

/-- RETRAIN commanded by LNK_CTRL (R188, R215): sequence state and replay buffer are kept. -/
def retrainCmd (s : State) (p : Nat) : State :=
  let st := s.linkState p
  if st = 0 ∨ st = 7 ∨ s.laneState p < 6 ∨ 8 < s.laneState p then s else enterRetrain s p (s.link p)

/-- All own flits of a draining end are acknowledged, and none is left to send (R205). -/
def drained (s : State) (p : Nat) : Bool :=
  let l := s.link p
  l.replay.isEmpty && (sendable s p).isEmpty && l.txGroup.isEmpty && l.bpLink.isEmpty

/-- A responder in DRAIN answers SLEEP_ACK once all its own flits are acknowledged (R205). -/
def sleepAckNow (s : State) (p : Nat) : State :=
  let l := s.link p
  match l.responding with
  | some t =>
    if s.linkState p = 4 ∧ !l.ackSent ∧ drained s p then
      sendLink (s.setLink p { l with ackSent := true }) p 0x11 1 (natLE 1 t)
    else s
  | none => s

/-- An advance of TX_ACKED to `a` (R185, R188). -/
def advanceAck (s : State) (p a : Nat) : State :=
  let l := s.link p
  let d := (a + 65536 - l.txAcked) % 65536
  let span := (l.txNext + 65535 - l.txAcked) % 65536
  if d = 0 ∨ span < d then s else
  let keep := l.replay.filter fun f => d < (f.seq + 65536 - l.txAcked) % 65536
  let passed (x : Nat) : Bool := (x + 65536 - l.txAcked) % 65536 ≤ d && (x + 65536 - l.txAcked) % 65536 ≠ 0
  let k := s.sealLink p
  let old := match k.oldTxEnd with | some e => passed e || e = l.txAcked | none => false
  let s1 := s.setLink p { l with
    txAcked := a, replay := keep, advanced := true, consec := 0, retrained := false
    replayAt := match l.replayAt with | some r => if passed r then (if keep.isEmpty then none else some ((a + 1) % 65536)) else some r | none => none
    replayFrom := if keep.isEmpty then none else some s.now
    drainMark := match l.drainMark with | some m => if passed ((m + 65535) % 65536) then none else some m | none => none
    txKeys := if old then l.txKeys.filter (fun e => e.1 = b2n l.txPhase) else l.txKeys }
  let s2 := if old then rekeyEnd (s1.setSealLink p { k with oldTxEnd := none }) p else s1
  sleepAckNow (cleanCheck s2) p

/-- A loss is detected: one NAK goes out unless one is pending (R186). -/
def lossDetected (s : State) (p : Nat) : State :=
  let l := s.link p
  if l.nakPending then s else s.setLink p { l with nakPending := true, nakSend := true }

/-- A protocol error: PROTO counts and the link goes DOWN (R186, R197, R221). -/
def protoError (s : State) (p : Nat) : State := linkDown (s.bump (LNK_ERR.PROTO p) 1) p (some 0x01) true

/-- Total words of the packet whose first words these are, once its header is whole (R181, R265). -/
def packetWords (w : List Dword) : Option Nat :=
  if w.length < 4 then none
  else some (pktOfHeader (leNat ((w.take 4).flatMap fun x => natLE 8 x.toNat)) [] 0 0 0).wordCount

/-- The packet that its words spell (R265). -/
def packetOf (w : List Dword) : Pkt :=
  let b := w.flatMap fun x => natLE 8 x.toNat
  let h := pktOfHeader (leNat (b.take 32)) [] 0 0 0
  let t := b.drop (b.length - 8)
  { h with payload := (b.drop 32).take h.extent, crc := leAt t 0 4, mark := leAt t 4 1, words := leAt t 6 2 }

/-- Packets that were granted and have not begun are withdrawn, with the credits that they took (R189, R604). -/
def dropUnbegun (l : LinkPort) : LinkPort :=
  let rest := l.txWords.dropWhile fun x => !x.1
  let starts := (List.range rest.length).filter fun i => (rest.getD i (false, 0)).1
  let back := starts.foldl (fun (x : LinkPort) i =>
    let q := pktOfHeader (leNat (((rest.drop i).take 4).flatMap fun w => natLE 8 w.2.toNat)) [] 0 0 0
    let v := vcOf q.tc q.rsp
    let c := x.credit v
    x.setCredit v { c with usedH := (c.usedH + 65535) % 65536, usedD := (c.usedD + 2 ^ 20 - q.units) % 2 ^ 20 }) l
  { back with txWords := l.txWords.takeWhile fun x => !x.1 }

/-- A whole packet has arrived on a port: its channel must be enabled and hold room (R190, R194); it enters the router's
buffers. A Tier 2 discards it (R604), as a quarantined link does but for the packet that was in progress (R197, R203). -/
def packetArrives (s : State) (p : Nat) (q : Pkt) : State :=
  let l := s.link p
  let v := vcOf q.tc q.rsp
  let c := l.credit v
  if !bitOf (s.rd (LNK_STATUS.VC_RUN p)) v ∨ c.advH < c.heldH + 1 ∨ c.advD < c.heldD + q.units then protoError s p else
  if s.tier2Drops ∨ (s.linkState p ≤ 2 ∧ !l.rxFinish) then s.setLink p (l.setCredit v
    { c with freedH := (c.freedH + 1) % 65536, freedD := (c.freedD + q.units) % 2 ^ 20 }) else
  let s1 := s.setLink p (({ l with rxFinish := false } : LinkPort).setCredit v
    { c with heldH := c.heldH + 1, heldD := c.heldD + q.units })
  { s1 with rtr := { s1.rtr with bufs := s1.rtr.bufs ++ [{ from_ := p, pkt := q, since := s.now }] } }

/-- Cuts whole packets off the words received (R181). -/
def cutPackets : Nat → State → Nat → State
  | 0, s, _ => s
  | n + 1, s, p =>
    let l := s.link p
    match packetWords l.rxWords with
    | none => s
    | some k =>
      if l.rxWords.length < k ∨ s.linkState p = 0 then s
      else cutPackets n (packetArrives (s.setLink p { l with rxWords := l.rxWords.drop k }) p (packetOf (l.rxWords.take k))) p

/-- FIRST as the stream has it: where in a flit of `n` words the first packet begins (R181). -/
def firstOf (have_ : List Dword) (new : List Dword) : Nat :=
  if new.isEmpty then 31
  else if have_.isEmpty then 0
  else match packetWords (have_ ++ new) with
    | some k => if k - have_.length < new.length then k - have_.length else 31
    | none => 31

/-- A received bypass message (R182, R203): LINK messages wait for their step, STOAT and AMM take one of 64 places; what
is unknown, or may not be carried, is discarded and counted. -/
def bypassArrives (s : State) (p : Nat) (m : List Byte) : State :=
  let l := s.link p
  let free (x : LinkPort) : LinkPort := x.setCredit 16 { x.credit 16 with freedH := ((x.credit 16).freedH + 1) % 65536 }
  let known := [0x01, 0x02, 0x03, 0x04, 0x10, 0x11, 0x12, 0x13, 0x18, 0x19, 0x1A, 0x20, 0x21, 0x22, 0x23, 0x24, 0x25, 0x26]
  match leAt m 0 1 with
  | 1 => if known.contains (leAt m 1 1) then s.setLink p { l with rxLink := l.rxLink ++ [(s.now, m)] }
    else s.bump (LNK_ERR.PROTO p) 1
  | 2 => if s.tier2Drops then (s.setLink p (free l)).bump (LNK_ERR.PROTO p) 1
    else if s.linkState p = 3 ∨ s.linkState p = 4 then s.setLink p { l with rxBypass := l.rxBypass ++ [m] }
    else (s.setLink p (free l)).bump (LNK_ERR.PROTO p) 1
  | 3 => s.setLink p { l with rxBypass := l.rxBypass ++ [m] }
  | _ => s.bump (LNK_ERR.PROTO p) 1

/-- Takes a STOAT or AMM message from its place and frees the place; the message may also come alone (R182). -/
def takeBypass (s : State) (p : Nat) (m : List Byte) : State :=
  let l := s.link p
  if l.rxBypass.contains m then
    s.setLink p (({ l with rxBypass := l.rxBypass.erase m } : LinkPort).setCredit 16
      { l.credit 16 with freedH := ((l.credit 16).freedH + 1) % 65536 })
  else s

/-- The plaintext of an accepted DATA flit: packet words and the bypass message (R180, R181). -/
def takeContent (s : State) (p : Nat) (f : HeldFlit) : State :=
  let words := (List.range f.pwords).map fun i => BitVec.ofNat 64 (leAt f.payload (8 * i) 8)
  let l := s.link p
  if 30 < f.pwords + 4 * f.blen ∨ f.first ≠ firstOf l.rxWords words then protoError s p else
  let s1 := cutPackets 40 (s.setLink p { l with rxWords := l.rxWords ++ words }) p
  if f.blen = 0 ∨ s1.linkState p = 0 then s1
  else bypassArrives s1 p ((f.payload.drop (8 * (30 - 4 * f.blen))).take (32 * f.blen))

/-- A TAG flit closes the group (R210 to R214): on a true tag the payloads are released and ACK reaches the TAG flit; on
a false one the group is a loss, F3, and a second failure of one counter quarantines the link. -/
def takeTag (s : State) (p : Nat) (h : FlitHdr) (payload : List Byte) : State :=
  let l := s.link p
  let g := l.rxGroup
  let k := keyOf l.rxKeys h.keyph
  let counter := leAt payload 0 8
  if leAt payload 8 1 = g.length ∧ counter = k.counter ∧ !g.isEmpty ∧ (payload.drop 12).take 16 = groupTag k counter g then
    let plain := g.mapIdx fun i (f : HeldFlit) => { f with payload := cryptFlit k counter i f.payload }
    let kl := s.sealLink p
    let isNew := b2n h.keyph ≠ s.rd (SEA_LINK0.RX_PH p)
    let s1 := s.setLink p { l with
      rxGroup := [], tagFailed := none
      rxKeys := (l.rxKeys.put (b2n h.keyph) { k with counter := counter + 1 }).filter fun e => !isNew || e.1 = b2n h.keyph }
    let s2 := (s1.wr (SEA_LINK0.RX_PH p) (b2n h.keyph)).setSealLink p { kl with flipTx := kl.flipTx || (isNew && kl.rekey = 2) }
    rekeyEnd (plain.foldl (fun t f => if t.linkState p = 0 then t else takeContent t p f) s2) p
  else
    let s1 := report (s.bump (LNK_ERR.TAG_FAIL p) 1) 0x0D 3 0x04 p
    let s2 := lossDetected (s1.setLink p { l with
      rxGroup := [], rxExpect := (l.rxExpect + 65535 - g.length) % 65536, tagFailed := some counter }) p
    if l.tagFailed = some counter then enterQuarantine s2 p 0x100 else s2

/-- A flit that passed RS and CRC: acknowledgement, credits and NAK of its header (R185, R187, R191). -/
def takeHeader (s : State) (p : Nat) (h : FlitHdr) : State :=
  let l0 := s.link p
  let s0 := if h.cvc ≤ 16 then s.setLink p (l0.setCredit h.cvc { l0.credit h.cvc with limH := h.chdr, limD := h.cdata }) else s
  let s1 := advanceAck s0 p h.ack
  let l := s1.link p
  if !h.nak then s1
  else if (h.ack + 1) % 65536 = l.txNext then s1
  else if l.replay.any (fun f => f.seq = (h.ack + 1) % 65536) then startReplay s1 p ((h.ack + 1) % 65536) false
  else protoError s1 p

/-- The table of R186 for a flit that passed RS and CRC. -/
def takeFlit (s : State) (p : Nat) (flit : List Byte) : State :=
  let h := hdrOf flit
  let payload := (flit.drop 12).take 240
  let s0 := takeHeader s p h
  let s1 := if h.kind = 0 then s0 else portBusy s0 p
  let l := s1.link p
  let d := (h.fseq + 65536 - l.rxExpect) % 65536
  if s1.linkState p = 0 then s1
  else if 3 ≤ h.kind then protoError s1 p
  else if h.kind = 0 then (if d ≠ 0 then lossDetected s1 p else s1)
  else if d = 0 then
    let s2 := s1.setLink p { l with rxExpect := (l.rxExpect + 1) % 65536, nakPending := false, nakSend := false, nakFrom := none }
    let f : HeldFlit := ⟨h.aad, h.blen, h.first, h.pwords, payload⟩
    if h.kind = 2 then (if s1.sealed p then takeTag s2 p h payload else protoError s2 p)
    else if s1.sealed p then s2.setLink p { s2.link p with rxGroup := l.rxGroup ++ [f] }
    else takeContent s2 p f
  else if d < 2048 then lossDetected s1 p
  else if 32768 ≤ d then s1
  else protoError s1 p

/-- A flit shows the PROBE or CAP of a new exchange (R684). -/
def newExchange (s : State) (p : Nat) (h : FlitHdr) (payload : List Byte) : Bool :=
  let m := payload.drop (8 * (30 - 4 * h.blen))
  h.kind = 1 && h.blen ≠ 0 && !s.on (LNK_STATUS.SEALED p) && (isLinkMsg m 0x01 || isLinkMsg m 0x03)

/-- After RETRAIN, a far end that has lost its state (R684): a protocol error, and a new exchange at once. -/
def resumeBroken (s : State) (p : Nat) : State :=
  exchangeStart (linkDown (s.bump (LNK_ERR.PROTO p) 1) p (some 0x01) false) p

/-- RETRAIN_RESUME (R684): the first far header is consistent, and replay resumes in the state that was left, which for
DOZE and DORMOUSE is UP, the lanes being ACTIVE (R197); or the link goes DOWN and exchanges again at once. The second
answer says that it did. -/
def resumeCheck (s : State) (p : Nat) (h : FlitHdr) (payload : List Byte) : State × Bool :=
  let l := s.link p
  let d := (h.ack + 65536 - l.txAcked) % 65536
  let ok := d ≤ (l.txNext + 65535 - l.txAcked) % 65536 && (h.fseq + 65536 - l.rxExpect) % 65536 ≤ 2047
  if ok && !newExchange s p h payload then
    let back := if l.leftState = 5 ∨ l.leftState = 6 then 3 else l.leftState
    let s1 := repoint ((setLinkState s p back).setLink p { l with resuming := false })
    (if l.replay.isEmpty then s1 else startReplay s1 p ((l.txAcked + 1) % 65536) true, false)
  else (resumeBroken s p, true)

/-- The physical lanes that carry received data, by stripe (R148, R179). -/
def rxLanes (s : State) (p : Nat) : List Nat :=
  (lowest (s.lanePort p).rxMask (s.link p).rxWidth).filterMap fun g =>
    (lanesOf s p).find? fun k => (s.lane k).aligned && s.rd (LAN_LANE_STATUS.LOGICAL k) = g

/-- Reads the frames of one flit on one lane (R133 to R138, R140): 33 bytes a frame, or a loss, which STUFF_EXH counts here
too (log entry 79). -/
def rxLaneFrames : Nat → State → Nat → List Nat → State × List Byte × Bool
  | 0, s, _, _ => (s, [], false)
  | n + 1, s, k, lv =>
    let l := s.lane k
    let inv := s.on (LAN_LANE_STATUS.INVERTED k)
    let levels := (lv.take 136).map fun x => if inv then 3 - x else x
    let (syms, run, lost) := rxFrame levels ⟨l.rxLevel, l.rxRun⟩ 0 false 132
    let (bits, gen) := scramble ((syms.flatMap grayBits ++ List.replicate 264 0).take 264) l.rxGen
    let s1 := s.setLane k { l with rxGen := gen, rxLevel := run.level, rxRun := run.count }
    let s2 := if lost then s1.bump (LAN_LANE_ERR.STUFF_EXH k) 1 else s1
    let (s3, rest, bad) := rxLaneFrames n s2 k (lv.drop 136)
    (s3, bytesOfBits 33 bits ++ rest, lost || bad)

/-- Reads one flit's frames on every lane in use: the lanes' bytes and whether a frame was lost. -/
def rxAllLanes (frames : Nat) : List (Nat × List Nat) → State → State × List (List Byte) × Bool
  | [], s => (s, [], false)
  | (k, lv) :: t, s =>
    let (s1, b, bad) := rxLaneFrames frames s k lv
    let (s2, rest, bad2) := rxAllLanes frames t s1
    (s2, b :: rest, bad || bad2)

/-- A far FSEQ that matches this end's state, which a wake waits for (R207). -/
def wakeSeen (s : State) (p : Nat) (h : FlitHdr) : State :=
  let l := s.link p
  if l.waking ∧ h.fseq = l.rxExpect then s.setLink p { l with wakeMatch := true } else s

/-- FLIT_RX (R178, R179, R186): `levels` are the levels received on each lane in use, by stripe. -/
def flitRx (s : State) (p : Nat) (levels : List (List Nat)) : State :=
  let w := (s.link p).rxWidth
  let lanes := rxLanes s p
  if s.laneState p ≠ 6 ∨ s.linkState p = 0 ∨ w = 0 ∨ lanes.length ≠ w then s else
  let (s1, bytes, lost) := rxAllLanes (8 / w) (List.zip lanes (levels ++ List.replicate w [])) s
  let word := (List.range 264).map fun j => (bytes.getD (j % w) []).getD (j / w) 0
  let s2 := s1.setLink p { s1.link p with rxFrames := ((s1.link p).rxFrames + 8 / w) % 2 ^ 32 }
  let good := (rsDecode word).find? fun c => leAt c.1 252 4 = crc32c (c.1.take 252)
  match lost, good with
  | false, some c =>
    let s3 := c.2.foldl (fun t j => t.bump (LAN_LANE_ERR.CORR_SYM (lanes.getD (j % w) 0)) 1) s2
    if (s3.link p).resuming then
      let (s4, broken) := resumeCheck s3 p (hdrOf c.1) ((c.1.drop 12).take 240)
      if broken then s4 else takeFlit s4 p c.1
    else takeFlit (wakeSeen s3 p (hdrOf c.1)) p c.1
  | _, _ => lossDetected s2 p

/-- What a slot sends before its header is filled: a sequenced flit again, a new one, or IDLE (R184, R187, R210). -/
inductive Slot
  | idle
  | again (f : SentFlit)
  | tag
  | data (msg : Option (Nat × List Byte)) (words : List (Bool × Dword))
deriving DecidableEq, Repr

/-- The transmit group must close now: 16 flits, or no further DATA flit ready (R210). -/
def mustClose (l : LinkPort) (ready : Bool) : Bool := l.txGroup.length = 16 || (l.txGroup.length ≠ 0 && !ready)

/-- Chooses what a slot sends (R184, R185, R187, R188, R210, R529); IDLE while a resumption or a wake waits for the far
end (R207, R684). -/
def chooseSlot (s : State) (p : Nat) : Slot :=
  let l := s.link p
  if l.resuming ∨ l.waking then .idle else
  match l.replayAt with
  | some a => match l.replay.find? (fun f => f.seq = a) with | some f => .again f | none => .idle
  | none =>
    let msg := (nextBypass s p).map fun e => (e.1, stampMsg s p e.2)
    let room := 30 - 4 * (match msg with | some m => m.2.length / 32 | none => 0)
    let words := (sendable s p).take room
    let ready := msg.isSome || !words.isEmpty
    let k := keyOf l.txKeys l.txPhase
    if 2048 ≤ l.replay.length then .idle
    else if s.sealed p && mustClose l ready then .tag
    else if s.sealed p && 2 ^ 32 ≤ k.counter && !(s.sealLink p).flipTx then .idle
    else if ready then .data msg words
    else .idle

/-- The header's fresh part (R186, R189, R193): in QUARANTINE credits flow for channel 16 only (R203). -/
def freshHdr (l : LinkPort) (quarantined : Bool) (h : FlitHdr) : FlitHdr :=
  let v := if quarantined then 16 else if l.reachedUp then l.cvc else 31
  let lim := ownLimits l v
  { h with ack := ackOf l, nak := l.nakSend, cvc := v
           chdr := if v = 31 then 0 else lim.1, cdata := if v = 31 then 0 else lim.2 }

/-- Sends one codeword on the lanes in use: striping, scrambling, stuffing (R133 to R138, R179). -/
def txLaneFrames : Nat → State → Nat → List Byte → State × List Nat
  | 0, s, _, _ => (s, [])
  | n + 1, s, k, b =>
    let l := s.lane k
    let (bits, gen) := scramble (bitsOfBytes (b.take 33)) l.txGen
    let (levels, run, ex) := txFrame 136 ⟨l.txLevel, l.txRun⟩ 0 false (levelsOf bits)
    let s1 := s.setLane k { l with txGen := gen, txLevel := run.level, txRun := run.count }
    let s2 := if ex then s1.bump (LAN_LANE_ERR.STUFF_EXH k) 1 else s1
    let (s3, rest) := txLaneFrames n s2 k (b.drop 33)
    (s3, levels ++ rest)

/-- The codeword of a flit goes out on the port's wire. -/
def sendWire (s : State) (p : Nat) (flit : List Byte) : State :=
  let w := (s.link p).txWidth
  let word := rsEncode flit
  let lanes := lowest (s.lanePort p).txMask w
  let (s1, out) := (List.zip lanes (List.range w)).foldl (fun (a : State × List (Nat × List TxFrame)) e =>
    let bytes := (List.range (264 / w)).map fun m => word.getD (m * w + e.2) 0
    let (t, lv) := txLaneFrames (8 / w) a.1 (8 * p + e.1) bytes
    (t, a.2 ++ [(e.1, [TxFrame.data lv])])) (s, [])
  let l := s1.link p
  (s1.setLink p { l with txFrames := (l.txFrames + 8 / w) % 2 ^ 32 }).putWire p out

/-- Sends a flit with header `h` and payload: CRC and wire, NAK and CVC bookkeeping (R177, R186, R193, R247). -/
def sendFlit (s : State) (p : Nat) (h : FlitHdr) (payload : List Byte) : State :=
  let l := s.link p
  let body := natLE 12 (freshHdr l (s.linkState p = 2) h).toNat ++ payload
  let s0 := sendWire s p (body ++ natLE 4 (crc32c body))
  let s1 := if h.kind = 0 then s0 else portBusy s0 p
  let l1 := s1.link p
  let s2 := if l.nakSend then s1.bump (LNK_REPLAY.NAKS p) 1 else s1
  s2.setLink p { l1 with
    nakSend := false
    nakFrom := if l.nakSend then some s.now else l1.nakFrom, wakeIdle := l1.wakeIdle || (l1.waking && h.kind = 0)
    cvc := nextCvc l1 l1.cvc, slots := l1.slots + 1, busySlots := l1.busySlots + b2n (h.kind ≠ 0) }

/-- Sends a new sequenced flit and keeps it for replay (R184, R185). -/
def sendNew (s : State) (p : Nat) (h : FlitHdr) (payload : List Byte) : State :=
  let l := s.link p
  let f : SentFlit := ⟨l.txNext, h.kind, h.blen, h.keyph, h.first, h.pwords, payload, false⟩
  let s1 := sendFlit s p { h with fseq := l.txNext } payload
  let l1 := s1.link p
  s1.setLink p { l1 with
    replay := l1.replay ++ [f], txNext := (l1.txNext + 1) % 65536
    replayFrom := if l1.replay.isEmpty then some s.now else l1.replayFrom }

/-- The payload of a DATA flit: packet words, zeros, the bypass message (R180). -/
def dataPayload (msg : List Byte) (words : List (Bool × Dword)) : List Byte :=
  let w := words.flatMap fun x => natLE 8 x.2.toNat
  w ++ List.replicate (240 - w.length - msg.length) 0 ++ msg

/-- The full count of a port shaper, 16 KiB in fifths of a byte (R503). -/
def portBurst : Int := 81920

/-- A port shaper's count falls by `n` bytes (R502, R503). -/
def debitPort (s : State) (p n : Nat) : State :=
  { s with sch := { s.sch with ports := s.sch.ports.upd portBurst p (· - 5 * n) } }

/-- A STOAT or AMM message debits its port shaper by 32 × BLEN while BYP_CHARGE is 1 (R503). -/
def chargeBypass (s : State) (p : Nat) (msg : Option (Nat × List Byte)) : State :=
  match msg with
  | some x => if x.1 ≠ 1 ∧ s.on SCH_CFG.BYP_CHARGE then debitPort s p x.2.length else s
  | none => s

/-- A flit waits for the port (R144). -/
def flitWaits (l : LinkPort) : Bool :=
  !l.txWords.isEmpty || !l.bpLink.isEmpty || !l.bpStoat.isEmpty || !l.bpAmm.isEmpty || l.replayAt.isSome

/-- `n` fc pass: HELD counts them while the port's ready indication is low, as it is from OFF to EXCHANGE and in FAILED
and TEST, and a flit waits (R144, R164). -/
def heldCount (s : State) (n p : Nat) : State :=
  if (s.laneState p < 6 ∨ 8 < s.laneState p) ∧ flitWaits (s.link p) then s.bump (LAN_PORT_HOLD.HELD p) n else s

/-- FRAME_SLOT (R184): a port in ACTIVE sends one flit, any other port what its lane state sends (R142; log entry 79). -/
def frameSlot (s : State) (p : Nat) : State :=
  let l := s.link p
  if !s.portPresent p then s
  else if s.laneState p ≠ 6 then laneSlot s p
  else if s.linkState p = 0 ∨ l.txWidth = 0 then s
  else match chooseSlot s p with
  | .idle => sendFlit s p { fseq := l.txNext } (List.replicate 240 0)
  | .again f =>
    if f.marked then protoError s p else
    let s1 := s.setLink p { l with
      replayAt := if l.replay.any (fun g => g.seq = (f.seq + 1) % 65536) then some ((f.seq + 1) % 65536) else none }
    sendFlit s1 p { fseq := f.seq, kind := f.kind, blen := f.blen, keyph := f.keyph, first := f.first, pwords := f.pwords }
      f.payload
  | .tag =>
    let k := keyOf l.txKeys l.txPhase
    let payload := natLE 8 k.counter ++ natLE 1 l.txGroup.length ++ List.replicate 3 0 ++ groupTag k k.counter l.txGroup
    let s1 := sendNew s p { kind := 2, keyph := l.txPhase } (payload ++ List.replicate (240 - payload.length) 0)
    s1.setLink p { s1.link p with txGroup := [], txKeys := l.txKeys.put (b2n l.txPhase) { k with counter := k.counter + 1 } }
  | .data msg words =>
    let m := match msg with | some x => x.2 | none => []
    let l1 := noteWidth { (match msg with | some x => popBypass l x.1 | none => l) with txWords := l.txWords.drop words.length } m
    let first := match words.findIdx? (·.1) with | some i => i | none => 31
    let kl := s.sealLink p
    let flip := s.sealed p && kl.flipTx && l.txGroup.isEmpty
    let ph := if flip then !l.txPhase else l.txPhase
    let s0 := chargeBypass (s.setLink p { l1 with txPhase := ph }) p msg
    let s1 := if flip then
        (s0.setSealLink p { kl with flipTx := false, oldTxEnd := some ((l.txNext + 65535) % 65536) }).wr (SEA_LINK0.TX_PH p) (b2n ph)
      else s0
    let h : FlitHdr := { kind := 1, blen := m.length / 32, keyph := s.sealed p && ph, first := first, pwords := words.length }
    let plain := dataPayload m words
    if s.sealed p then
      let k := keyOf l.txKeys ph
      let c := cryptFlit k k.counter l.txGroup.length plain
      let s2 := sendNew s1 p h c
      s2.setLink p { s2.link p with
        txGroup := (s2.link p).txGroup ++ [⟨({ h with fseq := l.txNext } : FlitHdr).aad, h.blen, h.first, h.pwords, c⟩] }
    else sendNew s1 p h plain

/-- NAK_TMO (R186): a NAK is pending, and one more goes out. -/
def nakTmo (s : State) (p : Nat) : State :=
  let l := s.link p
  if l.nakPending ∧ l.frozen.isNone ∧ s.ran l.nakFrom (100 * s.rd (LNK_TMR0.NAK_TMO p)) then
    s.setLink p { l with nakSend := true, nakFrom := none }
  else s

/-- REPLAY_TMO (R187, R188). -/
def replayTmo (s : State) (p : Nat) : State :=
  let l := s.link p
  if !l.replay.isEmpty ∧ l.frozen.isNone ∧ !l.resuming ∧ s.ran l.replayFrom (100 * s.rd (LNK_TMR0.REPLAY_TMO p)) ∧
      s.linkState p ≠ 0 then
    startReplay s p ((l.txAcked + 1) % 65536) true
  else s

/-- LOCK_TMO (R188, R197). -/
def lockTmo (s : State) (p : Nat) : State :=
  if s.linkState p ≠ 7 ∧ s.ran (s.link p).lockFrom (100000 * s.rd (LNK_TMR0.LOCK_TMO p)) then linkDown s p (some 0x01) true else s

/-- RETRAIN_BOUND (R188). -/
def retrainBound (s : State) (p : Nat) : State :=
  match (s.link p).retrainFrom with
  | some (t, rest) =>
    if s.linkState p = 7 ∧ s.ran (some t) (100000 * s.rd (LNK_TMR0.LOCK_TMO p) + rest) then linkDown s p (some 0x01) true else s
  | none => s

/-- SYMBOL_LOCK_REGAINED (R188): once no lane in use has lost lock, the timers run on and LOCK_TMO stops. -/
def lockRegained (s : State) (k : Nat) : State :=
  let p := k / 8
  let s1 := s.setLane k { s.lane k with lockLost := false }
  let still := (lanesOf s1 p).any fun j => (s1.lane j).lockLost && s1.on (LAN_LANE_STATUS.IN_USE j)
  if still ∨ s.linkState p = 7 then s1 else thaw s1 p

/-- A lane in use reports loss of symbol lock (R153, R188). -/
def laneLockLost (s : State) (k : Nat) : State :=
  let s1 := s.setLane k { s.lane k with lockLost := true }
  if s.on (LAN_LANE_STATUS.IN_USE k) then lockLost s1 (k / 8) else s1

/-- ELASTIC_SLIP (R153, R168): the fill has moved to `fill` frames from the centre. Beyond 10 SLIP counts, the buffer
recentres, and loss of lock is reported. -/
def elasticSlip (s : State) (k : Nat) (fill : BitVec 5) : State :=
  if s.laneState (k / 8) ≠ 6 then s
  else if fill.toInt.natAbs ≤ 10 then s.wr (LAN_LANE_STATUS.ELASTIC k) fill.toNat
  else laneLockLost ((s.bump (LAN_LANE_ERR.SLIP k) 1).wr (LAN_LANE_STATUS.ELASTIC k) 0) k

end Sys2Proof.Machine
end

