-- ==== Sys2Proof/Machine/LinkCtl.lean ====
section
/-! DEFINITION. Link control: probes, capabilities and verdicts, sleep and wake, width (R196 to R209). -/
namespace Sys2Proof.Machine

/-- A new CAP of this end where a field has changed (R204): sent in any state but DOWN, and in DOZE and DORMOUSE at the
exit; each starts a new judgement, and in QUARANTINE a new exchange (R197). -/
def capRefresh (s : State) (p : Nat) : State :=
  let st := s.linkState p
  let s1 := renewCap s p
  if st = 0 ∨ st = 5 ∨ st = 6 ∨ !(s.link p).capSent ∨ (s1.link p).ownCap = (s.link p).ownCap then s else
  judge (sendCap (if st = 2 then enterExchange s1 p else s1) p) p

/-- Every port whose CAP fields have changed sends a new CAP (R204, R238). -/
def capRefreshAll (s : State) : State := (List.range 12).foldl capRefresh s

/-- PROBE (R196, R201): answered with ECHO. Until it is sent, bytes 18–21 hold the PROBE's arrival. -/
def takeProbe (s : State) (p : Nat) (m : List Byte) : State :=
  if !isLinkMsg m 0x01 ∨ s.linkState p = 0 then s else
  let (s1, at_) := takeLinkMsg s p m
  if (s1.link p).resuming then resumeBroken s1 p else
  sendLink s1 p 0x02 1 ((m.drop 2).take 8 ++ natLE 8 0 ++ natLE 4 (at_ / 160000000))

/-- The measured round trip and offset (R201, R220); TIME_OFS saturates. -/
def putRtt (s : State) (p rtt : Nat) (ofs : Int) : State :=
  let o := max (-32768) (min 32767 ofs)
  (s.wr (LNK_RTT.RTT_NS p) (min rtt 65535)).wr (LNK_RTT.TIME_OFS p) (o % 65536).toNat

/-- ECHO (R201): round trip t4 − t1 − hold, the offset of the best probe; after the eighth, CAP. -/
def takeEcho (s : State) (p : Nat) (m : List Byte) : State :=
  if !isLinkMsg m 0x02 ∨ s.linkState p ≠ 1 ∨ (s.link p).capSent then s else
  let (s1, at_) := takeLinkMsg s p m
  let l := s1.link p
  let t4 := at_ / 160000000
  let rtt := t4 - leAt m 2 8 - leAt m 18 4
  let ofs : Int := (leAt m 10 8 : Int) + rtt / 2 - t4
  let better : Bool := match l.bestRtt with | some b => decide (rtt < b) | none => true
  let l1 := { l with
    echoes := l.echoes + 1, bestRtt := if better then some rtt else l.bestRtt, bestOfs := if better then ofs else l.bestOfs }
  let s2 := s1.setLink p l1
  if l1.echoes < 8 then s2 else judge (sendCap (renewCap (putRtt s2 p (l1.bestRtt.getD 0) l1.bestOfs) p) p) p

/-- CAP (R197, R200 to R202, R204). In QUARANTINE it starts a new exchange, to which this end brings a CAP of its own
where the exchange takes up changed fields (R215, R222). -/
def takeCap (s : State) (p : Nat) (m : List Byte) : State :=
  if !isLinkMsg m 0x03 ∨ s.linkState p = 0 then s else
  let (s1, _) := takeLinkMsg s p m
  if (s1.link p).resuming then resumeBroken s1 p else
  let s2 := if s1.linkState p = 2 then
      let t := enterExchange s1 p
      if (t.link p).ownGen = (s1.link p).ownGen then t else sendCap t p
    else s1
  let s3 := putVcRun (s2.setLink p { s2.link p with farCap := some m }) p
  if (s3.link p).capSent then judge s3 p else s3

/-- VERDICT (R197, R201). -/
def takeVerdict (s : State) (p : Nat) (m : List Byte) : State :=
  if !isLinkMsg m 0x04 ∨ s.linkState p = 0 then s else
  let (s1, _) := takeLinkMsg s p m
  evaluate (s1.setLink p { s1.link p with farVerdict := some (leAt m 2 2, leAt m 4 1) }) p

/-- CAP_TMO (R197): F2, DOWN, a lane retrain. A Seal exchange that was under way has failed with cause TIMEOUT (R525). -/
def capTmo (s : State) (p : Nat) : State :=
  if s.linkState p = 1 ∧ s.due (s.link p).capEnd then
    linkDown (if (s.sealLink p).running then s.wr (SEA_LINK0.CAUSE p) 5 else s) p (some 0x03) true
  else s

/-- REEXCH (R197, R215): a quarantined link exchanges again. -/
def reexch (s : State) (p : Nat) : State :=
  if s.linkState p = 2 then sendProbes (enterExchange s p) p else s

/-- LINK_SLEEP_CMD (R205): SLEEP_REQ for Doze (1) or Dormouse (2), and DRAIN. -/
def sleepCmd (s : State) (p target : Nat) : State :=
  if s.linkState p ≠ 3 then s else
  let s1 := sendLink (setLinkState s p 4) p 0x10 1 (natLE 1 target)
  s1.setLink p { s1.link p with
    sleepReq := some target, sleepAcked := none, responding := none, ackSent := false
    sleepEnd := some (s.after (100 * s.rd (LNK_TMR1.SLEEP_TMO p))) }

/-- The sleep is over or cancelled: back to UP (R197, R205, R206). -/
def sleepCancel (s : State) (p : Nat) : State :=
  let s1 := setLinkState s p 3
  evaluate (s1.setLink p { s1.link p with
    sleepReq := none, sleepAcked := none, responding := none, ackSent := false, sleepEnd := none }) p

/-- A Seal rekey is in progress (R209, R530). -/
def rekeying (s : State) (p : Nat) : Bool := s.rd (SEA_LINK0.STATE p) = 3

/-- SLEEP_REQ (R205, R209): refused, accepted into DRAIN, or crossing an own request. -/
def takeSleepReq (s : State) (p : Nat) (m : List Byte) : State :=
  if !isLinkMsg m 0x10 ∨ s.linkState p = 0 then s else
  let (s1, _) := takeLinkMsg s p m
  let l := s1.link p
  let t := leAt m 2 1
  if s.on (LNK_CTRL.NO_SLEEP p) then sendLink s1 p 0x12 1 [1]
  else if rekeying s p then sendLink s1 p 0x12 1 [2]
  else match s.linkState p, l.sleepReq with
  | 3, _ => sleepAckNow ((setLinkState s1 p 4).setLink p { l with responding := some t, ackSent := false }) p
  | 4, some own => s1.setLink p { l with sleepAcked := some (max own t) }
  | _, _ => sendLink s1 p 0x12 1 [2]

/-- SLEEP_ACK (R205). -/
def takeSleepAck (s : State) (p : Nat) (m : List Byte) : State :=
  if !isLinkMsg m 0x11 then s else
  let (s1, _) := takeLinkMsg s p m
  let l := s1.link p
  if s.linkState p = 4 ∧ l.sleepReq.isSome then s1.setLink p { l with sleepAcked := some (leAt m 2 1), sleepEnd := none } else s1

/-- SLEEP_NAK (R205): the requester returns to UP. -/
def takeSleepNak (s : State) (p : Nat) (m : List Byte) : State :=
  if !isLinkMsg m 0x12 then s else
  let (s1, _) := takeLinkMsg s p m
  if s.linkState p = 4 ∧ (s.link p).sleepReq.isSome then sleepCancel s1 p else s1

/-- WAKE (R206, R209): a sleep in progress is cancelled. -/
def takeWake (s : State) (p : Nat) (m : List Byte) : State :=
  if !isLinkMsg m 0x13 then s else
  let (s1, _) := takeLinkMsg s p m
  if s.linkState p = 4 then sleepCancel s1 p else s1

/-- SLEEP_TMO (R205). -/
def sleepTmo (s : State) (p : Nat) : State :=
  let l := s.link p
  if s.linkState p = 4 ∧ l.sleepReq.isSome ∧ l.sleepAcked.isNone ∧ s.due l.sleepEnd then
    (sleepCancel s p).bump (LNK_ERR.SLEEP_FAIL p) 1
  else s

/-- DRAIN_DONE (R205): the handshake is complete, and the lanes go to the agreed state. -/
def drainDone (s : State) (p : Nat) : State :=
  let l := s.link p
  let target := match l.sleepAcked with
    | some t => some t
    | none => if l.ackSent then l.responding else none
  match target with
  | some t =>
    if s.linkState p ≠ 4 ∨ !drained s p then s else
    let s1 := laneSleep (setLinkState s p (if t = 2 then 6 else 5)) p (t = 2)
    s1.setLink p { l with waking := false, sleepReq := none, sleepAcked := none, responding := none, ackSent := false, sleepEnd := none }
  | none => s

/-- LINK_WAKE (R206): in DRAIN the sleep is cancelled with WAKE; an end asleep starts its exit, once, which its lane timer
marks, and which a Dormouse must complete within 40 µs (R155). -/
def linkWake (s : State) (p : Nat) : State :=
  match s.linkState p with
  | 4 => sendLink (sleepCancel s p) p 0x13 1 []
  | 5 => if s.laneState p = 7 ∧ (s.lanePort p).timer.isNone then laneTimer s p 0 else s
  | 6 => if s.laneState p = 8 ∧ (s.lanePort p).timer.isNone then laneTimer s p 40000 else s
  | _ => s

/-- The end of a wake (R197, R204, R207): once an IDLE has gone out and the far FSEQ has matched, the link is UP with the
sequence state kept, and a CAP goes out if a field has changed. -/
def wakeUp (s : State) (p : Nat) : State :=
  let l := s.link p
  if l.waking ∧ l.wakeIdle ∧ l.wakeMatch then
    capRefresh (repoint ((setLinkState s p 3).setLink p { l with waking := false, wakeIdle := false, wakeMatch := false })) p
  else s

/-- DOZE_EXIT (R154, R207), of an exit that a wake has started (R206). -/
def dozeExit (s : State) (p : Nat) : State :=
  if s.laneState p = 7 ∧ (s.lanePort p).timer.isSome then linkActive (laneDozeExit s p) p else s

/-- SHORT_TRAINING (R155, R207): `live` are the settings that adaptation found, `ts1` and `ts2` the far end's frames. -/
def shortTraining (s : State) (p : Nat) (live : List Word) (ts1 ts2 : List (Nat × Nat × List Byte)) : State :=
  if s.laneState p ≠ 8 then s else
  let t := shortTrained s p live ts1 ts2
  if shortReady t p then linkActive (laneShortTraining t p) p else s

/-- A width change is under way. -/
def widthBusy (l : LinkPort) : Bool := l.widthReq.isSome || l.txWidthAt.isSome || l.rxWidthAt.isSome

/-- A width request of this end (R208). Its index is filled at transmission. -/
def widthRequest (s : State) (p w : Nat) : State :=
  if s.linkState p ≠ 3 ∨ (s.link p).txWidth = w ∨ widthBusy (s.link p) ∨ rekeying s p then s else
  let s1 := sendLink s p 0x18 1 (natLE 1 w)
  s1.setLink p { s1.link p with widthReq := some (w, none) }

/-- WIDTH_REQ (R208, R209): refused, crossing, or accepted, the answer carrying this end's own index. -/
def takeWidthReq (s : State) (p : Nat) (m : List Byte) : State :=
  if !isLinkMsg m 0x18 then s else
  let (s1, _) := takeLinkMsg s p m
  let l := s1.link p
  let w := leAt m 2 1
  let far := (w, leAt m 4 4)
  let accept (t : State) : State :=
    let t1 := sendLink t p 0x19 1 (natLE 1 w)
    t1.setLink p { t1.link p with widthReq := none, rxWidthAt := some far }
  if widthOfCode (s.rd (LAN_PORT_STATUS.WIDTH_MAX p)) < w ∨ !([2, 4, 8].contains w) then sendLink s1 p 0x1A 1 [1]
  else if s.linkState p ≠ 3 ∨ rekeying s p then sendLink s1 p 0x1A 1 [2]
  else match l.widthReq with
  | none => accept s1
  | some own =>
    if own.1 = w then s1.setLink p { l with widthReq := none, txWidthAt := own.2.map fun i => (w, i), rxWidthAt := some far }
    else if w < own.1 then accept s1
    else s1

/-- WIDTH_ACK (R208): both directions' indexes are known. -/
def takeWidthAck (s : State) (p : Nat) (m : List Byte) : State :=
  if !isLinkMsg m 0x19 then s else
  let (s1, _) := takeLinkMsg s p m
  let l := s1.link p
  match l.widthReq with
  | some (w, some i) =>
    if leAt m 2 1 = w then
      s1.setLink p { l with widthReq := none, txWidthAt := some (w, i), rxWidthAt := some (w, leAt m 4 4) }
    else s1
  | _ => s1

/-- WIDTH_NAK (R208): the width stays. -/
def takeWidthNak (s : State) (p : Nat) (m : List Byte) : State :=
  if !isLinkMsg m 0x1A then s else
  let (s1, _) := takeLinkMsg s p m
  s1.setLink p { s1.link p with widthReq := none }

/-- A frame index has been reached, modulo 2^32. -/
def indexReached (now at_ : Nat) : Bool := (now + 2 ^ 32 - at_) % 2 ^ 32 < 2 ^ 31

/-- What the lanes send as the transmit width becomes `w` (R156): two EI frames where a lane leaves use; where one
returns, its exit from Doze, or a short training and DX from Dormouse. -/
def switchFrames (s : State) (p w : Nat) : State :=
  let old := lowest (s.lanePort p).txMask (s.link p).txWidth
  let new := lowest (s.lanePort p).txMask w
  s.putWire p (((List.range s.laneCount).filter fun i => old.contains i != new.contains i).map fun i =>
    (i, if old.contains i then eiFrames s p i
      else if (s.lane (8 * p + i)).parkedDeep then shortFrames s p i ++ (dxFrames s p i).drop 1
      else dxFrames s p i))

/-- A lane returns to use (R136, R152, R156): from Dormouse its equaliser starts again from the seed and adapts to
`live`, and its generators from the LINK_SEED in force, the other lanes keeping theirs (log entry 80); from Doze it
resumes where it stopped. -/
def laneReturns (s : State) (p : Nat) (live : List Word) (k : Nat) : State :=
  if (s.lane k).parkedDeep then
    seedLane (adaptTo (seedEq s k) p [k] live) p (s.lanePort p).linkSeed (s.on (LAN_PORT_STATUS.LEADER p)) (k - 8 * p)
  else (s.setLane k { s.lane k with rxIdle := false }).wr (LAN_LANE_STATUS.ELASTIC k) 0

/-- The lanes in use become those of width `w`, returning ones by their exit (R148, R156). -/
def switchLanes (s : State) (p w : Nat) (live : List Word) : State :=
  let t := useLanes s p w
  ((usedLanes t p).filter fun k => !s.on (LAN_LANE_STATUS.IN_USE k)).foldl (fun u k => laneReturns u p live k) t

/-- The link's part of WIDTH_SWITCH (R30, R156, R208): a direction changes at its index, or a returning lane has failed
and both directions have the width that they had, the lane excluded. -/
def widthSwitch (s : State) (p : Nat) (tx : Bool) (failed : Option Nat) (live : List Word) : State :=
  let l := s.link p
  match failed with
  | some i =>
    if l.txWidthAt.isNone ∧ l.rxWidthAt.isNone then s else
    let w := l.oldWidth.getD l.txWidth
    let s1 := s.setLane (8 * p + i) { s.lane (8 * p + i) with excluded := true }
    useLanes ((s1.setLink p { l with
      txWidthAt := none, rxWidthAt := none, oldWidth := none, txWidth := w, rxWidth := w }).wr
        (LAN_PORT_STATUS.WIDTH p) (widthCode w)) p w
  | none =>
    match if tx then l.txWidthAt else l.rxWidthAt with
    | none => s
    | some (w, i) =>
      if !indexReached (if tx then l.txFrames else l.rxFrames) i then s
      else if tx then
        ((switchFrames s p w).setLink p { l with
          txWidthAt := none, txWidth := w, oldWidth := if l.rxWidthAt.isSome then some l.txWidth else none }).wr
            (LAN_PORT_STATUS.WIDTH p) (widthCode w)
      else switchLanes (s.setLink p { l with
        rxWidthAt := none, rxWidth := w, oldWidth := if l.txWidthAt.isSome then some l.rxWidth else none }) p w live

end Sys2Proof.Machine
end

