-- ==== Sys2Proof/Machine/Router.lean ====
section
/-! DEFINITION. The router (R224 to R262): partition checks, the fate of a packet, bubble flow control and the grants of
an egress, epochs, congestion sampling. -/
namespace Sys2Proof.Machine

/-- The routing table entry of a node in version `b` (R228); the sixteen entries of an uncorrectable word read as no
route (R583). -/
def routeEntry (s : State) (b node : Nat) : Nat :=
  if s.rtr.spoiled.any (fun x => x / 2 = 8192 * b + node / 16) then 0 else s.rtr.table.get 0 (b * 2 ^ 17 + node)

/-- RANK of a dimension in version `b` (R253). -/
def rankOf (s : State) (b d : Nat) : Nat := bitsOf (s.rd (RTR_VER_CFG.RANK b)) (3 * d + 2) (3 * d)

/-- The current epoch bit (R239). -/
def State.epochBit (s : State) : Nat := s.rd RTR_EPOCH.EPOCH % 2

def Pkt.isNak (p : Pkt) : Bool := p.opcode = 0x8F

/-- The partition check (R237): at link port `at_` below 12, or for the block itself at 12. -/
def pkeyPasses (s : State) (at_ : Nat) (p : Pkt) : Bool :=
  if p.pkey = 0 then p.isNak else
  (List.range 256).any fun i =>
    pkeyValid s i && s.rd (RTR_PKEY.KEY i) = p.pkey &&
      (if at_ < 12 then bitOf (s.rd (RTR_PKEY.PORTS i)) at_ else s.on (RTR_PKEY.LOCAL i))

/-- The header-only negative acknowledgement of a packet (R24, R231, R237): key 0, on the response channel of its
class; a ROUTER_NAK is never answered. -/
def routerNak (s : State) (p : Pkt) (status : Nat) : State :=
  if p.isNak then s else
  let q : Pkt :=
    { dest := p.src, src := s.node, pkey := 0, tc := p.tc, rsp := true, epoch := s.epochBit = 1, opcode := 0x8F
      seq := p.seq, stag := p.stag, tag := p.tag, ctx := p.ctx, status := status, life := s.life }
  { s with rtr := { s.rtr with inject := s.rtr.inject ++ [{ flow := .response, pkt := q.seal, xbar := 10 }] } }

/-- The ingress buffer of a packet is released: its credits go back (R191). -/
def releaseBuf (s : State) (b : RtPkt) : State :=
  if 12 ≤ b.from_ then s else
  let l := s.link b.from_
  let v := vcOf b.pkt.tc b.pkt.rsp
  let c := l.credit v
  if c.heldH = 0 then s else
  s.setLink b.from_ (l.setCredit v { c with
    heldH := c.heldH - 1, heldD := c.heldD - b.pkt.units
    freedH := (c.freedH + 1) % 2 ^ 16, freedD := (c.freedD + b.pkt.units) % 2 ^ 20 })

/-- Dimension and sense of the port a packet arrived on, where that port is routed (R225, R229). -/
def arrivalDir (s : State) (from_ : Nat) : Option Nat :=
  if from_ < 12 ∧ s.rd (RTR_PORT_CFG.DIR from_) ≠ 15 then some (s.rd (RTR_PORT_CFG.DIR from_)) else none

/-- The move from an arrival direction to direction `l` breaks R229: a U-turn, or not rising in rank. -/
def moveRefused (s : State) (ver : Nat) (arr : Option Nat) (l : Nat) : Bool :=
  match arr with
  | none => false
  | some a => if a / 2 = l / 2 then a = l else rankOf s ver (l / 2) ≤ rankOf s ver (a / 2)

/-- The packet enters its ring: it was injected, changes dimension, or arrived on a port out of routing (R233). -/
def isEntering (arr : Option Nat) (l : Nat) : Bool := match arr with | some a => a / 2 ≠ l / 2 | none => true

/-- What becomes of a packet (R231). -/
inductive Fate
  | deliver
  | stale
  | noRoute
  | order
  | toward (dir : Nat)
deriving DecidableEq, Repr

/-- A version takes no packet: not VALID, or drained (R231, R242). While a flip is armed the next version routes the
packets of neighbours that have flipped already (R246). -/
def versionDead (s : State) (ver : Nat) : Bool :=
  !s.on (RTR_VER_CFG.VALID ver) || (ver ≠ s.epochBit && s.rtr.drained && !s.on RTR_EPOCH.ARMED)

/-- The first row of R231 that applies, up to the choice of a port. -/
def fateOf (s : State) (from_ : Nat) (p : Pkt) : Fate :=
  let ver := b2n p.epoch
  if p.dest = s.node then .deliver
  else if versionDead s ver then .stale
  else
    let e := routeEntry s ver p.dest
    if 2 ^ 17 ≤ p.dest ∨ e = 0 ∨ 13 ≤ e then .noRoute
    else if moveRefused s ver (arrivalDir s from_) (e - 1) then .order
    else .toward (e - 1)

/-- A packet that waits for a direction (R226, R231). -/
def holdToward (s : State) (b : RtPkt) (dir : Nat) : State :=
  let b1 := RtPkt.repoint s { b with dir := some dir, entering := isEntering (arrivalDir s b.from_) dir }
  { s with rtr := { s.rtr with bufs := s.rtr.bufs ++ [b1] } }

/-- A packet whose header has passed its partition check is routed (R231, R237). Transport discards a delivered packet
of an unknown OPCODE at once (R264). -/
def routePacket (s : State) (b : RtPkt) : State :=
  match fateOf s b.from_ b.pkt with
  | .deliver =>
    if pkeyPasses s 12 b.pkt && !b.pkt.known then (releaseBuf s b).bump XPT_ERR2.BAD 1
    else if pkeyPasses s 12 b.pkt then
      { releaseBuf s b with rtr := { (releaseBuf s b).rtr with deliver := s.rtr.deliver ++ [b.pkt] } }
    else routerNak ((releaseBuf s b).bump (RTR_PKEY_REF.COUNT 12) 1) b.pkt stPARTITION
  | .stale => (releaseBuf s b).bump RTR_ERR.STALE 1
  | .noRoute => routerNak ((releaseBuf s b).bump RTR_ERR.NOROUTE 1) b.pkt stUNREACHABLE
  | .order => (releaseBuf s b).bump RTR_ERR.ORDER 1
  | .toward d => holdToward s b d

/-- ROUTER_PACKET on a link port: the oldest packet there whose fate is open (R231, R237). -/
def routeArrival (s : State) (port : Nat) : State :=
  match s.rtr.bufs.find? (fun b => b.from_ = port && b.dir.isNone) with
  | none => s
  | some b =>
    let s1 := { s with rtr := { s.rtr with bufs := s.rtr.bufs.erase b } }
    if pkeyPasses s port b.pkt then routePacket s1 b
    else routerNak ((releaseBuf s1 b).bump (RTR_PKEY_REF.COUNT port) 1) b.pkt stPARTITION

/-- ROUTER_PACKET on the local side: the oldest injected packet; the second answer is the packet whose key the block may
not use, which does not leave (R237). -/
def routeInjected (s : State) : State × Option Pkt :=
  match s.rtr.inject with
  | [] => (s, none)
  | o :: rest =>
    let s1 := { s with rtr := { s.rtr with inject := rest } }
    if pkeyPasses s 12 o.pkt then (routePacket s1 { from_ := 12 + o.xbar, pkt := o.pkt, since := s.now }, none)
    else (s1.bump (RTR_PKEY_REF.COUNT 12) 1, some o.pkt)

/-- A packet routed to port `q` is not blocked there: the port is UP, and its channel has the credits of the bubble rule
(R192, R197, R233, R247). -/
def unblocked (s : State) (q : Nat) (b : RtPkt) : Bool :=
  let l := s.link q
  let v := vcOf b.pkt.tc b.pkt.rsp
  let c := l.credit v
  let freeD := (c.limD + 2 ^ 20 - c.usedD) % 2 ^ 20
  let freeH := (c.limH + 2 ^ 16 - c.usedH) % 2 ^ 16
  let m := mpuOf l.maxpkt v
  s.linkState q = 3 && bitOf (s.rd (LNK_STATUS.VC_RUN q)) v &&
    (if b.entering then 2 * m ≤ freeD && 2 ≤ freeH else m ≤ freeD && 1 ≤ freeH) && b.pkt.units ≤ freeD

/-- A packet may begin on its egress now (R192, R197, R233): less than a flit's words wait there. -/
def mayBegin (s : State) (q : Nat) (b : RtPkt) : Bool :=
  b.egress = some q && unblocked s q b && (s.link q).txWords.length < 30

/-- `n` fc pass: they count as blocked for a port where a packet waits that could not begin (R247). -/
def blockedCount (s : State) (n p : Nat) : State :=
  if s.rtr.bufs.any fun b => b.egress = some p && !unblocked s p b then
    { s with rtr := { s.rtr with blocked := s.rtr.blocked.upd 0 p (· + n) } }
  else s

/-- The round-robin key of a packet: its ingress port and channel (R235). -/
def RtPkt.rrKey (b : RtPkt) : Nat := b.from_ * 16 + vcOf b.pkt.tc b.pkt.rsp

/-- The next of some packets in round-robin order after key `last`. -/
def rrPick (l : List RtPkt) (last : Nat) : Option RtPkt :=
  l.foldl (fun best b =>
    let d (x : RtPkt) : Nat := (x.rrKey + 512 - last - 1) % 512
    match best with | none => some b | some x => if d b < d x then some b else some x) none

/-- An entering packet has waited ENTRY_WAIT (R235). -/
def waitedLong (s : State) (b : RtPkt) : Bool := b.entering && b.since + ns (100 * s.rd RTR_TMR.ENTRY_WAIT) ≤ s.now

/-- The packet of some that has waited longest. -/
def oldestPkt (l : List RtPkt) : Option RtPkt :=
  l.foldl (fun best b => match best with | none => some b | some x => if b.since < x.since then some b else some x) none

/-- The packet that egress `q` grants, by the order of R235. -/
def grantChoice (s : State) (q : Nat) : Option RtPkt :=
  let el := s.rtr.bufs.filter (mayBegin s q)
  match oldestPkt (el.filter (waitedLong s)) with
  | some b => some b
  | none =>
    match rrPick (el.filter fun b => !b.entering) (s.rtr.rrCont.get 511 q) with
    | some b => some b
    | none => rrPick (el.filter fun b => b.entering) (s.rtr.rrEnt.get 511 q)

/-- The words of a packet on a link, the first marked (R181). -/
def packetStream (p : Pkt) : List (Bool × Dword) :=
  (List.range p.wordCount).map fun i => (i = 0, BitVec.ofNat 64 (leAt p.wire (8 * i) 8))

/-- EGRESS_GRANT (R230, R233, R235): credits for the whole packet are taken, and its buffer is released. -/
def egressGrant (s : State) (q : Nat) : State :=
  match grantChoice s q with
  | none => s
  | some b =>
    let l := s.link q
    let v := vcOf b.pkt.tc b.pkt.rsp
    let c := l.credit v
    let l1 := l.setCredit v { c with usedH := (c.usedH + 1) % 2 ^ 16, usedD := (c.usedD + b.pkt.units) % 2 ^ 20 }
    let s1 := s.setLink q { l1 with txWords := l1.txWords ++ packetStream b.pkt }
    let r := s1.rtr
    releaseBuf { s1 with rtr := { r with
      bufs := r.bufs.erase b
      rrCont := if b.entering then r.rrCont else r.rrCont.set 511 q b.rrKey
      rrEnt := if b.entering ∧ !waitedLong s b then r.rrEnt.set 511 q b.rrKey else r.rrEnt } } b

/-- DOWN_HOLD_TMO (R231): a packet held for an unusable direction is discarded, and counted where R231 names. -/
def downHoldTmo (s : State) : State :=
  match s.rtr.bufs.find? (fun b => b.dir.isSome && b.egress.isNone && s.due b.downEnd) with
  | none => s
  | some b =>
    let s1 := releaseBuf { s with rtr := { s.rtr with bufs := s.rtr.bufs.erase b } } b
    let at_ := match b.lastEgress with | some q => some q | none => hashPick (stripeSet s (b.dir.getD 15)) b.pkt
    match at_ with
    | some q => s1.bump (RTR_PORT_STAT.DOWN_DROP q) 1
    | none => s1.bump RTR_ERR.NOROUTE 1

/-- ENTRY_WAIT (R235): an entering packet that has waited long enough counts, once. -/
def entryWait (s : State) : State :=
  match s.rtr.bufs.find? fun b => waitedLong s b && !b.late && b.egress.isSome with
  | none => s
  | some b =>
    let s1 := { s with rtr := { s.rtr with bufs := s.rtr.bufs.map fun x => if x = b then { x with late := true } else x } }
    s1.bump (RTR_CONG.ENTRY_LATE (b.egress.getD 0)) 1

/-- The flip time T in nanoseconds (R251). -/
def flipTime (s : State) : Nat := s.rd RTR_FLIP_TIME_LO.TIME_LO + 2 ^ 32 * s.rd RTR_FLIP_TIME_HI.TIME_HI

/-- The flip at time T (R239, R242, R243): EPOCH advances, draining starts. -/
def doFlip (s : State) (t : Nat) : State :=
  let s1 := (((s.wrapAdd RTR_EPOCH.EPOCH 1).wr RTR_EPOCH.ARMED 0).wr RTR_EPOCH.DRAINING 1).wr RTR_EPOCH.OLD_FREE 0
  capRefreshAll { s1 with rtr := { s1.rtr with
    drained := false, deadline := some (ns t + ns (100000 * s.rd RTR_TMR.DRAIN_LIMIT)) } }

/-- FLIP_ARM (R240). -/
def flipArm (s : State) : State :=
  if !s.on RTR_EPOCH.OLD_FREE ∨ !s.on (RTR_VER_CFG.VALID (1 - s.epochBit)) then s.bump RTR_ERR.TBLWR 1
  else if flipTime s ≤ s.nowNs then doFlip (s.wr RTR_EPOCH.LATE 1) (flipTime s)
  else ({ s with rtr := { s.rtr with flipAt := flipTime s } } : State).wr RTR_EPOCH.ARMED 1

/-- RTR_CTRL.HOLD is written (R245): the bit held is the next version's, or the current one's while a flip drains. -/
def setHold (s : State) (on : Bool) : State :=
  let b := if s.on RTR_EPOCH.DRAINING then s.epochBit else 1 - s.epochBit
  { s.wr RTR_CTRL.HOLD (b2n on) with rtr := { s.rtr with
      holdBit := if on then (if s.rtr.holdBit.isSome then s.rtr.holdBit else some b) else none } }

/-- A Tier 2 runs: a flip time or a deadline that passes takes effect when it completes (R246). -/
def State.inTier2 (s : State) : Bool := match s.bdg.tier with | some r => r.n = 2 | none => false

/-- EPOCH_FLIP (R239, R246): fabric time reaches the T that was armed. -/
def epochFlip (s : State) : State :=
  if s.on RTR_EPOCH.ARMED ∧ s.rtr.flipAt ≤ s.nowNs ∧ !s.inTier2 then doFlip s s.rtr.flipAt else s

/-- Buffers that carry the epoch bit which is not current. -/
def oldBit (s : State) (p : Pkt) : Bool := b2n p.epoch ≠ s.epochBit

/-- DRAIN_DEADLINE (R242, R243, R246): old-bit packets are discarded, each link port records TX_NEXT. -/
def drainDeadline (s : State) : State :=
  if !s.due s.rtr.deadline ∨ s.inTier2 then s else
  let old := s.rtr.bufs.filter fun b => oldBit s b.pkt
  let s1 := old.foldl (fun t b => (releaseBuf t b).bump RTR_ERR.STALE 1)
    { s with rtr := { s.rtr with bufs := s.rtr.bufs.filter (fun b => !oldBit s b.pkt), drained := true, deadline := none } }
  cleanCheck { s1 with links := s1.links.mapAll {} fun p l =>
    { l with drainMark := if s1.linkState p = 0 ∨ s1.linkState p = 2 ∨ l.txAcked = (l.txNext + 65535) % 65536 then none else some l.txNext } }

/-- A smoothed value moves toward its target; the division rounds toward zero (R247). -/
def smooth (v target shift : Nat) : Nat := ((v : Int) + (((target : Int) - v).tdiv (2 ^ shift))).toNat

/-- CONG_SAMPLE (R247) of a port, at the end of its window. A window of PERIOD holds 180 fc for each 0.1 µs; the next
begins where it ended, or now where more than one has passed. -/
def congSample (s : State) (p : Nat) : State :=
  let len := ns (100 * s.rd RTR_CONG_CFG.PERIOD)
  let end_ := s.rtr.congFrom.get 0 p + len
  if s.now < end_ then s else
  let l := s.link p
  let sh := s.rd RTR_CONG_CFG.SHIFT
  let b := min 15 (16 * s.rtr.blocked.get 0 p / (180 * s.rd RTR_CONG_CFG.PERIOD))
  let u := min 15 (16 * l.busySlots / l.slots)
  let s1 : State := { s with rtr := { s.rtr with
    congFrom := s.rtr.congFrom.set 0 p (if s.now < end_ + len then end_ else s.now), blocked := s.rtr.blocked.set 0 p 0 } }
  ((s1.setLink p { l with slots := 0, busySlots := 0 }).wr (RTR_CONG.LEVEL p) (smooth (s.rd (RTR_CONG.LEVEL p)) b sh)).wr
    (RTR_CONG.UTIL p) (smooth (s.rd (RTR_CONG.UTIL p)) u sh)

/-- Packets with an epoch bit in the router's buffers (R256). -/
def resident (s : State) (bit : Bool) : Nat := s.rtr.bufs.countP fun b => b.pkt.epoch = bit

/-- A write to the table window or RTR_VER_CFG of a version is refused (R241). -/
def tableLocked (s : State) (ver : Nat) : Bool :=
  ver = s.epochBit || !s.on RTR_EPOCH.OLD_FREE || s.on RTR_EPOCH.ARMED

/-- A table word whose protected word is uncorrectable and that firmware has not rewritten: R241 does not refuse its
repair (R583). -/
def wordSpoiled (s : State) (ver word : Nat) : Bool := s.rtr.spoiled.contains (16384 * ver + word)

/-- Writes 8 entries of a routing table as one word (R228), which mends it where it was uncorrectable (R583). -/
def writeTableWord (s : State) (ver word : Nat) (w : Nat) : State :=
  { s with rtr := { s.rtr with spoiled := s.rtr.spoiled.erase (16384 * ver + word), table := (List.range 8).foldl (fun t i =>
      t.set 0 (ver * 2 ^ 17 + 8 * word + i) (bitsOf w (4 * i + 3) (4 * i))) s.rtr.table } }

/-- A word of a routing table (R228). -/
def readTableWord (s : State) (ver word : Nat) : Nat :=
  (List.range 8).foldl (fun a i => a + routeEntry s ver (8 * word + i) * 2 ^ (4 * i)) 0

end Sys2Proof.Machine
end

