-- ==== Sys2Proof/Machine/Arith.lean ====
section
/-! DEFINITION. Number formats and the arithmetic of reductions (R431 to R447, R452, R456): decoding, the EXACT partial,
round to odd, the final rounding, MX blocks, and binary32 operations. -/
namespace Sys2Proof.Machine

/-- How an element format uses its all-ones exponent (R431, R432). -/
inductive Special | ieee | e4m3 | none
deriving DecidableEq, Repr

/-- An element format: its fields and its special values. -/
structure Elem where
  f : Fmt
  sp : Special
deriving DecidableEq, Repr

def elemF32 : Elem := ⟨fmtF32, .ieee⟩
def elemE4M3 : Elem := ⟨⟨4, 3, 7⟩, .e4m3⟩
def elemE5M2 : Elem := ⟨⟨5, 2, 15⟩, .ieee⟩
def elemE2M3 : Elem := ⟨⟨2, 3, 1⟩, .none⟩
def elemE3M2 : Elem := ⟨⟨3, 2, 3⟩, .none⟩
def elemE2M1 : Elem := ⟨⟨2, 1, 1⟩, .none⟩

/-- The element format of a format code (R431). -/
def elemOf (code : Nat) : Elem :=
  match code with
  | 0 => elemF32
  | 1 => ⟨fmtBf16, .ieee⟩
  | 2 => ⟨fmtF16, .ieee⟩
  | 3 => elemE4M3
  | 4 => elemE5M2
  | 5 => elemE4M3
  | 6 => elemE5M2
  | 7 => elemE2M3
  | 8 => elemE3M2
  | _ => elemE2M1

/-- The code is an MX format, held in chunks (R431, R433). -/
def isMx (code : Nat) : Bool := 5 ≤ code

/-- Bits of one element. -/
def Elem.bits (e : Elem) : Nat := 1 + e.f.eb + e.f.fb

/-- The unit size of a format in bytes: 4, 2 or 1, or 1,024 for an MX chunk (R436). -/
def unitOf (code : Nat) : Nat := match code with | 0 => 4 | 1 => 2 | 2 => 2 | 3 => 1 | 4 => 1 | _ => 1024

/-- Blocks in an MX chunk (R433). -/
def mxBlocks (code : Nat) : Nat := if code = 5 ∨ code = 6 then 31 else if code = 7 ∨ code = 8 then 40 else 60

/-- First byte of the scales in an MX chunk (R433). -/
def mxScaleAt (code : Nat) : Nat := if code = 5 ∨ code = 6 then 992 else 960

/-- Elements per unit: 1, or those of a chunk (R433). -/
def perUnit (code : Nat) : Nat := if isMx code then 32 * mxBlocks code else 1

/-- The value that an element's bits spell (R432). -/
def Elem.decode (e : Elem) (b : Nat) : Fv :=
  let ones := 2 ^ e.f.eb - 1
  let ex := b / 2 ^ e.f.fb % 2 ^ e.f.eb
  let fr := b % 2 ^ e.f.fb
  let neg := b / 2 ^ (e.f.eb + e.f.fb) % 2 = 1
  if e.sp = .ieee then e.f.decode b
  else if e.sp = .e4m3 ∧ ex = ones ∧ fr = 2 ^ e.f.fb - 1 then .nan
  else
    let m := if ex = 0 then fr else fr + 2 ^ e.f.fb
    .fin neg ⟨if neg then -(m : Int) else m, (if ex = 0 then 1 else (ex : Int)) - e.f.bias - e.f.fb⟩

/-- A value times 2^k. -/
def Fv.scale (v : Fv) (k : Int) : Fv := match v with | .fin n d => .fin n ⟨d.m, d.e + k⟩ | w => w

/-- The largest finite magnitude: significand and exponent. -/
def Elem.maxFin (e : Elem) : Nat × Int :=
  let top : Int := match e.sp with | .ieee => (2 ^ e.f.eb - 2 : Nat) | _ => (2 ^ e.f.eb - 1 : Nat)
  ((if e.sp = .e4m3 then 2 ^ (e.f.fb + 1) - 2 else 2 ^ (e.f.fb + 1) - 1), top - e.f.bias - e.f.fb)

/-- The bits of the largest finite value of a sign. -/
def Elem.maxBits (e : Elem) (neg : Bool) : Nat :=
  b2n neg * 2 ^ (e.f.eb + e.f.fb) +
    (match e.sp with
     | .ieee => (2 ^ e.f.eb - 1) * 2 ^ e.f.fb - 1
     | .e4m3 => 2 ^ (e.f.eb + e.f.fb) - 2
     | .none => 2 ^ (e.f.eb + e.f.fb) - 1)

/-- `m × 2^e` is greater than `n × 2^f`. -/
def magGt (m : Nat) (e : Int) (n : Nat) (f : Int) : Bool :=
  let d := min e f
  n * 2 ^ (f - d).toNat < m * 2 ^ (e - d).toNat

/-- The canonical NaN of a standalone format (R446). -/
def Elem.nanBits (e : Elem) : Nat := if e.sp = .e4m3 then 2 ^ (e.f.eb + e.f.fb) - 1 else e.f.qnan

/-- A finite value rounded to nearest even to the format's grid; a magnitude beyond the largest finite value becomes
infinity, or that value where `sat` or the format has no infinity. Answers the bits and whether that happened (R446). -/
def Elem.rne (e : Elem) (sat neg : Bool) (v : Dy) : Nat × Bool :=
  let sgn := v.m < 0 ∨ (v.m = 0 ∧ neg)
  let s := b2n sgn * 2 ^ (e.f.eb + e.f.fb)
  if v.m = 0 then (s, false) else
  let (m, q) := e.f.round v.m.natAbs v.e
  let (mm, mq) := e.maxFin
  if magGt m q mm mq then
    ((if sat ∨ e.sp ≠ .ieee then e.maxBits sgn else s + (2 ^ e.f.eb - 1) * 2 ^ e.f.fb), true)
  else if m < 2 ^ e.f.fb then (s + m, false)
  else (s + (q + e.f.fb + e.f.bias).toNat * 2 ^ e.f.fb + (m - 2 ^ e.f.fb), false)

/-- Infinity of a sign in a format that has it. -/
def Elem.infBits (e : Elem) (neg : Bool) : Nat := b2n neg * 2 ^ (e.f.eb + e.f.fb) + (2 ^ e.f.eb - 1) * 2 ^ e.f.fb

/-- The final rounding to a standalone format (R446): the bits, whether the event counts in OUT_OVF, and whether the
result is NaN. A zero result is +0, but an exact −0 keeps its sign. -/
def Elem.final (e : Elem) (v : Fv) : Nat × Bool × Bool :=
  match v with
  | .nan => (e.nanBits, false, true)
  | .inf n => if e.sp = .ieee then (e.infBits n, false, false) else (e.maxBits n, true, false)
  | .fin n d =>
    let (b, o) := e.rne false n d
    (if d.m ≠ 0 ∧ b % 2 ^ (e.f.eb + e.f.fb) = 0 then 0 else b, o, false)

/-- A value whose zero carries no sign (R446). -/
def Fv.posZero (v : Fv) : Fv := match v with | .fin n d => .fin (n && d.m ≠ 0) d | w => w

-- binary32 operations, each rounded to nearest even (R452)

def f32 (b : Nat) : Fv := fmtF32.decode b
/-- The binary32 bits nearest to a value. -/
def f32Of (v : Fv) : Nat :=
  match v with | .nan => 0x7FC00000 | .inf n => elemF32.infBits n | .fin n d => (elemF32.rne false n d).1
def f32NaN : Nat := 0x7FC00000

def f32Add (a b : Nat) : Nat := fmtF32.addBits a b

/-- The negation of a binary32 value. -/
def f32Neg (a : Nat) : Nat := if a < 2 ^ 31 then a + 2 ^ 31 else a - 2 ^ 31

def f32Sub (a b : Nat) : Nat := if f32 b = .nan then f32NaN else f32Add a (f32Neg b)

def f32Mul (a b : Nat) : Nat :=
  match f32 a, f32 b with
  | .nan, _ => f32NaN
  | _, .nan => f32NaN
  | .inf x, .inf y => f32Of (.inf (x != y))
  | .inf x, .fin y v => if v.m = 0 then f32NaN else f32Of (.inf (x != y))
  | .fin x v, .inf y => if v.m = 0 then f32NaN else f32Of (.inf (x != y))
  | .fin x u, .fin y v => f32Of (.fin (x != y) (u.mul v))

/-- A quotient with enough bits and a sticky bit for one correct rounding. -/
def dyDiv (a b : Dy) : Dy :=
  let k := 64 + Nat.log2 b.m.natAbs
  let n := a.m.natAbs * 2 ^ k
  let q := n / b.m.natAbs
  let m : Int := Int.ofNat (2 * q + (if n % b.m.natAbs = 0 then 0 else 1))
  ⟨if (a.m < 0) = (b.m < 0) then m else -m, a.e - b.e - k - 1⟩

def f32Div (a b : Nat) : Nat :=
  match f32 a, f32 b with
  | .nan, _ => f32NaN
  | _, .nan => f32NaN
  | .inf _, .inf _ => f32NaN
  | .inf x, .fin y _ => f32Of (.inf (x != y))
  | .fin x _, .inf y => f32Of (.fin (x != y) ⟨0, 0⟩)
  | .fin x u, .fin y v =>
    if v.m = 0 then (if u.m = 0 then f32NaN else f32Of (.inf (x != y)))
    else if u.m = 0 then f32Of (.fin (x != y) ⟨0, 0⟩)
    else f32Of (.fin (x != y) (dyDiv u v))

/-- The integer square root, by bits from `k` down. -/
def isqrt (n : Nat) : Nat → Nat → Nat
  | 0, r => r
  | k + 1, r => if (r + 2 ^ k) * (r + 2 ^ k) ≤ n then isqrt n k (r + 2 ^ k) else isqrt n k r

def f32Sqrt (a : Nat) : Nat :=
  match f32 a with
  | .nan => f32NaN
  | .inf n => if n then f32NaN else a
  | .fin n v =>
    if v.m = 0 then f32Of (.fin n ⟨0, 0⟩)
    else if v.m < 0 then f32NaN
    else
      let e := if v.e % 2 = 0 then v.e else v.e - 1
      let m := v.m.natAbs * 2 ^ (v.e - e).toNat * 2 ^ 64
      let r := isqrt m 64 0
      f32Of (.fin false ⟨Int.ofNat (2 * r + (if r * r = m then 0 else 1)), e / 2 - 33⟩)

/-- The value is infinite or NaN. -/
def f32NonFinite (a : Nat) : Bool := match f32 a with | .fin _ _ => false | _ => true

/-- The sum rounded to odd (R443). -/
def addOdd (a b : Nat) : Nat :=
  match f32 a, f32 b with
  | .nan, _ => f32NaN
  | _, .nan => f32NaN
  | .inf x, .inf y => if x = y then a else f32NaN
  | .inf _, _ => a
  | _, .inf _ => b
  | .fin x u, .fin y v =>
    let d := u.add v
    if d.m = 0 then (if x && y then 2 ^ 31 else 0)
    else if !magGt (2 ^ 24) 104 d.m.natAbs d.e then f32Of (.inf (d.m < 0))
    else
      let top : Int := Int.ofNat (Nat.log2 d.m.natAbs) + d.e
      let q := max (-149) (top - 23)
      let t := if q ≤ d.e then d.m.natAbs * 2 ^ (d.e - q).toNat else d.m.natAbs / 2 ^ (q - d.e).toNat
      let exact := q ≤ d.e ∨ d.m.natAbs % 2 ^ (q - d.e).toNat = 0
      let m := if exact then t else t ||| 1
      b2n (d.m < 0) * 2 ^ 31 + (if m < 2 ^ 23 then m else (q + 150).toNat * 2 ^ 23 + (m - 2 ^ 23))

/-- The sum without a rounding (R444). -/
def addExact (a b : Fv) : Fv :=
  match a, b with
  | .nan, _ => .nan
  | _, .nan => .nan
  | .inf x, .inf y => if x = y then .inf x else .nan
  | .inf x, _ => .inf x
  | _, .inf y => .inf y
  | .fin x u, .fin y v => .fin (x && y) (u.add v)

-- EXACT (R438 to R441)

/-- An EXACT partial: a sentinel or an integer multiple of 2^F. -/
inductive Part
  | xnan
  | sat (neg : Bool)
  | int (v : Int)
deriving DecidableEq, Repr

/-- The partial that 64 bits spell (R438). -/
def Part.ofBits (b : Nat) : Part :=
  if b = 2 ^ 63 then .xnan
  else if b = 2 ^ 63 - 1 then .sat false
  else if b = 2 ^ 63 + 1 then .sat true
  else .int (if b < 2 ^ 63 then (b : Int) else (b : Int) - 2 ^ 64)

/-- The 64 bits of a partial, narrowed as before it is forwarded, and whether it is +SAT or −SAT then (R438, R440). -/
def Part.bits (p : Part) : Nat × Bool :=
  match p with
  | .xnan => (2 ^ 63, false)
  | .sat n => (if n then 2 ^ 63 + 1 else 2 ^ 63 - 1, true)
  | .int v =>
    if 2 ^ 63 - 1 ≤ v then (2 ^ 63 - 1, true)
    else if v ≤ -(2 ^ 63 - 1) then (2 ^ 63 + 1, true)
    else ((v % 2 ^ 64).toNat, false)

/-- Two partials combine (R440). -/
def Part.combine (a b : Part) : Part :=
  match a, b with
  | .xnan, _ => .xnan
  | _, .xnan => .xnan
  | .sat x, .sat y => if x = y then .sat x else .xnan
  | .sat x, _ => .sat x
  | _, .sat y => .sat y
  | .int u, .int v => .int (u + v)

/-- The EXACT form of a contribution, and whether it lost bits below the floor `f` (R439). -/
def convertExact (f : Int) (x : Fv) : Part × Bool :=
  match x with
  | .nan => (.xnan, false)
  | .inf n => (.sat n, false)
  | .fin _ d =>
    let m := d.m.natAbs
    let u := if f ≤ d.e then m * 2 ^ (d.e - f).toNat else m / 2 ^ (f - d.e).toNat
    let drop := d.e < f ∧ m % 2 ^ (f - d.e).toNat ≠ 0
    if 2 ^ 44 ≤ u then (.sat (d.m < 0), false) else (.int (if d.m < 0 then -(u : Int) else u), drop)

/-- The value of a final partial with window floor `f` and result scale `k`; a saturated one has none (R441). -/
def Part.value (p : Part) (f k : Int) : Option Fv :=
  match p with | .xnan => some .nan | .sat _ => none | .int v => some (.fin false ⟨v, f + k⟩)

-- Elements of a stream of units (R432, R433)

/-- Element `t` of an MX chunk that begins at byte `at_` (R432, R433). -/
def mxElem (code : Nat) (b : List Byte) (at_ t : Nat) : Fv :=
  let x := leAt b (at_ + mxScaleAt code + t / 32) 1
  let w := (elemOf code).bits
  let raw := leAt b (at_ + w * t / 8) 2 / 2 ^ (w * t % 8) % 2 ^ w
  if x = 0xFF then .nan else ((elemOf code).decode raw).scale (Int.ofNat x - 127)

/-- The elements of `n` units of a format (R432, R436). -/
def decodeUnits (code n : Nat) (b : List Byte) : List Fv :=
  if isMx code then (List.range n).flatMap fun c => (List.range (perUnit code)).map fun t => mxElem code b (1024 * c) t
  else (List.range n).map fun e => (elemOf code).decode (leAt b (unitOf code * e) (unitOf code))

/-- The elements of a byte stream. -/
def decodeBytes (code : Nat) (b : List Byte) : List Fv := decodeUnits code (b.length / unitOf code) b

/-- floor(log2 of a positive finite magnitude). -/
def Dy.log2 (d : Dy) : Int := Int.ofNat (Nat.log2 d.m.natAbs) + d.e

/-- The largest magnitude of a block as R447 takes it: none for zero, or its binary exponent; 1,000 for infinity. -/
def mxTop (l : List Fv) : Option Int :=
  l.foldl (fun a v =>
    match v with
    | .nan => a
    | .inf _ => some 1000
    | .fin _ d => if d.m = 0 then a else some (match a with | none => d.log2 | some x => max x d.log2)) none

/-- emax of R447. -/
def mxEmax (code : Nat) : Int := match code with | 5 => 8 | 6 => 15 | 7 => 2 | 8 => 4 | _ => 2

/-- One element of an MX block of scale `x`: its bits, and whether it saturated (R446, R447). -/
def mxOne (code : Nat) (x : Int) (v : Fv) : Nat × Bool :=
  let e := elemOf code
  match v with
  | .inf n => if code = 6 then (e.infBits n, false) else (e.maxBits n, true)
  | .fin n d =>
    let (b, o) := e.rne true n ⟨d.m, d.e - (x - 127)⟩
    (if d.m ≠ 0 ∧ b % 2 ^ (e.f.eb + e.f.fb) = 0 then 0 else b, o)
  | .nan => (0, false)

/-- An MX output block: the scale, the elements, and how many saturated (R447). -/
def mxBlock (code : Nat) (l : List Fv) : Nat × List Nat × Nat :=
  if l.any (fun v => v = .nan) then (0xFF, l.map fun _ => 0, 0) else
  let x : Int := match mxTop l with | none => 0 | some t => if t = 1000 then 254 else max 0 (min 254 (t - mxEmax code + 127))
  (x.toNat, l.map fun v => (mxOne code x v).1, l.countP fun v => (mxOne code x v).2)

/-- Results written as NaN among `n` chunks: every element of a block that holds one (R446, R447). -/
def mxNans (code n : Nat) (l : List Fv) : Nat :=
  32 * (List.range (n * mxBlocks code)).countP fun b => ((l.drop (32 * b)).take 32).any fun v => v = .nan

/-- Packs elements of `w` bits, the first in the lowest bits. -/
def packBits (w : Nat) (l : List Nat) : Nat := l.foldr (fun e a => e + 2 ^ w * a) 0

/-- The MX chunks of a list of values, and how many saturated (R433, R447): `n` chunks. -/
def mxChunks (code : Nat) : Nat → List Fv → List Byte × Nat
  | 0, _ => ([], 0)
  | n + 1, l =>
    let k := perUnit code
    let blocks := (List.range (mxBlocks code)).map fun b => mxBlock code ((l.drop (32 * b)).take 32)
    let w := (elemOf code).bits
    let plane := natLE (mxScaleAt code) (packBits w (blocks.flatMap fun b => b.2.1))
    let body := plane ++ blocks.map (fun b => BitVec.ofNat 8 b.1)
    let rest := mxChunks code n (l.drop k)
    (body ++ List.replicate (1024 - body.length) 0 ++ rest.1, (blocks.map (·.2.2)).sum + rest.2)

-- Contributions as partials (R438, R442)

/-- Bytes of one partial element: 8 in EXACT, 4 in ORDERED and FAST. -/
def partSize (mode : Nat) : Nat := if mode = 0 then 8 else 4

/-- A contribution decoded to binary32, and whether it reached 2^128 (R442). -/
def toF32 (v : Fv) : Nat × Bool :=
  match v with
  | .nan => (f32NaN, false)
  | .inf n => (f32Of (.inf n), false)
  | .fin n d =>
    if d.m ≠ 0 ∧ !magGt (2 ^ 24) 104 d.m.natAbs d.e then (f32Of (.inf n), true) else ((elemF32.rne false n d).1, false)

/-- One contribution's partial: its bytes, and the counts FLOOR_DROP, SAT and FP32_OVF. -/
def partOf (mode : Nat) (f : Int) (v : Fv) : List Byte × Nat × Nat × Nat :=
  if mode = 0 then
    let (p, d) := convertExact f v
    (natLE 8 p.bits.1, b2n d, (match p with | .sat _ => 1 | _ => 0), 0)
  else let (b, o) := toF32 v; (natLE 4 b, 0, 0, b2n o)

/-- The partials of a contribution with their counts (R439, R442). -/
def partsOf (mode : Nat) (f : Int) (l : List Fv) : List Byte × Nat × Nat × Nat :=
  let ps := l.map (partOf mode f)
  (ps.flatMap (·.1), (ps.map (·.2.1)).sum, (ps.map (·.2.2.1)).sum, (ps.map (·.2.2.2)).sum)

/-- Element `e` of several slices, combined in their order for forwarding, with whether it is saturated (R440, R443). -/
def combineAt (mode : Nat) (l : List (List Byte)) (e : Nat) : List Byte × Bool :=
  if mode = 0 then
    let ps := l.map fun b => Part.ofBits (leAt b (8 * e) 8)
    let r := (match ps with | [] => Part.int 0 | p :: t => t.foldl Part.combine p).bits
    (natLE 8 r.1, r.2)
  else
    let ps := l.map fun b => leAt b (4 * e) 4
    (natLE 4 (match ps with | [] => 0 | p :: t => t.foldl addOdd p), false)

/-- The exact value of element `e` at the owner, times 2^scale: none where the EXACT partial is saturated, with its sign
(R441, R444). -/
def finalAt (mode : Nat) (f scale : Int) (l : List (List Byte)) (e : Nat) : Fv ⊕ Bool :=
  if mode = 0 then
    let ps := l.map fun b => Part.ofBits (leAt b (8 * e) 8)
    let r := match ps with | [] => Part.int 0 | p :: t => t.foldl Part.combine p
    match r with | .sat n => .inr n | p => .inl ((p.value f scale).getD .nan)
  else
    let ps := l.map fun b => leAt b (4 * e) 4
    match ps.reverse with
    | [] => .inl (.fin false ⟨0, 0⟩)
    | [p] => .inl ((f32 p).scale scale)
    | last :: rest =>
      let acc := match rest.reverse with | [] => 0 | p :: t => t.foldl addOdd p
      .inl ((addExact (f32 acc) (f32 last)).scale scale)

/-- The largest finite value of a format (R441). -/
def Elem.maxVal (e : Elem) (neg : Bool) : Fv :=
  let (m, q) := e.maxFin
  .fin neg ⟨if neg then -(m : Int) else m, q⟩

/-- The value that R447 or the update stage takes for one element: exact for an EXACT sum that becomes an MX block,
binary32 otherwise; and whether it derives from ±SAT (R441, R444, R447). -/
def wideOf (code mode : Nat) (rug : Bool) (x : Fv ⊕ Bool) : Fv × Bool :=
  match x with
  | .inr n => (if rug then elemF32.maxVal n else ((elemOf code).maxVal n).scale 127, true)
  | .inl v => (if rug ∨ mode ≠ 0 then f32 (f32Of v) else v, false)

/-- The result of one element in standalone format `code`: its bits, the counts OUT_OVF and NAN, and whether it derives
from ±SAT (R441, R444, R446). -/
def resultOf (code : Nat) (x : Fv ⊕ Bool) : Nat × Nat × Nat × Bool :=
  let e := elemOf code
  match x with
  | .inr n => (e.maxBits n, 0, 0, true)
  | .inl v => let (b, o, n) := e.final v; (b, b2n o, b2n n, false)

-- Stoat (R420, R456)

/-- MIN_F32 and MAX_F32: −0 lies below +0, any NaN gives the canonical one. -/
def f32Order (mx : Bool) (a b : Nat) : Nat :=
  let key (v : Nat) : Int := if v < 2 ^ 31 then (v : Int) else -1 - ((v : Int) - 2 ^ 31)
  if f32 a = .nan ∨ f32 b = .nan then f32NaN
  else if (key a ≤ key b) = !mx then a else b

/-- Bytes of a Stoat element on the wire. -/
def stoElem (op : Nat) : Nat := if op ≤ 8 then 8 else if op ≤ 10 then 4 else 1

/-- Two Stoat elements of another operation than ADD_EXACT combine (R420). -/
def stoOp (op a b : Nat) : Nat :=
  let sg (v : Nat) : Int := if v < 2 ^ 63 then (v : Int) else (v : Int) - 2 ^ 64
  match op with
  | 0 => (a + b) % 2 ^ 64
  | 1 => if sg a ≤ sg b then a else b
  | 2 => if sg a ≤ sg b then b else a
  | 3 => min a b
  | 4 => max a b
  | 5 => a &&& b
  | 6 => a ||| b
  | 7 => a ^^^ b
  | 9 => f32Order false a b
  | 10 => f32Order true a b
  | _ => a ||| b

/-- Stoat elements combine; EXACT partials in an accumulator that is narrowed at the end (R440, R456). -/
def stoFold (op : Nat) (l : List Nat) : Nat :=
  match l with
  | [] => 0
  | x :: t => if op = 8 then ((t.map Part.ofBits).foldl Part.combine (Part.ofBits x)).bits.1 else t.foldl (stoOp op) x

/-- Stoat values combine element by element, in the shape of the first. -/
def stoCombine (op : Nat) (l : List (List Byte)) : List Byte :=
  let n := stoElem op
  (List.range ((l.headD []).length / n)).flatMap fun i => natLE n (stoFold op (l.map fun b => leAt b (n * i) n))

end Sys2Proof.Machine
end

