-- ==== Sys2Proof/Machine/FoxMath.lean ====
section
/-! DEFINITION. Foxglove's stages as functions of bytes (R461 to R463, R468 to R479): stage records, blocks, the column
arithmetic of a projection, conversion with error feedback, and sparse output. -/
namespace Sys2Proof.Machine

-- A live stage record: words 0 to 9 (R473)
def stgWord (c : List Nat) (i : Nat) : Nat := c.getD i 0
def stgOut (c : List Nat) : Nat := bitsOf (stgWord c 0) 31 28
def stgSrc (c : List Nat) : Nat := bitsOf (stgWord c 0) 27 24
def stgResBf16 (c : List Nat) : Bool := bitOf (stgWord c 0) 23
def stgErrfb (c : List Nat) : Bool := bitOf (stgWord c 0) 22
def stgTrans (c : List Nat) : Bool := bitOf (stgWord c 0) 21
def stgCplx (c : List Nat) : Bool := bitOf (stgWord c 0) 20
def stgTiles (c : List Nat) : Nat := bitsOf (stgWord c 0) 19 16
def stgGang (c : List Nat) : Nat := bitsOf (stgWord c 0) 13 12
def stgWfmt (c : List Nat) : Nat := bitsOf (stgWord c 0) 10 8
def stgKind (c : List Nat) : Nat := bitsOf (stgWord c 0) 2 0
def stgRank (c : List Nat) : Nat := bitsOf (stgWord c 1) 23 16
def stgK (c : List Nat) : Nat := bitsOf (stgWord c 1) 15 0
def stgSlot (c : List Nat) : Nat := bitsOf (stgWord c 2) 27 24
def stgKeep (c : List Nat) : Nat := bitsOf (stgWord c 2) 20 16
def stgTlen (c : List Nat) : Nat := bitsOf (stgWord c 2) 15 0
def stgScale (c : List Nat) : Nat := stgWord c 3
def stgResWin (c : List Nat) : Nat := bitsOf (stgWord c 4) 15 0
def stgResOff (c : List Nat) : Nat := stgWord c 5 + 2 ^ 32 * bitsOf (stgWord c 6) 15 0
def stgSrcBlk (c : List Nat) : Nat := stgWord c 7
def stgOutBlk (c : List Nat) : Nat := stgWord c 8
def stgValid (c : List Nat) : Bool := bitOf (stgWord c 9) 0

/-- Bytes of a residual (R478). -/
def stgEs (c : List Nat) : Nat := if stgResBf16 c then 2 else 4

/-- The packing of an activation format and of a weight format (R462). -/
def packSrc (code : Nat) : Nat := if code ≤ 2 then 1 else if code ≤ 8 then 2 else 4
def packW (w : Nat) : Nat := if w ≤ 1 then 1 else if w ≤ 3 then 2 else 4

/-- The element format of a weight format (R462). -/
def weightElem (w : Nat) : Elem := match w with | 0 => elemOf 1 | 1 => elemOf 2 | 2 => elemE4M3 | 3 => elemE5M2 | _ => elemE2M1

/-- The tiles of a mask, ascending. -/
def tilesOf (mask : Nat) : List Nat := (List.range 4).filter fun t => bitOf mask t

/-- Units, contraction positions per vector and columns of a gang mode (R463). -/
def stgUnits (c : List Nat) : Nat :=
  match stgGang c with | 0 => 1 | 1 => (tilesOf (stgTiles c)).length | _ => 4 * (tilesOf (stgTiles c)).length
def stgKu (c : List Nat) : Nat := (if stgGang c = 0 then 128 else 64) * packSrc (stgSrc c)
def stgCols (c : List Nat) : Nat := match stgGang c with | 0 => 128 | 1 => 64 | _ => 16

/-- Chunks of a row, and weight slots per chunk (R470, R471, R474). -/
def stgChunks (c : List Nat) : Nat := (stgK c + stgKu c - 1) / stgKu c
def stgSlots (c : List Nat) : Nat := if stgSrc c = 0 ∨ stgCplx c then 2 else 1

/-- Scalar elements per logical element: 2 for COMPLEX (R471). -/
def stgParts (c : List Nat) : Nat := if stgCplx c then 2 else 1

/-- The conditions of a commit (R474). -/
def stgOk (c : List Nat) : Bool :=
  let plain := stgTiles c = 0 && stgGang c = 0 && stgWfmt c = 0 && stgRank c = 0 && stgK c = 0 && stgTlen c = 0 &&
    !stgCplx c && !stgTrans c
  stgKind c ≤ 2 && stgSrc c ≤ 9 && stgOut c ≤ 9 &&
  (match stgKind c with
   | 0 =>
     stgGang c ≤ 2 && stgWfmt c ≤ 4 && packW (stgWfmt c) = packSrc (stgSrc c) && (stgSrc c ≠ 0 || stgWfmt c = 0) &&
     (if stgGang c = 0 then stgTiles c = 15 else stgTiles c ≠ 0) && stgOut c ≤ 4 && !stgErrfb c &&
     1 ≤ stgRank c && stgRank c ≤ stgCols c && stgK c ≠ 0 && stgK c % (16 * packSrc (stgSrc c)) = 0 &&
     stgSlot c + stgSlots c * stgChunks c ≤ 16 && !(stgCplx c && stgSrc c = 0) &&
     (!stgTrans c || (stgSrc c ≤ 4 && 1 ≤ stgTlen c && stgK c * stgTlen c * unitOf (stgSrc c) ≤ 65536))
   | 1 => plain && stgKeep c = 0
   | _ => plain && 1 ≤ stgKeep c && stgKeep c ≤ 16 && stgOut c ≤ 4)

/-- Bytes of `n` elements of a format, whole chunks for MX. -/
def bytesOf (code n : Nat) : Nat := if isMx code then n / perUnit code * 1024 else n * unitOf code

/-- Source elements of a block (R475). -/
def stgBlkElems (c : List Nat) : Nat :=
  match stgKind c with
  | 0 => if stgTrans c then stgK c * stgTlen c * stgParts c else Nat.lcm (stgK c * stgParts c) (perUnit (stgSrc c))
  | 1 => Nat.lcm (perUnit (stgSrc c)) (perUnit (stgOut c))
  | _ => Nat.lcm (perUnit (stgSrc c)) 32

/-- SRC_BLK and OUT_BLK (R475). -/
def stgSrcBytes (c : List Nat) : Nat := bytesOf (stgSrc c) (stgBlkElems c)
def stgOutBytes (c : List Nat) : Nat :=
  match stgKind c with
  | 0 => stgBlkElems c / stgK c * stgRank c * unitOf (stgOut c)
  | 1 => bytesOf (stgOut c) (stgBlkElems c)
  | _ => stgBlkElems c / 32 * (4 + stgKeep c * unitOf (stgOut c))

-- Column arithmetic (R468 to R471)

/-- An operand: sign, significand with `f` fraction bits, exponent; or not finite. -/
structure FoxNum where
  neg : Bool := false
  m : Nat := 0
  e : Int := 0
  bad : Bool := false
deriving DecidableEq, Repr

/-- The operand that an element's bits spell, its exponent raised by `x` (R468). -/
def foxNum (el : Elem) (b : Nat) (x : Int) : FoxNum :=
  let ex := b / 2 ^ el.f.fb % 2 ^ el.f.eb
  let fr := b % 2 ^ el.f.fb
  { neg := b / 2 ^ (el.f.eb + el.f.fb) % 2 = 1
    m := if ex = 0 then fr else fr + 2 ^ el.f.fb
    e := (if ex = 0 then 1 else (ex : Int)) - el.f.bias + x
    bad := match el.decode b with | .fin _ _ => false | _ => true }

/-- The exact sum of one alignment group, with fraction widths `fa` and `fw` (R468). -/
def groupSum (fa fw : Nat) (l : List (FoxNum × FoxNum)) : Dy :=
  let nz := l.filter fun p => p.1.m ≠ 0 && p.2.m ≠ 0
  match nz with
  | [] => ⟨0, 0⟩
  | p :: t =>
    let emax := t.foldl (fun a q => max a (q.1.e + q.2.e)) (p.1.e + p.2.e)
    let one (q : FoxNum × FoxNum) : Int :=
      let d := emax - (q.1.e + q.2.e)
      let v := q.1.m * q.2.m * 8 / 2 ^ d.toNat
      if q.1.neg = q.2.neg then (v : Int) else -(v : Int)
    ⟨(nz.map one).sum, emax - fa - fw - 3⟩

/-- Cuts a list into alignment groups of 16. -/
def groups16 {α : Type} : Nat → List α → List (List α)
  | 0, _ => []
  | n + 1, l => if l.isEmpty then [] else l.take 16 :: groups16 n (l.drop 16)

/-- A column's value for one vector, as binary32 (R469). -/
def columnValue (fa fw : Nat) (l : List (FoxNum × FoxNum)) : Nat :=
  match (groups16 (l.length / 16 + 1) l).map (groupSum fa fw) with
  | [] => 0
  | d :: t =>
    t.foldl (fun a g => match f32 a with
      | .fin n v => f32Of (.fin (n && g.m = 0) (v.add g))
      | _ => a) (f32Of (.fin false d))

/-- The weight at position `u` of column `j` of unit `un`, slot `slot`, in the tiles as they were when the pass started
(R461 to R463). -/
def foxWeight (c : List Nat) (snap : Tbl Nat) (un slot u j : Nat) : FoxNum :=
  let p := packSrc (stgSrc c)
  let rho := u / p
  let ts := tilesOf (stgTiles c)
  let (tile, row, col) : Nat × Nat × Nat :=
    match stgGang c with
    | 0 => (2 * (rho / 64) + j / 64, rho % 64, j % 64)
    | 1 => (ts.getD un 0, rho, j)
    | _ => (ts.getD (un / 4) 0, rho, 16 * (un % 4) + j)
  let word := snap.get 0 (65536 * tile + 4096 * slot + 64 * row + col)
  let el := weightElem (stgWfmt c)
  foxNum el (word / 2 ^ (u % p * (16 / p)) % 2 ^ el.bits) 0

/-- The raw source elements of a byte stream: bits, and the exponent its scale adds; a block whose scale is NaN is marked
by none (R432, R433). -/
def foxSource (code : Nat) (b : List Byte) : List (Option (Nat × Int)) :=
  if isMx code then
    (List.range (b.length / 1024)).flatMap fun ch => (List.range (perUnit code)).map fun t =>
      let x := leAt b (1024 * ch + mxScaleAt code + t / 32) 1
      let w := (elemOf code).bits
      if x = 0xFF then none
      else some (leAt b (1024 * ch + w * t / 8) 2 / 2 ^ (w * t % 8) % 2 ^ w, Int.ofNat x - 127)
  else (List.range (b.length / unitOf code)).map fun e => some (leAt b (unitOf code * e) (unitOf code), 0)

/-- The operand of a source element. -/
def foxAct (code : Nat) (v : Option (Nat × Int)) : FoxNum :=
  match v with | none => { bad := true } | some (b, x) => foxNum (elemOf code) b x

/-- The two BF16 pieces of a binary32 activation (R470). -/
def foxHi (b : Nat) : Nat := b / 65536
def foxLo (b : Nat) : Nat :=
  match f32 b, f32 (b / 65536 * 65536) with
  | .fin _ u, .fin _ v => ((elemOf 1).rne false false (u.add v.neg)).1
  | _, _ => 0

/-- The passes of one chunk: activations by position, the slot, and whether they go to the imaginary accumulator, in the
order of R470 and R471. -/
def chunkPasses (c : List Nat) (ch : Nat) (row : List (Option (Nat × Int))) : List (List FoxNum × Nat × Bool) :=
  let code := stgSrc c
  let ku := stgKu c
  let at_ (i : Nat) : Option (Nat × Int) := row.getD i (some (0, 0))
  let slot := stgSlot c + stgSlots c * ch
  let pos := (List.range ku).map fun i => ku * ch + i
  if code = 0 then
    let bits (i : Nat) : Nat := if i < stgK c then (match at_ i with | some (b, _) => b | none => 0) else 0
    let mk (f : Nat → Nat) : List FoxNum := pos.map fun i => { foxNum (elemOf 1) (f (bits i)) 0 with bad := f32NonFinite (bits i) }
    [(mk foxHi, slot, false), (mk foxHi, slot + 1, false), (mk foxLo, slot, false)]
  else if stgCplx c then
    let part (k : Nat) : List FoxNum := pos.map fun i => if i < stgK c then foxAct code (at_ (2 * i + k)) else {}
    let re := part 0
    let im := part 1
    [(re, slot, false), (im.map fun x => { x with neg := !x.neg }, slot + 1, false), (re, slot + 1, true), (im, slot, true)]
  else [(pos.map fun i => if i < stgK c then foxAct code (at_ i) else {}, slot, false)]

/-- Fraction bits of the activations as they are fed (R468). -/
def foxFa (code : Nat) : Nat := if code = 0 then 7 else (elemOf code).f.fb

/-- One output of a row: the accumulated, scaled value, or NaN where its contraction meets a non-finite operand (R469). -/
def projectOne (c : List Nat) (snap : Tbl Nat) (un j : Nat) (im : Bool) (passes : List (List FoxNum × Nat × Bool)) : Fv :=
  let fw := (weightElem (stgWfmt c)).f.fb
  let mine := passes.filter fun p => p.2.2 = im
  let prods (p : List FoxNum × Nat × Bool) : List (FoxNum × FoxNum) :=
    (List.range p.1.length).map fun u => (p.1.getD u {}, foxWeight c snap un p.2.1 u j)
  if mine.any (fun p => (prods p).any fun q => q.1.bad || q.2.bad) then .nan
  else
    match mine.map fun p => columnValue (foxFa (stgSrc c)) fw (prods p) with
    | [] => .fin false ⟨0, 0⟩
    | v :: t => f32 (f32Mul (t.foldl f32Add v) (stgScale c))

/-- The outputs of one row by unit `un` (R475). -/
def projectRow (c : List Nat) (snap : Tbl Nat) (un : Nat) (row : List (Option (Nat × Int))) : List Fv :=
  let passes := (List.range (stgChunks c)).flatMap fun ch => chunkPasses c ch row
  (List.range (stgRank c)).flatMap fun j =>
    if stgCplx c then [projectOne c snap un j false passes, projectOne c snap un j true passes]
    else [projectOne c snap un j false passes]

/-- The rows of one source block, in output order (R475, R476). -/
def blockRows (c : List Nat) (l : List (Option (Nat × Int))) : List (List (Option (Nat × Int))) :=
  let n := stgK c * stgParts c
  if stgTrans c then
    (List.range (stgTlen c)).map fun t => (List.range (stgK c)).flatMap fun i =>
      (List.range (stgParts c)).map fun q => l.getD (stgParts c * (i * stgTlen c + t) + q) none
  else (List.range (l.length / n)).map fun i => (l.drop (n * i)).take n

/-- What a block gives: output bytes, residual bytes, and the counts OUT_OVF and NONFINITE. -/
structure FoxOut where
  out : List Byte := []
  res : List Byte := []
  ovf : Nat := 0
  nan : Nat := 0
deriving DecidableEq, Repr

/-- Values written in a standalone format (R446, R469). -/
def foxStore (code : Nat) (l : List Fv) : FoxOut :=
  let r := l.map fun v => (elemOf code).final v.posZero
  { out := r.flatMap fun x => natLE (unitOf code) x.1, ovf := r.countP fun x => x.2.1, nan := r.countP fun x => x.2.2 }

/-- A PROJECT block whose first row has number `row0` in the pass (R475). -/
def projectBlock (c : List Nat) (snap : Tbl Nat) (row0 : Nat) (b : List Byte) : FoxOut :=
  let rows := blockRows c (foxSource (stgSrc c) b)
  foxStore (stgOut c) (((List.range rows.length).map fun i =>
    projectRow c snap ((row0 + i) % stgUnits c) (rows.getD i [])).flatten)

/-- y of one element (R477, R478). -/
def convertY (c : List Nat) (x : Fv) (e : Option Nat) : Nat :=
  let y := match x, f32 (stgScale c) with
    | .fin a u, .fin b v => f32Of (.fin (a != b) (u.mul v))
    | u, _ => f32Mul (f32Of u) (stgScale c)
  match e with | some r => f32Add y r | none => y

/-- A residual as binary32, and in its format (R478). -/
def resGet (c : List Nat) (b : List Byte) (i : Nat) : Nat :=
  if stgResBf16 c then f32Of ((elemOf 1).decode (leAt b (2 * i) 2)) else leAt b (4 * i) 4
def resPut (c : List Nat) (v : Nat) : List Byte :=
  if stgResBf16 c then natLE 2 (match f32 v with
    | .nan => (elemOf 1).nanBits
    | .inf n => (elemOf 1).infBits n
    | .fin n d => ((elemOf 1).rne false n d).1)
  else natLE 4 v

/-- The residual that an element leaves behind, where `out` is what was written of `y` (R478). -/
def newResid (y : Nat) (out : Fv) : Nat :=
  match f32 y, out with | .inf _, _ => 0 | _, .nan => 0 | _, o => f32Sub y (f32Of o)

/-- The elements of an MX output with their decoded values: bytes, decoded elements and how many saturated. -/
def foxMx (code n : Nat) (ys : List Nat) : List Byte × List Fv × Nat :=
  let r := mxChunks code n (ys.map f32)
  (r.1, decodeUnits code n r.1, r.2)

/-- A CONVERT block (R477, R478). -/
def convertBlock (c : List Nat) (b res : List Byte) : FoxOut :=
  let xs := decodeBytes (stgSrc c) b
  let fb := stgErrfb c
  let ys := (List.range xs.length).map fun i => convertY c (xs.getD i .nan) (if fb then some (resGet c res i) else none)
  let code := stgOut c
  let (bytes, outs, ovf, nan) : List Byte × List Fv × Nat × Nat :=
    if isMx code then
      let r := foxMx code (ys.length / perUnit code) ys
      (r.1, r.2.1, r.2.2, r.2.1.countP fun v => v = .nan)
    else
      let o := foxStore code (ys.map f32)
      (o.out, decodeBytes code o.out, o.ovf, o.nan)
  { out := bytes, ovf := ovf, nan := nan
    res := if fb then (List.range ys.length).flatMap fun i => resPut c (newResid (ys.getD i 0) (outs.getD i .nan)) else [] }

/-- Magnitude order of R479: NaN first, then the larger |y|, then the lower index. -/
def sparseBefore (a b : Nat × Nat) : Bool :=
  let key (y : Nat) : Nat := if f32 y = .nan then 2 ^ 32 else y % 2 ^ 31
  key b.1 < key a.1 || (key a.1 = key b.1 && a.2 < b.2)

/-- A block of 32 values of a SPARSE stage (R479). -/
def sparse32 (c : List Nat) (ys : List Nat) : FoxOut :=
  let l := (List.range ys.length).map fun i => (ys.getD i 0, i)
  let kept (x : Nat × Nat) : Bool := (l.countP fun z => sparseBefore z x) < stgKeep c
  let ks := l.filter kept
  let o := foxStore (stgOut c) (ks.map fun x => f32 x.1)
  let outs := decodeBytes (stgOut c) o.out
  { o with
    out := natLE 4 ((ks.map fun x => 2 ^ x.2).sum) ++ o.out
    res := if stgErrfb c then
        l.flatMap fun x => resPut c (if kept x then newResid x.1 (outs.getD ((ks.map (·.2)).idxOf x.2) .nan)
          else match f32 x.1 with | .inf _ => 0 | _ => x.1)
      else [] }

/-- Joins what two blocks give. -/
def FoxOut.join (a b : FoxOut) : FoxOut := ⟨a.out ++ b.out, a.res ++ b.res, a.ovf + b.ovf, a.nan + b.nan⟩

/-- A SPARSE block (R479). -/
def sparseBlock (c : List Nat) (b res : List Byte) : FoxOut :=
  let xs := decodeBytes (stgSrc c) b
  let ys := (List.range xs.length).map fun i =>
    convertY c (xs.getD i .nan) (if stgErrfb c then some (resGet c res i) else none)
  ((List.range (ys.length / 32)).map fun i => sparse32 c ((ys.drop (32 * i)).take 32)).foldl FoxOut.join {}

/-- What a stage makes of its block number `i` (R475 to R479). -/
def stageBlock (c : List Nat) (snap : Tbl Nat) (i : Nat) (b res : List Byte) : FoxOut :=
  match stgKind c with
  | 0 => projectBlock c snap (i * (if stgTrans c then stgTlen c else stgBlkElems c / (stgK c * stgParts c))) b
  | 1 => convertBlock c b res
  | _ => sparseBlock c b res

end Sys2Proof.Machine
end

