-- ==== Sys2Proof/Machine/Host.lean ====
section
/-! DEFINITION. The Operation Port, the Trigger Port and the command queues (R99 to R127). -/
namespace Sys2Proof.Machine

/-- The descriptor that 64 bytes spell (R101). -/
def descOf (b : List Byte) (index : Nat) : Desc :=
  { opcode := leAt b 0 1, flags := leAt b 1 1 % 16, sync := leAt b 2 2, cls := leAt b 4 1,
    dest := leAt b 5 3 % 2 ^ 20, localWin := leAt b 8 2, remoteWin := leAt b 10 2, length := leAt b 12 4,
    localOff := leAt b 16 6, remoteOff := leAt b 22 6, userTag := leAt b 28 4, op0 := leAt b 32 8, op1 := leAt b 40 8,
    rsvdZero := leAt b 1 1 / 16 = 0 && leAt b 5 3 / 2 ^ 20 = 0 && leAt b 48 14 = 0,
    format := leAt b 62 2, index := index }

/-- The status with which a descriptor completes before it reaches a context, if one does: VERSION for another FORMAT,
then INTERNAL for an unknown OPCODE, a reserved field that is not zero, an ATOMIC of another LENGTH, or one whose function
is not defined for its width (R101, R102, R309 row 6). -/
def Desc.malformed (d : Desc) : Option Nat :=
  if d.format ≠ 1 then some stVERSION
  else if d.opcode > 5 ∨ !d.rsvdZero then some stINTERNAL
  else if d.opcode = 3 ∧ ((d.length ≠ 4 ∧ d.length ≠ 8) ∨ !atomicOk (d.cls / 8) (d.length = 8)) then some stINTERNAL
  else none

def Desc.wantsCpl (d : Desc) : Bool := bitOf d.flags 0
def Desc.wantsCnt (d : Desc) : Bool := bitOf d.flags 1
def Desc.ordered (d : Desc) : Bool := bitOf d.flags 2
/-- The traffic class of a descriptor (R101, CLASS [2:0]). -/
def Desc.tc (d : Desc) : Nat := d.cls % 8
/-- ATOMIC_FN of a descriptor (R101, CLASS [7:3]). -/
def Desc.fn (d : Desc) : Nat := d.cls / 8

def State.queue (s : State) (q : Nat) : Queue := s.queues.get {} q
def State.setQueue (s : State) (q : Nat) (v : Queue) : State := { s with queues := s.queues.set {} q v }

/-- Entries of a queue's rings (R109). -/
def Queue.size (v : Queue) : Nat := 2 ^ v.log2

/-- The completion ring is full: CPL_TAIL is one ring ahead of the consumed point (R118). -/
def Queue.full (v : Queue) : Bool := v.size ≤ v.unconsumed.length

/-- Entries of the push FIFO in use: descriptors and held immediate completions together (R100). -/
def Queue.fifoUse (v : Queue) : Nat := v.waiting.length + (v.held.filter (·.imm)).length

/-- A queue closed, or closed by reset (R105). -/
def Queue.isClosed (v : Queue) : Bool := v.state = .closed || v.state = .closedByReset

/-- The 32 bytes of a completion entry (R104). -/
def cplBytes (q : Nat) (c : Cpl) (phase : Bool) (ftime : Nat) : List Byte :=
  natLE 4 c.userTag ++ natLE 2 q ++ natLE 1 c.status ++ natLE 1 (b2n phase) ++ natLE 4 c.index ++ natLE 4 c.bytes ++
    natLE 8 c.result ++ natLE 8 ftime

/-- The object that a completion adds 1 to, if any: FLAGS.CNT, and for an immediate completion the check of R360
against the bound context; a completion with VERSION makes no add (R100). -/
def cplCnt (s : State) (v : Queue) (c : Cpl) : Option Nat :=
  if bitOf c.flags 1 && !(c.imm && c.status = stVERSION) && (!c.imm || synMayUse s v.context c.sync) then some c.sync
  else none

/-- Writes one completion entry at CPL_TAIL; the CNT add waits for the write's response (R25, R104, R115, R118). -/
def writeCpl (s : State) (q : Nat) (c : Cpl) : State :=
  let v := s.queue q
  let wrap := v.cplTail + 1 = v.size
  let v' : Queue := { v with
    cplTail := if wrap then 0 else v.cplTail + 1
    phase := if wrap then !v.phase else v.phase
    unconsumed := v.unconsumed ++ [bitOf c.flags 3 && !(c.imm && c.status = stVERSION)]
    writing := v.writing + 1 }
  hmpWrite (s.setQueue q v') 4 (v.cpl + 32 * v.cplTail) (cplBytes q c v.phase s.nowNs)
    (.cplEntry q (cplCnt s v c) c.imm)

/-- An optional CNT add. -/
def applyCnt (s : State) (o : Option Nat) : State :=
  match o with | some obj => synAdd s obj 1 | none => s

/-- A descriptor of queue `q` completes (R25, R100, R118, R119): its entry is written, held while the ring is full, or
left out in state ERROR; without an entry the CNT add is applied at once. -/
def qComplete (s : State) (q : Nat) (c : Cpl) : State :=
  let v := s.queue q
  let entry := bitOf c.flags 0 || (c.imm && c.status = stVERSION)
  if !entry || v.state = .error || v.noEntries then applyCnt s (cplCnt s v c)
  else if v.full || !v.held.isEmpty then s.setQueue q { v with held := v.held ++ [c] }
  else writeCpl s q c

/-- Writes held completions, in completion order, while the ring has room. -/
def writeHeld : Nat → State → Nat → State
  | 0, s, _ => s
  | n + 1, s, q =>
    let v := s.queue q
    match v.held with
    | [] => s
    | c :: rest => if v.full then s else writeHeld n (writeCpl (s.setQueue q { v with held := rest }) q c) q

/-- The completion of a descriptor with a status. -/
def Desc.cplOf (d : Desc) (status bytes result : Nat) (imm : Bool) : Cpl :=
  ⟨d.userTag, d.flags, d.sync, d.index, status, bytes, result, imm⟩

/-- A started descriptor completes: it leaves the queue's started list. -/
def descDone (s : State) (q index status bytes result : Nat) : State :=
  let v := s.queue q
  match v.started.find? (fun d => d.index = index) with
  | none => s
  | some d =>
    qComplete (s.setQueue q { v with started := v.started.filter (fun e => e.index ≠ index) }) q
      (d.cplOf status bytes result false)

/-- Immediate completions whose write the host has not accepted yet: they fill the shared buffer of 64 (R100). -/
def immInBuffer (s : State) : Nat :=
  (s.hmp.chans.flatMap fun e => e.2.cmds).countP fun r =>
    match s.hmp.xfers.find? r.xfer with
    | some x => (match x.k with | .cplEntry _ _ imm => imm | _ => false)
    | none => false

/-- OPP_READY (R100, R132): low while the shared buffer is full, and in the states in which FC_VALID, a Tier 2 or 3, or the
fill holds it low. -/
def State.oppReady (s : State) : Bool :=
  s.pins.fcValid && !s.pins.testFence && decide (s.rd BDG_STATUS.TIER < 2) && s.initDone && decide (immInBuffer s < 64)

/-- A descriptor joins those that wait to start; its place among all that queues have accepted is kept (R102). -/
def joinWaiting (s : State) (q : Nat) (d : Desc) : State :=
  let v := s.queue q
  let t := s.setQueue q { v with waiting := v.waiting ++ [{ d with seq := s.mrt.descSeq }] }
  { t with mrt := { t.mrt with descSeq := s.mrt.descSeq + 1 } }

/-- A descriptor is taken on OPP: the first case of R100 applies, and a descriptor that would join the FIFO is then held to
its form (R22, R101, R102). One that is discarded does not advance the count that DESC_INDEX carries (DESIGN CHOICE, log
entry 78). -/
def oppPush (s : State) (q : Nat) (bytes : List Byte) : State :=
  let v := s.queue q
  let discard (s : State) : State := s.bump OPP_ERR.DISCARD_CNT 1
  if !s.oppReady then s
  else if v.state ≠ .opened || !v.push then discard s
  else
    let d := descOf bytes v.accepted
    let s1 := s.setQueue q { v with accepted := (v.accepted + 1) % 2 ^ 32 }
    let imm (s' : State) (st : Nat) : State := qComplete s' q (d.cplOf st 0 0 true)
    if v.full && 64 ≤ v.fifoUse then discard s
    else if s.fenced then imm s1 stFENCED
    else if 64 ≤ v.fifoUse then imm (s1.bump OPP_ERR.QUOTA_CNT 1) stQUOTA
    else match d.malformed with
    | some st => imm s1 st
    | none => joinWaiting s1 q d

/-- Starts the next ring read of a queue, where descriptors wait and none is being read (R117); the descriptors of a FAULTED
context stay in their rings (R323). -/
def startFetch (s : State) (q : Nat) : State :=
  let v := s.queue q
  if v.state ≠ .opened || v.push || v.fetching || v.head = v.tail || (s.ctx v.context).state = .faulted then s else
  let toEnd := if v.head < v.tail then v.tail - v.head else v.size - v.head
  let a := v.ring + 64 * v.head
  let n := min toEnd ((512 - a % 512) / 64)
  hmpRead (s.setQueue q { v with fetching := true }) 4 a (64 * n) (.descFetch q v.head n)

/-- A descriptor doorbell (R116, R117). -/
def qDb (s : State) (q tail : Nat) : State :=
  let v := s.queue q
  if v.size ≤ tail || v.state ≠ .opened || v.push then s.bump OPP_ERR.DISCARD_CNT 1
  else startFetch (s.setQueue q { v with tail := tail }) q

/-- A completion doorbell (R116, R118): the consumed point moves to `d` entries behind CPL_TAIL. -/
def qCqdb (s : State) (q head : Nat) : State :=
  let v := s.queue q
  let d := (v.cplTail + v.size - head) % v.size
  if v.size ≤ head || v.isClosed || v.unconsumed.length < d then s.bump OPP_ERR.DISCARD_CNT 1
  else writeHeld (v.held.length) (s.setQueue q { v with unconsumed := v.unconsumed.drop (v.unconsumed.length - d) }) q

/-- One fetched descriptor joins its queue, or completes at once: with POISON where its beat was not OK, with FENCED, or as
malformed (R29, R92, R100, R102). In state ERROR it waits, whatever it holds, for the CLOSE that discards it (R119). -/
def takeFetched (s : State) (q : Nat) (x : Xfer) (first : Nat) (i : Nat) : State :=
  let v := s.queue q
  let index := (first + i) % v.size
  let d := descOf ((x.data.drop (64 * i)).take 64) index
  if v.state = .error then joinWaiting s q d
  else if !x.okAt (64 * i) 64 then
    qComplete s q ⟨0xFFFFFFFF, 1, 0, index, x.statusAt (64 * i) 64, 0, 0, true⟩
  else if s.fenced then qComplete s q (d.cplOf stFENCED 0 0 true)
  else match d.malformed with
    | some st => qComplete s q (d.cplOf st 0 0 true)
    | none => joinWaiting s q d

/-- DESC_FETCH: the oldest returned ring read of queue `q` is used; HEAD advances past its descriptors (R117). While the
context is FAULTED they stay in the ring, and the read waits (R323). -/
def descFetch (s : State) (q : Nat) : State :=
  match s.hmp.returned.find? (fun x => match x.k with | .descFetch q' _ _ => q' = q | _ => false) with
  | none => s
  | some x =>
    let s1 := { s with hmp := { s.hmp with returned := s.hmp.returned.erase x } }
    if (s.ctx (s.queue q).context).state = .faulted && !(s.queue q).isClosed && !(s.queue q).noEntries then s else
    match x.k with
    | .descFetch _ first n =>
      let v := s1.queue q
      if v.isClosed || v.noEntries then
        -- R119: what was fetched and not started is discarded where CLOSE found the queue in ERROR
        (s1.setQueue q { v with fetching := false }).bump OPP_ERR.DISCARD_CNT (if v.noEntries then n else 0)
      else
      let s2 := s1.setQueue q { v with head := (first + n) % v.size, fetching := false }
      startFetch ((List.range n).foldl (fun t i => takeFetched t q x first i) s2) q
    | _ => s1

/-- The checks of OPEN, in order (R114). -/
def openStatus (s : State) (v : Queue) : Nat :=
  let fw := Config.firmwareAbi
  if !s.initDone then stBUSY
  else if s.fenced then stFENCED
  else if v.driverAbi / 256 ≠ fw / 256 ∨ fw % 256 < v.driverAbi % 256 then stVERSION
  else if !v.isClosed ∨ v.log2 < 6 ∨ 16 < v.log2 ∨ v.irqWire = 13 ∨ v.irqWire = 14 then stINTERNAL
  else stOK

/-- OPEN of queue `q` (R114). -/
def qOpen (s : State) (q : Nat) : State :=
  let v := s.queue q
  let st := openStatus s v
  if st ≠ stOK then s.setQueue q { v with cmdStatus := st } else
  s.setQueue q { v with
    state := .opened, cmdStatus := stOK, head := 0, tail := 0, cplTail := 0, phase := true, unconsumed := [],
    waiting := [], accepted := 0, fetching := false, started := [], held := [], writing := 0, noEntries := false }

/-- A queue with nothing left to complete: no fetch in flight, nothing waiting, started, held or being written. -/
def Queue.drained (v : Queue) : Bool :=
  v.waiting.isEmpty && v.started.isEmpty && v.held.isEmpty && v.writing = 0 && !v.fetching

/-- CLOSE of queue `q` (R119): an open queue closes when its last descriptor completes; an errored one discards what
has not started, and shows the state closing until its last started descriptor has completed (DESIGN CHOICE, log entry 78). -/
def qClose (s : State) (q : Nat) : State :=
  let v := s.queue q
  match v.state with
  | .opened => s.setQueue q { v with state := .closing, cmdStatus := stOK }
  | .error =>
    (s.setQueue q { v with state := .closing, cmdStatus := stOK, waiting := [], noEntries := true }).bump
      OPP_ERR.DISCARD_CNT v.waiting.length
  | _ => s.setQueue q { v with cmdStatus := stOK }

/-- QUEUE_CLOSED: the last descriptor of a closing queue has completed (R119). -/
def queueClosed (s : State) (q : Nat) : State :=
  let v := s.queue q
  if v.state = .closing && v.drained then s.setQueue q { v with state := .closed, noEntries := false } else s

/-- QUEUE_ERROR: a completion entry write failed. The queue enters ERROR with F2; held completions are never written
and their CNT adds are applied now (R92, R119). -/
def queueError (s : State) (q : Nat) : State :=
  let v := s.queue q
  let s1 := s.setQueue q { v with state := if v.noEntries then v.state else .error, held := [] }
  report (v.held.foldl (fun t c => applyCnt t (cplCnt s v c)) s1) 0x11 2 0x03 q

/-- The response of a completion entry's write: the CNT add is applied, and a response that is not OK puts the queue
in ERROR (R25, R92); so does one that does not come within RESP_TMO (R94; DEDUCED, log entry 78). -/
def cplWritten (s : State) (q : Nat) (cnt : Option Nat) (ok : Bool) : State :=
  let v := s.queue q
  let s1 := applyCnt (s.setQueue q { v with writing := v.writing - 1 }) cnt
  if ok then s1 else queueError s1 q

/-- The interrupt source of a queue's completions is pending (R118, R686). -/
def Queue.irqPending (v : Queue) : Bool := v.unconsumed.any id || v.state = .error

/-- TRG_TOKEN (R122 to R125): `since` is the number of fc since TRG_READY fell; a token later than 8 counts in LATE, whatever
becomes of it. With fc not valid the port is down, and a fill empties every FIFO, so a token that comes then leaves nothing
(R44, R132). -/
def trgToken (s : State) (k obj since : Nat) : State :=
  if !s.pins.fcValid || !s.initDone then s else
  let late := !s.pins.trgReady && 8 < since
  (tokenTo (if late then s.bump (TRG_CTX.LATE k) 1 else s) k obj)

/-- TRG_CFG_WRITE (R126): the thresholds apply as a pair, IRQ_WIRE on its own. -/
def trgCfgWrite (s : State) (w : Word) : State :=
  let lo := bitsOf w.toNat 13 8
  let hi := bitsOf w.toNat 5 0
  let wire := bitsOf w.toNat 19 16
  let s1 := if 1 ≤ lo ∧ lo ≤ hi ∧ hi ≤ 56 then (s.wr TRG_CFG.LOWAT lo).wr TRG_CFG.HIWAT hi else s
  trgUpdate (if wire = 13 ∨ wire = 14 then s1 else s1.wr TRG_CFG.IRQ_WIRE wire)

end Sys2Proof.Machine
end

