-- ==== Sys2Proof/Machine/Xpt.lean ====
section
/-! DEFINITION. Transport, the sending half (R266 to R272, R280, R284): operations, table entries, handshakes, the
sequence window and budget, and the transmission of a packet. -/
namespace Sys2Proof.Machine

/-- The largest payload of virtual channel `v` by a word of codes: 4,096, 1,024, 256 or 64 B (R232). -/
def payloadOf (code v : Nat) : Nat :=
  match bitsOf code (2 * v + 1) (2 * v) with | 0 => 4096 | 1 => 1024 | 2 => 256 | _ => 64

/-- The largest payload that transport forms for virtual channel `v`: the smallest that a port's last exchange has taken
up, or the register's where every link is DOWN (R232, R254; log entry 81). -/
def maxPayload (s : State) (v : Nat) : Nat :=
  let l := ((List.range 12).filter fun p => s.portPresent p && s.linkState p ≠ 0).map fun p => payloadOf (s.link p).maxpkt v
  if l.isEmpty then payloadOf (s.rd RTR_VC_MAXPKT.CODE) v else l.foldl min 4096

def State.xop (s : State) (i : Nat) : Option XOp := s.xpt.ops.find? i
def State.putXop (s : State) (o : XOp) : State := { s with xpt := { s.xpt with ops := s.xpt.ops.put o.id o } }
def State.dropXop (s : State) (i : Nat) : State := { s with xpt := { s.xpt with ops := s.xpt.ops.drop i } }
def State.entry (s : State) (t : Nat) : Option OotEntry := s.xpt.oot.find? t
def State.putEntry (s : State) (t : Nat) (e : OotEntry) : State := { s with xpt := { s.xpt with oot := s.xpt.oot.put t e } }
def State.dropEntry (s : State) (t : Nat) : State := { s with xpt := { s.xpt with oot := s.xpt.oot.drop t } }

/-- Hands an operation to transport under a fresh number. -/
def newOp (s : State) (o : XOp) : State × Nat :=
  let i := s.xpt.nextOp
  ({ s with xpt := { s.xpt with ops := s.xpt.ops.put i { o with id := i }, nextOp := i + 1 } }, i)

/-- Bytes that the next packet of an operation carries or asks for (R266). -/
def nextLen (s : State) (o : XOp) : Nat :=
  if o.opcode = 0x01 then min (o.len - o.made) (maxPayload s (vcOf o.tc false))
  else if o.opcode = 0x02 then min (o.len - o.made) (maxPayload s (vcOf o.tc true))
  else o.payload.length

/-- Every packet of an operation has been made (R266). -/
def XOp.allMade (o : XOp) : Bool := if o.opcode = 0x01 ∨ o.opcode = 0x02 then o.len ≤ o.made else 1 ≤ o.made

/-- Entries that a context holds (R295, XPT_CTX.USED). -/
def ootUsed (s : State) (k : Nat) : Nat := (s.xpt.oot.filter fun e => e.2.ctx = k).length

/-- The context number of a packet that no context issued: it counts against no cap, and its CTX field is 0. -/
def noCtx : Nat := 512

/-- The table has room for a packet of context `k` (R284). -/
def ootRoom (s : State) (k : Nat) : Bool := s.xpt.oot.length < 32768 && (noCtx ≤ k || ootUsed s k < s.rd (XPT_CTX.CAP k))

/-- A free TAG; which one a packet takes is left open (R284). -/
def freeTag (s : State) : Option Nat :=
  let l := (List.range 32768).filter fun t => (s.entry t).isNone
  l[s.free % l.length]?

/-- The next packet of an operation takes a table entry; a PUT's source read is issued (R22 step 4, R284). -/
def takeEntry (s : State) (o : XOp) : State :=
  match freeTag s with
  | none => s
  | some t =>
    let n := nextLen s o
    let put := o.opcode = 0x01
    let e : OotEntry :=
      { op := o.id, ctx := o.ctx, peer := o.dest, tc := o.tc, opcode := o.opcode, poff := o.made, len := n
        ready := !put, payload := if put then [] else o.payload }
    let o' := { o with made := o.made + (if put ∨ o.opcode = 0x02 then n else 1), opened := true
                       accessed := o.accessed || put, out := o.out + 1 }
    let s1 := (s.useFree.putXop o').putEntry t e
    if put then hmpGather s1 0 (cutExt o.ext o.made n) (.putSource t) else s1

/-- The sequence window and the budget admit one more number (R271). -/
def seqRoom (s : State) (i : Nat) : Bool :=
  let p := s.peer i
  (p.txNext + 65536 - txLow s i) % 65536 < 512 &&
    (p.begun.filter fun b => s.now < b + s.lifetime).length < 16384

/-- The timeout of attempt `n`: min(RTO × 2^(n−1), RTO × 2^BACKOFF_MAX) (R280). -/
def rtoOf (s : State) (n : Nat) : Nat := ns (1000 * s.rd XPT_CFG.RTO * 2 ^ min (n - 1) (s.rd XPT_CFG.BACKOFF_MAX))

/-- The scheduler flow of an operation's packets (R495). -/
def flowOf (s : State) (o : XOp) : Flow :=
  match o.owner with
  | .entry k id =>
    match ((s.ctx k).beq.find? (fun e => e.id = id)).bind (·.desc) with
    | some (q, _) => .queue q
    | none => .ctx k
  | .trig t => .ctx (s.trig t).ctx
  | .notice => .control
  | .coll _ => if o.opcode = 0x20 ∨ 0x24 ≤ o.opcode then .control else .group (o.win % 4096)

/-- Transmits the packet of entry `t` (R263, R272, R280): fresh ACKED_LOW, LIFE, EPOCH and CRC; ORD on every SIGNAL and
ATOMIC (R275). -/
def transmit (s : State) (t : Nat) (e : OotEntry) : State :=
  match s.xop e.op with
  | none => s
  | some o =>
    let s1 := s.putEntry t { e with state := 2, deadline := some (s.now + rtoOf s e.attempt) }
    let p : Pkt :=
      { dest := o.dest, src := s.node, pkey := o.pkey, tc := o.tc, ord := o.opcode = 0x03 || o.opcode = 0x04
        retx := 1 < e.attempt, opcode := o.opcode, fn := o.fn, w8 := o.w8, length := e.len, window := o.win
        offset := o.off + e.poff, seq := e.seq, stag := e.stag, ackedLow := txLow s1 (streamOf e.peer e.tc), tag := t
        ctx := o.ctx % noCtx, payload := if o.opcode = 0x02 then [] else e.payload }
    emit s1 (flowOf s o) p

/-- A packet whose data is at hand begins the next sequence number of its OPEN stream, where the window and the budget
allow (R271); a packet in STATE 3 begins again from attempt 1 (R288). -/
def tryBegin (s : State) (t : Nat) : State :=
  match s.entry t with
  | none => s
  | some e =>
    let i := streamOf e.peer e.tc
    let p := s.peer i
    if e.state = 2 ∨ !e.ready ∨ p.txState ≠ 2 ∨ !seqRoom s i then s else
    let s1 := s.setPeer i { p with
      txNext := (p.txNext + 1) % 65536, begun := (p.begun.filter fun b => s.now < b + s.lifetime) ++ [s.now] }
    transmit s1 t { e with seq := p.txNext, stag := p.txStag, attempt := 1, state := 2 }

/-- Entries that wait to begin on stream `i`, oldest operation first. -/
def waitingOf (s : State) (i : Nat) : List Nat :=
  ((s.xpt.oot.filter fun e => e.2.state ≠ 2 && e.2.ready && streamOf e.2.peer e.2.tc = i).insertionSort
    fun a b => a.2.op < b.2.op ∨ (a.2.op = b.2.op ∧ a.2.poff ≤ b.2.poff)).map (·.1)

/-- Every packet of stream `i` whose data is at hand begins, as far as the window and the budget allow (R271). -/
def pumpStream (s : State) (i : Nat) : State := (waitingOf s i).foldl tryBegin s

/-- An operation's packets take table entries while there is room, and begin when their data is at hand (R271, R284). -/
def launch : Nat → State → Nat → State
  | 0, s, _ => s
  | n + 1, s, i =>
    match s.xop i with
    | none => s
    | some o =>
      if o.allMade ∨ !ootRoom s o.ctx then pumpStream s (streamOf o.dest o.tc) else launch n (takeEntry s o) i

/-- Hands an operation to transport and starts what it can (R266). -/
def startOp (s : State) (o : XOp) : State := let (s1, i) := newOp s o; launch (o.len + 2) s1 i

/-- A packet of a stream waits for its handshake (R269). -/
def streamWaits (s : State) (i : Nat) : Bool :=
  s.xpt.oot.any fun e => e.2.state ≠ 2 && streamOf e.2.peer e.2.tc = i

/-- Sends the pending SYNC of stream `i` (R269, R280). -/
def sendSync (s : State) (i : Nat) (n : Nat) : State :=
  let p := s.peer i
  let s1 := s.setPeer i { p with
    syncAttempt := n, syncEnd := some (s.now + rtoOf s n), syncHold := s.now + s.lifetime }
  emit s1 .control
    { dest := i / 2, src := s.node, pkey := p.syncPkey, tc := p.syncTc, retx := 1 < n, opcode := 0x08, seq := 0
      stag := p.syncStag, ackedLow := 0 }

/-- STREAM_HANDSHAKE (R268, R269): a stream in NONE, LOST or INVALID with a packet waiting enters SYNCING with a new STAG
and the key and class of the oldest waiting operation, once the wait since the last SYNC has passed. -/
def streamHandshake (s : State) (i : Nat) : State :=
  let p := s.peer i
  if p.txState = 1 ∨ p.txState = 2 ∨ s.now < p.syncHold then s else
  let waiting := (s.xpt.oot.filter fun e => e.2.state ≠ 2 && streamOf e.2.peer e.2.tc = i).filterMap fun e => s.xop e.2.op
  match waiting.foldl (fun (b : Option XOp) o => match b with | none => some o | some x => if o.id < x.id then some o else some x) none with
  | none => s
  | some o =>
    let (stag, s1) := drawStag s
    sendSync (s1.setPeer i { p with
      txState := 1, before := p.txState, syncStag := stag, syncPkey := o.pkey, syncTc := o.tc }) i 1

/-- SYNC_ACK (R269): the STAG of the pending SYNC opens the stream; any other is stray. -/
def syncAck (s : State) (p : Pkt) : State :=
  let i := streamOf p.src p.tc
  let e := s.peer i
  if !p.intact then s.bump XPT_ERR2.BAD 1
  else if e.txState = 1 ∧ p.stag = e.syncStag then
    pumpStream (s.setPeer i
      { e with txState := 2, txStag := p.stag, txNext := 0, begun := [], syncEnd := none, syncAttempt := 0 }) i
  else s.bump XPT_ERR.STRAY 1

/-- The unresolved entries of a stream, in flight. -/
def inFlightOf (s : State) (i : Nat) : List (Nat × OotEntry) :=
  s.xpt.oot.filter fun e => e.2.state = 2 && streamOf e.2.peer e.2.tc = i

/-- Non-idempotent requests: ATOMIC, SIGNAL and NOTICE (R264). -/
def OotEntry.idempotent (e : OotEntry) : Bool := e.opcode = 0x01 || e.opcode = 0x02

end Sys2Proof.Machine
end

