-- ==== Sys2Proof/Machine/Target.lean ====
section
/-! DEFINITION. The receiving half of transport and the target engine (R270, R273 to R278, R286, R287, R309 to R314,
R367): accepting a request once, executing it against a window or an object, and answering it. -/
namespace Sys2Proof.Machine

/-- A response record of a packet (R278). -/
def findRec (s : State) (i : Nat) (p : Pkt) : Option (Nat × RespRec) :=
  List.find? (fun e : Nat × RespRec => e.2.stream = i && e.2.stag = p.stag && e.2.seq = p.seq) s.xpt.recs

/-- A free record number; which one a packet takes is left open (R278). -/
def freeRec (s : State) : Option Nat :=
  let l := (List.range 32768).filter fun r => (Tbl.find? s.xpt.recs r).isNone
  l[s.free % l.length]?

/-- A free bitmap number (R274). -/
def freeBmp (s : State) : Option Nat :=
  let used := s.xpt.peers.filterMap fun e => e.2.bmpIdx
  let l := (List.range 8192).filter fun b => !used.contains b
  l[s.free % l.length]?

/-- Drops the response records that `p` accepts (R272, R278). -/
def dropRecs (s : State) (p : RespRec → Bool) : State :=
  { s with xpt := { s.xpt with recs := s.xpt.recs.filter fun e => !p e.2 } }

/-- RX_BASE moves on while the bit at it is set; an empty bitmap returns to the pool (R274). -/
def Peer.slide : Nat → Peer → Peer
  | 0, p => p
  | n + 1, p =>
    if p.bmp % 2 = 1 then Peer.slide n { p with bmp := p.bmp / 2, rxBase := (p.rxBase + 1) % 65536 }
    else { p with bmpIdx := if p.bmp = 0 then none else p.bmpIdx }

/-- ACKED_LOW of a request (R272): records below it are freed, and RX_BASE moves up to it. -/
def applyAcked (s : State) (i : Nat) (p : Pkt) : State :=
  let s1 := dropRecs s fun r => r.stream = i && r.stag = p.stag &&
    (let d := (p.ackedLow + 65536 - r.seq) % 65536; 1 ≤ d && d ≤ 32767)
  let e := s1.peer i
  let d := (p.ackedLow + 65536 - e.rxBase) % 65536
  if 1 ≤ d ∧ d ≤ 512 then s1.setPeer i (Peer.slide 513 { e with rxBase := p.ackedLow, bmp := e.bmp / 2 ^ d }) else s1

/-- Marks a new sequence number accepted (R274); `none` where it needs a bitmap and none is free. -/
def markAccepted (s : State) (i seq : Nat) : Option State :=
  let e := s.peer i
  let d := (seq + 65536 - e.rxBase) % 65536
  if d = 0 ∧ e.bmpIdx = none then some (s.setPeer i { e with rxBase := (e.rxBase + 1) % 65536 })
  else match e.bmpIdx with
  | some _ => some (s.setPeer i (Peer.slide 513 { e with bmp := e.bmp ||| 2 ^ d }))
  | none => match freeBmp s with
    | some b => some (s.useFree.setPeer i (Peer.slide 513 { e with bmp := e.bmp ||| 2 ^ d, bmpIdx := some b }))
    | none => none

/-- Some write of a lower packet of the numbering, a PUT, an ATOMIC, an A2A or a COUNT, has no HMP write response yet
(R275). -/
def writesPending (s : State) (i : Nat) (p : Pkt) : Bool :=
  let lower (q : Pkt) : Bool := q.stag = p.stag && streamOf q.src q.tc = i && 1 ≤ (p.seq + 65536 - q.seq) % 65536 &&
    (p.seq + 65536 - q.seq) % 65536 ≤ 32767
  s.yar.ins.any (fun e => lower e.2.pkt) || s.tgt.ops.any (fun e => (e.2.pkt.opcode = 0x01 || e.2.pkt.opcode = 0x03) && lower e.2.pkt) ||
    s.tgt.atoms.any fun e => e.2.applied.any (fun x => lower x.1) || e.2.inFlight.any lower

/-- An ORD packet may execute (R275): its numbering stands (R289), it is the next, and nothing below it is still written. -/
def ordEligible (s : State) (i : Nat) (p : Pkt) : Bool :=
  (s.peer i).rxState = 1 && p.stag = (s.peer i).rxStag && p.seq = (s.peer i).rxBase && !writesPending s i p

/-- The end of an accepted request's record (R278): kept for an ATOMIC and for any status but OK, else released. A record
freed meanwhile and taken by another packet is left alone. -/
def endRec (s : State) (r : Option Nat) (p : Pkt) (status result : Nat) : State :=
  match r with
  | none => s
  | some n => match Tbl.find? s.xpt.recs n with
    | none => s
    | some v =>
      if v.stream ≠ streamOf p.src p.tc ∨ v.stag ≠ p.stag ∨ v.seq ≠ p.seq ∨ v.status.isSome then s
      else if p.opcode = 0x03 ∨ status ≠ stOK then
        { s with xpt := { s.xpt with recs := s.xpt.recs.put n { v with status := some status, result := result } } }
      else { s with xpt := { s.xpt with recs := s.xpt.recs.drop n } }

/-- The response of a request (R264): ACK, DATA or RESULT, which carries zero when the status is not OK. -/
def sendAnswer (s : State) (p : Pkt) (status result : Nat) (data : List Byte) : State :=
  if p.opcode = 0x02 then respondTo s p 0x82 status (if status = stOK then data else [])
  else if p.opcode = 0x03 then respondTo s p 0x83 status (natLE 8 (if status = stOK then result else 0))
  else respondTo s p 0x81 status []

/-- A request ends with a status: its record and its response (R277, R278). -/
def answer (s : State) (p : Pkt) (r : Option Nat) (status result : Nat) (data : List Byte) : State :=
  sendAnswer (endRec s r p status result) p status result data

/-- The decision on a SIGNAL to object `o` from node `src` with key `pkey` (R367). -/
def signalStatus (s : State) (o pkey src : Nat) : Nat :=
  if s.fenced then stFENCED
  else if 254 ≤ o / 256 then stRIGHTS
  else if s.rd (SYN_PAGE.PKEY (o / 256)) ≠ pkey then stRIGHTS
  else if !s.on (SYN_PAGE.REMOTE (o / 256)) ∧ src ≠ s.node then stRIGHTS
  else if s.objPoisoned o then stPOISON
  else stOK

/-- A SIGNAL is decided and, if OK, its addend is added (R367). -/
def applySignal (s : State) (o pkey src addend : Nat) : State × Nat :=
  let st := signalStatus s o pkey src
  (if st = stOK then synAdd s o addend else s, st)

/-- The record of a NOTICE: the late failure, and the context's error counter (R287). -/
def applyNotice (s : State) (p : Pkt) : State :=
  let k := leAt p.payload 6 2 % 512
  synAdd (recordLate s k (leAt p.payload 5 1)) (errorCounterOf k) 1

/-- Width of an ATOMIC in bytes. -/
def Pkt.atomWidth (p : Pkt) : Nat := if p.w8 then 8 else 4

/-- The new value of an ATOMIC of `w` bytes (R311). -/
def atomicNew (fn w old a b : Nat) : Nat :=
  let m := 2 ^ (8 * w)
  let sgn (x : Nat) : Int := if m / 2 ≤ x then (x : Int) - m else x
  match fn with
  | 0x00 => (old + a) % m
  | 0x01 => old &&& a
  | 0x02 => old ||| a
  | 0x03 => old ^^^ a
  | 0x04 => a
  | 0x05 => if old = a then b else old
  | 0x06 => if sgn old ≤ sgn a then old else a
  | 0x07 => if sgn old ≤ sgn a then a else old
  | 0x08 => min old a
  | 0x09 => max old a
  | _ => fmtF32.addBits old a

def State.tgtOp (s : State) (i : Nat) : Option TgtOp := s.tgt.ops.find? i
def State.putTgt (s : State) (o : TgtOp) : State := { s with tgt := { s.tgt with ops := s.tgt.ops.put o.id o } }
def State.dropTgt (s : State) (i : Nat) : State := { s with tgt := { s.tgt with ops := s.tgt.ops.drop i } }
def State.putLine (s : State) (l : Nat) (a : AtomLine) : State := { s with tgt := { s.tgt with atoms := s.tgt.atoms.put l a } }
def State.dropLine (s : State) (l : Nat) : State := { s with tgt := { s.tgt with atoms := s.tgt.atoms.drop l } }

/-- The bytes an operation reaches in its window: LENGTH, or the width of an ATOMIC (R309 row 5). -/
def Pkt.span (p : Pkt) : Nat := if p.opcode = 0x03 then p.atomWidth else p.length

/-- The host accesses of `n` bytes at `off` of window `w`: two where it crosses a chunk boundary (R304). -/
def spans (s : State) (w off n : Nat) : List (Nat × Nat) :=
  let v := s.win w
  let room := 2 ^ v.chunkLog2 - off % 2 ^ v.chunkLog2
  if v.chunked ∧ room < n then [(off, room), (off + room, n - room)] else [(off, n)]

/-- The chunk list lines that an access must read first (R304). -/
def missing (s : State) (w : Nat) (l : List (Nat × Nat)) : List Nat :=
  l.filterMap fun x => match resolve s w x.1 with | .miss n => some n | .at _ => none

/-- Host address of an offset that resolves. -/
def hostAddr (s : State) (w off : Nat) : Nat := match resolve s w off with | .at a => a | .miss _ => 0

/-- Lines of 128 B that the admitted PUTs or GETs have reserved (R310). -/
def linesHeld (s : State) (opcode : Nat) : Nat :=
  (s.tgt.ops.filter fun e => e.2.phase ≠ .waiting && e.2.pkt.opcode = opcode).foldl (fun n e => n + e.2.space) 0

/-- Lines of 128 B of host memory that a PUT or GET touches (R310): a chunk is aligned, so in a chunked window they follow
from the offset. -/
def hostLines (s : State) (p : Pkt) : Nat :=
  let v := s.win p.window
  linesOf (if v.chunked then p.offset else v.base + p.offset) p.span

/-- A PUT or GET overlaps a line held by the atomic unit, and waits (R313). -/
def meetsHeld (s : State) (w : Nat) (l : List (Nat × Nat)) : Bool :=
  l.any fun x => s.tgt.atoms.any fun e =>
    (hostAddr s w x.1) / 128 ≤ e.1 && e.1 ≤ (hostAddr s w x.1 + x.2 - 1) / 128

/-- NOTICE_SEND (R286): a NOTICE of a late failure of request `p` goes to its initiator in this block's own stream. -/
def noticeSend (s : State) (p : Pkt) (status : Nat) : State :=
  let body := natLE 2 p.seq ++ natLE 3 p.stag ++ natLE 1 status ++ natLE 2 p.ctx ++ natLE 6 p.offset ++ natLE 2 p.window
  startOp s { owner := .notice, ctx := noCtx, opcode := 0x09, dest := p.src, tc := p.tc, pkey := p.pkey, payload := body, len := 1 }

/-- The strobes of the operand bytes that the applied atomics changed (R312). -/
def atomStrb (l : List (Pkt × Nat)) : Nat := l.foldl (fun m x => m ||| (2 ^ x.1.atomWidth - 1) * 2 ^ x.2) 0

/-- The line is written back once, after the last atomic queued on it (R313). -/
def writeBack (s : State) (l : Nat) : State :=
  match s.tgt.atoms.find? l with
  | none => s
  | some a => match a.data with
    | none => s
    | some d =>
      if a.writing ∨ !a.queue.isEmpty ∨ a.applied.isEmpty then s else
      hmpWriteLine (s.putLine l { a with writing := true, inFlight := a.applied.map (·.1), applied := [] }) 1 l d
        (atomStrb a.applied) (.atomLine l)

/-- Bytes `o` on of a line replaced. -/
def patch (d : List Byte) (o : Nat) (v : List Byte) : List Byte := d.take o ++ v ++ d.drop (o + v.length)

/-- The line slots in use: held lines, and admitted atomics whose line is not yet known (R310). -/
def slotsHeld (s : State) : Nat :=
  s.tgt.atoms.length + (s.tgt.ops.filter fun e => e.2.phase = .resolving && e.2.pkt.opcode = 0x03).length

/-- The space that an operation needs is free (R310): lines of the write path or of the read-return buffer, or a line slot,
unless the ATOMIC's line is held already. -/
def hasRoom (s : State) (p : Pkt) (n : Nat) : Bool :=
  if p.opcode = 0x01 then linesHeld s 0x01 + n ≤ 1024
  else if p.opcode = 0x02 then linesHeld s 0x02 + n ≤ 2048
  else slotsHeld s < 256 || (match resolve s p.window p.offset with
    | .at a => (s.tgt.atoms.find? (a / 128)).isSome
    | .miss _ => false)

/-- Applies one atomic to the held value of its line and answers it (R311, R313). -/
def applyAtom (s : State) (l id : Nat) : State :=
  match s.tgt.atoms.find? l, s.tgtOp id with
  | some a, some o => match a.data with
    | none => s
    | some d =>
      let p := o.pkt
      let at_ := o.addr % 128
      let w := p.atomWidth
      let old := leAt d at_ w
      let new := atomicNew p.fn w old (leAt p.payload 0 w) (leAt p.payload 8 w)
      let s1 := (s.dropTgt id).putLine l { a with
        data := some (patch d at_ (natLE w new)), queue := a.queue.filter (· ≠ id), applied := a.applied ++ [(p, at_)] }
      answer (heat s1 p.window .at_ 0 p.src) p o.recIdx stOK old []
  | _, _ => s

/-- An admitted operation goes on (R304, R310, R313): once its chunk lines are cached, and unless a PUT or GET meets a held
line, its host accesses start; a PUT is answered here (R277). -/
def admitted (s : State) (id : Nat) : State :=
  match s.tgtOp id with
  | none => s
  | some o =>
    let p := o.pkt
    let l := spans s p.window p.offset p.span
    let miss := missing s p.window l
    if o.phase ≠ .resolving then s
    else if !miss.isEmpty then miss.foldl (fun t n => fillLine t p.window n) (s.putTgt { o with lines := miss })
    else if p.opcode = 0x01 then
      if meetsHeld s p.window l then s.putTgt { o with lines := [] } else
      let s1 := s.putTgt { o with phase := .writing, left := l.length, lines := [], recIdx := none }
      let s2 := l.foldl (fun t x => hmpWrite t 1 (hostAddr t p.window x.1)
        ((p.payload.drop (x.1 - p.offset)).take x.2) (.target id (x.1 - p.offset))) s1
      answer (heat s2 p.window .wr p.length p.src) p o.recIdx stOK 0 []
    else if p.opcode = 0x02 then
      if meetsHeld s p.window l then s.putTgt { o with lines := [] } else
      let s1 := s.putTgt { o with phase := .reading, left := l.length, lines := [] }
      l.foldl (fun t x => hmpRead t 1 (hostAddr t p.window x.1) x.2 (.target id (x.1 - p.offset))) s1
    else
      let a := hostAddr s p.window p.offset
      let s1 := s.putTgt { o with phase := .atomic, addr := a, lines := [] }
      match s.tgt.atoms.find? (a / 128) with
      | some v =>
        let s2 := s1.putLine (a / 128) { v with queue := v.queue ++ [id] }
        if v.data.isSome then writeBack (applyAtom s2 (a / 128) id) (a / 128) else s2
      | none => hmpRead (s1.putLine (a / 128) { queue := [id] }) 1 (128 * (a / 128)) 128 (.atomLine (a / 128))

/-- TGT_ADMIT (R310): an operation whose space is free is admitted; one that is admitted goes on. -/
def tryAdmit (s : State) (id : Nat) : State :=
  match s.tgtOp id with
  | none => s
  | some o =>
    let n := hostLines s o.pkt
    if o.phase = .waiting ∧ hasRoom s o.pkt n then admitted (s.putTgt { o with phase := .resolving, space := n }) id
    else admitted s id

/-- A Tier 1 of an engine is under way (R602). -/
def tier1On (s : State) (e : Nat) : Bool := match s.bdg.tier with | some r => r.n = 1 && r.engine = e | none => false

/-- An accepted request is executed (R273, R277, R309, R367): refused with a status, applied, or handed to the target
engine. -/
def execute (s : State) (i : Nat) (p : Pkt) (r : Option Nat) : State :=
  if p.opcode = 0x04 then
    let (s1, st) := applySignal s p.window p.pkey p.src (leAt p.payload 0 8)
    answer s1 p r st 0 []
  else if p.opcode = 0x09 then answer (applyNotice s p) p r stOK 0 []
  else
    let need : Need := if p.opcode = 0x01 then .wr else if p.opcode = 0x02 then .rd else .at_
    let st := if s.fenced then stFENCED else if tier1On s 16 then stBUSY else winCheck (s.win p.window) p.pkey need p.offset p.span
    if st = stBUSY then answer (s.bump TGT_BUSY.BUSY_CNT 1) p r st 0 [] else if st ≠ stOK then answer (countTgtErr s st) p r st 0 []
    else if p.opcode = 0x03 ∧ !atomicOk p.fn p.w8 then answer s p r stINTERNAL 0 []
    else
      let id := s.tgt.next
      let o : TgtOp := { id := id, pkt := p, stream := i, recIdx := r, since := s.now }
      tryAdmit ({ s with tgt := { s.tgt with next := id + 1 } }.putTgt o) id

/-- Accepts a new sequence number and executes its packet: a bitmap, then a record, then execution (R273, R274, R278). -/
def acceptWith (ex : State → Nat → Pkt → Option Nat → State) (s : State) (i : Nat) (p : Pkt) : State :=
  match markAccepted s i p.seq with
  | none => s.bump XPT_ERR2.BAD_FULL 1
  | some s1 =>
    if p.opcode = 0x02 then ex s1 i p none
    else match freeRec s1 with
    | none => s.bump XPT_ERR2.REC_FULL 1
    | some r =>
      ex { s1.useFree with xpt := { s1.xpt with
        recs := s1.xpt.recs.put r ⟨i, p.stag, p.seq, none, p.opcode, 0, s.nowNs⟩ } } i p (some r)

/-- Accepts a new sequence number and executes its packet. -/
def acceptNew (s : State) (i : Nat) (p : Pkt) : State := acceptWith execute s i p

/-- A held copy of a packet, by stream, STAG and SEQ (R275). -/
def isHeld (s : State) (i : Nat) (p : Pkt) : Bool :=
  s.xpt.held.any fun e => e.2.stream = i && e.2.pkt.stag = p.stag && e.2.pkt.seq = p.seq

/-- A new packet of the window (R273's last row, R275): an ORD packet that comes early is held. -/
def receiveNew (s : State) (i : Nat) (p : Pkt) : State :=
  if isHeld s i p then s.bump XPT_ERR3.HELD_DUP 1
  else if p.ord && !ordEligible s i p then
    let l := (List.range 4096).filter fun h => (Tbl.find? s.xpt.held h).isNone
    match l[s.free % l.length]? with
    | none => s.bump XPT_ERR2.HOLD_FULL 1
    | some h => { s.useFree with xpt := { s.xpt with held := s.xpt.held.put h ⟨i, p, s.now⟩ } }
  else acceptNew s i p

/-- The packet's original is accepted and not yet answered (R276, R278). -/
def stillBusy (s : State) (i : Nat) (p : Pkt) : Bool :=
  (match findRec s i p with | some r => r.2.status.isNone | none => false) ||
    s.tgt.ops.any fun e => e.2.pkt.opcode = 0x02 && e.2.stream = i && e.2.pkt.stag = p.stag && e.2.pkt.seq = p.seq

/-- A duplicate (R276). -/
def receiveDup (s : State) (i : Nat) (p : Pkt) : State :=
  if stillBusy s i p then s.bump XPT_ERR3.DUP_BUSY 1
  else if p.opcode = 0x02 then execute s i p none
  else match findRec s i p with
    | some (_, r) => sendAnswer s p (r.status.getD 0) r.result []
    | none => respondTo s p 0x81 stOK []

/-- RESYNC in answer to a request that no numbering covers (R273). -/
def answerResync (s : State) (p : Pkt) (st : Nat) : State := respondTo (s.bump XPT_EVT.RESYNC 1) p 0x8A st []

/-- The age of a packet in units of 4,096 ns (R273). -/
def pktAge (s : State) (p : Pkt) : Nat := (s.life + 256 - p.life % 256) % 256

/-- An arriving request is decided by the first row that applies (R273); `new` takes a new packet of the window and
`dup` a duplicate. -/
def receive (new dup : State → Nat → Pkt → State) (s : State) (p : Pkt) : State :=
  let i := streamOf p.src p.tc
  let e := s.peer i
  let d := (p.seq + 65536 - e.rxBase) % 65536
  if !p.intact then s.bump XPT_ERR2.BAD 1
  else if s.rd XPT_CFG.PKT_LIFE < pktAge s p then s.bump XPT_ERR.STALE_LIFE 1
  else if e.rxState = 0 then answerResync s p stFENCED
  else if e.rxState ≠ 1 then answerResync s p stPOISON
  else if p.stag ≠ e.rxStag then s.bump XPT_ERR.STALE_STAG 1
  else if 512 ≤ d ∧ d < 65024 then s.bump XPT_ERR.WINDOW 1
  else if 65024 ≤ d ∨ bitOf e.bmp d then dup s i p
  else new (applyAcked s i p) i p

/-- SYNC (R270). -/
def receiveSync (s : State) (p : Pkt) : State :=
  let i := streamOf p.src p.tc
  let e := s.peer i
  if !p.intact then s.bump XPT_ERR2.BAD 1
  else if s.rd XPT_CFG.PKT_LIFE < pktAge s p then s.bump XPT_ERR.STALE_LIFE 1
  else if e.rxState = 1 ∧ p.stag = e.rxStag then respondTo s p 0x88 stOK []
  else
    let s1 := dropRecs s fun r => r.stream = i
    let s2 := { s1 with xpt := { s1.xpt with held := s1.xpt.held.filter fun h => h.2.stream ≠ i } }
    respondTo (s2.setPeer i { e with rxStag := p.stag, rxBase := 0, rxState := 1, bmp := 0, bmpIdx := none }) p 0x88 stOK []

/-- ORD_EXECUTE: a held packet that has become eligible executes (R275). -/
def ordExecute (s : State) (h : Nat) : State :=
  match Tbl.find? s.xpt.held h with
  | none => s
  | some v =>
    if ordEligible s v.stream v.pkt then
      acceptNew { s with xpt := { s.xpt with held := s.xpt.held.drop h } } v.stream v.pkt
    else s

/-- REC_AGE in fabric time units (R291: units of 0.1 ms). -/
def State.recAge (s : State) : Nat := ns (100000 * s.rd XPT_CFG.REC_AGE)

/-- HELD_AGE_OUT (R275). -/
def heldAgeOut (s : State) (h : Nat) : State :=
  match Tbl.find? s.xpt.held h with
  | some v => if v.since + s.recAge ≤ s.now then { s with xpt := { s.xpt with held := s.xpt.held.drop h } } else s
  | none => s

/-- RECORD_AGE_OUT (R278): a kept record is freed when it has existed for REC_AGE. -/
def recordAgeOut (s : State) (r : Nat) : State :=
  match Tbl.find? s.xpt.recs r with
  | some v =>
    if v.status.isSome ∧ ns v.created + s.recAge ≤ s.now then { s with xpt := { s.xpt with recs := s.xpt.recs.drop r } }
    else s
  | none => s

/-- BUSY_BOUND_TMO (R310): an operation not admitted within BUSY_BOUND is answered BUSY. -/
def busyBoundTmo (s : State) (id : Nat) : State :=
  match s.tgtOp id with
  | some o =>
    if o.phase = .waiting ∧ o.since + ns (100 * s.rd TGT_CFG.BUSY_BOUND) ≤ s.now then
      answer ((s.dropTgt id).bump TGT_BUSY.BUSY_CNT 1) o.pkt o.recIdx stBUSY 0 []
    else s
  | none => s

/-- The status that a host transfer's end gives an operation: TIMEOUT or POISON (R92, R94). -/
def worse (a : Option Nat) (st : Nat) : Option Nat := match a with | some x => some x | none => if st = stOK then none else some st

/-- The end of a host access of the target engine (R92, R277, R286): a PUT whose write failed sends NOTICE; a GET whose
last data has arrived is answered. -/
def targetDone (s : State) (id off : Nat) (x : Xfer) : State :=
  match s.tgtOp id with
  | none => s
  | some o =>
    let o1 := { o with left := o.left - 1, bad := worse o.bad x.status, got := o.got ++ [(off, x.data)] }
    if o1.left ≠ 0 then s.putTgt o1
    else if o.pkt.opcode = 0x01 then
      match o1.bad with | some st => noticeSend (s.dropTgt id) o.pkt st | none => s.dropTgt id
    else
      let data := o1.got.foldl (fun d g => if g.1 = 0 then g.2 ++ d else d ++ g.2) []
      match o1.bad with
      | some st => answer (s.dropTgt id) o.pkt o.recIdx st 0 []
      | none => answer (heat (s.dropTgt id) o.pkt.window .rd o.pkt.length o.pkt.src) o.pkt o.recIdx stOK 0 data

/-- The end of the read or of the write-back of an atomic line (R92, R313). -/
def atomLineDone (s : State) (l : Nat) (x : Xfer) : State :=
  match s.tgt.atoms.find? l with
  | none => s
  | some a =>
    if !x.write then
      if x.status ≠ stOK then
        a.queue.foldl (fun t id => match t.tgtOp id with
          | some o => answer (t.dropTgt id) o.pkt o.recIdx x.status 0 []
          | none => t) (s.dropLine l)
      else writeBack (a.queue.foldl (fun t id => applyAtom t l id) (s.putLine l { a with data := some x.data })) l
    else
      let s1 := if x.status ≠ stOK then a.inFlight.foldl (fun t p => noticeSend t p x.status) s else s
      let a1 := { a with writing := false, inFlight := [] }
      if a.applied.isEmpty ∧ a.queue.isEmpty then s1.dropLine l else writeBack (s1.putLine l a1) l

/-- Operations at the target that wait for a chunk line whose read or tag failed end with its status (R304, R309 row 8). -/
def failWaiting (s : State) (w line st : Nat) : State :=
  (s.tgt.ops.filter fun e => e.2.phase = .resolving && e.2.pkt.window = w && e.2.lines.contains line).foldl
    (fun t e => answer (t.dropTgt e.1) e.2.pkt e.2.recIdx st 0 []) s

end Sys2Proof.Machine
end

