-- ==== Sys2Proof/Machine/Group.lean ====
section
/-! DEFINITION. Collective groups (R388 to R398, R426 to R430, R434 to R436): the descriptor image, ranks and trees, the
checks of CREATE, the lengths of segments and slices, and staging. -/
namespace Sys2Proof.Machine

def State.group (s : State) (g : Nat) : Group := s.yar.groups.get {} g
def State.setGroup (s : State) (g : Nat) (v : Group) : State :=
  { s with yar := { s.yar with groups := s.yar.groups.set {} g v } }

-- The fields of a descriptor image (R388, R389, R434)
def Group.tag (v : Group) : Nat := leAt v.image 0 4
def Group.pkey (v : Group) : Nat := leAt v.image 4 2
def Group.flags (v : Group) : Nat := leAt v.image 6 1
def Group.tc (v : Group) : Nat := v.flags % 8
def Group.priv (v : Group) : Bool := bitOf v.flags 3
def Group.dims (v : Group) : Nat := leAt v.image 7 1
def Group.phases (v : Group) : Nat := leAt v.image 8 2
def Group.mode (v : Group) : Nat := leAt v.image 10 1
def Group.stoOp (v : Group) : Nat := leAt v.image 11 1
def Group.ownerBase (v : Group) : Nat := leAt v.image 12 4
def Group.stoRoot (v : Group) : Nat := leAt v.image 16 4
def Group.foxStage (v : Group) : Nat := leAt v.image 20 2
def Group.update (v : Group) : Nat := leAt v.image 22 2
def Group.arith (v : Group) : Nat := leAt v.image 24 8
def Group.inFmt (v : Group) : Nat := v.arith % 16
def Group.outFmt (v : Group) : Nat := v.arith / 16 % 16
/-- FLOOR, 9-bit two's complement. -/
def Group.floor (v : Group) : Int := let f : Nat := v.arith / 256 % 512; if f < 256 then f else (f : Int) - 512
/-- SCALE_EXP, 8-bit two's complement. -/
def Group.scaleExp (v : Group) : Int := let f : Nat := v.arith / 2 ^ 24 % 256; if f < 128 then f else (f : Int) - 256
def Group.mlistWin (v : Group) : Nat := leAt v.image 32 2
def Group.mlistOff (v : Group) : Nat := leAt v.image 34 6
def Group.resv (v : Group) : Nat := leAt v.image 40 2
def Group.quantum (v : Group) : Nat := leAt v.image 42 2
def Group.abortTmo (v : Group) : Nat := leAt v.image 44 4
def Group.dimN (v : Group) (d : Nat) : Nat := leAt v.image (48 + 12 * d) 1
def Group.dimI (v : Group) (d : Nat) : Nat := leAt v.image (49 + 12 * d) 1
def Group.modeBits (v : Group) (d : Nat) : Nat := leAt v.image (50 + 12 * d) 1
def Group.wrap (v : Group) (d : Nat) : Bool := bitOf (v.modeBits d) 0
def Group.adj (v : Group) (d : Nat) : Bool := bitOf (v.modeBits d) 1
def Group.ports (v : Group) (d : Nat) : Nat := leAt v.image (51 + 12 * d) 1
/-- The node and the link port of neighbour index `i`: 2g positive, 2g + 1 negative (R389, R430). -/
def Group.nbNode (v : Group) (i : Nat) : Nat := leAt v.image (52 + 12 * (i / 2) + 4 * (i % 2)) 3 % 2 ^ 20
def Group.nbPort (v : Group) (i : Nat) : Nat := v.ports (i / 2) / 16 ^ (i % 2) % 16

/-- The dimensions of a group: each with n_g and WRAP. -/
def Group.shape (v : Group) : List (Nat × Bool) := (List.range v.dims).map fun d => (v.dimN d, v.wrap d)

/-- The number of members N. -/
def Group.size (v : Group) : Nat := (v.shape.map (·.1)).prod

/-- This member's coordinates. -/
def Group.coords (v : Group) : List Nat := (List.range v.dims).map v.dimI

/-- The rank of coordinates, dimension 0 most significant (R393). -/
def gridRank : List (Nat × Bool) → List Nat → Nat
  | (_, _) :: t, i :: r => i * (t.map (·.1)).prod + gridRank t r
  | _, _ => 0

/-- The coordinates of a rank (R393). -/
def coordsOf : List (Nat × Bool) → Nat → List Nat
  | [], _ => []
  | (n, _) :: t, r => (r / (t.map (·.1)).prod % n) :: coordsOf t (r % (t.map (·.1)).prod)

def Group.rank (v : Group) : Nat := gridRank v.shape v.coords

/-- The neighbour index of the parent of a member at `x` in the tree of an owner at `o`, from dimension `d` on: none at
the owner itself (R395). -/
def parentFrom : Nat → List (Nat × Bool) → List Nat → List Nat → Option Nat
  | d, (n, w) :: t, a :: x, b :: o =>
    if a = b then parentFrom (d + 1) t x o
    else if w then some (if 2 * ((b + n - a) % n) ≤ n then 2 * d else 2 * d + 1)
    else some (if a < b then 2 * d else 2 * d + 1)
  | _, _, _, _ => none

/-- A neighbour exists on that side of dimension `d` (R389). -/
def Group.hasNb (v : Group) (i : Nat) : Bool :=
  let d := i / 2
  1 < v.dimN d && (v.wrap d || (if i % 2 = 0 then v.dimI d + 1 < v.dimN d else 0 < v.dimI d))

/-- The coordinates of neighbour `i`. -/
def Group.nbCoords (v : Group) (i : Nat) : List Nat :=
  let d := i / 2
  let n := v.dimN d
  v.coords.set d (if i % 2 = 0 then (v.dimI d + 1) % n else (v.dimI d + n - 1) % n)

/-- The neighbour indices of a group, in the order of R396: ascending dimension, the negative side first. -/
def Group.sides (v : Group) : List Nat := ((List.range v.dims).flatMap fun d => [2 * d + 1, 2 * d]).filter v.hasNb

/-- The owner of segment `k` of a step whose destination offset is `gc` (R394). -/
def Group.owner (v : Group) (gc k : Nat) : Nat := (v.ownerBase + gc / 65536 + k) % v.size

/-- This member's parent in the tree of owner rank `o` (R395). -/
def Group.parent (v : Group) (o : Nat) : Option Nat := parentFrom 0 v.shape v.coords (coordsOf v.shape o)

/-- This member's children in the tree of owner rank `o`, in the order of R396: those whose parent it is. -/
def Group.children (v : Group) (o : Nat) : List Nat :=
  v.sides.filter fun i => parentFrom 0 v.shape (v.nbCoords i) (coordsOf v.shape o) = some (if i % 2 = 0 then i + 1 else i - 1)

/-- The nodes of the group neighbours, each once. -/
def Group.nodes (v : Group) : List Nat := (v.sides.map v.nbNode).dedup

/-- The neighbour index of a node, the positive side first. -/
def Group.nbOf (v : Group) (node : Nat) : Option Nat :=
  (List.range (2 * v.dims)).find? fun i => v.hasNb i && v.nbNode i = node

/-- Radius H (R395). -/
def Group.radius (v : Group) : Nat := (v.shape.map fun x => if x.2 then x.1 / 2 else x.1 - 1).sum

-- Lengths (R394, R399, R436)

/-- The input format of a phase: AG moves output elements (R436). -/
def Group.fmtOf (v : Group) (phase : Nat) : Nat := if phase = 2 then v.outFmt else v.inFmt

/-- Segments of a length. -/
def segCount (len : Nat) : Nat := (len + 65535) / 65536

/-- Bytes of segment `k` of a length, in the input form. -/
def segLen (len k : Nat) : Nat := min 65536 (len - 65536 * k)

/-- Elements of `n` bytes of a format. -/
def elemsOf (code n : Nat) : Nat := n / unitOf code * perUnit code

/-- Output bytes of `n` input bytes of a phase (R400, R436). -/
def Group.outBytes (v : Group) (phase n : Nat) : Nat :=
  if phase = 2 ∨ isMx v.outFmt then n else elemsOf v.inFmt n * unitOf v.outFmt

/-- Bytes of a segment in the reduce half: partials (R399). -/
def Group.partBytes (v : Group) (n : Nat) : Nat := elemsOf v.inFmt n * partSize v.mode

/-- The element or block sizes divide the operands of a step (R398, R436). -/
def Group.unitsOk (v : Group) (phase len gb gc : Nat) : Bool :=
  let u := unitOf (v.fmtOf phase)
  len % u = 0 && gb % u = 0 && gc % unitOf v.outFmt = 0

-- CREATE (R390, R434, R435)

/-- The dimension records of an image are in range (R389, R390). -/
def Group.dimsOk (v : Group) : Bool :=
  1 ≤ v.dims && v.dims ≤ 6 &&
  (List.range 6).all fun d =>
    if v.dims ≤ d then leAt v.image (48 + 12 * d) 12 = 0 else
    1 ≤ v.dimN d && v.dimN d ≤ 32 && v.dimI d < v.dimN d && v.modeBits d < 4 &&
    leAt v.image (54 + 12 * d) 2 / 16 = 0 && leAt v.image (58 + 12 * d) 2 / 16 = 0 &&
    (if v.adj d then (v.ports d % 16 < 12 && v.ports d / 16 < 12) else v.ports d = 0) &&
    [2 * d, 2 * d + 1].all fun i => (v.nbNode i = 0xFFFFF) = !v.hasNb i

/-- The fields of an image are in range and its zero fields are zero (R388 to R390, R435, R448). -/
def Group.fieldsOk (v : Group) : Bool :=
  v.tag ≠ 0 && v.pkey ≠ 0 && v.flags < 16 && v.phases < 128 && v.mode ≤ 2 && v.dimsOk && v.size ≤ 131072 &&
  (if bitOf v.phases 6 then v.stoOp ≤ 11 else v.stoOp = 0) &&
  v.ownerBase < 2 ^ 18 && v.stoRoot < v.size &&
  (v.foxStage < 256 || v.foxStage = 0xFFFF) && (v.update < 256 || v.update = 0xFFFF) &&
  v.inFmt ≤ 9 && v.outFmt ≤ 9 && v.arith / 2 ^ 17 % 128 = 0 && v.arith / 2 ^ 32 = 0 &&
  -192 ≤ v.floor && v.floor ≤ 96 && -64 ≤ v.scaleExp && v.scaleExp ≤ 63 &&
  (!isMx v.outFmt || v.inFmt = v.outFmt) &&
  (!bitOf v.phases 3 || (v.outFmt ≤ 2 && v.update ≠ 0xFFFF)) && leAt v.image 120 6 = 0

/-- With STO allowed, every dimension of more than one member is adjacent and its ports lead to the named nodes (R390). -/
def stoOk (s : State) (v : Group) : Bool :=
  !bitOf v.phases 6 || (List.range v.dims).all fun d =>
    v.dimN d ≤ 1 || (v.adj d && [2 * d, 2 * d + 1].all fun i =>
      !v.hasNb i || s.rd (LAN_PORT_FAR.FAR_NODE (v.nbPort i)) = v.nbNode i)

/-- The checks of an image once it has been read, in order (R390). -/
def imageStatus (s : State) (priv : Bool) (v : Group) : Nat :=
  if leAt v.image 126 2 ≠ 1 then stVERSION
  else if !priv ∧ (v.priv ∨ v.abortTmo ≠ 0) then stRIGHTS
  else if !v.fieldsOk then stINTERNAL
  else if v.foxStage ≠ 0xFFFF ∧ !s.build.fox then stINTERNAL
  else if !stoOk s v then stINTERNAL
  else localCheck (s.win v.mlistWin) v.pkey .rd (v.mlistOff + 4 * v.rank) 4

/-- An instruction or a group with a stage powers the island up (R487). -/
def foxPower (s : State) : State := if s.fox.island = 0 then { s with fox := { s.fox with island := 1 } } else s

/-- Ends a YAR_GCMD command. -/
def gcmdEnd (s : State) (st : Nat) : State := (s.wr YAR_GCMD.BUSY 0).wr YAR_GCMD.STATUS st

/-- DESCRIPTOR_CREATE (R388, R390): the checks before the image is read, and the read. -/
def groupCreate (s : State) (g : Nat) (priv : Bool) (addr : Nat) : State :=
  let s0 := s.wr YAR_GCMD.GROUP g
  if s.on YAR_GCMD.BUSY then s
  else if !s.initDone then s0.wr YAR_GCMD.STATUS stBUSY
  else if (s.group g).state ≠ 0 then s0.wr YAR_GCMD.STATUS stINTERNAL
  else hmpRead ({ s0.wr YAR_GCMD.BUSY 1 with yar := { s.yar with creating := some { g := g, priv := priv } } }) 6 addr 128
    .groupImage

/-- The image address of YAR_GARG (R427). -/
def gargAddr (s : State) : Nat := 128 * s.rd YAR_GARG_LO.ADDR_LO + 2 ^ 32 * s.rd YAR_GARG_HI.ADDR_HI

/-- The image has passed its checks: the member list entry of this member is read, chunk lines first (R304, R390). -/
def readOwnEntry (s : State) (c : GroupCreate) (v : Group) : State :=
  let off := v.mlistOff + 4 * v.rank
  let miss := linesMissing s v.mlistWin off 4
  let s1 := { s with yar := { s.yar with creating := some { c with image := some v.image, lines := miss } } }
  if miss.isEmpty then hmpGather s1 6 (extents s v.mlistWin off 4) .groupList
  else miss.foldl (fun t l => fillLine t v.mlistWin l) s1

/-- CREATE_IMAGE_READ (R390): the image has been read, or the member list entry; the last check makes the group,
and one with a Foxglove stage powers the island up (R487). -/
def createImageRead (s : State) : State :=
  match s.yar.creating with
  | none => s
  | some c =>
    match s.hmp.returned.find? (fun x => x.k = .groupImage || x.k = .groupList) with
    | none => s
    | some x =>
      let s1 := { s with hmp := { s.hmp with returned := s.hmp.returned.erase x } }
      let fail (st : Nat) : State := gcmdEnd { s1 with yar := { s1.yar with creating := none } } st
      if x.status ≠ stOK then fail x.status
      else match c.image with
      | none =>
        let v : Group := { image := x.data }
        let st := imageStatus s c.priv v
        if st ≠ stOK then fail st else readOwnEntry s1 c v
      | some im =>
        if leNat x.data ≠ s.node then fail stINTERNAL
        else
          let v : Group := { state := 1, image := im }
          let s2 := ({ s1 with yar := { s1.yar with creating := none } }).setGroup c.g v
          gcmdEnd (if v.foxStage ≠ 0xFFFF then foxPower s2 else s2) stOK

-- Staging (R34, R459, R460)

/-- Staging segments that are free. -/
def freeStaging (s : State) : List Nat :=
  (List.range (16 * s.build.stagingMib)).filter fun n => !s.yar.used.contains n && !s.yar.retired.contains n

/-- The segments of the overflow area granted now (R34, YAR_SOVF_SIZE.IN_USE). -/
def spillUsed (s : State) : List Nat :=
  s.yar.steps.flatMap (·.2.spill) ++ (s.fox.queue ++ s.fox.running).flatMap (·.spill)

/-- The host ranges of the first `n` bytes of overflow segments (R34, R460). -/
def sovfExt (s : State) (l : List Nat) (n : Nat) : List (Nat × Nat) :=
  let base := 2 ^ 16 * s.rd YAR_SOVF_LO.BASE_LO + 2 ^ 32 * s.rd YAR_SOVF_HI.BASE_HI
  ((List.range l.length).map fun i => (base + 65536 * l.getD i 0, min 65536 (n - 65536 * i))).filter (·.2 ≠ 0)

/-- The staging grant of `n` segments, all at once: from free segments, or from the overflow area, counted as a spill;
none where neither covers it (R34, R460). Which of the free ones it takes is left open. -/
def takeStaging (s : State) (n : Nat) : Option (State × List Nat × List Nat) :=
  let fr := freeStaging s
  let ov := (List.range (s.rd YAR_SOVF_SIZE.SEGS)).filter fun i => !(spillUsed s).contains i
  let pick (l : List Nat) : List Nat := (l.rotateLeft (s.free % (l.length + 1))).take n
  if n ≤ fr.length then some ({ s with yar := { s.yar with used := s.yar.used ++ pick fr } }.useFree, pick fr, [])
  else if n ≤ ov.length then some ((s.wrapAdd YAR_STG_SPILL.SPILLS 1).useFree, [], pick ov)
  else none

/-- Releases staging segments. -/
def dropStaging (s : State) (l : List Nat) : State :=
  { s with yar := { s.yar with used := s.yar.used.filter fun n => !l.contains n } }

end Sys2Proof.Machine
end

