-- ==== Sys2Proof/Machine/Yarrow.lean ====
section
/-! DEFINITION. Steps of collective groups (R396 to R418): their packets, their end and its spread, abort, and the two
halves of a tree step, segment by segment and slice by slice. -/
namespace Sys2Proof.Machine

def State.ystep (s : State) (y : Nat) : Option YStep := s.yar.steps.find? y
def State.putStep (s : State) (y : Nat) (v : YStep) : State := { s with yar := { s.yar with steps := s.yar.steps.put y v } }

/-- The outstanding step of a group with a step number. -/
def findStep (s : State) (g n : Nat) : Option (Nat × YStep) :=
  List.find? (fun e : Nat × YStep => e.2.g = g && e.2.step = n) s.yar.steps

/-- The outstanding Stoat step of a group with a step number. -/
def findSto (s : State) (g n : Nat) : Option StoOp := s.yar.stoats.find? fun o => o.g = g && o.step = n

/-- The group has an outstanding step that has started (R404). -/
def groupRunning (s : State) (g : Nat) : Bool :=
  s.yar.steps.any (fun e => e.2.g = g) || s.yar.stoats.any fun o => o.g = g && o.be.isSome

/-- Groups running now (YAR_GRUN.RUNNING). -/
def groupsRunning (s : State) : Nat :=
  ((s.yar.steps.map (·.2.g)) ++ ((s.yar.stoats.filter (·.be.isSome)).map (·.g))).dedup.length

/-- Back-end entries that hold a step of group `g`: its steps outstanding here (R392, R430). -/
def stepsOut (s : State) (g : Nat) : Nat :=
  (s.ctxs.map fun e => e.2.beq.countP fun b => 0x60 ≤ b.opcode && b.opcode ≤ 0x66 && b.imm % 4096 = g && b.desc.isNone).sum

-- Packets (R409, R410)

/-- The OFFSET field of a collective packet (R409). -/
def collOff (step seg slice at_ : Nat) (half sat : Bool) : Nat :=
  step % 65536 + seg % 512 * 2 ^ 16 + slice % 16 * 2 ^ 25 + at_ % 65536 * 2 ^ 29 + b2n half * 2 ^ 45 + b2n sat * 2 ^ 46

def collStep (off : Nat) : Nat := off % 65536
def collSeg (off : Nat) : Nat := bitsOf off 24 16
def collSlice (off : Nat) : Nat := bitsOf off 28 25
def collAt (off : Nat) : Nat := bitsOf off 44 29
def collHalf (off : Nat) : Bool := bitOf off 45
def collSat (off : Nat) : Bool := bitOf off 46

/-- Sends a collective packet of group `g` on behalf of step `y` (R409 to R411). -/
def sendColl (s : State) (y g dest opcode phase off : Nat) (payload : List Byte) : State :=
  let v := s.group g
  startOp s { owner := .coll y, ctx := noCtx, opcode := opcode, dest := dest, tc := v.tc, pkey := v.pkey, win := g,
              off := off, fn := phase, payload := payload, len := 1 }

/-- FAIL of a step to each group neighbour but `skip` (R410, R413). -/
def sendFails (s : State) (g step st origin : Nat) (skip : Option Nat) : State :=
  let v := s.group g
  (v.nodes.filter fun n => some n ≠ skip).foldl (fun t n =>
    sendColl t 0 g n 0x25 0 (collOff step 0 0 0 false false)
      (natLE 4 v.tag ++ natLE 2 step ++ natLE 1 st ++ natLE 1 0 ++ natLE 4 origin ++ natLE 4 0)) s

/-- ABORT of a group to each neighbour but `skip` (R417). -/
def sendAborts (s : State) (g : Nat) (r : AbortRec) (skip : Option Nat) : State :=
  let v := s.group g
  (v.nodes.filter fun n => some n ≠ skip).foldl (fun t n =>
    sendColl t 0 g n 0x26 0 (collOff r.step 0 0 0 false false)
      (natLE 4 v.tag ++ natLE 4 r.origin ++ natLE 2 r.step ++ natLE 1 r.cause ++ natLE 5 0 ++ natLE 8 r.time ++ natLE 8 0)) s

/-- Stoat's message to the neighbour on side `i` (R422): it waits in the port's bypass queue. -/
def sendStoat (s : State) (g i : Nat) (m : List Byte) : State :=
  let p := (s.group g).nbPort i
  s.setLink p { s.link p with bpStoat := (s.link p).bpStoat ++ [m] }

/-- A Stoat message (R422): the side it leaves on gives its dimension and direction. -/
def stoatMsg (type g step side hops len st op : Nat) (val : List Byte) : List Byte :=
  natLE 1 2 ++ natLE 1 type ++ natLE 2 g ++ natLE 2 step ++ natLE 1 (side / 2 + 8 * (side % 2)) ++ natLE 1 hops ++
    natLE 1 len ++ natLE 1 st ++ natLE 1 op ++ natLE 5 0 ++ (val ++ List.replicate (64 - val.length) 0) ++ natLE 16 0

/-- SFAIL to every group neighbour but those on side `skip` (R425). -/
def sendSFails (s : State) (g step st len : Nat) (skip : Option Nat) : State :=
  let v := s.group g
  (v.sides.filter fun i => some i ≠ skip).foldl (fun t i => sendStoat t g i (stoatMsg 2 g step i 0 len st v.stoOp [])) s

-- The end of a step (R343, R402, R413, R418)

/-- A step that fails with this status spreads: OK and OVERFLOW do not (R413). -/
def spreads (st : Nat) : Bool := st ≠ stOK && st ≠ stOVERFLOW

/-- Enters the end of a step in the group's record (R343, R418). -/
def groupEnded (s : State) (g step st : Nat) (lag : Option (Nat × Nat × Nat)) : State :=
  let v := s.group g
  let l := lag.getD (15, s.node, 0)
  s.setGroup g { v with
    ended := (v.ended + 1) % 65536
    failSt := if v.failSt = stOK then st else v.failSt
    failStep := if v.failSt = stOK ∧ st ≠ stOK then step else v.failStep
    endedSt := v.endedSt.put step (some st)
    lagIdx := l.1, lagNode := l.2.1, lastWait := l.2.2, maxWait := max v.maxWait l.2.2
    slow := if l.1 = 15 then v.slow else v.slow.set 0 l.1 (min (v.slow.get 0 l.1 + 1) 255) }

/-- A CX step ends: the group's record of it, and the counted A2A steps that follow it, waiting ones too, learn its status
and the counts it sent (R407). -/
def cxEnded (s : State) (g step st : Nat) (body : List Byte) : State :=
  let upd (c : CxRec) : CxRec :=
    if c.step = step ∧ c.status.isNone then
      { c with status := some st, counts := (List.range (body.length / 8)).map fun i => leAt body (8 * i) 8 }
    else c
  let v := s.group g
  let s1 := s.setGroup g { v with cx := v.cx.map upd }
  { s1 with
    yar := { s1.yar with steps := s1.yar.steps.map fun e =>
      if e.2.g = g then (e.1, { e.2 with cx := e.2.cx.map upd }) else e }
    ctxs := s1.ctxs.mapAll {} fun _ c => { c with
      beq := c.beq.map fun e => if e.imm % 4096 = g then { e with cx := e.cx.map upd } else e } }

/-- The back-end entry of a step ends: its CNT add, and its place in the queue (R343). -/
def stepEntryDone (s : State) (k id : Nat) : State :=
  match (s.ctx k).beq.find? (fun e => e.id = id) with
  | none => s
  | some e => dropEntry (applyCnt s e.cnt) k id

/-- Operations of a step that have not been opened are dropped, and so is its stage where it waits: it stops sending
(R413). -/
def dropStepOps (s : State) (y : Nat) : State :=
  { s with
    xpt := { s.xpt with ops := s.xpt.ops.filter fun e =>
      !(e.2.owner = .coll y && !e.2.opened && e.2.opcode ≠ 0x25 && e.2.opcode ≠ 0x26) }
    yar := { s.yar with retries := s.yar.retries.filter fun r => r.y ≠ y, upds := s.yar.upds.filter fun u => u.y ≠ y }
    fox := { s.fox with queue := s.fox.queue.filter fun e => !(e.kind = .group && e.y = y) } }

/-- A step ends here with a status: record, staging, FAIL where `sf`, CNT (R343, R402, R413). -/
def finishStep (s : State) (y st : Nat) (sf : Bool) : State :=
  match s.ystep y with
  | none => s
  | some v =>
    let s1 := dropStaging (dropStepOps { s with yar := { s.yar with steps := s.yar.steps.drop y } } y) v.stag
    let s2 := groupEnded s1 v.g v.step st v.lag
    let s3 := if v.phase = 6 then cxEnded s2 v.g v.step st (v.body.getD []) else s2
    let s4 := if sf && spreads st then sendFails s3 v.g v.step st s.node none else s3
    stepEntryDone s4 v.ctx v.be

/-- A step is to end: at once where no host access is under way, else when the last has returned (R365, R415). -/
def markEnding (s : State) (y st : Nat) (sf : Bool) : State :=
  match s.ystep y with
  | none => s
  | some v =>
    let n := s.yar.held.countP fun h => h.y = y
    let s1 := { s with yar := { s.yar with held := s.yar.held.filter fun h => h.y ≠ y } }
    if v.ending.isSome then s
    else if v.acc ≤ n then finishStep s1 y st sf
    else dropStepOps (s1.putStep y { v with acc := v.acc - n, ending := some (st, sf) }) y

/-- A Stoat step ends here with a status: record, SFAIL where `sf`, CNT (R425). -/
def finishSto (s : State) (g step st : Nat) (sf : Bool) : State :=
  match findSto s g step with
  | none => s
  | some o =>
    match o.be with
    | none => s
    | some (k, id) =>
      let s1 := { s with yar := { s.yar with stoats := s.yar.stoats.filter fun x => !(x.g = g && x.step = step) } }
      let s2 := groupEnded s1 g step st o.lag
      stepEntryDone (if sf && spreads st then sendSFails s2 g step st o.len none else s2) k id

/-- Grants and data that came early for a step are forgotten: it ends without taking them. -/
def dropEarly (s : State) (g step : Nat) : State :=
  { s with yar := { s.yar with
    grants := s.yar.grants.filter fun e => !(e.g = g && e.step = step)
    early := s.yar.early.filter fun e => !(e.g = g && e.step = step) } }

/-- The steps of group `g` that have been issued and still stand in a back-end queue: context and entry. -/
def waitingSteps (s : State) (g : Nat) : List (Nat × BeEntry) :=
  s.ctxs.flatMap fun c => (c.2.beq.filter fun e =>
    0x60 ≤ e.opcode && e.opcode ≤ 0x66 && e.imm % 4096 = g && e.desc.isNone && !e.left).map fun e => (c.1, e)

/-- LEN on the wire of a STO of `n` bytes: twice that for ADD_EXACT (R422, R456). -/
def stoWire (op n : Nat) : Nat := if op = 8 then 2 * n else n

/-- A step that has not begun ends: in the group's record, with FAIL or SFAIL where `sf` (R343, R392, R415, R425). -/
def entryOut (st : Nat) (sf : Bool) (s : State) (x : Nat × BeEntry) : State :=
  let (k, e) := x
  let g := e.imm % 4096
  let v := s.group g
  let s0 := groupEnded (dropEarly s g e.step) g e.step st none
  let s1 := if e.opcode = 0x65 then
      cxEnded s0 g e.step st []
    else { s0 with yar := { s0.yar with stoats := s0.yar.stoats.filter fun o => !(o.g = g && o.step = e.step && o.be.isNone) } }
  let s2 := if !(sf && spreads st) then s1
    else if e.opcode = 0x66 then sendSFails s1 g e.step st (stoWire v.stoOp (bitsOf e.imm 22 16)) none
    else sendFails s1 g e.step st s.node none
  stepEntryDone s2 k e.id

/-- Every outstanding step of a group is to end, also one that still stands in a back-end queue (R392, R417). -/
def endAll (s : State) (g st : Nat) : State :=
  let s1 := ((s.yar.steps.filter fun e => e.2.g = g).map (·.1)).foldl (fun t y => markEnding t y st true) s
  let s2 := ((s1.yar.stoats.filter fun o => o.g = g && o.be.isSome).map (·.step)).foldl (fun t n => finishSto t g n st true) s1
  (waitingSteps s2 g).foldl (entryOut st true) s2

/-- The lower of two abort records: by time, then by origin node (R417). -/
def AbortRec.lower (a b : AbortRec) : Bool := a.time < b.time || (a.time = b.time && a.origin < b.origin)

/-- An abort record, formed here or received: a lower one is kept and sent on, and the group is ABORTED (R417). -/
def abortGroup (s : State) (g : Nat) (r : AbortRec) (skip : Option Nat) : State :=
  let v := s.group g
  let changed := match v.abort with | none => true | some a => r.lower a
  if !changed then s else
  endAll (sendAborts (s.setGroup g { v with abort := some r, state := 2 }) g r skip) g stABORTED

/-- A failure makes a privileged group abort (R417). -/
def abortIfPriv (s : State) (g step st : Nat) : State :=
  let v := s.group g
  if v.priv && v.state = 1 && spreads st then abortGroup s g ⟨s.nowNs, s.node, step, st⟩ none else s

/-- A step fails or ends at this member (R402, R413, R417). -/
def endStep (s : State) (y st : Nat) (sf : Bool) : State :=
  match s.ystep y with
  | none => s
  | some v => abortIfPriv (markEnding s y st sf) v.g v.step st

/-- A Stoat step fails at this member (R425). -/
def failSto (s : State) (g step st : Nat) (sf : Bool) : State := abortIfPriv (finishSto s g step st sf) g step st

/-- A group goes to ERROR: every step of it ends with INTERNAL from here on (R413; log entry 84). -/
def errorGroup (s : State) (g : Nat) : State := endAll (s.setGroup g { s.group g with state := 3 }) g stINTERNAL

/-- A failure of a step that has not been issued is kept; a ninth puts the group into ERROR (R413). -/
def keepFail (s : State) (g step st : Nat) : State :=
  let v := s.group g
  if v.kept.any (fun x => x.1 = step) then s
  else if 8 ≤ v.kept.length then errorGroup (report s 0x15 2 0x02 g) g
  else s.setGroup g { v with kept := v.kept ++ [(step, st)] }

/-- A step number that has ended here, with its status (R412). -/
def endedWith (s : State) (g step : Nat) : Option Nat :=
  let v := s.group g
  if (v.issued + 65535 - step) % 65536 < 32768 then v.endedSt.get none step else none

/-- A failure from elsewhere reaches a step that is not running here: one that waits in a back-end queue ends with it, one
not yet issued keeps it (R413, R425). -/
def failElsewhere (s : State) (g step st : Nat) : State :=
  match (waitingSteps s g).find? fun x => x.2.step = step with
  | some x => abortIfPriv (entryOut st false s x) g step st
  | none => if (endedWith s g step).isSome then s else keepFail s g step st

/-- Every step and STO that is outstanding here ends with `st`, FAIL or SFAIL being sent. -/
def endEverywhere (s : State) (st : Nat) : State :=
  let s1 := (s.yar.steps.map (·.1)).foldl (fun t y => endStep t y st true) s
  let s2 := (s1.yar.stoats.filter (·.be.isSome)).foldl (fun t o => failSto t o.g o.step st true) s1
  ((s2.yar.groups.filter fun e => e.2.state ≠ 0).map (·.1)).foldl (fun t g => (waitingSteps t g).foldl (fun u x =>
    abortIfPriv (entryOut st true u x) g x.2.step st) t) s2

/-- The block is fenced in the middle of steps (R415). -/
def fenceSteps (s : State) : State := endEverywhere s stFENCED

/-- An input of a step came from a group neighbour: it is the laggard so far (R418). -/
def noteInput (s : State) (y nb : Nat) : State :=
  match s.ystep y with
  | none => s
  | some v => s.putStep y { v with lag := some (nb, (s.group v.g).nbNode nb, min ((s.now - v.since) / 160000000) (2 ^ 32 - 1)) }

-- Host accesses of a step

/-- A read for a step. -/
def stepRead (s : State) (y : Nat) (src : Nat) (ext : List (Nat × Nat)) (k : Purpose) : State :=
  match s.ystep y with
  | none => s
  | some v => hmpGather (s.putStep y { v with acc := v.acc + 1 }) src ext k

/-- Host ranges meet a line that the atomic unit holds. -/
def extHeld (s : State) (ext : List (Nat × Nat)) : Bool :=
  ext.any fun x => x.2 ≠ 0 && s.tgt.atoms.any fun e => x.1 / 128 ≤ e.1 && e.1 ≤ (x.1 + x.2 - 1) / 128

/-- A write for a step; one that meets a line held by the atomic unit waits until it is written back (R312). -/
def stepWrite (s : State) (y : Nat) (ext : List (Nat × Nat)) (data : List Byte) (k : Purpose) : State :=
  match s.ystep y with
  | none => s
  | some v =>
    let s1 := s.putStep y { v with acc := v.acc + 1 }
    if extHeld s ext then { s1 with yar := { s1.yar with held := s1.yar.held ++ [⟨y, ext, data, k⟩] } }
    else hmpScatter s1 2 ext data k

/-- Writes of steps whose lines the atomic unit holds no longer are issued (R312). -/
def gatherRelease (s : State) : State :=
  let l := s.yar.held
  (l.filter fun h => !extHeld s h.ext).foldl (fun t h => hmpScatter t 2 h.ext h.data h.k)
    { s with yar := { s.yar with held := l.filter fun h => extHeld s h.ext } }

/-- Bytes of a step whose staging lies in the overflow area go there (R34, R399). -/
def stagePut (s : State) (y : Nat) (l : List Nat) (data : List Byte) (k : Purpose) : State :=
  match s.ystep y with
  | none => s
  | some v => hmpScatter (s.putStep y { v with acc := v.acc + 1 }) 5 (sovfExt s l data.length) data k

/-- A host access of a step has ended: a step that is ending ends with its last one; a bad status ends it (R92, R415).
The Bool says that the step goes on. -/
def accessDone (s : State) (y st : Nat) : State × Bool :=
  match s.ystep y with
  | none => (s, false)
  | some v =>
    let s1 := s.putStep y { v with acc := v.acc - 1 }
    match v.ending with
    | some (e, sf) => (if v.acc ≤ 1 then finishStep s1 y e sf else s1, false)
    | none => if st = stOK then (s1, true) else (endStep s1 y st true, false)

-- Segments (R399 to R402)

def YStep.seg (v : YStep) (k : Nat) : Seg := v.segs.get {} k

def setSeg (s : State) (y k : Nat) (g : Seg) : State :=
  match s.ystep y with | none => s | some v => s.putStep y { v with segs := v.segs.put k g }

/-- Bytes of segment `k` in the reduce half and its slices; bytes of its output and their slices (R399). -/
def redBytes (w : Group) (v : YStep) (k : Nat) : Nat := w.partBytes (segLen v.len k)
def redSlices (w : Group) (v : YStep) (k : Nat) : Nat := segCount (redBytes w v k)
def outLen (w : Group) (v : YStep) (k : Nat) : Nat := w.outBytes v.phase (segLen v.len k)
def outSlices (w : Group) (v : YStep) (k : Nat) : Nat := segCount (outLen w v k)

/-- Offset of segment `k` in the step's output (R400). -/
def outAt (w : Group) (v : YStep) (k : Nat) : Nat := w.outBytes v.phase (65536 * k)

/-- This member owns segment `k` (R394). -/
def owns (w : Group) (v : YStep) (k : Nat) : Bool := w.owner v.gc k = w.rank

/-- Host ranges of `n` output bytes of segment `k` from its byte `at_` on. Owned segments alone lie in the translation of
an RS, which covers the whole range (R400). -/
def dstExt (w : Group) (v : YStep) (k at_ n : Nat) : List (Nat × Nat) := cutExt v.dst (outAt w v k + at_) n

/-- READY for a slice (R401, R410). -/
def sendReady (s : State) (y : Nat) (v : YStep) (node k slice : Nat) (half : Bool) : State :=
  sendColl s y v.g node 0x20 v.phase (collOff v.step k slice 0 half false)
    (natLE 4 (s.group v.g).tag ++ natLE 4 0 ++ natLE 8 v.ga ++ natLE 8 v.gc)

/-- The children that may be granted the current slice now: all at once, or in ORDERED the next in order (R401). -/
def grantable (mode : Nat) (l : List SliceIn) : List Nat :=
  if mode = 1 then
    (match l.find? (fun c => !c.complete) with | some c => if c.granted then [] else [c.nb] | none => [])
  else (l.filter fun c => !c.granted).map (·.nb)

/-- Grants the current slice of segment `k` to its children (R401). -/
def grantKids (s : State) (y k : Nat) : State :=
  match s.ystep y with
  | none => s
  | some v =>
    let w := s.group v.g
    let q := v.seg k
    let l := grantable w.mode q.kids
    let s1 := setSeg s y k { q with kids := q.kids.map fun c => if l.contains c.nb then { c with granted := true } else c }
    l.foldl (fun t nb => sendReady t y v (w.nbNode nb) k q.slice false) s1

/-- A packet's data joins a slice of `n` bytes that is being received (R437). -/
def SliceIn.add (c : SliceIn) (n at_ : Nat) (data : List Byte) (sat : Bool) : SliceIn :=
  let d := if c.data.isEmpty then List.replicate n 0 else c.data
  let declared := c.declared + data.length
  { c with
    declared := declared
    data := patch d at_ data
    marks := (c.marks ++ (List.range ((at_ + data.length - 1) / 256 + 1 - at_ / 256)).map (at_ / 256 + ·)).dedup
    sat := if sat then c.sat ++ [(at_, data.length)] else c.sat
    complete := n ≤ declared }

/-- Some granule of a complete slice of `n` bytes is unwritten (R437). -/
def SliceIn.unwritten (c : SliceIn) (n : Nat) : Bool := !(List.range ((n + 255) / 256)).all fun i => c.marks.contains i

/-- Byte range `[a, a + n)` meets a range of the list. -/
def meets (l : List (Nat × Nat)) (a n : Nat) : Bool := l.any fun x => x.1 < a + n && a < x.1 + x.2

/-- Cuts a list of bytes into packets of at most `m` bytes: each with its offset. -/
def packetsOf : Nat → Nat → Nat → List Byte → List (Nat × List Byte)
  | 0, _, _, _ => []
  | f + 1, m, at_, b => if b.isEmpty then [] else (at_, b.take m) :: packetsOf f m (at_ + m) (b.drop m)

/-- Sends a slice to a neighbour as PART or BCAST packets, SAT set on those that meet `sat`; answers how many (R399,
R410, R414). -/
def sendSlice (s : State) (y : Nat) (v : YStep) (nb k slice : Nat) (half : Bool) (data : List Byte)
    (sat : List (Nat × Nat)) : State × Nat :=
  let w := s.group v.g
  let m := maxPayload s (vcOf w.tc false)
  let l := packetsOf data.length m 0 data
  (l.foldl (fun t x => sendColl t y v.g (w.nbNode nb) (if half then 0x22 else 0x21) v.phase
    (collOff v.step k slice x.1 half (meets sat x.1 x.2.length)) x.2) s, l.length)

/-- Every segment is done: the step ends, with OVERFLOW where an element written derives from a saturated one (R402,
R414). -/
def stepCheck (s : State) (y : Nat) : State :=
  match s.ystep y with
  | none => s
  | some v =>
    if v.phase ≤ 4 ∧ v.segs.all (fun e => e.2.done) then endStep s y (if v.ovf then stOVERFLOW else stOK) true else s

/-- The gather half of segment `k` goes on (R400 to R402): the current slice goes to every child that has granted it; when
each has acknowledged and its write is answered, the next slice follows, and a member grants it to its parent. -/
def gatherRun : Nat → State → Nat → Nat → State
  | 0, s, _, _ => s
  | fuel + 1, s, y, k =>
    match s.ystep y with
    | none => s
    | some v =>
      let w := s.group v.g
      let q := v.seg k
      if v.ending.isSome ∨ q.done ∨ !q.gathering then s else
      let o := w.owner v.gc k
      let kids := w.children o
      let n := min 65536 (outLen w v k - 65536 * q.gslice)
      let ready : Option (List Byte × List (Nat × Nat)) :=
        if owns w v k then some ((q.gdata.drop (65536 * q.gslice)).take n, (q.gsat.map fun x => (x.1 - 65536 * q.gslice, x.2)))
        else match q.gin with | some c => if q.gWritten then some (c.data, c.sat) else none | none => none
      match ready with
      | none => s
      | some (d, sat) =>
        let go := kids.filter fun c => q.gslice < q.gGrant.get 0 c && !q.gSent.contains c
        let r := go.foldl (fun (a : State × Nat) c =>
          let x := sendSlice a.1 y v c k q.gslice true d sat
          (x.1, a.2 + x.2)) (s, 0)
        let q1 := { q with gSent := q.gSent ++ go, gLeft := q.gLeft + r.2 }
        let s1 := setSeg r.1 y k q1
        if q1.gLeft ≠ 0 ∨ kids.any (fun c => !q1.gSent.contains c) then s1
        else if outSlices w v k ≤ q.gslice + 1 then stepCheck (setSeg s1 y k { q1 with done := true }) y
        else
          let q2 := { q1 with gslice := q.gslice + 1, gSent := [], gWritten := false
                              gin := (w.parent o).map fun nb => { nb := nb, granted := true } }
          let s2 := setSeg s1 y k q2
          match w.parent o with
          | none => gatherRun fuel s2 y k
          | some nb => sendReady s2 y v (w.nbNode nb) k (q.gslice + 1) true

/-- The gather half of segment `k` begins here: an owner holds its data; another member grants its parent (R401). -/
def gatherStart (s : State) (y k : Nat) : State :=
  match s.ystep y with
  | none => s
  | some v =>
    let w := s.group v.g
    let q := v.seg k
    match w.parent (w.owner v.gc k) with
    | none => gatherRun 1024 (setSeg s y k { q with gathering := true }) y k
    | some nb =>
      sendReady (setSeg s y k { q with gathering := true, gin := some { nb := nb, granted := true } }) y v (w.nbNode nb) k 0
        true

/-- The inputs of the current slice in the order in which they are combined: own contribution first (R396, R444). -/
def sliceInputs (mode : Nat) (q : Seg) (at_ n : Nat) : List (List Byte) :=
  let own := ((q.own.getD []).drop at_).take n
  let kids := if mode = 2 then q.arrived.filterMap (fun nb => q.kids.find? fun c => c.nb = nb) else q.kids
  own :: kids.map fun c => c.data

/-- An owner's results of one slice (R441, R444): the segment with them, and the counts OUT_OVF and NAN. -/
def ownerSlice (w : Group) (rug : Bool) (q : Seg) (ins : List (List Byte)) (n : Nat) : Seg × Nat × Nat :=
  let e := n / partSize w.mode
  let sz := partSize w.mode
  let sat (i : Nat) : Bool := q.kids.any fun c => meets c.sat (sz * i) sz
  if rug ∨ isMx w.outFmt then
    let l := (List.range e).map fun i =>
      let r := wideOf w.outFmt w.mode rug (finalAt w.mode w.floor w.scaleExp ins i)
      (r.1, r.2 || sat i)
    ({ q with vals := q.vals ++ l }, 0, 0)
  else
    let u := unitOf w.outFmt
    let l := (List.range e).map fun i => (resultOf w.outFmt (finalAt w.mode w.floor w.scaleExp ins i), i)
    let at_ := q.gdata.length
    ({ q with
        gdata := q.gdata ++ l.flatMap fun r => natLE u r.1.1
        gsat := q.gsat ++ (l.filter fun r => r.1.2.2.2 || sat r.2).map fun r => (at_ + u * r.2, u) },
      (l.map fun r => r.1.2.1).sum, (l.map fun r => r.1.2.2.1).sum)

/-- The MX output of a segment from its values (R447): the segment with its bytes, and the counts OUT_OVF and NAN. -/
def mxSegment (w : Group) (q : Seg) (n : Nat) : Seg × Nat × Nat :=
  let vs := q.vals.map (·.1)
  let (b, o) := mxChunks w.outFmt n vs
  let e := perUnit w.outFmt
  let sat := (List.range n).filter fun c => ((q.vals.drop (e * c)).take e).any (·.2)
  ({ q with gdata := b, gsat := sat.map fun c => (1024 * c, 1024) }, o, mxNans w.outFmt n vs)

/-- The reduce half of segment `k` goes on (R399 to R401): a slice whose inputs are all here is combined and passed on. With
its staging in the overflow area, the slice lies there meanwhile (R34, log entry 50). -/
def reduceRun : Nat → State → Nat → Nat → State
  | 0, s, _, _ => s
  | fuel + 1, s, y, k =>
    match s.ystep y with
    | none => s
    | some v =>
      let w := s.group v.g
      let q := v.seg k
      if v.ending.isSome ∨ v.phase = 2 ∨ q.reduced then s
      else if q.passing then
        if q.left ≠ 0 then s
        else
          let last := redSlices w v k ≤ q.slice + 1
          let q1 := { q with passing := false, slice := q.slice + 1, reduced := last, arrived := [], staged := 0
                             kids := q.kids.map fun c => { nb := c.nb } }
          let s1 := setSeg s y k q1
          if !last then reduceRun fuel (grantKids s1 y k) y k
          else if v.phase = 1 then stepCheck (setSeg s1 y k { q1 with done := true }) y
          else gatherStart s1 y k
      else if q.own.isNone ∨ q.kids.any (fun c => !c.complete) then s
      else
        let at_ := 65536 * q.slice
        let n := min 65536 (redBytes w v k - at_)
        if !v.spill.isEmpty ∧ q.staged ≠ 2 then
          if q.staged = 1 then s else
          stagePut (setSeg s y k { q with staged := 1 }) y [v.spill.getD k 0] (((q.own.getD []).drop at_).take n) (.yarSpill y k false)
        else if q.kids.any (fun c => c.unwritten n) then
          endStep (s.bump YAR_ACNT0.UNWRITTEN (q.kids.countP fun c => c.unwritten n)) y stUNWRITTEN true
        else
          let ins := sliceInputs w.mode q at_ n
          let last := redSlices w v k ≤ q.slice + 1
          if owns w v k then
            let (q1, o1, n1) := ownerSlice w (v.phase = 4) q ins n
            let (q2, o2, n2) := if last && v.phase ≠ 4 && isMx w.outFmt then mxSegment w q1 (outLen w v k / 1024) else (q1, 0, 0)
            let s1 := (s.bump YAR_ACNT0.OUT_OVF (o1 + o2)).bump YAR_ACNT0.NAN (n1 + n2)
            let new := q2.gdata.drop q.gdata.length
            let s2 := match s1.ystep y with
              | some v1 => s1.putStep y { v1 with ovf := v1.ovf || (v.phase ≠ 4 && !q2.gsat.isEmpty) }
              | none => s1
            if v.phase = 4 ∧ last then
              let s3 := setSeg s2 y k { q2 with passing := true, left := 1 }
              { s3 with yar := { s3.yar with upds := s3.yar.upds ++ [{ y := y, seg := k }] } }
            else if new.isEmpty then reduceRun fuel (setSeg s2 y k { q2 with passing := true, left := 0 }) y k
            else stepWrite (setSeg s2 y k { q2 with passing := true, left := 1 }) y (dstExt w v k q.gdata.length new.length) new
              (.yarWrite y k)
          else if q.upGrant ≤ q.slice then s
          else
            let sz := partSize w.mode
            let r := (List.range (n / sz)).map fun i => (combineAt w.mode ins i, i)
            let sat := (r.filter fun x => x.1.2 || q.kids.any fun c => meets c.sat (sz * x.2) sz).map fun x => (sz * x.2, sz)
            match w.parent (w.owner v.gc k) with
            | none => s
            | some nb =>
              let (s1, m) := sendSlice s y v nb k q.slice false (r.flatMap fun x => x.1.1) (if w.mode = 0 then sat else [])
              match s1.ystep y with
              | none => s1
              | some v1 => setSeg s1 y k { v1.seg k with passing := true, left := m }

/-- The contribution of segment `k`, in the input form: its partials with their counts (R439, R442); in AG the owner
holds output elements, which it writes where source and destination do not coincide (R400). -/
def takeOwn (s : State) (y k : Nat) (b : List Byte) : State :=
  match s.ystep y with
  | none => s
  | some v =>
    let w := s.group v.g
    if v.phase = 2 then
      let s1 := setSeg s y k { v.seg k with gdata := b, own := some b }
      if v.swin = v.dwin ∧ v.gb = v.gc then gatherStart s1 y k
      else gatherStart (stepWrite (setSeg s1 y k { v.seg k with gdata := b, own := some b, gLeft := 1 }) y
        (dstExt w v k 0 b.length) b (.yarGather y k)) y k
    else
      let (p, drop, sat, ovf) := partsOf w.mode w.floor (decodeBytes w.inFmt b)
      let s1 := ((s.wrapAdd YAR_FLOOR_DROP.COUNT drop).bump YAR_ACNT0.SAT sat).bump YAR_ACNT1.FP32_OVF ovf
      reduceRun 64 (setSeg s1 y k { v.seg k with own := some p }) y k

/-- The contribution of a step is at hand, segment by segment (R482). -/
def takeContribution (s : State) (y : Nat) (b : List Byte) : State :=
  match s.ystep y with
  | none => s
  | some v => (List.range (segCount v.len)).foldl (fun t k => takeOwn t y k ((b.drop (65536 * k)).take 65536)) s

/-- The contribution of a step comes from the group's Foxglove stage: it waits in its staging for the lanes (R34, R482). -/
def takeStage (s : State) (y : Nat) (b : List Byte) : State :=
  match s.ystep y with
  | none => s
  | some v =>
    if v.spill.isEmpty then takeContribution s y b else stagePut s y (v.spill.drop (segCount v.len)) b (.yarHold y)

/-- A gathered slice has been staged: it is written, and goes on to the children (R400, R402). -/
def gatherWrite (s : State) (y k : Nat) (data : List Byte) : State :=
  match s.ystep y with
  | none => s
  | some v =>
    let w := s.group v.g
    let q := v.seg k
    let s1 := setSeg s y k { q with
      gin := q.gin.map fun c => { c with data := data }, gWritten := true, gLeft := q.gLeft + 1 }
    gatherRun 1024 (stepWrite s1 y (dstExt w v k (65536 * q.gslice) data.length) data (.yarGather y k)) y k

/-- An access of the overflow area for a slice has ended: a slice written is read back, and one read back goes on (R34,
R399). -/
def yarSpillDone (s : State) (y k : Nat) (half : Bool) (x : Xfer) : State :=
  let (s1, go) := accessDone s y x.status
  match go, s1.ystep y with
  | true, some v =>
    let q := v.seg k
    if x.write then stepRead s1 y 5 (sovfExt s [v.spill.getD k 0] x.len) (.yarSpill y k half)
    else if half then gatherWrite s1 y k x.data
    else reduceRun 64 (setSeg s1 y k { q with own := some (patch (q.own.getD []) (65536 * q.slice) x.data), staged := 2 }) y k
  | _, _ => s1

/-- The read of a contribution has returned (R92, R400). -/
def yarOwnDone (s : State) (y k : Nat) (x : Xfer) : State :=
  let (s1, go) := accessDone s y x.status
  if go then takeOwn s1 y k x.data else s1

/-- An owner's write of a slice is answered (R402). -/
def yarWriteDone (s : State) (y k : Nat) (x : Xfer) : State :=
  let (s1, go) := accessDone s y x.status
  match go, s1.ystep y with
  | true, some v => reduceRun 64 (setSeg s1 y k { v.seg k with left := (v.seg k).left - 1 }) y k
  | _, _ => s1

/-- The write of a gathered slice is answered (R402). -/
def yarGatherDone (s : State) (y k : Nat) (x : Xfer) : State :=
  let (s1, go) := accessDone s y x.status
  match go, s1.ystep y with
  | true, some v => gatherRun 1024 (setSeg s1 y k { v.seg k with gLeft := (v.seg k).gLeft - 1 }) y k
  | _, _ => s1

/-- A grant for a step arrives, or is taken from the early store (R401, R418): in the reduce half the parent's, in the
gather half a child's. -/
def takeGrant (s : State) (y src k slice : Nat) (half : Bool) : State :=
  match s.ystep y with
  | none => s
  | some v =>
    let w := s.group v.g
    let o := w.owner v.gc k
    let q := v.seg k
    if !half then
      match w.parent o with
      | none => s
      | some nb =>
        let s1 := if w.nbNode nb = src then noteInput s y nb else s
        match s1.ystep y with
        | some v1 => if w.nbNode nb ≠ src then s else
          reduceRun 64 (setSeg s1 y k { v1.seg k with upGrant := max q.upGrant (slice + 1) }) y k
        | none => s
    else
      match (w.children o).find? (fun c => w.nbNode c = src) with
      | none => s
      | some nb =>
        let s1 := noteInput s y nb
        match s1.ystep y with
        | some v1 => gatherRun 1024 (setSeg s1 y k
            { v1.seg k with gGrant := q.gGrant.put nb (max (q.gGrant.get 0 nb) (slice + 1)) }) y k
        | none => s

end Sys2Proof.Machine
end

