-- ==== Sys2Proof/Machine/Update.lean ====
section
/-! DEFINITION. The update stage of a RUG step (R448 to R454): update records, the state of an element, the formulas, and
an owned segment from its gradients to its new weights. -/
namespace Sys2Proof.Machine

-- A record as copied at issue: words 0 to 12 (R448)
def updWord (r : List Nat) (i : Nat) : Nat := r.getD i 0
def updKind (r : List Nat) : Nat := updWord r 0 % 4
def updMaster (r : List Nat) : Bool := bitOf (updWord r 0) 2
def updBf16 (r : List Nat) : Bool := bitOf (updWord r 0) 3
def updSkip (r : List Nat) : Bool := bitOf (updWord r 0) 4
def updWin (r : List Nat) : Nat := updWord r 0 / 65536 % 65536
def updOff (r : List Nat) : Nat := updWord r 1 + 2 ^ 32 * (updWord r 2 % 65536)

/-- The live record `u`, words 0 to 14 (R448). -/
def updRecord (s : State) (u : Nat) : List Nat :=
  (List.range 15).map fun i => (s.reg ((UPD_L00.KIND u).addr + 4 * i)).toNat

/-- UPDATE_COMMIT (R448): words 0 to 14 of the shadow become the live record as one update. -/
def updCommit (s : State) (u : Nat) : State :=
  (List.range 15).foldl (fun t i =>
    t.setReg ((UPD_L00.KIND u).addr + 4 * i) (s.reg ((UPD_S00.KIND u).addr + 4 * i))) s

/-- Bytes of m or of v. -/
def updMom (r : List Nat) : Nat := if updBf16 r then 2 else 4

/-- ES: the bytes of one element's state (R451). -/
def updEs (r : List Nat) : Nat :=
  (if updMaster r then 4 else 0) + (match updKind r with | 1 => updMom r | 2 => 2 * updMom r | _ => 0)

/-- A momentum as binary32, and back in the state's format, to nearest even (R451, R452). -/
def updGet (r : List Nat) (b : Nat) : Nat := if updBf16 r then f32Of ((elemOf 1).decode b) else b
def updPut (r : List Nat) (v : Nat) : Nat :=
  if !updBf16 r then v else
  match f32 v with
  | .nan => (elemOf 1).nanBits
  | .inf n => (elemOf 1).infBits n
  | .fin n d => ((elemOf 1).rne false n d).1

/-- New weight, m and v of one element, from its gradient and its old values, as binary32; none where SKIP_NF leaves the
element unchanged (R452). -/
def updOne (r : List Nat) (grad w m v : Nat) : Option (Nat × Nat × Nat) :=
  let lr := updWord r 3
  let b1 := updWord r 4
  let omb1 := updWord r 5
  let b2 := updWord r 6
  let omb2 := updWord r 7
  let eps := updWord r 8
  let wd := updWord r 9
  let bc1 := updWord r 10
  let bc2 := updWord r 11
  let g := f32Mul grad (updWord r 12)
  if updSkip r && f32NonFinite g then none else
  match updKind r with
  | 1 =>
    let m' := f32Add (f32Mul b1 m) g
    let u := f32Add m' (f32Mul wd w)
    some (f32Sub w (f32Mul lr u), m', v)
  | 2 =>
    let m' := f32Add (f32Mul b1 m) (f32Mul omb1 g)
    let v' := f32Add (f32Mul b2 v) (f32Mul omb2 (f32Mul g g))
    let den := f32Add (f32Sqrt (f32Mul v' bc2)) eps
    let u := f32Add (f32Div (f32Mul m' bc1) den) (f32Mul wd w)
    some (f32Sub w (f32Mul lr u), m', v')
  | _ => some (f32Sub w (f32Mul lr g), m, v)

/-- One element through the update stage: the output weight with its counts OUT_OVF and NAN, the state bytes, and whether
it was skipped (R451, R452). -/
def updElem (r : List Nat) (fmt : Nat) (grad : Fv) (st w : List Byte) : List Byte × Nat × Nat × List Byte × Bool :=
  let at_ := if updMaster r then 4 else 0
  let sz := updMom r
  let old := if updMaster r then leAt st 0 4 else f32Of ((elemOf fmt).decode (leNat w))
  let m := if updKind r = 0 then 0 else updGet r (leAt st at_ sz)
  let v := if updKind r = 2 then updGet r (leAt st (at_ + sz) sz) else 0
  let res := updOne r (f32Of grad) old m v
  let (w', m', v') := res.getD (old, m, v)
  let (b, o, n) := (elemOf fmt).final (f32 w').posZero
  let st' := if res.isNone then st else
    (if updMaster r then natLE 4 w' else []) ++
      (match updKind r with
       | 1 => natLE sz (updPut r m')
       | 2 => natLE sz (updPut r m') ++ natLE sz (updPut r v')
       | _ => [])
  (natLE (unitOf fmt) b, b2n o, b2n n, st', res.isNone)

/-- The first job's state and old weights: offsets and lengths in STATE_WIN and dwin (R451). -/
def updRanges (w : Group) (v : YStep) (k : Nat) : (Nat × Nat) × (Nat × Nat) :=
  let u := unitOf w.outFmt
  let first := (v.gc + outAt w v k) / u
  let n := outLen w v k / u
  ((updOff v.upd + first * updEs v.upd, n * updEs v.upd), (v.gc + outAt w v k, n * u))

def putJob (s : State) (u : UpdJob) : State :=
  { s with yar := { s.yar with upds := s.yar.upds.map fun x => if x.y = u.y ∧ x.seg = u.seg then u else x } }
def dropJob (s : State) (y k : Nat) : State :=
  { s with yar := { s.yar with upds := s.yar.upds.filter fun x => !(x.y = y && x.seg = k) } }

/-- UPDATE_SEGMENT (R453): the update stage takes the segment whose reduction finished first, and reads its state, and its
old weights where MASTER is 0; a state range beyond STATE_WIN's bound, or over two of its chunks, ends the step with BOUND
(R305, R451). -/
def updateSegment (s : State) : State :=
  match s.yar.upds with
  | [] => s
  | u :: _ =>
    match s.ystep u.y with
    | none => dropJob s u.y u.seg
    | some v =>
      if u.running ∨ v.ending.isSome then s else
      let w := s.group v.g
      let ((so, sn), (_, wn)) := updRanges w v u.seg
      let win := updWin v.upd
      if 0 < sn ∧ ((s.win win).bound < so + sn ∨ (s.win win).crosses so sn) then endStep (dropJob s u.y u.seg) u.y stBOUND true else
      let miss := if sn = 0 then [] else linesMissing s win so sn
      if !miss.isEmpty then
        miss.foldl (fun t l => fillLine t win l) (putJob s { u with lines := miss.map fun l => (win, l) })
      else
        let old := !updMaster v.upd
        let s1 := putJob s { u with running := true, lines := [], left := b2n (0 < sn) + b2n old }
        let s2 := if sn = 0 then s1 else stepRead s1 u.y 2 (extents s win so sn) (.updState u.y u.seg)
        if old then stepRead s2 u.y 2 (dstExt w v u.seg 0 wn) (.updWeights u.y u.seg) else s2

/-- The job's reads have returned: new weights and state are computed and written, and the gather half begins (R400,
R452, R453). -/
def updCompute (s : State) (u : UpdJob) : State :=
  match s.ystep u.y with
  | none => s
  | some v =>
    let w := s.group v.g
    let q := v.seg u.seg
    let es := updEs v.upd
    let sz := unitOf w.outFmt
    let l := (List.range q.vals.length).map fun i =>
      updElem v.upd w.outFmt ((q.vals.getD i (.nan, false)).1) (((u.st.getD []).drop (es * i)).take es)
        (((u.w.getD []).drop (sz * i)).take sz)
    let data := l.flatMap (·.1)
    let st := l.flatMap (·.2.2.2.1)
    let sat := ((List.range q.vals.length).filter fun i => (q.vals.getD i (.nan, false)).2).map fun i => (sz * i, sz)
    let ((so, sn), _) := updRanges w v u.seg
    let s1 := ((s.bump YAR_ACNT0.OUT_OVF (l.map (·.2.1)).sum).bump YAR_ACNT0.NAN (l.map (·.2.2.1)).sum).bump YAR_ACNT1.SKIP
      (l.countP (·.2.2.2.2))
    let s2 := dropJob (s1.putStep u.y { v with
      ovf := v.ovf || !sat.isEmpty
      segs := v.segs.put u.seg { q with gdata := data, gsat := sat, left := 0, gLeft := if sn = 0 then 1 else 2 } }) u.y u.seg
    let s3 := if sn = 0 then s2 else stepWrite s2 u.y (extents s (updWin v.upd) so sn) st (.updWrite u.y u.seg)
    reduceRun 64 (stepWrite s3 u.y (dstExt w v u.seg 0 data.length) data (.updWrite u.y u.seg)) u.y u.seg

/-- A read of the update stage has returned (R453): a bad one abandons the segment and ends the step. -/
def updReadDone (s : State) (y k : Nat) (weights : Bool) (x : Xfer) : State :=
  let (s1, go) := accessDone s y x.status
  match go, s1.yar.upds.find? (fun u => u.y = y && u.seg = k) with
  | true, some u =>
    let u1 := if weights then { u with w := some x.data, left := u.left - 1 } else { u with st := some x.data, left := u.left - 1 }
    if u1.left = 0 then updCompute (putJob s1 u1) u1 else putJob s1 u1
  | _, _ => s1

end Sys2Proof.Machine
end

