-- ==== Sys2Proof/Machine/Fox.lean ====
section
/-! DEFINITION. The Foxglove array at work (R464 to R467, R472, R480 to R487): stage commits, the queue, loads, commits of
weight planes, passes and group stages, and the island. -/
namespace Sys2Proof.Machine

/-- Words 0 to 9 of the live record of stage `i` (R472, R473). -/
def stageCfg (s : State) (i : Nat) : List Nat :=
  (List.range 10).map fun n => (s.reg ((STG_L00.OUT_FMT i).addr + 4 * n)).toNat

/-- STAGE_COMMIT (R472, R474, R475): words 0 to 6 of the shadow become the live record as one update, which is checked. -/
def stageCommit (s : State) (i : Nat) : State :=
  let s1 := (List.range 7).foldl (fun t n =>
    t.setReg ((STG_L00.OUT_FMT i).addr + 4 * n) (s.reg ((STG_S00.OUT_FMT i).addr + 4 * n))) s
  let c := stageCfg s1 i
  let ok := stgOk c
  let put (t : State) (n v : Nat) : State := t.setReg ((STG_L00.OUT_FMT i).addr + 4 * n) (BitVec.ofNat 32 v)
  put (put (put s1 7 (if ok then stgSrcBytes c else 0)) 8 (if ok then stgOutBytes c else 0)) 9 (b2n ok)

/-- FOX_ISLAND_UP (R487): the weight store is zero-filled, and every poison mark cleared. -/
def foxIslandUp (s : State) : State :=
  if s.fox.island ≠ 1 then s else { s with fox := { s.fox with island := 2, weights := [], poison := [] } }

/-- Something keeps the island powered (R487). -/
def foxNeeded (s : State) : Bool :=
  s.yar.groups.any (fun e => e.2.state ≠ 0 && e.2.foxStage ≠ 0xFFFF) ||
    (List.range 4).any (fun t => s.on (FOX_TILE_OWN.VALID t)) || !s.fox.queue.isEmpty || !s.fox.running.isEmpty ||
    !s.fox.markers.isEmpty

/-- Turns the island off: the weight store is lost (R19, R487). -/
def foxOff (s : State) : State := { s with fox := { s.fox with island := 0, weights := [], poison := [] } }

/-- FOX_IDLE_OFF (R487, R488). -/
def foxIdleOff (s : State) : State :=
  let n := s.rd FOX_CFG.IDLE_OFF
  if s.fox.island = 2 ∧ !foxNeeded s ∧ n ≠ 0 ∧ s.fox.idleSince + ns (100000 * n) ≤ s.now then foxOff s else s

/-- The queue has room (R483). -/
def foxRoom (s : State) : Bool := s.fox.queue.length < 32

/-- An entry joins the queue (R483). -/
def foxEnqueue (s : State) (e : FoxEntry) : State :=
  foxPower { s with fox := { s.fox with queue := s.fox.queue ++ [{ e with id := s.fox.next }], next := s.fox.next + 1 } }

def foxFind (s : State) (id : Nat) : Option FoxEntry := s.fox.running.find? fun e => e.id = id
def foxPut (s : State) (e : FoxEntry) : State :=
  { s with fox := { s.fox with running := s.fox.running.map fun x => if x.id = e.id then e else x } }
def foxDrop (s : State) (id : Nat) : State :=
  { s with fox := { s.fox with running := s.fox.running.filter fun x => x.id ≠ id } }

/-- The end of an entry (R344, R480, R482): its staging is released; an instruction records its failure for FENCE and
makes its CNT add, a group stage hands its output to the step or ends it. -/
def foxEnd (s : State) (e : FoxEntry) (st : Nat) : State :=
  let s1 := dropStaging s e.stag
  let s2 := if e.kind = .pass ∨ e.kind = .group then s1.wrapAdd FOX_PASSES.COUNT 1 else s1
  if e.kind = .group then (if st = stOK then takeStage s2 e.y e.out else endStep s2 e.y st true)
  else stepEntryDone (if st = stOK then s2 else failEntry s2 e.ctx e.be st) e.ctx e.be

/-- A tile of the mask is not owned by the context (R481). -/
def tileRefused (s : State) (tiles k : Nat) : Bool :=
  (tilesOf tiles).any fun t => !s.on (FOX_TILE_OWN.VALID t) || s.rd (FOX_TILE_OWN.CTX t) ≠ k

/-- Output length of a pass (R480). -/
def foxOutLen (c : List Nat) (n : Nat) : Nat := n / stgSrcBlk c * stgOutBlk c

/-- The first three checks of a pass (R481, R482). -/
def passStatus (s : State) (c : List Nat) (k n : Nat) : Nat :=
  if !stgValid c then stINTERNAL
  else if stgKind c = 0 ∧ tileRefused s (stgTiles c) k then stRIGHTS
  else if n = 0 ∨ n % stgSrcBlk c ≠ 0 ∨ 33554432 < foxOutLen c n then stINTERNAL
  else stOK

/-- The residual range of `n` source bytes at offset `off`: offset and length in RES_WIN (R478). -/
def residRange (c : List Nat) (off n : Nat) : Nat × Nat :=
  let per (x : Nat) : Nat := if isMx (stgSrc c) then x / 1024 * perUnit (stgSrc c) else x / unitOf (stgSrc c)
  (stgResOff c + per off * stgEs c, per n * stgEs c)

/-- The window checks of a pass (R481): the first failure. -/
def passWindows (s : State) (e : FoxEntry) : Nat :=
  let key := s.ctxPkey e.ctx
  let a := localCheck (s.win e.win) key .rd e.off e.len
  let b := if e.kind = .pass then localCheck (s.win e.dwin) key .wr e.doff (foxOutLen e.cfg e.len) else stOK
  let (ro, rn) := residRange e.cfg e.off e.len
  let rw := stgResWin e.cfg
  let c := if stgErrfb e.cfg then localCheck (s.win rw) key .rd ro rn else stOK
  let d := if stgErrfb e.cfg then localCheck (s.win rw) key .wr ro rn else stOK
  if a ≠ stOK then a else if b ≠ stOK then b else if c ≠ stOK then c else d

/-- The chunk list lines that an entry needs and that are not cached. -/
def foxMissing (s : State) (e : FoxEntry) : List (Nat × Nat) :=
  let m (w off n : Nat) : List (Nat × Nat) := (linesMissing s w off n).map fun l => (w, l)
  let (ro, rn) := residRange e.cfg e.off e.len
  m e.win e.off e.len ++ (if e.kind = .pass then m e.dwin e.doff (foxOutLen e.cfg e.len) else []) ++
    (if e.kind ≠ .load ∧ stgErrfb e.cfg then m (stgResWin e.cfg) ro rn else [])

/-- Tiles that running entries use in a way that `p` names. -/
def tilesBusy (s : State) (p : FoxEntry → Bool) : Nat :=
  (s.fox.running.filter p).foldl (fun a e => a ||| e.tiles) 0

/-- Tiles being written by FXLW, tiles feeding a pass, tiles with a marker (R489). -/
def foxLoading (s : State) : Nat := tilesBusy s fun e => e.kind = .load
def foxFeeding (s : State) : Nat := tilesBusy s fun e => e.kind = .pass || e.kind = .group
def foxMarked (s : State) : Nat := s.fox.markers.foldl (fun a e => a ||| e.tiles) 0

/-- The head entry's resources are free (R466, R483). -/
def foxFree (s : State) (e : FoxEntry) : Bool :=
  match e.kind with
  | .load => e.tiles &&& (foxMarked s ||| foxLoading s) = 0
  | .commit => e.tiles &&& foxLoading s = 0
  | _ => stgKind e.cfg ≠ 0 || e.tiles &&& foxFeeding s = 0

/-- The planes of the tiles of a mask exchange, with their poison marks (R465). -/
def foxSwap (s : State) (tiles : Nat) : State :=
  let flip (t n : Nat) (k : Nat) : Nat :=
    if bitOf tiles (t % 4) then (if t < 4 then k + 4 * n else k - 4 * n) else k
  { s with fox := { s.fox with
    weights := s.fox.weights.foldl (fun a x => Tbl.put a (flip (x.1 / 65536) 65536 x.1) x.2) []
    poison := s.fox.poison.map fun x => flip (x / 16) 16 x } }

/-- An FXLW that leaves the queue: its checks, and the read of its images (R464). -/
def foxLoadStart (s : State) (e : FoxEntry) : State :=
  let per := 8192 * (tilesOf e.tiles).length
  let st := if e.len = 0 ∨ e.len % per ≠ 0 ∨ 16 < e.slot + e.len / per then stINTERNAL
    else localCheck (s.win e.win) (s.ctxPkey e.ctx) .rd e.off e.len
  if st ≠ stOK then foxEnd s e st else
  let e1 := { e with ext := extents s e.win e.off e.len, left := 1 }
  hmpGather { s with fox := { s.fox with running := s.fox.running ++ [e1] } } 3 e1.ext (.foxLoad e.id)

/-- Weight slots that a projection uses (R470, R471, R475). -/
def foxSlots (c : List Nat) : List Nat := (List.range (stgSlots c * stgChunks c)).map fun i => stgSlot c + i

/-- A pass or a group stage that leaves the queue: its checks, its staging, its copy of the weights, and its reads (R466,
R481, R482). -/
def foxPassStart (s : State) (e : FoxEntry) : State :=
  let c := e.cfg
  let st1 := if e.kind = .group then stOK else passStatus s c e.ctx e.len
  let s0 := if st1 = stRIGHTS then s.bump FOX_ERR.RIGHTS 1 else s
  let st := if st1 ≠ stOK then st1 else passWindows s e
  if st ≠ stOK then foxEnd s0 e st else
  let need := if e.kind = .pass ∧ stgTrans c ∧ stgKind c = 0 then 2 else 0
  match takeStaging s0 need with
  | none => foxEnd s0 e stQUOTA
  | some (s1, stag, spill) =>
    let (ro, rn) := residRange c e.off e.len
    let e1 := { e with
      ext := extents s e.win e.off e.len
      dext := if e.kind = .pass then extents s e.dwin e.doff (foxOutLen c e.len) else []
      rext := if stgErrfb c then extents s (stgResWin c) ro rn else []
      snap := if stgKind c = 0 then s.fox.weights.filter fun x => x.1 < 4 * 65536 && bitOf e.tiles (x.1 / 65536) else []
      bad := if stgKind c = 0 then s.fox.poison.filter fun x => x < 64 && bitOf e.tiles (x / 16) && (foxSlots c).contains (x % 16) else []
      stag := stag, spill := spill, left := 1 + b2n (stgErrfb c) }
    let s2 := hmpGather { s1 with fox := { s1.fox with running := s1.fox.running ++ [e1] } } 3 e1.ext (.foxSource e.id)
    if stgErrfb c then hmpGather s2 3 e1.rext (.foxResid e.id) else s2

/-- FOX_DISPATCH (R483): the head entry, its resources free and its translations at hand, leaves the queue to run. -/
def foxDispatch (s : State) : State :=
  match s.fox.queue with
  | [] => s
  | e :: rest =>
    if s.fox.island ≠ 2 ∨ !s.unitsRun ∨ !foxFree s e then s else
    let miss := if e.kind = .commit then [] else foxMissing s e
    if !miss.isEmpty ∧ (e.kind = .load ∨ passWindows s e = stOK) then
      miss.foldl (fun t l => fillLine t l.1 l.2)
        { s with fox := { s.fox with queue := { e with lines := miss } :: rest } }
    else
      let s1 := { s with fox := { s.fox with queue := rest } }
      match e.kind with
      | .load => foxLoadStart s1 e
      | .commit => foxSwap { s1 with fox := { s1.fox with markers := s1.fox.markers ++ [e] } } e.tiles
      | _ => foxPassStart s1 e

/-- COMMIT_MARKER_PASSED (R465): the oldest marker has passed the last cell row, and its FXCM ends. -/
def markerPassed (s : State) : State :=
  match s.fox.markers with
  | [] => s
  | e :: rest => foxEnd { s with fox := { s.fox with markers := rest } } e stOK

/-- The status of a read of Foxglove: TIMEOUT or POISON (R92, R94). -/
def piecesStatus (l : List Piece) : Nat :=
  if l.any (·.stat = 4) then stTIMEOUT else if l.any (·.stat ≠ 0) then stPOISON else stOK

/-- Writes the images of an FXLW into the shadow planes: image `i` of them (R464, R485). -/
def foxWriteImage (e : FoxEntry) (data : List Byte) (s : State) (i : Nat) : State :=
  let ts := tilesOf e.tiles
  let tile := ts.getD (i % ts.length) 0
  let slot := e.slot + i / ts.length
  { s with fox := { s.fox with
    weights := (List.range 4096).foldl (fun a n =>
      Tbl.set 0 a (65536 * (4 + tile) + 4096 * slot + n) (leAt data (8192 * i + 2 * n) 2)) s.fox.weights
    poison := s.fox.poison.filter (· ≠ 16 * (4 + tile) + slot) } }

/-- The images of an FXLW have returned (R464): those before the first failed beat are written. -/
def foxLoadDone (s : State) (id : Nat) (x : Xfer) : State :=
  match foxFind s id with
  | none => s
  | some e =>
    let n := e.len / 8192
    let ok := (List.range n).takeWhile fun i => x.okAt (8192 * i) 8192
    foxEnd ((ok.foldl (foxWriteImage e x.data)) (foxDrop s id)) e x.status

/-- The blocks of a pass before the first that a failed beat touches, and what they give (R478, R481). -/
def foxBlocks (e : FoxEntry) (src res : List Piece) : Nat × FoxOut :=
  let c := e.cfg
  let sb := stgSrcBlk c
  let per := (residRange c 0 sb).2
  let bad (l : List Piece) (o n : Nat) : Bool := l.any fun p => p.stat ≠ 0 && p.off < o + n && o < p.off + p.bytes.length
  let ok := (List.range (e.len / sb)).takeWhile fun i => !bad src (sb * i) sb && !bad res (per * i) per
  let bytes (l : List Piece) (o n : Nat) : List Byte := (List.range n).map fun j => pieceByte l (o + j)
  (ok.length, (ok.map fun i => stageBlock c e.snap i (bytes src (sb * i) sb) (bytes res (per * i) per)).foldl FoxOut.join {})

/-- Source and residuals are here: the stage computes its blocks, and writes what it writes (R469, R477 to R482, R485). -/
def foxCompute (s : State) (e : FoxEntry) : State :=
  let src := e.srcGot.getD []
  let res := e.resGot.getD []
  if !e.bad.isEmpty then foxEnd ((foxDrop s e.id).bump FOX_ERR.POISON 1) e stPOISON else
  let (_, o) := foxBlocks e src res
  let st := if piecesStatus src ≠ stOK then piecesStatus src else piecesStatus res
  let s0 := if st = stPOISON then s.bump FOX_ERR.POISON 1 else s
  let s1 := (s0.bump FOX_ERR.OUT_OVF o.ovf).bump FOX_ERR.NONFINITE o.nan
  let wOut := e.kind = .pass && !o.out.isEmpty
  let wRes := !o.res.isEmpty
  let e1 := { e with out := o.out, st := st, left := b2n wOut + b2n wRes }
  if e1.left = 0 then foxEnd (foxDrop s1 e.id) e1 st else
  let s2 := foxPut s1 e1
  let s3 := if wOut then hmpScatter s2 3 (cutExt e.dext 0 o.out.length) o.out (.foxWrite e.id) else s2
  if wRes then hmpScatter s3 3 (cutExt e.rext 0 o.res.length) o.res (.foxWrite e.id) else s3

/-- The source of a pass whose two transposition segments lie in the overflow area passes through them (R34, R480). -/
def foxStaged (s : State) (e : FoxEntry) : State :=
  let n := min (65536 * e.spill.length) (e.len - e.spAt)
  if n = 0 then foxCompute s e else
  hmpScatter s 5 (sovfExt s e.spill n) ((List.range n).map fun j => pieceByte (e.srcGot.getD []) (e.spAt + j)) (.foxSpill e.id)

/-- An access of the overflow area for a pass has ended. -/
def foxSpillDone (s : State) (id : Nat) (x : Xfer) : State :=
  match foxFind s id with
  | none => s
  | some e =>
    if x.status ≠ stOK then foxEnd ((foxDrop s id).bump FOX_ERR.POISON (b2n (x.status = stPOISON))) e x.status
    else if x.write then hmpGather s 5 (sovfExt s e.spill x.len) (.foxSpill id)
    else
      let e1 := { e with srcGot := some (⟨e.spAt, x.data, 0⟩ :: e.srcGot.getD []), spAt := e.spAt + x.len }
      foxStaged (foxPut s e1) e1

/-- A read of a pass has returned. -/
def foxReadDone (s : State) (id : Nat) (resid : Bool) (x : Xfer) : State :=
  match foxFind s id with
  | none => s
  | some e =>
    let e1 := if resid then { e with resGot := some x.got, left := e.left - 1 } else { e with srcGot := some x.got, left := e.left - 1 }
    if e1.left = 0 then foxStaged (foxPut s e1) e1 else foxPut s e1

/-- A write of a pass is answered (R480, R481). -/
def foxWriteDone (s : State) (id : Nat) (x : Xfer) : State :=
  match foxFind s id with
  | none => s
  | some e =>
    let bad := x.status ≠ stOK
    let e1 := { e with left := e.left - 1, st := if e.st = stOK then x.status else e.st }
    let s1 := if bad ∧ x.status = stPOISON ∧ e.st = stOK then s.bump FOX_ERR.POISON 1 else s
    if e1.left = 0 then foxEnd (foxDrop s1 id) e1 e1.st else foxPut s1 e1

/-- An uncorrectable word in a tile-slot (R485): 16 × (4 × plane + tile) + slot. A pass under way that uses it ends with
POISON. -/
def foxPoison (s : State) (n : Nat) : State :=
  if s.fox.poison.contains n then s else
  let hit (e : FoxEntry) : Bool := n < 64 && e.kind ≠ .load && stgKind e.cfg = 0 && bitOf e.tiles (n / 16) && (foxSlots e.cfg).contains (n % 16)
  report ({ s with fox := { s.fox with
      poison := s.fox.poison ++ [n]
      running := s.fox.running.map fun e => if hit e then { e with bad := n :: e.bad } else e } }.bump FOX_ERR.POISON 1) 0x16 2 0x01
    (n % 16 + n / 16 % 4 * 16 + n / 64 * 256)

end Sys2Proof.Machine
end

