-- ==== Sys2Proof/Machine/Collective.lean ====
section
/-! DEFINITION. Collective steps from their start (R343, R398, R403, R404, R481, R482) and collective packets as they arrive
(R408, R411 to R413, R417), count exchange and all-to-all (R406, R407), and the group commands (R392). -/
namespace Sys2Proof.Machine

/-- A step ends before it has begun: in the group's record, with FAIL where `sf`; where `ab`, a privileged group aborts (R343,
R398, R403, R417). -/
def issueEnd (s : State) (k id g step phase st : Nat) (sf ab : Bool) : State :=
  let s1 := groupEnded (dropEarly s g step) g step st none
  let s2 := if phase = 6 then cxEnded s1 g step st [] else s1
  let s3 := stepEntryDone (if sf && spreads st then sendFails s2 g step st s.node none else s2) k id
  if ab then abortIfPriv s3 g step st else s3

/-- The segments that this member owns. -/
def ownedSegs (w : Group) (v : YStep) : List Nat := (List.range (segCount v.len)).filter fun k => owns w v k

/-- What a step reads and writes in local windows: window, key, right, offset, length (R343, R400, R406, R407, R450). -/
def stepRanges (s : State) (w : Group) (v : YStep) : List (Nat × Nat × Need × Nat × Nat) :=
  let key := s.ctxPkey v.ctx
  let out := w.outBytes v.phase v.len
  let list := (w.mlistWin, w.pkey, Need.rd, w.mlistOff, 4 * w.size)
  match v.phase with
  | 1 => (v.swin, key, .rd, v.gb, v.ga) ::
      (ownedSegs w v).map fun k => (v.dwin, key, .wr, v.gc + outAt w v k, outLen w v k)
  | 2 => ((ownedSegs w v).map fun k => (v.swin, key, Need.rd, v.gb + 65536 * k, segLen v.len k)) ++
      [(v.dwin, key, .wr, v.gc, out)]
  | 3 => [(v.swin, key, .rd, v.gb, v.ga), (v.dwin, key, .wr, v.gc, out)]
  | 4 => [(v.swin, key, .rd, v.gb, v.ga), (v.dwin, key, .wr, v.gc, out)] ++
      (if updEs v.upd = 0 then [] else [(updWin v.upd, key, .rd, 0, 0), (updWin v.upd, key, .wr, 0, 0)]) ++
      (if updMaster v.upd then [] else [(v.dwin, key, .rd, v.gc, out)])
  | 5 =>
    if v.var_ then
      [(v.swin, key, .rd, v.gb, v.ga), list] ++
        (match v.cx with | some c => [(c.dwin, key, .rd, c.off, 16 * w.size)] | none => [])
    else [(v.swin, key, .rd, v.gb, v.ga), (v.dwin, key, .wr, v.gc, v.ga), list]
  | _ => [(v.swin, key, .rd, v.gb, 8 * w.size), (v.dwin, key, .wr, v.gc, 16 * w.size), list]

/-- The first failing window check (R309, R343). -/
def rangesStatus (s : State) (l : List (Nat × Nat × Need × Nat × Nat)) : Nat :=
  ((l.map fun x => localCheck (s.win x.1) x.2.1 x.2.2.1 x.2.2.2.1 x.2.2.2.2).find? (· ≠ stOK)).getD stOK

/-- Chunk list lines that the ranges need and that are not cached. -/
def rangesMissing (s : State) (l : List (Nat × Nat × Need × Nat × Nat)) : List (Nat × Nat) :=
  (l.flatMap fun x => (linesMissing s x.1 x.2.2.2.1 x.2.2.2.2).map fun n => (x.1, n)).dedup

/-- The operands are refused at issue with INTERNAL, sending nothing (R398, R406, R407). -/
def operandsBad (w : Group) (v : YStep) : Bool :=
  v.len = 0 || 33554432 < v.len ||
  (v.phase ≤ 4 && !w.unitsOk v.phase v.len v.gb v.gc) || (v.phase = 5 && !v.var_ && v.ga % w.size ≠ 0)

/-- The checks of a group's Foxglove stage at issue (R482). -/
def stageStatus (s : State) (w : Group) (v : YStep) : Nat :=
  let st := passStatus s v.stg v.ctx v.ga
  if st ≠ stOK then st else if stgOut v.stg ≠ w.inFmt ∨ stgKind v.stg = 2 then stINTERNAL else stOK

/-- The step uses the group's stage (R482). -/
def usesStage (w : Group) (phase : Nat) : Bool := w.foxStage ≠ 0xFFFF && (phase = 1 || phase = 3 || phase = 4)

/-- A segment as a step begins with it. -/
def newSeg (w : Group) (v : YStep) (k : Nat) : Seg :=
  { kids := if v.phase = 2 then [] else (w.children (w.owner v.gc k)).map fun nb => { nb := nb } }

/-- Grants and data that came early (R408, R412): a disagreeing grant ends the step, the others are taken. -/
def takeEarly (s : State) (y : Nat) : State :=
  match s.ystep y with
  | none => s
  | some v =>
    let mine := s.yar.grants.filter fun e => e.g = v.g && e.step = v.step
    let data := s.yar.early.find? fun e => e.g = v.g && e.step = v.step
    let s2 := dropEarly s v.g v.step
    let s3 := match data with
      | some d => s2.putStep y { v with got := d.got, counts := d.counts }
      | none => s2
    if mine.any (fun e => e.phase ≠ v.phase || e.ga ≠ v.ga || e.gc ≠ v.gc) then
      endStep (s3.bump YAR_CERR.MISMATCH 1) y stINTERNAL true
    else mine.foldl (fun t e => takeGrant t y e.src e.seg e.slice e.half) s3

/-- A tree step begins: grants go out and contributions are read (R400, R401). -/
def treeBegin (s : State) (y : Nat) (stage : Option (List Nat)) : State :=
  match s.ystep y with
  | none => s
  | some v =>
    let w := s.group v.g
    let ks := List.range (segCount v.len)
    let s1 := ks.foldl (fun t k =>
      if v.phase = 2 then (if owns w v k then t else gatherStart t y k) else grantKids t y k) s
    match stage with
    | some c =>
      foxEnqueue s1 { id := 0, kind := .group, ctx := v.ctx, y := y, tiles := if stgKind c = 0 then stgTiles c else 0
                      len := v.ga, win := v.swin, off := v.gb, stage := w.foxStage, cfg := c }
    | none =>
      ks.foldl (fun t k =>
        if v.phase = 2 ∧ !owns w v k then t
        else stepRead t y 2 (cutExt v.src (65536 * k) (segLen v.len k)) (.yarOwn y k)) s1

-- All-to-all and count exchange (R406, R407)

/-- The node of rank `j` in a member list. -/
def memberNode (list : List Byte) (j : Nat) : Nat := leAt list (4 * j) 4 % 2 ^ 20

/-- The rank of a node in a member list. -/
def memberRank (list : List Byte) (node : Nat) : Option Nat :=
  (List.range (list.length / 4)).find? fun j => memberNode list j = node

/-- A counted A2A whose CX has ended OK reads its table; one whose CX failed ends with that status (R407). -/
def a2aTable (s : State) (y : Nat) : State :=
  match s.ystep y with
  | none => s
  | some v =>
    match v.cx with
    | none => s
    | some c =>
      match c.status with
      | none => s
      | some st =>
        if !v.var_ ∨ v.table.isSome ∨ v.placed ∨ v.ending.isSome then s
        else if st ≠ stOK then endStep s y st true
        else stepRead (s.putStep y { v with placed := true }) y 2 (extents s c.dwin c.off (16 * (s.group v.g).size)) (.yarTable y)

/-- What an A2A sends to rank `j`: the offset and length in its source, and the destination offset (R407). -/
def a2aBlock (w : Group) (v : YStep) (j : Nat) : Nat × Nat × Nat :=
  if v.var_ then
    let cs := (v.cx.map (·.counts)).getD []
    ((cs.take j).sum, cs.getD j 0, v.gc + leAt (v.table.getD []) (16 * j + 8) 8)
  else
    let b := v.ga / w.size
    (j * b, b, v.gc + w.rank * b)

/-- Bytes that an A2A or CX step expects from the other members (R406, R407). -/
def expected (w : Group) (v : YStep) : Nat :=
  let others := (List.range w.size).filter (· ≠ w.rank)
  if v.phase = 6 then 16 * others.length
  else if v.var_ then (others.map fun j => leAt (v.table.getD []) (16 * j) 8).sum
  else others.length * (v.ga / w.size)

/-- An A2A or CX step ends when its sends are acknowledged and what it expects has arrived (R406, R407). -/
def exchangeCheck (s : State) (y : Nat) : State :=
  match s.ystep y with
  | none => s
  | some v =>
    let w := s.group v.g
    if v.phase < 5 ∨ !v.sent ∨ (v.phase = 6 ∧ !v.placed) ∨ v.sends ≠ 0 ∨ v.ownLeft ≠ 0 ∨ v.got < expected w v then s
    else endStep s y stOK true

/-- The write of the own part of an exchange. -/
def selfWrite (s : State) (y : Nat) (ext : List (Nat × Nat)) (b : List Byte) : State :=
  match s.ystep y with
  | none => s
  | some v => if b.isEmpty then s else stepWrite (s.putStep y { v with ownLeft := 1 }) y ext b (.yarSelf y)

/-- The packets of one block of an A2A. -/
def a2aPackets (s : State) (y : Nat) (v : YStep) (node at_ : Nat) (b : List Byte) : State × Nat :=
  let w := s.group v.g
  let m := maxPayload s (vcOf w.tc false) - 16
  let l := packetsOf b.length m 0 b
  (l.foldl (fun t x => sendColl t y v.g node 0x23 5 (collOff v.step 0 0 0 false false)
    (natLE 4 w.tag ++ natLE 2 0 ++ natLE 2 v.dwin ++ natLE 8 (at_ + x.1) ++ x.2)) s, l.length)

/-- An A2A whose member list, source and table are here sends its blocks and writes its own (R407); where members disagree,
the table places its own block no farther than its window reaches (R391). -/
def a2aSend (s : State) (y : Nat) : State :=
  match s.ystep y with
  | none => s
  | some v =>
    match v.members, v.body, decide (v.var_ = false ∨ v.table.isSome) with
    | some list, some body, true =>
      let w := s.group v.g
      let total := ((v.cx.map (·.counts)).getD []).sum
      let room := ((List.range w.size).map fun j => leAt (v.table.getD []) (16 * j) 8).sum
      let own := a2aBlock w v w.rank
      let st := if v.var_ then rangesStatus s ([(v.dwin, s.ctxPkey v.ctx, .wr, v.gc, room)] ++
          (if own.2.1 = 0 then [] else [(v.dwin, s.ctxPkey v.ctx, .wr, own.2.2, own.2.1)])) else stOK
      let miss := (linesMissing s v.dwin own.2.2 own.2.1).map fun n => (v.dwin, n)
      if v.sent ∨ v.ending.isSome then s
      else if v.var_ ∧ total ≠ v.ga then endStep s y stINTERNAL true
      else if st ≠ stOK then endStep s y st true
      else if !miss.isEmpty then miss.foldl (fun t l => fillLine t l.1 l.2) (s.putStep y { v with lines := miss })
      else
        let others := (List.range w.size).filter (· ≠ w.rank)
        let r := others.foldl (fun (a : State × Nat) j =>
          let b := a2aBlock w v j
          let x := a2aPackets a.1 y v (memberNode list j) b.2.2 ((body.drop b.1).take b.2.1)
          (x.1, a.2 + x.2)) (s, 0)
        match r.1.ystep y with
        | none => r.1
        | some v1 =>
          exchangeCheck (selfWrite (r.1.putStep y { v1 with sent := true, sends := r.2, lines := [] }) y
            (extents s v.dwin own.2.2 own.2.1) ((body.drop own.1).take own.2.1)) y
    | _, _, _ => s

/-- COUNT to a rank (R406, R410). -/
def sendCount (s : State) (y : Nat) (v : YStep) (node kind value : Nat) : State :=
  sendColl s y v.g node 0x24 6 (collOff v.step 0 0 0 false false)
    (natLE 4 (s.group v.g).tag ++ natLE 1 kind ++ natLE 1 0 ++ natLE 2 v.dwin ++ natLE 8 value ++ natLE 8 v.gc)

/-- A CX step that holds all its counts returns the places and writes its own entry (R406). -/
def cxPlaces (s : State) (y : Nat) : State :=
  match s.ystep y with
  | none => s
  | some v =>
    let w := s.group v.g
    match v.members with
    | none => s
    | some list =>
      let cs := (List.range w.size).map fun h => v.counts.get none h
      if v.phase ≠ 6 ∨ v.placed ∨ !v.sent ∨ v.ending.isSome ∨ cs.any (·.isNone) then s
      else
        let c := cs.map (·.getD 0)
        let place (h : Nat) : Nat := (c.take h).sum
        let others := (List.range w.size).filter (· ≠ w.rank)
        let s1 := others.foldl (fun t h => sendCount t y v (memberNode list h) 1 (place h)) s
        match s1.ystep y with
        | none => s1
        | some v1 =>
          selfWrite (s1.putStep y { v1 with placed := true, sends := v1.sends + others.length }) y (cutExt v.dst (16 * w.rank) 16)
            (natLE 8 (c.getD w.rank 0) ++ natLE 8 (place w.rank))

/-- A CX whose member list and counts are here sends a COUNT to every other rank (R406). -/
def cxSend (s : State) (y : Nat) : State :=
  match s.ystep y with
  | none => s
  | some v =>
    match v.members, v.body with
    | some list, some body =>
      if v.phase ≠ 6 ∨ v.sent ∨ v.ending.isSome then s else
      let w := s.group v.g
      let others := (List.range w.size).filter (· ≠ w.rank)
      let s1 := others.foldl (fun t j => sendCount t y v (memberNode list j) 0 (leAt body (8 * j) 8)) s
      match s1.ystep y with
      | none => s1
      | some v1 =>
        exchangeCheck (cxPlaces (s1.putStep y { v1 with
          sent := true, sends := others.length, counts := v1.counts.put w.rank (some (leAt body (8 * w.rank) 8)) }) y) y
    | _, _ => s

/-- What an exchange can go on with, it goes on with. -/
def exchangeRun (s : State) (y : Nat) : State := cxSend (a2aSend (a2aTable s y) y) y

/-- Counted A2A steps whose CX has ended go on (R407). -/
def settle (s : State) : State :=
  ((s.yar.steps.filter fun e => e.2.phase = 5 && e.2.var_ && !e.2.placed).map (·.1)).foldl exchangeRun s

/-- A read of an exchange has returned: the member list, the source or the table. -/
def exchangeRead (s : State) (y which : Nat) (x : Xfer) : State :=
  let (s1, go) := accessDone s y x.status
  match go, s1.ystep y with
  | true, some v =>
    if which = 1 ∧ !v.spill.isEmpty then stagePut s1 y v.spill x.data (.yarHold y) else
    exchangeRun (s1.putStep y (match which with
      | 0 => { v with members := some x.data } | 1 => { v with body := some x.data } | _ => { v with table := some x.data })) y
  | _, _ => settle s1

/-- An access of the overflow area for a whole contribution has ended: written, it is read back, and then it is at hand (R34,
R399, R482). -/
def yarHoldDone (s : State) (y : Nat) (x : Xfer) : State :=
  let (s1, go) := accessDone s y x.status
  match go, s1.ystep y with
  | true, some v =>
    if x.write then
      stepRead s1 y 5 (sovfExt s (if v.phase ≤ 4 then v.spill.drop (segCount v.len) else v.spill) x.len) (.yarHold y)
    else if v.phase ≤ 4 then takeContribution s1 y x.data
    else exchangeRun (s1.putStep y { v with body := some x.data }) y
  | _, _ => settle s1

/-- The write of the own part is answered. -/
def exchangeSelf (s : State) (y : Nat) (x : Xfer) : State :=
  let (s1, go) := accessDone s y x.status
  match go, s1.ystep y with
  | true, some v => settle (exchangeCheck (s1.putStep y { v with ownLeft := 0 }) y)
  | _, _ => settle s1

-- The start of a step (R343, R398, R403, R404, R413, R482)

/-- What ends a step at issue before it may run, with whether FAIL spreads it: the fence, the group's state, a failure kept
for it, a phase that the group does not allow (R343, R403, R413). The second Bool says that it is a failure that makes a
privileged group abort (R417), which the fence at issue is not (log entry 84). -/
def issueStatus (s : State) (g step phase : Nat) : Option (Nat × Bool × Bool) :=
  let w := s.group g
  if s.fenced then some (stFENCED, false, false)
  else if w.state = 2 then some (stABORTED, false, false)
  else if w.state = 3 then some (stINTERNAL, false, false)
  else match w.kept.find? (fun x => x.1 = step) with
  | some x => some (x.2, false, true)
  | none => if bitOf w.phases (phase - 1) then none else some (stINTERNAL, true, true)

/-- The step as its instruction names it (R343). -/
def stepOf (s : State) (k : Nat) (e : BeEntry) (phase : Nat) : YStep :=
  let g := e.imm % 4096
  let w := s.group g
  let c := e.stg
  let stage := usesStage w phase
  { g := g, step := e.step, phase := phase, ctx := k, be := e.id, ga := e.va, gb := e.vb, gc := e.vc
    swin := bitsOf e.imm 31 16, dwin := bitsOf e.imm 47 32, var_ := bitOf e.imm 13
    len := if stage then (if stgSrcBlk c = 0 then 0 else foxOutLen c e.va) else e.va
    since := e.since, upd := e.upd, stg := e.stg, cx := e.cx }

/-- The checks that follow the operands (R450, R482, R407). -/
def laterStatus (s : State) (w : Group) (v : YStep) : Nat :=
  if usesStage w v.phase ∧ stageStatus s w v ≠ stOK then stageStatus s w v
  else if v.phase = 4 ∧ updKind v.upd = 3 then stINTERNAL
  else if v.phase = 5 ∧ v.var_ ∧ v.cx.isNone then stINTERNAL
  else if v.phase = 6 ∧ v.ga ≠ 8 * w.size then stINTERNAL
  else rangesStatus s (stepRanges s w v)

/-- Staging segments of a step (R343, R482). -/
def stepStaging (w : Group) (v : YStep) : Nat :=
  if usesStage w v.phase then
    2 * segCount v.len + (if stgTrans v.stg ∧ stgKind v.stg = 0 then 2 else 0)
  else segCount v.ga

/-- A step that passes its checks runs (R400, R406, R407). -/
def stepRun (s : State) (w : Group) (v : YStep) (stag spill : List Nat) : State :=
  let y := s.yar.next
  let v1 := { v with
    src := extents s v.swin v.gb v.ga
    dst := if v.phase = 5 then [] else extents s v.dwin v.gc (if v.phase = 6 then 16 * w.size else w.outBytes v.phase v.len)
    segs := if v.phase ≤ 4 then (List.range (segCount v.len)).map fun k => (k, newSeg w v k) else []
    stag := stag, spill := spill }
  let s1 := { s with yar := { s.yar with next := y + 1, steps := s.yar.steps.put y v1 } }
  let s2 := if v.phase ≤ 4 then
      treeBegin s1 y (if usesStage w v.phase then some v.stg else none)
    else
      stepRead (stepRead s1 y 2 (extents s w.mlistWin w.mlistOff (4 * w.size)) (.yarList y)) y 2 v1.src (.yarBody y)
  exchangeRun (takeEarly s2 y) y

/-- Sets the waiting lines of a back-end entry. -/
def entryWaits (s : State) (k id : Nat) (l : List (Nat × Nat)) : State :=
  let c := s.ctx k
  s.setCtx k { c with beq := c.beq.map fun e => if e.id = id then { e with started := true, lines := l } else e }

/-- A back-end entry is passed on and leaves its queue (R326). -/
def entryLeaves (s : State) (k id : Nat) : State :=
  let c := s.ctx k
  s.setCtx k { c with beq := c.beq.map fun e => if e.id = id then { e with started := true, left := true, lines := [] } else e }

/-- A collective step starts in the back end (R343, R398, R403, R404, R483): it ends at once, waits for chunk lines, stalls
for the bound on running groups or for the Foxglove queue, or runs. -/
def collStart (s : State) (k id phase : Nat) : State :=
  match (s.ctx k).beq.find? (fun e => e.id = id) with
  | none => s
  | some e =>
    let g := e.imm % 4096
    let w := s.group g
    if w.state = 0 then stepEntryDone (recordFail s k stINTERNAL) k id else
    let s0 := s.setGroup g { w with
      endedSt := w.endedSt.drop e.step, fwd := w.fwd.filter (· ≠ e.step), kept := w.kept.filter (·.1 ≠ e.step) }
    match issueStatus s g e.step phase with
    | some (st, sf, ab) => issueEnd s0 k id g e.step phase st sf ab
    | none =>
      if !groupRunning s g ∧ 1024 ≤ groupsRunning s then
        { entryWaits s k id [] with yar := { s.yar with runWait := (s.yar.runWait.filter (· ≠ (k, id))) ++ [(k, id)] } }
      else
        let v := stepOf s k e phase
        if usesStage w phase ∧ !foxRoom s then s
        else if operandsBad w v ∧ (!usesStage w phase ∨ stageStatus s w v = stOK) then
          issueEnd s0 k id g e.step phase stINTERNAL false false
        else if laterStatus s w v ≠ stOK then
          issueEnd (if laterStatus s w v = stRIGHTS ∧ usesStage w phase ∧ passStatus s v.stg k v.ga = stRIGHTS
            then s0.bump FOX_ERR.RIGHTS 1 else s0) k id g e.step phase (laterStatus s w v) true true
        else
          let miss := rangesMissing s (stepRanges s w v)
          if !miss.isEmpty then miss.foldl (fun t l => fillLine t l.1 l.2) (entryWaits s k id miss)
          else match takeStaging s0 (stepStaging w v) with
            | none => issueEnd s0 k id g e.step phase stQUOTA true true
            | some (s1, stag, spill) => stepRun (entryLeaves s1 k id) (s1.group g) v stag spill

-- Packets as they arrive (R408, R411, R412)

/-- Packets whose payload begins with GROUP_TAG (R410, R412). -/
def tagged (opcode : Nat) : Bool := opcode ≠ 0x21 && opcode ≠ 0x22

/-- The rows of R412 before the packet's own, and INTERNAL for the opcode's own disagreements: none where it passes. -/
def collRefused (s : State) (p : Pkt) : Option Nat :=
  let g := p.window % 4096
  let w := s.group g
  if s.fenced then some stFENCED
  else if w.state = 0 ∨ (tagged p.opcode ∧ leAt p.payload 0 4 ≠ w.tag) then some stVERSION
  else if p.pkey ≠ w.pkey then some stRIGHTS
  else if w.state = 2 ∧ p.opcode ≠ 0x26 then some stABORTED
  else if w.state = 3 then some stINTERNAL
  else endedWith s g (collStep p.offset)

/-- READY (R401, R408, R412): one that disagrees with the step issued here, a STO included, ends it (R397). -/
def onReady (s : State) (p : Pkt) : State × Nat :=
  let g := p.window % 4096
  let n := collStep p.offset
  let ga := leAt p.payload 8 8
  let gc := leAt p.payload 16 8
  match findStep s g n with
  | some (y, v) =>
    if v.phase ≠ p.fn ∨ v.ga ≠ ga ∨ v.gc ≠ gc then (endStep (s.bump YAR_CERR.MISMATCH 1) y stINTERNAL true, stINTERNAL)
    else if segCount v.len ≤ collSeg p.offset then (s, stINTERNAL)
    else (takeGrant s y p.src (collSeg p.offset) (collSlice p.offset) (collHalf p.offset), stOK)
  | none =>
    if (match findSto s g n with | some o => o.be.isSome | none => false) then
      (failSto (s.bump YAR_CERR.MISMATCH 1) g n stINTERNAL true, stINTERNAL)
    else if 16384 ≤ s.yar.grants.length then (s, stBUSY)
    else ({ s with yar := { s.yar with grants := s.yar.grants ++
      [⟨g, n, p.src, p.fn, ga, gc, collSeg p.offset, collSlice p.offset, collHalf p.offset⟩] } }, stOK)

/-- PART (R437): it joins its slice; the last packet of the last slice lets the member combine. -/
def onPart (s : State) (p : Pkt) : State × Nat :=
  match findStep s (p.window % 4096) (collStep p.offset) with
  | none => (s, stINTERNAL)
  | some (y, v) =>
    let w := s.group v.g
    let k := collSeg p.offset
    let q := v.seg k
    let n := min 65536 (redBytes w v k - 65536 * q.slice)
    match q.kids.find? (fun c => w.nbNode c.nb = p.src) with
    | none => (s, stINTERNAL)
    | some c =>
      if !c.granted ∨ c.complete ∨ q.passing ∨ collSlice p.offset ≠ q.slice ∨ n < collAt p.offset + p.payload.length then (s, stINTERNAL)
      else
        let c1 := c.add n (collAt p.offset) p.payload (collSat p.offset)
        let s1 := setSeg (noteInput s y c.nb) y k { q with
          kids := q.kids.map fun x => if x.nb = c.nb then c1 else x
          arrived := if c1.complete then q.arrived ++ [c.nb] else q.arrived }
        (if c1.complete then reduceRun 64 (if w.mode = 1 then grantKids s1 y k else s1) y k else s1, stOK)

/-- BCAST (R402, R437): it joins its slice; a complete slice is written and sent on to the children. -/
def onBcast (s : State) (p : Pkt) : State × Nat :=
  match findStep s (p.window % 4096) (collStep p.offset) with
  | none => (s, stINTERNAL)
  | some (y, v) =>
    let w := s.group v.g
    let k := collSeg p.offset
    let q := v.seg k
    let n := min 65536 (outLen w v k - 65536 * q.gslice)
    match q.gin with
    | none => (s, stINTERNAL)
    | some c =>
      if w.nbNode c.nb ≠ p.src ∨ c.complete ∨ collSlice p.offset ≠ q.gslice ∨ n < collAt p.offset + p.payload.length then (s, stINTERNAL)
      else
        let c1 := c.add n (collAt p.offset) p.payload (collSat p.offset)
        let s1 := setSeg (noteInput s y c.nb) y k { q with gin := some c1 }
        let s2 := match s1.ystep y with
          | some v1 => if collSat p.offset then s1.putStep y { v1 with ovf := true } else s1
          | none => s1
        if !c1.complete then (s2, stOK)
        else if c1.unwritten n then (endStep (s2.bump YAR_ACNT0.UNWRITTEN 1) y stUNWRITTEN true, stOK)
        else
          (if v.spill.isEmpty then gatherWrite s2 y k c1.data
           else stagePut s2 y [v.spill.getD k 0] c1.data (.yarSpill y k true), stOK)

/-- FAIL (R413). -/
def onFail (s : State) (p : Pkt) : State :=
  let g := p.window % 4096
  let n := leAt p.payload 4 2
  let st := leAt p.payload 6 1
  let w := s.group g
  let s0 := s.bump YAR_CERR.FAIL_RX 1
  let s1 := if w.fwd.contains n then s0 else
    sendFails (s0.setGroup g { w with fwd := w.fwd ++ [n] }) g n st (leAt p.payload 8 4) (some p.src)
  match findStep s1 g n, findSto s1 g n with
  | some (y, _), _ => endStep s1 y st false
  | none, some o => if o.be.isSome then failSto s1 g n st false else failElsewhere s1 g n st
  | none, none => failElsewhere s1 g n st

/-- ABORT (R417). -/
def onAbort (s : State) (p : Pkt) : State :=
  abortGroup s (p.window % 4096) ⟨leAt p.payload 16 8, leAt p.payload 4 4, leAt p.payload 8 2, leAt p.payload 10 1⟩ (some p.src)

/-- The destination of an A2A or COUNT packet: window, offset and data, where the sender's rank is known (R406, R407). -/
def collTarget (c : CollIn) : Nat × Nat × List Byte :=
  let p := c.pkt
  if p.opcode = 0x23 then (leAt p.payload 6 2, leAt p.payload 8 8, p.payload.drop 16)
  else (leAt p.payload 6 2, leAt p.payload 16 8 + 16 * c.rank.getD 0 + 8 * leAt p.payload 4 1, (p.payload.drop 8).take 8)

def State.collIn (s : State) (i : Nat) : Option CollIn := s.yar.ins.find? i
def State.putIn (s : State) (i : Nat) (c : CollIn) : State := { s with yar := { s.yar with ins := s.yar.ins.put i c } }

/-- An A2A or COUNT packet ends with a status: its answer (R412). -/
def collInEnd (s : State) (i : Nat) (c : CollIn) (st : Nat) : State :=
  answer { s with yar := { s.yar with ins := s.yar.ins.drop i } } c.pkt c.recIdx st 0 []

/-- The data of an A2A or COUNT packet is written under the rows of R309, once its chunk lines are cached (R407, R408). -/
def collInWrite (s : State) (i : Nat) : State :=
  match s.collIn i with
  | none => s
  | some c =>
    let w := s.group (c.pkt.window % 4096)
    let (win, off, data) := collTarget c
    let st := winCheck (s.win win) w.pkey .wr off data.length
    let miss := linesMissing s win off data.length
    if st ≠ stOK then collInEnd (countTgtErr s st) i c st
    else if !miss.isEmpty then miss.foldl (fun t l => fillLine t win l) (s.putIn i { c with lines := miss })
    else hmpScatter (s.putIn i { c with lines := [], left := 1 }) 2 (extents s win off data.length) data (.collWrite i)

/-- The member list that names a COUNT's sender is read (R406). -/
def countList (s : State) (i : Nat) : State :=
  match s.collIn i with
  | none => s
  | some c =>
    let w := s.group (c.pkt.window % 4096)
    let st := winCheck (s.win w.mlistWin) w.pkey .rd w.mlistOff (4 * w.size)
    let miss := linesMissing s w.mlistWin w.mlistOff (4 * w.size)
    if st ≠ stOK then collInEnd s i c st
    else if !miss.isEmpty then miss.foldl (fun t l => fillLine t w.mlistWin l) (s.putIn i { c with lines := miss })
    else hmpGather (s.putIn i { c with lines := [] }) 2 (extents s w.mlistWin w.mlistOff (4 * w.size)) (.collList i)

/-- An A2A or COUNT packet is taken in: its step is issued, or a place in the early table is at hand (R408). -/
def onExchange (s : State) (p : Pkt) (r : Option Nat) : State :=
  let g := p.window % 4096
  let n := collStep p.offset
  let i := s.tgt.next
  let have_ := (findStep s g n).isSome || s.yar.early.any (fun e => e.g = g && e.step = n)
  if !have_ ∧ 256 ≤ s.yar.early.length then answer s p r stBUSY 0 [] else
  let s1 := if have_ then s else { s with yar := { s.yar with early := s.yar.early ++ [{ g := g, step := n }] } }
  let s2 := ({ s1 with tgt := { s1.tgt with next := i + 1 } }).putIn i { pkt := p, recIdx := r }
  if p.opcode = 0x23 then collInWrite s2 i else countList s2 i

/-- The member list has been read: the sender's rank, then the write (R406). -/
def collListDone (s : State) (i : Nat) (x : Xfer) : State :=
  match s.collIn i with
  | none => s
  | some c =>
    if x.status ≠ stOK then collInEnd s i c x.status
    else match memberRank x.data c.pkt.src with
    | none => collInEnd s i c stINTERNAL
    | some j => collInWrite (s.putIn i { c with rank := some j }) i

/-- Counts `n` bytes of a step that have arrived, issued or early, with the count of rank `j` where one came (R406, R408). -/
def arriveBytes (s : State) (g n bytes : Nat) (cnt : Option (Nat × Nat)) : State :=
  let add (t : Tbl (Option Nat)) : Tbl (Option Nat) := match cnt with | some (j, v) => t.put j (some v) | none => t
  match findStep s g n with
  | some (y, v) => settle (exchangeCheck (cxPlaces (s.putStep y { v with got := v.got + bytes, counts := add v.counts }) y) y)
  | none => { s with yar := { s.yar with early := s.yar.early.map fun e =>
      if e.g = g ∧ e.step = n then { e with got := e.got + bytes, counts := add e.counts } else e } }

/-- The write of an A2A or COUNT packet is answered (R407, R408, R412, R418). -/
def collWriteDone (s : State) (i : Nat) (x : Xfer) : State :=
  match s.collIn i with
  | none => s
  | some c =>
    let p := c.pkt
    let g := p.window % 4096
    let n := collStep p.offset
    let s1 := collInEnd s i c x.status
    if x.status ≠ stOK then s1 else
    let s2 := match findStep s1 g n, (s1.group g).nbOf p.src with
      | some (y, _), some nb => if p.opcode = 0x24 then noteInput s1 y nb else s1
      | _, _ => s1
    arriveBytes s2 g n (collTarget c).2.2.length
      (if p.opcode = 0x24 ∧ leAt p.payload 4 1 = 0 then some (c.rank.getD 0, leAt p.payload 8 8) else none)

/-- An accepted collective packet is executed and answered (R411, R412). -/
def execColl (s : State) (_i : Nat) (p : Pkt) (r : Option Nat) : State :=
  let refused := collRefused s p
  let known := refused ≠ some stFENCED ∧ refused ≠ some stVERSION ∧ refused ≠ some stRIGHTS
  if p.opcode = 0x25 then answer (if known then settle (onFail s p) else s) p r (refused.getD stOK) 0 []
  else match refused with
  | some st => answer s p r st 0 []
  | none =>
    match p.opcode with
    | 0x20 => let (s1, st) := onReady s p; answer s1 p r st 0 []
    | 0x21 => let (s1, st) := onPart s p; answer s1 p r st 0 []
    | 0x22 => let (s1, st) := onBcast s p; answer s1 p r st 0 []
    | 0x26 => answer (settle (onAbort s p)) p r stOK 0 []
    | _ => onExchange s p r

/-- A collective packet arrives (R411): a request of its stream like any other. -/
def collPacket (s : State) (opcode : Nat) (p : Pkt) : State :=
  if p.opcode ≠ opcode then s else receive (acceptWith execColl) receiveDup (takeDelivered s p) p

/-- A collective packet of this member has an outcome (R411 to R413): acknowledged, tried again after COLL_RETRY, or the
end of its step. -/
def collEnd (s : State) (y : Nat) (o : XOp) (st : Nat) : State :=
  if 0x25 ≤ o.opcode then s else
  match s.ystep y with
  | none => s
  | some v =>
    if v.ending.isSome then s
    else if st = stOK then
      let k := collSeg o.off
      let q := v.seg k
      match o.opcode with
      | 0x21 => reduceRun 64 (setSeg s y k { q with left := q.left - 1 }) y k
      | 0x22 => gatherRun 1024 (setSeg s y k { q with gLeft := q.gLeft - 1 }) y k
      | 0x20 => s
      | _ => settle (exchangeCheck (s.putStep y { v with sends := v.sends - 1 }) y)
    else if st = stVERSION ∨ (st = stBUSY ∧ o.opcode ≠ 0x21 ∧ o.opcode ≠ 0x22) then
      let s1 := if st = stVERSION then s.bump YAR_CERR.VERSION_RETRY 1 else s.bump YAR_CERR.EARLY_BUSY 1
      { s1 with yar := { s1.yar with retries := s1.yar.retries ++ [⟨s.after (1000 * s.rd YAR_GCFG.COLL_RETRY), y, o⟩] } }
    else settle (endStep s y st true)

/-- COLL_RETRY (R408, R412): the oldest packet whose interval has passed is sent again. -/
def collRetry (s : State) : State :=
  match s.yar.retries.find? (fun r => r.due ≤ s.now) with
  | none => s
  | some r =>
    startOp { s with yar := { s.yar with retries := s.yar.retries.erase r } }
      { r.op with id := 0, made := 0, opened := false, out := 0, doneBytes := 0, fail := none, result := 0 }

/-- ABORT_TMO (R417): a step of a privileged group has been outstanding for its ABORT_TMO. -/
def abortTmo (s : State) (g : Nat) : State :=
  let w := s.group g
  let old (t : Nat) : Bool := t + ns (1000 * w.abortTmo) ≤ s.now
  if !w.priv ∨ w.abortTmo = 0 ∨ w.state ≠ 1 then s else
  match List.find? (fun e : Nat × YStep => e.2.g = g && old e.2.since) s.yar.steps,
        s.yar.stoats.find? (fun o => o.g = g && o.be.isSome && old o.since),
        (waitingSteps s g).find? (fun x => old x.2.since) with
  | some (_, v), _, _ => settle (abortGroup s g ⟨s.nowNs, s.node, v.step, stTIMEOUT⟩ none)
  | none, some o, _ => settle (abortGroup s g ⟨s.nowNs, s.node, o.step, stTIMEOUT⟩ none)
  | none, none, some x => settle (abortGroup s g ⟨s.nowNs, s.node, x.2.step, stTIMEOUT⟩ none)
  | none, none, none => s

/-- DESTROY (R392). -/
def groupDestroy (s : State) (g : Nat) : State :=
  let s0 := s.wr YAR_GCMD.GROUP g
  if s.on YAR_GCMD.BUSY then s
  else if stepsOut s g ≠ 0 then s0.wr YAR_GCMD.STATUS stBUSY
  else
    let s1 := { s0 with yar := { s0.yar with
      grants := s0.yar.grants.filter fun e => e.g ≠ g
      early := s0.yar.early.filter fun e => e.g ≠ g
      stoats := s0.yar.stoats.filter fun o => o.g ≠ g } }
    (s1.setGroup g {}).wr YAR_GCMD.STATUS stOK

/-- CANCEL (R129, R392): through MRP a privileged group's is answered RIGHTS; from management it makes the group abort, as
any failure of its steps does (R417). -/
def groupCancel (s : State) (g : Nat) (mrp : Bool) : State :=
  if s.on YAR_GCMD.BUSY ∨ (mrp ∧ (s.group g).priv) then s
  else
    let n := (s.yar.steps.filter fun e => e.2.g = g).map (·.2.step) ++
      (s.yar.stoats.filter fun o => o.g = g && o.be.isSome).map (·.step) ++ (waitingSteps s g).map (·.2.step)
    let s1 := endAll (s.wr YAR_GCMD.GROUP g) g stTIMEOUT
    let s2 := match n with | [] => s1 | x :: _ => abortIfPriv s1 g x stTIMEOUT
    settle (s2.wr YAR_GCMD.STATUS stOK)

/-- A staging segment is retired: a step or a pass that uses it ends with POISON (R35, R459). -/
def retireSegment (s : State) (n : Nat) : State :=
  if s.yar.retired.contains n then s else
  let s1 := report { s with yar := { s.yar with retired := s.yar.retired ++ [n] } } 0x15 2 0x01 n
  let s2 := ((s1.yar.steps.filter fun e => e.2.stag.contains n).map (·.1)).foldl (fun t y => endStep t y stPOISON true) s1
  settle ((s2.fox.running.filter fun e => e.stag.contains n).foldl (fun t e => foxEnd (foxDrop t e.id) e stPOISON) s2)

end Sys2Proof.Machine
end

