-- ==== Sys2Proof/Machine/Stoat.lean ====
section
/-! DEFINITION. The Stoat path (R419 to R425, R456): STO steps, SVAL and SFAIL. -/
namespace Sys2Proof.Machine

/-- STO steps outstanding (STO_STAT.OUTSTANDING, R423). -/
def stoOutstanding (s : State) : Nat := s.yar.stoats.countP fun o => o.be.isSome

def putSto (s : State) (o : StoOp) : State :=
  let same (x : StoOp) : Bool := x.g = o.g && x.step = o.step
  let l := s.yar.stoats
  { s with yar := { s.yar with stoats := if l.any same then l.map fun x => if same x then o else x else l ++ [o] } }

/-- A STO length is allowed: 1 to 64, a multiple of the element size, at most 32 for ADD_EXACT (R343, R420, R456). -/
def stoLenOk (op n : Nat) : Bool :=
  1 ≤ n && n ≤ 64 && n % (if op = 8 then 4 else stoElem op) = 0 && (op ≠ 8 || n ≤ 32)

/-- The value that a member contributes, with the counts FLOOR_DROP and SAT (R420, R456). -/
def stoValue (w : Group) (b : List Byte) : List Byte × Nat × Nat :=
  if w.stoOp = 8 then
    let (p, d, t, _) := partsOf 0 w.floor (decodeBytes 0 b)
    (p, d, t)
  else if w.stoOp = 11 ∧ w.rank ≠ w.stoRoot then (b.map fun _ => 0, 0, 0)
  else (b, 0, 0)

/-- The result that a member writes, and the status: OVERFLOW for ±SAT (R456); NaN is the canonical one also where no other
member contributes (R420). -/
def stoResult (w : Group) (v : List Byte) : List Byte × Nat :=
  if w.stoOp = 9 ∨ w.stoOp = 10 then
    ((List.range (v.length / 4)).flatMap fun i => natLE 4 (f32Order false (leAt v (4 * i) 4) (leAt v (4 * i) 4)), stOK)
  else if w.stoOp ≠ 8 then (v, stOK) else
  let l := (List.range (v.length / 8)).map fun i =>
    let p := Part.ofBits (leAt v (8 * i) 8)
    match p.value w.floor w.scaleExp with
    | some x => (natLE 4 (f32Of x), false)
    | none => (natLE 4 (elemF32.maxBits (p = Part.sat true)), true)
  (l.flatMap (·.1), if l.any (·.2) then stOVERFLOW else stOK)

/-- HOPS of the messages that a member sends in dimension `d`: positive and negative (R421). -/
def stoHops (w : Group) (d : Nat) : Nat × Nat :=
  let n := w.dimN d
  if w.wrap d then (n / 2, (n + 1) / 2 - 1) else (n - 1 - w.dimI d, w.dimI d)

/-- Sends a member's value in dimension `d` to both sides (R421). -/
def stoSendDim (s : State) (o : StoOp) (d : Nat) : State :=
  let w := s.group o.g
  let (a, b) := stoHops w d
  let one (t : State) (side hops : Nat) : State :=
    if hops = 0 then t else sendStoat t o.g side (stoatMsg 1 o.g o.step side hops o.len 0 w.stoOp o.val)
  one (one s (2 * d) a) (2 * d + 1) b

/-- A STO step completes: its result goes to scratch, and it ends (R419, R421). -/
def stoDone (s : State) (o : StoOp) : State :=
  match o.be with
  | none => s
  | some (k, _) =>
    let (b, st) := stoResult (s.group o.g) o.val
    let base := 65536 * (k / 32) + s.rd (MRT_CTX_CFG2.SCR_BASE k) * 256
    settle (abortIfPriv (finishSto (scrWrite s (base + o.dst) b) o.g o.step st true) o.g o.step st)

/-- The operation goes on: a dimension whose values are all here is combined, and the next is sent (R421). -/
def stoRun : Nat → State → Nat → Nat → State
  | 0, s, _, _ => s
  | fuel + 1, s, g, step =>
    match findSto s g step with
    | none => s
    | some o =>
      let w := s.group g
      if o.be.isNone then s
      else if w.dims ≤ o.dim then stoDone s o
      else
        let r := o.got.get [] o.dim
        if r.length + 1 < w.dimN o.dim then s else
        let o1 := { o with dim := o.dim + 1, val := if r.isEmpty then o.val else stoCombine w.stoOp (o.val :: r) }
        stoRun fuel (if o1.dim < w.dims then stoSendDim (putSto s o1) o1 o1.dim else putSto s o1) g step

/-- Forwards an SVAL in its direction with one hop fewer (R421). -/
def stoForward (s : State) (g : Nat) (m : List Byte) : State :=
  let side := 2 * (leAt m 6 1 % 8) + leAt m 6 1 / 8 % 2
  let hops := leAt m 7 1
  if hops ≤ 1 then s else sendStoat s g side (m.set 7 (BitVec.ofNat 8 (hops - 1)))

/-- A STO step starts in the back end (R343, R398, R403, R404, R419 to R423); a READY that came for it says that a member
issued another phase (R397). -/
def stoStart (s : State) (k id : Nat) : State :=
  match (s.ctx k).beq.find? (fun e => e.id = id) with
  | none => s
  | some e =>
    let g := e.imm % 4096
    let w := s.group g
    let n := bitsOf e.imm 22 16
    if w.state = 0 then stepEntryDone (recordFail s k stINTERNAL) k id else
    let s0 := s.setGroup g { w with
      endedSt := w.endedSt.drop e.step, fwd := w.fwd.filter (· ≠ e.step), kept := w.kept.filter (·.1 ≠ e.step) }
    -- an SFAIL of a step that ends before it begins spreads as SFAIL (R425)
    let fail (t : State) (st : Nat) (sf ab : Bool) : State :=
      let t1 := issueEnd { t with yar := { t.yar with stoats := t.yar.stoats.filter fun o => !(o.g = g && o.step = e.step) } }
        k id g e.step 7 st false false
      let t2 := if sf && spreads st then sendSFails t1 g e.step st (stoWire w.stoOp n) none else t1
      if ab then abortIfPriv t2 g e.step st else t2
    match issueStatus s g e.step 7 with
    | some (st, sf, ab) => fail s0 st sf ab
    | none =>
      if 8 ≤ stoOutstanding s then
        { entryWaits s k id [] with yar := { s.yar with stoWait := (s.yar.stoWait.filter (· ≠ (k, id))) ++ [(k, id)] } }
      else if !groupRunning s g ∧ 1024 ≤ groupsRunning s then
        { entryWaits s k id [] with yar := { s.yar with runWait := (s.yar.runWait.filter (· ≠ (k, id))) ++ [(k, id)] } }
      else if s.yar.grants.any (fun x => x.g = g && x.step = e.step) then fail (s0.bump YAR_CERR.MISMATCH 1) stINTERNAL true true
      else if !stoLenOk w.stoOp n then fail s0 stINTERNAL true true
      else
        match scratchAddr s k (e.vb % 65536) n 1, scratchAddr s k (e.vc % 65536) n 1 with
        | some a, some _ =>
          if scrPoisoned s a n then ctxFault (fail s0 stPOISON true true) k 5 stPOISON else
          let (val, drop, sat) := stoValue w (scrRead s a n)
          let len := stoWire w.stoOp n
          let held := (findSto s g e.step).getD { g := g, step := e.step, len := len }
          if held.len ≠ len then fail s0 stINTERNAL true true else
          let s1 := (s0.wrapAdd YAR_FLOOR_DROP.COUNT drop).bump YAR_ACNT0.SAT sat
          let o := { held with be := some (k, id), dst := e.vc % 65536, since := e.since, val := val, fwd := [], dim := 0 }
          let s3 := held.fwd.foldl (fun t m => stoForward t g m) (putSto (entryLeaves s1 k id) o)
          stoRun 8 (stoSendDim s3 o 0) g e.step
        | none, _ => ctxFault (fail s0 stINTERNAL true true) k 5 (e.vb % 65536)
        | _, none => ctxFault (fail s0 stINTERNAL true true) k 5 (e.vc % 65536)

/-- The link is an ADJ port of a created group (R422). -/
def stoPortOk (w : Group) (p : Nat) : Bool :=
  w.state = 1 && (List.range (2 * w.dims)).any fun i => w.hasNb i && w.adj (i / 2) && w.nbPort i = p

/-- SVAL (R421 to R423): combined into its slot at once; an issued operation forwards it. -/
def onSval (s : State) (p : Nat) (m : List Byte) : State :=
  let g := leAt m 2 2 % 4096
  let step := leAt m 4 2
  let dim := leAt m 6 1 % 8
  let neg := leAt m 6 1 / 8 % 2
  let len := leAt m 8 1
  let w := s.group g
  let val := (m.drop 16).take len
  let fail : State := match findSto s g step with
    | some o => settle (if o.be.isSome then failSto s g step stINTERNAL true else failElsewhere s g step stINTERNAL)
    | none => settle (failElsewhere s g step stINTERNAL)
  if !stoPortOk w p ∨ w.dims ≤ dim ∨ leAt m 7 1 = 0 then s.bump (LNK_ERR.PROTO p) 1
  else if (endedWith s g step).isSome then s
  else if leAt m 10 1 ≠ w.stoOp then fail
  else match findSto s g step with
  | none =>
    if 128 ≤ s.yar.stoats.length then s.bump (LNK_ERR.PROTO p) 1
    else putSto s { g := g, step := step, len := len, got := [(dim, [val])], fwd := [m] }
  | some o =>
    if len ≠ o.len then fail else
    let o1 := { o with
      got := o.got.put dim (o.got.get [] dim ++ [val])
      fwd := if o.be.isSome then [] else o.fwd ++ [m]
      lag := if o.be.isSome then
          some (2 * dim + (1 - neg), w.nbNode (2 * dim + (1 - neg)), min ((s.now - o.since) / 160000000) (2 ^ 32 - 1))
        else o.lag }
    let s1 := putSto s o1
    if o.be.isNone then s1 else settle (stoRun 8 (stoForward s1 g m) g step)

/-- SFAIL (R425): the STO ends with its status, and SFAIL goes on once to the other neighbours. -/
def onSfail (s : State) (p : Nat) (m : List Byte) : State :=
  let g := leAt m 2 2 % 4096
  let step := leAt m 4 2
  let st := leAt m 9 1
  let w := s.group g
  if !stoPortOk w p then s.bump (LNK_ERR.PROTO p) 1 else
  let side := (List.range (2 * w.dims)).find? fun i => w.hasNb i && w.adj (i / 2) && w.nbPort i = p
  let s0 := s.bump YAR_CERR.FAIL_RX 1
  let s1 := if w.fwd.contains step then s0
    else sendSFails (s0.setGroup g { w with fwd := w.fwd ++ [step] }) g step st (leAt m 8 1) side
  match findSto s1 g step with
  | some o => settle (if o.be.isSome then failSto s1 g step st false else failElsewhere s1 g step st)
  | none => settle (failElsewhere s1 g step st)

/-- A Stoat message arrives at port `p` (R182, R422): its place is freed at once; one of another TYPE, or with no group to
take it, is discarded and counted. -/
def stoatArrives (s : State) (p type : Nat) (m : List Byte) : State :=
  if m.length ≠ 96 ∨ leAt m 0 1 ≠ 2 ∨ leAt m 1 1 ≠ type then s else
  let s1 := takeBypass s p m
  if type = 1 then onSval s1 p m else onSfail s1 p m

/-- GROUP_RUN_ADMIT (R404): the first step stalled for the bound on running groups starts. -/
def groupRunAdmit (s : State) : State :=
  match s.yar.runWait with
  | [] => s
  | (k, id) :: rest =>
    match (s.ctx k).beq.find? (fun e => e.id = id) with
    | none => { s with yar := { s.yar with runWait := rest } }
    | some e =>
      if !groupRunning s (e.imm % 4096) ∧ 1024 ≤ groupsRunning s then s else
      let s1 := { s with yar := { s.yar with runWait := rest } }
      if e.opcode = 0x66 then stoStart s1 k id else collStart s1 k id (e.opcode - 0x5F)

/-- STO_ADMIT (R423): the first stalled STO step starts. -/
def stoAdmit (s : State) : State :=
  match s.yar.stoWait with
  | [] => s
  | (k, id) :: rest => if 8 ≤ stoOutstanding s then s else stoStart { s with yar := { s.yar with stoWait := rest } } k id

-- The front end (R343, R344)

/-- A group as the issue of a step leaves it: the count, the latest CX, and SELF_LATE for a step whose grants or data came
first (R343, R407, R418). -/
def issuedGroup (s : State) (op g : Nat) (c : CxRec) : Group :=
  let v := s.group g
  let n := v.issued
  let late := s.yar.grants.any (fun e => e.g = g && e.step = n) || s.yar.early.any (fun e => e.g = g && e.step = n) ||
    s.yar.stoats.any fun o => o.g = g && o.step = n
  { v with
    issued := (n + 1) % 65536
    cx := if op = 0x65 ∧ v.state ≠ 0 then some c else v.cx
    selfLate := if late ∧ v.state ≠ 0 then min (v.selfLate + 1) 65535 else v.selfLate }

/-- A collective step instruction at issue: g[d] takes the number of steps issued on the group, and it enters the back-end
queue (R326, R343), with what the issue fixes for it (R407, R418, R449). `extra` refuses fields of its own. -/
def collIssue (op : Nat) (f : Form) (extra : Nat → Bool) (s : State) (k : Nat) : State :=
  issue op f (fun s w => extra w || cntRefused 12 k s w)
    (fun s k w =>
      let g := iImm w % 4096
      let v := s.group g
      let c := s.ctx k
      if 16 ≤ c.queued then s else
      let s1 := enqueue false (if bitOf (iImm w) 12 then some (iFn w) else none) 0 0 s k w v.issued
      let c1 := (s1.ctx k).setG (iD w) v.issued
      let s2 := s1.setCtx k { c1 with beq := c1.beq.map fun e => if e.id = c.nextId then
        { e with
          since := s.now
          upd := if op = 0x63 ∧ v.update < 256 then updRecord s v.update else []
          stg := if v.foxStage < 256 then stageCfg s v.foxStage else []
          cx := if op = 0x64 ∧ bitOf (iImm w) 13 then v.cx else none } else e }
      s2.setGroup g (issuedGroup s op g { step := v.issued, dwin := bitsOf (iImm w) 47 32, off := c.gr (iC w) })) s k

/-- The form of rs, ag, ar, rug and cx; a2a may set VAR (R343). -/
def formColl (var_ : Bool) : Form :=
  { d := .reg, a := .reg, b := .reg, c := .reg, fn := 0xFFFF
    imm := 0xFFFFFFFF1FFF + (if var_ then 0x2000 else 0) }

/-- The form of sto: length in IMM[22:16] (R343). -/
def formSto : Form := { d := .reg, b := .reg, c := .reg, fn := 0xFFFF, imm := 0x7F1FFF }

/-- A STO whose length is not 1 to 64 bytes (R343). -/
def stoRefused (w : Nat) : Bool := bitsOf (iImm w) 22 16 = 0 || 64 < bitsOf (iImm w) 22 16

/-- gstat (R343): the group's first failure, steps ended and outstanding; FN[0] clears the failure after the read. -/
def gstatInstr (s : State) (k : Nat) : State :=
  issue 0x67 { d := .reg, fn := 1, imm := 0xFFF } noExtra
    (fun s k w =>
      let g := iImm w
      let v := s.group g
      let r := if v.state = 0 then 0 else v.failSt + 2 ^ 16 * v.ended + 2 ^ 32 * (stepsOut s g % 65536)
      let s1 := s.setCtx k { (s.ctx k).setG (iD w) r with pc := nextPc (s.ctx k).pc }
      if bitOf (iFn w) 0 ∧ v.state ≠ 0 then s1.setGroup g { v with failSt := 0, failStep := 0 } else s1) s k

/-- fxlw (R344, R464): a mask of zero raises FIELD. -/
def fxlwInstr (s : State) (k : Nat) : State :=
  issue 0x70 { a := .reg, b := .reg, fn := 0xFFFF, imm := 0xFF + 0xFFFF * 2 ^ 32 + 2 ^ 51 } (fun s w => iImm w % 16 = 0 || cntRefused 51 k s w)
    (fun s k w => enqueue false (if bitOf (iImm w) 51 then some (iFn w) else none) 0 0 s k w) s k

/-- fxcm (R344, R465). -/
def fxcmInstr (s : State) (k : Nat) : State :=
  issue 0x71 { fn := 0xFFFF, imm := 0xF + 2 ^ 51 } (fun s w => iImm w % 16 = 0 || cntRefused 51 k s w)
    (fun s k w => enqueue false (if bitOf (iImm w) 51 then some (iFn w) else none) 0 0 s k w) s k

/-- fxpass (R344, R480): stages 256 to 4,095 raise FIELD. -/
def fxpassInstr (s : State) (k : Nat) : State :=
  issue 0x72 { a := .reg, b := .reg, c := .reg, fn := 0xFFFF, imm := 0xFFFFFFFF1FFF } (fun s w => 256 ≤ iImm w % 4096 || cntRefused 12 k s w)
    (fun s k w => enqueue false (if bitOf (iImm w) 12 then some (iFn w) else none) 0 0 s k w) s k

/-- A Foxglove instruction starts in the back end: it joins the queue, or stalls on a full one (R344, R464, R465, R480,
R483). -/
def foxStart (s : State) (k : Nat) (e : BeEntry) : State :=
  if !foxRoom s then s else
  let s1 := entryLeaves s k e.id
  let st := e.imm % 4096
  let c := stageCfg s st
  match e.opcode with
  | 0x70 => foxEnqueue s1 { id := 0, kind := .load, ctx := k, be := e.id, tiles := e.imm % 16, slot := bitsOf e.imm 7 4
                            len := e.va, win := bitsOf e.imm 47 32, off := e.vb }
  | 0x71 => foxEnqueue s1 { id := 0, kind := .commit, ctx := k, be := e.id, tiles := e.imm % 16 }
  | _ => foxEnqueue s1 { id := 0, kind := .pass, ctx := k, be := e.id, tiles := if stgKind c = 0 then stgTiles c else 0
                         len := e.va, win := bitsOf e.imm 31 16, off := e.vb, dwin := bitsOf e.imm 47 32, doff := e.vc
                         stage := st, cfg := c }

end Sys2Proof.Machine
end

