-- ==== Sys2Proof/Machine/XptEnd.lean ====
section
/-! DEFINITION. Transport, the end of packets and operations at the initiator (R266, R269, R280 to R282, R286, R288,
R340): responses, retransmission, unreachable peers, resynchronisation, and what an operation's end does. -/
namespace Sys2Proof.Machine

-- What an operation's end reaches

/-- A back-end entry ends with a status: its descriptor completes (R104), or its failure is recorded for FENCE, ATOM
writes its register and predicate, and the CNT add follows (R339 to R341). -/
def entryEnd (s : State) (k id st bytes result : Nat) : State :=
  match (s.ctx k).beq.find? (fun e => e.id = id) with
  | none => s
  | some e =>
    match e.desc with
    | some (q, i) => descDone (dropEntry s k id) q i st bytes result
    | none =>
      let s1 := if st = stOK then s else failEntry s k id st
      let c := s1.ctx k
      let s2 := if e.opcode = 0x42 && !e.muted then
          s1.setCtx k { (c.setG e.d (if st = stOK then result else 0)).setP (e.imm / 256 % 8) (st = stOK) with
            astat := if st = stOK then c.astat else st }
        else s1
      applyCnt (dropEntry s2 k id) e.cnt

/-- What the end of an operation with a status does (R266, R286, R339, R373, R411). -/
def opEnd (s : State) (o : XOp) (st : Nat) : State :=
  match o.owner with
  | .entry k id => entryEnd s k id st o.doneBytes o.result
  | .trig t => if st = stOK then s else actionFails s t st
  | .notice =>
    if st = stFENCED ∨ st = stUNREACHABLE then report (s.bump XPT_ERR2.BAD 1) 0x0F 2 0x02 o.dest else s
  | .coll y => collEnd s y o st

/-- The status of an operation whose packets all have an outcome (R266). -/
def XOp.status (o : XOp) : Nat := match o.fail with | some f => f.2 | none => stOK

/-- An operation completes when every packet it has sent has an outcome and no more are to be sent (R266). -/
def opCheck (s : State) (i : Nat) : State :=
  match s.xop i with
  | none => s
  | some o => if o.out = 0 ∧ (o.fail.isSome ∨ o.allMade) then opEnd (s.dropXop i) o o.status else s

/-- Host reads and writes for the packet of a TAG no longer concern it. -/
def abandonTag (s : State) (t : Nat) : State :=
  { s with hmp := { s.hmp with xfers := s.hmp.xfers.map fun e =>
      match e.2.k with
      | .putSource u => if u = t then (e.1, { e.2 with k := .none }) else e
      | .getData u _ => if u = t then (e.1, { e.2 with k := .none }) else e
      | _ => e } }

/-- The earlier of two failures by offset (R266). -/
def firstFail (a : Option (Nat × Nat)) (off st : Nat) : Option (Nat × Nat) :=
  match a with | some f => if f.1 ≤ off then some f else some (off, st) | none => some (off, st)

/-- After a failure no packet of the operation that has not been sent is sent (R266). -/
def dropUnsent (s : State) (i : Nat) : State :=
  let l := s.xpt.oot.filter fun e => e.2.op = i && e.2.state = 1
  let s1 := l.foldl (fun t e => abandonTag (t.dropEntry e.1) e.1) s
  match s1.xop i with
  | none => s1
  | some o => s1.putXop { o with out := o.out - l.length }

/-- A packet has an outcome: its entry is free, its sequence number resolved (R266, R282, R284). -/
def packetEnd (s : State) (t st result : Nat) : State :=
  match s.entry t with
  | none => s
  | some e =>
    match s.xop e.op with
    | none => s.dropEntry t
    | some o =>
      let moved := if (e.opcode = 0x01 ∨ e.opcode = 0x02) ∧ st = stOK then e.len else 0
      let o1 := { o with
        out := o.out - 1, doneBytes := o.doneBytes + moved
        result := if st = stOK then result else o.result
        fail := if st = stOK then o.fail else firstFail o.fail e.poff st }
      let s1 := (abandonTag (s.dropEntry t) t).putXop o1
      opCheck (if st = stOK then s1 else dropUnsent s1 o.id) o.id

/-- An operation ends without a further packet (R29, R269, R281, R306). -/
def failOp (s : State) (i st : Nat) : State :=
  match s.xop i with
  | none => s
  | some o => opCheck (dropUnsent (s.putXop { o with fail := firstFail o.fail o.made st }) i) i

-- Responses (R282)

/-- The entry in flight that a response names by TAG, STAG and SEQ; `peer` says that SRC counts too. An entry that waits
for a new numbering has none to be named by. -/
def liveEntry (s : State) (p : Pkt) (peer : Bool) : Option OotEntry :=
  match s.entry p.tag with
  | some e =>
    if e.state = 2 ∧ e.stag = p.stag ∧ e.seq = p.seq ∧ !e.writing ∧ (peer → e.peer = p.src) then some e else none
  | none => none

/-- A response reaches the initiator: malformed or stray ones are discarded and counted (R264, R282). -/
def takeResponse (s : State) (p : Pkt) (peer : Bool) (use : State → OotEntry → State) : State :=
  if !p.intact then s.bump XPT_ERR2.BAD 1
  else match liveEntry s p peer with
  | none => s.bump XPT_ERR.STRAY 1
  | some e => use s e

/-- ACK (R282). -/
def ackArrives (s : State) (p : Pkt) : State := takeResponse s p true fun s _ => packetEnd s p.tag p.status 0

/-- RESULT (R282, R340). -/
def resultArrives (s : State) (p : Pkt) : State :=
  takeResponse s p true fun s _ => packetEnd s p.tag p.status (leAt p.payload 0 8)

/-- DATA (R282): with OK its bytes are written through the local translation, and the entry retires with the write's
responses. -/
def dataArrives (s : State) (p : Pkt) : State :=
  takeResponse s p true fun s e =>
    match s.xop e.op with
    | none => packetEnd s p.tag p.status 0
    | some o =>
      if p.status = stOK ∧ e.opcode = 0x02 then
        hmpScatter ((s.putEntry p.tag { e with writing := true, deadline := none }).putXop { o with accessed := true }) 0
          (cutExt o.ext e.poff e.len) (p.payload.take e.len) (.getData p.tag e.len)
      else packetEnd s p.tag p.status 0

/-- The write of a GET packet's DATA is answered: a failed one is recorded against the context as a late failure, a timeout
completes the packet (R92, R94). -/
def getDataDone (s : State) (t : Nat) (x : Xfer) : State :=
  match s.entry t with
  | none => s
  | some e =>
    if x.status = stTIMEOUT then packetEnd s t stTIMEOUT 0
    else if x.status ≠ stOK ∧ e.ctx < noCtx then
      packetEnd (synAdd (recordLate s e.ctx x.status) (errorCounterOf e.ctx) 1) t stOK 0
    else packetEnd s t stOK 0

/-- A stream changes numbering (R288): packets that are not idempotent complete with `st`, PUT and GET packets wait for the
new numbering, a PUT's source being read again (R280); `half` is the state of the sending half. -/
def renumber (s : State) (i st half : Nat) : State :=
  let l := (inFlightOf s i).filter fun e => !e.2.writing
  let s1 := s.setPeer i { s.peer i with
    txState := half, syncEnd := none, syncAttempt := 0
    syncHold := if half = 4 then max (s.peer i).syncHold (s.now + s.lifetime) else (s.peer i).syncHold }
  l.foldl (fun t e =>
    if !e.2.idempotent then packetEnd t e.1 st 0
    else
      let e1 := { e.2 with state := 3, deadline := none, attempt := 0 }
      match e.2.opcode, t.xop e.2.op with
      | 0x01, some o =>
        hmpGather ((abandonTag t e.1).putEntry e.1 { e1 with ready := false, payload := [] }) 0
          (cutExt o.ext e1.poff e1.len) (.putSource e.1)
      | _, _ => t.putEntry e.1 e1) s1

/-- RESYNC (R282, R288): FENCED and POISON select the row. -/
def resyncArrives (s : State) (p : Pkt) : State :=
  takeResponse s p true fun s e =>
    renumber s (streamOf e.peer e.tc) (if p.status = stFENCED then stFENCED else stUNREACHABLE) 3

-- Unreachable peers and refused handshakes (R269, R281)

/-- Operations toward a peer that hold no entry yet. -/
def unopenedTo (s : State) (peer : Nat) : List Nat :=
  (s.xpt.ops.filter fun e => e.2.dest = peer && !e.2.allMade && e.2.fail.isNone).map (·.1)

/-- PEER_UNREACHABLE (R281). -/
def peerUnreachable (s : State) (peer : Nat) : State :=
  let s1 := report (s.bump XPT_EVT.UNREACH 1) 0x0F 3 0x01 peer
  let lost (t : State) (i : Nat) : State := t.setPeer i { t.peer i with txState := 3, syncEnd := none, syncAttempt := 0 }
  let s2 := lost (lost s1 (2 * peer)) (2 * peer + 1)
  let s3 := ((s2.xpt.oot.filter fun e => e.2.peer = peer && !e.2.writing).map (·.1)).foldl
    (fun t e => packetEnd t e stUNREACHABLE 0) s2
  (unopenedTo s3 peer).foldl (fun t i => failOp t i stUNREACHABLE) s3

/-- The stream whose pending SYNC has a STAG. -/
def syncOf (s : State) (stag : Nat) : Option Nat :=
  (List.find? (fun e : Nat × Peer => e.2.txState = 1 && e.2.syncStag = stag) s.xpt.peers).map (·.1)

/-- A SYNC is refused for its key (R269): every waiting operation of that key completes with PARTITION, and the stream
returns to its earlier state. -/
def syncRefused (s : State) (i : Nat) : State :=
  let p := s.peer i
  let s1 := s.setPeer i { p with txState := p.before, syncEnd := none, syncAttempt := 0 }
  let waits := (s1.xpt.oot.filter fun e => e.2.state ≠ 2 && streamOf e.2.peer e.2.tc = i).filter fun e =>
    match s1.xop e.2.op with | some o => o.pkey = p.syncPkey | none => false
  let s2 := (waits.map (·.1)).foldl (fun t e => packetEnd t e stPARTITION 0) s1
  let ops := (s2.xpt.ops.filter fun e =>
    streamOf e.2.dest e.2.tc = i && e.2.pkey = p.syncPkey && !e.2.allMade && e.2.fail.isNone).map (·.1)
  ops.foldl (fun t o => failOp t o stPARTITION) s2

/-- ROUTER_NAK (R24, R269, R282). -/
def routerNakArrives (s : State) (p : Pkt) : State :=
  if !p.intact then s.bump XPT_ERR2.BAD 1 else
  match (if p.seq = 0 then syncOf s p.stag else none) with
  | some i =>
    if p.status = stPARTITION then syncRefused s i
    else
      let s1 := s.bump XPT_ERR3.RNAK_UNREACH 1
      if s.rd XPT_CFG.ATTEMPTS ≤ (s.peer i).syncAttempt then peerUnreachable s1 (i / 2) else s1
  | none =>
    match liveEntry s p false with
    | none => s.bump XPT_ERR.STRAY 1
    | some e =>
      if p.status = stPARTITION then packetEnd s p.tag stPARTITION 0
      else
        let s1 := s.bump XPT_ERR3.RNAK_UNREACH 1
        if s.rd XPT_CFG.ATTEMPTS ≤ e.attempt then peerUnreachable s1 e.peer else s1

/-- The router refuses a local packet's key at injection (R237): a request's operation completes with PARTITION, a SYNC is
refused. -/
def injectRefused (s : State) (p : Pkt) : State :=
  if p.rsp then s
  else if p.opcode = 0x08 then
    match syncOf s p.stag with | some i => syncRefused s i | none => s
  else
    match s.entry p.tag with
    | some e => if e.state = 2 ∧ e.stag = p.stag ∧ e.seq = p.seq then packetEnd s p.tag stPARTITION 0 else s
    | none => s

-- Retransmission (R280)

/-- RETX_TMO of table entry `t` (R280, R281): the next attempt, whose PUT bytes are read again, or the end of the last. -/
def entryTmo (s : State) (t : Nat) : State :=
  match s.entry t with
  | none => s
  | some e =>
    if e.state ≠ 2 ∨ !s.due e.deadline then s
    else if s.rd XPT_CFG.ATTEMPTS ≤ e.attempt then peerUnreachable s e.peer
    else
      let s1 := s.bump XPT_EVT.RETX 1
      let e1 := { e with attempt := e.attempt + 1 }
      match e.opcode, s.xop e.op with
      | 0x01, some o =>
        hmpGather (s1.putEntry t { e1 with ready := false, payload := [], deadline := none }) 0 (cutExt o.ext e.poff e.len)
          (.putSource t)
      | _, _ => transmit s1 t e1

/-- RETX_TMO of the SYNC of stream `i` (R269, R280, R281). -/
def syncTmo (s : State) (i : Nat) : State :=
  let p := s.peer i
  if p.txState ≠ 1 ∨ !s.due p.syncEnd then s
  else if s.rd XPT_CFG.ATTEMPTS ≤ p.syncAttempt then peerUnreachable s (i / 2)
  else sendSync (s.bump XPT_EVT.RETX 1) i (p.syncAttempt + 1)

/-- The source bytes of a PUT packet have been read (R22 step 4, R92, R280): the packet begins, or its next attempt
leaves. -/
def putSourceDone (s : State) (t : Nat) (x : Xfer) : State :=
  match s.entry t with
  | none => s
  | some e =>
    if x.status ≠ stOK then packetEnd s t x.status 0
    else
      let e1 := { e with ready := true, payload := x.data }
      if e.state = 2 then transmit s t e1 else pumpStream (s.putEntry t e1) (streamOf e.peer e.tc)

/-- SEQ_BUDGET_RELEASE (R271): what waits on stream `i` begins as far as the window and the budget allow. -/
def seqBudgetRelease (s : State) (i : Nat) : State := pumpStream s i

/-- OOT_ALLOCATE (R284): an operation that stalled takes the entries that have become available. -/
def ootAllocate (s : State) (i : Nat) : State :=
  match s.xop i with
  | some o => if o.fail.isNone then launch (o.len + 2) s i else s
  | none => s

/-- NOTICE, FAIL, ABORT and the handshake go on while the block is fenced (R29). -/
def XOp.control (o : XOp) : Bool :=
  match o.owner with | .notice => true | .coll _ => 0x25 ≤ o.opcode | _ => false

/-- The fence reaches transport (R29): operations that are not open complete with FENCED and send nothing. -/
def fenceXpt (s : State) : State :=
  ((s.xpt.ops.filter fun e => !e.2.opened && !e.2.control).map (·.1)).foldl (fun t i => failOp t i stFENCED) s

/-- The scrubber finds a table entry uncorrectable (R288, R583). -/
def ootPoison (s : State) (t : Nat) : State := packetEnd s t stPOISON 0

/-- The scrubber finds a half of a Peer State Table entry uncorrectable (R35, R267, R288): both halves are INVALID. -/
def peerPoison (s : State) (i : Nat) : State :=
  renumber (s.setPeer i { s.peer i with rxState := 4 }) i stUNREACHABLE 4

end Sys2Proof.Machine
end

