-- ==== Sys2Proof/Machine/BackEnd.lean ====
section
/-! DEFINITION. The Marten back end (R326 to R328, R337 to R340): scratch, local-window and remote instructions, queue
descriptors (R102, R103), trigger deliveries (R370 to R373), revocation (R306) and the fill of chunk list lines (R304). -/
namespace Sys2Proof.Machine

-- The front end of back-end instructions (R337, R339)

/-- The IMM bits of a local window. -/
def immWin : Nat := 0xFFFF * 2 ^ 32
/-- The CNT bit of local copies and remote operations. -/
def immCnt : Nat := 2 ^ 51
/-- Traffic class, CNT and ORDER of a remote operation. -/
def immRemote : Nat := 7 * 2 ^ 48 + 2 ^ 51 + 2 ^ 52

/-- The sync object of an instruction, where its CNT bit is 1. -/
def cntOf (bit w : Nat) : Option Nat := if bitOf (iImm w) bit then some (iFn w) else none

/-- ldw at issue (R337). -/
def ldwInstr (s : State) (k : Nat) : State :=
  issue 0x38 { d := .reg, b := .reg, fn := 0x6, imm := immWin } noExtra (fun s k w => enqueue false none (iD w) 0 s k w) s k

/-- stw at issue (R337). -/
def stwInstr (s : State) (k : Nat) : State :=
  issue 0x39 { b := .reg, c := .reg, fn := 0x6, imm := immWin } noExtra (fun s k w => enqueue false none 0 0 s k w) s k

/-- cpin and cpout at issue (R337, R360). -/
def copyInstr (op : Nat) (s : State) (k : Nat) : State :=
  issue op { a := .reg, b := .reg, c := .reg, fn := 0xFFFF, imm := immWin + immCnt } (cntRefused 51 k)
    (fun s k w => enqueue false (cntOf 51 w) 0 0 s k w) s k

/-- put and get at issue (R339, R360). -/
def bulkInstr (op : Nat) (s : State) (k : Nat) : State :=
  issue op { a := .reg, b := .reg, c := .reg, fn := 0xFFFF, imm := 0xFFFFFFFF + immWin + immRemote } (cntRefused 51 k)
    (fun s k w => enqueue (bitOf (iImm w) 52) (cntOf 51 w) 0 0 s k w) s k

/-- An ATOM whose fields are refused: C = 31 with COMPARE_SWAP, or a function that is not defined (R339). -/
def atomRefused (w : Nat) : Bool := (iC w = 31 && iImm w % 32 = 5) || !atomicOk (iImm w % 32) (bitOf (iImm w) 5)

/-- atom at issue (R339, R340): g[d] and the predicate of IMM[10:8] become pending; it reads g[C+1] too. -/
def atomInstr (s : State) (k : Nat) : State :=
  issue 0x42 { d := .reg, a := .reg, b := .reg, c := .reg, fn := 0xFFFF, imm := 0x73F + immRemote }
    (fun s w => atomRefused w || cntRefused 51 k s w)
    (fun s k w =>
      let c := s.ctx k
      let pd := iImm w / 256 % 8
      if c.pendG.contains (iC w + 1) ∨ c.pendP.contains pd then s
      else enqueue (bitOf (iImm w) 52) (cntOf 51 w) (iD w) pd s k w) s k

/-- signal at issue (R339, R360). -/
def signalInstr (s : State) (k : Nat) : State :=
  issue 0x43 { a := .reg, c := .reg, fn := 0xFFFF, imm := immRemote } (cntRefused 51 k)
    (fun s k w => enqueue (bitOf (iImm w) 52) (cntOf 51 w) 0 0 s k w) s k

-- Starting an entry (R327)

/-- Changes a back-end entry. -/
def updEntry (s : State) (k id : Nat) (f : BeEntry → BeEntry) : State :=
  let c := s.ctx k
  s.setCtx k { c with beq := c.beq.map fun e => if e.id = id then f e else e }

/-- A back-end entry that faults has no effect of its own and leaves; PC names its instruction (R338, R346, R356). -/
def entryFault (s : State) (k id cause info : Nat) : State :=
  let s1 := dropEntry s k id
  match (s.ctx k).beq.find? fun e => e.id = id with
  | some e => if e.muted || (s.ctx k).state = .faulted then s1 else
      ctxFault (s1.setCtx k { s1.ctx k with pc := e.pc }) k cause info
  | none => s1

/-- The access width of a scratch or local-window instruction. -/
def BeEntry.width (e : BeEntry) : Nat := 2 ^ bitsOf e.fn 2 1

/-- lds and sts (R331, R337). -/
def scratchStart (s : State) (k : Nat) (e : BeEntry) : State :=
  let a := (e.va + e.imm) % 65536
  match scratchAddr s k a e.width e.width with
  | none => entryFault s k e.id 5 a
  | some b =>
    if e.opcode = 0x30 then
      if scrPoisoned s b e.width then entryFault s k e.id 5 stPOISON
      else updEntry s k e.id fun x => { x with started := true, result := some (leNat (scrRead s b e.width)) }
    else updEntry (scrWrite s b (natLE e.width e.vc)) k e.id fun x => { x with started := true, result := some 0 }

/-- Resolves the pieces of a range in order, as far as their chunks are cached; the line that stops it (R304). -/
def resolvePieces (s : State) (w : Nat) : List (Nat × Nat) → List (Nat × Nat) × Option Nat
  | [] => ([], none)
  | (o, n) :: t =>
    match resolve s w o with
    | .miss l => ([], some l)
    | .at a => let r := resolvePieces s w t; ((a, n) :: r.1, r.2)

/-- Goes on with the translation of an entry's local range of `n` bytes at `off` of window `w`; what is resolved stays.
The Bool says that it is whole. -/
def resolveEntry (s : State) (k : Nat) (e : BeEntry) (w off n : Nat) : State × BeEntry × Bool :=
  let have_ := (e.ext.map (·.2)).sum
  let r := resolvePieces s w (piecesOf s w (off + have_) (n - have_))
  let e1 := { e with started := true, ext := e.ext ++ r.1, lines := match r.2 with | some l => [(w, l)] | none => [] }
  let s1 := updEntry s k e.id fun _ => e1
  match r.2 with
  | some l => (fillLine s1 w l, e1, false)
  | none => (s1, e1, true)

/-- Local window and offset of an LDW, STW, CPIN or CPOUT (R337). -/
def BeEntry.lwin (e : BeEntry) : Nat := bitsOf e.imm 47 32
def BeEntry.loff (e : BeEntry) : Nat := e.vb % 2 ^ 48

/-- Bytes of a list with the runs that lie in words of scratch that are not poisoned: offset and length (R338). -/
def goodRuns (s : State) (b : Nat) : Nat → Nat → Nat → List (Nat × Nat)
  | 0, _, _ => []
  | fuel + 1, o, n =>
    if n ≤ o then [] else
    let m := min (8 - (b + o) % 8) (n - o)
    if scrPoisoned s (b + o) m then goodRuns s b fuel (o + m) n else (o, m) :: goodRuns s b fuel (o + m) n

/-- The access of a local-window entry whose translation is whole (R337, R338). -/
def localAccess (s : State) (k : Nat) (e : BeEntry) : State :=
  match e.opcode with
  | 0x38 => hmpGather s 0 e.ext (.backEnd k e.id)
  | 0x39 => hmpScatter (entryLeaves s k e.id) 0 e.ext (natLE e.width e.vc) (.backEnd k e.id)
  | 0x3A => hmpGather (entryLeaves s k e.id) 0 e.ext (.backEnd k e.id)
  | _ =>
    let runs := goodRuns s e.base (e.va + 1) 0 e.va
    let bad := scrPoisoned s e.base e.va
    let s1 := updEntry (entryLeaves s k e.id) k e.id fun x => { x with bad := if bad then stPOISON else 0 }
    if runs.isEmpty then entryEnd s1 k e.id stPOISON 0 0
    else hmpScatter s1 0 (runs.flatMap fun r => cutExt e.ext r.1 r.2) (runs.flatMap fun r => scrRead s (e.base + r.1) r.2)
      (.backEnd k e.id)

/-- LDW, STW, CPIN and CPOUT (R337, R338): a copy of length 0 does nothing; a refused access raises LOCAL. -/
def localStart (s : State) (k : Nat) (e : BeEntry) : State :=
  let copy := e.opcode = 0x3A ∨ e.opcode = 0x3B
  let n := if copy then e.va else e.width
  if copy ∧ n = 0 then dropEntry s k e.id else
  match (if copy then scratchAddr s k e.vc n 1 else some 0) with
  | none => entryFault s k e.id 5 e.vc
  | some b =>
    let need : Need := if e.opcode = 0x39 ∨ e.opcode = 0x3B then .wr else .rd
    let st := if !copy ∧ e.loff % n ≠ 0 then stBOUND else localCheck (s.win e.lwin) (s.ctxPkey k) need e.loff n
    if e.ext.isEmpty ∧ st ≠ stOK then entryFault (countTgtErr s st) k e.id 6 st
    else
      let r := resolveEntry s k { e with base := b } e.lwin e.loff n
      if r.2.2 then localAccess r.1 k r.2.1 else r.1

-- Remote operations (R22, R339)

/-- A remote operation as an instruction or a descriptor names it. -/
structure Remote where
  opcode : Nat
  dest : Nat
  tc : Nat
  win : Nat
  off : Nat
  lwin : Nat
  loff : Nat
  len : Nat
  fn : Nat
  w8 : Bool
  op0 : Nat
  op1 : Nat
deriving DecidableEq, Repr

/-- The operands of PUT, GET, ATOM and SIGNAL (R339). -/
def remoteOfInstr (e : BeEntry) : Remote :=
  { opcode := e.opcode - 0x3F, dest := bitsOf e.va 35 16, tc := bitsOf e.imm 50 48, win := e.va % 65536, off := e.vb % 2 ^ 48
    lwin := e.lwin, loff := e.vc % 2 ^ 48, len := e.imm % 2 ^ 32, fn := e.imm % 32, w8 := bitOf e.imm 5
    op0 := e.vc, op1 := e.vc1 }

/-- The fields of a descriptor in place of the operands (R101, R328). -/
def remoteOfDesc (d : Desc) : Remote :=
  { opcode := d.opcode, dest := d.dest, tc := d.tc, win := d.remoteWin, off := d.remoteOff, lwin := d.localWin
    loff := d.localOff, len := d.length, fn := d.fn, w8 := d.length = 8, op0 := d.op0, op1 := d.op1 }

/-- The descriptor of an entry that a queue handed over (R328). -/
def descOfEntry (s : State) (e : BeEntry) : Option Desc :=
  e.desc.bind fun x => (s.queue x.1).started.find? fun d => d.index = x.2

/-- The remote operation of an entry. -/
def remoteOf (s : State) (e : BeEntry) : Remote :=
  match descOfEntry s e with
  | some d => remoteOfDesc d
  | none => remoteOfInstr e

/-- An entry hands its operation to transport, and leaves the queue unless it holds a register pending (R326, R339). -/
def sendRemote (s : State) (k : Nat) (e : BeEntry) (r : Remote) (body : List Byte) : State :=
  let atom := r.opcode = 0x03 ∧ e.desc.isNone
  let s1 := if atom then updEntry s k e.id fun x => { x with started := true } else entryLeaves s k e.id
  startOp s1
    { owner := .entry k e.id, ctx := k, opcode := r.opcode, dest := r.dest, tc := r.tc, pkey := s.ctxPkey k, win := r.win
      off := r.off, len := if body.isEmpty then r.len else 1, ext := e.ext, lwin := r.lwin, fn := if r.opcode = 0x03 then r.fn else 0
      w8 := r.opcode = 0x03 && r.w8, payload := body }

/-- PUT, GET, ATOM and SIGNAL start (R22, R29, R339, R367): a SIGNAL to the block's own node is applied here. -/
def remoteStart (s : State) (k : Nat) (e : BeEntry) : State :=
  let r := remoteOf s e
  if s.fenced then entryEnd s k e.id stFENCED 0 0
  else if r.opcode = 0x04 then
    if r.dest = s.node then
      let x := applySignal s r.win (s.ctxPkey k) s.node r.op0
      entryEnd x.1 k e.id x.2 0 0
    else sendRemote s k e r (natLE 8 r.op0)
  else if r.opcode = 0x03 then sendRemote s k e r (natLE 8 r.op0 ++ natLE 8 r.op1)
  else if r.len = 0 then entryEnd s k e.id stOK 0 0
  else
    let st := localCheck (s.win r.lwin) (s.ctxPkey k) (if r.opcode = 0x01 then .rd else .wr) r.loff r.len
    if e.ext.isEmpty ∧ st ≠ stOK then entryEnd (countTgtErr s st) k e.id st 0 0
    else
      let x := resolveEntry s k e r.lwin r.loff r.len
      if x.2.2 then sendRemote x.1 k x.2.1 r [] else x.1

/-- Starts, or goes on with, an entry by its opcode (R326 to R328). -/
def runEntry (s : State) (k : Nat) (e : BeEntry) : State :=
  if e.opcode = 0x30 ∨ e.opcode = 0x31 then scratchStart s k e
  else if e.opcode = 0x44 then updEntry s k e.id fun x => { x with started := true }
  else if e.opcode < 0x40 then localStart s k e
  else if e.opcode < 0x60 then remoteStart s k e
  else if e.opcode = 0x66 then stoStart s k e.id
  else if e.opcode < 0x70 then collStart s k e.id (e.opcode - 0x5F)
  else foxStart s k e

/-- A local-window access of the context waits for a chunk line: later ones are issued to HMP after it (R327). -/
def localWaits (c : Ctxt) : Bool := c.beq.any fun e => 0x38 ≤ e.opcode && e.opcode ≤ 0x3B && !e.lines.isEmpty

/-- The entry reads or writes scratch while a CPIN that has started has still to write it: scratch reads and writes take
effect in start order (R327). -/
def scratchWaits (c : Ctxt) (e : BeEntry) : Bool :=
  [0x30, 0x31, 0x3A, 0x3B, 0x66].contains e.opcode && c.beq.any fun x => x.started && x.opcode = 0x3A

/-- The entry that the back end starts next, if it may start now (R327). -/
def nextStart (s : State) (k : Nat) : Option BeEntry :=
  let c := s.ctx k
  match c.beq.find? (fun e => !e.started) with
  | none => none
  | some e =>
    if (e.order && (c.beq.head?.map (·.id)) ≠ some e.id) || (0x38 ≤ e.opcode && e.opcode ≤ 0x3B && localWaits c) || scratchWaits c e ||
      !s.unitsRun || s.ctxHeld k then none else some e

/-- BACKEND_ENTRY_START (R327). -/
def entryStart (s : State) (k : Nat) : State := match nextStart s k with | some e => runEntry s k e | none => s

/-- A descriptor that a queue of context `k` accepted before the one of entry `e` has not started yet (R102). -/
def earlierWaits (s : State) (k : Nat) (e : BeEntry) : Bool :=
  match descOfEntry s e with
  | some d => s.queues.any fun x => x.2.context = k && !x.2.isClosed && x.2.waiting.any fun w => decide (w.seq < d.seq)
  | none => false

/-- BACKEND_ENTRY_DONE (R103, R326): an entry that has its result writes its register and frees its place; a FENCE
descriptor completes once every earlier descriptor of the context has. -/
def entryDone (s : State) (k id : Nat) : State :=
  let c := s.ctx k
  match c.beq.find? (fun e => e.id = id) with
  | none => s
  | some e =>
    if !e.started then s
    else if e.isFence then s
    else if e.opcode = 0x44 then
      if (c.beq.takeWhile fun x => x.id ≠ id).any (fun x => x.desc.isSome) || earlierWaits s k e then s
      else entryEnd (clearLate s k) k id (s.rd (XPT_LATE.STATUS k)) c.lateCount 0
    else match e.result with
    | some v => dropEntry (if e.opcode = 0x30 && !e.muted then s.setCtx k (c.setG e.d v) else s) k id
    | none => s

/-- The host access of a local-window entry has ended (R92, R338): LDW takes its value or raises LOCAL; the others record a
failure, and a copy writes to scratch what came with OK. -/
def backEndDone (s : State) (k id : Nat) (x : Xfer) : State :=
  match (s.ctx k).beq.find? (fun e => e.id = id) with
  | none => s
  | some e =>
    match e.opcode with
    | 0x38 =>
      if x.status = stOK then dropEntry (if e.muted then s else s.setCtx k ((s.ctx k).setG e.d (leNat x.data))) k id
      else entryFault s k id 6 x.status
    | 0x3A =>
      entryEnd ((x.got.filter (·.stat = 0)).foldl (fun t p => scrWrite t (e.base + p.off) p.bytes) s) k id x.status 0 0
    | _ => entryEnd s k id (if e.bad ≠ 0 then e.bad else x.status) 0 0

-- Queue descriptors (R102, R323, R328, R360)

/-- The descriptor at the head of queue `q`, where its context may start it, its completion ring is not full (R118) and it
has opcode `op`. -/
def descHead (s : State) (q op : Nat) : Option Desc :=
  let v := s.queue q
  let c := s.ctx v.context
  match v.waiting with
  | [] => none
  | d :: _ =>
    if d.opcode = op && (v.state = .opened || v.state = .closing) && c.state ≠ .faulted && s.unitsRun && !s.ctxHeld v.context &&
      c.queued < 16 && !v.full && !(d.ordered && !v.started.isEmpty) then some d else none

/-- A context takes the descriptor at the head of queue `q` into its back end, where it starts in its turn. One whose SYNC
object the context may not use completes with RIGHTS and has no other effect (R360). -/
def descStart (s : State) (q op : Nat) (run : State → Nat → Nat → State) : State :=
  match descHead s q op with
  | none => s
  | some d =>
    let v := s.queue q
    let k := v.context
    let s1 := s.setQueue q { v with waiting := v.waiting.drop 1 }
    if d.wantsCnt && !synMayUse s k d.sync then
      qComplete s1 q ({ d with flags := d.flags - 2 }.cplOf stRIGHTS 0 0 false)
    else
      let c := s1.ctx k
      let e : BeEntry := { id := c.nextId, opcode := if op = 5 then 0x44 else op + 0x3F, desc := some (q, d.index), order := d.ordered }
      let s2 := s1.setQueue q { s1.queue q with started := v.started ++ [d] }
      run (s2.setCtx k { c with beq := c.beq ++ [e], nextId := c.nextId + 1 }) k c.nextId

/-- A descriptor just taken starts at once where no earlier entry waits to start (R327). -/
def startIfNext (s : State) (k id : Nat) : State :=
  match nextStart s k with
  | some e => if e.id = id then runEntry s k e else s
  | none => s

/-- DESC_NOP: it completes with OK (R102). -/
def descNop (s : State) (q : Nat) : State := descStart s q 0 fun t k id => entryEnd t k id stOK 0 0

-- Trigger deliveries (R370 to R373)

/-- HMP has a tag for a request at `a` (R370). -/
def tagFree (s : State) (a : Nat) : Bool :=
  let h := s.chan (hmpChanOf s.chanCount a)
  h.outstanding < s.rd HMP_CFG.TAG_LIMIT && !(h.freeTags s.now).isEmpty

/-- TRIGGER_DELIVERY (R370, R371, R373, R578): the front of the delivery queue is delivered, or moves to the back. -/
def triggerDelivery (s : State) : State :=
  if !s.unitsRun then s else
  match s.syn.deliv with
  | [] => s
  | t :: _ =>
    let e := s.trig t
    let a := e.arg
    match e.action with
    | 0 => delivered s t
    | 1 =>
      let f := SYN_IRQ_PEND.PEND (t / 32)
      delivered (s.wr f (s.rd f ||| 2 ^ (t % 32))) t
    | 2 => if tagFree s a then hmpWrite (delivered s t) 4 a (natLE 8 e.value) (.hostWr t) else redeliver s t
    | 3 =>
      let o := a % 65536
      if s.objPoisoned o then actionFails (delivered s t) t stPOISON else synAdd (delivered s t) o (bitsOf a 47 16)
    | 4 =>
      let node := a % 2 ^ 20
      let obj := bitsOf a 35 20
      let tc := bitsOf a 54 52
      let key := s.ctxPkey e.ctx
      if s.fenced then actionFails (delivered s t) t stFENCED
      else if node = s.node then
        let x := applySignal (delivered s t) obj key s.node (bitsOf a 51 36)
        if x.2 = stOK then x.1 else actionFails x.1 t x.2
      else if !ootRoom s e.ctx ∨ !seqRoom s (streamOf node tc) then redeliver s t
      else startOp (delivered s t)
        { owner := .trig t, ctx := e.ctx, opcode := 0x04, dest := node, tc := tc, pkey := key, win := obj
          payload := natLE 8 (bitsOf a 51 36), len := 1 }
    | _ =>
      let k := a % 512
      if !trgDiscards s k ∧ 64 ≤ (s.ctx k).fifo.length then redeliver s t
      else tokenTo (delivered s t) k (bitsOf a 31 16)

/-- The write of a HOSTWR is answered (R373). -/
def hostWrDone (s : State) (t : Nat) (x : Xfer) : State := if x.status = stOK then s else actionFails s t x.status

-- Revocation (R26, R306)

/-- A back-end entry ends because its window is revoked before its first access: a local-window access raises LOCAL (R26,
R306, R338). -/
def entryRevoked (s : State) (k : Nat) (e : BeEntry) : State :=
  if 0x38 ≤ e.opcode ∧ e.opcode ≤ 0x3B then entryFault s k e.id 6 stREVOKED else entryEnd s k e.id stREVOKED 0 0

/-- The entries of core `c` that hold a translation of a window concerned. -/
def coreHolds (s : State) (c : Nat) : List (Nat × BeEntry) :=
  (s.ctxs.filter fun e => e.1 / 32 = c).flatMap fun e =>
    (e.2.beq.filter fun b => b.started && ((0x38 ≤ b.opcode && b.opcode ≤ 0x3B && winConcerned s b.lwin) ||
      ((b.opcode = 0x40 || b.opcode = 0x41) && !b.lines.isEmpty && winConcerned s (remoteOf s b).lwin))).map fun b => (e.1, b)

/-- A Foxglove pass or load of core `c` that holds such a translation. -/
def foxHolds (s : State) (c : Nat) : Bool :=
  s.fox.running.any fun e => e.kind ≠ .group && e.ctx / 32 = c &&
    (winConcerned s e.win || (e.kind = .pass && (winConcerned s e.dwin || (stgErrfb e.cfg && winConcerned s (stgResWin e.cfg)))))

/-- A PUT or GET through a window concerned. -/
def opConcerned (s : State) (o : XOp) : Bool := (o.opcode = 0x01 || o.opcode = 0x02) && winConcerned s o.lwin

/-- Windows of a step are concerned (R306). -/
def stepConcerned (s : State) (v : YStep) : Bool :=
  winConcerned s v.swin || winConcerned s v.dwin || winConcerned s (s.group v.g).mlistWin ||
    (v.phase = 4 && updEs v.upd ≠ 0 && winConcerned s (updWin v.upd)) ||
    s.fox.running.any fun e => e.kind = .group && stgErrfb e.cfg && winConcerned s (stgResWin e.cfg)

/-- What engine `e` does with translations of the windows concerned (R306). -/
def revokeAct (s : State) (e : Nat) : State :=
  if e < 16 then
    let s1 := ((coreHolds s e).filter fun x => !x.2.lines.isEmpty).foldl (fun t x => entryRevoked t x.1 x.2) s
    ((s1.xpt.ops.filter fun o => o.2.ctx / 32 = e && !o.2.opened && opConcerned s1 o.2).map (·.1)).foldl
      (fun t i => failOp t i stREVOKED) s1
  else if e = 16 then
    (s.tgt.ops.filter fun x => x.2.phase = .waiting && (s.win x.2.pkt.window).state = .revoking &&
        winConcerned s x.2.pkt.window).foldl
      (fun t x => answer (countTgtErr (t.dropTgt x.1) stREVOKED) x.2.pkt x.2.recIdx stREVOKED 0 []) s
  else if e = 17 then
    ((s.xpt.oot.filter fun x => x.2.opcode = 0x02 && !x.2.writing &&
        (match s.xop x.2.op with | some o => opConcerned s o | none => false)).map (·.1)).foldl
      (fun t x => packetEnd t x stREVOKED 0)
      (((s.xpt.ops.filter fun o => o.2.opcode = 0x02 && o.2.opened && !o.2.allMade && o.2.fail.isNone &&
        opConcerned s o.2).map (·.1)).foldl (fun t i => failOp t i stREVOKED) s)
  else
    settle (((s.yar.steps.filter fun x => stepConcerned s x.2).map (·.1)).foldl (fun t y => endStep t y stREVOKED true) s)

/-- Engine `e` holds no such translation any more (R306). -/
def revokeClear (s : State) (e : Nat) : Bool :=
  if e < 16 then (coreHolds s e).isEmpty && !foxHolds s e && !s.xpt.ops.any fun o => o.2.ctx / 32 = e && !o.2.opened && opConcerned s o.2
  else if e = 16 then
    !s.tgt.ops.any (fun x => winConcerned s x.2.pkt.window) &&
      !s.tgt.atoms.any fun x => (x.2.applied.any fun p => winConcerned s p.1.window) || x.2.inFlight.any fun p => winConcerned s p.window
  else if e = 17 then !s.xpt.ops.any fun o => o.2.opened && opConcerned s o.2
  else !s.yar.steps.any (fun x => stepConcerned s x.2) && !s.yar.ins.any fun x => x.2.left ≠ 0 && winConcerned s (collTarget x.2).1

/-- REVOKE_ACK (R306): engine `e` acts, and acknowledges once it holds nothing of the windows; the last acknowledgement
ends the command. -/
def revokeAck (s : State) (e : Nat) : State :=
  if s.wins.cmd.isNone ∨ !bitOf (s.rd TGT_WWAIT.PENDING) e then s else
  let s1 := revokeAct s e
  if !revokeClear s1 e then s1 else
  let p := s1.rd TGT_WWAIT.PENDING - 2 ^ e
  let s2 := s1.wr TGT_WWAIT.PENDING p
  if p = 0 then windowCmdEnd s2 else s2

-- The fill of a chunk list line (R304)

/-- Back-end entries that wait for a line. -/
def waiters (s : State) (l : Nat × Nat) : List (Nat × BeEntry) :=
  s.ctxs.flatMap fun e => (e.2.beq.filter fun b => b.lines.contains l).map fun b => (e.1, b)

/-- An entry goes on once all its lines are here, or ends with the status of one that failed. -/
def entryFill (l : Nat × Nat) (st : Nat) (s : State) (x : Nat × BeEntry) : State :=
  let (k, e) := x
  if st = stOK then
    let e1 := { e with lines := e.lines.filter (· ≠ l) }
    let s1 := updEntry s k e.id fun _ => e1
    if e1.lines.isEmpty then runEntry s1 k e1 else s1
  else if 0x60 ≤ e.opcode then issueEnd s k e.id (e.imm % 4096) e.step (e.opcode - 0x5F) st true true
  else if 0x38 ≤ e.opcode ∧ e.opcode ≤ 0x3B then entryFault s k e.id 6 st
  else entryEnd s k e.id st 0 0

/-- Accepted collective packets go on, or end. -/
def collFill (w line st : Nat) (s : State) (i : Nat) : State :=
  match s.collIn i with
  | none => s
  | some c =>
    let list := c.pkt.opcode = 0x24 ∧ c.rank.isNone
    let win := if list then (s.group (c.pkt.window % 4096)).mlistWin else (collTarget c).1
    if win ≠ w ∨ !c.lines.contains line then s
    else if st ≠ stOK then collInEnd s i c st
    else
      let c1 := { c with lines := c.lines.filter (· ≠ line) }
      let s1 := s.putIn i c1
      if !c1.lines.isEmpty then s1 else if list then countList s1 i else collInWrite s1 i

/-- A group CREATE goes on, or ends. -/
def createFill (w line st : Nat) (s : State) : State :=
  match s.yar.creating with
  | some c =>
    match c.image with
    | some im =>
      let v : Group := { image := im }
      if v.mlistWin ≠ w ∨ !c.lines.contains line then s
      else if st ≠ stOK then gcmdEnd { s with yar := { s.yar with creating := none } } st
      else if c.lines.all (· = line) then readOwnEntry s c v
      else { s with yar := { s.yar with creating := some { c with lines := c.lines.filter (· ≠ line) } } }
    | none => s
  | none => s

/-- Steps of an all-to-all, owned segments at the update stage and the head of the Foxglove queue that wait for a line go
on by their own commands; a line that failed ends them. -/
def stepFill (l : Nat × Nat) (st : Nat) (s : State) : State :=
  let go (t : State) (e : Nat × YStep) : State :=
    if st ≠ stOK then endStep t e.1 st true
    else exchangeRun (t.putStep e.1 { e.2 with lines := e.2.lines.filter (· ≠ l) }) e.1
  let s1 := (s.yar.steps.filter fun e => e.2.lines.contains l).foldl go s
  if st = stOK then s1 else
  let s2 := (s1.yar.upds.filter fun u => u.lines.contains l).foldl (fun t u => endStep (dropJob t u.y u.seg) u.y st true) s1
  (s2.fox.queue.filter fun e => e.lines.contains l).foldl (fun t e =>
    foxEnd { t with fox := { t.fox with queue := t.fox.queue.filter fun x => x.id ≠ e.id } } e st) s2

/-- Operations at the target engine that wait for a line are admitted once all theirs are here, or end. -/
def targetFill (w line st : Nat) (s : State) : State :=
  if st ≠ stOK then failWaiting s w line st else
  (s.tgt.ops.filter fun e => e.2.phase = .resolving && e.2.pkt.window = w && e.2.lines.contains line).foldl (fun t e =>
    let o := { e.2 with lines := e.2.lines.filter (· ≠ line) }
    if o.lines.isEmpty then admitted (t.putTgt o) e.1 else t.putTgt o) s

/-- CHUNK_MISS_FILL (R304): the line has been read; what waits for it goes on or ends. A line read for a window that has
been freed meanwhile is discarded; one of a REVOKING window serves only what the target engine had admitted (R306). -/
def chunkFill (s : State) (w line : Nat) : State :=
  let find (serial : Nat) : Option Xfer := s.hmp.returned.find? fun x => x.k = .chunkLine w line serial
  let stale : Option Xfer := s.hmp.returned.find? fun x =>
    match x.k with | .chunkLine a b _ => a = w && b = line | _ => false
  match (if (s.win w).chunked then find (s.win w).serial else none), stale with
  | none, none => s
  | none, some x => { s with hmp := { s.hmp with returned := s.hmp.returned.erase x } }
  | some x, _ =>
    let s0 := { s with hmp := { s.hmp with returned := s.hmp.returned.erase x } }
    let (s1, st) := takeChunkLine s0 w line x
    let s2 := targetFill w line st s1
    let live := (s2.win w).state = .valid
    let s3 := if live then s2 else dropChunks s2 w 1
    let st3 := if st = stOK ∧ !live then stREVOKED else st
    let s4 := (waiters s3 (w, line)).foldl (entryFill (w, line) st3) s3
    let s5 := (s4.yar.ins.map (·.1)).foldl (collFill w line st3) s4
    settle (stepFill (w, line) st3 (createFill w line st3 s5))

end Sys2Proof.Machine
end

