-- ==== Sys2Proof/Machine/BackCmds.lean ====
section
/-! DEFINITION. The meanings of the commands of the Marten back end, of queue descriptors, of trigger deliveries and of revocation. -/
namespace Sys2Proof.Machine

/-- DESC_PUT (R22, R102, R328). -/
def execDescPut (q : QNum) (s : State) : Out := .next (descStart s q 1 startIfNext)

/-- DESC_GET (R102, R328). -/
def execDescGet (q : QNum) (s : State) : Out := .next (descStart s q 2 startIfNext)

/-- DESC_ATOMIC (R102, R328). -/
def execDescAtomic (q : QNum) (s : State) : Out := .next (descStart s q 3 startIfNext)

/-- DESC_SIGNAL (R102, R328, R367). -/
def execDescSignal (q : QNum) (s : State) : Out := .next (descStart s q 4 startIfNext)

/-- DESC_FENCE (R102, R103, R328). -/
def execDescFence (q : QNum) (s : State) : Out := .next (descStart s q 5 startIfNext)

/-- DESC_NOP (R102, R328). -/
def execDescNop (q : QNum) (s : State) : Out := .next (descNop s q)

/-- LDW (R337). At issue; the entry then starts in the back end. -/
def execLdw (k : Ctx) (s : State) : Out := .next (ldwInstr s k)

/-- STW (R337). At issue; the entry then starts in the back end. -/
def execStw (k : Ctx) (s : State) : Out := .next (stwInstr s k)

/-- CPIN (R337). At issue; the entry then starts in the back end. -/
def execCpin (k : Ctx) (s : State) : Out := .next (copyInstr 0x3A s k)

/-- CPOUT (R337). At issue; the entry then starts in the back end. -/
def execCpout (k : Ctx) (s : State) : Out := .next (copyInstr 0x3B s k)

/-- PUT (R339). At issue; the entry then starts in the back end. -/
def execPut (k : Ctx) (s : State) : Out := .next (bulkInstr 0x40 s k)

/-- GET (R339). At issue; the entry then starts in the back end. -/
def execGet (k : Ctx) (s : State) : Out := .next (bulkInstr 0x41 s k)

/-- ATOM (R339, R340). At issue; the entry then starts in the back end. -/
def execAtom (k : Ctx) (s : State) : Out := .next (atomInstr s k)

/-- SIGNAL (R339). At issue; the entry then starts in the back end. -/
def execSignal (k : Ctx) (s : State) : Out := .next (signalInstr s k)

/-- BACKEND_ENTRY_START (R326, R327). -/
def execBackendEntryStart (k : Ctx) (s : State) : Out := .next (entryStart s k)

/-- BACKEND_ENTRY_DONE (R326, R341). `id` is the entry. -/
def execBackendEntryDone (k : Ctx) (id : Nat) (s : State) : Out := .next (entryDone s k id)

/-- TRIGGER_DELIVERY (R370, R371, R373). -/
def execTriggerDelivery (s : State) : Out := .next (triggerDelivery s)

/-- REVOKE_ACK (R306). `engine` is its bit of TGT_WWAIT. -/
def execRevokeAck (engine : Fin 19) (s : State) : Out := .next (revokeAck s engine)

/-- CHUNK_MISS_FILL (R304). -/
def execChunkMissFill (w : WinNum) (line : Nat) (s : State) : Out := .next (chunkFill s w line)

end Sys2Proof.Machine
end

