-- ==== Sys2Proof/Machine/Sched.lean ====
section
/-! DEFINITION. The scheduler (R495 to R511): flows, the order of grants, deficit round robin, shapers, reservations. -/
namespace Sys2Proof.Machine

-- Charges, quanta and shapers

/-- The charge of a packet in bytes (R501). -/
def chargeOf (s : State) (p : Pkt) : Nat := 8 * p.wordCount + s.rd SCH_CFG.OVH

/-- A quantum field in bytes; 0 selects DEF_QUANTUM (R500). -/
def quantumOf (s : State) (v : Nat) : Nat := 256 * (if v = 0 then s.rd SCH_CFG.DEF_QUANTUM else v)

/-- The quantum of a flow (R500). -/
def flowQuantum (s : State) : Flow → Nat
  | .queue q => quantumOf s (s.rd (SCH_QUEUE.QUANTUM q))
  | .ctx k => quantumOf s (s.rd (SCH_CTX.QUANTUM k))
  | .group g => quantumOf s (s.group g).quantum
  | _ => 0

/-- The shapers that a flow's packets of a class meet: the class's and the flow's (R502). -/
def shapersOf (s : State) (f : Flow) (tc : Nat) : List Nat :=
  let own := match f with
    | .queue q => s.rd (SCH_QUEUE.SHAPER q)
    | .ctx k => s.rd (SCH_CTX.SHAPER k)
    | .group g => s.rd (SCH_GROUP.SHAPER g)
    | _ => 0xFF
  ([s.rd (SCH_CLASS.SHAPER tc), own].filter (· < 64)).dedup

/-- The full count of a shaper, in fifths of a byte (R502). -/
def burstOf (s : State) (i : Nat) : Int := 1280 * s.rd (SCH_SHAPER.BURST i)

/-- The count of a shaper at reset: its reset BURST (R511). -/
def resetTokens : Int := 81920

/-- The count of a shaper (R502). -/
def tokensOf (s : State) (i : Nat) : Int := s.sch.tokens.get resetTokens i
def setTokens (s : State) (i : Nat) (v : Int) : State :=
  { s with sch := { s.sch with tokens := s.sch.tokens.set resetTokens i v } }

/-- SCH_TOKENS: whole bytes, two's complement (R511). -/
def tokensWord (s : State) (i : Nat) : Word := BitVec.ofInt 32 (tokensOf s i / 5)

-- Port rates (R30, R503)

/-- Twice the payload rate of a port, in units of 0.1 GB/s. -/
def payloadRate2 (s : State) (p : Nat) : Nat :=
  let w := (s.link p).txWidth
  if s.sealed p then (if w = 8 then 7058 else if w = 4 then 3530 else if w = 2 then 1764 else 0)
  else if w = 8 then 7500 else if w = 4 then 3750 else if w = 2 then 1875 else 0

/-- The rate of a port's shaper, in thirty-seconds of 0.1 GB/s. -/
def portRate32 (s : State) (p : Nat) : Nat := payloadRate2 s p * s.rd (SCH_PORT.SHARE p)

/-- SCH_PORT.RATE (R510). -/
def portRate (s : State) (p : Nat) : Nat := portRate32 s p / 32

/-- The count of a port shaper. -/
def portTokens (s : State) (p : Nat) : Int := s.sch.ports.get portBurst p

-- Reservations (R405, R505)

/-- Where a local packet would go: an egress port, or none for local delivery and for the router to settle (R227, R231,
R498). -/
def localEgress (s : State) (p : Pkt) : Option Nat × RtPkt :=
  let b : RtPkt := { from_ := 12, pkt := p, since := s.now }
  match fateOf s 12 p with
  | .toward d => (pickEgress s d p, { b with dir := some d, egress := pickEgress s d p, entering := true })
  | _ => (none, b)

/-- The link ports that a group sends on (R405): the named port of an adjacent neighbour, the router's choice for another. -/
def Group.sendPorts (s : State) (v : Group) : List Nat :=
  (v.sides.filterMap fun i =>
    if v.adj (i / 2) then some (v.nbPort i)
    else (localEgress s { dest := v.nbNode i, src := s.node, pkey := v.pkey, tc := v.tc, epoch := s.epochBit = 1 }).1).dedup

/-- The running groups that reserve bandwidth on a port. -/
def reservers (s : State) (p : Nat) : List Nat :=
  (((s.yar.steps.map (·.2.g)) ++ (s.yar.stoats.filter (·.be.isSome)).map (·.g)).dedup).filter fun g =>
    (s.group g).resv ≠ 0 && ((s.group g).sendPorts s).contains p

/-- S of a port: the sum of its reservations, in GB/s. -/
def resvSum (s : State) (p : Nat) : Nat := ((reservers s p).map fun g => (s.group g).resv).sum

/-- The reservations of a port exceed its rate. -/
def resvShort (s : State) (p : Nat) : Bool := portRate32 s p < 320 * resvSum s p

/-- What a bucket gains in a window: its rate, scaled by R ÷ S while S > R. -/
def resvGain (s : State) (g p : Nat) : Int :=
  let v := (s.group g).resv
  if resvShort s p then v * portRate32 s p / (2 * resvSum s p) else 160 * v

/-- The full count of a reservation bucket, 64 KiB. -/
def resvBurst : Int := 327680

/-- The groups that read DEGRADED under the ports and reservations of now. -/
def degradedNow (s : State) : List Nat :=
  ((List.range 12).filter (resvShort s)).flatMap (reservers s)

/-- RESERVATION_SCALE (R505): DEGRADED follows the ports; each group that becomes degraded counts. -/
def resvScale (s : State) : State :=
  let d := degradedNow s
  let fresh := (d.dedup.filter fun g => !(s.group g).degraded).length
  { s with yar := { s.yar with groups := s.yar.groups.mapAll {} fun g v => { v with degraded := d.contains g } } }.bump
    SCH_STAT.RESV_DEG fresh

-- Eligibility (R498)

/-- The packet is held by HOLD (R245). -/
def heldByHold (s : State) (p : Pkt) : Bool := s.on RTR_CTRL.HOLD && s.rtr.holdBit = some (b2n p.epoch)

/-- Where a packet leaves when it may begin now, apart from its class and flow shapers (R498): egress 12 stands for local
delivery and the router. -/
def beginEgress (s : State) (used : List Nat) (o : OutPkt) : Option Nat :=
  if heldByHold s o.pkt then none else
  match localEgress s o.pkt with
  | (none, _) => if used.contains 12 then none else some 12
  | (some q, b) =>
    if !used.contains q && mayBegin s q b && (o.flow = .response || 0 < portTokens s q) then some q else none

/-- The class and flow shapers of a packet that hold it (R498). -/
def holders (s : State) (o : OutPkt) : List Nat :=
  (shapersOf s o.flow o.pkt.tc).filter fun i => tokensOf s i ≤ 0

/-- A packet of a flow may begin: its egress. -/
def eligible (s : State) (used : List Nat) (o : OutPkt) : Option Nat :=
  if (holders s o).isEmpty then beginEgress s used o else none

/-- The packet at the head of a flow. -/
def headOf (s : State) (f : Flow) (tc : Nat) : Option OutPkt := s.out.find? fun o => o.flow = f && o.pkt.tc = tc

-- Granting

/-- A flow's packet, not a response nor a control packet. -/
def OutPkt.inFlow (o : OutPkt) : Bool := o.flow ≠ .response && o.flow ≠ .control

/-- New flows and classes join their lists as they become active, at most 8,192 flows (R495, R499). -/
def joinFlows (s : State) : State :=
  let add (l : List SchFlow) (o : OutPkt) : List SchFlow :=
    if !o.inFlow ∨ 8192 ≤ l.length ∨ l.any (fun x => x.flow = o.flow && x.tc = o.pkt.tc) then l
    else l ++ [{ flow := o.flow, tc := o.pkt.tc }]
  let fl := s.out.foldl add s.sch.flows
  let cl := fl.foldl (fun l x => if l.any (·.1 = x.tc) then l else l ++ [(x.tc, 0)]) s.sch.classes
  { s with sch := { s.sch with flows := fl, classes := cl } }

/-- Flows and classes without a packet leave their lists, with their deficits (R499). -/
def leaveFlows (s : State) : State :=
  let fl := s.sch.flows.filter fun x => (headOf s x.flow x.tc).isSome
  { s with sch := { s.sch with flows := fl, classes := s.sch.classes.filter fun c => fl.any (·.tc = c.1) } }

/-- Local crossbar ports that present no packet (R15, R235, R497). -/
def freeXbars (s : State) : List Nat :=
  (List.range 10).filter fun j => !s.rtr.inject.any (·.xbar = j) && !s.rtr.bufs.any (·.from_ = 12 + j)

/-- A packet begins: it passes to a free port of the crossbar, and its charge debits the port shaper and, for a packet of a
flow, its own shapers (R496, R498, R502; log entry 43). -/
def beginPacket (s : State) (o : OutPkt) (q : Nat) : State :=
  let n := chargeOf s o.pkt
  let s1 := { s with out := s.out.erase o, rtr := { s.rtr with inject := s.rtr.inject ++ [{ o with xbar := (freeXbars s).headD 0 }] } }
  let s2 := if q < 12 then debitPort s1 q n else s1
  let s3 := if o.inFlow then (shapersOf s o.flow o.pkt.tc).foldl (fun t i => setTokens t i (tokensOf t i - 5 * n)) s2 else s2
  leaveFlows s3

/-- The oldest packet of a FIFO that may begin (R496 to R498). -/
def fifoChoice (s : State) (used : List Nat) (f : Flow) : Option (OutPkt × Nat) :=
  match s.out.find? (·.flow = f) with
  | none => none
  | some o => (beginEgress s used o).map fun q => (o, q)

/-- A group whose reservation lets its head packet begin, round robin (R497). -/
def resvChoice (s : State) (used : List Nat) : Option (Nat × OutPkt × Nat) :=
  let can (x : SchFlow) : Option (Nat × OutPkt × Nat) :=
    match x.flow with
    | .group g =>
      match headOf s x.flow x.tc with
      | none => none
      | some o => match eligible s used o with
        | some q => if q < 12 ∧ (reservers s q).contains g ∧ 0 < s.sch.resv.get resvBurst (16 * g + q) then some (g, o, q) else none
        | none => none
    | _ => none
  let d (g : Nat) : Nat := (g + 4096 - s.sch.last - 1) % 4096
  (s.sch.flows.filterMap can).foldl (fun b x => match b with
    | none => some x
    | some y => if d x.1 < d y.1 then some x else some y) none

/-- Deficit round robin over the flows of class `c` (R499): the flow whose head packet comes next, with the lists as the
visits leave them; `none` where no head is eligible. -/
def serveFlows (s : State) (used : List Nat) (c : Nat) : Nat → List SchFlow → Option (SchFlow × OutPkt × Nat × List SchFlow)
  | 0, _ => none
  | n + 1, l =>
    match l.find? (·.tc = c) with
    | none => none
    | some m =>
      let rest := l.erase m
      match (headOf s m.flow m.tc).bind (fun o => (eligible s used o).map fun q => (o, q)) with
      | none => serveFlows s used c n (rest ++ [m])
      | some (o, q) =>
        if m.deficit < chargeOf s o.pkt then
          serveFlows s used c n (rest ++ [{ m with deficit := m.deficit + flowQuantum s m.flow }])
        else some (m, o, q, l)

/-- Visits that are enough for every list to reach a grant: a flow needs at most 18 quanta for one charge. -/
def drrFuel (s : State) : Nat := 20 * (s.sch.flows.length + 1)

/-- Deficit round robin over the classes (R499): one packet begins, or none is eligible. -/
def serveClasses (s : State) (used : List Nat) : Nat → State × Option Nat
  | 0 => (s, none)
  | n + 1 =>
    match s.sch.classes with
    | [] => (s, none)
    | (c, def_) :: rest =>
      match serveFlows s used c (drrFuel s) s.sch.flows with
      | none =>
        let t := { s with sch := { s.sch with classes := rest ++ [(c, def_)] } }
        serveClasses t used n
      | some (m, o, q, l) =>
        let ch := chargeOf s o.pkt
        if def_ < ch then
          serveClasses { s with sch := { s.sch with
            classes := rest ++ [(c, def_ + quantumOf s (s.rd (SCH_CLASS.QUANTUM c)))], flows := l } } used n
        else
          let fl := l.map fun x => if x = m then { m with deficit := m.deficit - ch } else x
          (beginPacket { s with sch := { s.sch with classes := (c, def_ - ch) :: rest, flows := fl } } o q, some q)

/-- Some flow's head packet is eligible. -/
def anyEligible (s : State) (used : List Nat) : Bool :=
  s.sch.flows.any fun x => ((headOf s x.flow x.tc).bind (eligible s used)).isSome

/-- One grant, in the order of R497; the second answer is its egress. -/
def grantOne (s : State) (used : List Nat) : State × Option Nat :=
  match fifoChoice s used .response with
  | some (o, q) => (beginPacket s o q, some q)
  | none =>
    match fifoChoice s used .control with
    | some (o, q) => (beginPacket s o q, some q)
    | none =>
      match resvChoice s used with
      | some (g, o, q) =>
        let i := 16 * g + q
        (beginPacket { s with sch := { s.sch with
          last := g, resv := s.sch.resv.upd resvBurst i (· - 5 * chargeOf s o.pkt) } } o q, some q)
      | none => if anyEligible s used then serveClasses s used (20 * 9) else (s, none)

/-- Head packets that a shaper holds count once in HELD (R511). -/
def countHeld (s : State) : State :=
  s.sch.flows.foldl (fun t x =>
    match headOf t x.flow x.tc with
    | none => t
    | some o =>
      let w := (holders t o).filter fun i => !o.waited.contains i
      w.foldl (fun u i => u.bump (SCH_HELD.HELD i) 1)
        { t with out := t.out.map fun y => if y = o then { y with waited := y.waited ++ w } else y }) s

/-- The grants of one fc: one at most for each free local crossbar port and for each egress (R497). -/
def grants : Nat → List Nat → State → State
  | 0, _, s => s
  | n + 1, used, s =>
    match grantOne s used with
    | (t, some q) => grants n (q :: used) t
    | (t, none) => t

/-- SCHED_GRANT (R497 to R501). -/
def schedGrant (s : State) : State := grants (freeXbars s).length [] (countHeld (joinFlows (leaveFlows s)))

-- Refills and writes

/-- A count gains, up to its burst; a count above it stays. -/
def refill (v gain burst : Int) : Int := if burst ≤ v then v else min burst (v + gain)

/-- SHAPER_REFILL (R502, R503, R505): a 32 ns window has ended; the rates of the next one are taken. -/
def shaperRefill (s : State) : State :=
  if s.now < ns (32 * (s.sch.window + 1)) then s else
  let s1 := (List.range 64).foldl (fun t i =>
    setTokens t i (refill (tokensOf t i) ((16 * s.sch.rates.get 0 i : Nat) : Int) (burstOf t i))) s
  let rates := (List.range 64).foldl (fun r i => r.set 0 i (s.rd (SCH_SHAPER.RATE i))) s.sch.rates
  let ports := (List.range 12).foldl (fun r p => r.upd portBurst p fun v => refill v (portRate32 s p / 2) portBurst) s.sch.ports
  let resv := (List.range 12).foldl (fun r p => (reservers s p).foldl (fun r g =>
    r.upd resvBurst (16 * g + p) fun v => refill v (resvGain s g p) resvBurst) r) s.sch.resv
  let kept := resv.keep fun i _ => (reservers s (i % 16)).contains (i / 16)
  resvScale { s1 with sch := { s1.sch with rates := rates, ports := ports, resv := kept, window := s.sch.window + 1 } }

/-- SHAPER_WRITE (R504, R511): RATE and BURST are written; the count is kept, and clamped only where it lies above the new
BURST. A write of BURST 0 is ignored for that field. -/
def shaperWrite (s : State) (i w : Nat) : State :=
  let s1 := s.wr (SCH_SHAPER.RATE i) (bitsOf w 15 0)
  let s2 := if bitsOf w 31 16 = 0 then s1 else s1.wr (SCH_SHAPER.BURST i) (bitsOf w 31 16)
  setTokens s2 i (min (tokensOf s2 i) (burstOf s2 i))

/-- Flows in existence (SCH_STAT.FLOWS). -/
def flowCount (s : State) : Nat :=
  min 8192 (((s.out.filter (·.inFlow)).map fun o => (o.flow, o.pkt.tc)).dedup.length)

/-- Tier 2, Tier 3 and Hibernate (R506): flows, deficits and reservation buckets are cleared, every count set to its
burst. -/
def schedReset (s : State) : State :=
  let s1 := (List.range 64).foldl (fun t i => setTokens t i (burstOf t i)) s
  { s1 with out := [], sch := { s1.sch with classes := [], flows := [], ports := [], resv := [], last := 0 } }

end Sys2Proof.Machine
end

