-- ==== Sys2Proof/Machine/Cowslip.lean ====
section
/-! DEFINITION. Cowslip (R538 to R568): idle conditions, the sleep of ports, the token arbiter, power levels and ramps. -/
namespace Sys2Proof.Machine

-- Power states and idleness

/-- A context keeps the block awake: READY, FENCING, or a SYNWAIT with a timeout (R540). -/
def Ctxt.awake (c : Ctxt) : Bool := c.state = .ready || c.state = .fencing || (c.state = .waitSync && c.waitEnd.isSome)

/-- A queue keeps the block awake (R540). -/
def Queue.awake (q : Queue) : Bool := if q.push then !q.waiting.isEmpty else q.head ≠ q.tail

/-- A step of a group is outstanding in the context (R404). -/
def Ctxt.stepping (c : Ctxt) : Bool := c.beq.any fun b => 0x60 ≤ b.opcode && b.opcode ≤ 0x66 && b.desc.isNone

/-- The idle conditions (R540). -/
def idleNow (s : State) : Bool :=
  s.xpt.oot.isEmpty && s.yar.steps.isEmpty && (s.yar.stoats.all fun o => o.be.isNone) && (s.ctxs.all fun e => !e.2.stepping) &&
  s.fox.queue.isEmpty && s.fox.running.isEmpty &&
  (s.ctxs.all fun e => !e.2.awake && e.2.fifo.isEmpty) && s.syn.deliv.isEmpty && (s.queues.all fun e => !e.2.awake) &&
  s.hmpQuiesced && !s.on RTR_EPOCH.ARMED && !s.on RTR_EPOCH.DRAINING

/-- The lanes of every port are Off, failed, in Doze or in Dormouse, as Drowse leaves them (R19). -/
def lanesRest (s : State) : Bool :=
  (List.range s.build.ports).all fun p => [0, 7, 8, 9].contains (s.laneState p)

/-- DROWSE_ENTRY (R19, R539). -/
def drowseEntry (s : State) : State :=
  if s.power = 0 && s.on CSP_CFG.DROWSE_EN && s.normal && idleNow s && lanesRest s &&
      s.csp.activeAt + ns (100 * s.rd CSP_TMR.DROWSE_IDLE) ≤ s.now then s.wr CSP_STATUS.STATE 1
  else s

-- Ports

/-- A packet or a bypass message waits for the port (R544). -/
def portWaits (s : State) (p : Nat) : Bool :=
  let l := s.link p
  !l.txWords.isEmpty || !l.bpStoat.isEmpty || !l.bpAmm.isEmpty || (s.rtr.bufs.any fun b => b.egress = some p) ||
    s.out.any fun o => (localEgress s o.pkt).1 = some p

/-- The port has been idle for `n` ns (R544). -/
def portIdleFor (s : State) (p n : Nat) : Bool := !portWaits s p && s.csp.busyAt.get 0 p + ns n ≤ s.now

/-- The port sleeps: its link is in DOZE or DORMOUSE. -/
def asleep (s : State) (p : Nat) : Bool := s.linkState p = 5 || s.linkState p = 6

/-- Ports in the build. -/
def portsOf (s : State) : List Nat := (List.range 12).filter s.portPresent

/-- Lanes that leave use park in Dormouse below level 15, and in Doze at level 15 (R545). -/
def parkLanes (before s : State) (p : Nat) : State :=
  (lanesOf s p).foldl (fun t k =>
    if before.on (LAN_LANE_STATUS.IN_USE k) && !t.on (LAN_LANE_STATUS.IN_USE k) then
      t.setLane k { t.lane k with parkedDeep := t.rd CSP_STATUS.LEVEL < 15 }
    else t) s

/-- WIDTH_SWITCH (R30, R208, R545). -/
def widthSwitchPark (s : State) (p : Nat) (tx : Bool) (failed : Option Nat) (live : List Word) : State :=
  resvScale (parkLanes s (widthSwitch s p tx failed live) p)

/-- A port is sent to Doze (1) or Dormouse (2); below level 15 it narrows to 2 lanes first (R545). -/
def sendToSleep (s : State) (p target : Nat) : State :=
  if s.rd CSP_STATUS.LEVEL < 15 && (s.link p).txWidth ≠ 2 then widthRequest s p 2 else sleepCmd s p target

/-- AUTO_DOZE (R544). -/
def autoDoze (s : State) (p : Nat) : State :=
  if s.on CSP_CFG.AUTO_DOZE && s.rd (CSP_PORT.MIN_STATE p) ≠ 2 && s.linkState p = 3 &&
      portIdleFor s p (1000 * s.rd CSP_TMR.DOZE_IDLE) then sendToSleep s p 1
  else s

/-- AUTO_DORMOUSE (R544): a port idle in Doze leaves it and, awake, is sent to Dormouse. -/
def autoDormouse (s : State) (p : Nat) : State :=
  if !(s.on CSP_CFG.AUTO_DOZE) || s.rd (CSP_PORT.MIN_STATE p) ≠ 0 || portWaits s p then s else
  if s.linkState p = 5 && portIdleFor s p (100000 * s.rd CSP_TMR.DORM_IDLE) then
    linkWake { s with csp := { s.csp with deepen := p :: s.csp.deepen.erase p } } p
  else if s.linkState p = 3 && s.csp.deepen.contains p then
    let t := sendToSleep s p 2
    if t.linkState p = 3 then t else { t with csp := { t.csp with deepen := t.csp.deepen.erase p } }
  else s

-- The fixed draw (R547), in mW

/-- Static draw of fabric logic and SRAM. -/
def staticMw (s : State) : Nat :=
  match s.power with | 1 => 6850 | 2 => 1650 | 3 => 0 | _ => 13350

/-- Draw of a port with `n` lanes of which `w` are in use, the others parked at `parked` each. -/
def portMw (n w parked : Nat) : Nat := w * (1090 + 125) + (n - w) * parked

/-- What a port draws as its lanes stand (R547). -/
def portDraw (s : State) (p : Nat) : Nat :=
  let n := s.laneCount
  match s.laneState p with
  | 0 => 0
  | 9 => 0
  | 7 => ((lanesOf s p).map fun k => if s.on (LAN_LANE_STATUS.IN_USE k) || !(s.lane k).parkedDeep then 120 else 30).sum
  | 8 => 30 * n
  | 6 => ((lanesOf s p).map fun k => if s.on (LAN_LANE_STATUS.IN_USE k) then 1215 else
      if (s.lane k).aligned then (if (s.lane k).parkedDeep then 30 else 120) else 0).sum
  | _ => 1090 * n

/-- Milliwatts as whole tokens of 0.25 W, rounded up. -/
def tokensOfMw (n : Nat) : Nat := (n + 249) / 250

/-- What no port measure changes. -/
def baseMw (s : State) : Nat := 150 + staticMw s + (if s.fox.island = 0 then 0 else 1000)

/-- F, the fixed draw (R547). -/
def fixedDraw (s : State) : Nat := tokensOfMw (baseMw s + ((portsOf s).map (portDraw s)).sum)

/-- The cost of a wake slot for `w` lanes (R549). -/
def slotCost (w : Nat) : Nat := tokensOfMw (w * 1185)

/-- Sleeping ports, and the largest width among them. -/
def sleepers (s : State) : List Nat := (portsOf s).filter (asleep s)
def sleepWidth (s : State) : Nat := ((sleepers s).map fun p => (s.link p).txWidth).foldl max 0

/-- Wr, the wake reserve (R549). -/
def wakeReserve (s : State) : Nat := min (s.rd CSP_CFG.WAKE_SLOTS) (sleepers s).length * slotCost (sleepWidth s)

-- Levels and ceilings

/-- The floors of the consumers, and their full-rate costs (R548): transport and target engine, HMP, Marten, the
synchronisation store and scheduler, Yarrow, Foxglove. -/
def consumerFloors : List Nat := [4, 4, 2, 4, 2, 0]
def consumerCosts : List Nat := [12, 18, 12, 4, 32, 84]

/-- CSP_BUDGET2.FLOOR (R551). -/
def ceilFloor (s : State) : Nat :=
  tokensOfMw (150 + 13350 + 30 * s.laneCount * s.build.ports) + consumerFloors.sum + 10 * s.rd CSP_CFG.WAKE_SLOTS

/-- The ceiling of level `l` (R551). -/
def ceilOf (s : State) (l : Nat) : Nat := max (s.rd (CSP_LEVEL_TBL.CEIL l)) (ceilFloor s)

/-- The ramp-up time in ns (R555). -/
def rampUp (s : State) : Nat := 10000 * s.rd CSP_CFG.RAMP_UP

/-- The ceiling in force: it climbs linearly after a rise (R551, R554, R555). -/
def ceilNow (s : State) : Nat :=
  let c := ceilOf s (s.rd CSP_STATUS.LEVEL)
  match s.csp.changed with
  | some t =>
    if s.csp.rising && s.now < t + ns (rampUp s) && s.csp.oldCeil < c then
      s.csp.oldCeil + (c - s.csp.oldCeil) * (s.now - t) / ns (rampUp s)
    else c
  | none => c

/-- The first 100 µs after a fall (R554). -/
def inGrace (s : State) : Bool :=
  match s.csp.changed with | some t => !s.csp.rising && s.now < t + ns 100000 | none => false

/-- CSP_STATUS.RAMPING (R561). -/
def ramping (s : State) : Bool :=
  match s.csp.changed with
  | some t => s.now < t + ns (if s.csp.rising then rampUp s else 100000)
  | none => false

/-- The effective level follows DIR_LEVEL and LOCAL_LEVEL (R551); a change starts a ramp (R554, R555, R557). -/
def levelChange (s : State) : State :=
  let l := min (s.rd CSP_STATUS.DIR_LEVEL) (s.rd CSP_STATUS.LOCAL_LEVEL)
  let old := s.rd CSP_STATUS.LEVEL
  if l = old then s else
  { s.wr CSP_STATUS.LEVEL l with csp := { s.csp with
    oldCeil := ceilNow s, changed := some s.now, rising := old < l, widen := old < l, reached := false, forced := old < l } }

/-- LOCAL_LEVEL (R562). -/
def localLevel (s : State) (v : Nat) : State :=
  levelChange ((s.wr CSP_LOCAL_LEVEL.LEVEL v).wr CSP_STATUS.LOCAL_LEVEL v)

/-- DIRECTIVE_APPLY (R552). -/
def directiveApply (s : State) : State :=
  let at_ := s.rd CSP_DIR_AT_LO.AT_LO + 2 ^ 32 * s.rd CSP_DIR_AT_HI.AT_HI
  if s.on CSP_DIR.PENDING && at_ ≤ s.nowNs then
    levelChange ((s.wr CSP_DIR.PENDING 0).wr CSP_STATUS.DIR_LEVEL (s.rd CSP_DIR.LEVEL))
  else s

-- The arbiter

/-- A consumer has work waiting (R548). -/
def hasWork (s : State) (c : Nat) : Bool :=
  match c with
  | 0 => !s.xpt.oot.isEmpty || !s.xpt.ops.isEmpty || !s.tgt.ops.isEmpty || !s.rtr.deliver.isEmpty
  | 1 => s.hmp.chans.any fun e => !e.2.cmds.isEmpty
  | 2 => s.ctxs.any fun e => e.2.state = .ready || e.2.queued ≠ 0
  | 3 => !s.out.isEmpty || !s.syn.deliv.isEmpty
  | 4 => !s.yar.steps.isEmpty || !s.yar.upds.isEmpty
  | _ => !s.fox.queue.isEmpty || !s.fox.running.isEmpty

/-- The requests of the consumers; `used` are the tokens that each used in the last period (R548). -/
def requests (s : State) (used : List Nat) : List Nat :=
  (List.range 6).map fun c =>
    if hasWork s c then consumerCosts.getD c 0 else min (used.getD c 0) (s.csp.grants.getD c 0)

/-- The grants from a pool of `p` tokens (R548). A consumer is granted no more than it requests. -/
def grantTokens (p : Nat) (req : List Nat) : List Nat :=
  let first := (List.zip req consumerFloors).map fun x => min x.1 x.2
  let spare := p - first.sum
  let want := req.sum - first.sum
  (List.zip req first).map fun x => min x.1 (if want = 0 then x.2 else x.2 + spare * (x.1 - x.2) / want)

/-- Dmin (R554). -/
def dynMin (s : State) (b : Nat) (req : List Nat) : Nat := min req.sum (s.rd CSP_CFG.DYN_SHARE * b / 16)

-- Lane measures (R554 to R556)

/-- Width that the measures leave an awake port; 0 for one that they put to sleep or turned Off. -/
def plannedWidth (s : State) (ms : List Measure) (p : Nat) : Nat :=
  match ms.find? (fun m => match m with | .narrow q _ _ => q = p | .sleep q => q = p | .off q => q = p) with
  | some (.narrow _ _ w) => w
  | some _ => 0
  | none => (s.link p).txWidth

/-- A port is under the arbiter's hand: its link is UP. -/
def steerable (s : State) (p : Nat) : Bool := s.linkState p = 3

/-- Draw of a port once the measures have taken effect. -/
def plannedMw (s : State) (ms : List Measure) (p : Nat) : Nat :=
  if ms.contains (.off p) then 0
  else if !steerable s p then portDraw s p
  else match plannedWidth s ms p with
    | 0 => 30 * s.laneCount
    | w => portMw ((lanesOf s p).filter fun k => (s.lane k).aligned).length w 30

/-- F and Wr once the measures have taken effect. -/
def plannedFixed (s : State) (ms : List Measure) : Nat :=
  let down := (portsOf s).filter fun p => asleep s p || (steerable s p && plannedWidth s ms p = 0)
  let w := (down.map fun p => (s.link p).txWidth).foldl max 0
  tokensOfMw (baseMw s + ((portsOf s).map (plannedMw s ms)).sum) +
    min (s.rd CSP_CFG.WAKE_SLOTS) down.length * slotCost w

/-- Twice the payload rate of a width, in units of 0.1 GB/s (R30). -/
def widthRate2 (s : State) (p w : Nat) : Nat :=
  if s.sealed p then (if w = 8 then 7058 else if w = 4 then 3530 else 1764)
  else (if w = 8 then 7500 else if w = 4 then 3750 else 1875)

/-- The port that comes first: the widest, then the lowest smoothed UTIL, then the lowest number (R554). -/
def pickPort (s : State) (ms : List Measure) (l : List Nat) : Option Nat :=
  l.foldl (fun b p => match b with
    | none => some p
    | some q =>
      let wp := plannedWidth s ms p
      let wq := plannedWidth s ms q
      if wq < wp || (wp = wq && s.rd (RTR_CONG.UTIL p) < s.rd (RTR_CONG.UTIL q)) then some p else b) none

/-- The next measure in the order of R554; only the last puts a port to sleep against its MIN_STATE (R544). -/
def nextMeasure (s : State) (ms : List Measure) : Option Measure :=
  let up := (portsOf s).filter fun p => steerable s p && plannedWidth s ms p ≠ 0
  let wide := up.filter fun p => 2 < plannedWidth s ms p
  let free := fun p => resvSum s p = 0
  let narrow := fun p => Measure.narrow p (plannedWidth s ms p) (plannedWidth s ms p / 2)
  let idle := fun p => portIdleFor s p 1000
  match pickPort s ms (wide.filter free) with
  | some p => some (narrow p)
  | none =>
    match pickPort s ms (wide.filter fun p => !free p && 20 * resvSum s p ≤ widthRate2 s p (plannedWidth s ms p / 2)) with
    | some p => some (narrow p)
    | none =>
      match pickPort s ms (up.filter fun p => free p && plannedWidth s ms p = 2 && idle p && s.rd (CSP_PORT.MIN_STATE p) = 0) with
      | some p => some (.sleep p)
      | none =>
        match pickPort s ms (wide.filter fun p => !free p) with
        | some p => some (narrow p)
        | none => (pickPort s ms (up.filter idle)).map Measure.sleep

/-- Measures are taken one at a time until F + Wr fits `room`; at most three per port. -/
def takeMeasures (s : State) (room : Nat) : Nat → List Measure → List Measure
  | 0, ms => ms
  | n + 1, ms =>
    if plannedFixed s ms ≤ room then ms else
    match nextMeasure s ms with
    | some m => takeMeasures s room n (m :: ms)
    | none => ms

/-- What the draw of a port rises by, in mW, above what `plannedFixed` sees, when a measure on it has been undone and
`ms` are left. -/
def undoCost (s : State) (ms : List Measure) : Measure → Nat
  | .narrow p f _ => if plannedWidth s ms p = (s.link p).txWidth then (f - (s.link p).txWidth) * 1185 else 0
  | .sleep p => portMw s.laneCount (s.link p).txWidth 30 - portDraw s p
  | .off _ => portMw s.laneCount s.laneCount 0

/-- Measures are undone, latest first, while the ceiling covers them undone (R555); `more` is the draw of those undone. -/
def undoMeasures (s : State) (room : Nat) : Nat → List Measure → List Measure
  | _, [] => []
  | more, m :: ms =>
    let c := more + undoCost s ms m
    if plannedFixed s ms + tokensOfMw c ≤ room then undoMeasures s room c ms else m :: ms

/-- A port is brought to what the measures in force want of it: WIDTH_REQ or SLEEP_REQ, sent again at each boundary; a
sleep that traffic has cancelled, after DOZE_IDLE (R554, R557). -/
def steer (was : List Measure) (s : State) (p : Nat) : State :=
  let ms := s.csp.measures
  let slept := was.any fun m => m = .sleep p
  if was.contains (.off p) && !ms.contains (.off p) then portOn s p []
  else if asleep s p then (if slept && !ms.contains (.sleep p) then linkWake s p else s)
  else if !steerable s p then s
  else
    let touched := (was ++ ms).filterMap fun m => match m with | .narrow q f _ => if q = p then some f else none | _ => none
    let w := match ms.find? (fun m => match m with | .narrow q _ _ => q = p | _ => false) with
      | some (.narrow _ _ w) => w
      | _ => touched.foldl max 0
    if ms.contains (.sleep p) then
      (if !slept || portIdleFor s p (1000 * s.rd CSP_TMR.DOZE_IDLE) then sendToSleep s p 2 else s)
    else if w ≠ 0 && w ≠ (s.link p).txWidth then widthRequest s p w else s

/-- The awake port that has been idle longest, of those that may go to Dormouse (R544, R550). -/
def longestIdle (s : State) : Option Nat :=
  ((portsOf s).filter fun p => steerable s p && !portWaits s p && s.rd (CSP_PORT.MIN_STATE p) = 0).foldl (fun b p => match b with
    | none => some p
    | some q => if s.csp.busyAt.get 0 p < s.csp.busyAt.get 0 q then some p else b) none

/-- Wakes that had to wait are granted, their cost taken from the pool (R546). -/
def grantWakes (s : State) : State :=
  s.csp.waking.foldl linkWake { s with csp := { s.csp with waking := [], slots := 0 } }

/-- TOKEN_PERIOD (R547 to R556): the account of the period that begins, and the lane measures. A period that stood over
the ceiling for a wake that nothing had paid yet counts in OVER: the one that ends, and the one that begins (R550). -/
def tokenPeriod (s : State) (used : List Nat) : State :=
  if s.now < ns (1000 * (s.csp.period + 1)) then s else
  let b := ceilNow s
  let req := requests s used
  let f := fixedDraw s
  let wr := wakeReserve s
  let wakes := (s.csp.waking.map fun p => slotCost (s.link p).txWidth).sum
  let g := grantTokens (b - f - wr - wakes) req
  let d := dynMin s b req
  let ms0 := s.csp.measures
  let ms := if b - d < plannedFixed s ms0 then takeMeasures s (b - d) 40 ms0
    else if s.csp.widen then undoMeasures s (b - d) 0 ms0 else ms0
  let past := s.csp.unpaid && !s.csp.owing && s.rd CSP_BUDGET.CEIL < f + s.csp.grants.sum
  let excess := (s.csp.unpaid || s.csp.owing) && b < f + g.sum && !inGrace s
  let fits := !s.csp.reached && f + g.sum ≤ ceilOf s (s.rd CSP_STATUS.LEVEL)
  let s1 := (((s.wr CSP_BUDGET.RESERVE wr).wr CSP_BUDGET.FIXED f).wr CSP_BUDGET.CEIL b).wr CSP_BUDGET2.DYN_GRANT g.sum
  let s2 := { s1 with csp := { s1.csp with
    period := s.now / ns 1000, grants := g, measures := ms, unpaid := false, owing := excess, reached := s.csp.reached || fits
    deepen := s.csp.deepen.filter fun p => !portWaits s p } }
  let s3 := if fits then s2.wr CSP_EVT_PEND.LEVEL_REACHED 1 else s2
  let s4 := if !s.on CSP_STATUS.FC_RUN then s3 else (List.range 12).foldl (steer ms0) (grantWakes s3)
  let s5 := s4.bump CSP_EVT.OVER (b2n past + b2n excess)
  if !excess then s5 else match longestIdle s5 with | some p => sendToSleep s5 p 2 | none => s5

/-- A measure that has not taken effect (R556). -/
def unmet (s : State) : Measure → Option Nat
  | .narrow p _ w => if s.linkState p ≠ 0 && !asleep s p && w < (s.link p).txWidth then some p else none
  | .sleep p => if s.linkState p ≠ 0 && !asleep s p then some p else none
  | .off _ => none

/-- One port is set Off for a ramp (R556). -/
def forceOff (s : State) (p : Nat) : State :=
  let s1 := lanesOff (linkDown s p none false) p
  let s2 := report (s1.bump CSP_EVT.FORCED_OFF 1) 0x0B 2 0x02 p
  let keep := s2.csp.measures.filter fun m => match m with | .narrow q _ _ => q ≠ p | .sleep q => q ≠ p | .off q => q ≠ p
  { s2.wr CSP_EVT_PEND.PORT_FORCED_OFF 1 with csp := { s2.csp with measures := .off p :: keep } }

/-- The account cannot come down to the ceiling: F and the smallest grants exceed it. -/
def accountHigh (s : State) : Bool :=
  ceilNow s < fixedDraw s + ((List.zip s.csp.grants consumerFloors).map fun x => min x.1 x.2).sum

/-- RAMP_FORCE_OFF (R556). -/
def rampForceOff (s : State) : State :=
  match s.csp.changed with
  | some t =>
    if s.csp.forced || s.csp.rising || s.now < t + ns 100000 then s else
    let s0 := { s with csp := { s.csp with forced := true } }
    let ps := ((s.csp.measures.reverse).filterMap (unmet s)).dedup
    let s1 := ps.foldl (fun u p => if accountHigh u then forceOff u p else u) s0
    if s1 = s0 then s0 else (s1.bump CSP_EVT.LEVEL_LATE 1).wr CSP_EVT_PEND.LEVEL_LATE 1
  | none => s

/-- LINK_WAKE (R206, R546, R550): activity from the far end wakes the port at once; a wake for traffic of this block takes
a free slot, or waits for the next boundary. -/
def wakePort (s : State) (p : Nat) (far : Bool) : State :=
  if !asleep s p then linkWake s p
  else
  let slot := s.csp.slots < min (s.rd CSP_CFG.WAKE_SLOTS) (sleepers s).length
  if far then
    linkWake { s with csp := { s.csp with
      waking := s.csp.waking.erase p, slots := s.csp.slots + 1, unpaid := s.csp.unpaid || !slot } } p
  else if slot then
    linkWake { s with csp := { s.csp with slots := s.csp.slots + 1 } } p
  else if s.csp.waking.contains p then s
  else { s with csp := { s.csp with waking := s.csp.waking ++ [p] } }

/-- The exit of a sleeping port has begun. -/
def waking (s : State) (p : Nat) : Bool := (s.lanePort p).timer.isSome

/-- Every sleeping port for which a packet or a bypass message waits is woken (R206, R227, R546). -/
def wakeWaiting (s : State) : State :=
  (portsOf s).foldl (fun t p => if asleep t p && !waking t p && !(t.link p).waking && portWaits t p then wakePort t p false else t) s

/-- A port's exit does not begin while its wake waits for the arbiter (R546). -/
def wakeGranted (s : State) (p : Nat) : Bool := !s.csp.waking.contains p

/-- CSP_PORT.PSTATE (R568). A failed port reads Off, a training one by its width (DESIGN CHOICE, log entry 54). -/
def portState (s : State) (p : Nat) : Nat :=
  match s.laneState p with
  | 0 => 0
  | 9 => 0
  | 8 => 1
  | 7 => 2
  | _ => match (s.link p).txWidth with | 8 => 5 | 4 => 4 | _ => 3

/-- The idle times are sampled at each cycle (R539, R544). -/
def sampleIdle (s : State) : State :=
  let s1 := (portsOf s).foldl (fun t p => if portWaits s p then portBusy t p else t) s
  if idleNow s then s1 else { s1 with csp := { s1.csp with activeAt := s.now } }

end Sys2Proof.Machine
end

