-- ==== Sys2Proof/Machine/Seal.lean ====
section
/-! DEFINITION. The Seal unit beyond links (R512 to R524): identities, firmware images, attestation, sessions. -/
namespace Sys2Proof.Machine

-- Identities (R516)

/-- The private key that `derive` makes of a CDI and a label. -/
def deriveKey (c : List Byte) (label : String) : Nat :=
  beNat (hmac384 c (ascii label ++ [1]) ++ hmac384 c (ascii label ++ [2])) % (ecN - 1) + 1

/-- cdi0, from the fused secret. -/
def cdi0 (s : State) : List Byte := hmac384 (natBE 48 s.sea.fuses.uds) (ascii "WN-GW9 L0")

/-- cdi1, from the firmware measurement, the security version and the debug state. -/
def cdi1 (s : State) : List Byte := hmac384 (cdi0 s) (s.sea.fwMeas ++ natLE 4 s.sea.fwSvn ++ dbgByte s)

/-- Both identities are derived, and DeviceID signs the Alias (R516). -/
def deriveIds (s : State) : State :=
  let (k, s1) := randScalar s
  let dev := deriveKey (cdi0 s) "DEVICEID"
  let al := deriveKey (cdi1 s) "ALIAS"
  { s1 with sea := { s1.sea with
    devKey := dev, aliasKey := al
    endorse := ecSign dev k (pubOf al ++ s.sea.fwMeas ++ natLE 4 s.sea.fwSvn ++ dbgByte s) } }

-- Firmware images (R517, R518)

/-- The header's own fields are as stated (R518 item 1). -/
def imageShape (m : List Byte) : Bool :=
  let n := leAt m 12 4
  leAt m 0 4 = 0x46574E57 && leAt m 4 2 = 1 && 4 ≤ n && n ≤ 458752 && n % 4 = 0 && leAt m 16 4 = 0 && leAt m 212 44 = 0

/-- What FW_MEAS is the SHA-384 of: header bytes 0–115 and the body. -/
def imageText (m : List Byte) : List Byte := m.take 116 ++ (m.drop 256).take (leAt m 12 4)

/-- The checks of R518, in order, on an image's bytes. -/
def imageOk (s : State) (m : List Byte) : Bool :=
  let signer := (m.drop 20).take 96
  imageShape m && sha384 signer = s.sea.fuses.fwAnchor && s.sea.fuses.minSvn ≤ leAt m 8 4 &&
    ecVerify signer (imageText m) ((m.drop 116).take 96)

/-- The image in copy `c` of the flash (R655): its header, and its body by the header's LENGTH. -/
def imageCopy (s : State) (c : Nat) : List Byte :=
  let h := flashBytes s (0x80000 * c) 256
  h ++ flashBytes s (0x80000 * c + 256) (if imageShape h then leAt h 12 4 else 0)

/-- An image that has passed runs (R518): FW_VERIFIED, the measurement, the Alias. -/
def runImage (s : State) (m : List Byte) : State :=
  deriveIds ({ s with
    sea := { s.sea with fwMeas := sha384 (imageText m), fwSvn := leAt m 8 4 }
    bdg := { s.bdg with running := m.take (256 + leAt m 12 4), load := 0, fwSince := s.now } }.wr SEA_STATUS.FW_VERIFIED 1)

/-- The first image copy of the flash that passes. -/
def goodCopy (s : State) : Option (List Byte) :=
  if imageOk s (imageCopy s 0) then some (imageCopy s 0)
  else if imageOk s (imageCopy s 1) then some (imageCopy s 1) else none

-- Attestation (R519, R520)

/-- A list of bytes brought to `n` bytes. -/
def fit (n : Nat) (b : List Byte) : List Byte := (b ++ List.replicate n 0).take n

/-- CFG_MEAS is extended (R519). -/
def extendCfg (s : State) (text : List Byte) : State :=
  { s with sea := { s.sea with cfgMeas := sha384 (fit 48 s.sea.cfgMeas ++ sha384 text) } }

/-- ANCHOR_SLOT (R532): the active slot, or 3 for none. -/
def anchorSlot (f : Fuses) : Nat :=
  if !f.anchor0.isEmpty && !f.revoked0 then 0 else if !f.anchor1.isEmpty && !f.revoked1 then 1 else 3

/-- Bytes 0–511 of a report over a nonce (R520). -/
def reportText (s : State) (nonce : List Byte) : List Byte :=
  let f := s.sea.fuses
  let flags := b2n f.debugLock + 2 * s.rd SEA_STATUS.DBG_UNLOCKED + 4 * s.rd SEA_POLICY.LOCK +
    8 * b2n (!s.sea.cred.isEmpty) + 16 * anchorSlot f
  natLE 2 1 ++ natLE 2 flags ++ natLE 4 (s.reg VERSION.MAJOR.addr).toNat ++ natLE 8 f.serial ++ fit 48 nonce ++
    natLE 8 s.stampNs ++ fit 48 s.sea.fwMeas ++ natLE 4 s.sea.fwSvn ++ natLE 4 f.minSvn ++ fit 48 s.sea.cfgMeas ++
    natLE 6 (s.rd CFG_HASH_LO.HASH_LO + 2 ^ 32 * s.rd CFG_HASH_HI.HASH_HI) ++ natLE 2 (s.rd RTR_EPOCH.EPOCH) ++
    natLE 4 s.node ++ natLE 4 0 ++ fit 96 (pubOf s.sea.devKey) ++ fit 96 (pubOf s.sea.aliasKey) ++
    fit 96 s.sea.endorse ++ natLE 32 0

/-- The 608 bytes of an attestation report (R520). -/
def makeReport (s : State) (nonce : List Byte) : List Byte × State :=
  let (k, s1) := randScalar s
  let t := reportText s nonce
  (t ++ ecSign s.sea.aliasKey k t, s1)

/-- ATTEST_REPORT (R520, R535): over the written nonce, into the report window; BUSY while no Alias is derived. -/
def attestReport (s : State) : State :=
  if s.sea.aliasKey = 0 then s.wr SEA_RCMD.STATUS stBUSY else
  let nonce := (List.range 12).flatMap fun i => natLE 4 (s.rd (SEA_NONCE.NONCE i))
  let (r, s1) := makeReport s nonce
  (List.range 152).foldl (fun t i => t.setReg (0x42100 + 4 * i) (BitVec.ofNat 32 (leAt r (4 * i) 4)))
    (s1.wr SEA_RCMD.STATUS stOK)

-- Sessions (R521)

/-- The session of a number. -/
def findSession (s : State) (n : Nat) : Option Session := s.sea.sessions.find? fun x => x.number = n

/-- Sessions close, each with its trace point (R633). -/
def closeSessions (s : State) (l : List Session) : State :=
  l.foldl (fun t x => logEvent t 0x3001 1 [x.number, x.slot])
    { s with sea := { s.sea with sessions := s.sea.sessions.filter fun x => !l.contains x } }

/-- SESSION_IDLE (R521): sessions without a command for 600 s close. -/
def sessionIdle (s : State) : State :=
  closeSessions s (s.sea.sessions.filter fun x => x.used + ns 600000000000 ≤ s.now)

/-- A session is opened (R521): a fifth one closes the one idle longest. -/
def addSession (s : State) (key : List Byte) (slot : Nat) : State × Nat :=
  let n := s.sea.nextSession % 2 ^ 32
  let v : Session := { number := n, key := key, slot := slot, used := s.now }
  let l := s.sea.sessions
  let oldest := l.foldl (fun b x => match b with
    | none => some x
    | some y => if x.used < y.used then some x else some y) none
  let s1 := if l.length < 4 then s else closeSessions s oldest.toList
  (logEvent { s1 with sea := { s1.sea with sessions := s1.sea.sessions ++ [v], nextSession := n + 1 } } 0x3001 1 [n, slot], n)

/-- The challenge of R521 step 1: N_B, E_B and the Alias signature. -/
def makeChallenge (s : State) : List Byte × State :=
  let (nb, s1) := randBytes s 32
  let (e, s2) := randScalar s1
  let (k, s3) := randScalar s2
  let eb := pubOf e
  (nb ++ eb ++ ecSign s.sea.aliasKey k (ascii "CHALLENGE" ++ natLE 8 s.sea.fuses.serial ++ nb ++ eb),
    { s3 with sea := { s3.sea with challenge := some (nb, e) } })

/-- Steps 2 and 3 of R521: the new session's number where the anchor and the signature are right. -/
def openSession (s : State) (a nf ef sig : List Byte) : State × Option Nat :=
  match s.sea.challenge, s.sea.fuses.anchor with
  | some (nb, e), some h =>
    let text := ascii "SESSION" ++ natLE 8 s.sea.fuses.serial ++ nb ++ nf ++ pubOf e ++ ef
    let s1 := { s with sea := { s.sea with challenge := none } }
    if s.on SEA_STATUS.RNG_OK && sha384 a = h && ecVerify a text sig then
      let key := (hmac384 (nb ++ nf) (ecdh e ef ++ ascii "SESSION")).take 32
      let (s2, n) := addSession { s1 with sea := { s1.sea with anchorKey := a } } key (anchorSlot s.sea.fuses)
      (s2, some n)
    else (s1, none)
  | _, _ => (s, none)

/-- The IV of a session message (R521). -/
def sessionIv (n counter : Nat) : List Byte := natLE 4 n ++ natLE 8 counter

/-- A CMD body opened (R521, R637): its session, counter and plaintext, where the counter is new and the tag right. -/
def openCmd (s : State) (aad body : List Byte) : Option (Session × Nat × List Byte) :=
  let n := leAt body 0 4
  let c := leAt body 4 8
  let text := (body.drop 12).take (body.length - 28)
  match findSession s n with
  | some v =>
    if v.last.all (· < c) && c < 2 ^ 63 && 28 ≤ body.length && gcmTag v.key (sessionIv n c) aad text = body.drop (body.length - 16) then
      some (v, c, gcmCrypt v.key (sessionIv n c) text)
    else none
  | none => none

/-- A CMD_RSP body: the command's counter with bit 63 set (R521, R637). -/
def sealRsp (v : Session) (c : Nat) (aad text : List Byte) : List Byte :=
  let iv := sessionIv v.number (c + 2 ^ 63)
  let x := gcmCrypt v.key iv text
  natLE 4 v.number ++ natLE 8 (c + 2 ^ 63) ++ x ++ gcmTag v.key iv aad x

/-- A session has accepted a command (R521). -/
def noteCmd (s : State) (n c : Nat) : State :=
  { s with sea := { s.sea with sessions := s.sea.sessions.map fun x => if x.number = n then { x with last := some c, used := s.now } else x } }

/-- A ramp directive that the Seal unit accepts (R521, R552): it sets PENDING. The key kept from a session must still be
that of the active anchor (R514). -/
def acceptDirective (s : State) (body : List Byte) : State :=
  let sq := leAt body 12 8
  let limit := leAt body 20 8
  let text := body.take 12 ++ natLE 8 sq ++ natLE 8 limit
  if leAt body 0 2 = 1 && s.sea.fuses.anchor = some (sha384 s.sea.anchorKey) && ecVerify s.sea.anchorKey text ((body.drop 28).take 96) &&
      s.sea.directive < sq && s.timeValid && s.nowNs < limit && limit ≤ s.nowNs + 1000000000 then
    let s1 := { s with sea := { s.sea with directive := sq } }
    let s2 := (s1.wr CSP_DIR.LEVEL (leAt body 2 1)).wr CSP_DIR.PENDING 1
    logEvent ((s2.wr CSP_DIR_AT_LO.AT_LO (leAt body 4 4)).wr CSP_DIR_AT_HI.AT_HI (leAt body 8 4)) 0x3003 2
      [leAt body 2 1, sq % 2 ^ 32, leAt body 4 4]
  else s

end Sys2Proof.Machine
end

