-- ==== Sys2Proof/Machine/Flags.lean ====
section
/-! DEFINITION. What software reads of the live state: status fields that follow the state of their unit, the interrupt
sources (R686) and the levels of the interrupt wires (R56 to R58). -/
namespace Sys2Proof.Machine

/-- A word with the given fields replaced. -/
def overlay (w : Word) (l : List (Fld × Nat)) : Word := l.foldl (fun x f => putBits x f.1.hi f.1.lo f.2) w

/-- The index of address `a` in an array of `n` registers. -/
def indexIn (base stride n a : Nat) : Option Nat :=
  if base ≤ a ∧ (a - base) % stride = 0 ∧ (a - base) / stride < n then some ((a - base) / stride) else none

/-- The code of a context's state (R322). -/
def CtxState.code : CtxState → Nat
  | .stopped => 0 | .ready => 1 | .waitSync => 2 | .waitTrig => 3 | .fencing => 4 | .stopping => 5 | .faulted => 6

/-- MRT_CTX_STATUS of a context (R356). -/
def ctxStatus0 (s : State) (k : Nat) : Word :=
  let c := s.ctx k
  BitVec.ofNat 32 (c.pc % 32768 + b2n c.cmdErr * 2 ^ 23 + (if c.state = .faulted then c.cause else 0) * 2 ^ 24 + c.state.code * 2 ^ 28)
def ctxStatus1 (s : State) (k : Nat) : Word :=
  let c := s.ctx k
  BitVec.ofNat 32 ((if c.state = .waitSync then c.waitObj else 0) + c.info % 65536 * 65536)

/-- MRT_FAULT_SUM: the faulted contexts of a core (R346). -/
def faultSum (s : State) (j : Nat) : Nat :=
  ((List.range 32).filter fun i => (s.ctx (32 * j + i)).state = .faulted).foldl (fun n i => n + 2 ^ i) 0

/-- HMP_CH_STATUS of a channel (R96). -/
def chStatus (s : State) (c : Nat) : Word :=
  let h := s.hmp.chans.get {} c
  BitVec.ofNat 32 (h.outstanding + b2n h.quiesced * 2 ^ 12 + h.quarantined * 2 ^ 16)

/-- XPT_USE (R293). -/
def xptUse (s : State) : Word := BitVec.ofNat 32 (s.xpt.oot.length + s.xpt.recs.length * 2 ^ 16)

/-- The source bits of BDG_FENCE. -/
def fenceSources (s : State) : Nat := bitsOf (s.reg BDG_FENCE.SW.addr).toNat 5 0

/-- DRAINED (R607). -/
def blockDrained (s : State) : Bool :=
  s.fenced && s.xpt.oot.isEmpty && (s.tgt.ops.all fun x => x.2.phase = .waiting) && s.yar.steps.isEmpty &&
    (s.yar.stoats.all fun o => o.be.isNone) && s.ctxs.all fun e => !e.2.stepping

/-- BDG_FENCE (R622). -/
def fenceWord (s : State) : Word :=
  overlay (s.reg BDG_FENCE.SW.addr) [(BDG_FENCE.FENCED, b2n s.fenced), (BDG_FENCE.DRAINED, b2n (blockDrained s))]

-- Interrupts (R56 to R59, R574, R686)

/-- The Hedgehog source of IRQ[15] (R574): an unacknowledged record at or above IRQ_MIN from an unmasked source, or a
class pending without a record, or a state other than NORMAL. -/
def hhgSource (s : State) : Bool :=
  let m := s.rd HHG_CFG.IRQ_MIN
  let pend := (List.range 5).filter fun c => m ≤ c && bitOf (s.rd HHG_PEND.PEND) c
  let open_ := (s.hhg.log.filter fun e => e.2.valid && !e.2.acked).map (·.2)
  !s.normal || pend.any fun c =>
    let l := open_.filter fun r => r.effective = c
    l.isEmpty || l.any fun r => !s.on (HHG_SRC_CFG.MASK r.src)

/-- The wires that pending sources drive, before the mask (R56, R686); a fabric source that names no wire of 0 to 12 drives
none. -/
def irqSources (s : State) : List Nat :=
  let one (b : Bool) (w : Nat) : List Nat := if b then [w] else []
  let fabric (l : List Nat) : List Nat := l.filter (· ≤ 12)
  one (hhgSource s) 15 ++
  one (s.on BDG_HB_CFG.EXPIRED || s.bdg.logLevels.any fun l => s.rd BDG_LOG_CFG.IRQ_LEVEL ≤ l) 14 ++
  one (s.reg CSP_EVT_PEND.WAKE_DONE.addr ≠ 0#32) 13 ++
  fabric (
    (s.queues.filter fun e => (e.2.unconsumed.any id) || e.2.state = .error).map (·.2.irqWire) ++
    ((List.range 4096).filter fun t => bitOf (s.rd (SYN_IRQ_PEND.PEND (t / 32))) (t % 32)).map (fun t => (s.trig t).arg % 16) ++
    one (s.rd SYN_POISON.COUNT ≠ 0 || s.on SYN_DELIV.AFAIL) (s.rd SYN_CFG.IRQ_WIRE) ++
    one ((List.range 512).any fun k => s.on (TRG_CTX.OVERFLOW k)) (s.rd TRG_CFG.IRQ_WIRE) ++
    one (s.ctxs.any fun e => e.2.state = .faulted) (s.rd MRT_CFG.IRQ_WIRE) ++
    one (s.yar.groups.any fun e => e.2.failSt ≠ 0 || e.2.state = 2 || e.2.state = 3) (s.rd YAR_GCFG.IRQ_WIRE) ++
    one (s.rd FOX_ERR.POISON ≠ 0) (s.rd FOX_CFG.IRQ_WIRE))

/-- The level of IRQ wire `w` (R54, R56, R57): the fabric wires are low in Hibernate and during Tier 3, and all while
PORST_n is low. -/
def irqLevel (s : State) (w : Nat) : Bool :=
  !s.pins.porst && bitOf (s.rd IRQ_LINE_MASK.ENABLE) w && (irqSources s).contains w &&
    (13 ≤ w || (w < 13 && s.power ≠ 3 && s.rd BDG_STATUS.TIER ≠ 3))

/-- IRQ_LINE_STATE.LEVEL (R58). -/
def irqLevels (s : State) : Nat := ((List.range 16).filter (irqLevel s)).foldl (fun n w => n + 2 ^ w) 0

-- Live status fields

/-- Live fields of the always-on and Seal registers. -/
def liveA (s : State) (a : Nat) : List (Fld × Nat) :=
  if a = BUILD_CFG.LINK_PORTS.addr then
    [(BUILD_CFG.STAGING_MIB, s.build.stagingMib), (BUILD_CFG.FOX_PRESENT, b2n s.build.fox),
     (BUILD_CFG.HMP_CHANNELS, s.build.channels), (BUILD_CFG.LANES_8, b2n s.build.lanes8), (BUILD_CFG.LINK_PORTS, s.build.ports)]
  else if a = GLOBAL_STATUS.SAFE.addr then
    [(GLOBAL_STATUS.TIME_VALID, b2n s.timeValid), (GLOBAL_STATUS.SAFE, b2n (!s.normal)),
     (GLOBAL_STATUS.OUT_OF_SERVICE, s.rd BDG_STATUS.OUT_OF_SERVICE), (GLOBAL_STATUS.FENCED, b2n s.fenced),
     (GLOBAL_STATUS.INIT_BUSY, s.rd HHG_INIT.BUSY), (GLOBAL_STATUS.TIER, s.rd BDG_STATUS.TIER),
     (GLOBAL_STATUS.FC_RUN, s.rd CSP_STATUS.FC_RUN), (GLOBAL_STATUS.PSTATE, s.power)]
  else if a = IRQ_LINE_STATE.LEVEL.addr then [(IRQ_LINE_STATE.LEVEL, irqLevels s)]
  else if a = CSP_STATUS.STATE.addr then [(CSP_STATUS.RAMPING, b2n (ramping s))]
  else if a = CSP_BUDGET2.FLOOR.addr then [(CSP_BUDGET2.FLOOR, ceilFloor s)]
  else if a = HHG_STATUS.STATE.addr then
    [(HHG_STATUS.LOG_COUNT, (s.hhg.log.filter fun e => e.2.valid).length), (HHG_STATUS.TIME_INVALID, b2n (!s.timeValid))]
  else if a = BDG_FENCE.SW.addr then [(BDG_FENCE.FENCED, b2n s.fenced), (BDG_FENCE.DRAINED, b2n (blockDrained s))]
  else if a = BDG_FTIME_LO.TIME_LO.addr then [(BDG_FTIME_LO.TIME_LO, s.nowNs)]
  else if a = BDG_FTIME_HI.TIME_HI.addr then [(BDG_FTIME_HI.TIME_HI, s.nowNs / 2 ^ 32)]
  else if a = BDG_GROVE.MEMBERS.addr then [(BDG_GROVE.MEMBERS, if s.on BDG_GROVE.STEWARD then s.bdg.grove.length else 0)]
  else if a = SEA_STATUS.CRED.addr then
    [(SEA_STATUS.SESSIONS, s.sea.sessions.length), (SEA_STATUS.CRED, b2n (!s.sea.cred.isEmpty)),
     (SEA_STATUS.MIN_SVN, s.sea.fuses.minSvn), (SEA_STATUS.LOCK, s.rd SEA_POLICY.LOCK),
     (SEA_STATUS.DEBUG_LOCK, b2n s.sea.fuses.debugLock), (SEA_STATUS.ANCHOR_KNOWN, b2n (!s.sea.anchorKey.isEmpty)),
     (SEA_STATUS.ANCHOR_SLOT, anchorSlot s.sea.fuses)]
  else if a = SEA_SERIAL_LO.SERIAL.addr then [(SEA_SERIAL_LO.SERIAL, s.sea.fuses.serial)]
  else if a = SEA_SERIAL_HI.SERIAL.addr then [(SEA_SERIAL_HI.SERIAL, s.sea.fuses.serial / 2 ^ 32)]
  else if a = SEA_FW_SVN.SVN.addr then [(SEA_FW_SVN.SVN, s.sea.fwSvn)]
  else match indexIn (CSP_PORT.PSTATE 0).addr 4 12 a with
  | some p => [(CSP_PORT.PSTATE p, portState s p)]
  | none => match indexIn (SEA_LINK1.TX_GROUPS 0).addr 8 12 a with
  | some p => [(SEA_LINK1.TX_GROUPS p, (keyOf (s.link p).txKeys (s.link p).txPhase).counter / 65536)]
  | none => []

/-- Live fields of the lanes, links, router and transport. -/
def liveB (s : State) (a : Nat) : List (Fld × Nat) :=
  if a = RTR_RESIDENT.RES0.addr then
    [(RTR_RESIDENT.RES1, (s.rtr.bufs.filter (·.pkt.epoch)).length), (RTR_RESIDENT.RES0, (s.rtr.bufs.filter fun b => !b.pkt.epoch).length)]
  else if a = XPT_USE.OOT_USED.addr then [(XPT_USE.REC_USED, s.xpt.recs.length), (XPT_USE.OOT_USED, s.xpt.oot.length)]
  else if a = XPT_USE2.HOLD_USED.addr then
    [(XPT_USE2.HOLD_USED, s.xpt.held.length), (XPT_USE2.BMP_USED, (s.xpt.peers.filter fun e => e.2.bmpIdx.isSome).length)]
  else if 0x80000 ≤ a ∧ a < 0x140000 then
    let p := (a - 0x80000) / 0x10000
    let l := s.link p
    let o := a % 0x10000
    if o = 0x10 then [(LNK_SEQ.TX_NEXT p, l.txNext), (LNK_SEQ.TX_ACKED p, l.txAcked)]
    else if o = 0x14 then [(LNK_RSEQ.RB_FILL p, l.replay.length), (LNK_RSEQ.RX_EXPECT p, l.rxExpect)]
    else if 0x200 ≤ o ∧ o < 0x310 then
      let v := (o - 0x200) / 16
      let c := l.credit v
      if o % 16 = 0 then [(LNK_CREDIT_FAR0.USED_H p v, c.usedH), (LNK_CREDIT_FAR0.LIM_H p v, c.limH)]
      else if o % 16 = 4 then [(LNK_CREDIT_FAR1.LIM_D p v, c.limD)]
      else if o % 16 = 8 then [(LNK_CREDIT_FAR2.USED_D p v, c.usedD)] else []
    else []
  else match indexIn (OWL_SUMMARY.AGE 0).addr 4 96 a with
  | some k => [(OWL_SUMMARY.AGE k, match (s.lane k).scanAt with
      | some t => min 255 ((s.now - t) / ns 10000000)
      | none => 255)]
  | none => match indexIn (RTR_PORT_STAT.USABLE 0).addr 4 12 a with
  | some p => [(RTR_PORT_STAT.BUBBLE_SHORT p, b2n (bubbleShort s p)), (RTR_PORT_STAT.USABLE p, b2n (usable s p))]
  | none => match indexIn (XPT_CTX.USED 0).addr 4 512 a with
  | some k => [(XPT_CTX.USED k, ootUsed s k)]
  | none => []

/-- Live fields of the processing units and the host ports. -/
def liveC (s : State) (a : Nat) : List (Fld × Nat) :=
  if a = SYN_DELIV.QUEUED.addr then [(SYN_DELIV.QUEUED, s.syn.deliv.length)]
  else if a = YAR_GRUN.RUNNING.addr then
    [(YAR_GRUN.RUNNING, groupsRunning s), (YAR_GRUN.CREATED, (s.yar.groups.filter fun e => e.2.state ≠ 0).length)]
  else if a = STO_STAT.SLOTS.addr then
    [(STO_STAT.SLOTS, s.yar.stoats.length), (STO_STAT.OUTSTANDING, (s.yar.stoats.filter fun o => o.be.isSome).length)]
  else if a = YAR_STG_STAT.FREE.addr then
    [(YAR_STG_STAT.RETIRED, s.yar.retired.length), (YAR_STG_STAT.FREE, (freeStaging s).length)]
  else if a = YAR_SOVF_SIZE.SEGS.addr then
    [(YAR_SOVF_SIZE.IN_USE, (spillUsed s).length)]
  else if a = FOX_STATUS.ISLAND.addr then
    [(FOX_STATUS.QUEUE, s.fox.queue.length), (FOX_STATUS.MARKER, foxMarked s), (FOX_STATUS.LOADING, foxLoading s),
     (FOX_STATUS.FEEDING, foxFeeding s), (FOX_STATUS.ISLAND, s.fox.island)]
  else if a = SCH_STAT.FLOWS.addr then [(SCH_STAT.FLOWS, flowCount s)]
  else match indexIn (MRT_FAULT_SUM.FAULTED 0).addr 4 16 a with
  | some j => [(MRT_FAULT_SUM.FAULTED j, faultSum s j)]
  | none => match indexIn (HMP_CH_STATUS.OUTSTANDING 0).addr 4 20 a with
  | some c => if c < s.build.channels then [(⟨a, 31, 0⟩, (chStatus s c).toNat)] else []
  | none => match indexIn (TRG_CTX.LEVEL 0).addr 4 512 a with
  | some k => [(TRG_CTX.LEVEL k, (s.ctx k).fifo.length)]
  | none => match indexIn (MRT_CTX_STATUS0.STATE 0).addr 8 512 a with
  | some k => [(⟨a, 31, 0⟩, (ctxStatus0 s k).toNat)]
  | none => match indexIn (MRT_CTX_STATUS1.INFO 0).addr 8 512 a with
  | some k => [(⟨a, 31, 0⟩, (ctxStatus1 s k).toNat)]
  | none => match indexIn (SCH_PORT.RATE 0).addr 4 12 a with
  | some p => [(SCH_PORT.RATE p, portRate s p)]
  | none => match indexIn (SCH_TOKENS.TOKENS 0).addr 16 64 a with
  | some i => [(⟨a, 31, 0⟩, (tokensWord s i).toNat)]
  | none => match indexIn (FOX_SLOT_POISON.ACTIVE 0).addr 4 4 a with
  | some t =>
    let bits (plane : Nat) : Nat := ((s.fox.poison.filter fun n => n / 16 = 4 * plane + t).map fun n => 2 ^ (n % 16)).sum
    [(FOX_SLOT_POISON.SHADOW t, bits 1), (FOX_SLOT_POISON.ACTIVE t, bits 0)]
  | none => []

/-- A register word as a read returns it. -/
def readReg (s : State) (a : Nat) : Word :=
  overlay (s.reg a) (if a < 0x50000 then liveA s a else if a < 0x1C0000 then liveB s a else liveC s a)

end Sys2Proof.Machine
end

