-- ==== Sys2Proof/Machine/Jtag.lean ====
section
/-! DEFINITION. The test access port's instructions (R72), and the instrument segments that they open (R76). -/
namespace Sys2Proof.Machine

/-- The instruction that a code selects (R72): every unlisted code selects BYPASS. -/
def jtagOf (code : Nat) : JtagIr :=
  match code with
  | 0x00 => .extest
  | 0x01 => .idcode
  | 0x02 => .samplePreload
  | 0x04 => .clamp
  | 0x05 => .highz
  | 0x10 => .ijtagAccess
  | _ => .bypass

/-- The instruction that the instruction register selects. -/
def State.jtag (s : State) : JtagIr := jtagOf s.pins.ir.toNat

/-- Instructions that fence the block (R75). -/
def JtagIr.fences (i : JtagIr) : Bool := i = .extest || i = .clamp || i = .highz

/-- The public segments of the 1687 network are open: IJTAG_ACCESS is selected (R76). -/
def State.publicSegments (s : State) : Bool := s.jtag = .ijtagAccess

/-- Every other segment is open too: DEBUG_LOCK is not blown, or an unlock stands (R76, R522). -/
def State.privateSegments (s : State) : Bool :=
  s.publicSegments && (!s.sea.fuses.debugLock || s.on SEA_STATUS.DBG_UNLOCKED)

end Sys2Proof.Machine
end

