-- ==== Sys2Proof/Machine/Pins.lean ====
section
/-! DEFINITION. The block's output pins as they rest between commands (R37, R54, R56, R62, R67, R71, R72). The lanes' pins
are `Lanes.wire`, the host ports' handshakes `HmpChan.up`, `State.oppReady` and TRG_READY. -/
namespace Sys2Proof.Machine

/-- What a pin shows: a level, high impedance, or a running clock. -/
inductive Level
  | low
  | high
  | z
  | clock
deriving DecidableEq, Repr

def Level.of (b : Bool) : Level := if b then .high else .low

/-- The output pins (R37) but the lanes and the bundles of the host ports. -/
inductive Pin
  | fcOut
  | fcValid
  | irq (w : Nat)
  | fltAlive
  | flSck
  | flCsN
  | flIo (i : Nat)
  | sbMiso
  | jtTdo
deriving DecidableEq, Repr

/-- The read mode in which the flash is driven: single I/O until discovery has found the part (R64). -/
def State.flashMode (s : State) : ReadMode := match s.burrow.part with | some f => f.mode | none => .m111

/-- A pin's level in operation. Between flash accesses the select is high and the clock low, as SPI mode 0 rests (R64);
FL_IO[3:2] are driven high in modes 1-1-1 and 1-1-2 (R67), and FL_IO is released otherwise (log entry 77). SB_MISO and
JT_TDO are released between frames and between scans (R71). -/
def State.drives (s : State) (x : Pin) : Level :=
  match x with
  | .fcOut => if s.on CSP_STATUS.FC_RUN then .clock else .low
  | .fcValid => .of s.pins.fcValid
  | .irq w => .of (irqLevel s w)
  | .fltAlive => .of s.pins.fltAlive
  | .flSck => .low
  | .flCsN => .high
  | .flIo i => if 2 ≤ i && (s.flashMode = .m111 || s.flashMode = .m112) then .high else .z
  | .sbMiso => .z
  | .jtTdo => .z

/-- Cells of the boundary register: PORST_n 0, HRST_n 1, IRQ[15:0] 2 to 17, FLT_ALIVE 18, HERR_P 19 to 26, HERR_N 27 to 34,
FL_SCK 35, FL_CS_n 36, FL_IO 37 to 40, SB_SCK 41, SB_CS_n 42, SB_MOSI 43, SB_MISO 44 (R74). The order is the model's (log
entry 69). -/
def boundaryCells : Nat := 45

/-- The boundary cell of an output pin, where it has one (R74). -/
def Pin.cell : Pin → Option Nat
  | .irq w => some (2 + w)
  | .fltAlive => some 18
  | .flSck => some 35
  | .flCsN => some 36
  | .flIo i => some (37 + i)
  | .sbMiso => some 44
  | _ => none

/-- The pin faces the board (R37). -/
def Pin.board : Pin → Bool
  | .fltAlive => true
  | .flSck => true
  | .flCsN => true
  | .flIo _ => true
  | .sbMiso => true
  | _ => false

/-- The pin is a three-state one, which PORST_n releases (R54). -/
def Pin.releases (x : Pin) : Bool := match x with | .fltAlive => false | .jtTdo => true | x => x.board

/-- What a pin shows: its state while PORST_n is low (R54); under EXTEST, on the board's side, and under CLAMP the value
preloaded into its boundary cell; under HIGHZ, on the board's side, high impedance (R72); else its level in operation. -/
def State.pin (s : State) (x : Pin) : Level :=
  if s.pins.porst then (if x.releases then .z else .low) else
  match s.jtag, x.cell with
  | .highz, _ => if x.board then .z else s.drives x
  | .extest, some c => if x.board then .of (bitOf s.pins.preload c) else s.drives x
  | .clamp, some c => .of (bitOf s.pins.preload c)
  | _, _ => s.drives x

end Sys2Proof.Machine
end

