-- ==== Sys2Proof/Machine/Hedgehog.lean ====
section
/-! DEFINITION. Hedgehog (R569 to R596): events, the fault log, escalation, the safe state, the scrubber; and the fence
with the capture that follows a fault (R606, R613, R615). -/
namespace Sys2Proof.Machine

-- The fence (R29, R415, R606)

/-- The units stop admitting work where the block has just become fenced (R29, R415). -/
def afterFence (was : Bool) (s : State) : State := if !was && s.fenced then settle (fenceSteps (fenceXpt s)) else s

/-- A source of BDG_FENCE is set or cleared (R606). -/
def setFence (s : State) (f : Fld) (on : Bool) : State := afterFence s.fenced (s.wr f (b2n on))

-- The log (R575)

/-- The 32 bytes of a record (R575). -/
def recBytes (r : FaultRec) : List Byte :=
  natLE 1 r.src ++ natLE 1 (r.reported + 16 * r.effective + 128 * b2n r.escalated) ++ natLE 1 r.cause ++
    natLE 1 (b2n r.wire + 2 * b2n r.acked + 4 * b2n r.lostBefore) ++ natLE 4 r.info ++ natLE 8 r.ftime ++
    natLE 4 r.seq ++ natLE 4 r.repeats ++ List.replicate 8 0

/-- The slot with the newest record. -/
def newestSlot (s : State) : Option (Nat × FaultRec) :=
  (s.hhg.log.filter fun e => e.2.valid).find? fun e => e.2.seq + 1 = s.hhg.seq

/-- The slot with the oldest F0 or F1 record. -/
def oldestMinor (s : State) : Option Nat :=
  ((s.hhg.log.filter fun e => e.2.valid && e.2.effective ≤ 1).foldl (fun b e => match b with
    | none => some e
    | some x => if e.2.seq < x.2.seq then some e else some x) none).map (·.1)

/-- Sets the pending bit of a class (R573). -/
def setPend (s : State) (c : Nat) : State := s.wr HHG_PEND.PEND (s.rd HHG_PEND.PEND ||| 2 ^ c)

/-- Counts an event of a class (R589). -/
def countClass (s : State) (c : Nat) : State :=
  match c with
  | 0 => s.bump HHG_CNT_A.F0 1
  | 1 => s.bump HHG_CNT_A.F1 1
  | 2 => s.bump HHG_CNT_B.F2 1
  | 3 => s.bump HHG_CNT_B.F3 1
  | _ => s.bump HHG_CNT_B.F4 1

/-- A record takes a slot; `moves` says that HEAD passes it. -/
def putRecord (s : State) (slot : Nat) (r : FaultRec) (moves : Bool) : State :=
  let s1 := { s with hhg := { s.hhg with
    log := s.hhg.log.put slot { r with seq := s.hhg.seq, lostBefore := s.hhg.lost, valid := true }
    seq := (s.hhg.seq + 1) % 2 ^ 32, lost := false } }
  if moves then s1.wr HHG_STATUS.HEAD (slot + 1) else s1

/-- The event is dropped from the log (R575). -/
def loseRecord (s : State) : State := { s.bump HHG_MISC.LOST 1 with hhg := { s.hhg with lost := true } }

/-- The slot at HEAD can take a record. -/
def headFree (s : State) : Bool :=
  let r := s.hhg.log.get {} (s.rd HHG_STATUS.HEAD)
  !r.valid || r.acked

-- The safe state (R578 to R580)

/-- The quiet period starts (R579): in fabric time, or in ac cycles while fabric time is invalid. -/
def startQuiet (s : State) : State :=
  let n := s.rd HHG_CFG.QUIET
  { s with hhg := { s.hhg with
    quietEnd := some (if s.timeValid then s.after (10000000 * n) else s.acs + 15625 * n), quietInAc := !s.timeValid } }

/-- The quiet period has run out. -/
def quietOver (s : State) : Bool :=
  match s.hhg.quietEnd with
  | some t => decide (t ≤ if s.hhg.quietInAc then s.acs else s.now)
  | none => false

/-- SAFE_STATE_ENTRY (R578): the fence, the HMP without new commands, every port in electrical idle, FLT_ALIVE stopped. -/
def enterSafe (s : State) (r : FaultRec) : State :=
  let s1 := { s with
    hhg := { s.hhg with fatal := match s.hhg.fatal with | some f => some f | none => some r }
    pins := { s.pins with fltStopped := true } }
  let s2 := burrowPut (hmpQuiesce s1) recFATAL (recBytes (s1.hhg.fatal.getD r))
  let s3 := (List.range 12).foldl lockLost (setFence (s2.wr HHG_STATUS.STATE 2) BDG_FENCE.SAFE true)
  startQuiet s3

/-- A Tier 2 or 3 past its fence, or a test instruction, holds the HMP without new requests (R52, R75, R132). -/
def State.hmpBarred (s : State) : Bool :=
  s.pins.testFence || (match s.bdg.tier with | some r => 2 ≤ r.n && r.step ≠ .hold | none => false)

/-- Hedgehog's STATE returns to NORMAL (R579, R593): F4 pending and HHG_FATAL are cleared, FLT_ALIVE resumes. -/
def leaveSafe (s : State) : State :=
  if s.normal then s else
  let s1 := (s.wr HHG_STATUS.STATE 0).wr HHG_PEND.PEND (s.rd HHG_PEND.PEND % 16)
  let s2 := { s1 with
    hhg := { s1.hhg with fatal := none, quietEnd := none }, pins := { s1.pins with fltStopped := false }
    hmp := { s1.hmp with quiesce := s.hmpBarred } }
  setFence s2 BDG_FENCE.SAFE false

-- Capture (R613, R615)

/-- The engine code (R602, R612) that a fault names, by its source, cause and info. -/
def faultEngine (src cause info : Nat) : Option Nat :=
  match src with
  | 0x0F => some 19
  | 0x10 => some 16
  | 0x13 => some (info % 512 / 32)
  | 0x15 => some 17
  | 0x16 => some 18
  | 0x18 => if cause = 3 then some info else none
  | _ => none

/-- Context `k` has an item in an engine (R615). -/
def hasItem (s : State) (e k : Nat) : Bool :=
  let c := s.ctx k
  if e < 16 then k / 32 = e && c.state ≠ .stopped && c.state ≠ .waitTrig
  else match e with
  | 16 => s.tgt.ops.any fun x => x.2.pkt.src = s.node && x.2.pkt.ctx = k
  | 17 => (s.yar.steps.any fun x => x.2.ctx = k) || s.yar.stoats.any fun o => match o.be with | some b => b.1 = k | none => false
  | 18 => (s.fox.queue ++ s.fox.running).any fun x => x.ctx = k
  | 19 => s.xpt.ops.any fun x => x.2.ctx = k
  | 20 => s.out.any fun o => o.flow = .ctx k
  | _ => false

/-- The body of a CAPTURE record (R657). -/
def captureBody (s : State) (r : FaultRec) : List Byte :=
  let live := (List.range 512).filter fun k => (s.ctx k).state ≠ .stopped
  recBytes r ++ natLE 4 (s.reg BDG_STATUS.TIER.addr).toNat ++ natLE 4 (fenceWord s).toNat ++
    ((List.range 16).flatMap fun j => natLE 4 (faultSum s j)) ++ natLE 4 (xptUse s).toNat ++
    ((List.range 20).flatMap fun c => natLE 4 (chStatus s c).toNat) ++ natLE 4 live.length ++
    live.flatMap fun k => natLE 4 ((s.ctx k).pc % 32768 + (s.ctx k).state.code * 2 ^ 15 + k * 2 ^ 19)

/-- CAPTURE (R613, R615): the suspect set and a summary in the Burrow. -/
def capture (s : State) (r : FaultRec) (engine : Option Nat) : State :=
  let sus := match engine with | some e => (List.range 512).filter (hasItem s e) | none => []
  let s1 := (List.range 16).foldl (fun t j =>
    t.wr (BDG_SUSPECT_SET.SUSPECT j) ((sus.filter fun k => k / 32 = j).map fun k => 2 ^ (k % 32)).sum) s
  let s2 := burrowPut { s1 with bdg := { s1.bdg with fault := (r.src, r.cause), captured := true } } recCAPTURE (captureBody s1 r)
  logEvent s2 0x2003 2 [s2.rd BDG_BURROW_SEQ.SECTOR_SEQ]

-- FAULT_EVENT (R572 to R576)

/-- A suspect's solo slot sees the fault again (R616): it is guilty, its Tier 0 is done by `reset`, and it is held. -/
def replayHit (s : State) (r : Replay) (reset : State → Nat → State) : State :=
  let k := r.solo
  let s1 := reset { s with bdg := { s.bdg with replay := none } } k
  let s2 := s1.wr (BDG_HELD.HELD (k / 32)) (s1.rd (BDG_HELD.HELD (k / 32)) ||| 2 ^ (k % 32))
  logEvent ((s2.wr BDG_SUSPECT.STATE 2).wr BDG_SUSPECT.GUILTY k) 0x2004 2 [2, k]

/-- The exit from the safe state is abandoned (R580): its Tier 3 ends where it stands. -/
def abandonExit (s : State) : State :=
  setFence (({ s with bdg := { s.bdg with tier := none } }.wr BDG_STATUS.TIER 0).wr BDG_TIER_CMD.BUSY 0) BDG_FENCE.TIER false

/-- What follows the record of an event handled at class `c` (R573): the pending bit, the copy to the Burrow, the capture,
the safe state. -/
def reactTo (s : State) (c : Nat) (r : FaultRec) : State :=
  let s1 := setPend s c
  if c = 3 then
    let s2 := capture (burrowPut s1 recFAULT (recBytes r)) r (faultEngine r.src r.cause r.info)
    if s2.rd HHG_STATUS.STATE = 2 then startQuiet s2
    else if s2.rd HHG_STATUS.STATE = 3 then startQuiet (abandonExit (s2.wr HHG_STATUS.STATE 2)) else s2
  else if c = 4 then
    let s2 := if s1.safe then startQuiet s1
      else if s1.rd HHG_STATUS.STATE = 3 then startQuiet (abandonExit (s1.wr HHG_STATUS.STATE 2))
      else enterSafe s1 r
    capture s2 r (faultEngine r.src r.cause r.info)
  else s1

/-- No slot of the log is left for an event of class F2 or F3 (R575). -/
def logFull (s : State) : Bool := !headFree s && (oldestMinor s).isNone

/-- The record an event makes, handled at class `c`; `up` says that it is handled one class higher for want of a slot
(R575). -/
def recordEvent (s : State) (r : FaultRec) (c : Nat) (esc up : Bool) : State :=
  let r1 := { r with effective := c, escalated := esc }
  let same (e : Nat × FaultRec) : Bool := e.2.src = r.src && e.2.cause = r.cause && e.2.info = r.info
  if c ≤ 1 then
    match (newestSlot s).filter same with
    | some e => { s with hhg := { s.hhg with log := s.hhg.log.put e.1 { e.2 with repeats := min (e.2.repeats + 1) (2 ^ 32 - 1) } } }
    | none => if headFree s then setPend (putRecord s (s.rd HHG_STATUS.HEAD) r1 true) c else loseRecord s
  else if headFree s then
    reactTo (putRecord s (s.rd HHG_STATUS.HEAD) r1 true) c { r1 with seq := s.hhg.seq, lostBefore := s.hhg.lost }
  else if c = 4 then reactTo s c { r1 with seq := s.hhg.seq }
  else match oldestMinor s with
  | some slot => reactTo (putRecord s slot r1 false) c { r1 with seq := s.hhg.seq, lostBefore := s.hhg.lost }
  | none =>
    let s1 := loseRecord s
    if up then reactTo (s1.bump HHG_MISC.ESCALATED 1) (c + 1) { r1 with effective := c + 1, escalated := true, seq := s.hhg.seq }
    else reactTo s1 c { r1 with seq := s.hhg.seq }

/-- FAULT_EVENT (R570 to R576, R580, R616): the event that has waited longest is recognised. -/
def faultEvent (s : State) (reset : State → Nat → State) : State :=
  match s.hhg.waiting with
  | [] => s
  | e :: rest =>
    let s0 := { s with hhg := { s.hhg with waiting := rest } }
    let eff := max e.cls (s.rd (HHG_SRC_CFG.MIN_CLASS e.src))
    let may := s.on HHG_CFG.ESC_EN && !s.on (HHG_SRC_CFG.NO_ESC e.src)
    let esc := may && (eff = 2 || eff = 3) && bitOf (s.rd HHG_PEND.PEND) eff
    let c := if esc then eff + 1 else eff
    let up := may && !esc && (c = 2 || c = 3) && logFull s0
    let s1 := countClass (if esc then s0.bump HHG_MISC.ESCALATED 1 else s0) (if up then c + 1 else c)
    let r : FaultRec :=
      { src := e.src, reported := e.cls, cause := e.cause, wire := e.wire, info := e.info, ftime := s.stampNs }
    let s2 := recordEvent s1 r c esc up
    match s.bdg.replay with
    | some v => if v.src = e.src && v.cause = e.cause then replayHit s2 v reset else s2
    | none => s2

/-- HHG_PEND (R574, R575): the classes of `w` are acknowledged. -/
def hhgAck (s : State) (w : Nat) : State :=
  let p := s.rd HHG_PEND.PEND
  { s.wr HHG_PEND.PEND ((List.range 5).filter (fun c => bitOf p c && !bitOf w c) |>.foldl (fun n c => n + 2 ^ c) 0) with
    hhg := { s.hhg with log := s.hhg.log.mapAll {} fun _ r => if r.valid && bitOf w r.effective then { r with acked := true } else r } }

/-- A dual-rail pair (R571): 00 or 11 for more than 2 ac makes one record until the pair reads 01 or 10 again. -/
def wireFault (s : State) (pair : Nat) : State :=
  if s.pins.wireFaults.contains pair then s else
  let s1 := { s.bump HHG_MISC.WIRE 1 with
    pins := { s.pins with wireFaults := pair :: s.pins.wireFaults }
    hhg := { s.hhg with waiting := s.hhg.waiting ++ [⟨pair, s.rd HHG_CFG.WIRE_CLASS, 0xFE, 0, true⟩] } }
  s1

/-- The pair reads 01 or 10 again (R571). -/
def wireOk (s : State) (pair : Nat) : State :=
  { s with pins := { s.pins with wireFaults := s.pins.wireFaults.filter (· ≠ pair) } }

/-- HERR_ERROR (R60): one sample of 10 latches the error; its class is configured. -/
def herrError (s : State) (i : Nat) : State := report (wireOk s i) i (s.rd (HHG_SRC_CFG.MIN_CLASS i)) 0x01 0

-- The self-check (R577)

/-- The words that Hedgehog checks in turn: its configuration, its counters and status, the log. -/
def selfWords : List Nat :=
  [0x20000, 0x20004, 0x20008, 0x2000C, 0x20010, 0x20014, 0x20018, 0x20040, 0x20044, 0x20048, 0x20050] ++
    (List.range 27).map (fun i => 0x20100 + 4 * i) ++ (List.range 8).map (fun i => 0x20800 + 4 * i) ++
    (List.range 512).map (fun i => 0x21000 + 4 * i)

/-- SELF_CHECK (R577): one word an ac; `f` is 1 for a parity error, 2 for decoders that disagree. -/
def selfCheck (s : State) (f : Nat) : State :=
  let i := s.hhg.selfPtr
  let a := selfWords.getD i 0
  let s0 := { s with hhg := { s.hhg with selfPtr := if i + 1 < selfWords.length then i + 1 else 0 } }
  let cls := if s.on HHG_CFG.SELF_SAFE then 4 else 3
  if f = 0 then s0
  else if f = 2 then report s0 0x0A cls 0x02 0
  else
    let s1 := if a = 0x20000 then s0.setReg a (resetWord a) else s0
    let cls1 := if s1.on HHG_CFG.SELF_SAFE then 4 else 3
    let s2 := if 0x21000 ≤ a then { s1 with hhg := { s1.hhg with log := s1.hhg.log.drop ((a - 0x21000) / 32) } } else s1
    report s2 0x0A cls1 0x01 i

-- The scrubber (R581 to R583, R594, R595)

/-- SECDED words of fabric SRAM in the build (R6, R581): the staging, the replay buffers and the weight store that it has. -/
def scrubWords (s : State) : Nat :=
  5767168 - (24 - s.build.stagingMib) * 131072 - (12 - s.build.ports) * 65536 - (if s.build.fox then 0 else 131072)

/-- A pass ends with its last word (R594, R595). -/
def scrubCount (s : State) : State :=
  let n := s.hhg.scrubPos + 1
  if n < scrubWords s then { s with hhg := { s.hhg with scrubPos := n, scrubAt := s.now } } else
  let s1 := (s.wrapAdd HHG_SCRUB_STAT.PASSES 1).wr HHG_SCRUB_TIME.LAST_MS ((s.now - s.hhg.scrubStart) / ns 1000000)
  { s1 with hhg := { s1.hhg with scrubPos := 0, scrubStart := s.now, scrubAt := s.now } }

/-- The effect of an uncorrectable word of a structure group (R35, R583), numbered by R685, and the class of its record. -/
def scrubEffect (s : State) (g w : Nat) : State × Nat :=
  match g with
  | 0 => (retireSegment s (w / 8192), 2)
  | 1 =>
    let p := w / 65536
    let slot := w % 65536 / 32
    (s.setLink p { s.link p with replay := (s.link p).replay.map fun f => if f.seq % 2048 = slot then { f with marked := true } else f }, 1)
  | 2 => (peerPoison s (w / 2), 2)
  | 3 =>
    let v := s.win (w / 4)
    (if v.state = .valid || v.state = .revoking then s.setWin (w / 4) { v with state := .invalid } else s, 2)
  | 4 => (if (s.entry (w / 4)).isSome then ootPoison s (w / 4) else s, 2)
  | 5 => (foxPoison s (w / 1024), 2)
  | 6 =>
    let l := w / 2 / 4
    (dropLines { s with mrt := { s.mrt with imemPoison := l :: s.mrt.imemPoison.erase l } } (· = l), 2)
  | 7 => (synPoison s w, 2)
  | 8 =>
    let p := w / 16384
    match s.rtr.bufs.find? fun b => b.from_ = p with
    | some b => (releaseBuf { s with rtr := { s.rtr with bufs := s.rtr.bufs.erase b } } b, 1)
    | none => (s, 1)
  | 9 => ({ s with mrt := { s.mrt with scratchPoison := w :: s.mrt.scratchPoison.erase w } }, 2)
  | 10 =>
    let bad (i : Nat) : State := s.setPeer i { s.peer i with rxState := 4 }
    if w < 131072 then (match s.xpt.recs.find? (w / 4) with | some r => (bad r.stream, 2) | none => (s, 2))
    else if w < 196608 then
      (match List.find? (fun e : Nat × Peer => e.2.bmpIdx = some ((w - 131072) / 8)) s.xpt.peers with | some e => (bad e.1, 2) | none => (s, 2))
    else (match s.xpt.held.find? ((w - 196608) / 16) with | some h => (bad h.stream, 2) | none => (s, 2))
  | 11 => (s.setTrig (w / 8) { s.trig (w / 8) with armed := false, poisoned := true }, 2)
  | 12 => (if (s.group (w / 32)).state = 0 then s else settle (errorGroup s (w / 32)), 2)
  | 13 => ({ s with rtr := { s.rtr with spoiled :=
      2 * w :: (2 * w + 1) :: s.rtr.spoiled.filter (fun x => x / 2 ≠ w) } }, 3)
  | _ => (s, 3)

/-- The source, cause and info under which the owning unit of a structure group reports a word that its own access found
uncorrectable (R583, R683): the groups whose unit has a cause for it. -/
def functionalRecord (g w : Nat) : Option (Nat × Nat × Nat) :=
  match g with
  | 0 => some (0x15, 0x01, w / 8192)
  | 5 => let n := w / 1024; some (0x16, 0x01, n % 16 + n / 16 % 4 * 16 + n / 64 * 256)
  | 7 => some (0x14, 0x01, w)
  | 8 => some (0x0E, 0x01, w / 16384)
  | 12 => some (0x15, 0x02, w / 32)
  | 13 => some (0x0E, 0x02, w / 8192 * 65536 + w % 8192 * 2)
  | _ => none

/-- The word is already known to be uncorrectable, by its own mark: it is reported once (R583). -/
def wordMarked (s : State) (g w : Nat) : Bool :=
  match g with
  | 7 => s.objPoisoned w
  | 9 => s.mrt.scratchPoison.contains w
  | 13 => s.rtr.spoiled.contains (2 * w) || s.rtr.spoiled.contains (2 * w + 1)
  | _ => false

/-- The unit no longer reads the structure that holds the word (R34, R465, R583): it is retired or marked as a whole. -/
def wordShut (s : State) (g w : Nat) : Bool :=
  match g with
  | 0 => s.yar.retired.contains (w / 8192)
  | 5 => s.fox.poison.contains (w / 1024)
  | 6 => s.mrt.imemPoison.contains (w / 8)
  | _ => wordMarked s g w

/-- An access of the owning unit finds word `w` uncorrectable (R366, R485, R583): the word has its effects, and that unit's
source reports it. Where R683 gives the unit no cause for it, no record is made (log entry 85). -/
def functionalFind (s : State) (g w : Nat) : State :=
  if 2 ≤ s.power || !s.on CSP_STATUS.FC_RUN || !s.initDone || wordShut s g w then s else
  let (s1, cls) := scrubEffect s g w
  let s2 := { s1 with hhg := { s1.hhg with waiting := s.hhg.waiting } }
  match functionalRecord g w with
  | some (src, cause, info) => report s2 src cls cause info
  | none => s2

/-- SCRUB_WORD (R581 to R583): word `w` of group `g` is checked; `r` is 1 for a corrected error, 2 for an uncorrectable
one, for which the owning unit makes no record of its own; 3 is a word that an access of the owning unit, not the scrubber,
finds uncorrectable. -/
def scrubWord (s : State) (g w r : Nat) : State :=
  if r = 3 then functionalFind s g w else
  let step := 1000 * s.rd HHG_SCRUB_CFG.INTERVAL * 160000 / 1800
  if !s.on HHG_SCRUB_CFG.ENABLE || 2 ≤ s.power || !s.on CSP_STATUS.FC_RUN || !s.initDone || s.now < s.hhg.scrubAt + step then s
  else if (g = 0 && s.yar.retired.contains (w / 8192)) || (g = 5 && s.fox.island = 0) then s
  else
    let s1 := scrubCount s
    let info := g * 2 ^ 28 + w
    match r with
    | 0 => s1
    | 1 => report (s1.bump HHG_SCRUB_STAT.CORRECTED 1) 0x19 1 0x01 info
    | _ =>
      if wordMarked s1 g w then s1 else
      let (s2, cls) := scrubEffect s1 g w
      let s3 := s2.bump HHG_SCRUB_STAT.UNCORR 1
      report { s3 with hhg := { s3.hhg with waiting := s1.hhg.waiting } } 0x19 cls 0x02 info

end Sys2Proof.Machine
end

