-- ==== Sys2Proof/Machine/RegWrite.lean ====
section
/-! DEFINITION. A write of a register word by the field types of R9, and the firmware's reservation (R129). -/
namespace Sys2Proof.Machine

/-- The values that a field takes: any where no range is given (R9). -/
def RegField.takes (f : RegField) (v : Nat) : Bool := f.ok.isEmpty || f.ok.any fun r => r.1 ≤ v && v ≤ r.2

/-- One field of a written word (R9): an RW value in range is taken, a written 1 clears a W1C bit, a written 0 clears a
counter; the rest is ignored. -/
def RegField.write (f : RegField) (new : Nat) (w : Word) : Word :=
  let v := bitsOf new f.hi f.lo
  let old := bitsOf w.toNat f.hi f.lo
  match f.ty with
  | .ro => w
  | .wo => w
  | .rw => if f.takes v then putBits w f.hi f.lo v else w
  | .w1c => putBits w f.hi f.lo (old - (old &&& v))
  | .cnt => if v = 0 then putBits w f.hi f.lo 0 else w

/-- The write would change a field that is reserved to firmware (R129). -/
def RegField.forbids (f : RegField) (new old : Nat) : Bool :=
  f.fw && (match f.ty with
    | .rw => bitsOf new f.hi f.lo ≠ bitsOf old f.hi f.lo
    | .wo => bitsOf new f.hi f.lo ≠ 0
    | _ => false)

/-- A write to the register at `a` from outside firmware is refused with RIGHTS (R129). -/
def writeForbidden (s : State) (a new : Nat) : Bool :=
  match findReg a with
  | some (r, _) => r.fields.any fun f => f.forbids new (s.reg a).toNat
  | none => false

/-- The register at `a` takes a written word (R9); no register takes nothing (R6). -/
def regWrite (s : State) (a new : Nat) : State :=
  match findReg a with
  | some (r, _) => s.setReg a (r.fields.foldl (fun w f => f.write new w) (s.reg a))
  | none => s

end Sys2Proof.Machine
end

