-- ==== Sys2Proof/Machine/Recovery.lean ====
section
/-! DEFINITION. Resets and recovery (R597 to R619): what survives, the initialisation fill, the board configuration, the
five tiers, fences, capture holds, suspect replay, reset counting. -/
namespace Sys2Proof.Machine

-- What survives (R680)

/-- Every bit of a word. -/
def allBits : Word := 0xFFFFFFFF#32

/-- Bits of the word at `a` that survive a Tier 2, in the fabric regions from the router on (R680). -/
def keptTier2 (a : Nat) : Word :=
  let b (lo hi : Nat) : Bool := lo ≤ a && a < hi
  if b 0x140004 0x140014 || b 0x140020 0x140028 || a = 0x140030 || a = 0x140050 || b 0x140100 0x140130 || b 0x141000 0x141400 then allBits
  else if a = 0x180000 || a = 0x180004 || a = 0x180020 then allBits
  else if b 0x181000 0x181800 then 0xFFFF#32
  else if a = 0x1A0000 || b 0x1A0030 0x1A003C then allBits
  else if a = 0x1C0000 || (b 0x1C1000 0x1C3000 && a % 16 ≠ 12) then allBits
  else if a = 0x1E0000 || b 0x1E0010 0x1E0028 || b 0x1E0400 0x1E0800 then allBits
  else if a = 0x28400C || a = 0x280020 || a = 0x280024 || b 0x288000 0x290000 then allBits
  else if a = 0x280028 then 0xFFFF#32
  else if a = 0x2C0000 || b 0x2C0010 0x2C0020 || b 0x2C4000 0x2CC000 then allBits
  else if a = 0x300000 || a = 0x302000 then allBits
  else if a = 0x340000 || b 0x340100 0x340140 || (b 0x341000 0x341400 && a % 16 = 0) || b 0x344000 0x348800 || b 0x34C000 0x350000 then
    allBits
  else if b 0x340200 0x340230 then 0x1F#32
  else 0#32

/-- Bits of the always-on and Seal word at `a` that a Tier 3 resets (R605, R611, R680). -/
def lostTier3 (a : Nat) : Word :=
  if a = NODE_ID.CONFIGURED.addr then 0x80000000#32
  else if a = CFG_HASH_LO.HASH_LO.addr || a = CFG_HASH_HI.HASH_HI.addr then allBits
  else if a = BDG_HB_CFG.HOST_EN.addr then 0x80000000#32
  else 0#32

/-- Bits of the word at `a` that survive: `ev` is 2 for Tier 2, 3 for Tier 3, 4 for Hibernate (R680). SEA_LINK follows its
link layer (R537). -/
def keepMask (ev a : Nat) : Word :=
  if (SEA_LINK0.STATE 0).addr ≤ a && a < (SEA_LINK0.STATE 12).addr then (if ev = 2 then allBits else 0#32)
  else if a < 0x50000 then (if ev = 3 then ~~~ lostTier3 a else allBits)
  else if ev = 3 then (if a = XPT_STAG.NEXT.addr then allBits else 0#32)
  else if a < 0x80000 then
    (if ev = 2 || a = LAN_ADAPT_CFG.PERIOD.addr || a = LAN_TRAIN_CFG.ADAPT_MS.addr || a = OWL_HEALTH_CFG.PERIOD.addr then allBits else 0#32)
  else if a < 0x140000 then
    (let o := a % 0x10000
     if ev = 2 || o = 0 || o = 8 || o = 0xC || (0x100 ≤ o && o < 0x144) then allBits else 0#32)
  else keptTier2 a

/-- The register words after the event. -/
def keepRegs (ev : Nat) (s : State) : State :=
  { s with regs := s.regs.filterMap fun e =>
      let m := keepMask ev e.1
      let w := (e.2 &&& m) ||| (resetWord e.1 &&& ~~~ m)
      if w = resetWord e.1 then none else some (e.1, w) }

-- Tier 0 (R601)

/-- TIER0: context `k` is reset. Work that has started runs on without recording failures; descriptors that have not
started go back to their queues, which fetch again (R323). -/
def tier0 (s : State) (k : Nat) : State :=
  let c := s.ctx k
  let kept := (c.beq.filter fun e => e.started && !e.isFence).map fun e => { e with muted := true }
  let live (q i : Nat) : Bool := kept.any fun e => e.desc = some (q, i)
  let stays (x : Nat × Nat) : Bool := x.1 ≠ k || kept.any fun e => e.id = x.2
  let s1 := { s with
    queues := s.queues.mapAll {} fun q v =>
      if v.context = k && !v.isClosed then
        { v with started := v.started.filter (fun d => live q d.index), waiting := (v.started.filter fun d => !live q d.index) ++ v.waiting }
      else v
    yar := { s.yar with runWait := s.yar.runWait.filter stays, stoWait := s.yar.stoWait.filter stays } }
  let s2 := (clearLate s1 k).setCtx k
    { pc := s.rd (MRT_CTX_CFG0.ENTRY k), cmdErr := c.cmdErr, beq := kept, nextId := c.nextId, astat := c.astat }
  let s3 := (s2.queues.map (·.1)).foldl (fun t q => if (t.queue q).context = k then startFetch t q else t) s2
  trgUpdate (s3.bump (TRG_CTX.DISCARD k) c.fifo.length)

-- The board configuration (R655, R597 step 7)

/-- The records of a board configuration: tag and value of each. -/
def cfgRecords : Nat → List Byte → List (Nat × List Byte)
  | 0, _ => []
  | n + 1, b =>
    if b.length < 4 then [] else
    let len := leAt b 2 2
    (leAt b 0 2, (b.drop 4).take len) :: cfgRecords n (b.drop (4 + (len + 3) / 4 * 4))

/-- The records in copy `c`, where its magic and CRC are right. -/
def cfgCopy (s : State) (c : Nat) : Option (List Byte) :=
  let base := 0x100000 + 0x10000 * c
  let n := leNat (flashBytes s (base + 4) 4)
  if leNat (flashBytes s base 4) ≠ 0x43464757 || 65524 < n then none else
  let b := flashBytes s base (12 + n)
  if leAt b (8 + n) 4 = crc32c (b.take (8 + n)) then some ((b.drop 8).take n) else none

/-- The copy in use: copy 0 where both are valid. -/
def boardText (s : State) : List Byte := ((cfgCopy s 0) <|> (cfgCopy s 1)).getD []

/-- One record is written to the registers; unknown tags are ignored. The layouts of the values are the model's. -/
def boardRecord (s : State) (r : Nat × List Byte) : State :=
  let w (i : Nat) : Nat := leAt r.2 (4 * i) 4
  let at_ (l : List Nat) (f : State → Nat → State) : State := l.foldl f s
  match r.1 with
  | 1 => s.wr NODE_ID.NODE (w 0)
  | 2 => at_ ((List.range 96).filter s.lanePresent) fun t k =>
      regWrite (regWrite t (LAN_EQ_SEED_TX.PRE1 k).addr (w (2 * k))) (LAN_EQ_SEED_RX.CTLE k).addr (w (2 * k + 1))
  | 3 => at_ ((List.range 12).filter s.portPresent) fun t p => regWrite t (RTR_PORT_CFG.DIR p).addr (leAt r.2 p 1)
  | 4 => at_ ((List.range 12).filter s.portPresent) fun t p =>
      (t.wr (LNK_CTRL.EXPECT_EN p) (b2n (bitOf (w p) 27))).wr (LNK_CTRL.EXPECT_NODE p) (w p)
  | 5 => (at_ ((List.range 12).filter s.portPresent) fun t p => (List.range 17).foldl (fun u v =>
      regWrite u (LNK_CREDIT_ADV.ADV_DATA p v).addr (w (17 * p + v))) t).wr RTR_VC_MAXPKT.CODE (w 204)
  | 6 => at_ ((List.range 12).filter s.portPresent) fun t p => t.wr (LNK_CTRL.SEAL_REQ p) (b2n (bitOf (w 0) p))
  | 7 => at_ ((List.range 12).filter s.portPresent) fun t p => t.wr (LAN_PORT_CFG.LOOPBACK_OK p) (b2n (bitOf (w 0) p))
  | _ => s

/-- Firmware writes the board configuration from flash (R597 step 7). -/
def writeBoard (s : State) : State := (cfgRecords 64 (boardText s)).foldl boardRecord s

/-- Ports in use: present, with a direction other than 15. -/
def portsInUse (s : State) : List Nat := (List.range 12).filter fun p => s.portPresent p && s.rd (RTR_PORT_CFG.DIR p) ≠ 15

/-- Firmware clears OFF on every port in use. -/
def portsUp (s : State) : State := repoint ((portsInUse s).foldl (fun t p => portOn t p []) s)

-- The initialisation fill (R10, R584)

/-- A queue after a reset: its state, and its configuration where that survives (R132, R680). -/
def resetQueue (keep : Bool) (v : Queue) : Queue :=
  if keep then
    { state := .closedByReset, driverAbi := v.driverAbi, irqWire := v.irqWire, context := v.context, push := v.push
      log2 := v.log2, ring := v.ring, cpl := v.cpl }
  else { state := .closedByReset }

/-- The structures that the event clears (R584, R680): `ev` as in `keepMask`. -/
def clearFabric (ev : Nat) (s : State) : State :=
  let s1 := keepRegs ev s
  let two := ev = 2
  let s2 := schedReset { s1 with
    xpt := {}, tgt := {}, mrt := {}, ctxs := [], syn := {}, yar := {}, wins := { spillKey := s.free % 2 ^ 256 }
    freeIdx := s.freeIdx + 1
    fox := if two then { island := s.fox.island, upEnd := s.fox.upEnd, idleSince := s.now } else {}
    hmp := { s1.hmp with
      chans := s1.hmp.chans.mapAll {} fun _ h => { h with cmds := [], up := false, early := 0, wleft := 0, tags := h.tags.filter fun e => e.2.quarantined }
      xfers := [], returned := [] }
    queues := (List.range 4096).map fun q => (q, resetQueue (ev ≠ 3) (s.queue q))
    rtr := if ev = 3 then {} else
      { s1.rtr with inject := [], bufs := [], deliver := [], rrCont := [], rrEnt := [], holdBit := none }
    sch := { window := s.sch.window }
    bdg := { s1.bdg with
      replay := none, logWriting := 0, rspWait := s1.bdg.rspWait.map fun r => { r with aborted := true } }
    sea := { s1.sea with generated := 0 }
    acc := { s1.acc with
      mrp := { view := if ev = 3 then 0 else s.acc.mrp.view }, sideband := { view := if ev = 3 then 0 else s.acc.sideband.view }
      amm := { view := if ev = 3 then 0 else s.acc.amm.view } } }
  if two then cleanCheck { s2 with links := s2.links.mapAll {} fun _ l => { l with drainMark := none, bpStoat := [] } }
  else { s2 with links := [], lanes := {} }

/-- What a Tier 3 takes from the Seal unit (R519, R521, R522): sessions, CFG_MEAS, a debug unlock. -/
def sealTier3 (s : State) : State :=
  let s1 := closeSessions s s.sea.sessions
  let s2 := { s1 with sea := { s1.sea with cfgMeas := [] } }
  if s2.on SEA_STATUS.DBG_UNLOCKED then deriveIds (s2.wr SEA_STATUS.DBG_UNLOCKED 0) else s2

/-- The fill starts (R584): HHG_INIT, the scrubber at its first word; the routing tables are left at a Tier 2. -/
def fillStarts (ev : Nat) (s : State) : State :=
  let s1 := (s.wr HHG_INIT.BUSY 1).wr HHG_INIT.DONE (if ev = 2 then 0x2000 else 0)
  { s1 with hhg := { s1.hhg with fillStart := s.now, fillBad := false, scrubPos := 0, scrubStart := s.now, scrubAt := s.now } }

/-- The fabric is cleared and the fill starts. -/
def startFill (ev : Nat) (s : State) : State :=
  let s1 := fillStarts ev (clearFabric ev s)
  trgUpdate { (if ev = 3 then sealTier3 s1 else s1) with pins := { s1.pins with trgReady := false } }

-- Power exits and aborted entries (R539, R541)

/-- ENTERING is abandoned (R539): ports stay as they are. -/
def abortEntry (s : State) : State :=
  if s.power ≠ 4 then s else
  let s1 := (((s.wr CSP_STATUS.STATE 0).wr CSP_CMD.BUSY 0).wr CSP_CMD.STATUS stBUSY).bump CSP_EVT.NAP_ABORT 1
  { s1.wr CSP_EVT_PEND.ENTRY_ABORT 1 with csp := { s1.csp with entering := none } }

/-- A wake source occurs (R539, R541): Nap and Hibernate are left, an entry is abandoned. -/
def wakeBlock (s : State) : State :=
  if s.power = 4 then abortEntry s
  else if s.power = 2 || s.power = 3 then
    let s1 := (s.wr CSP_STATUS.STATE 5).wr CSP_CMD.BUSY 1
    { s1 with csp := { s1.csp with leaving := some s.power, pllEnd := some (s.after 100000) } }
  else drowseExit s

-- Reset counting (R617 to R619)

/-- The block is taken out of service (R619). -/
def removeFromService (s : State) : State :=
  let s1 := setFence (s.wr BDG_STATUS.OUT_OF_SERVICE 1) BDG_FENCE.SVC true
  serviceRecord (report (capRefreshAll s1) 0x18 3 0x04 0) 1

/-- A counted reset stamped `t` is judged (R618). -/
def judgeReset (s : State) (t : Nat) : State :=
  let s0 := stampAt s 0
  let s1 := stampAt s 2
  let gone := s0 ≠ 0 && s0 ≤ t && t < s0 + 86400000000000
  let u := if gone then s else putStamps s s1 t
  let v := burrowPut u recRESET_STAMP (natLE 8 (stampAt u 0) ++ natLE 8 (stampAt u 2))
  if gone then removeFromService v else v

/-- Fabric time has become valid: the resets that waited for it are judged now (R617). -/
def judgeLate (s : State) : State :=
  (List.range s.bdg.unstamped).foldl (fun t _ => judgeReset t t.nowNs) { s with bdg := { s.bdg with unstamped := 0 } }

/-- The stamp of a reset that begins now. -/
def stampNow (s : State) : Option Nat := if s.timeValid then some s.nowNs else none

/-- A counted reset has completed (R617, R618). -/
def countReset (s : State) (r : TierRun) : State :=
  if !r.counted then s else
  let s1 := s.bump BDG_STATUS.RESETS 1
  match r.stamp with
  | some t => judgeReset s1 t
  | none => { s1 with bdg := { s1.bdg with unstamped := s1.bdg.unstamped + 1 } }

-- Suspect replay (R616)

/-- Contexts in BDG_SUSPECT_SET, in ascending order. -/
def suspects (s : State) : List Nat :=
  (List.range 512).filter fun k => bitOf (s.rd (BDG_SUSPECT_SET.SUSPECT (k / 32))) (k % 32)

/-- A suspect takes its solo slot. -/
def soloSlot (s : State) (k : Nat) (rest : List Nat) : State :=
  let r : Replay := {
    rest := rest, solo := k, slotEnd := s.after (1000000 * s.rd BDG_SUSPECT.SOLO_MS), ran := (s.ctx k).state ≠ .stopped
    src := s.bdg.fault.1, cause := s.bdg.fault.2 }
  { s with bdg := { s.bdg with replay := some r } }

/-- Replay begins once the recovery tier has completed; the original fault is acknowledged first. -/
def beginReplay (s : State) : State :=
  match suspects s with
  | [] => s
  | k :: rest =>
    let s0 := { s with bdg := { s.bdg with captured := false } }
    if !s.bdg.captured || !s.on BDG_SUSPECT.ENABLE || s.bdg.fault = (0x18, 1) || s.bdg.fault = (0x18, 2) then s0
    else soloSlot ((hhgAck s0 8).wr BDG_SUSPECT.STATE 1) k rest

/-- The slot of the solo suspect is over: its time has passed, or it has stopped after running. -/
def slotOver (s : State) (r : Replay) : Bool :=
  if (s.ctx r.solo).state = .stopped then r.ran || r.slotEnd ≤ s.now else r.slotEnd ≤ s.now

/-- SOLO_SLOT_END (R616): the next suspect runs, or replay ends CLEARED. -/
def soloSlotEnd (s : State) : State :=
  match s.bdg.replay with
  | none => s
  | some r =>
    if !slotOver s r then s else
    match r.rest with
    | k :: rest => soloSlot s k rest
    | [] => logEvent ({ s with bdg := { s.bdg with replay := none } }.wr BDG_SUSPECT.STATE 3) 0x2004 2 [3, 0]

-- The end of a tier

/-- A tier of 1 or above completes (R603 step 7, R605, R617): fences TIER and FW fall, the counts move, replay begins. -/
def tierComplete (s : State) (r : TierRun) : State :=
  let s0 := (((s.wr BDG_STATUS.TIER 0).wr BDG_STATUS.CAP_HOLD 0).wr BDG_TIER_CMD.BUSY 0)
  let s1 := { s0 with bdg := { s0.bdg with tier := none } }
  let s2 := if 2 ≤ r.n then hmpFreeQuarantine { s1 with hmp := { s1.hmp with quiesce := s1.pins.testFence } } else s1
  let s3 := if r.n = 3 then
      leaveSafe { s2.wrapAdd RESET_GEN.T3 1 with pins := { s2.pins with fcValid := !s2.pins.testFence } }
    else if r.n = 2 then s2.wrapAdd RESET_GEN.T2 1 else s2
  let s4 := trgUpdate (setFence (setFence s3 BDG_FENCE.TIER s.pins.testFence) BDG_FENCE.FW false)
  let s5 := logEvent s4 0x2002 1 [r.n, stOK, (s.now - r.began) / ns 1000]
  beginReplay (logPump (countReset s5 r))

-- Tier 1 (R602)

/-- The atomic unit, the chunk cache and the source estimators are cleared. -/
def targetClear (s : State) : State :=
  { s with
    tgt := { s.tgt with atoms := [] }
    wins := { s.wins with cache := [], tbl := s.wins.tbl.mapAll {} fun _ v => { v with candSrc := 0, candCnt := 0 } } }

/-- The target engine's accesses have returned. -/
def targetQuiet (s : State) : Bool :=
  s.tgt.ops.isEmpty && s.tgt.atoms.all fun e => !e.2.writing && e.2.applied.isEmpty && e.2.data.isSome

/-- A Foxglove access of host memory is under way. -/
def Purpose.isFox : Purpose → Bool
  | .foxLoad _ | .foxSource _ | .foxResid _ | .foxSpill _ | .foxWrite _ => true
  | _ => false

/-- Every entry of Foxglove ends, and every group step that uses a stage. -/
def foxReset (s : State) : State :=
  let l := s.fox.queue ++ s.fox.running ++ s.fox.markers
  let s1 := l.foldl (fun t e => foxEnd t e stINTERNAL) { s with fox := { s.fox with queue := [], running := [], markers := [] } }
  ((s1.yar.steps.filter fun e => (s1.group e.2.g).foxStage ≠ 0xFFFF).map (·.1)).foldl (fun t y => endStep t y stINTERNAL true) s1

/-- The engine named is reset: at once, or as far as that goes before its accesses return. -/
def engineReset (s : State) (e : Nat) : State :=
  if e < 16 then
    (List.range 32).foldl (fun t i => tier0 t (32 * e + i))
      { s with mrt := { s.mrt with cached := s.mrt.cached.filter fun x => x.1 / 8192 ≠ e } }
  else if e = 16 then
    ((s.tgt.ops.filter fun x => x.2.phase = .waiting).map (·.2)).foldl (fun t o =>
      answer ((t.dropTgt o.id).bump TGT_BUSY.BUSY_CNT 1) o.pkt o.recIdx stBUSY 0 []) s
  else if e = 17 then
    let t := endEverywhere s stINTERNAL
    { t with yar := { t.yar with stoats := [], grants := [], early := [] } }
  else if e = 18 then foxReset s
  else linkDown s (e - 32) none true

/-- The engine's accesses have returned. -/
def engineQuiet (s : State) (e : Nat) : Bool :=
  if e = 16 then targetQuiet s
  else if e = 17 then s.yar.steps.isEmpty
  else if e = 18 then s.hmp.xfers.all fun x => !x.2.k.isFox
  else true

/-- What is left of the engine's reset once its accesses have returned. -/
def engineClear (s : State) (e : Nat) : State :=
  if e = 16 then gatherRelease (targetClear s)
  else if e = 17 then { s with yar := { s.yar with used := [] } }
  else if e = 18 then (let t := foxOff s; if foxNeeded t then foxPower t else t)
  else s

/-- A Tier 1 completes as soon as its engine's accesses have returned. -/
def tierStep (s : State) : State :=
  match s.bdg.tier with
  | some r => if r.step = .engine && engineQuiet s r.engine then tierComplete (engineClear s r.engine) r else s
  | none => s

-- The start of a tier

/-- The run is put in BDG_STATUS and BDG_TIER_CMD. -/
def setRun (s : State) (r : TierRun) : State :=
  (({ s with bdg := { s.bdg with tier := some r } }.wr BDG_STATUS.TIER r.n).wr BDG_TIER_CMD.BUSY 1)

/-- The Tier 1 itself, after its hold. -/
def runTier1 (s : State) (r : TierRun) : State :=
  tierStep (engineReset (setRun s { r with step := .engine, mark := none }) r.engine)

/-- STOAT messages that arrived and were not consumed are discarded, with their credit (R604). -/
def dropStoats (s : State) (p : Nat) : State :=
  ((s.link p).rxBypass.filter fun m => leAt m 0 1 = 2).foldl (fun t m => takeBypass t p m) s

/-- From the end of step 2 of a Tier 2: the router's packets are discarded, the HMP quiesces, the links drain (R603, R604). -/
def runTier2 (s : State) (r : TierRun) : State :=
  let s1 := setRun s { r with step := .quiesce, mark := none }
  let s2 := s1.rtr.bufs.foldl releaseBuf s1
  let s3 := (List.range 12).foldl dropStoats s2
  hmpQuiesce { s3 with
    rtr := { s3.rtr with bufs := [], inject := [], deliver := [] }, out := [] }

/-- The record that a capture without an event of its own carries: the newest of the log. -/
def lastRecord (s : State) : FaultRec := ((newestSlot s).map (·.2)).getD {}

/-- A capture that a tier asks for (R613): for a Tier 1 of a unit, its suspects; else the set stays. -/
def tierCapture (s : State) (r : TierRun) : State :=
  let f := s.bdg.fault
  if r.n = 1 && r.engine < 21 then
    let s1 := capture s (lastRecord s) (some r.engine)
    { s1 with bdg := { s1.bdg with fault := f } }
  else
    let s1 := burrowPut s recCAPTURE (captureBody s (lastRecord s))
    logEvent s1 0x2003 2 [s1.rd BDG_BURROW_SEQ.SECTOR_SEQ]

/-- A capture hold begins (R614), or the tier goes on at once where HOLD is 0. -/
def holdOr (s : State) (r : TierRun) (go : State → TierRun → State) : State :=
  if !r.capture then go s r else
  let s1 := tierCapture s r
  if s.rd BDG_CAP_CFG.HOLD = 0 then go s1 r
  else setFence ((setRun s1 { r with step := .hold, mark := some (s.after (10000000 * s.rd BDG_CAP_CFG.HOLD)) }).wr
    BDG_STATUS.CAP_HOLD 1) BDG_FENCE.FW true

/-- The fenced start of a Tier 3 (R605 step 1): the heartbeat is disarmed, the ports of the host close, the HMP quiesces. -/
def runTier3 (s : State) (r : TierRun) : State :=
  let s1 := setRun ((s.wr BDG_HB_CFG.HOST_EN 0).wr BDG_STATUS.CAP_HOLD 0) { r with step := .quiesce, mark := none }
  let s2 := if s.rd HHG_STATUS.STATE = 2 then s1.wr HHG_STATUS.STATE 3 else s1
  setFence (hmpQuiesce { s2 with bdg := { s2.bdg with hbEnd := none }, pins := { s2.pins with trgReady := false } }) BDG_FENCE.TIER true

/-- A tier begins (R599 to R605). A Tier 2 or 3 that replaces a running one is joined to it, and the two count once, if
either counts (R53, R600, R617). -/
def beginTier (s : State) (n engine : Nat) (capture_ counted exit_ : Bool) : State :=
  let old := match s.bdg.tier with | some r => if 2 ≤ r.n && 2 ≤ n then some r else none | none => none
  let r : TierRun := match old with
    | some o => { n := n, step := .hold, engine := engine, capture := capture_, counted := o.counted || counted, stamp := if o.counted then o.stamp else stampNow s, exit := exit_, began := s.now }
    | none => { n := n, step := .hold, engine := engine, capture := capture_, counted := counted && 2 ≤ n, stamp := stampNow s, exit := exit_, began := s.now }
  let s1 := logEvent (setRun s r) 0x2001 2 [n, engine, b2n capture_]
  if n = 1 then holdOr s1 r runTier1
  else if n = 2 then
    holdOr (setFence { s1 with pins := { s1.pins with trgReady := false } } BDG_FENCE.TIER true) r runTier2
  else if capture_ then runTier3 (tierCapture s1 r) r else runTier3 s1 r

/-- The status that refuses a requested tier (R600, R602, R603, R610, R619). -/
def tierRefused (s : State) (n engine : Nat) : Option Nat :=
  let running := match s.bdg.tier with | some r => r.n | none => 0
  if s.on BDG_STATUS.FW_RESTART || s.bdg.running.isEmpty then some stBUSY
  else if s.on BDG_STATUS.OUT_OF_SERVICE then some stRIGHTS
  else if n ≤ running then some stBUSY
  else if n = 2 && !s.normal then some stBUSY
  else if n = 1 && !(engine < 16 || engine = 16 || engine = 17 || (engine = 18 && s.build.fox) || (32 ≤ engine && s.portPresent (engine - 32))) then
    some stINTERNAL
  else if n < 3 && 2 ≤ s.power then some stBUSY
  else none

/-- A Tier 3 begins now, or once the block has left Nap or Hibernate (R53). -/
def tier3Or (s : State) (capture_ counted exit_ : Bool) : State :=
  if 2 ≤ s.power && s.power ≠ 4 then
    wakeBlock { s with csp := { s.csp with tier3After := some (capture_, counted, exit_) } }
  else beginTier (abortEntry (drowseExit s)) 3 0 capture_ counted exit_

/-- TIER1, TIER2 and TIER3: a write of BDG_TIER_CMD (R600, R620). Where a group of a fill has not completed, a Tier 2
starts the fill again (R584). -/
def tierCommand (s : State) (n engine : Nat) (capture_ : Bool) : State :=
  let s0 := (s.wr BDG_TIER_CMD.ENGINE engine).wr BDG_TIER_CMD.CAPTURE (b2n capture_)
  let again := n = 2 && s.hhg.fillBad && !s.on BDG_STATUS.FW_RESTART && !s.on BDG_STATUS.OUT_OF_SERVICE
  if again then fillStarts (if s.rd BDG_STATUS.TIER = 2 then 2 else 3) (s0.wr BDG_TIER_CMD.STATUS stOK)
  else match tierRefused s n engine with
  | some st => s0.wr BDG_TIER_CMD.STATUS st
  | none =>
    let s1 := s0.wr BDG_TIER_CMD.STATUS stOK
    if n = 3 then tier3Or s1 capture_ true false else beginTier (drowseExit s1) n engine capture_ true false

-- The steps of a tier

/-- The hold is over: the tier goes on (R614). -/
def holdEnd (s : State) : State :=
  match s.bdg.tier with
  | some r =>
    if r.step ≠ .hold then s
    else if r.n = 1 then runTier1 (s.wr BDG_STATUS.CAP_HOLD 0) r else runTier2 (s.wr BDG_STATUS.CAP_HOLD 0) r
  | none => s

/-- CAPTURE_HOLD_TMO (R614). -/
def captureHoldTmo (s : State) : State :=
  match s.bdg.tier with
  | some r => if s.due r.mark then holdEnd s else s
  | none => s

/-- The ports are set Off, links go DOWN, keys are discarded; FC_VALID falls (R605 steps 1 and 2). -/
def portsDown (s : State) : State :=
  (List.range 12).foldl (fun t p => if t.portPresent p then lanesOff (linkDown t p none false) p else t)
    { s with pins := { s.pins with fcValid := false } }

/-- Tier 3, steps 3 and 4: the block waits while HRST_n is low and until fc runs, then is filled (R605). -/
def tier3Fill (s : State) (r : TierRun) : State :=
  if s.pins.hrst || !s.on CSP_STATUS.FC_RUN then setRun s { r with step := .hrst }
  else startFill 3 (setRun s { r with step := .fill })

/-- QUIESCE_DONE (R52, R132): every started write is answered and every tag answered or quarantined. In a Tier 2 the links
then have 1 ms to drain (R603 step 5). -/
def quiesceEnd (s : State) : State :=
  if !s.hmp.quiesce || !s.quiesceDone then s else
  match s.bdg.tier with
  | some r =>
    if r.n = 3 && r.step = .quiesce then tier3Fill (portsDown s) r
    else if r.n = 2 && r.step = .quiesce && r.mark.isNone then setRun s { r with mark := some (s.after 1000000) }
    else s
  | none => if s.pins.testFence then { s with pins := { s.pins with fcValid := false } } else s

/-- A link is drained, or has nothing to drain (R604): TX_ACKED equals TX_NEXT − 1 and no packet is in progress. -/
def linkDrained (s : State) (p : Nat) : Bool :=
  let l := s.link p
  let st := s.linkState p
  st = 0 || st = 5 || st = 6 || ((l.txAcked + 1) % 65536 = l.txNext && (sendable s p).isEmpty)

/-- TIER2_LINKS_DRAINED (R603 steps 4 to 6, R604). -/
def linksDrained (s : State) : State :=
  match s.bdg.tier with
  | some r =>
    if r.n = 2 && r.step = .quiesce && s.quiesceDone && (List.range 12).all (linkDrained s) then
      startFill 2 (setRun { s with links := s.links.mapAll {} fun _ l => dropUnbegun l } { r with step := .fill })
    else s
  | none => s

/-- LINK_DRAIN_TMO (R604): the link goes DOWN without a fault, and it retrains. -/
def linkDrainTmo (s : State) (p : Nat) : State :=
  match s.bdg.tier with
  | some r => if r.n = 2 && r.step = .quiesce && s.due r.mark && !linkDrained s p then linkDown s p none true else s
  | none => s

/-- INIT_FILL_DONE (R584, R597 step 7, R603 step 7, R605 step 5). -/
def fillDone (s : State) : State :=
  if !s.on HHG_INIT.BUSY || s.hhg.fillBad then s else
  let s1 := (s.wr HHG_INIT.BUSY 0).wr HHG_INIT.DONE 0x7FFF
  match s.bdg.tier with
  | some r =>
    if r.step ≠ .fill then s1
    else if r.n = 2 then tierComplete s1 r
    else
      let s2 := setRun s1 { r with step := .train, mark := some s.now }
      portsUp (writeBoard { s2 with bdg := { s2.bdg with boot := .done } })
  | none =>
    if s.bdg.boot = .bringup then trgUpdate (portsUp (writeBoard { s1 with bdg := { s1.bdg with boot := .done } })) else trgUpdate s1

/-- INIT_FILL_TMO (R584): the group stays BUSY until firmware starts a Tier 2. -/
def fillTmo (s : State) (g : Nat) : State :=
  if !s.on HHG_INIT.BUSY || s.now < s.hhg.fillStart + ns 200000 then s else
  let done := if s.hhg.fillBad then s.rd HHG_INIT.DONE else 0x7FFF
  let s1 := s.wr HHG_INIT.DONE (if bitOf done g then done - 2 ^ g else done)
  report { s1 with hhg := { s1.hhg with fillBad := true } } 0x1A 3 0x01 g

/-- A port in use has reached what a Tier 3 waits for (R605). -/
def portSettled (s : State) (since : Nat) (p : Nat) : Bool :=
  s.linkState p ≠ 0 || s.laneState p = 9 || (s.laneState p = 2 && since + ns 2000000000 ≤ s.now)

/-- TIER3_COMPLETE (R605). -/
def tier3Done (s : State) : State :=
  match s.bdg.tier with
  | some r =>
    if r.n = 3 && r.step = .train &&
        ((List.range 12).filter fun p => s.portPresent p && s.rd (LAN_PORT_CFG.OFF p) = 0).all (portSettled s (r.mark.getD 0)) then
      tierComplete s r
    else s
  | none => s

/-- The running tier starts again from its first step (R610). -/
def restartTier (s : State) : State :=
  match s.bdg.tier with
  | some r =>
    let r1 := { r with step := .hold, mark := none }
    let s1 := s.wr BDG_STATUS.CAP_HOLD 0
    if r.n = 1 then holdOr s1 r1 runTier1
    else if r.n = 2 then holdOr s1 r1 runTier2
    else runTier3 s1 r
  | none => s

/-- TIER3 by QUIET_EXPIRY (R579): the exit of the safe state. -/
def quietExpiry (s : State) : State :=
  if s.rd HHG_STATUS.STATE ≠ 2 || !quietOver s then s else
  let max_ := s.rd HHG_CFG.RECOV_MAX
  if s.on HHG_CFG.AUTO_EXIT && (max_ = 0 || s.rd HHG_RECOVERY.SINCE_SERVICE < max_) then
    tier3Or (((s.bump HHG_RECOVERY.TOTAL 1).bump HHG_RECOVERY.SINCE_SERVICE 1).wr HHG_STATUS.STATE 3) false true true
  else { s with hhg := { s.hhg with quietEnd := none } }

-- HRST_n (R51 to R53)

/-- HRST_ASSERT: no effect beyond the level while PORST_n is low or no firmware runs yet (R53); a Tier 3 begins, or one that
runs starts again from the fence. -/
def hrstAssert (s : State) : State :=
  if s.pins.hrst then s else
  let s1 := { s with pins := { s.pins with hrst := true } }
  if s.pins.porst || s.bdg.boot = .none || s.bdg.boot = .image then s1
  else if s.on BDG_STATUS.OUT_OF_SERVICE then s1.bump BDG_STATUS.HRST_IGN 1
  else
    let t := tier3Or s1 false true false
    if t.bdg.tier.isNone then { t with csp := { t.csp with hrstStamp := stampNow s } } else t

/-- HRST_RELEASE. -/
def hrstRelease (s : State) : State :=
  let s1 := { s with pins := { s.pins with hrst := false } }
  match s.bdg.tier with
  | some r => if r.n = 3 && r.step = .hrst then tier3Fill s1 r else s1
  | none => s1

-- Heartbeat, watchdog, hang (R609 to R612, R631)

/-- The heartbeat timer starts. -/
def startHb (s : State) : State :=
  { s with bdg := { s.bdg with hbEnd := some (s.after (10000000 * s.rd BDG_HB_CFG.HOST_TMO)) } }

/-- EXPIRED and the fence source HB are cleared. -/
def clearHb (s : State) : State := setFence (s.wr BDG_HB_CFG.EXPIRED 0) BDG_FENCE.HB false

/-- HOST_EN (R611): a written 1 arms the heartbeat, a written 0 disarms it. -/
def hostEn (s : State) (on : Bool) : State :=
  if on then startHb (s.wr BDG_HB_CFG.HOST_EN 1)
  else (let t := clearHb (s.wr BDG_HB_CFG.HOST_EN 0); { t with bdg := { t.bdg with hbEnd := none } })

/-- HOST_HB (R611): a value that differs qualifies; it starts the timer of an armed heartbeat. -/
def hostHb (s : State) (v : Nat) : State :=
  if v = s.rd BDG_HOST_HB.VALUE then s else
  let s1 := clearHb (s.wr BDG_HOST_HB.VALUE v)
  if s1.on BDG_HB_CFG.HOST_EN then startHb s1 else s1

/-- HOST_HB_EXPIRY (R611). -/
def hostHbExpiry (s : State) : State :=
  if !s.due s.bdg.hbEnd then s else
  let s1 := report ((s.bump BDG_STATUS.HB_EXP 1).wr BDG_HB_CFG.EXPIRED 1) 0x18 3 0x02 0
  let s2 := { s1 with bdg := { s1.bdg with hbEnd := none } }
  if s.on BDG_HB_CFG.ACTION then setFence s2 BDG_FENCE.HB true else s2

/-- 100 ms have passed since firmware began to run (R609, R610). -/
def watchdogDue (s : State) : Bool := s.bdg.fwSince + ns 100000000 ≤ s.now

/-- The management core restarts (R610): the boot ROM loads firmware again; messages in its buffers are lost. -/
def coreRestart (s : State) : State :=
  let n := s.bdg.inbox.length + s.bdg.parts.length
  let s1 := report ((s.bump BDG_STATUS.WDOG 1).wr BDG_STATUS.FW_RESTART 1) 0x18 3 0x01 0
  restartTier { (s1.bump BDG_AMM_ERR.LOST n) with bdg := { s1.bdg with inbox := [], parts := [] } }

/-- WATCHDOG (R610): firmware has not serviced it for 100 ms. -/
def watchdog (s : State) : State :=
  if s.bdg.running.isEmpty || s.on BDG_STATUS.FW_RESTART || !watchdogDue s then s else coreRestart s

/-- FW_RESTART_DONE (R610): an image runs again, or none passes and a recovery load is awaited (R598). -/
def fwRestartDone (s : State) : State :=
  if !s.on BDG_STATUS.FW_RESTART then s else
  match goodCopy s with
  | some m => runImage (s.wr BDG_STATUS.FW_RESTART 0) m
  | none => { s with bdg := { s.bdg with load := 1, running := [] } }

/-- A command that firmware was executing for a component ends with INTERNAL (R631). -/
def componentFails (s : State) (c : Nat) : State :=
  if c = 1 then
    let s1 := if s.on YAR_GCMD.BUSY then { gcmdEnd s stINTERNAL with yar := { s.yar with creating := none } } else s
    let s2 := if s1.on TGT_WCMD.BUSY then
        { (s1.wr TGT_WCMD.BUSY 0).wr TGT_WCMD.STATUS stINTERNAL with wins := { s1.wins with cmd := none, creating := none } }
      else s1
    let s3 := if s2.on MRT_ILOAD_CMD.BUSY then
        { (s2.wr MRT_ILOAD_CMD.BUSY 0).wr MRT_ILOAD_CMD.STATUS stINTERNAL with mrt := { s2.mrt with iload := none } }
      else s2
    if s3.on SYN_TCMD.BUSY then { (s3.wr SYN_TCMD.BUSY 0).wr SYN_TCMD.STATUS stINTERNAL with syn := { s3.syn with disarming := none } } else s3
  else if c = 2 then
    match s.bdg.tier with
    | some r =>
      if r.n = 3 then runTier3 s r
      else tierComplete { s.wr BDG_TIER_CMD.STATUS stINTERNAL with hmp := { s.hmp with quiesce := s.pins.testFence } }
        { r with n := 1, counted := false }
    | none => s
  else s

/-- MPU_VIOLATION (R631). -/
def mpuViolation (s : State) (c : Nat) : State :=
  if s.bdg.running.isEmpty || s.on BDG_STATUS.FW_RESTART then s else
  let s1 := report s 0x18 3 0x05 c
  let recent := s.bdg.restarts.filter fun x => s.now < x.2 + ns 1000000000
  let n := recent.countP fun x => x.1 = c
  let s2 := { s1 with bdg := { s1.bdg with restarts := recent ++ [(c, s.now)] } }
  if c = 0 || 2 ≤ n then coreRestart s2 else componentFails s2 c

/-- A context's next instruction may issue: the context is READY and not held, its back-end queue has room, and no field of
the instruction names a pending register. -/
def mayIssueNext (s : State) (k : Nat) (c : Ctxt) : Bool :=
  let w := s.instr k c.pc
  c.state = .ready && s.unitsRun && !s.ctxHeld k && c.queued < 16 &&
    [iD w, iA w, iB w, iC w].all fun r => !c.pendG.contains r && !c.pendP.contains (r % 8)

/-- The engine holds an item that may advance (R612): a wait on another chip, on the host's ready, on credits, tokens or
grants, SYNWAIT and WTRIG are none. -/
def engineHolds (s : State) (e : Nat) : Bool :=
  if e < 16 then s.ctxs.any fun x => x.1 / 32 = e && mayIssueNext s x.1 x.2
  else if e = 16 then !s.tgt.ops.isEmpty
  else if e = 17 then s.yar.steps.any fun x => x.2.acc ≠ 0
  else if e = 18 then !s.fox.queue.isEmpty || !s.fox.running.isEmpty
  else if e = 19 then
    (s.xpt.ops.any fun x => !x.2.allMade && ootRoom s x.2.ctx) ||
      s.xpt.oot.any fun x =>
        let i := streamOf x.2.peer x.2.tc
        x.2.state ≠ 2 && x.2.ready && (s.peer i).txState = 2 && seqRoom s i
  else s.out.any fun o => (eligible s [] o).isSome

/-- The items of an engine as its monitor sees them: whatever is issued, started, completed or sent changes them. -/
def engineItems (s : State) (e : Nat) : List Nat :=
  if e < 16 then (s.ctxs.filter fun x => x.1 / 32 = e).flatMap fun x =>
    [x.1, x.2.pc, x.2.state.code, x.2.nextId, x.2.beq.length, x.2.beq.countP (·.started), x.2.queued]
  else if e = 16 then s.tgt.next :: s.tgt.ops.flatMap fun x =>
    [x.1, x.2.left, x.2.got.length, x.2.lines.length, match x.2.phase with | .waiting => 0 | .resolving => 4 | .reading => 1 | .writing => 2 | .atomic => 3]
  else if e = 17 then s.yar.next :: s.yar.steps.flatMap fun x =>
    [x.1, x.2.acc, x.2.sends, x.2.got] ++ x.2.segs.flatMap fun g => [g.1, g.2.slice, g.2.left, g.2.gslice, g.2.gLeft, g.2.arrived.length]
  else if e = 18 then s.fox.next :: (s.fox.queue ++ s.fox.running).flatMap fun x => [x.id, x.left, x.st]
  else if e = 19 then
    s.xpt.nextOp :: (s.xpt.ops.flatMap fun x => [x.1, x.2.made, x.2.out, x.2.doneBytes]) ++
      s.xpt.oot.flatMap fun x => [x.1, x.2.state, x.2.attempt, b2n x.2.ready]
  else [s.out.length, s.sch.classes.length] ++ s.sch.flows.map (·.deficit)

/-- The progress monitors look (R612): an engine whose items have advanced, or none of which may, starts its window again. -/
def watchEngines (s : State) : State :=
  { s with bdg := { s.bdg with seen := (List.range 21).foldl (fun t e =>
      let now_ := engineItems s e
      match t.find? e with
      | some v => if engineHolds s e && v.1 = now_ then t else t.put e (now_, s.now)
      | none => t.put e (now_, s.now)) s.bdg.seen } }

/-- No item of the engine has advanced for TMO, and one may (R612). -/
def engineHangs (s : State) (e : Nat) : Bool :=
  engineHolds s e && match s.bdg.seen.find? e with
    | some v => v.1 = engineItems s e && v.2 + ns (1000000 * s.rd BDG_HANG_CFG.TMO) ≤ s.now
    | none => false

/-- HANG (R612): the engine's progress monitor has expired. -/
def hang (s : State) (e : Nat) : State :=
  if !s.on BDG_HANG_CFG.ENABLE || !engineHangs s e then s
  else report (s.wr BDG_HANG_STAT.HUNG (s.rd BDG_HANG_STAT.HUNG ||| 2 ^ e)) 0x18 3 0x03 e

/-- HELD_RELEASE (R616, R627): a written 1 releases a held context. -/
def heldRelease (s : State) (j w : Nat) : State :=
  let v := s.rd (BDG_HELD.HELD j)
  s.wr (BDG_HELD.HELD j) (v - (v &&& w))

/-- Return to service by an authenticated command (R579, R619). -/
def returnToService (s : State) : State :=
  let s1 := if s.on BDG_STATUS.OUT_OF_SERVICE then
      capRefreshAll (serviceRecord (setFence (putStamps (s.wr BDG_STATUS.OUT_OF_SERVICE 0) 0 0) BDG_FENCE.SVC false) 2)
    else s
  leaveSafe (s1.wr HHG_RECOVERY.SINCE_SERVICE 0)

end Sys2Proof.Machine
end

