-- ==== Sys2Proof/Machine/Power.lean ====
section
/-! DEFINITION. Block power states (R539 to R543, R566), the fabric PLL (R42, R44), and the sleep of ports as it meets
them. -/
namespace Sys2Proof.Machine

-- Entry (R539, R540)

/-- Ports that the entry into Nap still has to send to Dormouse: an UP one is commanded, one in Doze wakes first. -/
def napPorts (s : State) : State :=
  (portsOf s).foldl (fun t p =>
    if t.linkState p = 3 then sendToSleep t p 2 else if t.linkState p = 5 then linkWake t p else t) s

/-- Ports that the entry into Hibernate still has to turn Off: an UP one shakes hands on its sleep first, as one in DRAIN
does (R540); any other goes Off. -/
def hibernatePorts (s : State) : State :=
  (portsOf s).foldl (fun t p =>
    if t.laneState p = 0 || t.linkState p = 4 then t
    else if t.linkState p = 3 then sendToSleep t p 2
    else lanesOff (linkDown t p none false) p) s

/-- A port can reach Dormouse, or is Off: its link is UP, drains or sleeps (R205, R539). -/
def canSleep (s : State) (p : Nat) : Bool := s.laneState p = 0 || (3 ≤ s.linkState p && s.linkState p ≤ 6)

/-- NAP and HIBERNATE: CSP_CMD.TARGET (R539, R560, R580). The idle conditions are checked at once. -/
def powerDown (s : State) (target : Nat) : State :=
  if s.on CSP_CMD.BUSY || 2 ≤ s.power then s
  else if !s.normal || s.bdg.tier.isSome || !s.initDone then s.wr CSP_CMD.STATUS stBUSY
  else
    let s1 := ((s.wr CSP_STATUS.STATE 4).wr CSP_CMD.BUSY 1).wr CSP_CMD.STATUS stOK
    let s2 := { s1 with csp := { s1.csp with entering := some target } }
    if !idleNow s || (target = 2 && !(portsOf s).all (canSleep s)) then abortEntry s2
    else if target = 2 then napPorts s2
    else
      hibernatePorts { s2 with csp := { s2.csp with ports := (portsOf s).filter fun p => s.rd (LAN_PORT_CFG.OFF p) = 0 } }

/-- RUN: CSP_CMD.TARGET (R541, R560): a wake, or the end of an entry. -/
def powerRun (s : State) : State :=
  if s.power = 4 then abortEntry s
  else if s.power = 5 then s
  else wakeBlock (s.wr CSP_CMD.STATUS stOK)

/-- fc stops: FC_VALID falls first (R44, R539). -/
def fcStops (s : State) : State :=
  { s.wr CSP_STATUS.FC_RUN 0 with pins := { s.pins with fcValid := false, trgReady := false } }

/-- The entry is complete. -/
def entered (s : State) (st : Nat) : State :=
  let s1 := (fcStops s).wr CSP_STATUS.STATE st
  { s1.wr CSP_CMD.BUSY 0 with csp := { s1.csp with entering := none } }

/-- NAP_ENTRY_DONE (R539): every port in Dormouse or Off, every channel quiesced; the weight store is lost (R543). -/
def napEntered (s : State) : State :=
  if s.power ≠ 4 || s.csp.entering ≠ some 2 then s
  else if !idleNow s then abortEntry s
  else if (portsOf s).all (fun p => s.laneState p = 0 || s.laneState p = 8) && s.hmpQuiesced then
    foxOff { entered s 2 with csp := { (entered s 2).csp with napLevel := s.rd CSP_STATUS.LEVEL } }
  else s

/-- HIBERNATE_ENTRY_DONE (R539, R543): every port is Off and the save is complete; the fabric domains are switched off. -/
def hibernateEntered (s : State) : State :=
  if s.power ≠ 4 || s.csp.entering ≠ some 3 then s
  else if !idleNow s then abortEntry s
  else
    let t := hibernatePorts s
    if (portsOf t).all (fun p => t.laneState p = 0) && t.hmpQuiesced then clearFabric 4 (entered t 3) else t

-- Exit

/-- WAKE_AT (R541, R566): the timed wake. -/
def wakeAt (s : State) : State :=
  let t := s.rd CSP_WAKE_AT_LO.AT_LO + 2 ^ 32 * s.rd CSP_WAKE_AT_HI.AT_HI
  if t = 0 || s.nowNs < t then s
  else if s.power = 2 || s.power = 3 then wakeBlock ((s.wr CSP_WAKE_AT_LO.AT_LO 0).wr CSP_WAKE_AT_HI.AT_HI 0)
  else if s.power = 4 then abortEntry s
  else s

/-- A new chunk-list spill key, and a reseed of the random source (R513, R515). -/
def newSpillKey (s : State) : State :=
  { s.useFree with wins := { s.wins with spillKey := s.free % 2 ^ 256 }, sea := { s.sea with generated := 0 } }

/-- FABRIC_PLL_LOCK (R42, R44): fc runs and FC_VALID rises, except during a Tier 3; what waited for fc goes on. -/
def pllLock (s : State) : State :=
  if s.csp.pllEnd.isNone || s.due s.csp.pllEnd then s else
  let s1 := { s.wr CSP_STATUS.FC_RUN 1 with csp := { s.csp with pllEnd := none, pllFails := 0 } }
  match s.bdg.tier with
  | some r => if r.n = 3 && r.step = .hrst then tier3Fill s1 r else s1
  | none =>
    let s2 := { s1 with pins := { s1.pins with fcValid := true } }
    if s.bdg.boot = .bringup then fillStarts 3 (newSpillKey s2)
    else if s.csp.leaving = some 3 then fillStarts 4 (newSpillKey s2)
    else trgUpdate s2

/-- FABRIC_PLL_TMO (R42): F3, or F4 at the third failure in a row; the PLL is started again. -/
def pllTmo (s : State) : State :=
  if !s.due s.csp.pllEnd then s else
  let n := min 3 (s.csp.pllFails + 1)
  report { s with csp := { s.csp with pllEnd := some (s.after 100000), pllFails := n } } 0x0B (if n = 3 then 4 else 3) 0x01 n

/-- Firmware's restore (R542): equaliser seeds and LOOPBACK_OK from the board table, OFF cleared on the ports that were in
use. The saved configuration is kept in its own registers. -/
def restoreConfig (s : State) : State :=
  let s1 := ((cfgRecords 64 (boardText s)).filter fun r => r.1 = 2 || r.1 = 7).foldl boardRecord s
  repoint (s.csp.ports.foldl (fun t p => portOn t p []) { s1 with csp := { s1.csp with ports := [] } })

/-- A sleeping port is to open at 2 lanes, its other lanes parked in Dormouse; the measure that this stands for is undone
as the ceiling allows (R545, R555, R557). -/
def openNarrow (s : State) (p : Nat) : State :=
  let w := (s.link p).txWidth
  if !asleep s p || w ≤ 2 then s else
  let s1 := useLanes (s.setLink p { s.link p with txWidth := 2, rxWidth := 2 }) p 2
  let s2 := parkLanes s (s1.wr (LAN_PORT_STATUS.WIDTH p) (widthCode 2)) p
  { s2 with csp := { s2.csp with measures := .narrow p w 2 :: s2.csp.measures, widen := true } }

/-- The exit from Nap: where LEVEL has fallen meanwhile the ports open at 2 lanes (R557). -/
def napExit (s : State) : State :=
  if s.csp.leaving = some 2 && s.rd CSP_STATUS.LEVEL < s.csp.napLevel then (portsOf s).foldl openNarrow s else s

/-- WAKE_DONE (R53, R539, R681): the exit is complete; a Tier 3 that waited for it follows. -/
def wakeDone (s : State) : State :=
  if s.power ≠ 5 || !s.on CSP_STATUS.FC_RUN || !s.initDone then s else
  let s1 := if s.csp.leaving = some 3 then (restoreConfig s).wrapAdd RESET_GEN.HIB 1 else napExit s
  let s2 := ((s1.wr CSP_STATUS.STATE 0).wr CSP_CMD.BUSY 0).wr CSP_EVT_PEND.WAKE_DONE 1
  let s3 := logPump (trgUpdate { s2 with csp := { s2.csp with leaving := none, activeAt := s.now, tier3After := none } })
  match s.csp.tier3After with
  | some (capture_, counted, exit_) =>
    let t := tier3Or s3 capture_ counted exit_
    (match t.bdg.tier, s.csp.hrstStamp with
    | some r, some x => { t with bdg := { t.bdg with tier := some { r with stamp := some x } }, csp := { t.csp with hrstStamp := none } }
    | _, _ => t)
  | none => s3

-- Ports

/-- LINK_WAKE (R206, R541, R546): activity on a sleeping port also wakes the block from Nap, or ends the entry into it. -/
def portWake (s : State) (p : Nat) (far : Bool) : State :=
  wakePort (if far && asleep s p && (s.power = 2 || s.csp.entering = some 2) then wakeBlock s else s) p far

/-- SLEEP_NAK (R205, R539, R540): the requester returns to UP, and an entry is abandoned. -/
def sleepRefused (s : State) (p : Nat) (m : List Byte) : State :=
  let s1 := takeSleepNak s p m
  if s.csp.entering.isSome && isLinkMsg m 0x12 then abortEntry s1 else s1

/-- The board's clock tick as the power states see it: an entry whose conditions fail is abandoned (R539). -/
def entryWatch (s : State) : State :=
  if s.power ≠ 4 then s else if !idleNow s then abortEntry s else if s.csp.entering = some 2 then napPorts s else hibernatePorts s

end Sys2Proof.Machine
end

