-- ==== Sys2Proof/Machine/Bringup.lean ====
section
/-! DEFINITION. The pins: reset inputs and bring-up (R41, R49 to R54, R597, R598), FLT_ALIVE (R62), the test access port
(R72 to R76). -/
namespace Sys2Proof.Machine

-- PORST_n (R50, R680)

/-- PORST_ASSERT: Tier 4. Fuses, the flash's contents and the build are kept; the test access port, which JT_TRST_n
resets, keeps its instruction and its boundary register. -/
def porstAssert (s : State) : State :=
  { build := s.build
    burrow := { s.burrow with checking := [], hourUsed := 0, part := none }
    sea := { fuses := s.sea.fuses }
    pins := { hrst := s.pins.hrst, ir := s.pins.ir, testFence := s.pins.testFence
              boundary := s.pins.boundary, preload := s.pins.preload, bypass := s.pins.bypass }
    time := { ref := s.time.ref }
    pending := s.pending
    freeIdx := s.freeIdx }

/-- DWORD `k` (from 1) of the table of `n` DWORDs at byte `at_` of the bytes that opcode 0x5A reads; one past the table is
zero. -/
def sfdpDword (b : List Byte) (at_ n k : Nat) : Nat := if 1 ≤ k ∧ k ≤ n then leAt b (at_ + 4 * (k - 1)) 4 else 0

/-- The opcode of the 4 KiB erase: DWORD 1, or an erase type of DWORDs 8 and 9 whose size is 2¹² bytes. PRESUMED (log entry
77): the layout of the table is JESD216's. -/
def sfdpErase (d : Nat → Nat) : Option Nat :=
  if bitsOf (d 1) 1 0 = 1 then some (bitsOf (d 1) 15 8)
  else (([d 8 % 2 ^ 16, d 8 / 2 ^ 16, d 9 % 2 ^ 16, d 9 / 2 ^ 16].filter fun t => t % 256 = 12).head?).map (· / 256)

/-- The read mode that the block takes: the widest of those that the table advertises. DESIGN CHOICE (log entry 77). -/
def sfdpMode (d1 : Nat) : ReadMode :=
  if bitOf d1 21 then .m144 else if bitOf d1 22 then .m114 else if bitOf d1 20 then .m122 else if bitOf d1 16 then .m112 else .m111

/-- Flash discovery (R64 to R66): the parameter header and the basic table of the part, whose bytes opcode 0x5A reads; none
where the signature is not there, the density lies outside 8 MiB to 256 MiB, or no 4 KiB erase is offered. A part above
16 MiB, or one that takes no other, is addressed with 4 bytes. PRESUMED (log entry 77). -/
def discover (b : List Byte) : Option FlashPart :=
  if leAt b 0 4 ≠ 0x50444653 then none else
  let d := sfdpDword b (leAt b 12 3) (leAt b 11 1)
  let bits := if bitOf (d 2) 31 then 2 ^ (d 2 % 64) else d 2 + 1
  let mib := bits / 2 ^ 23
  match sfdpErase d with
  | none => none
  | some op =>
    if mib < 8 || 256 < mib then none
    else some { mib := mib, mode := sfdpMode (d 1), addr4 := decide (16 < mib) || bitsOf (d 1) 18 17 = 2
                eraseOp := op, quadEnable := bitsOf (d 15) 22 20 }

/-- The dividers of FL_SCK (R64), the fastest first. -/
def flashDividers : List Nat := [3, 4, 6, 8, 16]

/-- PORST_RELEASE (R50, R62, R64 to R68, R597 steps 1 and 2): the always-on slice starts, and flash discovery reads the bytes
`sfdp`; `clk` and `delay` name the fastest divider and sample delay at which the signature reads back 64 times. -/
def porstRelease (s : State) (sfdp : List Byte) (clk delay : Nat) : State :=
  if !s.pins.porst then s else
  let s1 := (s.useFree.wr POWERON_ID.POWERON_ID (s.free % (2 ^ 32 - 1) + 1)).wr SEA_STATUS.RNG_OK 1
  let s2 := { s1 with pins := { s1.pins with porst := false, fltStopped := false, fltAlive := false, fltLast := s.acs } }
  match discover sfdp with
  | some f =>
    { s2 with
      burrow := { s2.burrow with sectors := f.mib * 256 - 512, part := some { f with divider := flashDividers.getD clk 16, delay := delay } }
      bdg := { s2.bdg with boot := .image } }
  | none => { s2 with bdg := { s2.bdg with load := 1 } }

/-- The fence of EXTEST, CLAMP and HIGHZ stands (R75): as at the entry to Tier 3 (R605 step 1), the fence has source TIER,
the host heartbeat is disarmed, and HMP issues no new request (R52). -/
def testFenced (s : State) : State :=
  if !s.pins.testFence then s else
  let s1 := hostEn (setFence s BDG_FENCE.TIER true) false
  hmpQuiesce { s1 with pins := { s1.pins with trgReady := false } }

/-- Firmware runs from image `m`: bring-up goes on at step 4 (R597, R598). With HRST_n low the fabric domain stays in
Tier 3 (R53). -/
def bringUp (s : State) (m : List Byte) (flash : Bool) : State :=
  let s1 := runImage s m
  let s2 := if flash then burrowOpen s1 else s1
  let s3 := testFenced { s2 with bdg := { s2.bdg with boot := .bringup }, csp := { s2.csp with pllEnd := some (s2.after 100000) } }
  if s.pins.hrst then setFence (setRun s3 { n := 3, step := .hrst, began := s.now }) BDG_FENCE.TIER true else s3

/-- IMAGE_CHECK (R518, R597 step 3, R598). -/
def imageCheck (s : State) : State :=
  if s.bdg.boot ≠ .image then s else
  match goodCopy s with
  | some m => bringUp s m true
  | none => { s with bdg := { s.bdg with boot := .none, load := 1 } }

-- Monitors

/-- REF_LOSS (R41): F4, and fabric time is invalid, which each link's CAP says (R204). -/
def refLoss (s : State) : State :=
  if s.pins.porst || !s.time.ref then s else
  report (capRefreshAll (({ s with time := { s.time with ref := false } } : State).wr BDG_TIME_STAT.VALID 0)) 0x08 4 0x01 0

/-- REFCLK_RETURN (R41, R579). -/
def refReturn (s : State) : State :=
  if s.time.ref then s else
  let s1 := { s with time := { s.time with ref := true } }
  if s.rd HHG_STATUS.STATE = 2 then startQuiet s1 else s1

/-- SUPPLY_FAULT (R49): rail 0 VDD_SRAM, 1 VDD_FAB, 2 VDDA_LN, 3 VDDH_LN; the lane rails report nothing while every port
is Off. -/
def supplyFault (s : State) (rail : Nat) : State :=
  if s.pins.porst || (2 ≤ rail && (portsOf s).all fun p => s.laneState p = 0) then s
  else report s 0x09 4 (rail + 1) 0

/-- FLT_ALIVE_TOGGLE (R62): every 32 ac. -/
def fltToggle (s : State) : State :=
  if s.pins.porst || s.pins.fltStopped || s.acs < s.pins.fltLast + 32 then s
  else { s with pins := { s.pins with fltAlive := !s.pins.fltAlive, fltLast := s.acs } }

-- The test access port (R72 to R76)

/-- The IDCODE word (R73). -/
def idcodeWord (s : State) : Word := BitVec.ofNat 32 (9 * 2 ^ 28 + 0x4757 * 2 ^ 12 + s.build.manufacturer % 2048 * 2 + 1)

/-- An instruction is selected (R72, R75): the code stands in the instruction register. Entering the three of R75 fences as
at the entry to Tier 3; leaving them performs a Tier 3 that is not counted, where firmware has started the fabric domain, and
before that only the fence falls (log entry 69). -/
def selectIr (s : State) (code : Nat) : State :=
  let s1 := { s with pins := { s.pins with ir := BitVec.ofNat 8 code, tdo := [] } }
  let fences := (jtagOf code).fences
  if fences && !s.pins.testFence then
    afterFence s.fenced (testFenced { s1 with pins := { s1.pins with testFence := true } })
  else if !fences && s.pins.testFence then
    let s2 := { s1 with pins := { s1.pins with testFence := false } }
    if s.pins.porst || s.bdg.boot = .none || s.bdg.boot = .image then
      setFence { s2 with hmp := { s2.hmp with quiesce := false } } BDG_FENCE.TIER false
    else tier3Or s2 false false false
  else s1

/-- Bits of a register as JT_TDO shifts them out, bit 0 first; none while PORST_n is low (R54). -/
def shiftOut (s : State) (n w : Nat) : State :=
  { s with pins := { s.pins with tdo := if s.pins.porst then [] else (List.range n).map (bitOf w) } }

/-- IDCODE (R72, R73): the 32-bit register is selected and shifted out. -/
def readIdcode (s : State) : State := let t := selectIr s 0x01; shiftOut t 32 (idcodeWord t).toNat

/-- A scan of the boundary register (R72, R74): the pins are captured and shifted out, and `cells` are shifted in and stand
as the values preloaded. The levels of cells 19 to 44 are `inputs`, for what lies on those pins comes from outside too. -/
def scanBoundary (s : State) (inputs cells : Nat) : State :=
  let v := b2n (!s.pins.porst) + 2 * b2n (!s.pins.hrst) + 4 * irqLevels s + 2 ^ 18 * b2n s.pins.fltAlive + 2 ^ 19 * inputs
  shiftOut { s with pins := { s.pins with boundary := v, preload := cells } } boundaryCells v

/-- BYPASS, and CLAMP's data register (R72): one bit is shifted through the bypass register, which captures 0 (PRESUMED, log
entry 69). -/
def scanBypass (s : State) (tdi : Bool) : State :=
  let t := shiftOut s 1 0
  { t with pins := { t.pins with bypass := tdi } }

end Sys2Proof.Machine
end

