-- ==== Sys2Proof/Machine/Readback.lean ====
section
/-! DEFINITION. Reads of the aperture (R21, R129, R669 to R678): the table readback windows, the banked queue registers,
and the latches of the three access paths (R361, R646, R677). -/
namespace Sys2Proof.Machine

/-- An access path to the aperture: MRP, the sideband, or AMM REG_READ and REG_WRITE (R361, R676). -/
inductive Path | mrp | sideband | amm
deriving DecidableEq, Repr

/-- What a path has latched. -/
def State.latch (s : State) : Path → Latch
  | .mrp => s.acc.mrp
  | .sideband => s.acc.sideband
  | .amm => s.acc.amm

def State.setLatch (s : State) (p : Path) (l : Latch) : State :=
  match p with
  | .mrp => { s with acc := { s.acc with mrp := l } }
  | .sideband => { s with acc := { s.acc with sideband := l } }
  | .amm => { s with acc := { s.acc with amm := l } }

/-- An address inside a range. -/
def within (a lo hi : Nat) : Bool := lo ≤ a && a < hi

/-- The status that the place of an access gives it (R21, R129, R669): INTERNAL where no region lies, BUSY while the
fabric regions do not answer. -/
def regionStatus (s : State) (a : Nat) : Nat :=
  if 0x1000000 ≤ a || within a 0x380000 0x400000 || within a 0x420000 0x480000 || within a 0xE40000 0xE80000 ||
      within a 0xFC8000 0x1000000 then stINTERNAL
  else if 0x40000 ≤ a && !s.fabricOpen then stBUSY
  else stOK

/-- A number made of fields, the lowest first: width and value of each. -/
def packFields : List (Nat × Nat) → Nat
  | [] => 0
  | (n, v) :: t => v % 2 ^ n + 2 ^ n * packFields t

-- Entries

/-- The response record `r` (R279). -/
def recordNat (s : State) (r : Nat) : Nat :=
  match s.xpt.recs.find? r with
  | none => 0
  | some v => packFields [(18, v.stream), (1, 1), (24, v.stag), (16, v.seq), (5, 0), (8, v.status.getD 0), (8, v.opcode),
      (48, 0), (64, v.result), (32, v.created / 1024)]

/-- The receive bitmap `b` (R279). -/
def bitmapNat (s : State) (b : Nat) : Nat :=
  match (s.xpt.peers.filter fun e => e.2.bmpIdx = some b).head? with
  | some e => e.2.bmp / 2 * 2
  | none => 0

/-- The held packet `h`, in wire order (R279). -/
def heldNat (s : State) (h : Nat) : Nat :=
  match s.xpt.held.find? h with
  | some v => leNat (fit 128 v.pkt.wire)
  | none => 0

/-- The Outstanding Operation Table entry with TAG `t` (R285). DREC is the operation's number in its context's back end. -/
def ootNat (s : State) (t : Nat) : Nat :=
  match s.entry t with
  | none => 0
  | some e =>
    let o := (s.xop e.op).getD {}
    let drec := match o.owner with | .entry _ id => id | _ => 0
    let tail := if e.opcode = 0x04 then [(64, leAt o.payload 0 8)]
      else [(52, ((cutExt o.ext e.poff 1).head?.map (·.1)).getD 0), (12, e.len + 4095)]
    packFields ([(3, e.state), (1, b2n (4 ≤ e.tc)), (9, e.ctx), (3, 0), (20, e.peer), (16, e.seq),
      (24, e.stag), (8, e.opcode), (4, e.attempt), (24, (e.deadline.getD 0) / 160000000 / 1024), (16, drec), (16, o.win),
      (48, o.off + e.poff)] ++ tail)

/-- The Peer State Table entry `i` (R267). -/
def peerNat (s : State) (i : Nat) : Nat :=
  let v := s.peer i
  packFields [(16, v.txNext), (16, txLow s i), (24, v.txStag), (3, v.txState), (5, 0), (16, v.rxBase), (24, v.rxStag),
    (3, v.rxState), (1, b2n v.bmpIdx.isSome), (1, b2n (s.xpt.held.any fun e => e.2.stream = i))]

/-- STATE of a window entry (R296). -/
def WinState.code : WinState → Nat
  | .free => 0 | .valid => 1 | .revoking => 2 | .invalid => 3

/-- The window entry `w` (R296). -/
def winNat (s : State) (w : Nat) : Nat :=
  let v := s.win w
  if v.state = .free then packFields [(56, 0), (8, v.gen)] else
  packFields [(52, v.base), (4, 0), (8, v.gen), (48, v.bound), (16, v.pkey), (2, v.state.code), (1, b2n v.rd), (1, b2n v.wr),
    (1, b2n v.at_), (1, b2n v.chunked), (5, if v.chunked then v.chunkLog2 else 0), (21, 0),
    (32, if v.chunked then v.serial else 0), (16, v.heatRd), (16, v.heatWr), (8, v.heatAt), (17, v.candSrc), (7, v.candCnt)]

/-- Instruction `i` (R329). -/
def instrNat (s : State) (i : Nat) : Nat :=
  if s.mrt.imemPoison.contains (i / 4) then 2 ^ 128 - 1 else (s.mrt.imem.get 0 i).toNat

/-- The 512 bytes of context `k` (R357). -/
def ctxBytes (s : State) (k : Nat) : List Byte :=
  let c := s.ctx k
  let mask (l : List Nat) : Nat := (l.dedup.map (2 ^ ·)).sum
  let r := fenceRecord s k
  ((List.range 32).flatMap fun i => natLE 8 (c.gr i)) ++
    natLE 4 (((List.range 8).filter c.pr).map (2 ^ ·)).sum ++ natLE 4 c.pc ++ natLE 4 (mask c.pendG) ++
    natLE 4 (mask c.pendP) ++ natLE 4 c.queued ++ natLE 4 r.1 ++ natLE 4 r.2

/-- The 64 bytes of trigger entry `t` (R387). -/
def trigBytes (s : State) (t : Nat) : List Byte :=
  let e := s.trig t
  natLE 4 (packFields [(16, e.obj), (2, e.cond), (3, e.action), (1, b2n e.armed), (1, b2n e.pending), (9, e.ctx)]) ++
    natLE 4 (packFields [(16, e.laps), (1, b2n e.poisoned)]) ++ natLE 8 e.thresh ++ natLE 4 e.step ++ natLE 4 e.fires ++
    natLE 8 e.arg ++ natLE 8 e.value ++ natLE 8 e.ftime

/-- The 32 bytes of an abort record (R417). -/
def abortBytes (v : Group) : List Byte :=
  match v.abort with
  | some a => natLE 4 v.tag ++ natLE 4 a.origin ++ natLE 2 a.step ++ natLE 1 a.cause ++ natLE 5 0 ++ natLE 8 a.time ++ natLE 8 0
  | none => natLE 32 0

/-- The 256 bytes of group `g` (R430). -/
def groupBytes (s : State) (g : Nat) : List Byte :=
  let v := s.group g
  if v.state = 0 then [] else
  fit 128 v.image ++
    natLE 2 (packFields [(2, v.state), (1, b2n v.degraded), (1, b2n (groupRunning s g))]) ++ natLE 2 v.issued ++ natLE 2 v.ended ++
    natLE 2 (stepsOut s g) ++ natLE 2 v.failSt ++ natLE 2 v.failStep ++ natLE 3 v.lagNode ++ natLE 1 v.lagIdx ++ natLE 4 v.lastWait ++
    natLE 4 v.maxWait ++ ((List.range 12).flatMap fun i => natLE 1 (v.slow.get 0 i)) ++ natLE 4 (min v.selfLate 65535) ++
    abortBytes v

/-- The 64 bytes of grove entry `m` (R643). -/
def groveBytes (s : State) (m : Nat) : List Byte :=
  match s.bdg.grove.find? m with
  | some v => natLE 4 (v.node % 2 ^ 20 + 2 ^ 24 + 2 ^ 25 * b2n v.silent) ++ natLE 4 0 ++ natLE 8 v.last ++
      fit 32 v.health ++ fit 12 v.map ++ natLE 4 0
  | none => []

-- Windows (R675)

/-- The readback entry at `a` in view `view`: where it begins, its size in bytes, and its contents as a number. -/
def windowEntry (s : State) (view a : Nat) : Nat × Nat × Nat :=
  let e (base size n : Nat) (f : Nat → Nat) : Nat × Nat × Nat :=
    let i := (a - base) / size
    (base + size * i, size, f (i % n))
  if a < 0x420000 then e 0x400000 4 32768 fun i => readTableWord s (i / 16384) (i % 16384)
  else if a < 0x500000 then e 0x480000 16 32768 (instrNat s)
  else if a < 0x600000 then e 0x500000 4 262144 fun i => leNat ((List.range 4).map fun b => s.scr (4 * i + b))
  else if a < 0x700000 then e 0x600000 32 32768 (ootNat s)
  else if view = 2 && within a 0x7C0000 0x840000 then e 0x7C0000 128 4096 (heldNat s)
  else if view = 1 && within a 0x780000 0x800000 then e 0x780000 64 8192 (bitmapNat s)
  else if a < 0x800000 then e 0x700000 32 32768 (recordNat s)
  else if a < 0xC00000 then e 0x800000 16 262144 (peerNat s)
  else if a < 0xE00000 then e 0xC00000 32 65536 (winNat s)
  else if a < 0xE40000 then e 0xE00000 512 512 fun k => leNat (ctxBytes s k)
  else if a < 0xEC0000 then e 0xE80000 64 4096 fun t => leNat (trigBytes s t)
  else if a < 0xFC0000 then e 0xEC0000 256 4096 fun g => leNat (groupBytes s g)
  else e 0xFC0000 64 512 fun m => leNat (groveBytes s m)

/-- Word `i` of a number. -/
def wordAt (n i : Nat) : Word := BitVec.ofNat 32 (n / 2 ^ (32 * i))

/-- A read of a readback window: the word, and what the path has latched then (R677). -/
def readWindow (s : State) (l : Latch) (a : Nat) : Word × Option (Nat × List Word) :=
  let (base, size, n) := windowEntry s l.view a
  let i := (a - base) / 4
  if size ≤ 64 && i = 0 then (wordAt n 0, some (base, (List.range (size / 4)).map (wordAt n)))
  else match l.entry with
    | some (b, ws) => if b = base then (ws.getD i 0, l.entry) else (wordAt n i, none)
    | none => (wordAt n i, none)

-- Regions below the windows

/-- A register of an absent port, lane, channel or unit (R6): it reads zero and ignores writes. -/
def regAbsent (s : State) (a : Nat) : Bool :=
  let port (base stride : Nat) : Bool := match indexIn base stride 12 a with | some p => s.build.ports ≤ p | none => false
  let lane (base stride : Nat) : Bool := match indexIn base stride 96 a with | some k => !s.lanePresent k | none => false
  let chan (base : Nat) : Bool := match indexIn base 4 20 a with | some c => s.build.channels ≤ c | none => false
  if a < 0x50000 then port 0x10100 4 || port 0x40100 8 || port 0x40104 8
  else if a < 0x80000 then
    port 0x50100 16 || port 0x50104 16 || port 0x50108 16 || port 0x5010C 16 || lane 0x51000 8 || lane 0x51004 8 ||
      lane 0x52000 8 || lane 0x52004 8 || lane 0x53000 4 || lane 0x54000 4 || lane 0x60100 4
  else if a < 0x140000 then s.build.ports ≤ (a - 0x80000) / 0x10000
  else if within a 0x2C0000 0x300000 then !s.build.fox
  else if within a 0x300100 0x300400 then chan 0x300100 || chan 0x300200 || chan 0x300300
  else port 0x140100 4 || port 0x140140 4 || port 0x140180 4 || port 0x340200 4

/-- The public window of the Seal unit (R537). -/
def publicBytes (s : State) : List Byte :=
  let v := s.sea
  let pub (k : Nat) : List Byte := if k = 0 then natLE 96 0 else fit 96 (pubOf k)
  pub v.devKey ++ pub v.aliasKey ++ fit 96 v.endorse ++ fit 48 v.fwMeas ++ fit 48 v.cfgMeas ++ fit 48 v.fuses.anchor0 ++
    fit 48 v.fuses.anchor1 ++ fit 48 v.fuses.fwAnchor ++ fit 96 v.anchorKey ++ fit 452 v.cred

/-- STATE of a queue (R112). -/
def QState.code : QState → Nat
  | .closed => 0 | .opened => 1 | .closing => 2 | .closedByReset => 3 | .error => 4

/-- The registers at 0x30_4004 to 0x30_4027 of the queue that Q_SEL names (R105 to R113). -/
def queueWord (s : State) (o : Nat) : Nat :=
  let v := s.queue (s.rd Q_SEL.QUEUE)
  match o with
  | 0x04 => 256 * v.cmdStatus
  | 0x08 => v.driverAbi + 65536 * Config.firmwareAbi
  | 0x0C => packFields [(5, v.log2), (1, b2n v.push), (9, v.context), (4, v.irqWire)]
  | 0x10 => v.ring % 2 ^ 32
  | 0x14 => v.ring / 2 ^ 32
  | 0x18 => v.cpl % 2 ^ 32
  | 0x1C => v.cpl / 2 ^ 32
  | 0x20 => packFields [(3, v.state.code), (7, if v.push then v.waiting.length else 0), (6, 0), (16, v.head)]
  | 0x24 => packFields [(16, v.cplTail), (1, b2n v.phase)]
  | _ => 0

/-- A word of the weight window (R492): two 16-bit words, 0xFFFF in a poisoned tile-slot. -/
def weightWord (s : State) (o : Nat) : Nat :=
  let n := 65536 * s.rd FOX_WBANK.BANK + o / 2
  if s.fox.poison.contains (n / 4096) then 2 ^ 32 - 1
  else s.fox.weights.get 0 n + 65536 * s.fox.weights.get 0 (n + 1)

/-- A word of the aperture below the readback windows, and the status of its read. -/
def regionWord (s : State) (l : Latch) (a : Nat) : Word × Nat :=
  let bytes (base : Nat) (b : List Byte) : Word × Nat := (BitVec.ofNat 32 (leAt b (a - base) 4), stOK)
  if regAbsent s a then (0, stOK)
  else if within a 0x20800 0x20820 then bytes 0x20800 ((s.hhg.fatal.map recBytes).getD [])
  else if within a 0x21000 0x21800 then
    bytes (a / 32 * 32) (match s.hhg.log.find? ((a - 0x21000) / 32) with | some r => recBytes r | none => [])
  else if within a 0x41000 0x42000 then bytes 0x41000 (publicBytes s)
  else if a = XPT_RBSEL.VIEW.addr then (BitVec.ofNat 32 l.view, stOK)
  else if within a 0x200000 0x280000 then
    let o := (a - 0x200000) / 8
    if s.objPoisoned o then (0, stPOISON) else (wordAt (s.obj o) (a / 4 % 2), stOK)
  else if within a 0x2E0000 0x300000 then
    if s.fox.island = 2 then (BitVec.ofNat 32 (weightWord s (a - 0x2E0000)), stOK) else (0, stBUSY)
  else if within a 0x304004 0x304028 then (BitVec.ofNat 32 (queueWord s (a - 0x304000)), stOK)
  else (readReg s a, stOK)

/-- A read of the word at `a` by path `p`: its value and its status (R21, R129, R361, R541, R646, R669, R675 to R677). -/
def readWord (s : State) (p : Path) (a : Nat) : State × Word × Nat :=
  let l := s.latch p
  let keep := match l.entry with | some (b, ws) => if within a b (b + 4 * ws.length) then l.entry else none | none => none
  let l0 := { l with obj := none, ftime := none, entry := keep }
  let st := regionStatus s a
  if st ≠ stOK then (s.setLatch p l0, 0, st)
  else if 0x400000 ≤ a then
    let (w, e) := readWindow s l a
    ((drowseExit s).setLatch p { l0 with entry := e }, w, stOK)
  else
    let (w, st1) := regionWord s l a
    let s1 := if a < 0x40000 then s else drowseExit s
    if a = BDG_FTIME_LO.TIME_LO.addr then (s1.setLatch p { l0 with ftime := some (wordAt s.nowNs 1) }, w, st1)
    else if a = BDG_FTIME_HI.TIME_HI.addr then (s1.setLatch p l0, l.ftime.getD w, st1)
    else if within a 0x200000 0x280000 && st1 = stOK then
      if a % 8 = 0 then (s1.setLatch p { l0 with obj := some (a, wordAt (s.obj ((a - 0x200000) / 8)) 1) }, w, st1)
      else match l.obj with
        | some (b, h) => (s1.setLatch p l0, if b + 4 = a then h else w, st1)
        | none => (s1.setLatch p l0, w, st1)
    else (s1.setLatch p l0, w, st1)

end Sys2Proof.Machine
end

