-- ==== Sys2Proof/Machine/Aperture.lean ====
section
/-! DEFINITION. Writes of the aperture (R9, R21, R129, R669): the firmware's reservation, the fields that a write sets, and
the commands that a write of a register gives. -/
namespace Sys2Proof.Machine

/-- The index of a per-context register block at `a`, and the offset in it. -/
def blockAt (base stride n a : Nat) : Option (Nat × Nat) :=
  if within a base (base + stride * n) then some ((a - base) / stride, (a - base) % stride) else none

-- Rights (R129)

/-- A write from outside firmware that is answered RIGHTS (R129, R301, R353, R362, R392, R675). -/
def writeRefused (s : State) (a w : Nat) : Bool :=
  let old := (s.reg a).toNat
  let mgmt := s.on TGT_CFG.MGMT_ONLY
  writeForbidden s a w ||
    (mgmt && a = TGT_WCMD.CMD.addr && w % 4 = 1) ||
    (mgmt && (match blockAt 0x1C1000 16 512 a with | some (_, 4) => bitsOf w 31 16 ≠ bitsOf old 31 16 | _ => false)) ||
    (s.on SYN_CFG.MGMT_LOCK && within a 0x1E0400 0x1E07F8 && bitsOf w 16 0 ≠ bitsOf old 16 0) ||
    (a = YAR_GCMD.CMD.addr && w % 4 = 3 && (s.group (bitsOf w 31 20)).priv) ||
    within a 0x20800 0x20820 || within a 0x21000 0x21800 || within a 0x41000 0x42000 || within a 0x2E0000 0x300000

-- Registers with commands

/-- The always-on registers. -/
def writeAlwaysOn (s : State) (a w : Nat) : State :=
  let held := s.on BDG_LOG_CFG.EN
  if a = CSP_CMD.TARGET.addr then
    (match w % 4 with | 0 => powerRun s | 1 => powerDown s 2 | 2 => powerDown s 3 | _ => s)
  else if a = CSP_LOCAL_LEVEL.LEVEL.addr then localLevel s (w % 16)
  else if a = HHG_PEND.PEND.addr then hhgAck s w
  else if a = BDG_TIER_CMD.TIER.addr then
    (if 1 ≤ w % 8 ∧ w % 8 ≤ 3 then tierCommand s (w % 8) (bitsOf w 31 24) (bitOf w 4) else regWrite s a w)
  else if a = BDG_FENCE.SW.addr then setFence s BDG_FENCE.SW (bitOf w 0)
  else if a = BDG_HB_CFG.HOST_EN.addr then hostEn (regWrite s a w) (bitOf w 31)
  else if a = BDG_HOST_HB.VALUE.addr then hostHb s w
  else if a = BDG_CAP_CFG.HOLD.addr then (if bitOf w 31 then holdEnd (regWrite s a w) else regWrite s a w)
  else if within a 0x300C0 0x30100 then heldRelease s ((a - 0x300C0) / 4) w
  else if a = BDG_LOG_BASE_LO.BASE_LO.addr || a = BDG_LOG_BASE_HI.BASE_HI.addr then (if held then s else regWrite s a w)
  else if a = BDG_LOG_CFG.EN.addr then logEnable ((regWrite s a w).wr BDG_LOG_CFG.EN (b2n held)) (bitOf w 31)
  else if a = BDG_LOG_PTR.TAIL.addr then logTail s (w % 65536)
  else if within a 0x2016C 0x20180 then s
  else if within a 0x20120 0x2012C then
    (let f := (a - 0x20100) / 4
     (regWrite s a w).wr (HHG_SRC_CFG.MIN_CLASS f) (s.rd (HHG_SRC_CFG.MIN_CLASS f)))
  else regWrite s a w

/-- The lane and Owl registers: LAN_PORT_CFG with OFF, TEST and RECAL (R162), OWL_CTRL (R170). -/
def writeLane (s : State) (a w : Nat) : State :=
  match blockAt 0x50100 16 12 a with
  | some (p, 0) =>
    let s1 := regWrite s a w
    let off := s.on (LAN_PORT_CFG.OFF p)
    let s2 := (if off then s1 else s1.wr (LAN_PORT_CFG.TEST p) (s.rd (LAN_PORT_CFG.TEST p))).wr (LAN_PORT_CFG.OFF p) (b2n off)
    let s3 := if bitOf w 0 then (if s.laneState p = 0 then s2 else lanesOff (linkDown s2 p none false) p)
      else if s.laneState p = 0 then portOn s2 p [] else s2.wr (LAN_PORT_CFG.OFF p) 0
    if bitOf w 2 then portRecal s3 p else s3
  | _ =>
    if a = OWL_CTRL.START.addr then
      (if s.on OWL_STATUS.BUSY then s else if bitOf w 31 then owlStart s (BitVec.ofNat 32 w) else regWrite s a w)
    else regWrite s a w

/-- The link registers: LNK_CTRL with REEXCH and RETRAIN (R215). -/
def writeLink (s : State) (a w : Nat) : State :=
  let p := (a - 0x80000) / 0x10000
  if a % 0x10000 ≠ 0 then regWrite s a w else
  let s1 := regWrite s a w
  let s2 := if bitOf w 31 then reexch s1 p else s1
  if bitOf w 30 then retrainCmd s2 p else s2

/-- The router registers: RTR_CTRL (R249), and RTR_VER_CFG where R241 lets it be written. -/
def writeRouter (s : State) (a w : Nat) : State :=
  if a = RTR_CTRL.HOLD.addr then
    (let s1 := setHold s (bitOf w 1)
     if bitOf w 0 then flipArm s1 else s1)
  else if a = (RTR_VER_CFG.RANK 0).addr || a = (RTR_VER_CFG.RANK 1).addr then
    (if tableLocked s ((a - (RTR_VER_CFG.RANK 0).addr) / 4) then s.bump RTR_ERR.TBLWR 1 else regWrite s a w)
  else regWrite s a w

/-- The target engine's registers: TGT_WCMD (R299, R316). -/
def writeTarget (s : State) (a w : Nat) : State :=
  if a = TGT_WCMD.CMD.addr then
    (match w % 4 with
     | 1 => viaFirmware TGT_WCMD.BUSY TGT_WCMD.STATUS s tgtCreate
     | 2 => viaFirmware TGT_WCMD.BUSY TGT_WCMD.STATUS s tgtNarrow
     | 3 => viaFirmware TGT_WCMD.BUSY TGT_WCMD.STATUS s tgtRevoke
     | _ => s)
  else if a = TGT_CFG.HEAT_PERIOD.addr then heatAlign (regWrite (heatHalve s) a w)
  else regWrite s a w

/-- The Marten registers (R349 to R356). -/
def writeMarten (s : State) (a w : Nat) : State :=
  if within a 0x1C0010 0x1C001C then (if s.on MRT_ILOAD_CMD.BUSY then s else regWrite s a w)
  else if a = MRT_ILOAD_CMD.GO.addr then (if bitOf w 0 then viaFirmware MRT_ILOAD_CMD.BUSY MRT_ILOAD_CMD.STATUS s iloadGo else s)
  else match blockAt 0x1C1000 16 512 a, blockAt 0x1C4000 8 512 a with
  | some (k, 12), _ => (match w % 4 with | 1 => ctxStart s k | 2 => ctxStop s k | 3 => tier0 s k | _ => s)
  | some (k, _), _ => if (s.ctx k).state = .stopped then regWrite s a w else s
  | none, some (k, 0) => if bitOf w 23 then s.setCtx k { s.ctx k with cmdErr := false } else s
  | none, some _ => s
  | none, none => regWrite s a w

/-- The synchronisation store's registers (R380, R382). -/
def writeSync (s : State) (a w : Nat) : State :=
  if a = SYN_TCMD.CMD.addr then
    (if s.on SYN_TCMD.BUSY then s else
     let t := bitsOf w 31 20
     let s1 := s.wr SYN_TCMD.ENTRY t
     match w % 4 with
     | 1 => viaFirmware SYN_TCMD.BUSY SYN_TCMD.STATUS s1 fun u => synArm u t
     | 2 => viaFirmware SYN_TCMD.BUSY SYN_TCMD.STATUS s1 fun u => synDisarm u t
     | _ => s1)
  else if a = SYN_HOST_ADD.OBJ.addr then synHostAdd s (w % 65536) (bitsOf w 31 16)
  else regWrite s a w

/-- The object window (R361): a low word is staged, a high word sets the object and clears its poison. -/
def writeObject (s : State) (p : Path) (a w : Nat) : State :=
  let l := s.latch p
  if a % 8 = 0 then s.setLatch p { l with staged := some (a, BitVec.ofNat 32 w) } else
  let low := match l.staged with | some (b, x) => if b + 4 = a then x.toNat else 0 | none => 0
  synSet s ((a - 0x200000) / 8) (w % 2 ^ 32 * 2 ^ 32 + low)

/-- The Yarrow registers: YAR_GCMD (R426) and the commits of update records (R448). -/
def writeYarrow (s : State) (fw : Bool) (a w : Nat) : State :=
  if a = YAR_GCMD.CMD.addr then
    (if s.on YAR_GCMD.BUSY then s else
     let g := bitsOf w 31 20
     let s1 := s.wr YAR_GCMD.GROUP g
     match w % 4 with
     | 1 => viaFirmware YAR_GCMD.BUSY YAR_GCMD.STATUS s1 fun u => groupCreate u g fw (gargAddr u)
     | 2 => viaFirmware YAR_GCMD.BUSY YAR_GCMD.STATUS s1 fun u => groupDestroy u g
     | 3 => viaFirmware YAR_GCMD.BUSY YAR_GCMD.STATUS s1 fun u => groupCancel u g !fw
     | _ => s1)
  else match blockAt 0x288000 64 256 a with
  | some (u, 0x3C) => if bitOf w 0 then updCommit s u else s
  | _ => regWrite s a w

/-- The Foxglove registers: the commits of stage records (R472). -/
def writeFox (s : State) (a w : Nat) : State :=
  match blockAt 0x2C4000 64 256 a with
  | some (i, 0x3C) => if bitOf w 0 then stageCommit s i else s
  | _ => regWrite s a w

/-- The queue registers at 0x30_4004 to 0x30_4027 of the queue that Q_SEL names (R105 to R111). -/
def writeQueue (s : State) (o w : Nat) : State :=
  let q := s.rd Q_SEL.QUEUE
  let v := s.queue q
  if o = 0x04 then
    (if s.on BDG_STATUS.FW_RESTART && (w % 4 = 1 || w % 4 = 2) then s.setQueue q { v with cmdStatus := stBUSY }
     else match w % 4 with | 1 => qOpen s q | 2 => qClose s q | _ => s)
  else if !v.isClosed then s
  else match o with
  | 0x08 => s.setQueue q { v with driverAbi := w % 65536 }
  | 0x0C => s.setQueue q { v with
      log2 := w % 32, push := bitOf w 5, context := bitsOf w 14 6, irqWire := bitsOf w 18 15 }
  | 0x10 => s.setQueue q { v with ring := v.ring / 2 ^ 32 * 2 ^ 32 + w % 2 ^ 32 / 64 * 64 }
  | 0x14 => s.setQueue q { v with ring := w % 2 ^ 20 * 2 ^ 32 + v.ring % 2 ^ 32 }
  | 0x18 => s.setQueue q { v with cpl := v.cpl / 2 ^ 32 * 2 ^ 32 + w % 2 ^ 32 / 32 * 32 }
  | 0x1C => s.setQueue q { v with cpl := w % 2 ^ 20 * 2 ^ 32 + v.cpl % 2 ^ 32 }
  | _ => s

/-- The host port registers and doorbells. -/
def writeHost (s : State) (a w : Nat) : State :=
  if a = TRG_CFG.HIWAT.addr then trgCfgWrite s (BitVec.ofNat 32 w)
  else if within a 0x304004 0x304028 then writeQueue s (a - 0x304000) w
  else match blockAt 0x310000 4 4096 a, blockAt 0x314000 4 4096 a with
  | some (q, _), _ => qDb s q (w % 65536)
  | none, some (q, _) => qCqdb s q (w % 65536)
  | none, none => regWrite s a w

/-- The scheduler registers. -/
def writeSched (s : State) (a w : Nat) : State :=
  match blockAt 0x341000 16 64 a with
  | some (i, 0) => shaperWrite s i w
  | _ => regWrite s a w

/-- The context window (R324, R357): G1 to G31 and P1 to P7, while the context is STOPPED. -/
def writeCtx (s : State) (a w : Nat) : State :=
  let k := (a - 0xE00000) / 512
  let o := a % 512
  let c := s.ctx k
  if c.state ≠ .stopped then s
  else if o < 256 then
    (let v := c.gr (o / 8)
     s.setCtx k (c.setG (o / 8) (if o % 8 = 0 then v / 2 ^ 32 * 2 ^ 32 + w else w * 2 ^ 32 + v % 2 ^ 32)))
  else if o = 256 then s.setCtx k ((List.range 8).foldl (fun c i => c.setP i (bitOf w i)) c)
  else s

/-- A write to a readback window (R228, R324, R331, R675): RIGHTS but for scratch, contexts, and firmware's write of a
routing table, which R241 may refuse. -/
def writeWindow (s : State) (fw : Bool) (a w : Nat) : State × Nat :=
  if within a 0x500000 0x600000 then (scrWrite s (a - 0x500000) (natLE 4 w), stOK)
  else if within a 0xE00000 0xE40000 then (writeCtx s a w, stOK)
  else if fw && a < 0x420000 then
    (let ver := (a - 0x400000) / 65536
     if tableLocked s ver && !wordSpoiled s ver ((a - 0x400000) / 4 % 16384) then (s.bump RTR_ERR.TBLWR 1, stOK) else (writeTableWord s ver ((a - 0x400000) / 4 % 16384) w, stOK))
  else (s, stRIGHTS)

/-- The effect of an admitted write below the windows. -/
def writeRegion (s : State) (p : Path) (a w : Nat) : State :=
  if regAbsent s a then s
  else if a < 0x40000 then writeAlwaysOn s a w
  else if a < 0x50000 then (if a = SEA_RCMD.GO.addr then (if bitOf w 0 then attestReport s else s) else regWrite s a w)
  else if a < 0x80000 then writeLane s a w
  else if a < 0x140000 then writeLink s a w
  else if a < 0x180000 then writeRouter s a w
  else if a = XPT_RBSEL.VIEW.addr then
    (if w % 4 = 3 then s else s.setLatch p { s.latch p with view := w % 4 })
  else if a < 0x1A0000 then regWrite s a w
  else if a < 0x1C0000 then writeTarget s a w
  else if a < 0x1E0000 then writeMarten s a w
  else if a < 0x200000 then writeSync s a w
  else if a < 0x280000 then writeObject s p a w
  else if a < 0x2C0000 then writeYarrow s (p = .amm) a w
  else if a < 0x300000 then writeFox s a w
  else if a < 0x340000 then writeHost s a w
  else writeSched s a w

/-- A write of word `w` at `a` by path `p`, and its status (R9, R21, R129, R361, R541, R669). AMM writes have firmware's
rights (R638); CAP fields that they change go out in new CAPs (R204). -/
def writeAperture (s : State) (p : Path) (a w : Nat) : State × Nat :=
  let l := s.latch p
  let same := l.staged.any fun x => x.1 / 8 = a / 8
  let s0 := s.setLatch p { l with obj := none, ftime := none, staged := if same then l.staged else none }
  let st := regionStatus s a
  if st ≠ stOK then (s0, st)
  else
    let s1 := if a < 0x40000 then s0 else drowseExit s0
    if 0x400000 ≤ a then writeWindow s1 (p = .amm) a w
    else if p ≠ .amm && !regAbsent s1 a && writeRefused s1 a w then (s1, stRIGHTS)
    else
      let s2 := writeRegion s1 p a w
      (if p = .amm then capRefreshAll s2 else s2, stOK)

end Sys2Proof.Machine
end

