-- ==== Sys2Proof/Machine/Amm.lean ====
section
/-! DEFINITION. Abarok management messages (R634 to R637, R652): fragments, source routes, errors, replies, the sideband's
queue, and the framing of session commands. -/
namespace Sys2Proof.Machine

-- The header (R635)

def ammType (m : List Byte) : Nat := leAt m 1 1
def ammFlags (m : List Byte) : Nat := leAt m 2 1
def ammHops (m : List Byte) : Nat := leAt m 3 1
def ammPos (m : List Byte) : Nat := leAt m 4 1
def ammId (m : List Byte) : Nat := leAt m 6 2
def ammSrc (m : List Byte) : Nat := leAt m 8 4 % 2 ^ 20
def ammDst (m : List Byte) : Nat := leAt m 12 4 % 2 ^ 20
/-- Entry `j` of the route. -/
def ammHop (m : List Byte) (j : Nat) : Nat := leAt m (32 + j / 2) 1 / 16 ^ (j % 2) % 16
/-- The body: what follows the header, up to LENGTH. -/
def ammBody (m : List Byte) : List Byte := (m.drop 48).take (leAt m 16 2 - 48)

/-- The 16 bytes of a route (R635). -/
def routeBytes (route : List Nat) : List Byte :=
  (List.range 16).map fun i => BitVec.ofNat 8 (route.getD (2 * i) 0 + 16 * route.getD (2 * i + 1) 0)

/-- A message (R635). -/
def ammMake (type flags hops pos id src dst : Nat) (route : List Nat) (body : List Byte) : List Byte :=
  [0x02] ++ natLE 1 type ++ natLE 1 flags ++ natLE 1 hops ++ natLE 1 pos ++ [0] ++ natLE 2 id ++ natLE 4 src ++ natLE 4 dst ++
    natLE 2 (48 + body.length) ++ natLE 14 0 ++ routeBytes route ++ body

-- Leaving the block

/-- The fragments of a message (R634): padded to whole units of 32 bytes. -/
def fragments (m : List Byte) : List (List Byte) :=
  let n := (m.length + 87) / 88
  (List.range n).map fun i =>
    let part := (m.drop (88 * i)).take 88
    let kind := if n = 1 then 1 else if i = 0 then 2 else if i + 1 = n then 4 else 3
    let size := if kind = 2 || kind = 3 then 96 else (8 + part.length + 31) / 32 * 32
    fit size ([0x03] ++ natLE 1 kind ++ natLE 2 (ammId m) ++ natLE 2 i ++ [0, 0] ++ part)

/-- Messages in a port's egress queue: those whose last fragment still waits (R636). -/
def ammQueued (l : LinkPort) : Nat := l.bpAmm.countP fun f => leAt f 1 1 = 1 || leAt f 1 1 = 4

/-- A message joins a port's egress queue, or cannot: the status of the ERROR (R636). -/
def ammOut (s : State) (p : Nat) (m : List Byte) : State × Option Nat :=
  if 12 ≤ p || s.linkState p = 0 || s.laneState p = 0 then (s, some stUNREACHABLE)
  else if 16 ≤ ammQueued (s.link p) then (s, some stBUSY)
  else (s.setLink p { s.link p with bpAmm := (s.link p).bpAmm ++ fragments m }, none)

/-- A message for the sideband (R652): one in the outbound buffer, 8 behind it. -/
def toSideband (s : State) (m : List Byte) : State :=
  if 9 ≤ s.acc.ammOut.length then s.bump BDG_AMM_ERR.DROP 1
  else { s with acc := { s.acc with ammOut := s.acc.ammOut ++ [m] } }

-- Arriving at its destination

/-- Types that answer the fabric manager: they go on to the sideband (R637, R652). -/
def ammAnswers : List Nat := [0x11, 0x13, 0x15, 0x1A, 0x3F]

/-- Types that this block acts on (R637). -/
def ammRequests : List Nat := [0x10, 0x12, 0x14, 0x18, 0x19, 0x20, 0x21, 0x22]

/-- A message is delivered here (R636, R637); `via` is its arrival port, 15 for the sideband. -/
def ammDeliver (s : State) (via : Nat) (m : List Byte) : State :=
  if ammAnswers.contains (ammType m) then toSideband s m
  else if ammRequests.contains (ammType m) then { s with bdg := { s.bdg with inbox := s.bdg.inbox ++ [(via, m)] } }
  else s.bump BDG_AMM_ERR.DROP 1

/-- A message of this block's own sets out along `route` (R635, R636). -/
def ammSend (s : State) (type flags id dst : Nat) (route : List Nat) (body : List Byte) : State :=
  match route with
  | [] => ammDeliver s 15 (ammMake type flags 0 0 id s.node dst [] body)
  | p :: rest =>
    match ammOut s p (ammMake type flags route.length 1 id s.node dst (15 :: rest) body) with
    | (t, some _) => t.bump BDG_AMM_ERR.DROP 1
    | (t, none) => t

/-- The route back from here (R636): the arrival port, then the hops already taken, down to the second. -/
def replyRoute (via : Nat) (m : List Byte) : List Nat :=
  if via = 15 then [] else via :: ((List.range (min (ammPos m) 32)).drop 1).reverse.map (ammHop m)

/-- The answer to a message: RSP set, the message's own MSG_ID (R635, R636). -/
def ammReply (s : State) (via : Nat) (m : List Byte) (type : Nat) (body : List Byte) : State :=
  ammSend s type 1 (ammId m) (ammSrc m) (replyRoute via m) body

/-- ERROR (R636, R637): never for an ERROR or an answer. -/
def ammError (s : State) (via : Nat) (m : List Byte) (st : Nat) : State :=
  if ammType m = 0x3F || bitOf (ammFlags m) 0 then s
  else ammReply s via m 0x3F (natLE 2 st ++ natLE 2 (ammId m) ++ natLE 4 s.node)

/-- A hop of the route replaced, and the hop counted (R636). -/
def ammTaken (m : List Byte) (via : Nat) : List Byte :=
  let pos := ammPos m
  let route := (List.range 32).map fun j => if j = pos then via else ammHop m j
  m.take 4 ++ natLE 1 (pos + 1) ++ (m.drop 5).take 27 ++ routeBytes route ++ m.drop 48

/-- A complete message is at this block (R635, R636). A FLOOD message is R644's. -/
def ammArrives (s : State) (via : Nat) (m : List Byte) : State :=
  let len := leAt m 16 2
  if m.length < 48 || len < 48 || m.length < len then s.bump BDG_AMM_ERR.DROP 1
  else
    let m := m.take len
    if leAt m 0 1 ≠ 2 then ammError s via m stVERSION
    else if 32 < ammHops m || ammHops m < ammPos m then ammError (s.bump BDG_AMM_ERR.DROP 1) via m stINTERNAL
    else if bitOf (ammFlags m) 1 then ammDeliver s via m
    else if ammPos m = ammHops m then
      (if ammDst m = s.node || ammDst m = 0xFFFFF then ammDeliver s via m else s)
    else if ammHop m (ammPos m) = 15 then toSideband s (ammTaken m via)
    else match ammOut s (ammHop m (ammPos m)) (ammTaken m via) with
      | (t, some st) => ammError (t.bump BDG_AMM_ERR.DROP 1) via m st
      | (t, none) => t

/-- Firmware runs and does not restart (R610, R639). -/
def fwUp (s : State) : Bool := !s.bdg.running.isEmpty && !s.on BDG_STATUS.FW_RESTART

/-- A complete message is taken by the management core, or lost while it restarts (R639). -/
def ammTake (s : State) (via : Nat) (m : List Byte) : State :=
  if fwUp s then ammArrives s via m else s.bump BDG_AMM_ERR.LOST 1

/-- The reassembly of port `p` is dropped: a discarded incomplete message counts in BROKEN (R634). -/
def ammBreak (s : State) (p : Nat) : State :=
  match s.bdg.parts.find? p with
  | some _ => { s.bump BDG_AMM_ERR.BROKEN 1 with bdg := { s.bdg with parts := s.bdg.parts.drop p } }
  | none => s

/-- AMM_FRAGMENT (R634). -/
def ammFragment (s : State) (p : Nat) (m : List Byte) : State :=
  if leAt m 0 1 ≠ 3 || s.linkState p = 0 then s else
  let s1 := takeBypass s p m
  let kind := leAt m 1 1
  let id := leAt m 2 2
  let idx := leAt m 4 2
  let data := (m.drop 8).take 88
  if kind = 1 || kind = 2 then
    let s2 := ammBreak s1 p
    if idx ≠ 0 then s2.bump BDG_AMM_ERR.BROKEN 1
    else if kind = 1 then ammTake s2 p data
    else { s2 with bdg := { s2.bdg with parts := s2.bdg.parts.put p ⟨id, 1, data⟩ } }
  else match s1.bdg.parts.find? p with
    | none => s1
    | some v =>
      if v.msgId ≠ id || v.next ≠ idx || 47 ≤ idx || 4 < kind then ammBreak s1 p
      else if kind = 4 then ammTake { s1 with bdg := { s1.bdg with parts := s1.bdg.parts.drop p } } p (v.bytes ++ data)
      else { s1 with bdg := { s1.bdg with parts := s1.bdg.parts.put p ⟨id, idx + 1, v.bytes ++ data⟩ } }

-- Messages taken from the management core's queue

/-- The message leaves the queue of delivered messages; it may also come alone. -/
def takeInbox (s : State) (via : Nat) (m : List Byte) : State :=
  { s with bdg := { s.bdg with inbox := s.bdg.inbox.erase (via, m) } }

/-- A delivered message of a type is acted on while firmware runs (R637, R639). -/
def onMessage (s : State) (via : Nat) (m : List Byte) (type : Nat) (f : State → State) : State :=
  if ammType m ≠ type then s
  else if !fwUp s then (takeInbox s via m).bump BDG_AMM_ERR.LOST 1
  else f (takeInbox s via m)

/-- The bytes of a header that a session authenticates (R637). -/
def ammAad (m : List Byte) : List Byte := m.take 3 ++ (m.drop 6).take 12

/-- CMD_RSP (R637): its plaintext is OP, status, zero and the result. -/
def cmdRsp (s : State) (via : Nat) (m : List Byte) (v : Session) (c op st : Nat) (result : List Byte) : State :=
  let text := natLE 2 op ++ natLE 1 st ++ [0] ++ result
  let head := ammMake 0x15 1 0 0 (ammId m) s.node (ammSrc m) [] (List.replicate (28 + text.length) 0)
  ammReply s via m 0x15 (sealRsp v c (ammAad head) text)

/-- A command has been executed: its trace point and its answer (R633, R639). -/
def cmdDone (s : State) (via : Nat) (m : List Byte) (v : Session) (c op st : Nat) (result : List Byte) : State :=
  cmdRsp (logEvent s 0x3002 1 [op, st, v.number]) via m v c op st result

/-- What an operation answers: its status and result, or nothing yet. -/
structure OpEnd where
  s : State
  st : Nat := stOK
  result : List Byte := []
  /-- The answer waits for the unit. -/
  later : Bool := false

/-- The text that extends CFG_MEAS for the actions of R522, which are the operations marked in R638 (R519). -/
def cfgText (op : Nat) (text : List Byte) : Option (List Byte) :=
  if op = 0x0B then some (ascii "DEBUG-UNLOCK") else if 2 ≤ op && op ≤ 0x0F then some text else none

/-- A CMD message whose OP is `op` (R521, R637 to R639): `f` performs it with its arguments. A refused message is counted in
AUTH; another OP leaves the message to its own command, and one that R638 does not list is answered INTERNAL. While a
command waits for its unit, the next one waits. -/
def sessionCmd (s : State) (via : Nat) (m : List Byte) (op : Nat) (f : State → Session → List Byte → OpEnd) : State :=
  onMessage s via m 0x14 fun s1 =>
    if s1.bdg.rspWait.isSome then s else
    match openCmd s1 (ammAad m) (ammBody m) with
    | none => s1.bump BDG_AMM_ERR.AUTH 1
    | some (v, c, text) =>
      let named := leAt text 0 2
      let s2 := noteCmd s1 v.number c
      if named = 0 || 0x16 < named then cmdDone s2 via m v c named stINTERNAL []
      else if named ≠ op then s
      else
        let s3 := match cfgText op text with | some t => extendCfg s2 t | none => s2
        let e := f s3 v (text.drop 4)
        if e.later then { e.s with bdg := { e.s.bdg with rspWait := some ⟨via, m, v.number, c, op, false⟩ } }
        else cmdDone e.s via m v c op e.st e.result

/-- The answer that a command of R301 or R390 has been waiting for. -/
def mgmtDone (s : State) : State :=
  match s.bdg.rspWait with
  | none => s
  | some r =>
    let group := r.op = 0x08
    let busy := if group then s.on YAR_GCMD.BUSY else s.on TGT_WCMD.BUSY
    if busy && !r.aborted then s else
    let st := if r.aborted then stABORTED else if group then s.rd YAR_GCMD.STATUS else s.rd TGT_WCMD.STATUS
    let s1 := { s with bdg := { s.bdg with rspWait := none } }
    match findSession s1 r.session with
    | some v => cmdDone s1 r.via r.cmd v r.counter r.op st []
    | none => s1

end Sys2Proof.Machine
end

