-- ==== Sys2Proof/Machine/Mgmt.lean ====
section
/-! DEFINITION. What firmware does with management messages: challenges, sessions, attestation (R520, R521), and the
operations of session commands (R522 to R524, R638, R640, R641). -/
namespace Sys2Proof.Machine

-- Messages without a session

/-- CHALLENGE_REQ (R521, R637): nothing without an Alias key or a random source. -/
def challengeReq (s : State) (via : Nat) (m : List Byte) : State :=
  onMessage s via m 0x10 fun s1 =>
    if s1.sea.aliasKey = 0 || !s1.on SEA_STATUS.RNG_OK then ammError s1 via m stINTERNAL
    else (let (b, s2) := makeChallenge s1; ammReply s2 via m 0x11 b)

/-- SESSION_OPEN (R521, R637): SESSION_ACK carries the session number, or RIGHTS; INTERNAL where the random source has
failed. -/
def sessionOpen (s : State) (via : Nat) (m : List Byte) : State :=
  onMessage s via m 0x12 fun s1 =>
    let b := ammBody m
    let (s2, n) := openSession s1 (b.take 96) ((b.drop 96).take 32) ((b.drop 128).take 96) ((b.drop 224).take 96)
    let st := match n with | some _ => stOK | none => if s1.on SEA_STATUS.RNG_OK then stRIGHTS else stINTERNAL
    ammReply s2 via m 0x13 (natLE 4 (n.getD 0) ++ natLE 1 st)

/-- ATTEST_REQ (R520, R637). -/
def attestReq (s : State) (via : Nat) (m : List Byte) : State :=
  onMessage s via m 0x19 fun s1 =>
    if s1.sea.aliasKey = 0 then ammError s1 via m stBUSY
    else (let (r, s2) := makeReport s1 ((ammBody m).take 48); ammReply s2 via m 0x1A r)

/-- Ports of GROVE_PORTS. -/
def grovePorts (s : State) : List Nat := (List.range 12).filter fun p => bitOf (s.rd BDG_GROVE2.GROVE_PORTS) p

/-- DIRECTIVE (R521, R644, R645): forwarded on the grove's ports before it is verified, once for each sequence; then
accepted where the signature and the limits are right. -/
def directive (s : State) (via : Nat) (m : List Byte) : State :=
  onMessage s via m 0x18 fun s1 =>
    let b := ammBody m
    let q := leAt b 12 8
    let member := s1.on BDG_GROVE.STEWARD || s1.on BDG_GROVE.MEMBER
    let flood := member && (via = 15 || bitOf (ammFlags m) 1) && !s1.bdg.flooded.contains q
    let out := m.take 2 ++ natLE 1 2 ++ m.drop 3
    let s2 := if !flood then s1 else
      ((grovePorts s1).filter (· ≠ via)).foldl (fun t p => match ammOut t p out with
        | (u, some _) => u.bump BDG_AMM_ERR.DROP 1
        | (u, none) => u) { s1 with bdg := { s1.bdg with flooded := (q :: s1.bdg.flooded).take 8 } }
    acceptDirective s2 b

-- Operations (R638)

/-- An operation that touches the fabric regions is answered BUSY while they do not answer (R21). -/
def inFabric (s : State) (f : State → OpEnd) : OpEnd := if s.fabricOpen then f (drowseExit s) else { s := s, st := stBUSY }

/-- CONFIG (R200, R204, R638). -/
def opConfig (s : State) (a : List Byte) : OpEnd :=
  if a.length < 11 then { s := s, st := stINTERNAL } else
  let s1 := (s.wr NODE_ID.NODE (leAt a 0 4)).wr NODE_ID.CONFIGURED (leAt a 10 1)
  { s := capRefreshAll ((s1.wr CFG_HASH_LO.HASH_LO (leAt a 4 4)).wr CFG_HASH_HI.HASH_HI (leAt a 8 2)) }

/-- PKEY_WRITE (R236, R238, R523): 4 bytes an entry, in the layout of RTR_PKEY. -/
def opPkey (s : State) (a : List Byte) : OpEnd :=
  let first := leAt a 0 1
  let n := leAt a 1 2
  if 256 < first + n || a.length < 3 + 4 * n then { s := s, st := stINTERNAL } else
  inFabric s fun s => { s := capRefreshAll ((List.range n).foldl (fun t i =>
    regWrite t (RTR_PKEY.KEY (first + i)).addr (leAt a (3 + 4 * i) 4)) s) }

/-- ROUTE_WRITE (R228, R241, R583, R638): the repair of uncorrectable words is not refused. -/
def opRoute (s : State) (a : List Byte) : OpEnd :=
  let ver := leAt a 0 1
  let off := leAt a 1 4
  let n := (a.length - 5) / 4
  if 1 < ver || a.length < 5 || 960 < n || 16384 < off + n then { s := s, st := stINTERNAL } else
  inFabric s fun s =>
    if tableLocked s ver && !(List.range n).all (fun i => wordSpoiled s ver (off + i)) then
      { s := s.bump RTR_ERR.TBLWR n, st := stBUSY }
    else { s := (List.range n).foldl (fun t i => writeTableWord t ver (off + i) (leAt a (5 + 4 * i) 4)) s }

/-- ROUTE_CTRL (R240, R241, R244, R245, R638): RTR_VER_CFG of the version that is not current (4), FLIP_TIME (8), ARM (1),
HOLD (1). -/
def opRouteCtrl (s : State) (a : List Byte) : OpEnd :=
  if a.length < 14 then { s := s, st := stINTERNAL } else
  inFabric s fun s =>
    let ver := 1 - s.epochBit
    let s1 := writeRouter s (RTR_VER_CFG.RANK ver).addr (leAt a 0 4)
    let s2 := (s1.wr RTR_FLIP_TIME_LO.TIME_LO (leAt a 4 4)).wr RTR_FLIP_TIME_HI.TIME_HI (leAt a 8 4)
    let s3 := setHold s2 (leAt a 13 1 % 2 = 1)
    { s := if leAt a 12 1 % 2 = 1 then flipArm s3 else s3 }

/-- EPOCH_SET (R242, R243, R638). -/
def opEpoch (s : State) (a : List Byte) : OpEnd :=
  let e := leAt a 0 2
  inFabric s fun s =>
    if !s.on RTR_EPOCH.OLD_FREE || s.on RTR_EPOCH.ARMED then { s := s, st := stBUSY }
    else if e % 2 = s.epochBit then { s := capRefreshAll (s.wr RTR_EPOCH.EPOCH e) }
    else if !s.on (RTR_VER_CFG.VALID (e % 2)) then { s := s, st := stINTERNAL }
    else
      let s1 := ((s.wr RTR_EPOCH.EPOCH e).wr RTR_EPOCH.DRAINING 1).wr RTR_EPOCH.OLD_FREE 0
      { s := capRefreshAll (drainDeadline { s1 with rtr := { s1.rtr with drained := false, deadline := some s1.now } }) }

/-- POLICY (R522, R523): the lock, and with it TGT_CFG.MGMT_ONLY and SYN_CFG.MGMT_LOCK. -/
def opPolicy (s : State) (a : List Byte) : OpEnd :=
  let b := leAt a 0 1 % 2
  inFabric s fun s => { s := ((s.wr SEA_POLICY.LOCK b).wr TGT_CFG.MGMT_ONLY b).wr SYN_CFG.MGMT_LOCK b }

/-- WINDOW_CREATE (R299 to R301): the six argument words as TGT_WARG0 to TGT_WARG5 take them. A KIND 1 command is answered
when it has completed. -/
def opWindow (s : State) (a : List Byte) : OpEnd :=
  if a.length < 24 then { s := s, st := stINTERNAL } else
  inFabric s fun s =>
    if s.on TGT_WCMD.BUSY then { s := s, st := stBUSY } else
    let t := (List.range 6).foldl (fun t i => t.setReg (TGT_WARG0.WINDOW.addr + 4 * i) (BitVec.ofNat 32 (leAt a (4 * i) 4))) s
    let s1 := createWindow s (argWindow t) (argWin t)
    if s1.on TGT_WCMD.BUSY then { s := s1, later := true } else { s := s1, st := s1.rd TGT_WCMD.STATUS }

/-- GROUP_CREATE (R390): the image comes with the command; it is answered when it has completed. -/
def opGroup (s : State) (a : List Byte) : OpEnd :=
  let g := leAt a 0 2
  if a.length < 130 || 4095 < g then { s := s, st := stINTERNAL } else
  inFabric s fun s =>
    if s.on YAR_GCMD.BUSY then { s := s, st := stBUSY }
    else if !s.initDone then { s := s, st := stBUSY }
    else if (s.group g).state ≠ 0 then { s := s, st := stINTERNAL }
    else
      let v : Group := { image := (a.drop 2).take 128 }
      let st := imageStatus s true v
      if st ≠ stOK then { s := s, st := st }
      else { s := readOwnEntry ((s.wr YAR_GCMD.GROUP g).wr YAR_GCMD.BUSY 1) { g := g, priv := true } v, later := true }

/-- SEAL (R215, R522): SEAL_REQ of the ports in the mask. -/
def opSeal (s : State) (a : List Byte) : OpEnd :=
  inFabric s fun s =>
    let l := (List.range 12).filter fun p => s.portPresent p && bitOf (leAt a 0 2) p
    { s := l.foldl (fun t p => t.wr (LNK_CTRL.SEAL_REQ p) (b2n (bitOf (leAt a 2 2) p))) s }

/-- CRED_INSTALL (R524). -/
def opCred (s : State) (a : List Byte) : OpEnd :=
  if a.length < 452 then { s := s, st := stINTERNAL } else { s := { s with sea := { s.sea with cred := a.take 452 } } }

/-- DEBUG_UNLOCK (R76, R516, R522). -/
def opDebug (s : State) : OpEnd :=
  { s := deriveIds (s.wr SEA_STATUS.DBG_UNLOCKED 1) }

/-- MIN_SVN (R514, R522): raised, but never above the running FW_SVN. -/
def opMinSvn (s : State) (a : List Byte) : OpEnd :=
  let n := leAt a 0 1
  if s.sea.fwSvn < n || 64 < n then { s := s, st := stINTERNAL }
  else { s := { s with sea := { s.sea with fuses := { s.sea.fuses with minSvn := max s.sea.fuses.minSvn n } } } }

/-- ANCHOR_REVOKE (R514, R522). -/
def opRevoke (s : State) (v : Session) (a : List Byte) : OpEnd :=
  let slot := leAt a 0 1
  let f := s.sea.fuses
  if slot = v.slot then { s := s, st := stRIGHTS }
  else if slot = 0 then { s := { s with sea := { s.sea with fuses := { f with revoked0 := true } } } }
  else if slot = 1 then { s := { s with sea := { s.sea with fuses := { f with revoked1 := true } } } }
  else { s := s, st := stINTERNAL }

/-- Copies 0 and 1 are images, 2 and 3 board configurations: the other copy of a pair. -/
def otherCopy (c : Nat) : Nat := if c % 2 = 0 then c + 1 else c - 1

/-- FW_WRITE (R522, R655): part of an image copy; BUSY while the other copy has been rewritten and not verified. -/
def opFwWrite (s : State) (a : List Byte) : OpEnd :=
  let c := leAt a 0 1
  let off := leAt a 1 4
  let data := a.drop 5
  if 1 < c || a.length < 5 || 3968 < data.length || 524288 < off + data.length then { s := s, st := stINTERNAL }
  else if s.burrow.dirty.contains (otherCopy c) then { s := s, st := stBUSY }
  else
    let s1 := flashWrite s (524288 * c + off) data
    { s := { s1 with burrow := { s1.burrow with
        dirty := c :: s1.burrow.dirty.erase c, checking := s1.burrow.checking ++ [Sum.inr c] } } }

/-- FW_CHECK (R518, R638): a copy that passes is verified. -/
def opFwCheck (s : State) (a : List Byte) : OpEnd :=
  let c := leAt a 0 1
  if 1 < c || !imageOk s (imageCopy s c) then { s := s, st := stINTERNAL }
  else { s := { s with burrow := { s.burrow with dirty := s.burrow.dirty.erase c } } }

/-- REG_READ (R129, R638): value (4), status (1), zero (3) for each address. -/
def opRegRead (s : State) (a : List Byte) : OpEnd :=
  let n := leAt a 0 2
  if 256 < n || a.length < 2 + 4 * n then { s := s, st := stINTERNAL } else
  let (t, out) := (List.range n).foldl (fun (x : State × List Byte) i =>
    let (u, w, st) := readWord x.1 .amm (leAt a (2 + 4 * i) 4 / 4 * 4)
    (u, x.2 ++ natLE 4 w.toNat ++ natLE 4 st)) (s, [])
  { s := t, result := out }

/-- REG_WRITE (R129, R638): the status is the first that is not OK. -/
def opRegWrite (s : State) (a : List Byte) : OpEnd :=
  let n := leAt a 0 2
  if 256 < n || a.length < 2 + 8 * n then { s := s, st := stINTERNAL } else
  let (t, st) := (List.range n).foldl (fun (x : State × Nat) i =>
    let (u, st) := writeAperture x.1 .amm (leAt a (2 + 8 * i) 4 / 4 * 4) (leAt a (6 + 8 * i) 4)
    (u, if x.2 = stOK then st else x.2)) (s, stOK)
  { s := t, st := st }

/-- Fabric time takes a value, in its units, and is valid: the heat periods count from it, resets that waited are judged,
and CAPs follow (R204, R314, R617, R648). -/
def timeSet (s : State) (units : Nat) : State :=
  capRefreshAll (judgeLate (heatAlign (({ s with
    time := { s.time with units := units }, bdg := { s.bdg with slew := 0 } } : State).wr BDG_TIME_STAT.VALID 1)))

/-- TIME_CFG (R647, R648): the time is used only with ROOT. -/
def opTimeCfg (s : State) (a : List Byte) : OpEnd :=
  if a.length < 12 then { s := s, st := stINTERNAL } else
  let s1 := regWrite s BDG_TIME_CFG.ROOT.addr (leAt a 0 4)
  { s := if s1.on BDG_TIME_CFG.ROOT && s1.time.ref then timeSet s1 (ns (leAt a 4 8)) else s1 }

/-- STEWARD (R640): appointed with an empty table, or released. -/
def opSteward (s : State) (a : List Byte) : OpEnd :=
  let appoint := leAt a 8 1 % 2
  if a.length < 9 || 512 < leAt a 2 2 then { s := s, st := stINTERNAL } else
  let s1 := { s.wr BDG_GROVE.STEWARD appoint with bdg := { s.bdg with grove := [] } }
  let s2 := if appoint = 0 then s1 else
    { s1.wr BDG_GROVE.GROVE_ID (leAt a 0 2) with bdg := { s1.bdg with healthPeriod := leAt a 4 2, congPeriod := leAt a 6 2 } }
  { s := logEvent s2 0x4001 1 [leAt a 0 2, leAt a 2 2] }

/-- GROVE_ADD (R640): members from an index on, 24 bytes each. -/
def opGrove (s : State) (a : List Byte) : OpEnd :=
  let first := leAt a 0 2
  let n := (a.length - 2) / 24
  if !s.on BDG_GROVE.STEWARD || 128 < n || 512 < first + n then { s := s, st := stINTERNAL } else
  { s := { s with bdg := { s.bdg with grove := (List.range n).foldl (fun t i =>
      let e := (a.drop (2 + 24 * i)).take 24
      t.put (first + i) { node := leAt e 0 4 % 2 ^ 20, route := (e.drop 4).take 16, n := leAt e 20 1, last := s.nowNs }) s.bdg.grove } } }

/-- MEMBER (R641). -/
def opMember (s : State) (a : List Byte) : OpEnd :=
  if a.length < 25 || 32 < leAt a 22 1 then { s := s, st := stINTERNAL } else
  let s1 := ((s.wr BDG_GROVE.MEMBER 1).wr BDG_GROVE.STEWARD_LOST 0).wr BDG_GROVE.GROVE_ID (leAt a 0 2)
  let s2 := (s1.wr BDG_GROVE2.STEWARD_NODE (leAt a 2 4)).wr BDG_GROVE2.GROVE_PORTS (leAt a 23 2)
  { s := { s2 with bdg := { s2.bdg with
      route := (a.drop 6).take 16, routeN := leAt a 22 1, unacked := 0, lastHealth := s.now, lastCong := s.now } } }

end Sys2Proof.Machine
end

