-- ==== Sys2Proof/Machine/Grove.lean ====
section
/-! DEFINITION. Groves (R641 to R644), the discipline of fabric time (R647, R648), and the refresh of flash copies (R660). -/
namespace Sys2Proof.Machine

-- Health (R641 to R643)

/-- A mask of ports. -/
def portMask (s : State) (f : Nat → Bool) : Nat := (((List.range 12).filter fun p => s.portPresent p && f p).map (2 ^ ·)).sum

/-- The HEALTH body (R642). -/
def healthBody (s : State) (q : Nat) : List Byte :=
  natLE 4 (s.rd HHG_PEND.PEND % 32 + 2 ^ 8 * s.rd HHG_STATUS.STATE + 2 ^ 16 * fenceSources s +
      2 ^ 24 * s.rd BDG_STATUS.OUT_OF_SERVICE + 2 ^ 25 * b2n s.timeValid) ++
    natLE 2 (portMask s fun p => s.linkState p = 3) ++ natLE 2 (portMask s fun p => s.linkState p = 2) ++
    natLE 4 (s.rd CFG_HASH_LO.HASH_LO) ++ natLE 2 (s.rd CFG_HASH_HI.HASH_HI) ++ natLE 2 (s.rd RTR_EPOCH.EPOCH) ++
    natLE 1 (16 * s.rd CSP_STATUS.DIR_LEVEL + s.rd CSP_STATUS.LEVEL) ++ [0] ++ natLE 2 (s.rd BDG_TIME_STAT.OFFSET) ++
    natLE 4 q ++ natLE 8 s.stampNs

/-- What calls for a HEALTH out of turn when it changes (R641). -/
def healthEvents (s : State) : List Nat :=
  [s.rd HHG_CNT_B.F3, fenceSources s, s.rd BDG_STATUS.TIER, s.rd BDG_STATUS.OUT_OF_SERVICE, b2n s.timeValid,
    s.rd CSP_STATUS.LEVEL]

/-- The first entries of a route (R635). -/
def routeList (b : List Byte) (n : Nat) : List Nat := (List.range n).map fun j => leAt b (j / 2) 1 / 16 ^ (j % 2) % 16

/-- A message of this block's own, with a MSG_ID of its own (R635). -/
def ammOwn (s : State) (type dst : Nat) (body : List Byte) : State :=
  ammSend { s with bdg := { s.bdg with msgId := (s.bdg.msgId + 1) % 65536 } } type 0 s.bdg.msgId dst
    (routeList s.bdg.route s.bdg.routeN) body

/-- The steward no longer answers (R641). -/
def stewardLost (s : State) : State :=
  if s.on BDG_GROVE.STEWARD_LOST then s else
  let node := s.rd BDG_GROVE2.STEWARD_NODE
  logEvent (report (s.wr BDG_GROVE.STEWARD_LOST 1) 0x18 2 0x08 node) 0x4002 2 [node]

/-- A member of a grove may send: firmware runs, and no safe state idles the ports (R578, R641). -/
def memberSends (s : State) : Bool := s.on BDG_GROVE.MEMBER && fwUp s && !s.safe

/-- HEALTH_PERIOD (R641): the period has passed, or an event of R641 has occurred since the last HEALTH. -/
def healthPeriod (s : State) : State :=
  let due := s.bdg.lastHealth + ns (1000000 * s.bdg.healthPeriod) ≤ s.now
  if !memberSends s || !(due || s.bdg.told ≠ healthEvents s) then s else
  let q := (s.bdg.healthSeq + 1) % 2 ^ 32
  let s1 := ammOwn s 0x20 (s.rd BDG_GROVE2.STEWARD_NODE) (healthBody s q)
  let n := s.bdg.unacked + 1
  let s2 := { s1 with bdg := { s1.bdg with healthSeq := q, unacked := n, lastHealth := s.now, told := healthEvents s } }
  if 3 ≤ n then stewardLost s2 else s2

/-- HEALTH_ACK (R641): of the messages sent, those after the acknowledged one are unacknowledged; STEWARD_LOST clears. -/
def healthAck (s : State) (via : Nat) (m : List Byte) : State :=
  onMessage s via m 0x21 fun s1 =>
    let later := (s1.bdg.healthSeq + 2 ^ 32 - leAt (ammBody m) 0 4) % 2 ^ 32
    if s1.bdg.unacked ≤ later then s1
    else { s1.wr BDG_GROVE.STEWARD_LOST 0 with bdg := { s1.bdg with unacked := later } }

/-- The member table with the entries of a node changed. -/
def groveMap (s : State) (node : Nat) (f : GroveEntry → GroveEntry) : State :=
  { s with bdg := { s.bdg with grove := s.bdg.grove.map fun e => if e.2.node = node then (e.1, f e.2) else e } }

/-- HEALTH at a steward (R643). -/
def healthArrives (s : State) (via : Nat) (m : List Byte) : State :=
  onMessage s via m 0x20 fun s1 =>
    if !s1.on BDG_GROVE.STEWARD then s1 else
    let b := (ammBody m).take 32
    ammReply (groveMap s1 (ammSrc m) fun e => { e with health := b, last := s1.nowNs, silent := false }) via m 0x21
      (natLE 4 (leAt b 20 4))

/-- The port map of a node (R247). -/
def portMap (s : State) : List Byte :=
  (List.range 12).flatMap fun p => natLE 1 (s.rd (RTR_CONG.LEVEL p) + 16 * s.rd (RTR_CONG.UTIL p))

/-- CONG_PERIOD (R641). -/
def congPeriod (s : State) : State :=
  if !memberSends s || s.now < s.bdg.lastCong + ns (1000000 * s.bdg.congPeriod) then s else
  let s1 := ammOwn s 0x22 (s.rd BDG_GROVE2.STEWARD_NODE) (natLE 8 s.stampNs ++ portMap s)
  { s1 with bdg := { s1.bdg with lastCong := s.now } }

/-- CONG_MAP at a steward (R643). -/
def congMap (s : State) (via : Nat) (m : List Byte) : State :=
  onMessage s via m 0x22 fun s1 =>
    if s1.on BDG_GROVE.STEWARD then groveMap s1 (ammSrc m) fun e => { e with map := ((ammBody m).drop 8).take 12 } else s1

/-- MEMBER_SILENT (R643): no HEALTH of member `i` for 3 periods. -/
def memberSilent (s : State) (i : Nat) : State :=
  match s.bdg.grove.find? i with
  | some e =>
    if !s.on BDG_GROVE.STEWARD || !fwUp s || e.silent || s.nowNs < e.last + 3000000 * s.bdg.healthPeriod then s
    else logEvent { s with bdg := { s.bdg with grove := s.bdg.grove.put i { e with silent := true } } } 0x4002 2 [e.node]
  | none => s

-- Fabric time (R647)

/-- OFFSET, saturating, in 1/16 ns (R664). -/
def putOffset (s : State) (ofs : Int) : State := s.wr BDG_TIME_STAT.OFFSET ((max (-32768) (min 32767 ofs)) % 65536).toNat

/-- A step of fabric time by `ofs` sixteenths of a nanosecond. -/
def timeStep (s : State) (ofs : Int) (port : Nat) : State :=
  let s1 := (timeSet s ((s.time.units : Int) + ofs * 10000000).toNat).bump BDG_TIME_STAT.STEPS 1
  logEvent s1 0x5001 2 [(ofs / 16 % 2 ^ 32).toNat, port]

/-- TIME_VALID of the parent's CAP (R200). -/
def parentValid (s : State) (p : Nat) : Bool := match (s.link p).farCap with | some c => bitOf (leAt c 3 1) 1 | none => false

/-- TIME_SYNC (R647): a period has passed; `ofs` is the measured offset to the parent in 1/16 ns. -/
def timeSync (s : State) (ofs : Int) : State :=
  let p := s.rd BDG_TIME_CFG.PARENT_PORT
  if s.on BDG_TIME_CFG.ROOT || 12 ≤ p || !fwUp s || s.now < s.bdg.lastSync + ns (1000000 * s.rd BDG_TIME_CFG.SYNC_PERIOD) then s
  else
    let s1 := { s with bdg := { s.bdg with lastSync := s.now } }
    if s.linkState p ≠ 3 && s.linkState p ≠ 2 then
      let n := s.bdg.missed + 1
      let s2 := { s1 with bdg := { s1.bdg with missed := n } }
      if 3 ≤ n && !s.on BDG_TIME_STAT.PARENT_LOST then report (s2.wr BDG_TIME_STAT.PARENT_LOST 1) 0x18 1 0x07 p else s2
    else
      let s2 := putOffset ({ s1.wr BDG_TIME_STAT.PARENT_LOST 0 with bdg := { s1.bdg with missed := 0 } }) ofs
      if !s.timeValid then (if parentValid s p then timeStep s2 ofs p else s2)
      else if ofs.natAbs ≤ 1600 * s.rd (LNK_TMR1.TIME_TOL p) then { s2 with bdg := { s2.bdg with slew := ofs * 10000000 } }
      else report (timeStep s2 ofs p) 0x18 2 0x06 p

-- Refresh (R655, R660)

/-- First byte and size of a copy: images 0 and 1, board configurations 2 and 3 (R655). -/
def copyRange (c : Nat) : Nat × Nat := if c < 2 then (524288 * c, 524288) else (0x100000 + 65536 * (c - 2), 65536)

/-- A copy is as it should be: R518 for an image, the CRC for a configuration. -/
def copyGood (s : State) (c : Nat) : Bool := if c < 2 then imageOk s (imageCopy s c) else (cfgCopy s (c - 2)).isSome

/-- A copy is rewritten from the other copy of its pair. -/
def copyOver (s : State) (c : Nat) : State :=
  let (dst, n) := copyRange c
  let (src, _) := copyRange (otherCopy c)
  flashWrite s dst (flashBytes s src n)

/-- BURROW_REFRESH (R660): copy 0 to 3, or 4 for the Burrow area. Deferred while fabric time is invalid. -/
def burrowRefresh (s : State) (c : Nat) : State :=
  let day := 86400000000000
  if !s.timeValid || !fwUp s then s
  else if c = 4 then
    (if s.on BDG_BURROW.OPEN && s.burrow.opened + 30 * day ≤ s.nowNs then openSector s else s)
  else if s.nowNs < s.burrow.refreshed.getD c 0 + 730 * day || s.burrow.dirty.contains (otherCopy c) ||
      !copyGood s (otherCopy c) then s
  else
    let s1 := copyOver s c
    let bad := !copyGood s1 c
    let s2 := { s1 with burrow := { s1.burrow with
      refreshed := s1.burrow.refreshed.set c s.nowNs, checking := s1.burrow.checking ++ [Sum.inr c]
      dirty := if bad then c :: s1.burrow.dirty.erase c else s1.burrow.dirty.erase c
      failed := s1.burrow.failed.erase c } }
    logEvent (burrowPut s2 recREFRESH (natLE 1 (c / 2) ++ natLE 1 (c % 2))) 0x6002 1 [c / 2, c % 2]

end Sys2Proof.Machine
end

