-- ==== Sys2Proof/Machine/Sideband.lean ====
section
/-! DEFINITION. The sideband target (R69, R651 to R654) and the Register Port's own events (R129, R130). -/
namespace Sys2Proof.Machine

/-- Counts a frame that is ignored (R654). -/
def badOp (s : State) : State := s.bump SB_ERR.BADOP 1

/-- The sideband works once the always-on slice has started (R50). -/
def sbFrame (s : State) (f : State → State) : State := if s.pins.porst then s else f s

/-- Words beyond a frame's last permitted one are ignored, and count once (R654). -/
def sbExtra (s : State) (n most : Nat) : State := if most < n then s.bump SB_ERR.EXCESS 1 else s

/-- WRITE (R652): word i is written at the address + 4i. -/
def sbWrite (s : State) (a : Nat) (ws : List Word) : State :=
  sbFrame s fun s =>
    if a % 4 ≠ 0 then badOp s else
    let l := ws.take 64
    sbExtra (((List.range l.length).zip l).foldl (fun t x => (writeAperture t .sideband (a + 4 * x.1) x.2.toNat).1) s) ws.length 64

/-- READ (R652, R653): COUNT words into the read buffer; the first word that fails gives its status. -/
def sbRead (s : State) (a count : Nat) : State :=
  sbFrame s fun s =>
    if a % 4 ≠ 0 || count = 0 || 64 < count then badOp s else
    let (t, ws, st) := (List.range count).foldl (fun (x : State × List Word × Nat) i =>
      let (u, w, st) := readWord x.1 .sideband (a + 4 * i)
      (u, x.2.1 ++ [w], if x.2.2 = stOK then st else x.2.2)) (s, [], stOK)
    { t with acc := { t.acc with rdBuf := ws, rdFail := st % 16 } }

/-- The words driven on SB_MISO. -/
def sbDrive (s : State) (ws : List Word) : State := { s with acc := { s.acc with miso := ws } }

/-- The STATUS word (R653). -/
def sbStatusWord (s : State) : Word :=
  let out := (s.acc.ammOut.head?.map (·.length)).getD 0
  BitVec.ofNat 32 (out % 8192 + 2 ^ 14 * s.bdg.load + 2 ^ 18 * b2n (!s.acc.ammOut.isEmpty) + 2 ^ 20 * s.acc.rdFail +
    2 ^ 24 * s.acc.rdBuf.length)

/-- STATUS (R653). -/
def sbStatus (s : State) : State := sbFrame s fun s => sbDrive s [sbStatusWord s]

/-- READ_DATA (R652): `n` buffer words from `first` on; a word that is not there reads zero. -/
def sbReadData (s : State) (first n : Nat) : State :=
  sbFrame s fun s =>
    let m := min n (64 - first)
    sbExtra (sbDrive s ((List.range m).map fun i => s.acc.rdBuf.getD (first + i) 0)) n m

/-- The bytes of words as they lie in a buffer: byte 0 in bits [7:0]. -/
def wordsBytes (ws : List Word) : List Byte := ws.flatMap fun w => natLE 4 w.toNat

/-- Bytes put into a buffer. -/
def putBytes (t : Tbl Byte) (o : Nat) (b : List Byte) : Tbl Byte :=
  ((List.range b.length).zip b).foldl (fun f x => f.set 0 (o + x.1) x.2) t

/-- AMM_PUT (R652): the inbound buffer of 4,096 bytes. -/
def sbAmmPut (s : State) (o : Nat) (ws : List Word) : State :=
  sbFrame s fun s =>
    if o % 4 ≠ 0 then badOp s else
    let most := (4096 - o) / 4
    sbExtra { s with acc := { s.acc with ammIn := putBytes s.acc.ammIn o (wordsBytes (ws.take most)) } } ws.length most

/-- AMM_SEND (R652): Badger takes the inbound message. -/
def sbAmmSend (s : State) (len : Nat) : State :=
  sbFrame s fun s =>
    if len < 48 || 4096 < len then badOp s
    else ammTake s 15 ((List.range len).map fun i => s.acc.ammIn.get 0 i)

/-- AMM_GET (R652): `n` words of the outbound message from byte `o` on. -/
def sbAmmGet (s : State) (o n : Nat) : State :=
  sbFrame s fun s =>
    if o % 4 ≠ 0 then badOp s else
    let m := min n ((4096 - o) / 4)
    let b := s.acc.ammOut.headD []
    sbExtra (sbDrive s ((List.range m).map fun i => BitVec.ofNat 32 (leAt b (o + 4 * i) 4))) n m

/-- AMM_DONE (R652): the outbound message is released, and the next one takes its place. -/
def sbAmmDone (s : State) : State := sbFrame s fun s => { s with acc := { s.acc with ammOut := s.acc.ammOut.drop 1 } }

/-- A recovery image may be loaded: no firmware runs (R652). -/
def mayLoad (s : State) : Bool := s.bdg.running.isEmpty && s.bdg.load ≠ 0

/-- LOAD_PUT (R598, R652). -/
def sbLoadPut (s : State) (o : Nat) (ws : List Word) : State :=
  sbFrame s fun s =>
    if !mayLoad s || o % 4 ≠ 0 || 459008 ≤ o then badOp s else
    let most := (459008 - o) / 4
    sbExtra { s with bdg := { s.bdg with image := putBytes s.bdg.image o (wordsBytes (ws.take most)) } } ws.length most

/-- The image that LOAD_PUT has written. -/
def loadedImage (s : State) : List Byte :=
  let h := (List.range 256).map fun i => s.bdg.image.get 0 i
  h ++ ((List.range (if imageShape h then leAt h 12 4 else 0)).map fun i => s.bdg.image.get 0 (256 + i))

/-- LOAD_START (R518, R598): an image that passes starts firmware, and bring-up goes on at step 4; a restart of R610 ends. -/
def sbLoadStart (s : State) : State :=
  sbFrame s fun s =>
    if !mayLoad s then badOp s
    else if !imageOk s (loadedImage s) then { s with bdg := { s.bdg with load := 3 } }
    else if s.on BDG_STATUS.FW_RESTART then runImage (s.wr BDG_STATUS.FW_RESTART 0) (loadedImage s)
    else bringUp s (loadedImage s) false

/-- SB_BAD_FRAME (R654): a short header, a partial word, surplus edges, an unknown opcode or address. -/
def sbBadFrame (s : State) (kind : Nat) : State :=
  sbFrame s fun s => match kind with
    | 0 => s.bump SB_ERR.SHORT 1
    | 1 => s.bump SB_ERR.PARTIAL 1
    | 2 => s.bump SB_ERR.EXCESS 1
    | _ => badOp s

-- MRP (R128 to R130)

/-- A response on MRP (R128). -/
def mrpAnswer (s : State) (w : Word) (st : Nat) : State := { s with acc := { s.acc with pdata := w, pstat := st % 16 } }

/-- The byte address that MRP_QADDR carries: bits [23:2] alone (R8, R128). -/
def mrpAddr (a : Nat) : Nat := a / 4 * 4

/-- A read by MRP or, where `side`, by the sideband's path. -/
def portRead (s : State) (side : Bool) (a : Nat) : State :=
  if s.pins.porst then s else
  if side then sbRead s a 1
  else (let (t, w, st) := readWord s .mrp (mrpAddr a); mrpAnswer t w st)

/-- A write by MRP or, where `side`, by the sideband. -/
def portWrite (s : State) (side : Bool) (a : Nat) (w : Word) : State :=
  if s.pins.porst then s else
  if side then sbWrite s a [w]
  else (let (t, st) := writeAperture s .mrp (mrpAddr a) w.toNat; mrpAnswer t 0 st)


/-- MRP_TIMEOUT (R130): BUSY and F2. Whether a write took effect is open: `took` is the model's free choice of the unit. -/
def mrpTimeout (s : State) (write : Bool) (a : Nat) (w : Word) : State :=
  if s.pins.porst then s else
  let took := write && s.free % 2 = 1
  let s1 := s.useFree
  let s2 := if took then (writeAperture s1 .mrp (mrpAddr a) w.toNat).1 else s1
  report (mrpAnswer s2 0 stBUSY) 0x12 2 0x03 (a / 4)

end Sys2Proof.Machine
end

