-- ==== Sys2Proof/Machine/Tick.lean ====
section
/-! DEFINITION. What passes by itself with the reference clock: fabric time, and the conditions that hardware watches. -/
namespace Sys2Proof.Machine

/-- What is applied of an adjustment in one REFCLK cycle: at most 0.4 ns (R646). -/
def slewPart (s : State) : Int := max (-64000000) (min 64000000 s.bdg.slew)

/-- Fabric time advances by one REFCLK cycle: 6.4 ns with SPREAD_COMP, and the slew (R18, R646). -/
def refclkTime (s : State) : State :=
  let d := slewPart s
  { s with
    time := { s.time with
      units := ((s.time.units : Int) + 1024 * (1000000 + s.rd BDG_TIME_CFG.SPREAD_COMP) + d).toNat, refclks := s.time.refclks + 1 }
    bdg := { s.bdg with slew := s.bdg.slew - d } }

/-- Foxglove's idle time begins again while something needs the island (R487). -/
def foxWatch (s : State) : State := if foxNeeded s then { s with fox := { s.fox with idleSince := s.now } } else s

/-- In Drowse, a condition of R539 that no longer holds ungates the units (R541). -/
def drowseWatch (s : State) : State := if s.power = 1 && (!idleNow s || !s.rtr.deliver.isEmpty) then drowseExit s else s

/-- fc cycles up to REFCLK cycle `r`: 11.52 of them to each (R17, R40). -/
def fcsAt (r : Nat) : Nat := r * 288 / 25

/-- What the next REFCLK cycle counts in fc while fc runs: the stalls of the channels (R98), the flits that ports hold
(R144), the packets that ports block (R247). -/
def fcCounts (s : State) : State :=
  if !s.on CSP_STATUS.FC_RUN then s else
  let n := fcsAt (s.time.refclks + 1) - fcsAt s.time.refclks
  (portsOf s).foldl (fun t p => blockedCount (heldCount t n p) n p) ((List.range s.chanCount).foldl (fun t c => stallCount t n c) s)

/-- One REFCLK cycle passes. -/
def tick (s : State) : State :=
  if s.pins.porst || !s.time.ref then s
  else watchEngines (mgmtDone (tierStep (entryWatch (drowseWatch (foxWatch (wakeWaiting (sampleIdle (refclkTime (fcCounts s)))))))))

end Sys2Proof.Machine
end

