-- ==== Sys2Proof/Machine/FaultCmds.lean ====
section
/-! DEFINITION. The meanings of the commands of Hedgehog, of scrubbing and of the fills after a reset. -/
namespace Sys2Proof.Machine

/-- FAULT_EVENT (R573). The oldest event that a source has reported. -/
def execFaultEvent (s : State) : Out := .next (faultEvent s tier0)

/-- HHG_PEND (R574). -/
def execHhgPend (w : Word) (s : State) : Out := .next (hhgAck s w.toNat)

/-- SELF_CHECK (R577). `f` names what the check finds: nothing, or a failed item. -/
def execSelfCheck (f : Fin 3) (s : State) : Out := .next (selfCheck s f)

/-- QUIET_EXPIRY (R579). -/
def execQuietExpiry (s : State) : Out := .next (quietExpiry s)

/-- SCRUB_WORD (R583). `g` is the memory group, `w` its word, `r` what the read finds: good, corrected, uncorrectable. -/
def execScrubWord (g : Fin 15) (w : Nat) (r : Fin 4) (s : State) : Out := .next (scrubWord s g w r)

/-- INIT_FILL_DONE (R584). -/
def execInitFillDone (s : State) : Out := .next (fillDone s)

/-- INIT_FILL_TMO (R584). `g` is the memory group that has not ended. -/
def execInitFillTmo (g : Fin 15) (s : State) : Out := .next (fillTmo s g)

end Sys2Proof.Machine
end

