-- ==== Sys2Proof/Machine/HostCmds.lean ====
section
/-! DEFINITION. The meanings of the commands of the Operation Port, the Trigger Port and the queue registers. -/
namespace Sys2Proof.Machine

/-- HMP_COMMAND_TRANSFER (R85, R86): the host's ready is high on a channel for a command, or for a data beat. -/
def execHmpCommandTransfer (c : Chan) (data : Bool) (s : State) : Out :=
  .next (if data then hmpTakeBeat s c else hmpTakeCommand s c)

/-- QUARANTINE_TAG_FREE (R94): RESP_TMO after the end of the reset, the tags may be issued again. -/
def execQuarantineTagFree (c : Chan) (s : State) : Out :=
  .next (if (s.chan c).holdUntil ≤ s.now then s.setChan c { s.chan c with held := [], holdUntil := 0 } else s)

/-- OPP_PUSH (R100). -/
def execOppPush (q : QNum) (bytes : List Byte) (s : State) : Out := .next (viaFabric s fun s => oppPush s q bytes)

/-- DESC_FETCH (R117). -/
def execDescFetch (q : QNum) (s : State) : Out := .next (descFetch s q)

/-- OPEN (R107, R114). -/
def execOpenQueue (q : QNum) (s : State) : Out := .next (viaFabric s fun s =>
  if s.on BDG_STATUS.FW_RESTART then s.setQueue q { s.queue q with cmdStatus := stBUSY } else qOpen s q)

/-- CLOSE (R107, R119). -/
def execCloseQueue (q : QNum) (s : State) : Out := .next (viaFabric s fun s =>
  if s.on BDG_STATUS.FW_RESTART then s.setQueue q { s.queue q with cmdStatus := stBUSY } else qClose s q)

/-- QUEUE_CLOSED (R119). -/
def execQueueClosed (q : QNum) (s : State) : Out := .next (queueClosed s q)

/-- Q_DB (R116, R117). -/
def execQDb (q : QNum) (tail : BitVec 16) (s : State) : Out := .next (viaFabric s fun s => qDb s q tail.toNat)

/-- Q_CQDB (R116, R118). -/
def execQCqdb (q : QNum) (head : BitVec 16) (s : State) : Out := .next (viaFabric s fun s => qCqdb s q head.toNat)

/-- TRG_TOKEN (R122 to R125, R378); `late` is the number of fc since TRG_READY fell. -/
def execTrgToken (k : Ctx) (obj : ObjNum) (late : Nat) (s : State) : Out := .next (trgToken (drowseExit s) k obj late)

/-- TRG_CFG_WRITE (R126). -/
def execTrgCfgWrite (w : Word) (s : State) : Out := .next (viaFabric s fun s => trgCfgWrite s w)

end Sys2Proof.Machine
end

