-- ==== Sys2Proof/Machine/LinkCmds.lean ====
section
/-! DEFINITION. The meanings of the commands of the lane complex, Owl, the link layer and link sealing. -/
namespace Sys2Proof.Machine

/-- PORT_ON (R142, R159); `test`: IJTAG_ACCESS starts that test. -/
def execPortOn (p : Port) (errs : List Nat) (test : Option (BitVec 3)) (s : State) : Out :=
  .next (match test with
    | none => viaFabric s fun s => portOn s p errs
    | some t => if s.publicSegments then portTest s p errs t.toNat else s)

/-- PORT_OFF (R142, R197): the lanes stop and the link goes DOWN without a fault. -/
def execPortOff (p : Port) (s : State) : Out :=
  .next (viaFabric s fun s => if s.portPresent p then lanesOff (linkDown s p none false) p else s)

/-- RECAL (R142). -/
def execRecal (p : Port) (s : State) : Out :=
  .next (viaFabric s fun s => portRecal s p)

/-- LANE_PLL_LOCK (R142). -/
def execLanePllLock (p : Port) (s : State) : Out :=
  .next (lanePllLock s p)

/-- LANE_PLL_TMO (R142, R144): the link counts as down from the expiry on. -/
def execLanePllTmo (p : Port) (s : State) : Out :=
  .next (if s.laneState p = 1 ∧ s.due (s.lanePort p).timer then linkDown (lanePllTmo s p) p (some 0x01) false else s)

/-- SIGNAL_DETECT (R142); `mask` names the lanes with a signal for 10 µs. -/
def execSignalDetect (p : Port) (mask : BitVec 8) (s : State) : Out :=
  .next (signalDetect s p mask.toNat)

/-- ADAPT_DONE (R142, R145). -/
def execAdaptDone (p : Port) (offsets : List Int) (live : List Word) (s : State) : Out :=
  .next (afterLane (adaptDone s p offsets live) p)

/-- ALIGN_DONE (R142, R146). -/
def execAlignDone (p : Port) (s : State) : Out :=
  .next (alignDone s p)

/-- ALIGN_TMO (R142, R146). -/
def execAlignTmo (p : Port) (s : State) : Out :=
  .next (afterLane (alignTmo s p) p)

/-- EXCH_DONE (R142, R149, R197). -/
def execExchDone (p : Port) (s : State) : Out :=
  .next (if exchReady s p then
    linkActive (laneActive s p (agreedWidth s p) (agreedWidth s p) ((leads s p).getD true) (electedSeed s p)) p
  else s)

/-- EXCH_TMO (R142, R147, R148). -/
def execExchTmo (p : Port) (s : State) : Out :=
  .next (afterLane (exchTmo s p) p)

/-- TS1 (R139, R140, R146, R147). -/
def execTs1 (p : Port) (frames : List CtlFrame) (s : State) : Out :=
  .next (takeTs1 s p (frames.map fun f => (f.lane, f.ui, f.bytes)))

/-- TS2 (R139, R147 to R149). -/
def execTs2 (p : Port) (frames : List CtlFrame) (s : State) : Out :=
  .next (takeTs2 s p (frames.map fun f => (f.lane, f.ui, f.bytes)))

/-- EI (R139, R141, R142). -/
def execEi (p : Port) (frames : List CtlFrame) (s : State) : Out :=
  .next (takeEi s p (frames.map fun f => (f.lane, f.ui, f.bytes)))

/-- DX (R139, R141, R154). -/
def execDx (p : Port) (frames : List CtlFrame) (s : State) : Out :=
  .next (takeDx s p (frames.map fun f => (f.lane, f.ui, f.bytes)))

/-- SHORT_TRAIN_TMO (R155). -/
def execShortTrainTmo (p : Port) (s : State) : Out :=
  .next (shortTrainTmo s p)

/-- ELASTIC_SLIP (R153, R188): the elastic buffer's fill is now `fill` frames from its centre. -/
def execElasticSlip (k : Lane) (fill : BitVec 5) (s : State) : Out :=
  .next (elasticSlip s k fill)

/-- CDR_LOCK_LOSS (R153, R188). -/
def execCdrLockLoss (k : Lane) (s : State) : Out :=
  .next (if s.laneState (k / 8) = 6 then laneLockLost s k else s)

/-- SYMBOL_LOCK_REGAINED (R188). -/
def execSymbolLockRegained (k : Lane) (s : State) : Out :=
  .next (lockRegained s k)

/-- ADAPT_STEP (R151, R152); `dirs` are the moves of the loop: 0 down, 1 none, 2 up. -/
def execAdaptStep (k : Lane) (dirs : List (Fin 3)) (s : State) : Out :=
  .next (adaptStep s k dirs)

/-- OWL_SCAN_START (R157, R158, R170): OWL_CTRL written with START, or a request of the public segments. -/
def execOwlScanStart (w : Word) (jtag : Bool) (s : State) : Out :=
  .next (if jtag then (if s.publicSegments then owlTest s else s) else viaFabric s fun s => owlStart s w)

/-- OWL_SCAN_DONE (R157, R172). -/
def execOwlScanDone (mismatches : Word) (s : State) : Out :=
  .next (owlDone s mismatches)

/-- OWL_HEALTH_SCAN (R158, R174). -/
def execOwlHealthScan (k : Lane) (width height : BitVec 8) (s : State) : Out :=
  .next (owlHealth s k width.toNat height.toNat)

/-- FLIT_RX (R178, R179, R186). -/
def execFlitRx (p : Port) (levels : List (List Nat)) (s : State) : Out :=
  .next (wakeUp (flitRx s p levels) p)

/-- FRAME_SLOT (R184): while fc runs and no safe state idles the lanes. -/
def execFrameSlot (p : Port) (s : State) : Out :=
  .next (if s.on CSP_STATUS.FC_RUN && !s.safe then wakeUp (frameSlot s p) p else s)

/-- NAK_TMO (R186). -/
def execNakTmo (p : Port) (s : State) : Out :=
  .next (nakTmo s p)

/-- REPLAY_TMO (R187, R188). -/
def execReplayTmo (p : Port) (s : State) : Out :=
  .next (replayTmo s p)

/-- LOCK_TMO (R188, R197). -/
def execLockTmo (p : Port) (s : State) : Out :=
  .next (lockTmo s p)

/-- RETRAIN_BOUND (R188). -/
def execRetrainBound (p : Port) (s : State) : Out :=
  .next (retrainBound s p)

/-- CAP_TMO (R197). -/
def execCapTmo (p : Port) (s : State) : Out :=
  .next (capTmo s p)

/-- REEXCH (R197). -/
def execReexch (p : Port) (s : State) : Out :=
  .next (viaFabric s fun s => reexch s p)

/-- RETRAIN (R188, R215). -/
def execRetrain (p : Port) (s : State) : Out :=
  .next (viaFabric s fun s => retrainCmd s p)

/-- SLEEP_TMO (R205). -/
def execSleepTmo (p : Port) (s : State) : Out :=
  .next (sleepTmo s p)

/-- DRAIN_DONE (R205). -/
def execDrainDone (p : Port) (s : State) : Out :=
  .next (drainDone s p)

/-- LINK_SLEEP_CMD (R205): Doze, or Dormouse where `deep`. -/
def execLinkSleepCmd (p : Port) (deep : Bool) (s : State) : Out :=
  .next (viaFabric s fun s => sleepCmd s p (if deep then 2 else 1))

/-- PROBE (R196, R201). -/
def execProbe (p : Port) (m : List Byte) (s : State) : Out :=
  .next (takeProbe s p m)

/-- ECHO (R196, R201). -/
def execEcho (p : Port) (m : List Byte) (s : State) : Out :=
  .next (takeEcho s p m)

/-- CAP (R200 to R204). -/
def execCap (p : Port) (m : List Byte) (s : State) : Out :=
  .next (takeCap s p m)

/-- VERDICT (R197, R201). -/
def execVerdict (p : Port) (m : List Byte) (s : State) : Out :=
  .next (takeVerdict s p m)

/-- SLEEP_REQ (R205, R209). -/
def execSleepReq (p : Port) (m : List Byte) (s : State) : Out :=
  .next (takeSleepReq s p m)

/-- SLEEP_ACK (R205). -/
def execSleepAck (p : Port) (m : List Byte) (s : State) : Out :=
  .next (takeSleepAck s p m)

/-- WAKE (R206). -/
def execWake (p : Port) (m : List Byte) (s : State) : Out :=
  .next (takeWake s p m)

/-- WIDTH_REQ (R208, R209). -/
def execWidthReq (p : Port) (m : List Byte) (s : State) : Out :=
  .next (takeWidthReq s p m)

/-- WIDTH_ACK (R208). -/
def execWidthAck (p : Port) (m : List Byte) (s : State) : Out :=
  .next (takeWidthAck s p m)

/-- WIDTH_NAK (R208). -/
def execWidthNak (p : Port) (m : List Byte) (s : State) : Out :=
  .next (takeWidthNak s p m)

/-- S_HELLO (R526). -/
def execSHello (p : Port) (m : List Byte) (s : State) : Out :=
  .next (if isLinkMsg m 0x20 ∧ s.linkState p ≠ 0 then sHello (takeLinkMsg s p m).1 p m else s)

/-- S_CRED (R526). -/
def execSCred (p : Port) (m : List Byte) (s : State) : Out :=
  .next (if isLinkMsg m 0x21 ∧ s.linkState p ≠ 0 then sCred (takeLinkMsg s p m).1 p m else s)

/-- S_KEX (R526). -/
def execSKex (p : Port) (m : List Byte) (s : State) : Out :=
  .next (if isLinkMsg m 0x22 ∧ s.linkState p ≠ 0 then sKex (takeLinkMsg s p m).1 p m else s)

/-- S_FIN (R526). -/
def execSFin (p : Port) (m : List Byte) (s : State) : Out :=
  .next (if isLinkMsg m 0x23 ∧ s.linkState p ≠ 0 then sFin (takeLinkMsg s p m).1 p m else s)

/-- S_REKEY (R529, R530). -/
def execSRekey (p : Port) (m : List Byte) (s : State) : Out :=
  .next (if isLinkMsg m 0x24 ∧ s.linkState p ≠ 0 then sRekey (takeLinkMsg s p m).1 p m else s)

/-- S_REKEY_ACK (R529). -/
def execSRekeyAck (p : Port) (m : List Byte) (s : State) : Out :=
  .next (if isLinkMsg m 0x25 ∧ s.linkState p ≠ 0 then sRekeyAck (takeLinkMsg s p m).1 p m else s)

/-- S_FAIL (R526). -/
def execSFail (p : Port) (m : List Byte) (s : State) : Out :=
  .next (if isLinkMsg m 0x26 ∧ s.linkState p ≠ 0 then sFail (takeLinkMsg s p m).1 p m else s)

/-- REKEY_START (R529); `fw`: firmware commands it. -/
def execRekeyStart (p : Port) (fw : Bool) (s : State) : Out :=
  .next (if fw then viaFabric s fun s => rekeyStart s p fw else rekeyStart s p fw)

/-- REKEY_RETRY_TMO (R530). -/
def execRekeyRetryTmo (p : Port) (s : State) : Out :=
  .next (rekeyRetryTmo s p)

/-- RNG_FAIL (R513). -/
def execRngFail (s : State) : Out :=
  .next (rngFail s)

end Sys2Proof.Machine
end

