-- ==== Sys2Proof/Machine/MartenCmds.lean ====
section
/-! DEFINITION. The meanings of the commands of the Marten front end, of the context commands and of the
synchronisation store's registers. A Marten instruction's command says that context k's front end reaches its
instruction: it issues the instruction at PC where that is the one the command names (R320, R326). -/
namespace Sys2Proof.Machine

/-- nop (R334). -/
def execNop (k : Ctx) (s : State) : Out := .next (issue 0x00 {} noExtra (fun s k _ => advance s k) s k)

/-- movi (R334): g[d] := imm. -/
def execMovi (k : Ctx) (s : State) : Out := .next (issue 0x01 { d := .reg, imm := 2 ^ 64 - 1 } noExtra (scalarRun fun _ w => iImm w) s k)

/-- add (R334): g[d] := g[a] + b. -/
def execAdd (k : Ctx) (s : State) : Out := .next (scalar2 0x02 aluAdd s k)

/-- sub (R334): g[d] := g[a] − b. -/
def execSub (k : Ctx) (s : State) : Out := .next (scalar2 0x03 aluSub s k)

/-- mul (R334): g[d] := the low 64 bits of g[a] × b. -/
def execMul (k : Ctx) (s : State) : Out := .next (scalar2 0x04 aluMul s k)

/-- mulhu (R334): g[d] := the high 64 bits of g[a] × b, unsigned. -/
def execMulhu (k : Ctx) (s : State) : Out := .next (scalar2 0x05 aluMulhu s k)

/-- and (R334): g[d] := g[a] and b. -/
def execAnd (k : Ctx) (s : State) : Out := .next (scalar2 0x06 (fun a b => a &&& b) s k)

/-- or (R334): g[d] := g[a] or b. -/
def execOr (k : Ctx) (s : State) : Out := .next (scalar2 0x07 (fun a b => a ||| b) s k)

/-- xor (R334): g[d] := g[a] xor b. -/
def execXor (k : Ctx) (s : State) : Out := .next (scalar2 0x08 (fun a b => a ^^^ b) s k)

/-- shl (R334): g[d] := g[a] << (b mod 64). -/
def execShl (k : Ctx) (s : State) : Out := .next (scalar2 0x09 aluShl s k)

/-- shr (R334): g[d] := g[a] >> (b mod 64), filling with zeros. -/
def execShr (k : Ctx) (s : State) : Out := .next (scalar2 0x0A aluShr s k)

/-- sra (R334): g[d] := g[a] >> (b mod 64), filling with the sign. -/
def execSra (k : Ctx) (s : State) : Out := .next (scalar2 0x0B aluSra s k)

/-- minu (R334): g[d] := the smaller of g[a] and b, unsigned. -/
def execMinu (k : Ctx) (s : State) : Out := .next (scalar2 0x0C min s k)

/-- maxu (R334): g[d] := the larger, unsigned. -/
def execMaxu (k : Ctx) (s : State) : Out := .next (scalar2 0x0D max s k)

/-- mins (R334): g[d] := the smaller, two's complement. -/
def execMins (k : Ctx) (s : State) : Out := .next (scalar2 0x0E aluMins s k)

/-- maxs (R334): g[d] := the larger, two's complement. -/
def execMaxs (k : Ctx) (s : State) : Out := .next (scalar2 0x0F aluMaxs s k)

/-- clz (R334). -/
def execClz (k : Ctx) (s : State) : Out := .next (issue 0x10 { d := .reg, a := .reg } noExtra (scalarRun fun c w => aluClz (c.gr (iA w))) s k)

/-- sel (R334): g[d] := g[a] if p[c] else b. -/
def execSel (k : Ctx) (s : State) : Out := .next (issue 0x11 { d := .reg, a := .reg, c := .pred, opB := true } noExtra
    (scalarRun fun c w => if c.pr (iC w) then c.gr (iA w) else opB c w) s k)

/-- cmp (R335). -/
def execCmp (k : Ctx) (s : State) : Out := .next (cmpInstr s k)

/-- plog (R335). -/
def execPlog (k : Ctx) (s : State) : Out := .next (plogInstr s k)

/-- br (R336). -/
def execBr (k : Ctx) (s : State) : Out := .next (brInstr s k)

/-- call (R336). -/
def execCall (k : Ctx) (s : State) : Out := .next (callInstr s k)

/-- jr (R336). -/
def execJr (k : Ctx) (s : State) : Out := .next (jrInstr s k)

/-- end (R336). -/
def execEndProg (k : Ctx) (s : State) : Out := .next (endInstr s k)

/-- fault (R336). -/
def execFault (k : Ctx) (s : State) : Out := .next (faultInstr s k)

/-- srd (R336). -/
def execSrd (k : Ctx) (s : State) : Out := .next (srdInstr s k)

/-- lds (R337). -/
def execLds (k : Ctx) (s : State) : Out := .next (ldsInstr s k)

/-- sts (R337). -/
def execSts (k : Ctx) (s : State) : Out := .next (stsInstr s k)

/-- synadd (R342). -/
def execSynadd (k : Ctx) (s : State) : Out := .next (synaddInstr s k)

/-- synset (R342). -/
def execSynset (k : Ctx) (s : State) : Out := .next (synsetInstr s k)

/-- synrd (R342). -/
def execSynrd (k : Ctx) (s : State) : Out := .next (synrdInstr s k)

/-- synwait (R342). -/
def execSynwait (k : Ctx) (s : State) : Out := .next (synwaitInstr s k)

/-- wtrig (R342). -/
def execWtrig (k : Ctx) (s : State) : Out := .next (wtrigInstr s k)

/-- fence (R341). -/
def execFence (k : Ctx) (s : State) : Out := .next (fenceInstr s k)

/-- start (R321). -/
def execStart (k : Ctx) (s : State) : Out := .next (viaFabric s fun s => ctxStart s k)

/-- stop (R322). -/
def execStop (k : Ctx) (s : State) : Out := .next (viaFabric s fun s => ctxStop s k)

/-- contextStopped (R322). -/
def execContextStopped (k : Ctx) (s : State) : Out := .next (contextStopped s k)

/-- fenceDone (R341). -/
def execFenceDone (k : Ctx) (s : State) : Out := .next (fenceDone s k)

/-- synwaitTmo (R342). -/
def execSynwaitTmo (k : Ctx) (s : State) : Out := .next (synwaitTmo s k)

/-- ILOAD (R330, R350). -/
def execIload (s : State) : Out := .next (viaFirmware MRT_ILOAD_CMD.BUSY MRT_ILOAD_CMD.STATUS s fun s => iloadGo s)

/-- ILOAD_DONE (R330). -/
def execIloadDone (s : State) : Out := .next (iloadDone s)

/-- ARM (R374, R383). -/
def execArmTrig (t : Trig) (s : State) : Out := .next (viaFirmware SYN_TCMD.BUSY SYN_TCMD.STATUS s fun s => if s.on SYN_TCMD.BUSY then s else synArm s t)

/-- DISARM (R374, R383). -/
def execDisarmTrig (t : Trig) (s : State) : Out := .next (viaFirmware SYN_TCMD.BUSY SYN_TCMD.STATUS s fun s => if s.on SYN_TCMD.BUSY then s else synDisarm s t)

/-- SYN_HOST_ADD (R382). -/
def execSynHostAdd (obj : ObjNum) (addend : BitVec 16) (s : State) : Out := .next (viaFabric s fun s => synHostAdd s obj addend.toNat)

end Sys2Proof.Machine
end

