-- ==== Sys2Proof/Machine/MgmtCmds.lean ====
section
/-! DEFINITION. The meanings of the commands of management: AMM messages, session commands, the grove and fabric time. -/
namespace Sys2Proof.Machine

/-- AMM_FRAGMENT (R634). `m` is the message that port `p` receives. -/
def execAmmFragment (p : Port) (m : List Byte) (s : State) : Out := .next (ammFragment s p m)

/-- CHALLENGE_REQ (R521). `via` is the port of arrival, 15 for the sideband. -/
def execChallengeReq (via : Fin 16) (m : List Byte) (s : State) : Out := .next (challengeReq s via m)

/-- SESSION_OPEN (R521). `via` is the port of arrival, 15 for the sideband. -/
def execSessionOpen (via : Fin 16) (m : List Byte) (s : State) : Out := .next (sessionOpen s via m)

/-- ATTEST_REQ (R520). `via` is the port of arrival, 15 for the sideband. -/
def execAttestReq (via : Fin 16) (m : List Byte) (s : State) : Out := .next (attestReq s via m)

/-- DIRECTIVE (R644). `via` is the port of arrival, 15 for the sideband. -/
def execDirective (via : Fin 16) (m : List Byte) (s : State) : Out := .next (directive s via m)

/-- HEALTH (R643). `via` is the port of arrival, 15 for the sideband. -/
def execHealth (via : Fin 16) (m : List Byte) (s : State) : Out := .next (healthArrives s via m)

/-- HEALTH_ACK (R641). `via` is the port of arrival, 15 for the sideband. -/
def execHealthAck (via : Fin 16) (m : List Byte) (s : State) : Out := .next (healthAck s via m)

/-- CONG_MAP (R643). `via` is the port of arrival, 15 for the sideband. -/
def execCongMap (via : Fin 16) (m : List Byte) (s : State) : Out := .next (congMap s via m)

/-- CONFIG (R638). OP 1. -/
def execConfig (via : Fin 16) (m : List Byte) (s : State) : Out := .next (sessionCmd s via m 1 fun s _ a => opConfig s a)

/-- PKEY_WRITE (R523). OP 2. -/
def execPkeyWrite (via : Fin 16) (m : List Byte) (s : State) : Out := .next (sessionCmd s via m 2 fun s _ a => opPkey s a)

/-- ROUTE_WRITE (R638). OP 3. -/
def execRouteWrite (via : Fin 16) (m : List Byte) (s : State) : Out := .next (sessionCmd s via m 3 fun s _ a => opRoute s a)

/-- ROUTE_CTRL (R638). OP 4. -/
def execRouteCtrl (via : Fin 16) (m : List Byte) (s : State) : Out := .next (sessionCmd s via m 4 fun s _ a => opRouteCtrl s a)

/-- EPOCH_SET (R638). OP 5. -/
def execEpochSet (via : Fin 16) (m : List Byte) (s : State) : Out := .next (sessionCmd s via m 5 fun s _ a => opEpoch s a)

/-- POLICY (R523). OP 6. -/
def execPolicy (via : Fin 16) (m : List Byte) (s : State) : Out := .next (sessionCmd s via m 6 fun s _ a => opPolicy s a)

/-- WINDOW_CREATE (R301). OP 7. -/
def execWindowCreate (via : Fin 16) (m : List Byte) (s : State) : Out := .next (sessionCmd s via m 7 fun s _ a => opWindow s a)

/-- GROUP_CREATE (R390). OP 8. -/
def execGroupCreate (via : Fin 16) (m : List Byte) (s : State) : Out := .next (sessionCmd s via m 8 fun s _ a => opGroup s a)

/-- SEAL (R638). OP 9. -/
def execSeal (via : Fin 16) (m : List Byte) (s : State) : Out := .next (sessionCmd s via m 9 fun s _ a => opSeal s a)

/-- CRED_INSTALL (R524). OP 10. -/
def execCredInstall (via : Fin 16) (m : List Byte) (s : State) : Out := .next (sessionCmd s via m 10 fun s _ a => opCred s a)

/-- DEBUG_UNLOCK (R522). OP 11. -/
def execDebugUnlock (via : Fin 16) (m : List Byte) (s : State) : Out := .next (sessionCmd s via m 11 fun s _ _ => opDebug s)

/-- RETURN_SERVICE (R619). OP 12. -/
def execReturnService (via : Fin 16) (m : List Byte) (s : State) : Out := .next (sessionCmd s via m 12 fun s _ _ => { s := returnToService s })

/-- MIN_SVN (R522). OP 13. -/
def execMinSvn (via : Fin 16) (m : List Byte) (s : State) : Out := .next (sessionCmd s via m 13 fun s _ a => opMinSvn s a)

/-- ANCHOR_REVOKE (R522). OP 14. -/
def execAnchorRevoke (via : Fin 16) (m : List Byte) (s : State) : Out := .next (sessionCmd s via m 14 fun s v a => opRevoke s v a)

/-- FW_WRITE (R655). OP 15. -/
def execFwWrite (via : Fin 16) (m : List Byte) (s : State) : Out := .next (sessionCmd s via m 15 fun s _ a => opFwWrite s a)

/-- FW_CHECK (R638). OP 16. -/
def execFwCheck (via : Fin 16) (m : List Byte) (s : State) : Out := .next (sessionCmd s via m 16 fun s _ a => opFwCheck s a)

/-- REG_READ (R638). OP 17. -/
def execRegRead (via : Fin 16) (m : List Byte) (s : State) : Out := .next (sessionCmd s via m 17 fun s _ a => opRegRead s a)

/-- REG_WRITE (R638). OP 18. -/
def execRegWrite (via : Fin 16) (m : List Byte) (s : State) : Out := .next (sessionCmd s via m 18 fun s _ a => opRegWrite s a)

/-- TIME_CFG (R647). OP 19. -/
def execTimeCfg (via : Fin 16) (m : List Byte) (s : State) : Out := .next (sessionCmd s via m 19 fun s _ a => opTimeCfg s a)

/-- STEWARD (R640). OP 20. -/
def execSteward (via : Fin 16) (m : List Byte) (s : State) : Out := .next (sessionCmd s via m 20 fun s _ a => opSteward s a)

/-- GROVE_ADD (R640). OP 21. -/
def execGroveAdd (via : Fin 16) (m : List Byte) (s : State) : Out := .next (sessionCmd s via m 21 fun s _ a => opGrove s a)

/-- MEMBER (R641). OP 22. -/
def execMember (via : Fin 16) (m : List Byte) (s : State) : Out := .next (sessionCmd s via m 22 fun s _ a => opMember s a)

/-- ATTEST_REPORT (R520). -/
def execAttestReport (s : State) : Out := .next (viaFabric s attestReport)

/-- SESSION_IDLE (R521). -/
def execSessionIdle (s : State) : Out := .next (sessionIdle s)

/-- HEALTH_PERIOD (R641). -/
def execHealthPeriod (s : State) : Out := .next (healthPeriod s)

/-- CONG_PERIOD (R641). -/
def execCongPeriod (s : State) : Out := .next (congPeriod s)

/-- MEMBER_SILENT (R643). `entry` is the entry of the grove table. -/
def execMemberSilent (entry : Fin 512) (s : State) : Out := .next (memberSilent s entry)

/-- TIME_SYNC (R647). `ofs` is the measured offset in 1/16 ns. -/
def execTimeSync (ofs : Int) (s : State) : Out := .next (timeSync s ofs)

/-- LOG_ENABLE (R663). -/
def execLogEnable (on : Bool) (s : State) : Out := .next (logEnable s on)

/-- BURROW_REFRESH (R660). -/
def execBurrowRefresh (copy : Fin 5) (s : State) : Out := .next (burrowRefresh s copy)

/-- FLASH_ERASE_PROGRAM_DONE (R661). `ok` is the flash device's own status. -/
def execFlashEraseProgramDone (ok : Bool) (s : State) : Out := .next (flashDone s ok)

end Sys2Proof.Machine
end

