-- ==== Sys2Proof/Machine/PinCmds.lean ====
section
/-! DEFINITION. The meanings of the commands at the pins: resets, the reference clock, the test port, error pairs. -/
namespace Sys2Proof.Machine

/-- PORST_ASSERT (R50). -/
def execPorstAssert (s : State) : Out := .next (porstAssert s)

/-- PORST_RELEASE (R597). `sfdp` are the bytes that the flash answers to opcode 0x5A from address 0 on (R65); `clk` and
`delay` are the fastest divider, in the order of R64, and the sample delay at which the signature reads back (R68). -/
def execPorstRelease (sfdp : List Byte) (clk : Fin 5) (delay : Fin 4) (s : State) : Out := .next (porstRelease s sfdp clk delay)

/-- IMAGE_CHECK (R518). -/
def execImageCheck (s : State) : Out := .next (imageCheck s)

/-- HRST_ASSERT (R51). -/
def execHrstAssert (s : State) : Out := .next (hrstAssert s)

/-- HRST_RELEASE (R51). -/
def execHrstRelease (s : State) : Out := .next (hrstRelease s)

/-- REF_LOSS (R41). -/
def execRefLoss (s : State) : Out := .next (refLoss s)

/-- REFCLK_RETURN (R579). -/
def execRefclkReturn (s : State) : Out := .next (refReturn s)

/-- SUPPLY_FAULT (R49). `rail` is the supply in the order of R39. -/
def execSupplyFault (rail : Fin 4) (s : State) : Out := .next (supplyFault s rail)

/-- AON_POWER_ON_RESET (R49). As at PORST_n low. -/
def execAonPowerOnReset (s : State) : Out := .next (porstAssert s)

/-- FABRIC_PLL_LOCK (R42). -/
def execFabricPllLock (s : State) : Out := .next (pllLock s)

/-- FABRIC_PLL_TMO (R42). -/
def execFabricPllTmo (s : State) : Out := .next (pllTmo s)

/-- FLT_ALIVE_TOGGLE (R62). -/
def execFltAliveToggle (s : State) : Out := .next (fltToggle s)

/-- HERR_ERROR (R60). -/
def execHerrError (pair : Fin 8) (s : State) : Out := .next (herrError s pair)

/-- HERR_NO_ERROR (R571). `pair` is a HERR pair, 0–7, or an internal pair, 8–26. -/
def execHerrNoError (pair : Fin 27) (s : State) : Out := .next (wireOk s pair)

/-- WIRE_FAULT (R571). `pair` is a HERR pair, 0–7, or an internal pair, 8–26. -/
def execWireFault (pair : Fin 27) (s : State) : Out := .next (wireFault s pair)

/-- JT_TRST (R72). -/
def execJtTrst (s : State) : Out := .next (selectIr s 0x01)

/-- EXTEST (R75). `inputs` are the levels that come from outside, `cells` the values shifted in. -/
def execExtest (inputs : BitVec 26) (cells : BitVec 45) (s : State) : Out :=
  .next (scanBoundary (selectIr s 0x00) inputs.toNat cells.toNat)

/-- IDCODE (R73). -/
def execIdcode (s : State) : Out := .next (readIdcode s)

/-- SAMPLE_PRELOAD (R72). `inputs` are the levels that come from outside, `cells` the values shifted in. -/
def execSamplePreload (inputs : BitVec 26) (cells : BitVec 45) (s : State) : Out :=
  .next (scanBoundary (selectIr s 0x02) inputs.toNat cells.toNat)

/-- CLAMP (R75). -/
def execClamp (s : State) : Out := .next (selectIr s 0x04)

/-- HIGHZ (R75). -/
def execHighz (s : State) : Out := .next (selectIr s 0x05)

/-- IJTAG_ACCESS (R76): the segments open as `State.publicSegments` and `State.privateSegments` say. -/
def execIjtagAccess (s : State) : Out := .next (selectIr s 0x10)

/-- BYPASS (R72): code 0xFF, or one that R72 does not list; a listed `code` is not this row's. One bit `tdi` is shifted. -/
def execBypass (code : Byte) (tdi : Bool) (s : State) : Out :=
  .next (if jtagOf code.toNat = .bypass then scanBypass (selectIr s code.toNat) tdi else s)

end Sys2Proof.Machine
end

