-- ==== Sys2Proof/Machine/HmpDone.lean ====
section
/-! DEFINITION. What the end of a host memory transfer does to the unit that asked for it (R25, R92). -/
namespace Sys2Proof.Machine

/-- The end of a transfer, by its purpose (R92). Transfers whose use is a command of its own are kept for it. -/
def xferDone (s : State) (x : Xfer) : State :=
  match x.k with
  | .none => s
  | .descFetch _ _ _ | .iload | .chunkSource | .chunkLine _ _ _ | .groupImage | .groupList =>
    { s with hmp := { s.hmp with returned := s.hmp.returned ++ [x] } }
  | .cplEntry q cnt _ => cplWritten s q cnt (x.status = stOK)
  | .backEnd k id => backEndDone s k id x
  | .hostWr t => hostWrDone s t x
  | .putSource t => putSourceDone s t x
  | .getData t _ => getDataDone s t x
  | .target id off => targetDone s id off x
  | .atomLine l => gatherRelease (atomLineDone s l x)
  | .yarOwn y k => yarOwnDone s y k x
  | .yarWrite y k => yarWriteDone s y k x
  | .yarGather y k | .updWrite y k => yarGatherDone s y k x
  | .yarSpill y k half => yarSpillDone s y k half x
  | .yarHold y => yarHoldDone s y x
  | .yarList y => exchangeRead s y 0 x
  | .yarBody y => exchangeRead s y 1 x
  | .yarTable y => exchangeRead s y 2 x
  | .yarSelf y => exchangeSelf s y x
  | .collList i => collListDone s i x
  | .collWrite i => collWriteDone s i x
  | .updState y k => updReadDone s y k false x
  | .updWeights y k => updReadDone s y k true x
  | .foxLoad id => foxLoadDone s id x
  | .foxSource id => foxReadDone s id false x
  | .foxResid id => foxReadDone s id true x
  | .foxSpill id => foxSpillDone s id x
  | .foxWrite id => foxWriteDone s id x
  | .logEntry level => logWritten s level

/-- A response has been taken; its transfer may have ended, and a Tier 1 that waited for it completes (R602). -/
def afterResponse (r : State × Option Xfer) : State :=
  tierStep (match r.2 with | some x => xferDone r.1 x | none => r.1)

end Sys2Proof.Machine
end

