-- ==== Sys2Proof/Machine/PortCmds.lean ====
section
/-! DEFINITION. The meanings of accesses to the register aperture and of what the Host Memory Port answers. -/
namespace Sys2Proof.Machine

/-- HMP_READ_BEAT (R92). -/
def execHmpReadBeat (c : Chan) (tag : Fin 2048) (line : List Byte) (stat : Fin 4) (last : Bool) (s : State) : Out := .next (mgmtDone (afterResponse (takeReadBeat s c tag line stat last)))

/-- HMP_WRITE_RESPONSE (R92). -/
def execHmpWriteResponse (c : Chan) (tag : Fin 2048) (stat : Fin 4) (s : State) : Out := .next (mgmtDone (afterResponse (takeWriteResponse s c tag stat)))

/-- HMP_RESP_TMO (R94). -/
def execHmpRespTmo (c : Chan) (tag : Fin 2048) (s : State) : Out := .next (mgmtDone (afterResponse (takeRespTmo s c tag)))

/-- MRP_TIMEOUT (R130). -/
def execMrpTimeout (write : Bool) (a : BitVec 24) (w : Word) (s : State) : Out := .next (mrpTimeout s write a.toNat w)

/-- REGISTER_WRITE (R9). `side` says that the access comes by the sideband and not by MRP. -/
def execRegisterWrite (side : Bool) (a : BitVec 24) (w : Word) (s : State) : Out := .next (portWrite s side a.toNat w)

/-- LOW_WORD_READ (R361). `side` says that the access comes by the sideband and not by MRP. -/
def execLowWordRead (side : Bool) (o : ObjNum) (s : State) : Out := .next (portRead s side (0x200000 + 8 * o.val))

/-- OBJECT_WINDOW_WRITE (R361). `side` says that the access comes by the sideband and not by MRP. -/
def execObjectWindowWrite (side : Bool) (o : ObjNum) (high : Bool) (w : Word) (s : State) : Out := .next (portWrite s side (0x200000 + 8 * o.val + 4 * b2n high) w)

/-- FTIME_LO_READ (R646). `side` says that the access comes by the sideband and not by MRP. -/
def execFtimeLoRead (side : Bool) (s : State) : Out := .next (portRead s side 0x30128)

/-- ENTRY_LATCH_READ (R677). `side` says that the access comes by the sideband and not by MRP. -/
def execEntryLatchRead (side : Bool) (a : BitVec 24) (s : State) : Out := .next (portRead s side a.toNat)

end Sys2Proof.Machine
end

