-- ==== Sys2Proof/Machine/PowerCmds.lean ====
section
/-! DEFINITION. The meanings of the commands of Cowslip and of the power states. -/
namespace Sys2Proof.Machine

/-- DOZE_EXIT (R154). -/
def execDozeExit (p : Port) (s : State) : Out := .next (if wakeGranted s p then dozeExit s p else s)

/-- SHORT_TRAINING (R155). `live` are the settings that adaptation found, lane by lane, `ts1` and `ts2` the far frames. -/
def execShortTraining (p : Port) (live : List Word) (ts1 ts2 : List CtlFrame) (s : State) : Out :=
  .next (if wakeGranted s p then shortTraining s p live (ts1.map fun f => (f.lane, f.ui, f.bytes))
    (ts2.map fun f => (f.lane, f.ui, f.bytes)) else s)

/-- SLEEP_NAK (R205). `m` is the message on port `p`. -/
def execSleepNak (p : Port) (m : List Byte) (s : State) : Out := .next (sleepRefused s p m)

/-- LINK_WAKE (R206). `far` says that the far end wakes the link. -/
def execLinkWake (p : Port) (far : Bool) (s : State) : Out := .next (portWake s p far)

/-- WIDTH_SWITCH (R30). `failed` is a lane of the port that does not come back; `live` are the settings that lanes
back from Dormouse adapt to, by lane. -/
def execWidthSwitch (p : Port) (tx : Bool) (failed : Option (Fin 8)) (live : List Word) (s : State) : Out :=
  .next (widthSwitchPark s p tx (failed.map (·.val)) live)

/-- RUN (R541). -/
def execRun (s : State) : Out := .next (powerRun s)

/-- NAP (R539). -/
def execNap (s : State) : Out := .next (powerDown s 2)

/-- HIBERNATE (R539). -/
def execHibernate (s : State) : Out := .next (powerDown s 3)

/-- NAP_ENTRY_DONE (R539). -/
def execNapEntryDone (s : State) : Out := .next (napEntered s)

/-- HIBERNATE_ENTRY_DONE (R539). -/
def execHibernateEntryDone (s : State) : Out := .next (hibernateEntered s)

/-- WAKE_AT (R566). -/
def execWakeAt (s : State) : Out := .next (wakeAt s)

/-- WAKE_DONE (R539). -/
def execWakeDone (s : State) : Out := .next (wakeDone s)

/-- DROWSE_ENTRY (R539). -/
def execDrowseEntry (s : State) : Out := .next (drowseEntry s)

/-- DROWSE_EXIT (R541). -/
def execDrowseExit (s : State) : Out := .next (drowseExit s)

/-- TOKEN_PERIOD (R547). `used` are the tokens that the consumers of R553 used in the period that ends. -/
def execTokenPeriod (used : List Nat) (s : State) : Out := .next (tokenPeriod s used)

/-- AUTO_DOZE (R544). -/
def execAutoDoze (p : Port) (s : State) : Out := .next (autoDoze s p)

/-- AUTO_DORMOUSE (R544). -/
def execAutoDormouse (p : Port) (s : State) : Out := .next (autoDormouse s p)

/-- LOCAL_LEVEL (R562). -/
def execLocalLevel (v : Fin 16) (s : State) : Out := .next (localLevel s v)

/-- DIRECTIVE_APPLY (R552). -/
def execDirectiveApply (s : State) : Out := .next (directiveApply s)

/-- RAMP_FORCE_OFF (R556). -/
def execRampForceOff (s : State) : Out := .next (rampForceOff s)

end Sys2Proof.Machine
end

