-- ==== Sys2Proof/Machine/RouterCmds.lean ====
section
/-! DEFINITION. The meanings of the commands of the router. -/
namespace Sys2Proof.Machine

/-- ROUTER_PACKET (R227, R231, R237). `from_` is the link port, 12 for a local packet that the scheduler has begun. -/
def execRouterPacket (from_ : Fin 13) (s : State) : Out :=
  .next (wakeWaiting (if from_.val < 12 then routeArrival s from_ else
    match routeInjected s with | (t, none) => t | (t, some p) => injectRefused t p))

/-- EGRESS_GRANT (R230, R233, R235). -/
def execEgressGrant (p : Port) (s : State) : Out := .next (egressGrant s p)

/-- DOWN_HOLD_TMO (R231). -/
def execDownHoldTmo (s : State) : Out := .next (downHoldTmo s)

/-- ENTRY_WAIT (R235). -/
def execEntryWait (s : State) : Out := .next (entryWait s)

/-- FLIP_ARM (R240). -/
def execFlipArm (s : State) : Out := .next (viaFabric s fun s => flipArm s)

/-- HOLD (R245, R249). -/
def execHold (on : Bool) (s : State) : Out := .next (viaFabric s fun s => setHold s on)

/-- EPOCH_FLIP (R239, R243). -/
def execEpochFlip (s : State) : Out := .next (epochFlip s)

/-- DRAIN_DEADLINE (R242). -/
def execDrainDeadline (s : State) : Out := .next (drainDeadline s)

/-- CONG_SAMPLE (R247). -/
def execCongSample (p : Port) (s : State) : Out := .next (congSample s p)

end Sys2Proof.Machine
end

