-- ==== Sys2Proof/Machine/SchedCmds.lean ====
section
/-! DEFINITION. The meanings of the commands of the scheduler, and of the width change that retunes it. -/
namespace Sys2Proof.Machine

/-- SCHED_GRANT (R497 to R501). -/
def execSchedGrant (s : State) : Out := .next (schedGrant s)

/-- SHAPER_REFILL (R502, R503, R505). -/
def execShaperRefill (s : State) : Out := .next (shaperRefill s)

/-- SHAPER_WRITE (R504, R511). -/
def execShaperWrite (n : Fin 64) (w : Word) (s : State) : Out := .next (viaFabric s fun s => shaperWrite s n w.toNat)

end Sys2Proof.Machine
end

