-- ==== Sys2Proof/Machine/SidebandCmds.lean ====
section
/-! DEFINITION. The meanings of the frames of the sideband. -/
namespace Sys2Proof.Machine

/-- WRITE (R652). -/
def execSbWrite (a : BitVec 24) (ws : List Word) (s : State) : Out := .next (sbWrite s a.toNat ws)

/-- READ (R652). -/
def execSbRead (a : BitVec 24) (count : Byte) (s : State) : Out := .next (sbRead s a.toNat count.toNat)

/-- STATUS (R653). -/
def execSbStatus (s : State) : Out := .next (sbStatus s)

/-- READ_DATA (R652). `n` is the number of words that the frame clocks out. -/
def execSbReadData (first : Fin 64) (n : Nat) (s : State) : Out := .next (sbReadData s first n)

/-- AMM_PUT (R652). -/
def execAmmPut (ofs : Fin 4096) (ws : List Word) (s : State) : Out := .next (sbAmmPut s ofs ws)

/-- AMM_SEND (R652). -/
def execAmmSend (len : Nat) (s : State) : Out := .next (sbAmmSend s len)

/-- AMM_GET (R652). `n` is the number of words that the frame clocks out. -/
def execAmmGet (ofs : Fin 4096) (n : Nat) (s : State) : Out := .next (sbAmmGet s ofs n)

/-- AMM_DONE (R652). -/
def execAmmDone (s : State) : Out := .next (sbAmmDone s)

/-- LOAD_PUT (R652). -/
def execLoadPut (ofs : Nat) (ws : List Word) (s : State) : Out := .next (sbLoadPut s ofs ws)

/-- LOAD_START (R598). -/
def execLoadStart (s : State) : Out := .next (sbLoadStart s)

/-- SB_BAD_FRAME (R654). `kind` is SHORT, PARTIAL, EXCESS, BADOP. -/
def execSbBadFrame (kind : Fin 4) (s : State) : Out := .next (sbBadFrame s kind)

end Sys2Proof.Machine
end

