-- ==== Sys2Proof/Machine/TargetCmds.lean ====
section
/-! DEFINITION. The meanings of the commands of the receiving half of transport, the target engine and the window
table. -/
namespace Sys2Proof.Machine

/-- PUT_PACKET (R264, R273, R277): a PUT request reaches the block. -/
def execPutPacket (p : Pkt) (s : State) : Out :=
  .next (viaFabric s fun s => if p.opcode = 0x01 then receive receiveNew receiveDup (takeDelivered s p) p else s)

/-- GET_PACKET (R264, R273, R277). -/
def execGetPacket (p : Pkt) (s : State) : Out :=
  .next (viaFabric s fun s => if p.opcode = 0x02 then receive receiveNew receiveDup (takeDelivered s p) p else s)

/-- ATOMIC_PACKET (R264, R273, R311). -/
def execAtomicPacket (p : Pkt) (s : State) : Out :=
  .next (viaFabric s fun s => if p.opcode = 0x03 then receive receiveNew receiveDup (takeDelivered s p) p else s)

/-- SIGNAL_PACKET (R264, R273, R367). -/
def execSignalPacket (p : Pkt) (s : State) : Out :=
  .next (viaFabric s fun s => if p.opcode = 0x04 then receive receiveNew receiveDup (takeDelivered s p) p else s)

/-- NOTICE (R264, R273, R287). -/
def execNotice (p : Pkt) (s : State) : Out :=
  .next (viaFabric s fun s => if p.opcode = 0x09 then receive receiveNew receiveDup (takeDelivered s p) p else s)

/-- SYNC (R270). -/
def execSync (p : Pkt) (s : State) : Out := .next (viaFabric s fun s => if p.opcode = 0x08 then receiveSync (takeDelivered s p) p else s)

/-- SYNC_ACK (R269). -/
def execSyncAck (p : Pkt) (s : State) : Out := .next (viaFabric s fun s => if p.opcode = 0x88 then syncAck (takeDelivered s p) p else s)

/-- STREAM_HANDSHAKE (R268, R269). -/
def execStreamHandshake (stream : Fin 2097152) (s : State) : Out := .next (streamHandshake s stream)

/-- ORD_EXECUTE (R275). -/
def execOrdExecute (h : Fin 4096) (s : State) : Out := .next (ordExecute s h)

/-- HELD_AGE_OUT (R275). -/
def execHeldAgeOut (h : Fin 4096) (s : State) : Out := .next (heldAgeOut s h)

/-- RECORD_AGE_OUT (R278). -/
def execRecordAgeOut (r : Fin 32768) (s : State) : Out := .next (recordAgeOut s r)

/-- TGT_ADMIT (R310). -/
def execTgtAdmit (id : Nat) (s : State) : Out := .next (tryAdmit s id)

/-- BUSY_BOUND_TMO (R310). -/
def execBusyBoundTmo (id : Nat) (s : State) : Out := .next (busyBoundTmo s id)

/-- HEAT_HALVE (R314). -/
def execHeatHalve (s : State) : Out := .next (heatHalve s)

/-- CREATE (R299, R300, R301, R317). `mrp` says that the command came through MRP, where MGMT_ONLY refuses it. -/
def execCreate (mrp : Bool) (s : State) : Out :=
  .next (if mrp && s.on TGT_CFG.MGMT_ONLY then s else viaFirmware TGT_WCMD.BUSY TGT_WCMD.STATUS s fun s => tgtCreate s)

/-- CREATE_LIST_READ (R300, R303). -/
def execCreateListRead (s : State) : Out := .next (createListRead s)

/-- NARROW (R300, R306). -/
def execNarrow (s : State) : Out := .next (viaFirmware TGT_WCMD.BUSY TGT_WCMD.STATUS s fun s => tgtNarrow s)

/-- REVOKE (R299, R300, R306). -/
def execRevoke (s : State) : Out := .next (viaFirmware TGT_WCMD.BUSY TGT_WCMD.STATUS s fun s => tgtRevoke s)

end Sys2Proof.Machine
end

