-- ==== Sys2Proof/Machine/TierCmds.lean ====
section
/-! DEFINITION. The meanings of the commands of recovery: tiers, fences, the heartbeat, the watchdog, replay. -/
namespace Sys2Proof.Machine

/-- TIER0 (R601). -/
def execTier0 (k : Ctx) (s : State) : Out := .next (viaFabric s fun s => tier0 s k)

/-- TIER1 (R602). -/
def execTier1 (engine : Fin 256) (capture : Bool) (s : State) : Out := .next (tierCommand s 1 engine capture)

/-- TIER2 (R603). -/
def execTier2 (capture : Bool) (s : State) : Out := .next (tierCommand s 2 0 capture)

/-- TIER3 (R605). -/
def execTier3 (capture : Bool) (s : State) : Out := .next (tierCommand s 3 0 capture)

/-- QUIESCE_DONE (R132). -/
def execQuiesceDone (s : State) : Out := .next (quiesceEnd s)

/-- TIER2_LINKS_DRAINED (R604). -/
def execTier2LinksDrained (s : State) : Out := .next (linksDrained s)

/-- LINK_DRAIN_TMO (R604). -/
def execLinkDrainTmo (p : Port) (s : State) : Out := .next (linkDrainTmo s p)

/-- TIER3_COMPLETE (R605). -/
def execTier3Complete (s : State) : Out := .next (tier3Done s)

/-- FENCE_SW (R606). -/
def execFenceSw (on : Bool) (s : State) : Out := .next (setFence s BDG_FENCE.SW on)

/-- HOST_EN (R611). -/
def execHostEn (on : Bool) (s : State) : Out := .next (hostEn s on)

/-- HOST_HB (R611). -/
def execHostHb (v : Word) (s : State) : Out := .next (hostHb s v.toNat)

/-- HOST_HB_EXPIRY (R611). -/
def execHostHbExpiry (s : State) : Out := .next (hostHbExpiry s)

/-- WATCHDOG (R610). -/
def execWatchdog (s : State) : Out := .next (watchdog s)

/-- FW_RESTART_DONE (R610). -/
def execFwRestartDone (s : State) : Out := .next (fwRestartDone s)

/-- MPU_VIOLATION (R631). -/
def execMpuViolation (component : Fin 8) (s : State) : Out := .next (mpuViolation s component)

/-- HANG (R612). -/
def execHang (engine : Fin 21) (s : State) : Out := .next (hang s engine)

/-- CAPTURE_HOLD_TMO (R614). -/
def execCaptureHoldTmo (s : State) : Out := .next (captureHoldTmo s)

/-- RELEASE (R614). -/
def execRelease (s : State) : Out := .next (holdEnd s)

/-- SOLO_SLOT_END (R616). -/
def execSoloSlotEnd (s : State) : Out := .next (soloSlotEnd s)

/-- HELD_RELEASE (R616). `w` is what is written to BDG_HELD word `j`. -/
def execHeldRelease (j : Fin 16) (w : Word) (s : State) : Out := .next (heldRelease s j w.toNat)

end Sys2Proof.Machine
end

