-- ==== Sys2Proof/Machine/XptCmds.lean ====
section
/-! DEFINITION. The meanings of the commands of the sending half of transport. -/
namespace Sys2Proof.Machine

/-- ACK (R282). -/
def execAck (p : Pkt) (s : State) : Out := .next (viaFabric s fun s => if p.opcode = 0x81 then ackArrives (takeDelivered s p) p else s)

/-- DATA (R282). -/
def execData (p : Pkt) (s : State) : Out := .next (viaFabric s fun s => if p.opcode = 0x82 then dataArrives (takeDelivered s p) p else s)

/-- RESULT (R282, R340). -/
def execResult (p : Pkt) (s : State) : Out := .next (viaFabric s fun s => if p.opcode = 0x83 then resultArrives (takeDelivered s p) p else s)

/-- RESYNC (R282, R288). -/
def execResync (p : Pkt) (s : State) : Out := .next (viaFabric s fun s => if p.opcode = 0x8A then resyncArrives (takeDelivered s p) p else s)

/-- ROUTER_NAK (R24, R269, R282). -/
def execRouterNak (p : Pkt) (s : State) : Out := .next (viaFabric s fun s => if p.opcode = 0x8F then routerNakArrives (takeDelivered s p) p else s)

/-- RETX_TMO (R280, R281). `n` is a table entry, or with `sync` a stream whose SYNC is pending. -/
def execRetxTmo (sync : Bool) (n : Fin 2097152) (s : State) : Out := .next (if sync then syncTmo s n else entryTmo s n)

/-- SEQ_BUDGET_RELEASE (R271). `n` is the stream. -/
def execSeqBudgetRelease (n : Fin 2097152) (s : State) : Out := .next (seqBudgetRelease s n)

/-- OOT_ALLOCATE (R284). `n` is the operation that stalled. -/
def execOotAllocate (n : Nat) (s : State) : Out := .next (ootAllocate s n)

end Sys2Proof.Machine
end

