-- ==== Sys2Proof/Machine/YarrowCmds.lean ====
section
/-! DEFINITION. The meanings of the commands of Yarrow, Stoat and Foxglove. -/
namespace Sys2Proof.Machine

/-- READY (R401, R412). -/
def execReady (p : Pkt) (s : State) : Out := .next (viaFabric s fun s => collPacket s 0x20 p)

/-- PART (R437, R412). -/
def execPart (p : Pkt) (s : State) : Out := .next (viaFabric s fun s => collPacket s 0x21 p)

/-- BCAST (R402, R412). -/
def execBcast (p : Pkt) (s : State) : Out := .next (viaFabric s fun s => collPacket s 0x22 p)

/-- A2A_PACKET (R407, R408). -/
def execA2aPacket (p : Pkt) (s : State) : Out := .next (viaFabric s fun s => collPacket s 0x23 p)

/-- COUNT (R406, R408). -/
def execCount (p : Pkt) (s : State) : Out := .next (viaFabric s fun s => collPacket s 0x24 p)

/-- FAIL (R413). -/
def execFail (p : Pkt) (s : State) : Out := .next (viaFabric s fun s => collPacket s 0x25 p)

/-- ABORT (R417). -/
def execAbort (p : Pkt) (s : State) : Out := .next (viaFabric s fun s => collPacket s 0x26 p)

/-- RS (R400). At issue. -/
def execRs (k : Ctx) (s : State) : Out := .next (collIssue 0x60 (formColl false) (fun _ => false) s k)

/-- AG (R400). At issue. -/
def execAg (k : Ctx) (s : State) : Out := .next (collIssue 0x61 (formColl false) (fun _ => false) s k)

/-- AR (R400). At issue. -/
def execAr (k : Ctx) (s : State) : Out := .next (collIssue 0x62 (formColl false) (fun _ => false) s k)

/-- RUG (R400). At issue. -/
def execRug (k : Ctx) (s : State) : Out := .next (collIssue 0x63 (formColl false) (fun _ => false) s k)

/-- A2A (R407). At issue. -/
def execA2a (k : Ctx) (s : State) : Out := .next (collIssue 0x64 (formColl true) (fun _ => false) s k)

/-- CX (R406). At issue. -/
def execCx (k : Ctx) (s : State) : Out := .next (collIssue 0x65 (formColl false) (fun _ => false) s k)

/-- STO (R343, R419). At issue. -/
def execSto (k : Ctx) (s : State) : Out := .next (collIssue 0x66 formSto stoRefused s k)

/-- GSTAT (R343). -/
def execGstat (k : Ctx) (s : State) : Out := .next (gstatInstr s k)

/-- FXLW (R344, R464). At issue. -/
def execFxlw (k : Ctx) (s : State) : Out := .next (fxlwInstr s k)

/-- FXCM (R344, R465). At issue. -/
def execFxcm (k : Ctx) (s : State) : Out := .next (fxcmInstr s k)

/-- FXPASS (R344, R480). At issue. -/
def execFxpass (k : Ctx) (s : State) : Out := .next (fxpassInstr s k)

/-- DESCRIPTOR_CREATE (R388, R390). -/
def execDescriptorCreate (g : Grp) (s : State) : Out := .next (viaFirmware YAR_GCMD.BUSY YAR_GCMD.STATUS s fun s => groupCreate s g false (gargAddr s))

/-- CREATE_IMAGE_READ (R390). -/
def execCreateImageRead (s : State) : Out := .next (createImageRead s)

/-- DESTROY (R392). -/
def execDestroy (g : Grp) (s : State) : Out := .next (viaFirmware YAR_GCMD.BUSY YAR_GCMD.STATUS s fun s => groupDestroy s g)

/-- CANCEL (R129, R392). `mrp` says that the command came through MRP. -/
def execCancel (g : Grp) (mrp : Bool) (s : State) : Out := .next (viaFirmware YAR_GCMD.BUSY YAR_GCMD.STATUS s fun s => groupCancel s g mrp)

/-- GROUP_RUN_ADMIT (R404). -/
def execGroupRunAdmit (s : State) : Out := .next (groupRunAdmit s)

/-- STO_ADMIT (R423). -/
def execStoAdmit (s : State) : Out := .next (stoAdmit s)

/-- ABORT_TMO (R417). -/
def execAbortTmo (g : Grp) (s : State) : Out := .next (abortTmo s g)

/-- COLL_RETRY (R408, R412). -/
def execCollRetry (s : State) : Out := .next (collRetry s)

/-- SVAL (R421 to R423). `m` is the message of 96 bytes on port `p`. -/
def execSval (p : Port) (m : List Byte) (s : State) : Out := .next (viaFabric s fun s => stoatArrives s p 1 m)

/-- SFAIL (R425). `m` is the message of 96 bytes on port `p`. -/
def execSfail (p : Port) (m : List Byte) (s : State) : Out := .next (viaFabric s fun s => stoatArrives s p 2 m)

/-- UPDATE_COMMIT (R448). -/
def execUpdateCommit (u : Fin 256) (s : State) : Out := .next (viaFabric s fun s => updCommit s u)

/-- UPDATE_SEGMENT (R453). -/
def execUpdateSegment (s : State) : Out := .next (updateSegment s)

/-- STAGE_COMMIT (R472). -/
def execStageCommit (n : Fin 256) (s : State) : Out := .next (viaFabric s fun s => stageCommit s n)

/-- FOX_DISPATCH (R483). -/
def execFoxDispatch (s : State) : Out := .next (foxDispatch s)

/-- FOX_ISLAND_UP (R487). -/
def execFoxIslandUp (s : State) : Out := .next (foxIslandUp s)

/-- FOX_IDLE_OFF (R487). -/
def execFoxIdleOff (s : State) : Out := .next (foxIdleOff s)

/-- COMMIT_MARKER_PASSED (R465). -/
def execCommitMarkerPassed (s : State) : Out := .next (markerPassed s)

end Sys2Proof.Machine
end

