-- ==== Sys2Proof/Machine/Dispatch.lean ====
section
/-! DEFINITION. The dispatch: one arm for each command, a direct call of its meaning. -/
namespace Sys2Proof.Machine

/-- The effect of a command on everything but the queue. -/
def exec (i : Instr) (s : State) : Host.Outcome State Fault Refusal :=
  match i with
  | .registerWrite side a w => Sys2Proof.Machine.execRegisterWrite side a w s
  | .mrpTimeout write a w => Sys2Proof.Machine.execMrpTimeout write a w s
  | .lowWordRead side o => Sys2Proof.Machine.execLowWordRead side o s
  | .objectWindowWrite side o high w => Sys2Proof.Machine.execObjectWindowWrite side o high w s
  | .ftimeLoRead side => Sys2Proof.Machine.execFtimeLoRead side s
  | .entryLatchRead side a => Sys2Proof.Machine.execEntryLatchRead side a s
  | .porstAssert => Sys2Proof.Machine.execPorstAssert s
  | .porstRelease sfdp clk delay => Sys2Proof.Machine.execPorstRelease sfdp clk delay s
  | .imageCheck => Sys2Proof.Machine.execImageCheck s
  | .hrstAssert => Sys2Proof.Machine.execHrstAssert s
  | .hrstRelease => Sys2Proof.Machine.execHrstRelease s
  | .refLoss => Sys2Proof.Machine.execRefLoss s
  | .supplyFault rail => Sys2Proof.Machine.execSupplyFault rail s
  | .aonPowerOnReset => Sys2Proof.Machine.execAonPowerOnReset s
  | .fabricPllLock => Sys2Proof.Machine.execFabricPllLock s
  | .fabricPllTmo => Sys2Proof.Machine.execFabricPllTmo s
  | .fltAliveToggle => Sys2Proof.Machine.execFltAliveToggle s
  | .herrError pair => Sys2Proof.Machine.execHerrError pair s
  | .wireFault pair => Sys2Proof.Machine.execWireFault pair s
  | .jtTrst => Sys2Proof.Machine.execJtTrst s
  | .extest inputs cells => Sys2Proof.Machine.execExtest inputs cells s
  | .idcode => Sys2Proof.Machine.execIdcode s
  | .samplePreload inputs cells => Sys2Proof.Machine.execSamplePreload inputs cells s
  | .clamp => Sys2Proof.Machine.execClamp s
  | .highz => Sys2Proof.Machine.execHighz s
  | .ijtagAccess => Sys2Proof.Machine.execIjtagAccess s
  | .bypass code tdi => Sys2Proof.Machine.execBypass code tdi s
  | .hmpReadBeat c tag line stat last => Sys2Proof.Machine.execHmpReadBeat c tag line stat last s
  | .hmpWriteResponse c tag stat => Sys2Proof.Machine.execHmpWriteResponse c tag stat s
  | .hmpRespTmo c tag => Sys2Proof.Machine.execHmpRespTmo c tag s
  | .quarantineTagFree c => Sys2Proof.Machine.execQuarantineTagFree c s
  | .quiesceDone => Sys2Proof.Machine.execQuiesceDone s
  | .oppPush q bytes => Sys2Proof.Machine.execOppPush q bytes s
  | .descFetch q => Sys2Proof.Machine.execDescFetch q s
  | .descNop q => Sys2Proof.Machine.execDescNop q s
  | .descPut q => Sys2Proof.Machine.execDescPut q s
  | .descGet q => Sys2Proof.Machine.execDescGet q s
  | .descAtomic q => Sys2Proof.Machine.execDescAtomic q s
  | .descSignal q => Sys2Proof.Machine.execDescSignal q s
  | .descFence q => Sys2Proof.Machine.execDescFence q s
  | .openQueue q => Sys2Proof.Machine.execOpenQueue q s
  | .closeQueue q => Sys2Proof.Machine.execCloseQueue q s
  | .queueClosed q => Sys2Proof.Machine.execQueueClosed q s
  | .qDb q tail => Sys2Proof.Machine.execQDb q tail s
  | .qCqdb q head => Sys2Proof.Machine.execQCqdb q head s
  | .trgToken k obj late => Sys2Proof.Machine.execTrgToken k obj late s
  | .trgCfgWrite w => Sys2Proof.Machine.execTrgCfgWrite w s
  | .portOn p errs test => Sys2Proof.Machine.execPortOn p errs test s
  | .portOff p => Sys2Proof.Machine.execPortOff p s
  | .recal p => Sys2Proof.Machine.execRecal p s
  | .lanePllLock p => Sys2Proof.Machine.execLanePllLock p s
  | .lanePllTmo p => Sys2Proof.Machine.execLanePllTmo p s
  | .signalDetect p mask => Sys2Proof.Machine.execSignalDetect p mask s
  | .adaptDone p offsets live => Sys2Proof.Machine.execAdaptDone p offsets live s
  | .alignDone p => Sys2Proof.Machine.execAlignDone p s
  | .alignTmo p => Sys2Proof.Machine.execAlignTmo p s
  | .exchDone p => Sys2Proof.Machine.execExchDone p s
  | .exchTmo p => Sys2Proof.Machine.execExchTmo p s
  | .ts1 p frames => Sys2Proof.Machine.execTs1 p frames s
  | .ts2 p frames => Sys2Proof.Machine.execTs2 p frames s
  | .ei p frames => Sys2Proof.Machine.execEi p frames s
  | .dx p frames => Sys2Proof.Machine.execDx p frames s
  | .dozeExit p => Sys2Proof.Machine.execDozeExit p s
  | .shortTraining p live firsts seconds => Sys2Proof.Machine.execShortTraining p live firsts seconds s
  | .shortTrainTmo p => Sys2Proof.Machine.execShortTrainTmo p s
  | .elasticSlip k fill => Sys2Proof.Machine.execElasticSlip k fill s
  | .cdrLockLoss k => Sys2Proof.Machine.execCdrLockLoss k s
  | .adaptStep k dirs => Sys2Proof.Machine.execAdaptStep k dirs s
  | .owlScanStart w jtag => Sys2Proof.Machine.execOwlScanStart w jtag s
  | .owlScanDone mismatches => Sys2Proof.Machine.execOwlScanDone mismatches s
  | .owlHealthScan k width height => Sys2Proof.Machine.execOwlHealthScan k width height s
  | .flitRx p levels => Sys2Proof.Machine.execFlitRx p levels s
  | .nakTmo p => Sys2Proof.Machine.execNakTmo p s
  | .replayTmo p => Sys2Proof.Machine.execReplayTmo p s
  | .lockTmo p => Sys2Proof.Machine.execLockTmo p s
  | .retrainBound p => Sys2Proof.Machine.execRetrainBound p s
  | .probe p m => Sys2Proof.Machine.execProbe p m s
  | .echo p m => Sys2Proof.Machine.execEcho p m s
  | .cap p m => Sys2Proof.Machine.execCap p m s
  | .verdict p m => Sys2Proof.Machine.execVerdict p m s
  | .capTmo p => Sys2Proof.Machine.execCapTmo p s
  | .reexch p => Sys2Proof.Machine.execReexch p s
  | .retrain p => Sys2Proof.Machine.execRetrain p s
  | .linkSleepCmd p deep => Sys2Proof.Machine.execLinkSleepCmd p deep s
  | .sleepReq p m => Sys2Proof.Machine.execSleepReq p m s
  | .sleepAck p m => Sys2Proof.Machine.execSleepAck p m s
  | .sleepNak p m => Sys2Proof.Machine.execSleepNak p m s
  | .wake p m => Sys2Proof.Machine.execWake p m s
  | .sleepTmo p => Sys2Proof.Machine.execSleepTmo p s
  | .drainDone p => Sys2Proof.Machine.execDrainDone p s
  | .linkWake p far => Sys2Proof.Machine.execLinkWake p far s
  | .widthReq p m => Sys2Proof.Machine.execWidthReq p m s
  | .widthAck p m => Sys2Proof.Machine.execWidthAck p m s
  | .widthNak p m => Sys2Proof.Machine.execWidthNak p m s
  | .widthSwitch p tx failed live => Sys2Proof.Machine.execWidthSwitch p tx failed live s
  | .sHello p m => Sys2Proof.Machine.execSHello p m s
  | .sCred p m => Sys2Proof.Machine.execSCred p m s
  | .sKex p m => Sys2Proof.Machine.execSKex p m s
  | .sFin p m => Sys2Proof.Machine.execSFin p m s
  | .sRekey p m => Sys2Proof.Machine.execSRekey p m s
  | .sRekeyAck p m => Sys2Proof.Machine.execSRekeyAck p m s
  | .sFail p m => Sys2Proof.Machine.execSFail p m s
  | .rekeyStart p fw => Sys2Proof.Machine.execRekeyStart p fw s
  | .rekeyRetryTmo p => Sys2Proof.Machine.execRekeyRetryTmo p s
  | .rngFail => Sys2Proof.Machine.execRngFail s
  | .attestReport => Sys2Proof.Machine.execAttestReport s
  | .sessionIdle => Sys2Proof.Machine.execSessionIdle s
  | .routerPacket from_ => Sys2Proof.Machine.execRouterPacket from_ s
  | .egressGrant p => Sys2Proof.Machine.execEgressGrant p s
  | .downHoldTmo => Sys2Proof.Machine.execDownHoldTmo s
  | .entryWait => Sys2Proof.Machine.execEntryWait s
  | .flipArm => Sys2Proof.Machine.execFlipArm s
  | .hold on => Sys2Proof.Machine.execHold on s
  | .epochFlip => Sys2Proof.Machine.execEpochFlip s
  | .drainDeadline => Sys2Proof.Machine.execDrainDeadline s
  | .congSample p => Sys2Proof.Machine.execCongSample p s
  | .putPacket p => Sys2Proof.Machine.execPutPacket p s
  | .getPacket p => Sys2Proof.Machine.execGetPacket p s
  | .atomicPacket p => Sys2Proof.Machine.execAtomicPacket p s
  | .signalPacket p => Sys2Proof.Machine.execSignalPacket p s
  | .sync p => Sys2Proof.Machine.execSync p s
  | .notice p => Sys2Proof.Machine.execNotice p s
  | .ready p => Sys2Proof.Machine.execReady p s
  | .part p => Sys2Proof.Machine.execPart p s
  | .bcast p => Sys2Proof.Machine.execBcast p s
  | .a2aPacket p => Sys2Proof.Machine.execA2aPacket p s
  | .count p => Sys2Proof.Machine.execCount p s
  | .fail p => Sys2Proof.Machine.execFail p s
  | .abort p => Sys2Proof.Machine.execAbort p s
  | .ack p => Sys2Proof.Machine.execAck p s
  | .data p => Sys2Proof.Machine.execData p s
  | .result p => Sys2Proof.Machine.execResult p s
  | .syncAck p => Sys2Proof.Machine.execSyncAck p s
  | .resync p => Sys2Proof.Machine.execResync p s
  | .routerNak p => Sys2Proof.Machine.execRouterNak p s
  | .retxTmo sync n => Sys2Proof.Machine.execRetxTmo sync n s
  | .streamHandshake stream => Sys2Proof.Machine.execStreamHandshake stream s
  | .seqBudgetRelease n => Sys2Proof.Machine.execSeqBudgetRelease n s
  | .ootAllocate n => Sys2Proof.Machine.execOotAllocate n s
  | .ordExecute h => Sys2Proof.Machine.execOrdExecute h s
  | .heldAgeOut h => Sys2Proof.Machine.execHeldAgeOut h s
  | .recordAgeOut r => Sys2Proof.Machine.execRecordAgeOut r s
  | .create mrp => Sys2Proof.Machine.execCreate mrp s
  | .createListRead => Sys2Proof.Machine.execCreateListRead s
  | .narrow => Sys2Proof.Machine.execNarrow s
  | .revoke => Sys2Proof.Machine.execRevoke s
  | .revokeAck engine => Sys2Proof.Machine.execRevokeAck engine s
  | .chunkMissFill w line => Sys2Proof.Machine.execChunkMissFill w line s
  | .tgtAdmit id => Sys2Proof.Machine.execTgtAdmit id s
  | .busyBoundTmo id => Sys2Proof.Machine.execBusyBoundTmo id s
  | .heatHalve => Sys2Proof.Machine.execHeatHalve s
  | .start k => Sys2Proof.Machine.execStart k s
  | .stop k => Sys2Proof.Machine.execStop k s
  | .tier0 k => Sys2Proof.Machine.execTier0 k s
  | .contextStopped k => Sys2Proof.Machine.execContextStopped k s
  | .iload => Sys2Proof.Machine.execIload s
  | .iloadDone => Sys2Proof.Machine.execIloadDone s
  | .backendEntryStart k => Sys2Proof.Machine.execBackendEntryStart k s
  | .backendEntryDone k id => Sys2Proof.Machine.execBackendEntryDone k id s
  | .fenceDone k => Sys2Proof.Machine.execFenceDone k s
  | .synwaitTmo k => Sys2Proof.Machine.execSynwaitTmo k s
  | .nop k => Sys2Proof.Machine.execNop k s
  | .movi k => Sys2Proof.Machine.execMovi k s
  | .add k => Sys2Proof.Machine.execAdd k s
  | .sub k => Sys2Proof.Machine.execSub k s
  | .mul k => Sys2Proof.Machine.execMul k s
  | .mulhu k => Sys2Proof.Machine.execMulhu k s
  | .and k => Sys2Proof.Machine.execAnd k s
  | .or k => Sys2Proof.Machine.execOr k s
  | .xor k => Sys2Proof.Machine.execXor k s
  | .shl k => Sys2Proof.Machine.execShl k s
  | .shr k => Sys2Proof.Machine.execShr k s
  | .sra k => Sys2Proof.Machine.execSra k s
  | .minu k => Sys2Proof.Machine.execMinu k s
  | .maxu k => Sys2Proof.Machine.execMaxu k s
  | .mins k => Sys2Proof.Machine.execMins k s
  | .maxs k => Sys2Proof.Machine.execMaxs k s
  | .clz k => Sys2Proof.Machine.execClz k s
  | .sel k => Sys2Proof.Machine.execSel k s
  | .cmp k => Sys2Proof.Machine.execCmp k s
  | .plog k => Sys2Proof.Machine.execPlog k s
  | .br k => Sys2Proof.Machine.execBr k s
  | .call k => Sys2Proof.Machine.execCall k s
  | .jr k => Sys2Proof.Machine.execJr k s
  | .endProg k => Sys2Proof.Machine.execEndProg k s
  | .fault k => Sys2Proof.Machine.execFault k s
  | .srd k => Sys2Proof.Machine.execSrd k s
  | .lds k => Sys2Proof.Machine.execLds k s
  | .sts k => Sys2Proof.Machine.execSts k s
  | .ldw k => Sys2Proof.Machine.execLdw k s
  | .stw k => Sys2Proof.Machine.execStw k s
  | .cpin k => Sys2Proof.Machine.execCpin k s
  | .cpout k => Sys2Proof.Machine.execCpout k s
  | .put k => Sys2Proof.Machine.execPut k s
  | .get k => Sys2Proof.Machine.execGet k s
  | .atom k => Sys2Proof.Machine.execAtom k s
  | .signal k => Sys2Proof.Machine.execSignal k s
  | .fence k => Sys2Proof.Machine.execFence k s
  | .synadd k => Sys2Proof.Machine.execSynadd k s
  | .synset k => Sys2Proof.Machine.execSynset k s
  | .synrd k => Sys2Proof.Machine.execSynrd k s
  | .synwait k => Sys2Proof.Machine.execSynwait k s
  | .wtrig k => Sys2Proof.Machine.execWtrig k s
  | .rs k => Sys2Proof.Machine.execRs k s
  | .ag k => Sys2Proof.Machine.execAg k s
  | .ar k => Sys2Proof.Machine.execAr k s
  | .rug k => Sys2Proof.Machine.execRug k s
  | .a2a k => Sys2Proof.Machine.execA2a k s
  | .cx k => Sys2Proof.Machine.execCx k s
  | .sto k => Sys2Proof.Machine.execSto k s
  | .gstat k => Sys2Proof.Machine.execGstat k s
  | .fxlw k => Sys2Proof.Machine.execFxlw k s
  | .fxcm k => Sys2Proof.Machine.execFxcm k s
  | .fxpass k => Sys2Proof.Machine.execFxpass k s
  | .armTrig t => Sys2Proof.Machine.execArmTrig t s
  | .disarmTrig t => Sys2Proof.Machine.execDisarmTrig t s
  | .synHostAdd obj addend => Sys2Proof.Machine.execSynHostAdd obj addend s
  | .triggerDelivery => Sys2Proof.Machine.execTriggerDelivery s
  | .descriptorCreate g => Sys2Proof.Machine.execDescriptorCreate g s
  | .createImageRead => Sys2Proof.Machine.execCreateImageRead s
  | .destroy g => Sys2Proof.Machine.execDestroy g s
  | .cancel g mrp => Sys2Proof.Machine.execCancel g mrp s
  | .groupRunAdmit => Sys2Proof.Machine.execGroupRunAdmit s
  | .stoAdmit => Sys2Proof.Machine.execStoAdmit s
  | .abortTmo g => Sys2Proof.Machine.execAbortTmo g s
  | .collRetry => Sys2Proof.Machine.execCollRetry s
  | .sval p m => Sys2Proof.Machine.execSval p m s
  | .sfail p m => Sys2Proof.Machine.execSfail p m s
  | .updateCommit u => Sys2Proof.Machine.execUpdateCommit u s
  | .updateSegment => Sys2Proof.Machine.execUpdateSegment s
  | .stageCommit n => Sys2Proof.Machine.execStageCommit n s
  | .foxDispatch => Sys2Proof.Machine.execFoxDispatch s
  | .foxIslandUp => Sys2Proof.Machine.execFoxIslandUp s
  | .foxIdleOff => Sys2Proof.Machine.execFoxIdleOff s
  | .schedGrant => Sys2Proof.Machine.execSchedGrant s
  | .shaperRefill => Sys2Proof.Machine.execShaperRefill s
  | .shaperWrite n w => Sys2Proof.Machine.execShaperWrite n w s
  | .run => Sys2Proof.Machine.execRun s
  | .nap => Sys2Proof.Machine.execNap s
  | .hibernate => Sys2Proof.Machine.execHibernate s
  | .napEntryDone => Sys2Proof.Machine.execNapEntryDone s
  | .hibernateEntryDone => Sys2Proof.Machine.execHibernateEntryDone s
  | .wakeAt => Sys2Proof.Machine.execWakeAt s
  | .wakeDone => Sys2Proof.Machine.execWakeDone s
  | .drowseEntry => Sys2Proof.Machine.execDrowseEntry s
  | .drowseExit => Sys2Proof.Machine.execDrowseExit s
  | .tokenPeriod used => Sys2Proof.Machine.execTokenPeriod used s
  | .autoDoze p => Sys2Proof.Machine.execAutoDoze p s
  | .autoDormouse p => Sys2Proof.Machine.execAutoDormouse p s
  | .localLevel v => Sys2Proof.Machine.execLocalLevel v s
  | .directiveApply => Sys2Proof.Machine.execDirectiveApply s
  | .rampForceOff => Sys2Proof.Machine.execRampForceOff s
  | .faultEvent => Sys2Proof.Machine.execFaultEvent s
  | .hhgPend w => Sys2Proof.Machine.execHhgPend w s
  | .selfCheck f => Sys2Proof.Machine.execSelfCheck f s
  | .quietExpiry => Sys2Proof.Machine.execQuietExpiry s
  | .scrubWord g w r => Sys2Proof.Machine.execScrubWord g w r s
  | .initFillDone => Sys2Proof.Machine.execInitFillDone s
  | .initFillTmo g => Sys2Proof.Machine.execInitFillTmo g s
  | .tier1 engine capture => Sys2Proof.Machine.execTier1 engine capture s
  | .tier2 capture => Sys2Proof.Machine.execTier2 capture s
  | .tier3 capture => Sys2Proof.Machine.execTier3 capture s
  | .tier2LinksDrained => Sys2Proof.Machine.execTier2LinksDrained s
  | .linkDrainTmo p => Sys2Proof.Machine.execLinkDrainTmo p s
  | .tier3Complete => Sys2Proof.Machine.execTier3Complete s
  | .fenceSw on => Sys2Proof.Machine.execFenceSw on s
  | .hostEn on => Sys2Proof.Machine.execHostEn on s
  | .hostHb v => Sys2Proof.Machine.execHostHb v s
  | .hostHbExpiry => Sys2Proof.Machine.execHostHbExpiry s
  | .watchdog => Sys2Proof.Machine.execWatchdog s
  | .fwRestartDone => Sys2Proof.Machine.execFwRestartDone s
  | .mpuViolation component => Sys2Proof.Machine.execMpuViolation component s
  | .hang engine => Sys2Proof.Machine.execHang engine s
  | .captureHoldTmo => Sys2Proof.Machine.execCaptureHoldTmo s
  | .release => Sys2Proof.Machine.execRelease s
  | .soloSlotEnd => Sys2Proof.Machine.execSoloSlotEnd s
  | .heldRelease j w => Sys2Proof.Machine.execHeldRelease j w s
  | .ammFragment p m => Sys2Proof.Machine.execAmmFragment p m s
  | .challengeReq via m => Sys2Proof.Machine.execChallengeReq via m s
  | .sessionOpen via m => Sys2Proof.Machine.execSessionOpen via m s
  | .directive via m => Sys2Proof.Machine.execDirective via m s
  | .attestReq via m => Sys2Proof.Machine.execAttestReq via m s
  | .health via m => Sys2Proof.Machine.execHealth via m s
  | .healthAck via m => Sys2Proof.Machine.execHealthAck via m s
  | .congMap via m => Sys2Proof.Machine.execCongMap via m s
  | .config via m => Sys2Proof.Machine.execConfig via m s
  | .pkeyWrite via m => Sys2Proof.Machine.execPkeyWrite via m s
  | .routeWrite via m => Sys2Proof.Machine.execRouteWrite via m s
  | .routeCtrl via m => Sys2Proof.Machine.execRouteCtrl via m s
  | .epochSet via m => Sys2Proof.Machine.execEpochSet via m s
  | .policy via m => Sys2Proof.Machine.execPolicy via m s
  | .windowCreate via m => Sys2Proof.Machine.execWindowCreate via m s
  | .groupCreate via m => Sys2Proof.Machine.execGroupCreate via m s
  | .seal via m => Sys2Proof.Machine.execSeal via m s
  | .credInstall via m => Sys2Proof.Machine.execCredInstall via m s
  | .debugUnlock via m => Sys2Proof.Machine.execDebugUnlock via m s
  | .returnService via m => Sys2Proof.Machine.execReturnService via m s
  | .minSvn via m => Sys2Proof.Machine.execMinSvn via m s
  | .anchorRevoke via m => Sys2Proof.Machine.execAnchorRevoke via m s
  | .fwWrite via m => Sys2Proof.Machine.execFwWrite via m s
  | .fwCheck via m => Sys2Proof.Machine.execFwCheck via m s
  | .regRead via m => Sys2Proof.Machine.execRegRead via m s
  | .regWrite via m => Sys2Proof.Machine.execRegWrite via m s
  | .timeCfg via m => Sys2Proof.Machine.execTimeCfg via m s
  | .steward via m => Sys2Proof.Machine.execSteward via m s
  | .groveAdd via m => Sys2Proof.Machine.execGroveAdd via m s
  | .member via m => Sys2Proof.Machine.execMember via m s
  | .healthPeriod => Sys2Proof.Machine.execHealthPeriod s
  | .congPeriod => Sys2Proof.Machine.execCongPeriod s
  | .memberSilent entry => Sys2Proof.Machine.execMemberSilent entry s
  | .timeSync ofs => Sys2Proof.Machine.execTimeSync ofs s
  | .logEnable on => Sys2Proof.Machine.execLogEnable on s
  | .burrowRefresh copy => Sys2Proof.Machine.execBurrowRefresh copy s
  | .sbWrite a ws => Sys2Proof.Machine.execSbWrite a ws s
  | .sbRead a count => Sys2Proof.Machine.execSbRead a count s
  | .sbStatus => Sys2Proof.Machine.execSbStatus s
  | .sbReadData first n => Sys2Proof.Machine.execSbReadData first n s
  | .ammPut ofs ws => Sys2Proof.Machine.execAmmPut ofs ws s
  | .ammSend len => Sys2Proof.Machine.execAmmSend len s
  | .ammGet ofs n => Sys2Proof.Machine.execAmmGet ofs n s
  | .ammDone => Sys2Proof.Machine.execAmmDone s
  | .loadPut ofs ws => Sys2Proof.Machine.execLoadPut ofs ws s
  | .loadStart => Sys2Proof.Machine.execLoadStart s
  | .sbBadFrame kind => Sys2Proof.Machine.execSbBadFrame kind s
  | .frameSlot p => Sys2Proof.Machine.execFrameSlot p s
  | .symbolLockRegained k => Sys2Proof.Machine.execSymbolLockRegained k s
  | .refclkReturn => Sys2Proof.Machine.execRefclkReturn s
  | .herrNoError pair => Sys2Proof.Machine.execHerrNoError pair s
  | .hmpCommandTransfer c data => Sys2Proof.Machine.execHmpCommandTransfer c data s
  | .commitMarkerPassed => Sys2Proof.Machine.execCommitMarkerPassed s
  | .flashEraseProgramDone ok => Sys2Proof.Machine.execFlashEraseProgramDone ok s

end Sys2Proof.Machine
end

