-- ==== Sys2Proof/Safety.lean ====
section
/-! DEFINITION. What a safe run is, and the words in which statements speak of a step: what a command answers, what it
leaves unchanged, and the canonical form of the register file. -/
namespace Sys2Proof

/-- A step is safe when it ends in a next state. -/
def SafeStep (s : Machine.State) : Prop := ∃ t, Machine.step s = .next t

/-- Command `c` completes on state `s`: it answers a next state, of which `P` holds. -/
def Gives (c : Instr) (s : Machine.State) (P : Machine.State → Prop) : Prop :=
  ∃ t, Machine.exec c s = .next t ∧ P t

/-- The tables of the state are in their canonical form: keys strictly rise, and no entry equals what an unlisted key
holds, so that equal memories are equal data; and each operation in work is listed under its own number. -/
structure TablesOk (s : Machine.State) : Prop where
  regs : Tbl.wf Machine.resetWord s.regs = true
  ctxs : Tbl.wf (fun _ => ({} : Machine.Ctxt)) s.ctxs = true
  ctxRegs : ∀ e ∈ s.ctxs, Tbl.wf (fun _ => (0 : Dword)) e.2.g = true ∧ Tbl.wf (fun _ => false) e.2.p = true
  queues : Tbl.wf (fun _ => ({} : Machine.Queue)) s.queues = true
  scratch : Tbl.wf (fun _ => (0 : Byte)) s.mrt.scratch = true
  imem : Tbl.wf (fun _ => (0 : BitVec 128)) s.mrt.imem = true
  objs : Tbl.wf (fun _ => (0 : Dword)) s.syn.objs = true
  trigs : Tbl.wf (fun _ => ({} : Machine.TrigEntry)) s.syn.trigs = true
  wins : Tbl.wf (fun _ => ({} : Machine.Win)) s.wins.tbl = true
  peers : Tbl.wf (fun _ => ({} : Machine.Peer)) s.xpt.peers = true
  groups : Tbl.wf (fun _ => ({} : Machine.Group)) s.yar.groups = true
  links : Tbl.wf (fun _ => ({} : Machine.LinkPort)) s.links = true
  credits : ∀ e ∈ s.links, Tbl.wf (fun _ => ({} : Machine.Credit)) e.2.credits = true
  tokens : Tbl.wf (fun _ => Machine.resetTokens) s.sch.tokens = true
  rates : Tbl.wf (fun _ => (0 : Nat)) s.sch.rates = true
  xops : ∀ e ∈ s.xpt.ops, e.2.id = e.1
  tgtOps : ∀ e ∈ s.tgt.ops, e.2.id = e.1

/-- The class that R583 gives a finding in each structure group of HHG_INIT. -/
def scrubClass : List Nat := [2, 1, 2, 2, 2, 2, 2, 2, 1, 2, 2, 2, 2, 3, 3]

/-- The components of the state. -/
inductive Component
  | build | regs | time | pins | hhg | hmp | queues | ctxs | mrt | syn | wins | xpt | tgt | out | lanes | links | rtr | sch
  | sea | burrow | csp | bdg | acc | yar | fox | pending | freeIdx
deriving DecidableEq, Repr

/-- A component is the same in two states. -/
def Component.same (s t : Machine.State) : Component → Prop
  | .build => t.build = s.build
  | .regs => t.regs = s.regs
  | .time => t.time = s.time
  | .pins => t.pins = s.pins
  | .hhg => t.hhg = s.hhg
  | .hmp => t.hmp = s.hmp
  | .queues => t.queues = s.queues
  | .ctxs => t.ctxs = s.ctxs
  | .mrt => t.mrt = s.mrt
  | .syn => t.syn = s.syn
  | .wins => t.wins = s.wins
  | .xpt => t.xpt = s.xpt
  | .tgt => t.tgt = s.tgt
  | .out => t.out = s.out
  | .lanes => t.lanes = s.lanes
  | .links => t.links = s.links
  | .rtr => t.rtr = s.rtr
  | .sch => t.sch = s.sch
  | .sea => t.sea = s.sea
  | .burrow => t.burrow = s.burrow
  | .csp => t.csp = s.csp
  | .bdg => t.bdg = s.bdg
  | .acc => t.acc = s.acc
  | .yar => t.yar = s.yar
  | .fox => t.fox = s.fox
  | .pending => t.pending = s.pending
  | .freeIdx => t.freeIdx = s.freeIdx

/-- Every component outside `l` is the same in `t` as in `s`. -/
def SameBut (l : List Component) (s t : Machine.State) : Prop := ∀ p, p ∉ l → p.same s t

/-- The frame of a command: whatever next state it answers, every component outside `l` is unchanged. -/
def Frame (c : Instr) (l : List Component) : Prop :=
  ∀ s t, Machine.exec c s = .next t → SameBut l s t

/-- The instructions of the Marten instruction set with their opcodes (R334 to R344). -/
def martenOps : List ((Ctx → Instr) × Nat) :=
  [(.nop, 0x00), (.movi, 0x01), (.add, 0x02), (.sub, 0x03), (.mul, 0x04), (.mulhu, 0x05), (.and, 0x06), (.or, 0x07),
   (.xor, 0x08), (.shl, 0x09), (.shr, 0x0A), (.sra, 0x0B), (.minu, 0x0C), (.maxu, 0x0D), (.mins, 0x0E), (.maxs, 0x0F),
   (.clz, 0x10), (.sel, 0x11), (.cmp, 0x18), (.plog, 0x19), (.br, 0x20), (.call, 0x21), (.jr, 0x22), (.endProg, 0x23),
   (.fault, 0x24), (.srd, 0x28), (.lds, 0x30), (.sts, 0x31), (.ldw, 0x38), (.stw, 0x39)] ++
  [(.cpin, 0x3A), (.cpout, 0x3B), (.put, 0x40), (.get, 0x41), (.atom, 0x42), (.signal, 0x43), (.fence, 0x44),
   (.synadd, 0x50), (.synset, 0x51), (.synrd, 0x52), (.synwait, 0x53), (.wtrig, 0x54), (.rs, 0x60), (.ag, 0x61),
   (.ar, 0x62), (.rug, 0x63), (.a2a, 0x64), (.cx, 0x65), (.sto, 0x66), (.gstat, 0x67), (.fxlw, 0x70), (.fxcm, 0x71),
   (.fxpass, 0x72)]

/-- The fields that the instruction of an opcode uses (R334 to R344). -/
def formOf (op : Nat) : Machine.Form :=
  match op with
  | 0x00 => {} | 0x01 => { d := .reg, imm := 2 ^ 64 - 1 } | 0x10 => { d := .reg, a := .reg }
  | 0x11 => { d := .reg, a := .reg, c := .pred, opB := true }
  | 0x18 => { d := .pred, a := .reg, fn := 0xE, opB := true } | 0x19 => { d := .pred, a := .pred, b := .pred, fn := 0x6 }
  | 0x20 => { imm := 0x7FFF } | 0x21 => { d := .reg, imm := 0x7FFF } | 0x22 => { a := .reg } | 0x23 => {}
  | 0x24 => { imm := 0xFFFF } | 0x28 => { d := .reg, imm := 2 ^ 64 - 1 }
  | 0x30 => { d := .reg, a := .reg, fn := 0x6, imm := 2 ^ 64 - 1 } | 0x31 => { a := .reg, c := .reg, fn := 0x6, imm := 2 ^ 64 - 1 }
  | 0x38 => { d := .reg, b := .reg, fn := 0x6, imm := 0xFFFF00000000 } | 0x39 => { b := .reg, c := .reg, fn := 0x6, imm := 0xFFFF00000000 }
  | 0x3A | 0x3B => { a := .reg, b := .reg, c := .reg, fn := 0xFFFF, imm := 0x8FFFF00000000 }
  | 0x40 | 0x41 => { a := .reg, b := .reg, c := .reg, fn := 0xFFFF, imm := 0x1FFFFFFFFFFFFF }
  | 0x42 => { d := .reg, a := .reg, b := .reg, c := .reg, fn := 0xFFFF, imm := 0x1F00000000073F }
  | 0x43 => { a := .reg, c := .reg, fn := 0xFFFF, imm := 0x1F000000000000 } | 0x44 => { d := .reg }
  | 0x50 | 0x51 => { d := .reg, a := .reg, b := .reg, imm := 0xFFFF } | 0x52 => { d := .reg, a := .reg, imm := 0xFFFF }
  | 0x53 => { d := .pred, a := .reg, b := .reg, c := .reg, fn := 0x3, imm := 0xFFFF } | 0x54 => { d := .reg }
  | 0x64 => { d := .reg, a := .reg, b := .reg, c := .reg, fn := 0xFFFF, imm := 0xFFFFFFFF3FFF }
  | 0x60 | 0x61 | 0x62 | 0x63 | 0x65 => { d := .reg, a := .reg, b := .reg, c := .reg, fn := 0xFFFF, imm := 0xFFFFFFFF1FFF }
  | 0x66 => { d := .reg, b := .reg, c := .reg, fn := 0xFFFF, imm := 0x7F1FFF } | 0x67 => { d := .reg, fn := 1, imm := 0xFFF }
  | 0x70 => { a := .reg, b := .reg, fn := 0xFFFF, imm := 0x8FFFF000000FF } | 0x71 => { fn := 0xFFFF, imm := 0x800000000000F }
  | 0x72 => { a := .reg, b := .reg, c := .reg, fn := 0xFFFF, imm := 0xFFFFFFFF1FFF }
  | _ => { d := .reg, a := .reg, opB := true }

/-- Context `k` may issue (R10, R322, R578, R614, R616): it is READY, the units of the fabric run, and nothing holds it. -/
def MayIssue (s : Machine.State) (k : Nat) : Prop :=
  (s.ctx k).state = .ready ∧ s.unitsRun = true ∧ s.ctxHeld k = false

/-- Context `k` may issue and stands before the instruction word `w`, whose guard predicate is not pending (R326, R336). -/
def AtWord (s : Machine.State) (k w : Nat) : Prop :=
  MayIssue s k ∧ Machine.inCode s k = true ∧ s.mrt.imemPoison.contains ((s.ctx k).pc / 4) = false ∧
    w = s.instr k (s.ctx k).pc ∧ (s.ctx k).pendP.contains (Machine.iPg w) = false

/-- That word is an instruction of opcode `op` whose guard holds, whose fields are well formed and none of whose registers
is pending (R326, R333). -/
def Issues (op : Nat) (s : Machine.State) (k w : Nat) : Prop :=
  AtWord s k w ∧ Machine.iOp w = op ∧ Machine.opcodeAbsent s op = false ∧ Machine.guardOn (s.ctx k) w = true ∧
    (formOf op).ok w = true ∧ (formOf op).stalls (s.ctx k) w = false

/-- A session command on operation `op` opens (R521, R522, R637 to R639): firmware runs, no earlier command waits for its
unit, session `v` authenticates the message with counter `c`. `x` is the block that executes it, the message taken and
CFG_MEAS extended where R522 says so, and `a` its arguments. -/
def Opens (s : Machine.State) (via : Nat) (m : List Byte) (op : Nat) (v : Machine.Session) (c : Nat) (x : Machine.State)
    (a : List Byte) : Prop :=
  Machine.ammType m = 0x14 ∧ Machine.fwUp s = true ∧ s.bdg.rspWait = none ∧ ∃ text n,
    Machine.openCmd (Machine.takeInbox s via m) (Machine.ammAad m) (Machine.ammBody m) = some (v, c, text) ∧
    Machine.leAt text 0 2 = op ∧ a = text.drop 4 ∧ n = Machine.noteCmd (Machine.takeInbox s via m) v.number c ∧
    x = if op = 11 then Machine.extendCfg n (Machine.ascii "DEBUG-UNLOCK")
      else if 2 ≤ op ∧ op ≤ 15 then Machine.extendCfg n text else n

end Sys2Proof
end

