-- ==== Sys2Proof/Certificates/Slice0/Obligations.lean ====
section
/-! DEFINITION. The statements for the provers: what each family of commands does, what it leaves unchanged, and the
invariants that every step keeps. -/
open Sys2Proof Sys2Proof.Machine

/-- A step runs the command at the front of the queue, on the state with the queue's rest. -/
def Obligations.StepRunsFront : Prop :=
  ∀ s c rest, s.pending = c :: rest → step s = exec c { s with pending := rest }

/-- Every command answers a next state and so does every step; an empty queue lets one REFCLK cycle pass, the choice of log
entry 2. -/
def Obligations.StepAlwaysAnswers : Prop :=
  (∀ c s, ∃ t, exec c s = .next t) ∧ (∀ s, SafeStep s) ∧
  (∀ s, s.pending = [] → step s = .next (tick s)) ∧
  (∀ s, s.pending = [] → s.pins.porst = true ∨ s.time.ref = false → step s = .next s) ∧
  (∀ s, s.pending = [] → s.pins.porst = false → s.time.ref = true → ∃ t, step s = .next t ∧ t.time.refclks = s.time.refclks + 1)

/-- The state after reset: the queue and the tables are empty, every register holds its reset word, and the words that the
register chapters give some of them. -/
def Obligations.ResetState : Prop :=
  State.reset.pending = [] ∧ State.reset.ctxs = [] ∧ State.reset.queues = [] ∧ State.reset.links = [] ∧
  State.reset.mrt.imem = [] ∧ State.reset.syn.objs = [] ∧ (∀ a, State.reset.reg a = resetWord a) ∧
  (∀ x ∈ ([(0x000000, 0x47570009), (0x000004, 0x00090300), (0x000044, 0x00008000), (0x300000, 0x00640800),
      (0x302000, 0x000F2830)] : List (Nat × Nat)), (readReg State.reset x.1).toNat = x.2)

/-- The tables of the state after reset are canonical. -/
def Obligations.TablesOkReset : Prop :=
  TablesOk State.reset

/-- Every step keeps the tables canonical: keys rise, and no entry equals what an unlisted key holds. -/
def Obligations.TablesOkStep : Prop :=
  ∀ s t, TablesOk s → step s = .next t → TablesOk t

/-- No command changes the queue or the build, and a step takes exactly one command from the queue. -/
def Obligations.QueueKept : Prop :=
  (∀ c s t, exec c s = .next t → t.pending = s.pending ∧ t.build = s.build) ∧
  (∀ s t, step s = .next t → t.pending = s.pending.tail ∧ t.build = s.build)

/-- A write of a register word (R6, R9, R669), with what each type of field takes: `f` is a field of the register at `a`, `v`
what is written to it, `old` and `x` what it held and holds. -/
def Obligations.RegisterWrites : Prop :=
  (∀ s a new, findReg a = none → regWrite s a new = s) ∧
  (∀ s a r i new t, TablesOk s → findReg a = some (r, i) → t = regWrite s a new →
    SameBut [.regs] s t ∧ (∀ b, b ≠ a → t.reg b = s.reg b) ∧
    (∀ f ∈ r.fields, ∀ v old x, v = bitsOf new f.hi f.lo → old = bitsOf (s.reg a).toNat f.hi f.lo →
      x = bitsOf (t.reg a).toNat f.hi f.lo →
      (f.ty = .ro ∨ f.ty = .wo → x = old) ∧
      (f.ty = .rw → (f.ok = [] ∨ ∃ y ∈ f.ok, y.1 ≤ v ∧ v ≤ y.2) → x = v) ∧
      (f.ty = .rw → f.ok ≠ [] → (∀ y ∈ f.ok, v < y.1 ∨ y.2 < v) → x = old) ∧
      (f.ty = .w1c → ∀ j, x.testBit j = (old.testBit j && !v.testBit j)) ∧
      (f.ty = .cnt → x = if v = 0 then 0 else old)) ∧
    (∀ j, (∀ f ∈ r.fields, j < f.lo ∨ f.hi < j) → (t.reg a).getLsbD j = (s.reg a).getLsbD j))

/-- What the commands of single units leave unchanged: of every component of the state but those named, the next state holds
what the state held. -/
def Obligations.UnitFrames : Prop :=
  Frame .drowseEntry [.regs] ∧
  (∀ j w, Frame (.heldRelease j w) [.regs]) ∧
  (∀ kind, Frame (.sbBadFrame kind) [.regs]) ∧
  Frame .fltAliveToggle [.pins] ∧
  (∀ pair, Frame (.herrNoError pair) [.pins]) ∧
  (∀ rail, Frame (.supplyFault rail) [.hhg]) ∧
  (∀ c, Frame (.quarantineTagFree c) [.hmp]) ∧
  (∀ q, Frame (.queueClosed q) [.queues]) ∧
  (∀ k, Frame (.contextStopped k) [.ctxs]) ∧
  (∀ k, Frame (.synwaitTmo k) [.ctxs]) ∧
  Frame .heatHalve [.wins] ∧
  (∀ h, Frame (.heldAgeOut h) [.xpt]) ∧
  (∀ r, Frame (.recordAgeOut r) [.xpt]) ∧
  (∀ p frames, Frame (.ei p frames) [.lanes]) ∧
  (∀ p, Frame (.nakTmo p) [.links]) ∧
  (∀ p m, Frame (.sleepAck p m) [.links]) ∧
  (∀ p m, Frame (.widthAck p m) [.links]) ∧
  (∀ p m, Frame (.widthNak p m) [.links]) ∧
  (∀ p m, Frame (.widthReq p m) [.links]) ∧
  Frame .ammDone [.acc] ∧
  Frame .sbStatus [.acc] ∧
  Frame .foxIdleOff [.fox] ∧
  Frame .foxIslandUp [.fox] ∧
  (∀ engine, Frame (.hang engine) [.regs, .hhg]) ∧
  (∀ w, Frame (.hhgPend w) [.regs, .hhg]) ∧
  (∀ g, Frame (.initFillTmo g) [.regs, .hhg]) ∧
  Frame .rngFail [.regs, .hhg] ∧
  (∀ f, Frame (.selfCheck f) [.regs, .hhg]) ∧
  (∀ k, Frame (.fenceDone k) [.regs, .ctxs]) ∧
  (∀ p, Frame (.alignDone p) [.regs, .lanes]) ∧
  (∀ p frames, Frame (.dx p frames) [.regs, .lanes]) ∧
  (∀ p, Frame (.lanePllLock p) [.regs, .lanes]) ∧
  (∀ mismatches, Frame (.owlScanDone mismatches) [.regs, .lanes]) ∧
  (∀ p mask, Frame (.signalDetect p mask) [.regs, .lanes]) ∧
  (∀ p frames, Frame (.ts1 p frames) [.regs, .lanes]) ∧
  (∀ p frames, Frame (.ts2 p frames) [.regs, .lanes]) ∧
  (∀ p, Frame (.autoDoze p) [.regs, .links]) ∧
  (∀ p m, Frame (.sleepReq p m) [.regs, .links]) ∧
  Frame .entryWait [.regs, .rtr] ∧
  Frame .directiveApply [.regs, .csp] ∧
  Frame .drowseExit [.regs, .csp] ∧
  (∀ v, Frame (.localLevel v) [.regs, .csp]) ∧
  Frame .run [.regs, .csp] ∧
  (∀ n, Frame (.stageCommit n) [.regs, .csp]) ∧
  (∀ u, Frame (.updateCommit u) [.regs, .csp]) ∧
  Frame .wakeAt [.regs, .csp] ∧
  (∀ via m, Frame (.congMap via m) [.regs, .bdg]) ∧
  (∀ via m, Frame (.healthAck via m) [.regs, .bdg]) ∧
  (∀ ofs ws, Frame (.loadPut ofs ws) [.regs, .bdg]) ∧
  (∀ on, Frame (.logEnable on) [.regs, .bdg]) ∧
  (∀ ofs n, Frame (.ammGet ofs n) [.regs, .acc]) ∧
  (∀ ofs ws, Frame (.ammPut ofs ws) [.regs, .acc]) ∧
  (∀ first n, Frame (.sbReadData first n) [.regs, .acc]) ∧
  Frame .refclkReturn [.time, .hhg] ∧
  (∀ pair, Frame (.herrError pair) [.pins, .hhg]) ∧
  Frame .fabricPllTmo [.hhg, .csp] ∧
  (∀ c data, Frame (.hmpCommandTransfer c data) [.hmp, .freeIdx]) ∧
  (∀ n, Frame (.seqBudgetRelease n) [.xpt, .out]) ∧
  (∀ k, Frame (.cdrLockLoss k) [.lanes, .links]) ∧
  (∀ k, Frame (.symbolLockRegained k) [.lanes, .links]) ∧
  (∀ p, Frame (.egressGrant p) [.links, .rtr]) ∧
  (∀ pair, Frame (.wireFault pair) [.regs, .pins, .hhg]) ∧
  (∀ w, Frame (.trgCfgWrite w) [.regs, .pins, .csp]) ∧
  (∀ k dirs, Frame (.adaptStep k dirs) [.regs, .hhg, .lanes]) ∧
  (∀ k width height, Frame (.owlHealthScan k width height) [.regs, .hhg, .lanes]) ∧
  (∀ p, Frame (.shortTrainTmo p) [.regs, .hhg, .lanes]) ∧
  Frame .iloadDone [.regs, .hmp, .mrt] ∧
  (∀ entry, Frame (.memberSilent entry) [.regs, .hmp, .bdg]) ∧
  Frame .soloSlotEnd [.regs, .hmp, .bdg] ∧
  (∀ q, Frame (.closeQueue q) [.regs, .queues, .csp]) ∧
  (∀ q, Frame (.openQueue q) [.regs, .queues, .csp]) ∧
  (∀ k, Frame (.stop k) [.regs, .ctxs, .csp]) ∧
  (∀ t, Frame (.armTrig t) [.regs, .syn, .csp]) ∧
  (∀ t, Frame (.disarmTrig t) [.regs, .syn, .csp]) ∧
  Frame .narrow [.regs, .wins, .csp] ∧
  Frame .revoke [.regs, .wins, .csp] ∧
  (∀ p, Frame (.dozeExit p) [.regs, .lanes, .links]) ∧
  (∀ p, Frame (.drainDone p) [.regs, .lanes, .links]) ∧
  (∀ k fill, Frame (.elasticSlip k fill) [.regs, .lanes, .links]) ∧
  (∀ w jtag, Frame (.owlScanStart w jtag) [.regs, .lanes, .csp]) ∧
  (∀ p errs test, Frame (.portOn p errs test) [.regs, .lanes, .csp]) ∧
  (∀ p, Frame (.recal p) [.regs, .lanes, .csp]) ∧
  (∀ p, Frame (.congSample p) [.regs, .links, .rtr]) ∧
  Frame .downHoldTmo [.regs, .links, .rtr] ∧
  Frame .drainDeadline [.regs, .links, .rtr] ∧
  (∀ p m, Frame (.sRekeyAck p m) [.regs, .links, .sea]) ∧
  (∀ p deep, Frame (.linkSleepCmd p deep) [.regs, .links, .csp]) ∧
  (∀ p, Frame (.reexch p) [.regs, .links, .csp]) ∧
  (∀ on, Frame (.hold on) [.regs, .rtr, .csp]) ∧
  (∀ n w, Frame (.shaperWrite n w) [.regs, .sch, .csp]) ∧
  Frame .shaperRefill [.regs, .sch, .yar] ∧
  (∀ side a, Frame (.entryLatchRead side a) [.regs, .csp, .acc]) ∧
  (∀ side, Frame (.ftimeLoRead side) [.regs, .csp, .acc]) ∧
  (∀ side o, Frame (.lowWordRead side o) [.regs, .csp, .acc]) ∧
  (∀ a count, Frame (.sbRead a count) [.regs, .csp, .acc]) ∧
  (∀ g, Frame (.destroy g) [.regs, .csp, .yar]) ∧
  Frame .napEntryDone [.regs, .pins, .csp, .fox] ∧
  (∀ p, Frame (.exchDone p) [.regs, .hhg, .lanes, .links]) ∧
  (∀ p, Frame (.sleepTmo p) [.regs, .hhg, .links, .rtr]) ∧
  (∀ p m, Frame (.verdict p m) [.regs, .hhg, .links, .rtr]) ∧
  (∀ p m, Frame (.wake p m) [.regs, .hhg, .links, .rtr]) ∧
  (∀ q head, Frame (.qCqdb q head) [.regs, .hmp, .queues, .csp]) ∧
  (∀ q tail, Frame (.qDb q tail) [.regs, .hmp, .queues, .csp]) ∧
  Frame .iload [.regs, .hmp, .mrt, .csp] ∧
  (∀ mrp, Frame (.create mrp) [.regs, .hmp, .wins, .csp]) ∧
  Frame .createListRead [.regs, .hmp, .wins, .freeIdx] ∧
  Frame .sessionIdle [.regs, .hmp, .sea, .bdg] ∧
  (∀ copy, Frame (.burrowRefresh copy) [.regs, .hmp, .burrow, .bdg]) ∧
  (∀ g, Frame (.descriptorCreate g) [.regs, .hmp, .csp, .yar]) ∧
  (∀ k, Frame (.start k) [.regs, .ctxs, .csp, .bdg]) ∧
  (∀ id, Frame (.busyBoundTmo id) [.regs, .xpt, .tgt, .out]) ∧
  (∀ stream, Frame (.streamHandshake stream) [.regs, .xpt, .out, .burrow]) ∧
  Frame .schedGrant [.regs, .out, .rtr, .sch] ∧
  (∀ p, Frame (.retrain p) [.regs, .lanes, .links, .csp]) ∧
  (∀ p m, Frame (.sRekey p m) [.regs, .links, .sea, .freeIdx]) ∧
  (∀ p m, Frame (.ammFragment p m) [.regs, .links, .bdg, .acc]) ∧
  (∀ len, Frame (.ammSend len) [.regs, .links, .bdg, .acc]) ∧
  Frame .congPeriod [.regs, .links, .bdg, .acc] ∧
  (∀ via m, Frame (.health via m) [.regs, .links, .bdg, .acc]) ∧
  Frame .attestReport [.regs, .sea, .csp, .freeIdx] ∧
  Frame .fwRestartDone [.regs, .sea, .bdg, .freeIdx] ∧
  (∀ n, Frame (.ootAllocate n) [.hmp, .xpt, .out, .freeIdx]) ∧
  (∀ sfdp clk delay, Frame (.porstRelease sfdp clk delay) [.regs, .pins, .burrow, .bdg, .freeIdx]) ∧
  (∀ ok, Frame (.flashEraseProgramDone ok) [.regs, .hhg, .hmp, .burrow, .bdg]) ∧
  (∀ p tx failed live, Frame (.widthSwitch p tx failed live) [.regs, .hhg, .lanes, .links, .yar]) ∧
  (∀ p m, Frame (.sFail p m) [.regs, .hhg, .links, .rtr, .sea]) ∧
  (∀ p m, Frame (.sHello p m) [.regs, .hhg, .links, .rtr, .sea]) ∧
  (∀ p m, Frame (.sKex p m) [.regs, .hhg, .links, .rtr, .sea]) ∧
  (∀ p m, Frame (.sleepNak p m) [.regs, .hhg, .links, .rtr, .csp]) ∧
  Frame .createImageRead [.regs, .hmp, .wins, .yar, .fox] ∧
  (∀ via m, Frame (.directive via m) [.regs, .hmp, .links, .sea, .bdg]) ∧
  (∀ obj addend, Frame (.synHostAdd obj addend) [.regs, .ctxs, .syn, .csp, .acc]) ∧
  (∀ p, Frame (.sync p) [.regs, .xpt, .out, .rtr, .csp]) ∧
  (∀ p, Frame (.syncAck p) [.regs, .xpt, .out, .rtr, .csp]) ∧
  (∀ p fw, Frame (.rekeyStart p fw) [.regs, .links, .sea, .csp, .freeIdx]) ∧
  (∀ q, Frame (.descNop q) [.hmp, .queues, .ctxs, .syn, .acc]) ∧
  Frame .collRetry [.hmp, .xpt, .out, .yar, .freeIdx] ∧
  Frame .refLoss [.regs, .time, .hhg, .links, .rtr, .sea, .freeIdx]

/-- Resets at the pins and the start of the block (R50 to R53, R518, R597, R598): what each of these commands does. The test
access port (R72 to R76): the instruction selected and what it shifts out, the fence of EXTEST, CLAMP and HIGHZ, the levels
of the pins under each, the segments that open. -/
def Obligations.PinResets : Prop :=
  (
    -- PORST_ASSERT and AON_POWER_ON_RESET: Tier 4; the fuses and the flash are kept, everything else is at reset (R50, R49)
    (∀ s, Gives .porstAssert s fun t =>
      t.pins.porst = true ∧ t.regs = [] ∧ t.queues = [] ∧ t.ctxs = [] ∧ t.xpt = {} ∧ t.links = [] ∧ t.yar = {} ∧ t.hhg = {} ∧
      t.sea.fuses = s.sea.fuses ∧ t.burrow.sectors = s.burrow.sectors ∧ t.build = s.build ∧ t.pending = s.pending) ∧
    (∀ s, Gives .aonPowerOnReset s fun t =>
      t.pins.porst = true ∧ t.regs = [] ∧ t.queues = [] ∧ t.ctxs = [] ∧ t.sea.fuses = s.sea.fuses ∧ t.pending = s.pending) ∧
    -- PORST_RELEASE: discovery finds a flash of 8 to 256 MiB, or the block waits for a recovery load (R65, R66, R597, R598)
    (∀ s sfdp (clk : Fin 5) (delay : Fin 4), s.pins.porst = true → Gives (.porstRelease sfdp clk delay) s fun t =>
      t.pins.porst = false ∧
      (∀ f, discover sfdp = some f → leAt sfdp 0 4 = 0x50444653 ∧ 8 ≤ f.mib ∧ f.mib ≤ 256 ∧ t.bdg.boot = .image ∧
        t.burrow.sectors = f.mib * 256 - 512 ∧
        t.burrow.part = some { f with divider := [3, 4, 6, 8, 16].getD clk 16, delay := delay }) ∧
      (discover sfdp = none → t.bdg.load = 1)) ∧
    -- IMAGE_CHECK: a good copy runs and the fabric PLL starts; with none, bring-up stops and awaits a load (R518, R597, R598)
    (∀ s m, s.bdg.boot = .image → goodCopy s = some m → s.pins.hrst = false → Gives .imageCheck s fun t =>
      t.bdg.boot = .bringup ∧ t.csp.pllEnd.isSome = true) ∧
    (∀ s, s.bdg.boot = .image → goodCopy s = none → Gives .imageCheck s fun t => t.bdg.boot = .none ∧ t.bdg.load = 1) ∧
    -- HRST_ASSERT: the block enters Tier 3 (R51); HRST_RELEASE: the level is high again (R51)
    (∀ s, s.pins.hrst = false → s.pins.porst = false → s.bdg.boot = .done → s.on BDG_STATUS.OUT_OF_SERVICE = false →
      s.power ≤ 1 → Gives .hrstAssert s fun t =>
        t.pins.hrst = true ∧ t.bdg.tier.map (·.n) = some 3 ∧ t.hmp.quiesce = true) ∧
    (∀ s, s.bdg.tier = none → exec .hrstRelease s = .next { s with pins := { s.pins with hrst := false } }) ∧
    -- HRST_RELEASE in a Tier 3 that waits for it: with fc running, the fabric is filled (R53, R605)
    (∀ s r, s.bdg.tier = some r → r.n = 3 → r.step = .hrst → s.on CSP_STATUS.FC_RUN = true → Gives .hrstRelease s fun t =>
      t.pins.hrst = false ∧ t.bdg.tier.map (fun r => (r.n, r.step)) = some (3, .fill) ∧ t.on HHG_INIT.BUSY = true)) ∧
  (
    -- JT_TRST, IDCODE, BYPASS, SAMPLE_PRELOAD: outside a test fence only the port's own registers change (R72, R73)
    (∀ s, s.pins.testFence = false → exec .jtTrst s = .next { s with pins := { s.pins with ir := 0x01, tdo := [] } }) ∧
    (∀ s, s.pins.testFence = false → Gives .idcode s fun t => t.jtag = .idcode ∧ t = { s with pins := { s.pins with ir := 0x01, tdo :=
      (if s.pins.porst then [] else (List.range 32).map (bitOf (9 * 2 ^ 28 + 0x4757 * 2 ^ 12 + s.build.manufacturer % 2048 * 2 + 1))) } }) ∧
    (∀ s (code : Byte) tdi, s.pins.testFence = false → code.toNat ∉ [0x00, 0x01, 0x02, 0x04, 0x05, 0x10] → Gives (.bypass code tdi) s fun t =>
      t.jtag = .bypass ∧ t = { s with pins := { s.pins with ir := code, bypass := tdi, tdo := if s.pins.porst then [] else [false] } }) ∧
    (∀ s (v : BitVec 26) (cells : BitVec 45), s.pins.testFence = false → Gives (.samplePreload v cells) s fun t =>
      t.jtag = .samplePreload ∧ t.pins.preload = cells.toNat ∧ t.pins.boundary / 2 ^ 19 = v.toNat ∧ t.pins.testFence = false ∧
      (s.pins.porst = false → t.pins.tdo = (List.range 45).map (bitOf t.pins.boundary))) ∧
    -- EXTEST, CLAMP, HIGHZ: the block is fenced, and the HMP quiesces (R75)
    (∀ s (v : BitVec 26) (cells : BitVec 45), s.pins.testFence = false → Gives (.extest v cells) s fun t =>
      t.jtag = .extest ∧ t.pins.testFence = true ∧ t.fenced = true ∧ t.hmp.quiesce = true ∧
      t.pins.preload = cells.toNat ∧ t.pins.boundary / 2 ^ 19 = v.toNat) ∧
    (∀ s, s.pins.testFence = false → Gives .clamp s fun t =>
      t.jtag = .clamp ∧ t.pins.testFence = true ∧ t.fenced = true ∧ t.hmp.quiesce = true ∧ t.pins.preload = s.pins.preload) ∧
    (∀ s, s.pins.testFence = false → Gives .highz s fun t =>
      t.jtag = .highz ∧ t.pins.testFence = true ∧ t.fenced = true ∧ t.hmp.quiesce = true) ∧
    -- the pins that face the board show the preloaded cells under EXTEST and CLAMP, and high impedance under HIGHZ (R72); PORST_n
    -- releases the three-state ones (R54)
    (∀ (s : State) x c, s.pins.porst = false → s.jtag = .extest ∨ s.jtag = .clamp → x.board = true → x.cell = some c →
      s.pin x = .of (bitOf s.pins.preload c)) ∧
    (∀ (s : State) x, s.pins.porst = false → s.jtag = .highz → x.board = true → s.pin x = .z) ∧
    (∀ s : State, s.pins.porst = true → s.pin .sbMiso = .z ∧ s.pin .jtTdo = .z ∧ s.pin .flCsN = .z ∧ s.pin .fcValid = .low ∧ s.pin .fltAlive = .low) ∧
    -- IJTAG_ACCESS: private segments stay closed while DEBUG_LOCK is blown and debug is not unlocked (R76)
    (∀ s, s.pins.testFence = false → Gives .ijtagAccess s fun t =>
      t.jtag = .ijtagAccess ∧ t.publicSegments = true ∧
      (t.privateSegments = true ↔ s.sea.fuses.debugLock = false ∨ s.on SEA_STATUS.DBG_UNLOCKED = true)))

/-- Monitors at the pins (R41, R42, R49, R62, R579): the report that each makes, and the level it drives. -/
def Obligations.PinMonitors : Prop :=
  -- REF_LOSS: F4 from source 0x08, and fabric time is invalid, which the next CAP of each link says (R41, R204)
  (∀ s, s.pins.porst = false → s.time.ref = true → exec .refLoss s =
    .next (report (capRefreshAll (({ s with time := { s.time with ref := false } } : State).wr BDG_TIME_STAT.VALID 0)) 0x08 4 0x01 0)) ∧
  -- REFCLK_RETURN: REFCLK runs again (R41, R579)
  (∀ s, s.time.ref = false → Gives .refclkReturn s fun t => t.time.ref = true ∧ t.time.units = s.time.units) ∧
  -- SUPPLY_FAULT: F4 from source 0x09 with the rail as its cause; a fabric rail always, a lane rail while some port is on (R49)
  (∀ s (rail : Fin 4), s.pins.porst = false → (rail.val < 2 ∨ ∃ p ∈ portsOf s, s.laneState p ≠ 0) →
    exec (.supplyFault rail) s = .next (report s 0x09 4 (rail.val + 1) 0)) ∧
  -- FABRIC_PLL_TMO: F3, and F4 at the third failure in a row; the PLL is started again (R42)
  (∀ s, s.due s.csp.pllEnd = true → Gives .fabricPllTmo s fun t =>
    t.csp.pllEnd = some (s.after 100000) ∧ t.csp.pllFails = min 3 (s.csp.pllFails + 1) ∧
    t.hhg.waiting = s.hhg.waiting ++ [⟨0x0B, if 2 ≤ s.csp.pllFails then 4 else 3, 0x01, min 3 (s.csp.pllFails + 1), false⟩]) ∧
  -- FABRIC_PLL_LOCK: outside a tier and a bring-up, FC_VALID rises (R42, R44)
  (∀ s e, s.csp.pllEnd = some e → s.now < e → s.bdg.tier = none → s.bdg.boot = .done → s.csp.leaving ≠ some 3 →
    Gives .fabricPllLock s fun t => t.pins.fcValid = true ∧ t.csp.pllEnd = none ∧ t.csp.pllFails = 0) ∧
  -- FLT_ALIVE_TOGGLE: an edge every 32 ac while the block is alive (R62)
  (∀ s, s.pins.porst = false → s.pins.fltStopped = false → s.pins.fltLast + 32 ≤ s.acs →
    exec .fltAliveToggle s = .next { s with pins := { s.pins with fltAlive := !s.pins.fltAlive, fltLast := s.acs } })

/-- Wire faults (R571): one record with the pair's source, cause 0xFE and the configured class; no further one until the pair
reads 01 or 10 again; a sample of 10 during the fault still latches an error. -/
def Obligations.WireFaults : Prop :=
  (∀ s (pair : Fin 27), s.pins.wireFaults.contains pair.val = false → Gives (.wireFault pair) s fun t =>
    t.hhg.waiting = s.hhg.waiting ++ [⟨pair, s.rd HHG_CFG.WIRE_CLASS, 0xFE, 0, true⟩] ∧
    t.pins.wireFaults.contains pair.val = true) ∧
  (∀ s (pair : Fin 27), s.pins.wireFaults.contains pair.val = true → exec (.wireFault pair) s = .next s) ∧
  (∀ s (pair : Fin 27), Gives (.herrNoError pair) s fun t =>
    t.pins.wireFaults.contains pair.val = false ∧ t.hhg = s.hhg ∧ SameBut [.pins] s t) ∧
  (∀ s (pair : Fin 8), Gives (.herrError pair) s fun t =>
    t.pins.wireFaults.contains pair.val = false ∧
    t.hhg.waiting = s.hhg.waiting ++ [⟨pair, s.rd (HHG_SRC_CFG.MIN_CLASS pair), 0x01, 0, false⟩])

/-- Tier 0 and the requests of Tiers 1 to 3 (R599 to R605, R614): what an accepted request begins, and the hold of a capture.
A request of a tier that R600, R602, R603, R610 or R619 refuses starts nothing: its status says why. -/
def Obligations.TierRequests : Prop :=
  (
    -- TIER0: the context is STOPPED at ENTRY with cleared registers and an empty FIFO (R601)
    (∀ s (k : Ctx), TablesOk s → s.fabricOpen = true → Gives (.tier0 k) s fun t =>
      (t.ctx k).state = .stopped ∧ (t.ctx k).pc = s.rd (MRT_CTX_CFG0.ENTRY k) ∧ (∀ i, (t.ctx k).gr i = 0) ∧
      (t.ctx k).fifo = [] ∧ ((t.ctx k).beq.all fun e => e.started) = true) ∧
    -- TIER1 of a Marten core: each of its 32 contexts has had its Tier 0 (R602)
    (∀ s (e : Fin 256), TablesOk s → e.val < 16 → tierRefused s 1 e = none → Gives (.tier1 e false) s fun t =>
      t.bdg.tier = none ∧ ∀ i < 32, (t.ctx (32 * e.val + i)).state = .stopped) ∧
    -- TIER1 of another engine: it is named in ENGINE; with CAPTURE and a HOLD the tier waits in its hold (R600, R614)
    (∀ s (e : Fin 256), TablesOk s → tierRefused s 1 e = none → s.rd BDG_CAP_CFG.HOLD ≠ 0 → Gives (.tier1 e true) s fun t =>
      t.bdg.tier.map (fun r => (r.n, r.step, r.engine)) = some (1, .hold, e.val)) ∧
    -- TIER2: the fabric quiesces, the router's packets are discarded (R603, R604)
    (∀ s, tierRefused s 2 0 = none → s.hhg.fillBad = false → Gives (.tier2 false) s fun t =>
      t.bdg.tier.map (fun r => (r.n, r.step)) = some (2, .quiesce) ∧ t.rtr.bufs = [] ∧ t.rtr.inject = [] ∧ t.rtr.deliver = [] ∧
      t.out = [] ∧ t.hmp.quiesce = true ∧ t.pins.trgReady = false) ∧
    (∀ s, TablesOk s → tierRefused s 2 0 = none → s.hhg.fillBad = false → s.rd BDG_CAP_CFG.HOLD ≠ 0 → Gives (.tier2 true) s fun t =>
      t.bdg.tier.map (fun r => (r.n, r.step)) = some (2, .hold)) ∧
    -- TIER3: the ports of the host close, the heartbeat is disarmed, the HMP quiesces; out of Nap or Hibernate it waits (R605, R53)
    (∀ s (c : Bool), TablesOk s → tierRefused s 3 0 = none → s.power ≤ 1 → Gives (.tier3 c) s fun t =>
      t.bdg.tier.map (fun r => (r.n, r.step)) = some (3, .quiesce) ∧ t.bdg.hbEnd = none ∧ t.hmp.quiesce = true ∧
      t.pins.trgReady = false) ∧
    (∀ s (c : Bool), TablesOk s → tierRefused s 3 0 = none → s.power = 2 ∨ s.power = 3 → Gives (.tier3 c) s fun t =>
      t.csp.tier3After = some (c, true, false) ∧ t.csp.leaving = some s.power)) ∧
  (
    (∀ s (e : Fin 256) c st, tierRefused s 1 e = some st → exec (.tier1 e c) s = .next
      (((s.wr BDG_TIER_CMD.ENGINE e).wr BDG_TIER_CMD.CAPTURE (b2n c)).wr BDG_TIER_CMD.STATUS st)) ∧
    (∀ s c st, tierRefused s 2 0 = some st → s.hhg.fillBad = false → exec (.tier2 c) s = .next
      (((s.wr BDG_TIER_CMD.ENGINE 0).wr BDG_TIER_CMD.CAPTURE (b2n c)).wr BDG_TIER_CMD.STATUS st)) ∧
    (∀ s c st, tierRefused s 3 0 = some st → exec (.tier3 c) s = .next
      (((s.wr BDG_TIER_CMD.ENGINE 0).wr BDG_TIER_CMD.CAPTURE (b2n c)).wr BDG_TIER_CMD.STATUS st)))

/-- The steps of a tier that is in progress (R52, R603 to R605, R614). -/
def Obligations.TierSteps : Prop :=
  -- QUIESCE_DONE in a Tier 3: FC_VALID falls; while HRST_n is low the block waits there (R52, R605)
  (∀ s r, s.hmp.quiesce = true → s.quiesceDone = true → s.bdg.tier = some r → r.n = 3 → r.step = .quiesce → s.pins.hrst = true →
    Gives .quiesceDone s fun t => t.pins.fcValid = false ∧ t.bdg.tier.map (·.step) = some .hrst) ∧
  (∀ s, s.hmp.quiesce = true → s.quiesceDone = true → s.bdg.tier = none → s.pins.testFence = true →
    exec .quiesceDone s = .next { s with pins := { s.pins with fcValid := false } }) ∧
  -- QUIESCE_DONE in a Tier 2: the links have 1 ms to drain (R603, R604)
  (∀ s r, s.hmp.quiesce = true → s.quiesceDone = true → s.bdg.tier = some r → r.n = 2 → r.step = .quiesce → r.mark = none →
    Gives .quiesceDone s fun t => t.bdg.tier = some { r with mark := some (s.after 1000000) }) ∧
  -- TIER2_LINKS_DRAINED: the fabric is cleared, every queue is CLOSED_BY_RESET, the fill runs (R603 steps 4 to 6)
  (∀ s r, s.bdg.tier = some r → r.n = 2 → r.step = .quiesce → s.quiesceDone = true → (List.range 12).all (linkDrained s) = true →
    Gives .tier2LinksDrained s fun t => t.bdg.tier.map (·.step) = some .fill ∧ t.ctxs = [] ∧ t.xpt = {} ∧ t.yar = {} ∧
      t.hhg.scrubPos = 0 ∧ ∀ q < 4096, (t.queue q).state = .closedByReset) ∧
  -- LINK_DRAIN_TMO: the link goes DOWN (R604)
  (∀ s (p : Port) r, TablesOk s → s.bdg.tier = some r → r.n = 2 → r.step = .quiesce → s.due r.mark = true →
    linkDrained s p = false → Gives (.linkDrainTmo p) s fun t => t.linkState p = 0) ∧
  -- TIER3_COMPLETE: the tier ends and FC_VALID is high (R605)
  (∀ s r, s.bdg.tier = some r → r.n = 3 → r.step = .train →
    ((List.range 12).filter fun p => s.portPresent p && s.rd (LAN_PORT_CFG.OFF p) = 0).all (portSettled s (r.mark.getD 0)) = true →
    Gives .tier3Complete s fun t => t.bdg.tier = none ∧ t.pins.fcValid = !s.pins.testFence) ∧
  -- CAPTURE_HOLD_TMO and RELEASE: a held Tier 2 goes on (R614)
  (∀ s r, s.bdg.tier = some r → r.n = 2 → r.step = .hold → s.due r.mark = true → Gives .captureHoldTmo s fun t =>
    t.bdg.tier.map (fun r => (r.n, r.step)) = some (2, .quiesce) ∧ t.hmp.quiesce = true) ∧
  (∀ s r, s.bdg.tier = some r → r.n = 2 → r.step = .hold → Gives .release s fun t =>
    t.bdg.tier.map (fun r => (r.n, r.step)) = some (2, .quiesce) ∧ t.hmp.quiesce = true) ∧
  -- INIT_FILL_DONE: at bring-up the board is configured and the boot ends; in a Tier 2 the tier ends (R584, R597 step 7, R603 step 7)
  (∀ s, TablesOk s → s.on HHG_INIT.BUSY = true → s.hhg.fillBad = false → s.bdg.tier = none → s.bdg.boot = .bringup →
    Gives .initFillDone s fun t => t.bdg.boot = .done ∧ t.rd HHG_INIT.BUSY = 0 ∧ t.rd HHG_INIT.DONE = 0x7FFF) ∧
  (∀ s r, s.on HHG_INIT.BUSY = true → s.hhg.fillBad = false → s.bdg.tier = some r → r.n = 2 → r.step = .fill →
    Gives .initFillDone s fun t => t.bdg.tier = none) ∧
  -- INIT_FILL_TMO: F3 from source 0x1A that names the group (R584)
  (∀ s (g : Fin 15), s.on HHG_INIT.BUSY = true → s.hhg.fillStart + ns 200000 ≤ s.now → Gives (.initFillTmo g) s fun t =>
    t.hhg.fillBad = true ∧ t.hhg.waiting = s.hhg.waiting ++ [⟨0x1A, 3, 0x01, g, false⟩])

/-- The fence, the heartbeat, the watchdog and the monitors (R606, R610 to R612, R616, R627, R631). -/
def Obligations.FenceAndWatches : Prop :=
  -- FENCE_SW: the source follows the command (R606)
  (∀ s on, TablesOk s → Gives (.fenceSw on) s fun t => t.on BDG_FENCE.SW = on ∧ (on = true → t.fenced = true)) ∧
  -- HOST_EN: a written 1 arms the heartbeat, a written 0 disarms it (R611)
  (∀ s, TablesOk s → Gives (.hostEn true) s fun t =>
    t.on BDG_HB_CFG.HOST_EN = true ∧ t.bdg.hbEnd = some (s.after (10000000 * s.rd BDG_HB_CFG.HOST_TMO))) ∧
  (∀ s, TablesOk s → Gives (.hostEn false) s fun t =>
    t.on BDG_HB_CFG.HOST_EN = false ∧ t.on BDG_HB_CFG.EXPIRED = false ∧ t.on BDG_FENCE.HB = false ∧ t.bdg.hbEnd = none) ∧
  -- HOST_HB: a new value clears EXPIRED and the fence, and starts the timer of an armed heartbeat; the old value does nothing (R611)
  (∀ s (v : Word), TablesOk s → v.toNat ≠ s.rd BDG_HOST_HB.VALUE → Gives (.hostHb v) s fun t =>
    t.rd BDG_HOST_HB.VALUE = v.toNat ∧ t.on BDG_HB_CFG.EXPIRED = false ∧ t.on BDG_FENCE.HB = false ∧
    (s.on BDG_HB_CFG.HOST_EN = true → t.bdg.hbEnd = some (s.after (10000000 * s.rd BDG_HB_CFG.HOST_TMO)))) ∧
  (∀ s (v : Word), v.toNat = s.rd BDG_HOST_HB.VALUE → exec (.hostHb v) s = .next s) ∧
  -- HOST_HB_EXPIRY: F3 and EXPIRED; with ACTION the block is fenced (R611)
  (∀ s, TablesOk s → s.due s.bdg.hbEnd = true → s.on BDG_HB_CFG.ACTION = false → Gives .hostHbExpiry s fun t =>
    t.bdg.hbEnd = none ∧ t.on BDG_HB_CFG.EXPIRED = true ∧ t.hhg.waiting = s.hhg.waiting ++ [⟨0x18, 3, 0x02, 0, false⟩]) ∧
  (∀ s, TablesOk s → s.due s.bdg.hbEnd = true → s.on BDG_HB_CFG.ACTION = true → Gives .hostHbExpiry s fun t =>
    t.bdg.hbEnd = none ∧ t.on BDG_FENCE.HB = true ∧ t.fenced = true) ∧
  -- WATCHDOG, 100 ms after firmware last serviced it: F3, the messages in the buffers are lost; FW_RESTART_DONE: an image runs, or
  -- none passes (R609, R610)
  (∀ s, TablesOk s → s.bdg.fwSince + ns 100000000 ≤ s.now → s.bdg.running ≠ [] → s.on BDG_STATUS.FW_RESTART = false → s.bdg.tier = none → Gives .watchdog s fun t =>
    t.bdg.inbox = [] ∧ t.bdg.parts = [] ∧ t.on BDG_STATUS.FW_RESTART = true ∧
    t.hhg.waiting = s.hhg.waiting ++ [⟨0x18, 3, 0x01, 0, false⟩]) ∧
  (∀ s m, s.on BDG_STATUS.FW_RESTART = true → goodCopy s = some m →
    exec .fwRestartDone s = .next (runImage (s.wr BDG_STATUS.FW_RESTART 0) m)) ∧
  (∀ s, s.on BDG_STATUS.FW_RESTART = true → goodCopy s = none →
    exec .fwRestartDone s = .next { s with bdg := { s.bdg with load := 1, running := [] } }) ∧
  -- MPU_VIOLATION of a component other than the core, 1 and 2, its first within a second: F3 that names it (R631)
  (∀ s (c : Fin 8), 3 ≤ c.val → s.bdg.running ≠ [] → s.on BDG_STATUS.FW_RESTART = false →
    (s.bdg.restarts.filter fun x => decide (s.now < x.2 + ns 1000000000)).countP (fun x => x.1 = c.val) < 2 →
    Gives (.mpuViolation c) s fun t => t.hhg.waiting = s.hhg.waiting ++ [⟨0x18, 3, 0x05, c, false⟩] ∧
      t.bdg.restarts = (s.bdg.restarts.filter fun x => decide (s.now < x.2 + ns 1000000000)) ++ [(c.val, s.now)]) ∧
  -- HANG: an engine holds an item that may advance, and none has for TMO: F3 that names the engine (R612)
  (∀ s (e : Fin 21) since, s.on BDG_HANG_CFG.ENABLE = true → engineHolds s e = true →
    s.bdg.seen.find? e.val = some (engineItems s e, since) → since + ns (1000000 * s.rd BDG_HANG_CFG.TMO) ≤ s.now → exec (.hang e) s =
    .next (report (s.wr BDG_HANG_STAT.HUNG (s.rd BDG_HANG_STAT.HUNG ||| 2 ^ e.val)) 0x18 3 0x03 e)) ∧
  -- SOLO_SLOT_END: the next suspect runs, or replay ends (R616)
  (∀ s r k rest, s.bdg.replay = some r → slotOver s r = true → r.rest = k :: rest → Gives .soloSlotEnd s fun t =>
    t.bdg.replay.map (fun x => (x.solo, x.rest)) = some (k, rest)) ∧
  (∀ s r, TablesOk s → s.bdg.replay = some r → slotOver s r = true → r.rest = [] → Gives .soloSlotEnd s fun t =>
    t.bdg.replay = none ∧ t.rd BDG_SUSPECT.STATE = 3) ∧
  -- HELD_RELEASE: a written 1 releases a held context (R616, R627)
  (∀ s (j : Fin 16) (w : Word), exec (.heldRelease j w) s = .next (s.wr (BDG_HELD.HELD j)
    (s.rd (BDG_HELD.HELD j) - (s.rd (BDG_HELD.HELD j) &&& w.toNat))))

/-- Hedgehog recognises events and records them (R569 to R576, R578). SCRUB_WORD (R581 to R583, R366): the scrubber's own
record, the effects of an uncorrectable word on the structures, and the record of the owning unit whose own access finds such
a word. -/
def Obligations.FaultEvents : Prop :=
  (
    -- FAULT_EVENT of class F2 that is not pending: a record at HEAD, the class pending (R573, R575)
    (∀ s e rest, TablesOk s → s.hhg.waiting = e :: rest → s.bdg.replay = none →
      max e.cls (s.rd (HHG_SRC_CFG.MIN_CLASS e.src)) = 2 → bitOf (s.rd HHG_PEND.PEND) 2 = false → headFree s = true →
      Gives .faultEvent s fun t => t.hhg.waiting = rest ∧ t.hhg.seq = (s.hhg.seq + 1) % 2 ^ 32 ∧
        t.hhg.log.get {} (s.rd HHG_STATUS.HEAD) = 
          { src := e.src, reported := e.cls, effective := 2, cause := e.cause, wire := e.wire, info := e.info,
            ftime := s.stampNs, seq := s.hhg.seq, lostBefore := s.hhg.lost, valid := true } ∧
        bitOf (t.rd HHG_PEND.PEND) 2 = true) ∧
    -- an effective F4 out of the NORMAL state: the safe state (R578)
    (∀ s e rest, TablesOk s → s.hhg.waiting = e :: rest → s.bdg.replay = none → s.normal = true →
      max e.cls (s.rd (HHG_SRC_CFG.MIN_CLASS e.src)) = 4 → Gives .faultEvent s fun t =>
        t.rd HHG_STATUS.STATE = 2 ∧ t.on BDG_FENCE.SAFE = true ∧ t.hmp.quiesce = true ∧ t.pins.fltStopped = true ∧ t.hhg.fatal.isSome = true) ∧
    -- HHG_PEND: the written classes are acknowledged (R574, R575)
    (∀ s (w : Word), TablesOk s → Gives (.hhgPend w) s fun t =>
      (∀ c < 5, bitOf (t.rd HHG_PEND.PEND) c = (bitOf (s.rd HHG_PEND.PEND) c && !bitOf w.toNat c)) ∧
      t.hhg.log = s.hhg.log.mapAll {} fun _ r => if r.valid && bitOf w.toNat r.effective then { r with acked := true } else r) ∧
    -- SELF_CHECK: one word an ac; a parity error names the word (R577)
    (∀ s, exec (.selfCheck 0) s = .next { s with hhg := { s.hhg with
      selfPtr := if s.hhg.selfPtr + 1 < selfWords.length then s.hhg.selfPtr + 1 else 0 } }) ∧
    (∀ s, selfWords.getD s.hhg.selfPtr 0 ≠ 0x20000 → Gives (.selfCheck 1) s fun t =>
      t.hhg.waiting = s.hhg.waiting ++ [⟨0x0A, if s.on HHG_CFG.SELF_SAFE then 4 else 3, 0x01, s.hhg.selfPtr, false⟩]) ∧
    (∀ s, Gives (.selfCheck 2) s fun t =>
      t.hhg.waiting = s.hhg.waiting ++ [⟨0x0A, if s.on HHG_CFG.SELF_SAFE then 4 else 3, 0x02, 0, false⟩]) ∧
    -- QUIET_EXPIRY: with AUTO_EXIT and RECOV_MAX 0 a Tier 3 begins, else the block stays in SAFE (R579)
    (∀ s, TablesOk s → s.rd HHG_STATUS.STATE = 2 → quietOver s = true → s.on HHG_CFG.AUTO_EXIT = true → s.rd HHG_CFG.RECOV_MAX = 0 →
      s.power ≤ 1 → Gives .quietExpiry s fun t => t.bdg.tier.map (fun r => (r.n, r.exit)) = some (3, true)) ∧
    (∀ s, s.rd HHG_STATUS.STATE = 2 → quietOver s = true → s.on HHG_CFG.AUTO_EXIT = false →
      exec .quietExpiry s = .next { s with hhg := { s.hhg with quietEnd := none } })) ∧
  (
    ∀ s (g : Fin 15) w, s.on HHG_SCRUB_CFG.ENABLE = true → s.power ≤ 1 → s.on CSP_STATUS.FC_RUN = true → s.initDone = true →
      s.hhg.scrubAt + 1000 * s.rd HHG_SCRUB_CFG.INTERVAL * 160000 / 1800 ≤ s.now →
      ¬(g.val = 0 ∧ s.yar.retired.contains (w / 8192) = true) → ¬(g.val = 5 ∧ s.fox.island = 0) →
      exec (.scrubWord g w 0) s = .next (scrubCount s) ∧
      exec (.scrubWord g w 1) s =
        .next (report ((scrubCount s).bump HHG_SCRUB_STAT.CORRECTED 1) 0x19 1 0x01 (g.val * 2 ^ 28 + w)) ∧
      (wordMarked s g w = true → exec (.scrubWord g w 2) s = .next (scrubCount s)) ∧
      (wordMarked s g w = false → Gives (.scrubWord g w 2) s fun t =>
        t.hhg.waiting = s.hhg.waiting ++ [⟨0x19, scrubClass.getD g 0, 0x02, g.val * 2 ^ 28 + w, false⟩] ∧
        (g.val = 6 → t.mrt.imemPoison.contains (w / 8) = true) ∧ (g.val = 9 → t.mrt.scratchPoison.contains w = true) ∧
        (g.val = 13 → 2 * w ∈ t.rtr.spoiled ∧ 2 * w + 1 ∈ t.rtr.spoiled)) ∧
      (g.val = 7 → s.objPoisoned w = false → Gives (.scrubWord g w 3) s fun t =>
        t.hhg.waiting = s.hhg.waiting ++ [⟨0x14, 2, 0x01, w, false⟩] ∧ t.syn.poison = s.syn.poison ++ [w] ∧
        t.rd SYN_POISON.LAST = w % 2 ^ 16))

/-- Block power states (R539 to R541, R560, R566): entries, exits and what ends them. Power levels and the token arbiter
(R544 to R557, R562). -/
def Obligations.PowerStates : Prop :=
  (
    -- NAP and HIBERNATE: an idle block begins the entry; one that is not NORMAL reports BUSY (R539, R560, R580)
    (∀ s, TablesOk s → s.on CSP_CMD.BUSY = false → s.power ≤ 1 → s.normal = true → s.bdg.tier = none → s.initDone = true →
      idleNow s = true → (portsOf s).all (canSleep s) = true → Gives .nap s fun t =>
        t.power = 4 ∧ t.csp.entering = some 2 ∧ t.on CSP_CMD.BUSY = true) ∧
    (∀ s, TablesOk s → s.on CSP_CMD.BUSY = false → s.power ≤ 1 → s.normal = true → s.bdg.tier = none → s.initDone = true →
      idleNow s = true → Gives .hibernate s fun t =>
        t.power = 4 ∧ t.csp.entering = some 3 ∧
        ∀ p ∈ portsOf s, s.linkState p ≠ 3 → s.linkState p ≠ 4 → t.laneState p = 0) ∧
    (∀ s, s.on CSP_CMD.BUSY = false → s.power ≤ 1 → s.normal = false →
      exec .nap s = .next (s.wr CSP_CMD.STATUS stBUSY) ∧ exec .hibernate s = .next (s.wr CSP_CMD.STATUS stBUSY)) ∧
    -- NAP_ENTRY_DONE, HIBERNATE_ENTRY_DONE: fc stops, FC_VALID falls, the state is entered (R539, R543)
    (∀ s, TablesOk s → s.power = 4 → s.csp.entering = some 2 → idleNow s = true → s.hmpQuiesced = true →
      (portsOf s).all (fun p => s.laneState p = 0 || s.laneState p = 8) = true → Gives .napEntryDone s fun t =>
        t.power = 2 ∧ t.on CSP_STATUS.FC_RUN = false ∧ t.pins.fcValid = false ∧ t.csp.entering = none ∧ t.on CSP_CMD.BUSY = false) ∧
    (∀ s, TablesOk s → s.power = 4 → s.csp.entering = some 3 → idleNow s = true → s.hmpQuiesced = true →
      (portsOf s).all (fun p => s.laneState p = 0) = true → Gives .hibernateEntryDone s fun t =>
        t.power = 3 ∧ t.on CSP_STATUS.FC_RUN = false ∧ t.pins.fcValid = false ∧ t.csp.entering = none ∧ t.ctxs = []) ∧
    -- RUN: a wake from Nap or Hibernate, the end of an entry (R541, R560)
    (∀ s, TablesOk s → s.power = 2 ∨ s.power = 3 → Gives .run s fun t =>
      t.power = 5 ∧ t.csp.leaving = some s.power ∧ t.csp.pllEnd = some (s.after 100000)) ∧
    (∀ s, TablesOk s → s.power = 4 → Gives .run s fun t =>
      t.power = 0 ∧ t.csp.entering = none ∧ t.on CSP_CMD.BUSY = false) ∧
    -- WAKE_AT: the timed wake (R541, R566)
    (∀ s, TablesOk s → s.power = 2 ∨ s.power = 3 → 0 < s.rd CSP_WAKE_AT_LO.AT_LO + 2 ^ 32 * s.rd CSP_WAKE_AT_HI.AT_HI →
      s.rd CSP_WAKE_AT_LO.AT_LO + 2 ^ 32 * s.rd CSP_WAKE_AT_HI.AT_HI ≤ s.nowNs → Gives .wakeAt s fun t =>
        t.power = 5 ∧ t.csp.leaving = some s.power ∧ t.rd CSP_WAKE_AT_LO.AT_LO = 0 ∧ t.rd CSP_WAKE_AT_HI.AT_HI = 0) ∧
    -- WAKE_DONE: an exit from Nap is complete (R539, R681)
    (∀ s, TablesOk s → s.power = 5 → s.on CSP_STATUS.FC_RUN = true → s.initDone = true → s.csp.leaving = some 2 →
      s.csp.tier3After = none → Gives .wakeDone s fun t =>
        t.power = 0 ∧ t.csp.leaving = none ∧ t.on CSP_EVT_PEND.WAKE_DONE = true ∧ t.on CSP_CMD.BUSY = false) ∧
    -- DROWSE_ENTRY, DROWSE_EXIT (R539, R541)
    (∀ s, s.power = 0 → s.on CSP_CFG.DROWSE_EN = true → s.normal = true → idleNow s = true → lanesRest s = true →
      s.csp.activeAt + ns (100 * s.rd CSP_TMR.DROWSE_IDLE) ≤ s.now → exec .drowseEntry s = .next (s.wr CSP_STATUS.STATE 1)) ∧
    (∀ s, s.power = 1 → exec .drowseExit s =
      .next { s.wr CSP_STATUS.STATE 0 with csp := { s.csp with activeAt := s.now } })) ∧
  (
    -- LOCAL_LEVEL and DIRECTIVE_APPLY: the level in force is the smaller of the two (R551, R552, R562)
    (∀ s (v : Fin 16), TablesOk s → Gives (.localLevel v) s fun t =>
      t.rd CSP_STATUS.LOCAL_LEVEL = v ∧ t.rd CSP_STATUS.LEVEL = min (s.rd CSP_STATUS.DIR_LEVEL) v) ∧
    (∀ s, TablesOk s → s.on CSP_DIR.PENDING = true → s.rd CSP_DIR_AT_LO.AT_LO + 2 ^ 32 * s.rd CSP_DIR_AT_HI.AT_HI ≤ s.nowNs →
      Gives .directiveApply s fun t => t.on CSP_DIR.PENDING = false ∧ t.rd CSP_STATUS.DIR_LEVEL = s.rd CSP_DIR.LEVEL ∧
        t.rd CSP_STATUS.LEVEL = min (s.rd CSP_DIR.LEVEL) (s.rd CSP_STATUS.LOCAL_LEVEL)) ∧
    -- TOKEN_PERIOD: the account of the period and the grants of its pool (R547, R548)
    (∀ s used, ns (1000 * (s.csp.period + 1)) ≤ s.now → Gives (.tokenPeriod used) s fun t =>
      t.csp.period = s.now / ns 1000 ∧
      t.csp.grants = grantTokens (ceilNow s - fixedDraw s - wakeReserve s - (s.csp.waking.map fun p => slotCost (s.link p).txWidth).sum)
        (requests s used)) ∧
    -- AUTO_DOZE at level 15, AUTO_DORMOUSE of an awake port: the port is commanded to sleep (R544)
    (∀ s (p : Port), s.on CSP_CFG.AUTO_DOZE = true → s.rd (CSP_PORT.MIN_STATE p) ≠ 2 → s.linkState p = 3 →
      portIdleFor s p (1000 * s.rd CSP_TMR.DOZE_IDLE) = true → s.rd CSP_STATUS.LEVEL = 15 →
      exec (.autoDoze p) s = .next (sleepCmd s p 1)) ∧
    (∀ s (p : Port), s.on CSP_CFG.AUTO_DOZE = true → s.rd (CSP_PORT.MIN_STATE p) = 0 → portWaits s p = false → s.linkState p = 3 →
      s.csp.deepen.contains p.val = true → s.rd CSP_STATUS.LEVEL = 15 → (sleepCmd s p 2).linkState p ≠ 3 → exec (.autoDormouse p) s =
        .next { sleepCmd s p 2 with csp := { (sleepCmd s p 2).csp with deepen := (sleepCmd s p 2).csp.deepen.erase p } }) ∧
    (∀ s (p : Port), s.on CSP_CFG.AUTO_DOZE = true → s.rd (CSP_PORT.MIN_STATE p) = 0 → s.linkState p = 5 →
      portIdleFor s p (100000 * s.rd CSP_TMR.DORM_IDLE) = true → exec (.autoDormouse p) s =
        .next (linkWake { s with csp := { s.csp with deepen := p :: s.csp.deepen.erase p } } p)) ∧
    -- RAMP_FORCE_OFF: a fall whose account still exceeds the ceiling after its grace: the port of the oldest unmet measure goes Off (R556)
    (∀ s c, s.csp.changed = some c → s.csp.forced = false → s.csp.rising = false → c + ns 100000 ≤ s.now →
      ((s.csp.measures.reverse).filterMap (unmet s)).dedup = [] →
      exec .rampForceOff s = .next { s with csp := { s.csp with forced := true } }) ∧
    (∀ s c p rest, TablesOk s → s.csp.changed = some c → s.csp.forced = false → s.csp.rising = false → c + ns 100000 ≤ s.now →
      ((s.csp.measures.reverse).filterMap (unmet s)).dedup = p :: rest → p < 12 →
      accountHigh { s with csp := { s.csp with forced := true } } = true → Gives .rampForceOff s fun t =>
        t.laneState p = 0 ∧ t.on CSP_EVT_PEND.PORT_FORCED_OFF = true ∧ t.on CSP_EVT_PEND.LEVEL_LATE = true))

/-- The sideband's frames (R652 to R654), while the always-on slice runs. -/
def Obligations.SidebandFrames : Prop :=
  ∀ s, s.pins.porst = false →
    -- WRITE: word i is written at the address + 4i; READ: the words and the first failing status go to the read buffer
    (∀ (a : BitVec 24) w, a.toNat % 4 = 0 → exec (.sbWrite a [w]) s = .next (writeAperture s .sideband a.toNat w.toNat).1) ∧
    (∀ (a : BitVec 24) ws, a.toNat % 4 ≠ 0 → exec (.sbWrite a ws) s = .next (s.bump SB_ERR.BADOP 1)) ∧
    (∀ (a : BitVec 24), a.toNat % 4 = 0 → Gives (.sbRead a 1) s fun t =>
      t.acc.rdBuf = [(readWord s .sideband a.toNat).2.1] ∧ t.acc.rdFail = (readWord s .sideband a.toNat).2.2 % 16) ∧
    (∀ (a : BitVec 24) (n : Byte), a.toNat % 4 ≠ 0 ∨ n = 0 ∨ 64 < n.toNat → exec (.sbRead a n) s = .next (s.bump SB_ERR.BADOP 1)) ∧
    -- STATUS, READ_DATA, AMM_GET: what is driven on SB_MISO
    exec .sbStatus s = .next { s with acc := { s.acc with miso := [sbStatusWord s] } } ∧
    (∀ (first : Fin 64) n, first.val + n ≤ 64 → exec (.sbReadData first n) s =
      .next { s with acc := { s.acc with miso := (List.range n).map fun i => s.acc.rdBuf.getD (first.val + i) 0 } }) ∧
    (∀ (o : Fin 4096) n, o.val % 4 = 0 → o.val + 4 * n ≤ 4096 → Gives (.ammGet o n) s fun t => SameBut [.acc] s t ∧
      t.acc.miso = (List.range n).map fun i => BitVec.ofNat 32 (leAt (s.acc.ammOut.headD []) (o.val + 4 * i) 4)) ∧
    -- AMM_PUT, AMM_SEND, AMM_DONE: the inbound and the outbound buffer
    (∀ (o : Fin 4096) ws, o.val % 4 = 0 → o.val + 4 * ws.length ≤ 4096 → exec (.ammPut o ws) s =
      .next { s with acc := { s.acc with ammIn := putBytes s.acc.ammIn o (wordsBytes ws) } }) ∧
    (∀ n, 48 ≤ n → n ≤ 4096 → exec (.ammSend n) s =
      .next (ammTake s 15 ((List.range n).map fun i => s.acc.ammIn.get 0 i))) ∧
    (∀ n, n < 48 ∨ 4096 < n → exec (.ammSend n) s = .next (s.bump SB_ERR.BADOP 1)) ∧
    exec .ammDone s = .next { s with acc := { s.acc with ammOut := s.acc.ammOut.drop 1 } } ∧
    -- LOAD_PUT, LOAD_START: only while no firmware runs (R598)
    (∀ o ws, mayLoad s = true → o % 4 = 0 → o + 4 * ws.length ≤ 459008 → o < 459008 → exec (.loadPut o ws) s =
      .next { s with bdg := { s.bdg with image := putBytes s.bdg.image o (wordsBytes ws) } }) ∧
    (∀ o ws, mayLoad s = false → exec (.loadPut o ws) s = .next (s.bump SB_ERR.BADOP 1)) ∧
    (mayLoad s = true → imageOk s (loadedImage s) = true → s.on BDG_STATUS.FW_RESTART = false →
      exec .loadStart s = .next (bringUp s (loadedImage s) false)) ∧
    (mayLoad s = true → imageOk s (loadedImage s) = false → exec .loadStart s = .next { s with bdg := { s.bdg with load := 3 } }) ∧
    (mayLoad s = false → exec .loadStart s = .next (s.bump SB_ERR.BADOP 1)) ∧
    -- a bad frame is counted by its kind (R654)
    exec (.sbBadFrame 0) s = .next (s.bump SB_ERR.SHORT 1) ∧ exec (.sbBadFrame 1) s = .next (s.bump SB_ERR.PARTIAL 1) ∧
    exec (.sbBadFrame 2) s = .next (s.bump SB_ERR.EXCESS 1) ∧ exec (.sbBadFrame 3) s = .next (s.bump SB_ERR.BADOP 1)

/-- Accesses of the aperture by MRP (R9, R21, R128 to R130, R361, R646, R677), while PORST_n is high. -/
def Obligations.ApertureAccess : Prop :=
  ∀ s, s.pins.porst = false →
    -- REGISTER_WRITE: the answer carries the status; a region that does not answer takes nothing (R21, R129)
    (∀ (a : BitVec 24) w, Gives (.registerWrite false a w) s fun t =>
      t.acc.pdata = 0 ∧ t.acc.pstat = (writeAperture s .mrp (a.toNat / 4 * 4) w.toNat).2 % 16) ∧
    (∀ (a : BitVec 24) w, regionStatus s (a.toNat / 4 * 4) ≠ stOK → Gives (.registerWrite false a w) s fun t =>
      t.acc.pstat = regionStatus s (a.toNat / 4 * 4) % 16 ∧ SameBut [.acc] s t) ∧
    (∀ (a : BitVec 24) w, a.toNat % 4 ≠ 0 → exec (.registerWrite true a w) s = .next (s.bump SB_ERR.BADOP 1)) ∧
    (∀ (a : BitVec 24) w, a.toNat % 4 = 0 → exec (.registerWrite true a w) s = .next (writeAperture s .sideband a.toNat w.toNat).1) ∧
    -- the interrupt mask takes a write of any value (R9, R59)
    (∀ w : Word, TablesOk s → Gives (.registerWrite false 0x44#24 w) s fun t =>
      t.acc.pstat = 0 ∧ t.rd IRQ_LINE_MASK.ENABLE = w.toNat % 2 ^ 16) ∧
    -- LOW_WORD_READ and OBJECT_WINDOW_WRITE of a synchronisation object (R361)
    (∀ o : ObjNum, s.fabricOpen = true → Gives (.lowWordRead false o) s fun t =>
      t.acc.pdata = (readWord s .mrp (0x200000 + 8 * o.val)).2.1 ∧ t.acc.pstat = (readWord s .mrp (0x200000 + 8 * o.val)).2.2 % 16) ∧
    (∀ (o : ObjNum) high w, s.fabricOpen = true → Gives (.objectWindowWrite false o high w) s fun t =>
      t.acc.pdata = 0 ∧ t.acc.pstat = (writeAperture s .mrp (0x200000 + 8 * o.val + 4 * b2n high) w.toNat).2 % 16) ∧
    -- FTIME_LO_READ: the low half is answered and the high half is latched (R646)
    Gives (.ftimeLoRead false) s (fun t =>
      t.acc.pdata = BitVec.ofNat 32 s.nowNs ∧ t.acc.pstat = 0 ∧ t.acc.mrp.ftime = some (wordAt s.nowNs 1)) ∧
    -- ENTRY_LATCH_READ: a read of any word; of a region that does not answer, zero and its status (R21, R677)
    (∀ a : BitVec 24, Gives (.entryLatchRead false a) s fun t =>
      t.acc.pdata = (readWord s .mrp (a.toNat / 4 * 4)).2.1 ∧ t.acc.pstat = (readWord s .mrp (a.toNat / 4 * 4)).2.2 % 16 ∧
      (regionStatus s (a.toNat / 4 * 4) ≠ stOK → t.acc.pdata = 0 ∧ t.acc.pstat = regionStatus s (a.toNat / 4 * 4) % 16 ∧
        SameBut [.acc] s t)) ∧
    -- MRP_TIMEOUT: the access answers BUSY, and F2 names its address (R130)
    (∀ (a : BitVec 24) w, Gives (.mrpTimeout false a w) s fun t =>
      t.acc.pstat = stBUSY ∧ t.acc.pdata = 0 ∧ t.hhg.waiting = s.hhg.waiting ++ [⟨0x12, 2, 0x03, a.toNat / 4, false⟩])

/-- While the regions of the fabric do not answer, a command that is a write to one of their registers, and a packet for the
units, changes nothing (R10, R21). -/
def Obligations.FabricClosed : Prop :=
  ∀ s, s.fabricOpen = false →
    (∀ q bytes, exec (.oppPush q bytes) s = .next s) ∧ (∀ q, exec (.openQueue q) s = .next s) ∧
    (∀ q, exec (.closeQueue q) s = .next s) ∧ (∀ q tail, exec (.qDb q tail) s = .next s) ∧
    (∀ q head, exec (.qCqdb q head) s = .next s) ∧ (∀ k obj late, exec (.trgToken k obj late) s = .next s) ∧
    (∀ w, exec (.trgCfgWrite w) s = .next s) ∧ (∀ p errs test, exec (.portOn p errs test) s = .next s) ∧
    (∀ p, exec (.portOff p) s = .next s) ∧ (∀ p, exec (.recal p) s = .next s) ∧
    (∀ w, exec (.owlScanStart w false) s = .next s) ∧ (∀ p, exec (.reexch p) s = .next s) ∧
    (∀ p, exec (.retrain p) s = .next s) ∧ (∀ p deep, exec (.linkSleepCmd p deep) s = .next s) ∧
    (∀ k, exec (.start k) s = .next s) ∧ (∀ k, exec (.stop k) s = .next s) ∧ exec .iload s = .next s ∧
    (∀ t, exec (.armTrig t) s = .next s) ∧ (∀ t, exec (.disarmTrig t) s = .next s) ∧
    (∀ obj addend, exec (.synHostAdd obj addend) s = .next s) ∧ exec .attestReport s = .next s ∧
    exec .flipArm s = .next s ∧ (∀ on, exec (.hold on) s = .next s) ∧ (∀ n w, exec (.shaperWrite n w) s = .next s) ∧
    (∀ p, exec (.putPacket p) s = .next s) ∧ (∀ p, exec (.getPacket p) s = .next s) ∧
    (∀ p, exec (.atomicPacket p) s = .next s) ∧ (∀ p, exec (.signalPacket p) s = .next s) ∧
    (∀ p, exec (.notice p) s = .next s) ∧ (∀ p, exec (.sync p) s = .next s) ∧ (∀ p, exec (.syncAck p) s = .next s) ∧
    exec .narrow s = .next s ∧ exec .revoke s = .next s ∧ (∀ k, exec (.tier0 k) s = .next s) ∧
    (∀ p, exec (.ack p) s = .next s) ∧ (∀ p, exec (.data p) s = .next s) ∧ (∀ p, exec (.result p) s = .next s) ∧
    (∀ p, exec (.resync p) s = .next s) ∧ (∀ p, exec (.routerNak p) s = .next s) ∧ (∀ p, exec (.ready p) s = .next s) ∧
    (∀ p, exec (.part p) s = .next s) ∧ (∀ p, exec (.bcast p) s = .next s) ∧ (∀ p, exec (.a2aPacket p) s = .next s) ∧
    (∀ p, exec (.count p) s = .next s) ∧ (∀ p, exec (.fail p) s = .next s) ∧ (∀ p, exec (.abort p) s = .next s) ∧
    (∀ g, exec (.descriptorCreate g) s = .next s) ∧ (∀ g, exec (.destroy g) s = .next s) ∧
    (∀ g mrp, exec (.cancel g mrp) s = .next s) ∧ (∀ p m, exec (.sval p m) s = .next s) ∧
    (∀ p m, exec (.sfail p m) s = .next s) ∧ (∀ u, exec (.updateCommit u) s = .next s) ∧
    (∀ n, exec (.stageCommit n) s = .next s)

/-- The Host Memory Port (R84 to R97): commands and beats transfer, responses join their transfers, tags time out. -/
def Obligations.HostMemoryPort : Prop :=
  ∀ s (c : Chan) h, h = s.chan c →
    -- HMP_COMMAND_TRANSFER: the front command takes a free tag; the front data beat goes once its command is presented (R85, R86)
    (∀ r rest, h.cmds = r :: rest → s.hmp.quiesce = false ∨ h.up = true → h.outstanding < s.rd HMP_CFG.TAG_LIMIT → h.freeTags s.now ≠ [] →
      (r.write = true → h.wleft = 0) →
      Gives (.hmpCommandTransfer c false) s fun t => SameBut [.hmp, .freeIdx] s t ∧ ∃ g ∈ h.freeTags s.now,
        t.chan c = { h with
          cmds := rest, tags := h.tags.put g ⟨r, s.now, 0, false⟩, up := false,
          wleft := if r.write then linesOf r.addr r.len - h.early else h.wleft,
          early := if r.write then 0 else h.early }) ∧
    -- a command that is not presented waits: in a quiesce, with every tag in use, or a write behind the beats of the one before it
    (h.up = false → h.early = 0 → s.hmp.quiesce = true ∨ s.rd HMP_CFG.TAG_LIMIT ≤ h.outstanding ∨ h.freeTags s.now = [] ∨
        (0 < h.wleft ∧ h.cmds.head?.any (·.write) = true) → exec (.hmpCommandTransfer c false) s = .next s) ∧
    -- a data beat of the write whose command was taken, or of the one that is presented (R86)
    (h.wleft ≠ 0 → exec (.hmpCommandTransfer c true) s = .next (s.setChan c { h with wleft := h.wleft - 1 })) ∧
    (∀ r rest, h.wleft = 0 → h.cmds = r :: rest → r.write = true → s.presents h = true → h.early < linesOf r.addr r.len →
      exec (.hmpCommandTransfer c true) s = .next (s.setChan c { h with early := h.early + 1 })) ∧
    -- HMP_READ_BEAT and HMP_WRITE_RESPONSE: a tag in use gives its piece to its
    -- transfer, whose end then acts (R88, R89, R92); one in quarantine is discarded (R94)
    (∀ (tag : Fin 2048) line (stat : Fin 4) last g u, h.tags.find? tag = some g → g.quarantined = false → g.req.write = false →
      u = (countStat s c stat).setChan c { h with
        tags := if last then h.tags.drop tag else h.tags.put tag { g with beats := g.beats + 1 } } →
      (∀ v, xferPiece u g.req.xfer (beatPiece g.req g.beats line stat) last = (v, none) →
        exec (.hmpReadBeat c tag line stat last) s = .next (mgmtDone (tierStep v))) ∧
      (∀ v x, xferPiece u g.req.xfer (beatPiece g.req g.beats line stat) last = (v, some x) →
        exec (.hmpReadBeat c tag line stat last) s = .next (mgmtDone (tierStep (xferDone v x))))) ∧
    (∀ (tag : Fin 2048) (stat : Fin 4) g u, h.tags.find? tag = some g → g.quarantined = false → g.req.write = true →
      u = (countStat s c stat).setChan c { h with tags := h.tags.drop tag } →
      (∀ v, xferPiece u g.req.xfer ⟨g.req.off, g.req.bytes, stat⟩ true = (v, none) →
        exec (.hmpWriteResponse c tag stat) s = .next (mgmtDone (tierStep v))) ∧
      (∀ v x, xferPiece u g.req.xfer ⟨g.req.off, g.req.bytes, stat⟩ true = (v, some x) →
        exec (.hmpWriteResponse c tag stat) s = .next (mgmtDone (tierStep (xferDone v x))))) ∧
    (∀ (tag : Fin 2048) (stat : Fin 4) line g, h.tags.find? tag = some g → g.quarantined = true → exec (.hmpWriteResponse c tag stat) s =
      .next (mgmtDone (tierStep ((s.setChan c { h with tags := h.tags.drop tag }).bump (HMP_CH_ERR.TMO c) 1))) ∧
      exec (.hmpReadBeat c tag line stat true) s =
        .next (mgmtDone (tierStep ((s.setChan c { h with tags := h.tags.drop tag }).bump (HMP_CH_ERR.TMO c) 1))) ∧
      exec (.hmpReadBeat c tag line stat false) s = .next (mgmtDone (tierStep s))) ∧
    -- HMP_RESP_TMO: the tag goes to quarantine with F2, and its request ends with TIMEOUT (R94)
    (∀ (tag : Fin 2048) g v x, h.tags.find? tag = some g → g.quarantined = false → g.since + s.respTmo < s.now →
      xferPiece (report (s.setChan c { h with tags := h.tags.put tag { g with quarantined := true } }) 0x11 2 0x02 c)
        g.req.xfer ⟨g.req.off, List.replicate g.req.len 0, 4⟩ true = (v, some x) →
      x.status = stTIMEOUT ∧ exec (.hmpRespTmo c tag) s = .next (mgmtDone (tierStep (xferDone v x)))) ∧
    -- QUARANTINE_TAG_FREE: the tags may be issued again (R94)
    (h.holdUntil ≤ s.now → exec (.quarantineTagFree c) s = .next (s.setChan c { h with held := [], holdUntil := 0 }))

/-- A response that names a tag not in use (R93): it is discarded, STRAY of its channel counts it, and F2 goes to Hedgehog.
`u` is the state before what the other units do in the same step. -/
def Obligations.StrayResponses : Prop :=
  ∀ s (c : Chan) (tag : Fin 2048) line stat last, TablesOk s → (s.chan c).tags.find? tag = none →
    ∃ u, exec (.hmpReadBeat c tag line stat last) s = .next (mgmtDone (tierStep u)) ∧
      exec (.hmpWriteResponse c tag stat) s = .next (mgmtDone (tierStep u)) ∧
      u.rd (HMP_CH_ERR.STRAY c) = min (s.rd (HMP_CH_ERR.STRAY c) + 1) 255 ∧
      u.hhg.waiting = s.hhg.waiting ++ [⟨0x11, 2, 0x01, c, false⟩] ∧ SameBut [.regs, .hhg] s u ∧
      (∀ a, a ≠ (HMP_CH_ERR.STRAY c).addr → u.reg a = s.reg a)

/-- OPP_PUSH (R100 to R102): what becomes of a descriptor; `u` is the block awake, `v` the queue. Completion entries and the
state of a queue in error (R25, R92, R104, R118, R119). -/
def Obligations.PushesAndCompletions : Prop :=
  (
    ∀ s u (q : QNum) (b : List Byte) v d s1, TablesOk s → s.fabricOpen = true → u = drowseExit s → v = u.queue q →
      d = descOf b v.accepted → s1 = u.setQueue q { v with accepted := (v.accepted + 1) % 2 ^ 32 } →
      (u.oppReady = false → exec (.oppPush q b) s = .next u) ∧
      (u.oppReady = true →
        (v.state ≠ .opened ∨ v.push = false → exec (.oppPush q b) s = .next (u.bump OPP_ERR.DISCARD_CNT 1)) ∧
        (v.state = .opened → v.push = true →
          (v.full = true → 64 ≤ v.fifoUse → exec (.oppPush q b) s = .next (u.bump OPP_ERR.DISCARD_CNT 1)) ∧
          (v.full = false ∨ v.fifoUse < 64 →
            -- fenced, beyond the quota, malformed: it completes at once with its status
            (s.fenced = true → exec (.oppPush q b) s = .next (qComplete s1 q (d.cplOf stFENCED 0 0 true))) ∧
            (s.fenced = false → 64 ≤ v.fifoUse → exec (.oppPush q b) s =
              .next (qComplete (s1.bump OPP_ERR.QUOTA_CNT 1) q (d.cplOf stQUOTA 0 0 true))) ∧
            (∀ st, s.fenced = false → v.fifoUse < 64 → d.malformed = some st →
              exec (.oppPush q b) s = .next (qComplete s1 q (d.cplOf st 0 0 true))) ∧
            -- else it waits in the queue's FIFO, and nothing else changes
            (d.malformed = none → s.fenced = false → v.fifoUse < 64 → Gives (.oppPush q b) s fun t =>
              t.queue q = { v with accepted := (v.accepted + 1) % 2 ^ 32, waiting := v.waiting ++ [{ d with seq := s.mrt.descSeq }] } ∧
              t.mrt = { s.mrt with descSeq := s.mrt.descSeq + 1 } ∧
              (∀ q', q' ≠ q.val → t.queue q' = s.queue q') ∧ SameBut [.queues, .regs, .csp, .mrt] s t))))) ∧
  (
    -- an entry is written at CPL_TAIL with its PHASE; CPL_TAIL advances, and PHASE turns at the end of the ring
    (∀ s q c v, TablesOk s → v = s.queue q → bitOf c.flags 0 = true → v.state = .opened → v.noEntries = false → v.full = false →
      v.held = [] → ∀ t, t = qComplete s q c →
        (t.queue q).cplTail = (if v.cplTail + 1 = v.size then 0 else v.cplTail + 1) ∧
        (t.queue q).phase = (if v.cplTail + 1 = v.size then !v.phase else v.phase) ∧
        (t.queue q).unconsumed.length = v.unconsumed.length + 1 ∧ (t.queue q).writing = v.writing + 1 ∧
        t = hmpWrite (s.setQueue q (t.queue q)) 4 (v.cpl + 32 * v.cplTail) (cplBytes q c v.phase s.nowNs)
          (.cplEntry q (cplCnt s v c) c.imm)) ∧
    -- while the ring is full it is held, in order
    (∀ s q c v, v = s.queue q → bitOf c.flags 0 = true → v.state = .opened → v.noEntries = false → v.full = true →
      qComplete s q c = s.setQueue q { v with held := v.held ++ [c] }) ∧
    -- without FLAGS.CPL, or in ERROR, only the CNT add is made
    (∀ s q c, (bitOf c.flags 0 = false ∧ c.imm = false) ∨ (s.queue q).state = .error →
      qComplete s q c = applyCnt s (cplCnt s (s.queue q) c)) ∧
    -- the entry is 32 bytes: USER_TAG, queue, status, phase, index, bytes, result, fabric time
    (∀ q c ph f, (cplBytes q c ph f).length = 32 ∧ leAt (cplBytes q c ph f) 0 4 = c.userTag % 2 ^ 32 ∧
      leAt (cplBytes q c ph f) 4 2 = q % 2 ^ 16 ∧ leAt (cplBytes q c ph f) 6 1 = c.status % 256 ∧
      leAt (cplBytes q c ph f) 8 4 = c.index % 2 ^ 32 ∧ leAt (cplBytes q c ph f) 24 8 = f % 2 ^ 64) ∧
    -- an entry's write that failed: the CNT add stands, the queue is in ERROR, F2 names it (R92, R119)
    (∀ s q o, TablesOk s → (s.queue q).noEntries = false → (s.queue q).held = [] → ∀ t, t = cplWritten s q o false →
      (t.queue q).state = .error ∧ t.hhg.waiting = s.hhg.waiting ++ [⟨0x11, 2, 0x03, q, false⟩]))

/-- The queue commands OPEN, CLOSE, the doorbells and the end of a CLOSE (R106, R107, R114 to R119). -/
def Obligations.QueueCommands : Prop :=
  ∀ s (q : QNum) v, TablesOk s → v = s.queue q →
    -- OPEN: its checks in order; a queue that opens starts from the beginning (R114)
    (s.fabricOpen = true → s.on BDG_STATUS.FW_RESTART = false → openStatus s v = stOK → Gives (.openQueue q) s fun t =>
      t.queue q = { v with
        state := .opened, cmdStatus := stOK, head := 0, tail := 0, cplTail := 0, phase := true, unconsumed := [], waiting := [],
        accepted := 0, fetching := false, started := [], held := [], writing := 0, noEntries := false } ∧
      SameBut [.queues, .regs, .csp] s t) ∧
    (s.fabricOpen = true → s.on BDG_STATUS.FW_RESTART = false → openStatus s v ≠ stOK → Gives (.openQueue q) s fun t =>
      t.queue q = { v with cmdStatus := openStatus s v }) ∧
    -- CLOSE: an open queue closes as its descriptors complete; one in ERROR discards what has not started (R119)
    (s.fabricOpen = true → s.on BDG_STATUS.FW_RESTART = false → v.state = .opened → Gives (.closeQueue q) s fun t =>
      t.queue q = { v with state := .closing, cmdStatus := stOK }) ∧
    (s.fabricOpen = true → s.on BDG_STATUS.FW_RESTART = false → v.state = .error → Gives (.closeQueue q) s fun t =>
      t.queue q = { v with state := .closing, cmdStatus := stOK, waiting := [], noEntries := true }) ∧
    -- while firmware restarts, both answer BUSY (R610)
    (s.fabricOpen = true → s.on BDG_STATUS.FW_RESTART = true →
      (Gives (.openQueue q) s fun t => t.queue q = { v with cmdStatus := stBUSY }) ∧
      (Gives (.closeQueue q) s fun t => t.queue q = { v with cmdStatus := stBUSY })) ∧
    -- QUEUE_CLOSED: a closing queue with nothing left is closed (R119)
    (v.state = .closing → v.drained = true →
      exec (.queueClosed q) s = .next (s.setQueue q { v with state := .closed, noEntries := false })) ∧
    (v.state = .closing → v.drained = false → exec (.queueClosed q) s = .next s) ∧
    -- Q_DB: the tail of an open ring queue moves, and a fetch begins; any other doorbell is discarded (R116, R117)
    (∀ tail : BitVec 16, s.fabricOpen = true → tail.toNat < v.size → v.state = .opened → v.push = false →
      Gives (.qDb q tail) s fun t => (t.queue q).tail = tail.toNat ∧ (t.queue q).head = v.head ∧
        ((t.queue q).fetching = (v.fetching || (decide (v.head ≠ tail.toNat) && decide ((s.ctx v.context).state ≠ .faulted)))) ∧ SameBut [.queues, .hmp, .regs, .csp] s t) ∧
    (∀ tail : BitVec 16, s.fabricOpen = true → v.size ≤ tail.toNat ∨ v.state ≠ .opened ∨ v.push = true →
      Gives (.qDb q tail) s fun t => t.queues = s.queues ∧
        t.rd OPP_ERR.DISCARD_CNT = min (s.rd OPP_ERR.DISCARD_CNT + 1) (2 ^ 16 - 1)) ∧
    -- Q_CQDB: what has been consumed leaves the ring (R116, R118)
    (∀ head : BitVec 16, s.fabricOpen = true → head.toNat < v.size → v.isClosed = false → v.held = [] →
      (v.cplTail + v.size - head.toNat) % v.size ≤ v.unconsumed.length → Gives (.qCqdb q head) s fun t =>
        (t.queue q).unconsumed.length = (v.cplTail + v.size - head.toNat) % v.size ∧ SameBut [.queues, .regs, .csp] s t) ∧
    (∀ head : BitVec 16, s.fabricOpen = true →
      v.size ≤ head.toNat ∨ v.isClosed = true ∨ v.unconsumed.length < (v.cplTail + v.size - head.toNat) % v.size →
      Gives (.qCqdb q head) s fun t => t.queues = s.queues ∧
        t.rd OPP_ERR.DISCARD_CNT = min (s.rd OPP_ERR.DISCARD_CNT + 1) (2 ^ 16 - 1)) ∧
    -- DESC_FETCH: HEAD moves past what was read, and each descriptor joins the queue or completes at once (R117); while the context
    -- is FAULTED the read waits (R323); a queue that CLOSE took out of ERROR discards what was read, and counts it (R119)
    (∀ x, s.hmp.returned.find? (fun x => match x.k with | .descFetch q' _ _ => q' = q.val | _ => false) = some x →
      (s.ctx v.context).state = .faulted → v.isClosed = false → v.noEntries = false → exec (.descFetch q) s = .next s) ∧
    (∀ x first n, s.hmp.returned.find? (fun x => match x.k with | .descFetch q' _ _ => q' = q.val | _ => false) = some x →
      x.k = .descFetch q.val first n → v.noEntries = true → exec (.descFetch q) s = .next ((({ s with hmp :=
        { s.hmp with returned := s.hmp.returned.erase x } } : State).setQueue q { v with fetching := false }).bump OPP_ERR.DISCARD_CNT n)) ∧
    (∀ x first n, s.hmp.returned.find? (fun x => match x.k with | .descFetch q' _ _ => q' = q.val | _ => false) = some x →
      x.k = .descFetch q.val first n → v.state = .opened → v.noEntries = false → (s.ctx v.context).state ≠ .faulted →
      exec (.descFetch q) s = .next (startFetch
        ((List.range n).foldl (fun t i => takeFetched t q x first i)
          (({ s with hmp := { s.hmp with returned := s.hmp.returned.erase x } } : State).setQueue q
            { v with head := (first + n) % v.size, fetching := false })) q))

/-- A context takes a queue's next descriptor (R102, R118, R328, R360): `v` is the queue, `c` its context, `e` the back-end
entry that it becomes, `u` the block in which that entry waits. A remote operation starts (R22, R29, R339, R367): `r` is what
its instruction or descriptor says. -/
def Obligations.DescriptorStarts : Prop :=
  (
    ∀ s (q : QNum) op d v c e u (cmd : QNum → Instr),
      (cmd, op) ∈ [(Instr.descNop, 0), (Instr.descPut, 1), (Instr.descGet, 2), (Instr.descAtomic, 3), (Instr.descSignal, 4),
        (Instr.descFence, 5)] → descHead s q op = some d → v = s.queue q → TablesOk s → c = s.ctx v.context →
      -- without the right to its SYNC object it completes with RIGHTS and has no other effect (R360)
      (d.wantsCnt = true → synMayUse s v.context d.sync = false → exec (cmd q) s = .next
        (qComplete (s.setQueue q { v with waiting := v.waiting.drop 1 }) q
          (({ d with flags := d.flags - 2 } : Desc).cplOf stRIGHTS 0 0 false))) ∧
      -- else it starts: a NOP completes with OK; the others start in their turn in the back end
      (d.wantsCnt = false ∨ synMayUse s v.context d.sync = true →
        e = { id := c.nextId, opcode := if op = 5 then 0x44 else op + 0x3F, desc := some (q.val, d.index), order := d.ordered } →
        u = (s.setQueue q { v with waiting := v.waiting.drop 1, started := v.started ++ [d] }).setCtx v.context
          { c with beq := c.beq ++ [e], nextId := c.nextId + 1 } →
        (op = 0 → exec (cmd q) s = .next (entryEnd u v.context c.nextId stOK 0 0)) ∧
        (op ≠ 0 → exec (cmd q) s = .next (startIfNext u v.context c.nextId)) ∧
        (op ≠ 0 → op ≠ 5 → c.beq = [] → exec (cmd q) s = .next (remoteStart u v.context e)) ∧
        (op = 5 → c.beq = [] → Gives (cmd q) s fun t => (t.ctx v.context).beq = [{ e with started := true }]))) ∧
  (
    ∀ s k e r, r = remoteOf s e →
      (s.fenced = true → remoteStart s k e = entryEnd s k e.id stFENCED 0 0) ∧
      (s.fenced = false →
        (r.opcode = 4 → r.dest = s.node → remoteStart s k e = entryEnd (applySignal s r.win (s.ctxPkey k) s.node r.op0).1 k e.id
          (signalStatus s r.win (s.ctxPkey k) s.node) 0 0) ∧
        (r.opcode = 4 → r.dest ≠ s.node → remoteStart s k e = sendRemote s k e r (natLE 8 r.op0)) ∧
        (r.opcode = 3 → remoteStart s k e = sendRemote s k e r (natLE 8 r.op0 ++ natLE 8 r.op1)) ∧
        ((r.opcode = 1 ∨ r.opcode = 2) →
          (r.len = 0 → remoteStart s k e = entryEnd s k e.id stOK 0 0) ∧
          (0 < r.len → e.ext = [] → ∀ st, st = localCheck (s.win r.lwin) (s.ctxPkey k) (if r.opcode = 1 then .rd else .wr) r.loff r.len →
            (st ≠ stOK → remoteStart s k e = entryEnd (countTgtErr s st) k e.id st 0 0) ∧
            (st = stOK → (s.win r.lwin).chunked = false → ∀ e1, e1 = { e with
                started := true, ext := [((s.win r.lwin).base + r.loff, r.len)], lines := [] } →
              remoteStart s k e = sendRemote (updEntry s k e.id fun _ => e1) k e1 r [])))))

/-- One update of a synchronisation object (R361, R363, R366, R369): the value, the waits on it, the triggers on it. The
Trigger Port (R122 to R127, R322, R378). -/
def Obligations.SyncAndTriggerPort : Prop :=
  (
    ∀ s o, TablesOk s →
      (∀ v t, t = synPut s o v → t.obj o = v % 2 ^ 64 ∧ (∀ x, x ≠ o → t.obj x = s.obj x) ∧
        (∀ k, t.ctx k = if (s.ctx k).state = .waitSync ∧ (s.ctx k).waitObj = o ∧
          waitHolds (s.ctx k).waitCond (v % 2 ^ 64) (s.ctx k).waitVal then (s.ctx k).endWait true else s.ctx k) ∧
        (∀ i, t.trig i = if (s.trig i).armed ∧ (s.trig i).obj = o ∧ (s.trig i).meets (v % 2 ^ 64) then
          (s.trig i).fired (v % 2 ^ 64) s.nowNs else s.trig i) ∧ SameBut [.syn, .ctxs, .acc] s t) ∧
      (∀ n, s.objPoisoned o = true → synAdd s o n = s) ∧
      (∀ n, s.objPoisoned o = false → (synAdd s o n).obj o = (s.obj o + n) % 2 ^ 64) ∧
      (∀ v, (synSet s o v).obj o = v % 2 ^ 64 ∧ (synSet s o v).objPoisoned o = false) ∧
      -- SYN_HOST_ADD (R382)
      (∀ (x : ObjNum) (a : BitVec 16), s.fabricOpen = true → a.toNat ≠ 0 →
        exec (.synHostAdd x a) s = .next (synAdd (drowseExit s) x a.toNat)) ∧
      (∀ (x : ObjNum) (a : BitVec 16), s.fabricOpen = true → a.toNat = 0 → exec (.synHostAdd x a) s = .next (drowseExit s))) ∧
  (
    (∀ s (k : Ctx) (o : ObjNum), TablesOk s → s.pins.fcValid = true → s.initDone = true →
      -- a token later than 8 fc after TRG_READY fell counts in LATE, whatever becomes of it (R123)
      (∀ n, s.pins.trgReady = false → 8 < n → Gives (.trgToken k o n) s fun t =>
        t.rd (TRG_CTX.LATE k) = min (s.rd (TRG_CTX.LATE k) + 1) 255) ∧
      -- no program is loaded, or the context is faulted: discarded and counted, F0 (R124)
      (trgDiscards s k = true → Gives (.trgToken k o 0) s fun t => t.ctxs = s.ctxs ∧
        t.rd (TRG_CTX.DISCARD k) = min (s.rd (TRG_CTX.DISCARD k) + 1) 255 ∧
        t.hhg.waiting = s.hhg.waiting ++ [⟨0x12, 0, 0x02, k, false⟩]) ∧
      -- a full FIFO: dropped, OVERFLOW, F2 and the error counter (R125)
      (trgDiscards s k = false → 64 ≤ (s.ctx k).fifo.length → Gives (.trgToken k o 0) s fun t =>
        t.on (TRG_CTX.OVERFLOW k) = true ∧ t.hhg.waiting = s.hhg.waiting ++ [⟨0x12, 2, 0x01, k, false⟩]) ∧
      -- a context in WAIT_TRIG takes it, else it queues (R322, R342)
      (trgDiscards s k = false → (s.ctx k).fifo.length < 64 → (s.ctx k).state ≠ .waitTrig →
        ∀ n, Gives (.trgToken k o n) s fun t => t.ctx k = { s.ctx k with fifo := (s.ctx k).fifo ++ [o.val] }) ∧
      (trgDiscards s k = false → (s.ctx k).fifo = [] → (s.ctx k).state = .waitTrig → ∀ n, Gives (.trgToken k o n) s fun t =>
        t.ctx k = { (s.ctx k).setG (s.ctx k).waitDst o with state := .ready, fifo := [] })) ∧
    -- TRG_CFG_WRITE: the thresholds only as a legal pair, the wire unless 13 or 14 (R126)
    (∀ s (w : Word), TablesOk s → s.fabricOpen = true → Gives (.trgCfgWrite w) s fun t =>
      (1 ≤ bitsOf w.toNat 13 8 ∧ bitsOf w.toNat 13 8 ≤ bitsOf w.toNat 5 0 ∧ bitsOf w.toNat 5 0 ≤ 56 →
        t.rd TRG_CFG.LOWAT = bitsOf w.toNat 13 8 ∧ t.rd TRG_CFG.HIWAT = bitsOf w.toNat 5 0) ∧
      (¬(1 ≤ bitsOf w.toNat 13 8 ∧ bitsOf w.toNat 13 8 ≤ bitsOf w.toNat 5 0 ∧ bitsOf w.toNat 5 0 ≤ 56) →
        t.rd TRG_CFG.LOWAT = s.rd TRG_CFG.LOWAT ∧ t.rd TRG_CFG.HIWAT = s.rd TRG_CFG.HIWAT) ∧
      t.rd TRG_CFG.IRQ_WIRE = (if bitsOf w.toNat 19 16 = 13 ∨ bitsOf w.toNat 19 16 = 14 then s.rd TRG_CFG.IRQ_WIRE
        else bitsOf w.toNat 19 16)))

/-- ARM, DISARM and the deliveries of triggers (R369 to R374, R383). -/
def Obligations.Triggers : Prop :=
  (∀ s (i : Trig), TablesOk s → s.fabricOpen = true →
    s.on BDG_STATUS.FW_RESTART = false → s.on SYN_TCMD.BUSY = false →
    -- ARM: the arguments, with the pending delivery, VALUE and FTIME kept; it fires at once when its condition holds
    (∀ st, armStatus s i = st → st ≠ stOK → Gives (.armTrig i) s fun t => t.rd SYN_TCMD.STATUS = st ∧ t.syn = s.syn) ∧
    (armStatus s i = stOK → ∀ e, e = { armArgs s with
        pending := (s.trig i).pending, value := (s.trig i).value, ftime := (s.trig i).ftime } →
      Gives (.armTrig i) s fun t => t.rd SYN_TCMD.STATUS = stOK ∧ t.rd SYN_TCMD.ENTRY = i.val ∧
        t.trig i = (if e.meets (s.obj e.obj) then e.fired (s.obj e.obj) s.nowNs else e)) ∧
    -- DISARM: done at once, or after the pending delivery
    ((s.trig i).pending = false → Gives (.disarmTrig i) s fun t => t.trig i = { s.trig i with armed := false } ∧
      t.rd SYN_TCMD.STATUS = stOK ∧ t.on SYN_TCMD.BUSY = false) ∧
    ((s.trig i).pending = true → Gives (.disarmTrig i) s fun t => t.trig i = { s.trig i with armed := false } ∧
      t.on SYN_TCMD.BUSY = true ∧ t.syn.disarming = some i.val)) ∧
  -- TRIGGER_DELIVERY: the front of the queue, by its action; a full HMP or trigger FIFO sends it to the back (R370, R373)
  (∀ s, s.unitsRun = false → exec .triggerDelivery s = .next s) ∧
  (∀ s i rest e u, s.unitsRun = true → s.syn.deliv = i :: rest → e = s.trig i → u = delivered s i →
    (e.action = 0 → exec .triggerDelivery s = .next u) ∧
    (e.action = 1 → exec .triggerDelivery s = .next (delivered (s.wr (SYN_IRQ_PEND.PEND (i / 32))
      (s.rd (SYN_IRQ_PEND.PEND (i / 32)) ||| 2 ^ (i % 32))) i)) ∧
    (e.action = 2 → tagFree s e.arg = true → exec .triggerDelivery s = .next (hmpWrite u 4 e.arg (natLE 8 e.value) (.hostWr i))) ∧
    (e.action = 2 → tagFree s e.arg = false → exec .triggerDelivery s = .next (redeliver s i)) ∧
    (e.action = 3 → s.objPoisoned (e.arg % 65536) = false →
      exec .triggerDelivery s = .next (synAdd u (e.arg % 65536) (bitsOf e.arg 47 16))) ∧
    (e.action = 3 → s.objPoisoned (e.arg % 65536) = true → exec .triggerDelivery s = .next (actionFails u i stPOISON)) ∧
    (e.action = 4 → s.fenced = true → exec .triggerDelivery s = .next (actionFails u i stFENCED)) ∧
    (e.action = 4 → s.fenced = false → ∀ node obj tc, node = e.arg % 2 ^ 20 → obj = bitsOf e.arg 35 20 → tc = bitsOf e.arg 54 52 →
      (node = s.node → signalStatus u obj (s.ctxPkey e.ctx) s.node = stOK →
        exec .triggerDelivery s = .next (synAdd u obj (bitsOf e.arg 51 36))) ∧
      (node = s.node → ∀ st, signalStatus u obj (s.ctxPkey e.ctx) s.node = st → st ≠ stOK →
        exec .triggerDelivery s = .next (actionFails u i st)) ∧
      (node ≠ s.node → ootRoom s e.ctx = false ∨ seqRoom s (streamOf node tc) = false →
        exec .triggerDelivery s = .next (redeliver s i)) ∧
      (node ≠ s.node → ootRoom s e.ctx = true → seqRoom s (streamOf node tc) = true → exec .triggerDelivery s = .next (startOp u
        { owner := .trig i, ctx := e.ctx, opcode := 0x04, dest := node, tc := tc, pkey := s.ctxPkey e.ctx, win := obj,
          payload := natLE 8 (bitsOf e.arg 51 36), len := 1 }))) ∧
    (e.action = 5 → trgDiscards s (e.arg % 512) = false → 64 ≤ (s.ctx (e.arg % 512)).fifo.length →
      exec .triggerDelivery s = .next (redeliver s i)) ∧
    (e.action = 5 → (trgDiscards s (e.arg % 512) = true ∨ (s.ctx (e.arg % 512)).fifo.length < 64) →
      exec .triggerDelivery s = .next (tokenTo u (e.arg % 512) (bitsOf e.arg 31 16)))) ∧
  (∀ s i, TablesOk s → ∀ t, t = delivered s i →
    t.trig i = { s.trig i with pending := false, fires := ((s.trig i).fires + 1) % 2 ^ 32 } ∧ t.syn.deliv.contains i = false)

/-- Every instruction of the Marten set at issue (R320, R326, R333, R336, R345, R583): a context that may not issue does
nothing, fetch faults, undefined opcodes, guards, refused fields and stalls. The fetch (R329): the line is in the core's
cache of 64 lines, or is read from instruction memory into it. -/
def Obligations.MartenIssue : Prop :=
  (
    ∀ x ∈ martenOps, ∀ s (k : Ctx) w,
      (¬MayIssue s k → exec (x.1 k) s = .next s) ∧
      (MayIssue s k → inCode s k = false → exec (x.1 k) s = .next (ctxFault s k 4 (s.ctx k).pc)) ∧
      (MayIssue s k → inCode s k = true → s.mrt.imemPoison.contains ((s.ctx k).pc / 4) = true →
        exec (x.1 k) s = .next (ctxFault s k 3 (s.ctx k).pc)) ∧
      (MayIssue s k → inCode s k = true → s.mrt.imemPoison.contains ((s.ctx k).pc / 4) = false →
        (s.ctx k).pendP.contains (iPg (s.instr k (s.ctx k).pc)) = true → exec (x.1 k) s = .next (s.fetch k)) ∧
      (AtWord s k w → guardOn (s.ctx k) w = false → iOp w = x.2 ∨ opcodeDefined (iOp w) = false →
        exec (x.1 k) s = .next ((s.fetch k).setCtx k { s.ctx k with pc := ((s.ctx k).pc + 1) % 32768 })) ∧
      (AtWord s k w → guardOn (s.ctx k) w = true → opcodeDefined (iOp w) = false ∨ opcodeAbsent s (iOp w) = true →
        exec (x.1 k) s = .next (ctxFault (s.fetch k) k 1 (iOp w))) ∧
      (AtWord s k w → opcodeDefined (iOp w) = true → opcodeAbsent s (iOp w) = false → iOp w ≠ x.2 → exec (x.1 k) s = .next s) ∧
      (AtWord s k w → iOp w = x.2 → opcodeAbsent s x.2 = false → guardOn (s.ctx k) w = true → (formOf x.2).ok w = false →
        exec (x.1 k) s = .next (ctxFault (s.fetch k) k 2 x.2)) ∧
      (AtWord s k w → iOp w = x.2 → opcodeAbsent s x.2 = false → guardOn (s.ctx k) w = true → (formOf x.2).ok w = true →
        (formOf x.2).stalls (s.ctx k) w = true → exec (x.1 k) s = .next (s.fetch k))) ∧
  (
    ∀ s (k : Ctx) (i key : Nat), i = (s.ctx k).pc → key = 8192 * (k / 32) + i / 4 →
      (∀ l, s.mrt.cached.find? key = some l → s.fetch k = s ∧ s.instr k i = (l.getD (i % 4) 0).toNat) ∧
      (s.mrt.cached.find? key = none → ((s.fetch k).mrt.cached.find? key) = some (s.imemLine i) ∧
        s.instr k i = ((s.imemLine i).getD (i % 4) 0).toNat ∧ SameBut [.mrt, .freeIdx] s (s.fetch k) ∧
        (s.fetch k).mrt.imem = s.mrt.imem ∧ (s.fetch k).mrt.scratch = s.mrt.scratch) ∧
      (i < 32768 → (s.mrt.cached.map (·.1)).Pairwise (· < ·) → ∀ j, ((s.mrt.cached.map (·.1)).filter (· / 8192 = j)).length ≤ 64 →
        (((s.fetch k).mrt.cached.map (·.1)).filter (· / 8192 = j)).length ≤ 64))

/-- Scalar, compare and predicate instructions (R324, R333 to R335): the value written, the pc moved on, nothing else.
Control instructions, the special registers and the null instruction (R325, R334, R336). -/
def Obligations.MartenScalar : Prop :=
  (
    ∀ s u (k : Ctx) w c a b, u = s.fetch k → c = s.ctx k → a = c.gr (iA w) → b = (if (iFn w).testBit 0 then iImm w else c.gr (iB w)) →
      (∀ x ∈ ([(.add, 0x02, (a + b) % 2 ^ 64), (.sub, 0x03, (a + (2 ^ 64 - b)) % 2 ^ 64), (.mul, 0x04, a * b % 2 ^ 64),
          (.mulhu, 0x05, a * b / 2 ^ 64), (.and, 0x06, a &&& b), (.or, 0x07, a ||| b), (.xor, 0x08, a ^^^ b),
          (.shl, 0x09, (a <<< (b % 64)) % 2 ^ 64), (.shr, 0x0A, a >>> (b % 64)),
          (.sra, 0x0B, ((sint64 a / 2 ^ (b % 64)) % 2 ^ 64).toNat), (.minu, 0x0C, min a b), (.maxu, 0x0D, max a b),
          (.mins, 0x0E, if sint64 a < sint64 b then a else b), (.maxs, 0x0F, if sint64 b < sint64 a then a else b),
          (.sel, 0x11, if c.pr (iC w) then a else b), (.movi, 0x01, iImm w)] : List ((Ctx → Instr) × Nat × Nat)),
        Issues x.2.1 s k w → exec (x.1 k) s =
          .next (u.setCtx k { c.setG (iD w) x.2.2 with pc := (c.pc + 1) % 32768 })) ∧
      (∀ n ≤ 64, a < 2 ^ (64 - n) → n = 64 ∨ 2 ^ (63 - n) ≤ a → Issues 0x10 s k w → exec (.clz k) s =
        .next (u.setCtx k { c.setG (iD w) n with pc := (c.pc + 1) % 32768 })) ∧
      (Issues 0x18 s k w → ∀ cc, cc = iFn w / 2 % 8 →
        (6 ≤ cc → exec (.cmp k) s = .next (ctxFault u k 2 0x18)) ∧
        (∀ r ∈ [(0, decide (a = b)), (1, decide (a ≠ b)), (2, decide (a < b)), (3, decide (b ≤ a)),
            (4, decide (sint64 a < sint64 b)), (5, decide (sint64 b ≤ sint64 a))], cc = r.1 →
          exec (.cmp k) s = .next (u.setCtx k { c.setP (iD w) r.2 with pc := (c.pc + 1) % 32768 }))) ∧
      (Issues 0x19 s k w → ∀ p q, p = c.pr (iA w) → q = c.pr (iB w) →
        ∀ r ∈ [(0, p && q), (1, p || q), (2, p ^^ q), (3, p && !q)], iFn w / 2 % 4 = r.1 →
          exec (.plog k) s = .next (u.setCtx k { c.setP (iD w) r.2 with pc := (c.pc + 1) % 32768 }))) ∧
  (
    ∀ s u (k : Ctx) w c, u = s.fetch k → c = s.ctx k →
      (Issues 0x00 s k w → exec (.nop k) s = .next (u.setCtx k { c with pc := (c.pc + 1) % 32768 })) ∧
      (Issues 0x20 s k w → exec (.br k) s = .next (u.setCtx k { c with pc := iImm w % 32768 })) ∧
      (Issues 0x21 s k w → exec (.call k) s = .next (u.setCtx k { c.setG (iD w) (c.pc + 1) with pc := iImm w % 32768 })) ∧
      (Issues 0x22 s k w → exec (.jr k) s = .next (u.setCtx k { c with pc := c.gr (iA w) % 32768 })) ∧
      (Issues 0x23 s k w → exec (.endProg k) s =
        .next (u.setCtx k { c with state := .stopping, pc := (c.pc + 1) % 32768 })) ∧
      (Issues 0x24 s k w → exec (.fault k) s = .next (ctxFault u k 7 (iImm w % 65536))) ∧
      (Issues 0x28 s k w → 7 < iImm w → exec (.srd k) s = .next (ctxFault u k 2 0x28)) ∧
      (∀ r ∈ [(0, k.val), (1, k.val / 32), (2, s.rd NODE_ID.NODE), (3, s.nowNs), (4, s.rd (MRT_CTX_CFG1.PKEY k)),
          (5, c.fifo.length), (6, c.astat), (7, c.queued)], Issues 0x28 s k w → iImm w = r.1 →
        exec (.srd k) s = .next (u.setCtx k { c.setG (iD w) r.2 with pc := (c.pc + 1) % 32768 })))

/-- Synchronisation and trigger instructions (R341, R342, R360, R366): `o` is the object, `r` the next context. -/
def Obligations.MartenSync : Prop :=
  (∀ s u (k : Ctx) w c o b, u = s.fetch k → c = s.ctx k → o = (c.gr (iA w) + iImm w % 65536) % 65536 → b = c.gr (iB w) → TablesOk s →
    (∀ x ∈ ([(.synadd, 0x50), (.synset, 0x51), (.synrd, 0x52)] : List ((Ctx → Instr) × Nat)), Issues x.2 s k w →
      (synMayUse s k o = false → exec (x.1 k) s = .next (ctxFault u k 2 x.2)) ∧
      (synMayUse s k o = true → Gives (x.1 k) s fun t => (t.ctx k).pc = (c.pc + 1) % 32768 ∧
        (iD w ≠ 0 → (t.ctx k).gr (iD w) = if s.objPoisoned o then 0 else s.obj o) ∧ (t.ctx k).fifo = c.fifo)) ∧
    (Issues 0x50 s k w → synMayUse s k o = true → Gives (.synadd k) s fun t =>
      (s.objPoisoned o = false → t.obj o = (s.obj o + b) % 2 ^ 64) ∧
      (s.objPoisoned o = true → t.syn = s.syn ∧ (t.ctx k).recCount = min (c.recCount + 1) (2 ^ 32 - 1))) ∧
    (Issues 0x51 s k w → synMayUse s k o = true → Gives (.synset k) s fun t => t.obj o = b ∧ t.objPoisoned o = false) ∧
    (Issues 0x52 s k w → synMayUse s k o = true → s.objPoisoned o = false → exec (.synrd k) s =
      .next (u.setCtx k { c.setG (iD w) (s.obj o) with pc := (c.pc + 1) % 32768 }))) ∧
  (∀ s u (k : Ctx) w c o v h, u = s.fetch k → c = s.ctx k → o = (c.gr (iA w) + iImm w % 65536) % 65536 → v = c.gr (iB w) → Issues 0x53 s k w →
    h = (if iFn w = 0 then decide (v ≤ s.obj o) else if iFn w = 1 then decide (s.obj o = v) else decide (s.obj o ≠ v)) →
    (iFn w = 3 ∨ synMayUse s k o = false → exec (.synwait k) s = .next (ctxFault u k 2 0x53)) ∧
    (iFn w < 3 → synMayUse s k o = true →
      (s.objPoisoned o = true → exec (.synwait k) s = .next (u.setCtx k { c.setP (iD w) false with pc := (c.pc + 1) % 32768 })) ∧
      (s.objPoisoned o = false → h = true →
        exec (.synwait k) s = .next (u.setCtx k { c.setP (iD w) true with pc := (c.pc + 1) % 32768 })) ∧
      (s.objPoisoned o = false → h = false → exec (.synwait k) s = .next (u.setCtx k { c with
        pc := (c.pc + 1) % 32768, state := .waitSync, waitObj := o, waitCond := iFn w, waitVal := v, waitDst := iD w,
        waitEnd := if c.gr (iC w) = 0 then none else some (s.after (c.gr (iC w))) })))) ∧
  -- WTRIG: a token at once, or the wait for one (R342)
  (∀ s (k : Ctx) w c, c = s.ctx k → Issues 0x54 s k w → TablesOk s →
    (c.fifo = [] → Gives (.wtrig k) s fun t => t.ctx k = { c with state := .waitTrig, pc := (c.pc + 1) % 32768, waitDst := iD w }) ∧
    (∀ tok rest, c.fifo = tok :: rest → Gives (.wtrig k) s fun t => (t.ctx k).state = .ready ∧ (t.ctx k).fifo = rest ∧
      (t.ctx k).pc = (c.pc + 1) % 32768 ∧ (iD w ≠ 0 → (t.ctx k).gr (iD w) = tok % 2 ^ 64))) ∧
  -- FENCE, FENCE_DONE, SYNWAIT_TMO (R341, R342)
  (∀ s (k : Ctx) w c, c = s.ctx k → Issues 0x44 s k w →
    (16 ≤ c.queued → exec (.fence k) s = .next (s.fetch k)) ∧
    (c.queued < 16 → Gives (.fence k) s fun t => (t.ctx k).state = .fencing ∧ (t.ctx k).pc = (c.pc + 1) % 32768 ∧
      (t.ctx k).waitDst = iD w ∧ (t.ctx k).queued = c.queued + 1 ∧ (t.ctx k).g = c.g ∧ (t.ctx k).p = c.p ∧
      (∀ j, j ≠ k → t.ctx j = s.ctx j) ∧ SameBut [.ctxs, .mrt, .freeIdx] s t)) ∧
  (∀ s (k : Ctx) c, c = s.ctx k → TablesOk s →
    (c.state ≠ .fencing ∨ (∃ e ∈ c.beq, e.desc = none ∧ e.isFence = false) → exec (.fenceDone k) s = .next s) ∧
    (c.state = .fencing → (∀ e ∈ c.beq, e.desc ≠ none ∨ e.isFence = true) → Gives (.fenceDone k) s fun t =>
      (t.ctx k).state = .ready ∧ (t.ctx k).recCount = 0 ∧ (t.ctx k).recStatus = 0 ∧ t.rd (XPT_LATE.COUNT k) = 0 ∧
      (t.ctx k).lateCount = 0 ∧ (t.ctx k).beq = c.beq.filter (fun e => !e.isFence) ∧
      -- the record: the first failure's status, and the number of failures, late ones among them
      (c.waitDst ≠ 0 → c.lateCount = 0 → 0 < c.recCount →
        (t.ctx k).gr c.waitDst = (c.recStatus + 2 ^ 32 * min c.recCount (2 ^ 32 - 1)) % 2 ^ 64) ∧
      (c.waitDst ≠ 0 → 0 < c.lateCount → c.recCount = 0 ∨ c.lateFirst = true →
        (t.ctx k).gr c.waitDst = (s.rd (XPT_LATE.STATUS k) + 2 ^ 32 * min (c.recCount + c.lateCount) (2 ^ 32 - 1)) % 2 ^ 64) ∧
      (c.waitDst ≠ 0 → c.lateCount = 0 → c.recCount = 0 → (t.ctx k).gr c.waitDst = 0))) ∧
  (∀ s (k : Ctx) c, c = s.ctx k →
    (c.state = .waitSync → s.due c.waitEnd = true → exec (.synwaitTmo k) s = .next (s.setCtx k { c.setP c.waitDst false with
      state := .ready, waitObj := 0, waitEnd := none })) ∧
    (c.state ≠ .waitSync ∨ s.due c.waitEnd = false → exec (.synwaitTmo k) s = .next s))

/-- Instructions that enter the back-end queue (R326, R337, R339, R344, R360): operands captured, registers pending.
Collective instructions at issue (R326, R343, R360): g[d] takes the step number, the group counts one more step. -/
def Obligations.MartenBackEndIssue : Prop :=
  (
    ∀ s u (k : Ctx) w c e, u = s.fetch k → c = s.ctx k →
      e = ({ id := c.nextId, pc := c.pc, opcode := iOp w, va := c.gr (iA w), vb := c.gr (iB w), vc := c.gr (iC w),
             vc1 := c.gr ((iC w + 1) % 32), fn := iFn w, imm := iImm w } : BeEntry) →
      -- a full queue stalls the instruction
      (16 ≤ c.queued → (∀ x ∈ ([(.lds, 0x30), (.sts, 0x31), (.ldw, 0x38), (.stw, 0x39)] : List ((Ctx → Instr) × Nat)),
        Issues x.2 s k w → exec (x.1 k) s = .next u)) ∧
      (c.queued < 16 →
        (∀ x ∈ ([(.sts, 0x31), (.stw, 0x39)] : List ((Ctx → Instr) × Nat)), Issues x.2 s k w → exec (x.1 k) s =
          .next (u.setCtx k { c with beq := c.beq ++ [e], nextId := c.nextId + 1, pc := (c.pc + 1) % 32768 })) ∧
        (∀ x ∈ ([(.lds, 0x30), (.ldw, 0x38)] : List ((Ctx → Instr) × Nat)), Issues x.2 s k w → exec (x.1 k) s =
          .next (u.setCtx k { c with beq := c.beq ++ [{ e with d := iD w }], nextId := c.nextId + 1, pc := (c.pc + 1) % 32768,
                                     pendG := if iD w = 0 then c.pendG else c.pendG ++ [iD w] })) ∧
        -- copies and Foxglove instructions: the object FN where CNT is 1; FN is zero where it is 0 (R333)
        (∀ x ∈ ([(.cpin, 0x3A, 51), (.cpout, 0x3B, 51), (.fxlw, 0x70, 51), (.fxcm, 0x71, 51), (.fxpass, 0x72, 12)] :
            List ((Ctx → Instr) × Nat × Nat)), Issues x.2.1 s k w →
          ∀ cnt, cnt = bitOf (iImm w) x.2.2 →
          (x.2.1 = 0x70 ∨ x.2.1 = 0x71 → iImm w % 16 ≠ 0) → (x.2.1 = 0x72 → iImm w % 4096 < 256) →
          ((if cnt then synMayUse s k (iFn w) else decide (iFn w = 0)) = false → exec (x.1 k) s = .next (ctxFault u k 2 x.2.1)) ∧
          ((if cnt then synMayUse s k (iFn w) else decide (iFn w = 0)) = true → exec (x.1 k) s = .next (u.setCtx k { c with
            beq := c.beq ++ [{ e with cnt := if cnt then some (iFn w) else none }], nextId := c.nextId + 1,
            pc := (c.pc + 1) % 32768 }))) ∧
        (∀ x ∈ ([(.fxlw, 0x70), (.fxcm, 0x71)] : List ((Ctx → Instr) × Nat)), Issues x.2 s k w → iImm w % 16 = 0 →
          exec (x.1 k) s = .next (ctxFault u k 2 x.2)) ∧
        (Issues 0x72 s k w → 256 ≤ iImm w % 4096 → exec (.fxpass k) s = .next (ctxFault u k 2 0x72)) ∧
        -- remote operations: CNT and ORDER
        (∀ x ∈ ([(.put, 0x40), (.get, 0x41), (.signal, 0x43)] : List ((Ctx → Instr) × Nat)), Issues x.2 s k w →
          ∀ cnt, cnt = bitOf (iImm w) 51 →
          ((if cnt then synMayUse s k (iFn w) else decide (iFn w = 0)) = false → exec (x.1 k) s = .next (ctxFault u k 2 x.2)) ∧
          ((if cnt then synMayUse s k (iFn w) else decide (iFn w = 0)) = true → exec (x.1 k) s = .next (u.setCtx k { c with
            beq := c.beq ++ [{ e with order := bitOf (iImm w) 52, cnt := if cnt then some (iFn w) else none }],
            nextId := c.nextId + 1, pc := (c.pc + 1) % 32768 }))) ∧
        (Issues 0x42 s k w → ∀ cnt pd fn, cnt = bitOf (iImm w) 51 → pd = iImm w / 256 % 8 → fn = iImm w % 32 →
          ((iC w = 31 ∧ fn = 5) ∨ atomicOk fn (bitOf (iImm w) 5) = false ∨
            (if cnt then synMayUse s k (iFn w) else decide (iFn w = 0)) = false → exec (.atom k) s = .next (ctxFault u k 2 0x42)) ∧
          (¬(iC w = 31 ∧ fn = 5) → atomicOk fn (bitOf (iImm w) 5) = true →
            (if cnt then synMayUse s k (iFn w) else decide (iFn w = 0)) = true →
            (c.pendG.contains (iC w + 1) = true ∨ c.pendP.contains pd = true → exec (.atom k) s = .next u) ∧
            (c.pendG.contains (iC w + 1) = false → c.pendP.contains pd = false → exec (.atom k) s = .next (u.setCtx k { c with
              beq := c.beq ++ [{ e with d := iD w, order := bitOf (iImm w) 52, cnt := if cnt then some (iFn w) else none }],
              nextId := c.nextId + 1, pc := (c.pc + 1) % 32768,
              pendG := if iD w = 0 then c.pendG else c.pendG ++ [iD w],
              pendP := if pd = 0 then c.pendP else c.pendP ++ [pd] })))))) ∧
  (
    (∀ x ∈ ([(.rs, 0x60), (.ag, 0x61), (.ar, 0x62), (.rug, 0x63), (.a2a, 0x64), (.cx, 0x65), (.sto, 0x66)] :
        List ((Ctx → Instr) × Nat)), ∀ s (k : Ctx) w c g n cnt, Issues x.2 s k w → c = s.ctx k → g = iImm w % 4096 →
      n = (s.group g).issued → cnt = bitOf (iImm w) 12 → TablesOk s →
      -- refused: an object that may not be used, an FN that nothing uses, a STO of no bytes or of more than 64 (R333, R343)
      ((if cnt then synMayUse s k (iFn w) else decide (iFn w = 0)) = false ∨
        (x.2 = 0x66 ∧ (bitsOf (iImm w) 22 16 = 0 ∨ 64 < bitsOf (iImm w) 22 16)) →
        exec (x.1 k) s = .next (ctxFault (s.fetch k) k 2 x.2)) ∧
      ((if cnt then synMayUse s k (iFn w) else decide (iFn w = 0)) = true →
        (x.2 = 0x66 → 1 ≤ bitsOf (iImm w) 22 16 ∧ bitsOf (iImm w) 22 16 ≤ 64) →
        (16 ≤ c.queued → exec (x.1 k) s = .next (s.fetch k)) ∧
        (c.queued < 16 → Gives (x.1 k) s fun t =>
          (t.group g).issued = (n + 1) % 65536 ∧ (iD w ≠ 0 → (t.ctx k).gr (iD w) = n % 2 ^ 64) ∧
          (t.ctx k).pc = (c.pc + 1) % 32768 ∧
          (t.ctx k).beq.length = c.beq.length + 1 ∧
          -- the entry, with the update record and the stage record that the issue finds (R449, R472)
          (∃ e, (t.ctx k).beq.getLast? = some e ∧ e.id = c.nextId ∧ e.pc = c.pc ∧ e.opcode = x.2 ∧ e.va = c.gr (iA w) ∧
            e.vb = c.gr (iB w) ∧ e.vc = c.gr (iC w) ∧ e.imm = iImm w ∧ e.step = n ∧ e.cnt = (if cnt then some (iFn w) else none) ∧
            e.started = false ∧ e.desc = none ∧ e.since = s.now ∧
            (x.2 = 0x63 → (s.group g).update < 256 → e.upd = updRecord s (s.group g).update) ∧
            ((s.group g).foxStage < 256 → e.stg = stageCfg s (s.group g).foxStage) ∧
            (x.2 = 0x64 → bitOf (iImm w) 13 = true → e.cx = (s.group g).cx)) ∧
          -- a CX names the table that a later A2A follows (R407)
          (x.2 = 0x65 → (s.group g).state ≠ 0 → (t.group g).cx = some { step := n, dwin := bitsOf (iImm w) 47 32, off := c.gr (iC w) }) ∧
          SameBut [.ctxs, .yar, .mrt, .freeIdx] s t))) ∧
    (∀ s (k : Ctx) w c g v r, Issues 0x67 s k w → c = s.ctx k → g = iImm w → v = s.group g →
      r = (s.fetch k).setCtx k { c.setG (iD w) (if v.state = 0 then 0 else
          v.failSt + 2 ^ 16 * v.ended + 2 ^ 32 * (stepsOut s g % 65536)) with pc := (c.pc + 1) % 32768 } →
      (bitOf (iFn w) 0 = false ∨ v.state = 0 → exec (.gstat k) s = .next r) ∧
      (bitOf (iFn w) 0 = true → v.state ≠ 0 → exec (.gstat k) s = .next (r.setGroup g { v with failSt := 0, failStep := 0 }))))

/-- What the instructions of the Marten set leave unchanged (R324, R333 to R344): the parts of the state, the other contexts,
every register and predicate but the destination, the synchronisation objects but the one named. -/
def Obligations.MartenFrames : Prop :=
  ∀ x ∈ martenOps, ∀ s (k : Ctx) t, exec (x.1 k) s = .next t →
    (x.2 ≠ 0x50 → x.2 ≠ 0x51 → x.2 ≠ 0x54 → ¬(0x60 ≤ x.2 ∧ x.2 ≤ 0x67) → SameBut [.ctxs, .mrt, .hhg, .freeIdx] s t) ∧
    (x.2 = 0x50 ∨ x.2 = 0x51 → SameBut [.ctxs, .mrt, .hhg, .syn, .acc, .freeIdx] s t) ∧
    (x.2 = 0x54 → SameBut [.ctxs, .mrt, .hhg, .pins, .freeIdx] s t) ∧
    (0x60 ≤ x.2 ∧ x.2 ≤ 0x67 → SameBut [.ctxs, .mrt, .hhg, .yar, .freeIdx] s t) ∧
    t.mrt.imem = s.mrt.imem ∧ t.mrt.scratch = s.mrt.scratch ∧
    (TablesOk s → ∀ w, w = s.instr k (s.ctx k).pc →
      (x.2 ≠ 0x50 → x.2 ≠ 0x51 → ∀ j, j ≠ k.val → t.ctx j = s.ctx j) ∧
      (∀ i, (t.ctx k).gr i ≠ (s.ctx k).gr i → (formOf x.2).d = .reg ∧ i = iD w) ∧
      (∀ i, (t.ctx k).pr i ≠ (s.ctx k).pr i → (formOf x.2).d = .pred ∧ i = iD w) ∧
      (∀ o, t.obj o ≠ s.obj o → o = ((s.ctx k).gr (iA w) + iImm w % 65536) % 65536) ∧
      (∀ g, t.group g ≠ s.group g → g = iImm w % 4096))

/-- START (R321): it is accepted only while the context is STOPPED and every check of the table holds; otherwise it is
ignored and CMD_ERR is set; a context with CODE_LEN 0 has no program loaded, and a trigger's token for it is discarded. -/
def Obligations.StartChecks : Prop :=
  ∀ s u (k : Ctx) base len entry ok, s.fabricOpen = true → u = drowseExit s → TablesOk s →
    base = u.rd (MRT_CTX_CFG0.CODE_BASE k) → len = u.rd (MRT_CTX_CFG1.CODE_LEN k) →
    entry = u.rd (MRT_CTX_CFG0.ENTRY k) →
    (ok ↔ (u.ctx k).state = .stopped ∧ len ≠ 0 ∧ base + len ≤ 32768 ∧ base ≤ entry ∧ entry < base + len ∧
      u.rd (MRT_CTX_CFG2.SCR_BASE k) + u.rd (MRT_CTX_CFG2.SCR_SIZE k) ≤ 256) →
    (ok → Gives (.start k) s fun t =>
      t.ctx k = { u.ctx k with state := .ready, pc := entry, p := [], astat := 0 }) ∧
    (¬ok → Gives (.start k) s fun t => t.ctx k = { u.ctx k with cmdErr := true } ∧
      bitOf (ctxStatus0 t k).toNat 23 = true ∧ SameBut [.ctxs] u t ∧ ∀ j, j ≠ k.val → t.ctx j = u.ctx j) ∧
    (len = 0 → ∀ obj, trgDiscards u k = true ∧
      tokenTo u k obj = report (u.bump (TRG_CTX.DISCARD k) 1) 0x12 0 0x02 k)

/-- STOP, the end of a context's work, and the load of instruction memory (R322, R330, R350). A context fault (R345, R346):
the state and what it records, the entries discarded, the F2 report. -/
def Obligations.ContextCommands : Prop :=
  (
    (∀ s u (k : Ctx) c, s.fabricOpen = true → u = drowseExit s → c = u.ctx k → TablesOk s →
      (c.state = .ready ∨ c.state = .waitTrig ∨ c.state = .waitSync ∨ c.state = .fencing → exec (.stop k) s =
        .next (u.setCtx k { c.noFence with state := .stopping, waitObj := 0, waitEnd := none })) ∧
      (c.state = .stopped ∨ c.state = .stopping ∨ c.state = .faulted → exec (.stop k) s = .next u)) ∧
    (∀ s (k : Ctx), ((s.ctx k).state = .stopping → (∀ e ∈ (s.ctx k).beq, e.left = true) →
        exec (.contextStopped k) s = .next (s.setCtx k { s.ctx k with state := .stopped })) ∧
      ((s.ctx k).state ≠ .stopping ∨ (∃ e ∈ (s.ctx k).beq, e.left = false) → exec (.contextStopped k) s = .next s)) ∧
    -- ILOAD: ignored while one runs (R329), BUSY while firmware restarts (R610)
    (∀ s u, s.fabricOpen = true → u = drowseExit s → (u.on MRT_ILOAD_CMD.BUSY = true → exec .iload s = .next u) ∧
      (u.on MRT_ILOAD_CMD.BUSY = false → u.on BDG_STATUS.FW_RESTART = true →
        exec .iload s = .next (u.wr MRT_ILOAD_CMD.STATUS stBUSY))) ∧
    -- ILOAD: refused with BUSY or INTERNAL, else a host read of 16 bytes for each instruction; ILOAD_DONE writes them
    (∀ s u i n, s.fabricOpen = true → u = drowseExit s → u.on BDG_STATUS.FW_RESTART = false → TablesOk s → i = u.rd MRT_ILOAD_RANGE.INDEX →
      n = u.rd MRT_ILOAD_RANGE.COUNT → u.on MRT_ILOAD_CMD.BUSY = false →
      (n = 0 ∨ 32768 < i + n → Gives .iload s fun t => t.rd MRT_ILOAD_CMD.STATUS = stINTERNAL ∧ t.mrt = u.mrt) ∧
      (0 < n → i + n ≤ 32768 → iloadOverlaps u i n = true → Gives .iload s fun t => t.rd MRT_ILOAD_CMD.STATUS = stBUSY ∧ t.mrt = u.mrt) ∧
      (0 < n → i + n ≤ 32768 → iloadOverlaps u i n = false → Gives .iload s fun t => t.on MRT_ILOAD_CMD.BUSY = true ∧
        t.mrt = { u.mrt with iload := some ⟨i, n⟩ })) ∧
    (∀ s l x, TablesOk s → s.mrt.iload = some l → s.hmp.returned.find? (fun x => x.k = .iload) = some x →
      Gives .iloadDone s fun t => t.mrt.iload = none ∧ t.on MRT_ILOAD_CMD.BUSY = false ∧ t.rd MRT_ILOAD_CMD.STATUS = x.status % 256)) ∧
  (
    ∀ s (k : Ctx) cause info, TablesOk s → (s.ctx k).state ≠ .faulted → ∀ t, t = ctxFault s k cause info →
      (t.ctx k).state = .faulted ∧ (t.ctx k).cause = cause ∧ (t.ctx k).info = info % 65536 ∧ (t.ctx k).pc = (s.ctx k).pc ∧
      (t.ctx k).g = (s.ctx k).g ∧ (t.ctx k).p = (s.ctx k).p ∧ (t.ctx k).beq = (s.ctx k).beq.filter (fun e => e.started && !e.isFence) ∧
      t.hhg.waiting = s.hhg.waiting ++ [⟨0x13, 2, 0x01, k + cause * 2 ^ 24, false⟩] ∧
      (∀ j, j ≠ k → t.ctx j = s.ctx j) ∧ SameBut [.ctxs, .hhg] s t)

/-- The back end of a context (R326 to R328, R331, R337 to R339): its next entry starts, an entry with its result ends. -/
def Obligations.BackEndEntries : Prop :=
  (∀ s (k : Ctx), nextStart s k = none → exec (.backendEntryStart k) s = .next s) ∧
  (∀ s (k : Ctx), (∀ e ∈ (s.ctx k).beq, e.started = true) ∨ s.unitsRun = false ∨ s.ctxHeld k = true → nextStart s k = none) ∧
  (∀ s (k : Ctx) e a n b, nextStart s k = some e → TablesOk s → a = (e.va + e.imm) % 65536 → n = 2 ^ (e.fn / 2 % 4) →
    b = 65536 * (k / 32) + 256 * s.rd (MRT_CTX_CFG2.SCR_BASE k) + a →
    -- LDS and STS: an address beyond the scratch, or not a multiple of the width, faults with SCRATCH (R331)
    (e.opcode = 0x30 ∨ e.opcode = 0x31 → 256 * s.rd (MRT_CTX_CFG2.SCR_SIZE k) < a + n ∨ a % n ≠ 0 →
      exec (.backendEntryStart k) s = .next (entryFault s k e.id 5 a)) ∧
    (e.opcode = 0x30 ∨ e.opcode = 0x31 → a + n ≤ 256 * s.rd (MRT_CTX_CFG2.SCR_SIZE k) → a % n = 0 →
      (e.opcode = 0x30 → scrPoisoned s b n = true → exec (.backendEntryStart k) s = .next (entryFault s k e.id 5 stPOISON)) ∧
      (e.opcode = 0x30 → scrPoisoned s b n = false → Gives (.backendEntryStart k) s fun t => SameBut [.ctxs] s t ∧
        (t.ctx k).beq = (s.ctx k).beq.map fun x => if x.id = e.id then
          { x with started := true, result := some (((List.range n).map fun i => (s.scr (b + i)).toNat * 2 ^ (8 * i)).sum) } else x) ∧
      (e.opcode = 0x31 → Gives (.backendEntryStart k) s fun t =>
        SameBut [.ctxs, .mrt] s t ∧ (∀ i < n, (t.scr (b + i)).toNat = e.vc / 2 ^ (8 * i) % 256) ∧
        (∀ x, (x < b ∨ b + n ≤ x) → t.scr x = s.scr x))) ∧
    -- the fence, a transfer of no bytes, and a copy of length 0, which does nothing (R22, R29, R338, R339)
    (0x40 ≤ e.opcode → e.opcode ≤ 0x43 → s.fenced = true → exec (.backendEntryStart k) s = .next (entryEnd s k e.id stFENCED 0 0)) ∧
    (e.opcode = 0x40 ∨ e.opcode = 0x41 → s.fenced = false → e.desc = none → e.imm % 2 ^ 32 = 0 →
      exec (.backendEntryStart k) s = .next (entryEnd s k e.id stOK 0 0)) ∧
    (e.opcode = 0x3A ∨ e.opcode = 0x3B → e.va = 0 → exec (.backendEntryStart k) s = .next (dropEntry s k e.id)) ∧
    -- ATOM sends its two operands; SIGNAL to another node its addend (R339)
    (e.opcode = 0x42 → e.desc = none → s.fenced = false → exec (.backendEntryStart k) s =
      .next (sendRemote s k e (remoteOfInstr e) (natLE 8 e.vc ++ natLE 8 e.vc1))) ∧
    (e.opcode = 0x43 → e.desc = none → s.fenced = false → bitsOf e.va 35 16 ≠ s.node → exec (.backendEntryStart k) s =
      .next (sendRemote s k e (remoteOfInstr e) (natLE 8 e.vc)))) ∧
  -- BACKEND_ENTRY_DONE: LDS writes its register and frees its place (R326)
  (∀ s (k : Ctx) id e v c, c = s.ctx k → TablesOk s → c.beq.find? (fun e => e.id = id) = some e → e.started = true →
    e.opcode = 0x30 → e.muted = false → e.result = some v → Gives (.backendEntryDone k id) s fun t =>
      (e.d ≠ 0 → (t.ctx k).gr e.d = v % 2 ^ 64) ∧ (t.ctx k).beq = c.beq.filter (fun x => x.id ≠ id) ∧
      (t.ctx k).pendG = c.pendG.erase e.d ∧ (t.ctx k).pc = c.pc ∧ SameBut [.ctxs] s t) ∧
  (∀ s (k : Ctx) id e, (s.ctx k).beq.find? (fun e => e.id = id) = some e → e.started = false →
    exec (.backendEntryDone k id) s = .next s)

/-- A request reaches the receiving half of transport (R264, R273): the first row that applies decides; `u` is the block with
the packet taken from the router. -/
def Obligations.RequestRows : Prop :=
  ∀ s p u (c : Pkt → Instr) op i, (c, op) ∈ [(Instr.putPacket, 1), (Instr.getPacket, 2), (Instr.atomicPacket, 3),
      (Instr.signalPacket, 4), (Instr.notice, 9)] → p.opcode = op → s.fabricOpen = true →
    u = takeDelivered (drowseExit s) p → i = streamOf p.src p.tc →
    (p.intact = false → exec (c p) s = .next (u.bump XPT_ERR2.BAD 1)) ∧
    (p.intact = true →
      (u.rd XPT_CFG.PKT_LIFE < pktAge u p → exec (c p) s = .next (u.bump XPT_ERR.STALE_LIFE 1)) ∧
      (pktAge u p ≤ u.rd XPT_CFG.PKT_LIFE →
        ((u.peer i).rxState = 0 → exec (c p) s = .next (answerResync u p stFENCED)) ∧
        (1 < (u.peer i).rxState → exec (c p) s = .next (answerResync u p stPOISON)) ∧
        ((u.peer i).rxState = 1 → p.stag ≠ (u.peer i).rxStag → exec (c p) s = .next (u.bump XPT_ERR.STALE_STAG 1)) ∧
        ((u.peer i).rxState = 1 → p.stag = (u.peer i).rxStag → ∀ d, d = (p.seq + 65536 - (u.peer i).rxBase) % 65536 →
          (512 ≤ d ∧ d < 65024 → exec (c p) s = .next (u.bump XPT_ERR.WINDOW 1)) ∧
          -- a duplicate: dropped while its original is in work; a GET executes again, the others are answered again (R276)
          (65024 ≤ d ∨ (d < 512 ∧ bitOf (u.peer i).bmp d = true) →
            (stillBusy u i p = true → exec (c p) s = .next (u.bump XPT_ERR3.DUP_BUSY 1)) ∧
            (stillBusy u i p = false → p.opcode = 2 → exec (c p) s = .next (execute u i p none)) ∧
            (stillBusy u i p = false → p.opcode ≠ 2 → findRec u i p = none →
              exec (c p) s = .next (respondTo u p 0x81 stOK [])) ∧
            (stillBusy u i p = false → p.opcode ≠ 2 → ∀ n r, findRec u i p = some (n, r) →
              exec (c p) s = .next (sendAnswer u p (r.status.getD 0) r.result []))) ∧
          -- a new packet: ORD holds it until its turn, else it is accepted once and executed (R274, R275)
          (d < 512 → bitOf (u.peer i).bmp d = false → isHeld (applyAcked u i p) i p = true →
            exec (c p) s = .next ((applyAcked u i p).bump XPT_ERR3.HELD_DUP 1)) ∧
          (d < 512 → bitOf (u.peer i).bmp d = false → ∀ v, v = applyAcked u i p → isHeld v i p = false →
            (p.ord = true → ordEligible v i p = false → (∀ h < 4096, (Tbl.find? v.xpt.held h).isSome = true) →
              exec (c p) s = .next (v.bump XPT_ERR2.HOLD_FULL 1)) ∧
            (p.ord = true → ordEligible v i p = false → v.xpt.held.length < 4096 → Gives (c p) s fun t =>
              SameBut [.regs, .csp, .rtr, .xpt, .freeIdx] s t ∧ t.out = s.out ∧
              ∃ h, Tbl.find? t.xpt.held h = some ⟨i, p, s.now⟩) ∧
            (p.ord = false ∨ ordEligible v i p = true → markAccepted v i p.seq = none →
              exec (c p) s = .next (v.bump XPT_ERR2.BAD_FULL 1)) ∧
            (p.ord = false ∨ ordEligible v i p = true → ∀ w, markAccepted v i p.seq = some w →
              (p.opcode ≠ 2 → freeRec w = none → exec (c p) s = .next (v.bump XPT_ERR2.REC_FULL 1)) ∧
              (p.opcode = 2 → exec (c p) s = .next (execute w i p none)) ∧
              (p.opcode ≠ 2 → ∀ r, freeRec w = some r → exec (c p) s = .next (execute
                { w.useFree with xpt := { w.xpt with recs := w.xpt.recs.put r ⟨i, p.stag, p.seq, none, p.opcode, 0, v.nowNs⟩ } }
                i p (some r))))))))

/-- What an accepted request does (R277, R286, R309 to R311, R360, R367). -/
def Obligations.RequestEffects : Prop :=
  ∀ s i p r,
    -- a SIGNAL adds its addend to the object it names, or its refusal is the answer (R367)
    (p.opcode = 4 → signalStatus s p.window p.pkey p.src = stOK →
      execute s i p r = answer (synAdd s p.window (leAt p.payload 0 8)) p r stOK 0 []) ∧
    (p.opcode = 4 → ∀ st, signalStatus s p.window p.pkey p.src = st → st ≠ stOK → execute s i p r = answer s p r st 0 []) ∧
    -- a NOTICE is a late failure of the context it names (R287)
    (p.opcode = 9 → execute s i p r = answer (applyNotice s p) p r stOK 0 []) ∧
    -- PUT, GET and ATOMIC: the fence, then the rows of R309, each refusal answered with its status
    ((p.opcode = 1 ∨ p.opcode = 2 ∨ p.opcode = 3) →
      (s.fenced = true → execute s i p r = answer (countTgtErr s stFENCED) p r stFENCED 0 []) ∧
      (s.fenced = false → tier1On s 16 = false → ∀ need st,
        need = (if p.opcode = 1 then Need.wr else if p.opcode = 2 then Need.rd else Need.at_) →
        winCheck (s.win p.window) p.pkey need p.offset p.span = st →
        (st ≠ stOK → execute s i p r = answer (countTgtErr s st) p r st 0 []) ∧
        (st = stOK → p.opcode = 3 → atomicOk p.fn p.w8 = false → execute s i p r = answer s p r stINTERNAL 0 []) ∧
        -- a PUT to a plain window with room: its write is issued on the HMP, and it is answered at once (R277, R310)
        (st = stOK → p.opcode = 1 → (s.win p.window).chunked = false → s.tgt.atoms = [] →
          linesHeld s 0x01 + linesOf ((s.win p.window).base + p.offset) p.length ≤ 1024 → 0 < p.length →
          ∀ t, t = execute s i p r → (∃ o, t.out = s.out ++ [o] ∧ o.flow = .response ∧ o.pkt.opcode = 0x81 ∧
            o.pkt.status = stOK ∧ o.pkt.dest = p.src ∧ o.pkt.seq = p.seq ∧ o.pkt.stag = p.stag ∧ o.pkt.tag = p.tag) ∧
            (∃ x ∈ t.hmp.xfers, x.2.k = .target s.tgt.next 0 ∧ x.2.write = true)) ∧
        -- a GET is read first, and answered with the last of its data (R277)
        (st = stOK → p.opcode = 2 → (s.win p.window).chunked = false → s.tgt.atoms = [] →
          linesHeld s 0x02 + linesOf ((s.win p.window).base + p.offset) p.length ≤ 2048 → 0 < p.length →
          ∀ t, t = execute s i p r → t.out = s.out ∧ ∃ x ∈ t.hmp.xfers, x.2.k = .target s.tgt.next 0 ∧ x.2.write = false)))

/-- Responses reach the initiator (R24, R264, R269, R282, R288, R340): `u` is the block with the packet taken from the
router. -/
def Obligations.Responses : Prop :=
  ∀ s p u, s.fabricOpen = true → u = takeDelivered (drowseExit s) p →
    -- ACK, RESULT, DATA and RESYNC: a malformed one counts BAD, a stray one STRAY
    (∀ (c : Pkt → Instr) op, (c, op) ∈ [(Instr.ack, 0x81), (Instr.data, 0x82), (Instr.result, 0x83), (Instr.resync, 0x8A)] →
      p.opcode = op → (p.intact = false → exec (c p) s = .next (u.bump XPT_ERR2.BAD 1)) ∧
      (p.intact = true → liveEntry u p true = none → exec (c p) s = .next (u.bump XPT_ERR.STRAY 1))) ∧
    (∀ e, p.intact = true → liveEntry u p true = some e →
      (p.opcode = 0x81 → exec (.ack p) s = .next (packetEnd u p.tag p.status 0)) ∧
      (p.opcode = 0x83 → exec (.result p) s = .next (packetEnd u p.tag p.status (leAt p.payload 0 8))) ∧
      -- DATA with OK goes to the host over the local translation; another status ends the packet
      (p.opcode = 0x82 → ∀ o, u.xop e.op = some o → (p.status ≠ stOK → exec (.data p) s = .next (packetEnd u p.tag p.status 0)) ∧
        (p.status = stOK → e.opcode = 2 → exec (.data p) s = .next (hmpScatter
          ((u.putEntry p.tag { e with writing := true, deadline := none }).putXop { o with accessed := true }) 0
          (cutExt o.ext e.poff e.len) (p.payload.take e.len) (.getData p.tag e.len)))) ∧
      -- RESYNC: the stream is LOST and takes a new numbering
      (p.opcode = 0x8A → exec (.resync p) s =
        .next (renumber u (streamOf e.peer e.tc) (if p.status = stFENCED then stFENCED else stUNREACHABLE) 3))) ∧
    -- ROUTER_NAK: PARTITION ends the packet, UNREACHABLE counts, and after the last attempt the peer is unreachable (R24)
    (p.intact = true → p.opcode = 0x8F → ∀ o, o = (if p.seq = 0 then syncOf u p.stag else none) →
      (o = none → liveEntry u p false = none → exec (.routerNak p) s = .next (u.bump XPT_ERR.STRAY 1)) ∧
      (o = none → ∀ e, liveEntry u p false = some e →
        (p.status = stPARTITION → exec (.routerNak p) s = .next (packetEnd u p.tag stPARTITION 0)) ∧
        (p.status ≠ stPARTITION → e.attempt < u.rd XPT_CFG.ATTEMPTS →
          exec (.routerNak p) s = .next (u.bump XPT_ERR3.RNAK_UNREACH 1)) ∧
        (p.status ≠ stPARTITION → u.rd XPT_CFG.ATTEMPTS ≤ e.attempt →
          exec (.routerNak p) s = .next (peerUnreachable (u.bump XPT_ERR3.RNAK_UNREACH 1) e.peer))) ∧
      (∀ i, o = some i → p.status = stPARTITION → exec (.routerNak p) s = .next (syncRefused u i))) ∧
    -- SYNC_ACK: the STAG of the pending SYNC opens the stream at sequence number 0 (R269)
    (p.opcode = 0x88 → p.intact = true → ∀ e, e = u.peer (streamOf p.src p.tc) →
      (e.txState = 1 ∧ p.stag = e.syncStag → exec (.syncAck p) s = .next (pumpStream (u.setPeer (streamOf p.src p.tc)
        { e with txState := 2, txStag := p.stag, txNext := 0, begun := [], syncEnd := none, syncAttempt := 0 })
        (streamOf p.src p.tc))) ∧
      (e.txState ≠ 1 ∨ p.stag ≠ e.syncStag → exec (.syncAck p) s = .next (u.bump XPT_ERR.STRAY 1))) ∧
    -- SYNC: a new STAG restarts the receiving half, and is acknowledged (R270)
    (p.opcode = 0x08 → p.intact = true → pktAge u p ≤ u.rd XPT_CFG.PKT_LIFE → Gives (.sync p) s fun t =>
      (∃ o, t.out = s.out ++ [o] ∧ o.pkt.opcode = 0x88 ∧ o.pkt.status = stOK ∧ o.pkt.stag = p.stag ∧ o.pkt.dest = p.src) ∧
      (t.peer (streamOf p.src p.tc)).rxState = 1 ∧ (t.peer (streamOf p.src p.tc)).rxStag = p.stag ∧
      (p.stag ≠ (s.peer (streamOf p.src p.tc)).rxStag → (t.peer (streamOf p.src p.tc)).rxBase = 0 ∧
        (t.peer (streamOf p.src p.tc)).bmp = 0 ∧ ∀ x ∈ t.xpt.recs, x.2.stream ≠ streamOf p.src p.tc))

/-- The initiator's own steps: the handshake, retransmission, the budget and the entries (R268 to R271, R280, R281, R284).
The steps of the receiving half and of the target engine (R275, R278, R310, R314). -/
def Obligations.TransportSteps : Prop :=
  (
    -- STREAM_HANDSHAKE with an operation that waits: SYNCING, and a SYNC with the next STAG leaves (R268, R269)
    (∀ s (i : Fin 2097152) tag e o, TablesOk s → (s.peer i).txState ≠ 1 → (s.peer i).txState ≠ 2 → (s.peer i).syncHold ≤ s.now →
      s.xpt.oot = [(tag, e)] → e.state = 1 → streamOf e.peer e.tc = i → s.xop e.op = some o → Gives (.streamHandshake i) s fun v =>
        (v.peer i).txState = 1 ∧ (v.peer i).syncStag = s.rd XPT_STAG.NEXT ∧
        v.rd XPT_STAG.NEXT = (if (s.rd XPT_STAG.NEXT + 1) % 2 ^ 24 = 0 then 1 else s.rd XPT_STAG.NEXT + 1) ∧
        ∃ x, v.out = s.out ++ [x] ∧ x.pkt.opcode = 0x08 ∧ x.pkt.pkey = o.pkey ∧ x.pkt.tc = o.tc ∧ x.pkt.dest = i.val / 2) ∧
    -- RETX_TMO of a SYNC and of a packet: the next attempt, and after the last the peer is unreachable (R280, R281)
    (∀ s (i : Fin 2097152), (s.peer i).txState = 1 → s.due (s.peer i).syncEnd = true →
      ((s.peer i).syncAttempt < s.rd XPT_CFG.ATTEMPTS → exec (.retxTmo true i) s =
        .next (sendSync (s.bump XPT_EVT.RETX 1) i ((s.peer i).syncAttempt + 1))) ∧
      (s.rd XPT_CFG.ATTEMPTS ≤ (s.peer i).syncAttempt → exec (.retxTmo true i) s = .next (peerUnreachable s (i / 2)))) ∧
    (∀ s (n : Fin 2097152) e, s.entry n = some e → e.state = 2 → s.due e.deadline = true →
      (e.attempt < s.rd XPT_CFG.ATTEMPTS → e.opcode ≠ 1 → exec (.retxTmo false n) s =
        .next (transmit (s.bump XPT_EVT.RETX 1) n { e with attempt := e.attempt + 1 })) ∧
      (e.attempt < s.rd XPT_CFG.ATTEMPTS → e.opcode = 1 → ∀ o, s.xop e.op = some o → exec (.retxTmo false n) s =
        .next (hmpGather ((s.bump XPT_EVT.RETX 1).putEntry n
          { e with attempt := e.attempt + 1, ready := false, payload := [], deadline := none }) 0
          (cutExt o.ext e.poff e.len) (.putSource n))) ∧
      (s.rd XPT_CFG.ATTEMPTS ≤ e.attempt → exec (.retxTmo false n) s = .next (peerUnreachable s e.peer))) ∧
    -- an unreachable peer: F3 names it, both its streams are LOST (R281)
    (∀ s peer, TablesOk s → s.xpt.oot = [] → s.xpt.ops = [] → ∀ t, t = peerUnreachable s peer →
      t.hhg.waiting = s.hhg.waiting ++ [⟨0x0F, 3, 0x01, peer, false⟩] ∧ (t.peer (2 * peer)).txState = 3 ∧
      (t.peer (2 * peer + 1)).txState = 3) ∧
    -- SEQ_BUDGET_RELEASE: a waiting packet takes the next sequence number of its open stream (R271)
    (∀ s (i : Fin 2097152) n e o, TablesOk s → s.xpt.oot = [(n, e)] → e.state ≠ 2 → e.ready = true →
      streamOf e.peer e.tc = i → (s.peer i).txState = 2 → seqRoom s i = true → s.xop e.op = some o →
      Gives (.seqBudgetRelease i) s fun t => (t.peer i).txNext = ((s.peer i).txNext + 1) % 65536 ∧
        ∃ x, t.out = s.out ++ [x] ∧ x.pkt.seq = (s.peer i).txNext ∧ x.pkt.stag = (s.peer i).txStag ∧ x.pkt.tag = n ∧
          x.pkt.retx = false) ∧
    -- OOT_ALLOCATE: a stalled operation takes a table entry when there is room (R284)
    (∀ s n o, TablesOk s → s.xop n = some o → o.fail = none → o.opcode = 3 → o.made = 0 → s.xpt.oot = [] → ootRoom s o.ctx = true →
      0 < o.len → (s.peer (streamOf o.dest o.tc)).txState ≠ 2 → Gives (.ootAllocate n) s fun t =>
        ∃ tag e, t.xpt.oot = [(tag, e)] ∧ tag < 32768 ∧ e.op = n ∧ e.peer = o.dest ∧ e.state = 1)) ∧
  (
    -- ORD_EXECUTE: a held packet executes when its turn has come (R275)
    (∀ s (h : Fin 4096) v, Tbl.find? s.xpt.held h = some v →
      (ordEligible s v.stream v.pkt = true → exec (.ordExecute h) s =
        .next (acceptNew { s with xpt := { s.xpt with held := s.xpt.held.drop h } } v.stream v.pkt)) ∧
      (ordEligible s v.stream v.pkt = false → exec (.ordExecute h) s = .next s) ∧
      -- HELD_AGE_OUT: it is dropped when it has been held for REC_AGE (R275)
      (v.since + s.recAge ≤ s.now → exec (.heldAgeOut h) s =
        .next { s with xpt := { s.xpt with held := s.xpt.held.drop h } })) ∧
    -- RECORD_AGE_OUT: a kept record is freed after REC_AGE (R278)
    (∀ s (r : Fin 32768) v, Tbl.find? s.xpt.recs r = some v → v.status.isSome = true → ns v.created + s.recAge ≤ s.now →
      exec (.recordAgeOut r) s = .next { s with xpt := { s.xpt with recs := s.xpt.recs.drop r } }) ∧
    -- TGT_ADMIT: an operation that waited for room starts its host access (R310)
    (∀ s id o, TablesOk s → s.tgtOp id = some o → o.phase = .waiting → o.pkt.opcode = 2 → (s.win o.pkt.window).chunked = false →
      0 < o.pkt.length → s.tgt.atoms = [] →
      linesHeld s 0x02 + linesOf ((s.win o.pkt.window).base + o.pkt.offset) o.pkt.length ≤ 2048 →
      Gives (.tgtAdmit id) s fun t => (t.tgtOp id).map (·.phase) = some .reading ∧ t.out = s.out ∧
        ∃ x ∈ t.hmp.xfers, x.2.k = .target id 0 ∧ x.2.write = false) ∧
    -- BUSY_BOUND_TMO: an operation not admitted in time is answered BUSY (R310)
    (∀ s id o, s.tgtOp id = some o → o.phase = .waiting → o.since + ns (100 * s.rd TGT_CFG.BUSY_BOUND) ≤ s.now →
      exec (.busyBoundTmo id) s = .next (answer ((s.dropTgt id).bump TGT_BUSY.BUSY_CNT 1) o.pkt o.recIdx stBUSY 0 [])) ∧
    -- HEAT_HALVE: every heat field is halved, once for each boundary of HEAT_PERIOD that has passed (R314)
    (∀ s d, s.on BDG_TIME_STAT.VALID = true → s.wins.heatNext ≤ s.now →
      d = 2 ^ ((s.now - s.wins.heatNext) / ns (10000000 * s.rd TGT_CFG.HEAT_PERIOD) + 1) →
      Gives .heatHalve s fun t => SameBut [.wins] s t ∧
        t.wins.heatNext = (s.now / ns (10000000 * s.rd TGT_CFG.HEAT_PERIOD) + 1) * ns (10000000 * s.rd TGT_CFG.HEAT_PERIOD) ∧ (TablesOk s → ∀ w,
        (t.win w).heatRd = (s.win w).heatRd / d ∧ (t.win w).heatWr = (s.win w).heatWr / d ∧
        (t.win w).heatAt = (s.win w).heatAt / d ∧ (t.win w).candCnt = (s.win w).candCnt / d ∧
        (t.win w).state = (s.win w).state ∧ (t.win w).base = (s.win w).base)))

/-- The window table's commands (R299 to R306, R317): while the fabric answers and no firmware restart runs. -/
def Obligations.WindowCommands : Prop :=
  -- CREATE of a plain window whose checks pass: VALID with the arguments, GEN + 1, STATUS OK (R299, R300)
  (∀ s, TablesOk s → s.fabricOpen = true → s.on BDG_STATUS.FW_RESTART = false →
    s.on TGT_WCMD.BUSY = false → s.on TGT_WARG5.KIND = false → createStatus s (argWindow s) (argWin s) = stOK →
    Gives (.create false) s fun t => t.win (argWindow s) =
      { argWin s with gen := ((s.win (argWindow s)).gen + 1) % 256 } ∧ t.rd TGT_WCMD.STATUS = stOK ∧
      ∀ w, w ≠ argWindow s → t.win w = s.win w) ∧
  (∀ s, TablesOk s → s.fabricOpen = true → s.on BDG_STATUS.FW_RESTART = false → s.on TGT_WCMD.BUSY = false →
    createStatus s (argWindow s) (argWin s) ≠ stOK → Gives (.create false) s fun t =>
      t.rd TGT_WCMD.STATUS = createStatus s (argWindow s) (argWin s) ∧ t.wins = s.wins) ∧
  -- MGMT_ONLY refuses the command through MRP; a restart of the firmware answers BUSY (R301, R610)
  (∀ s, s.on TGT_CFG.MGMT_ONLY = true → exec (.create true) s = .next s) ∧
  (∀ s, TablesOk s → s.fabricOpen = true → s.on BDG_STATUS.FW_RESTART = true → Gives (.create false) s fun t =>
    t.rd TGT_WCMD.STATUS = stBUSY ∧ t.wins = s.wins) ∧
  -- CREATE_LIST_READ: a list whose chunks are aligned, with room in the overflow area: the window is VALID with GEN + 1, its base
  -- the first of its free lines, its SERIAL the next one, and one tagged line is written for each 15 chunks (R299, R300, R303)
  (∀ s w v x n, TablesOk s → s.wins.creating = some (w, v) → s.hmp.returned.find? (fun x => x.k = .chunkSource) = some x →
    x.status = stOK → (List.range v.chunks).all (fun i => leAt x.data (8 * i) 8 % 2 ^ v.chunkLog2 = 0) = true →
    n = (v.chunks + 14) / 15 → (List.range (ovfLines s + 1 - n)).any (fun a => linesFree s a n) = true →
    s.rd TGT_OVF_SERIAL.SERIAL ≠ 0xFFFFFFFF → Gives .createListRead s fun t =>
      (∃ a, linesFree s a n = true ∧ a + n ≤ ovfLines s ∧ t.wins.lists.find? w = some (a, n) ∧
        t.win w = { v with base := ovfBase s + 128 * a, serial := s.rd TGT_OVF_SERIAL.SERIAL, gen := ((s.win w).gen + 1) % 256 }) ∧
      t.rd TGT_OVF_SERIAL.SERIAL = s.rd TGT_OVF_SERIAL.SERIAL + 1 ∧ t.wins.creating = none ∧ t.on TGT_WCMD.BUSY = false ∧
      t.rd TGT_WCMD.STATUS = stOK ∧ t.hmp.next = s.hmp.next + n ∧ ∀ u, u ≠ w → t.win u = s.win u) ∧
  (∀ s w v x n, TablesOk s → s.wins.creating = some (w, v) → s.hmp.returned.find? (fun x => x.k = .chunkSource) = some x →
    x.status = stOK → (List.range v.chunks).all (fun i => leAt x.data (8 * i) 8 % 2 ^ v.chunkLog2 = 0) = true →
    n = (v.chunks + 14) / 15 →
    (List.range (ovfLines s + 1 - n)).any (fun a => linesFree s a n) = false ∨ s.rd TGT_OVF_SERIAL.SERIAL = 0xFFFFFFFF →
    Gives .createListRead s fun t => t.on TGT_WCMD.BUSY = false ∧ t.rd TGT_WCMD.STATUS = stQUOTA ∧
      t.wins = { s.wins with creating := none }) ∧
  -- CREATE_LIST_READ: a source list whose read failed ends with POISON where it was poisoned, else with INTERNAL (R300)
  (∀ s w v x, TablesOk s → s.wins.creating = some (w, v) → s.hmp.returned.find? (fun x => x.k = .chunkSource) = some x →
    x.status ≠ stOK → Gives .createListRead s fun t => t.on TGT_WCMD.BUSY = false ∧
      t.rd TGT_WCMD.STATUS = (if x.status = stPOISON then stPOISON else stINTERNAL) ∧
      t.wins = { s.wins with creating := none }) ∧
  (∀ s w v x, TablesOk s → s.wins.creating = some (w, v) → s.hmp.returned.find? (fun x => x.k = .chunkSource) = some x →
    x.status = stOK → (List.range v.chunks).all (fun i => leAt x.data (8 * i) 8 % 2 ^ v.chunkLog2 = 0) = false →
    Gives .createListRead s fun t => t.on TGT_WCMD.BUSY = false ∧ t.rd TGT_WCMD.STATUS = stINTERNAL ∧
      t.wins = { s.wins with creating := none }) ∧
  -- NARROW: the bound and the rights shrink, and every engine is asked to acknowledge (R306)
  (∀ s v a, TablesOk s → s.fabricOpen = true → s.on BDG_STATUS.FW_RESTART = false →
    s.on TGT_WCMD.BUSY = false → v = s.win (argWindow s) → a = argWin s → v.state = .valid → a.bound ≤ v.bound →
    (a.rd = true → v.rd = true) → (a.wr = true → v.wr = true) → (a.at_ = true → v.at_ = true) → Gives .narrow s fun t =>
      t.win (argWindow s) = { v with bound := a.bound, rd := a.rd, wr := a.wr, at_ := a.at_ } ∧
      t.on TGT_WCMD.BUSY = true ∧ t.rd TGT_WWAIT.PENDING = 2 ^ 19 - 1 ∧ t.wins.cmd = some ⟨false, argWindow s, 1⟩) ∧
  (∀ s v a, TablesOk s → s.fabricOpen = true → s.on BDG_STATUS.FW_RESTART = false → s.on TGT_WCMD.BUSY = false →
    v = s.win (argWindow s) → a = argWin s → v.state = .valid →
    (v.bound < a.bound ∨ (a.rd = true ∧ v.rd = false) ∨ (a.wr = true ∧ v.wr = false) ∨ (a.at_ = true ∧ v.at_ = false)) →
    Gives .narrow s fun t => t.rd TGT_WCMD.STATUS = stRIGHTS ∧ t.wins = s.wins) ∧
  -- REVOKE: the windows of the range that are not FREE become REVOKING (R299, R306)
  (∀ s, TablesOk s → s.fabricOpen = true → s.on BDG_STATUS.FW_RESTART = false →
    s.on TGT_WCMD.BUSY = false → argWindow s + s.rd TGT_WARG0.COUNT_M1 + 1 ≤ 65536 → Gives .revoke s fun t =>
      (∀ w, argWindow s ≤ w → w < argWindow s + s.rd TGT_WARG0.COUNT_M1 + 1 → (s.win w).state ≠ .free →
        (t.win w).state = .revoking) ∧
      (∀ w, w < argWindow s ∨ argWindow s + s.rd TGT_WARG0.COUNT_M1 + 1 ≤ w → t.win w = s.win w) ∧
      t.on TGT_WCMD.BUSY = true ∧ t.rd TGT_WWAIT.PENDING = 2 ^ 19 - 1) ∧
  -- REVOKE_ACK: an engine that holds nothing of the windows acknowledges; the last one ends the command (R306)
  (∀ s (e : Fin 19), s.wins.cmd.isSome = true → bitOf (s.rd TGT_WWAIT.PENDING) e = true →
    revokeClear (revokeAct s e) e = true → 2 ^ e.val < (revokeAct s e).rd TGT_WWAIT.PENDING → exec (.revokeAck e) s =
      .next ((revokeAct s e).wr TGT_WWAIT.PENDING ((revokeAct s e).rd TGT_WWAIT.PENDING - 2 ^ e.val))) ∧
  (∀ s (e : Fin 19), s.wins.cmd.isSome = true → bitOf (s.rd TGT_WWAIT.PENDING) e = true →
    revokeClear (revokeAct s e) e = true → (revokeAct s e).rd TGT_WWAIT.PENDING = 2 ^ e.val → exec (.revokeAck e) s =
      .next (windowCmdEnd ((revokeAct s e).wr TGT_WWAIT.PENDING 0))) ∧
  (∀ s c, TablesOk s → s.wins.cmd = some c → c.revoke = true →
    ∀ t, t = windowCmdEnd s → (∀ w, c.first ≤ w → w < c.first + c.count → t.win w = { gen := (s.win w).gen }) ∧
      t.on TGT_WCMD.BUSY = false ∧ t.rd TGT_WCMD.STATUS = stOK) ∧
  -- CHUNK_MISS_FILL: what waits for the line goes on, or ends with its status (R304)
  (∀ s (w : WinNum) line x u st s2 s3, (s.win w).chunked = true →
    s.hmp.returned.find? (fun x => x.k = .chunkLine w line (s.win w).serial) = some x →
    takeChunkLine { s with hmp := { s.hmp with returned := s.hmp.returned.erase x } } w line x = (u, st) →
    s2 = targetFill w line st u → (s2.win w).state = .valid → s3 = (waiters s2 (w.val, line)).foldl (entryFill (w.val, line) st) s2 →
    exec (.chunkMissFill w line) s = .next (settle (stepFill (w.val, line) st (createFill w line st
      ((s3.yar.ins.map (·.1)).foldl (collFill w line st) s3))))) ∧
  -- a line read for a window that was freed meanwhile is discarded (R304, R306)
  (∀ s (w : WinNum) line serial x, (s.win w).chunked = false → s.hmp.returned = [x] → x.k = .chunkLine w line serial →
    exec (.chunkMissFill w line) s = .next { s with hmp := { s.hmp with returned := [] } }) ∧
  -- a tag that fails leaves the window INVALID, with F3; a failed read gives its status; another window answers REVOKED (R297, R304)
  (∀ s w line x t, TablesOk s → (s.win w).state = .valid → x.status = stOK → leAt x.data 120 8 ≠ spillTag s w line x.data →
    t = (takeChunkLine s w line x).1 → (takeChunkLine s w line x).2 = stPOISON ∧
    t.win w = { s.win w with state := .invalid } ∧ t.hhg.waiting = s.hhg.waiting ++ [⟨0x10, 3, 0x01, w, false⟩]) ∧
  (∀ s w line x, (s.win w).state = .valid ∨ (s.win w).state = .revoking → x.status ≠ stOK → (takeChunkLine s w line x).2 = x.status) ∧
  (∀ s w line x, (s.win w).state = .free ∨ (s.win w).state = .invalid → (takeChunkLine s w line x).2 = stREVOKED)

/-- The router decides what becomes of a packet (R231, R237, R264): `u` is the block with the packet out of its buffer;
sleeping ports for which something waits are woken then (R227). ROUTER_PACKET of a local packet, EGRESS_GRANT, DOWN_HOLD_TMO
and ENTRY_WAIT (R230 to R235, R237). -/
def Obligations.RouterPackets : Prop :=
  (
    ∀ s (p : Port) b u, s.rtr.bufs.find? (fun x => x.from_ = p.val && x.dir.isNone) = some b →
      u = releaseBuf { s with rtr := { s.rtr with bufs := s.rtr.bufs.erase b } } b →
      -- the key is refused at the port: counted, and answered with PARTITION (R237)
      (pkeyPasses s p b.pkt = false →
        exec (.routerPacket p.castSucc) s = .next (wakeWaiting (routerNak (u.bump (RTR_PKEY_REF.COUNT p) 1) b.pkt stPARTITION))) ∧
      (pkeyPasses s p b.pkt = true →
        -- it is for this node: local delivery, or discarded for its unknown OPCODE, or refused by the local key check
        (fateOf s b.from_ b.pkt = .deliver → pkeyPasses s 12 b.pkt = true → b.pkt.known = true →
          exec (.routerPacket p.castSucc) s = .next (wakeWaiting { u with rtr := { u.rtr with deliver := s.rtr.deliver ++ [b.pkt] } })) ∧
        (fateOf s b.from_ b.pkt = .deliver → pkeyPasses s 12 b.pkt = true → b.pkt.known = false →
          exec (.routerPacket p.castSucc) s = .next (wakeWaiting (u.bump XPT_ERR2.BAD 1))) ∧
        (fateOf s b.from_ b.pkt = .deliver → pkeyPasses s 12 b.pkt = false →
          exec (.routerPacket p.castSucc) s = .next (wakeWaiting (routerNak (u.bump (RTR_PKEY_REF.COUNT 12) 1) b.pkt stPARTITION))) ∧
        -- the other rows of R231
        (fateOf s b.from_ b.pkt = .stale → exec (.routerPacket p.castSucc) s = .next (wakeWaiting (u.bump RTR_ERR.STALE 1))) ∧
        (fateOf s b.from_ b.pkt = .noRoute →
          exec (.routerPacket p.castSucc) s = .next (wakeWaiting (routerNak (u.bump RTR_ERR.NOROUTE 1) b.pkt stUNREACHABLE))) ∧
        (fateOf s b.from_ b.pkt = .order → exec (.routerPacket p.castSucc) s = .next (wakeWaiting (u.bump RTR_ERR.ORDER 1))) ∧
        (∀ d, fateOf s b.from_ b.pkt = .toward d → exec (.routerPacket p.castSucc) s =
          .next (wakeWaiting (holdToward { s with rtr := { s.rtr with bufs := s.rtr.bufs.erase b } } b d))))) ∧
  (
    -- a local packet whose key the block may use is routed; another does not leave (R237)
    (∀ s o rest, s.rtr.inject = o :: rest → pkeyPasses s 12 o.pkt = true → exec (.routerPacket 12) s =
      .next (wakeWaiting (routePacket { s with rtr := { s.rtr with inject := rest } }
        { from_ := 12 + o.xbar, pkt := o.pkt, since := s.now }))) ∧
    (∀ s o rest, s.rtr.inject = o :: rest → pkeyPasses s 12 o.pkt = false → exec (.routerPacket 12) s =
      .next (wakeWaiting (injectRefused
        (({ s with rtr := { s.rtr with inject := rest } } : State).bump (RTR_PKEY_REF.COUNT 12) 1) o.pkt))) ∧
    -- EGRESS_GRANT: the whole packet follows on its egress, one header credit and its data units are taken (R192, R230)
    (∀ s (p : Port) b, grantChoice s p = some b → Gives (.egressGrant p) s fun t =>
      t.rtr.bufs = s.rtr.bufs.erase b ∧ SameBut [.rtr, .links] s t ∧
      (TablesOk s →
        (t.link p).txWords = (s.link p).txWords ++ packetStream b.pkt ∧
        ((t.link p).credit (vcOf b.pkt.tc b.pkt.rsp)).usedH =
          (((s.link p).credit (vcOf b.pkt.tc b.pkt.rsp)).usedH + 1) % 2 ^ 16)) ∧
    (∀ s (p : Port), grantChoice s p = none → exec (.egressGrant p) s = .next s) ∧
    -- some packet is granted where one may begin; of those that have waited ENTRY_WAIT to enter the oldest goes first, and
    -- continuing packets go before the other entering ones (R235)
    (∀ s q, ∀ x ∈ s.rtr.bufs, mayBegin s q x = true → ∃ b, grantChoice s q = some b ∧ b ∈ s.rtr.bufs ∧ mayBegin s q b = true ∧
      (waitedLong s x = true → waitedLong s b = true ∧ b.since ≤ x.since) ∧
      (waitedLong s b = false → b.entering = true → x.entering = true)) ∧
    -- DOWN_HOLD_TMO: the packet is discarded, and counted at the port that it was held for (R231)
    (∀ s b q, s.rtr.bufs.find? (fun b => b.dir.isSome && b.egress.isNone && s.due b.downEnd) = some b → b.lastEgress = some q →
      exec .downHoldTmo s = .next ((releaseBuf { s with rtr := { s.rtr with bufs := s.rtr.bufs.erase b } } b).bump
        (RTR_PORT_STAT.DOWN_DROP q) 1)) ∧
    (∀ s b, s.rtr.bufs.find? (fun b => b.dir.isSome && b.egress.isNone && s.due b.downEnd) = some b → b.lastEgress = none →
      exec .downHoldTmo s = .next ((releaseBuf { s with rtr := { s.rtr with bufs := s.rtr.bufs.erase b } } b).bump
        (match hashPick (stripeSet (releaseBuf { s with rtr := { s.rtr with bufs := s.rtr.bufs.erase b } } b) (b.dir.getD 15)) b.pkt with
          | some q => RTR_PORT_STAT.DOWN_DROP q | none => RTR_ERR.NOROUTE) 1)) ∧
    -- ENTRY_WAIT: the packet is late from now on, counted once at its egress (R235)
    (∀ s b q, s.rtr.bufs.find? (fun b => waitedLong s b && !b.late && b.egress.isSome) = some b → b.egress = some q →
      exec .entryWait s = .next (({ s with rtr := { s.rtr with
        bufs := s.rtr.bufs.map fun x => if x = b then { x with late := true } else x } } : State).bump (RTR_CONG.ENTRY_LATE q) 1)))

/-- Routing epochs (R239 to R245) and congestion samples (R247). -/
def Obligations.RoutingEpochs : Prop :=
  -- FLIP_ARM: refused without OLD_FREE or a valid next version; a time in the future arms; a past time flips at once (R240)
  (∀ s, TablesOk s → s.fabricOpen = true → s.on RTR_EPOCH.OLD_FREE = true → s.on (RTR_VER_CFG.VALID (1 - s.epochBit)) = true →
    s.nowNs < flipTime s → Gives .flipArm s fun t => t.on RTR_EPOCH.ARMED = true ∧
      t.rtr.flipAt = flipTime s ∧ t.rd RTR_EPOCH.EPOCH = s.rd RTR_EPOCH.EPOCH) ∧
  (∀ s, s.fabricOpen = true → s.power ≠ 1 → s.on RTR_EPOCH.OLD_FREE = true → s.on (RTR_VER_CFG.VALID (1 - s.epochBit)) = true →
    flipTime s ≤ s.nowNs → exec .flipArm s = .next (doFlip (s.wr RTR_EPOCH.LATE 1) (flipTime s))) ∧
  (∀ s, s.fabricOpen = true → s.power ≠ 1 → (s.on RTR_EPOCH.OLD_FREE = false ∨ s.on (RTR_VER_CFG.VALID (1 - s.epochBit)) = false) →
    exec .flipArm s = .next (s.bump RTR_ERR.TBLWR 1)) ∧
  -- EPOCH_FLIP, at the time that was armed and outside a Tier 2: the epoch advances, draining begins with its deadline, and
  -- every link whose CAP has changed sends it again (R239, R242, R243, R246)
  (∀ s, s.on RTR_EPOCH.ARMED = true → s.rtr.flipAt ≤ s.nowNs → s.inTier2 = false → exec .epochFlip s = .next (doFlip s s.rtr.flipAt)) ∧
  (∀ s, s.inTier2 = true → exec .epochFlip s = .next s ∧ exec .drainDeadline s = .next s) ∧
  (∀ s t0, ∃ u, doFlip s t0 = capRefreshAll u ∧ u.rtr.drained = false ∧
    u.rtr.deadline = some (ns t0 + ns (100000 * s.rd RTR_TMR.DRAIN_LIMIT)) ∧ SameBut [.regs, .rtr] s u ∧
    (TablesOk s → u.rd RTR_EPOCH.EPOCH = (s.rd RTR_EPOCH.EPOCH + 1) % 2 ^ 16 ∧ u.on RTR_EPOCH.ARMED = false ∧
      u.on RTR_EPOCH.DRAINING = true ∧ u.on RTR_EPOCH.OLD_FREE = false)) ∧
  -- HOLD: the local packets of the next epoch bit are held, while a flip drains those of the current one (R245)
  (∀ s (on : Bool), TablesOk s → s.fabricOpen = true → Gives (.hold on) s fun t => t.on RTR_CTRL.HOLD = on ∧
    (on = false → t.rtr.holdBit = none) ∧
    (on = true → s.rtr.holdBit = none → t.rtr.holdBit =
      some (if s.on RTR_EPOCH.DRAINING then s.epochBit else 1 - s.epochBit))) ∧
  -- DRAIN_DEADLINE: packets of the old bit are discarded (R242)
  (∀ s, s.due s.rtr.deadline = true → s.inTier2 = false → Gives .drainDeadline s fun t =>
    t.rtr.bufs = s.rtr.bufs.filter (fun b => b2n b.pkt.epoch = s.epochBit) ∧ t.rtr.drained = true ∧ t.rtr.deadline = none) ∧
  -- CONG_SAMPLE, at the end of a window: both levels move toward the window's by their SHIFT, and the counts restart (R247)
  (∀ s (p : Port), TablesOk s → s.rtr.congFrom.get 0 p + ns (100 * s.rd RTR_CONG_CFG.PERIOD) ≤ s.now → Gives (.congSample p) s fun t =>
    t.rtr.blocked.get 0 p = 0 ∧ (t.link p).slots = 0 ∧ (t.link p).busySlots = 0 ∧
    t.rd (RTR_CONG.LEVEL p) = smooth (s.rd (RTR_CONG.LEVEL p)) (min 15 (16 * s.rtr.blocked.get 0 p / (180 * s.rd RTR_CONG_CFG.PERIOD)))
      (s.rd RTR_CONG_CFG.SHIFT) ∧
    t.rd (RTR_CONG.UTIL p) = smooth (s.rd (RTR_CONG.UTIL p)) (min 15 (16 * (s.link p).busySlots / (s.link p).slots))
      (s.rd RTR_CONG_CFG.SHIFT) ∧ SameBut [.regs, .links, .rtr] s t)

/-- The scheduler: the order of grants, shapers and their windows (R496 to R504, R511). -/
def Obligations.Scheduling : Prop :=
  -- SCHED_GRANT: the oldest response that may begin is the first packet that passes to the crossbar (R497)
  (∀ s o, TablesOk s → s.out.find? (fun x => x.flow = .response) = some o → (beginEgress s [] o).isSome = true →
    freeXbars s ≠ [] →
    Gives .schedGrant s fun t => ∃ rest, t.rtr.inject.map (·.pkt) = s.rtr.inject.map (·.pkt) ++ o.pkt :: rest) ∧
  -- without a response, the oldest control packet (R497)
  (∀ s o, TablesOk s → s.out.all (fun x => x.flow ≠ .response) = true → s.out.find? (fun x => x.flow = .control) = some o →
    (beginEgress s [] o).isSome = true → freeXbars s ≠ [] →
    Gives .schedGrant s fun t => ∃ rest, t.rtr.inject.map (·.pkt) = s.rtr.inject.map (·.pkt) ++ o.pkt :: rest) ∧
  (∀ s, s.out = [] → s.sch.flows = [] → s.sch.classes = [] → exec .schedGrant s = .next s) ∧
  -- SHAPER_REFILL: a window's rates are those taken at its start; a count rises to its burst (R502)
  (∀ s, s.now < ns (32 * (s.sch.window + 1)) → exec .shaperRefill s = .next s) ∧
  (∀ s, TablesOk s →
    ns (32 * (s.sch.window + 1)) ≤ s.now → Gives .shaperRefill s fun t => t.sch.window = s.sch.window + 1 ∧
      ∀ i < 64, tokensOf t i = refill (tokensOf s i) ((16 * s.sch.rates.get 0 i : Nat) : Int) (burstOf s i) ∧
        t.sch.rates.get 0 i = s.rd (SCH_SHAPER.RATE i)) ∧
  -- SHAPER_WRITE: RATE is written, BURST unless 0, and the count is clamped only where it lies above the new burst (R504)
  (∀ s (n : Fin 64) (w : Word), TablesOk s → s.fabricOpen = true →
    Gives (.shaperWrite n w) s fun t => t.rd (SCH_SHAPER.RATE n) = w.toNat % 2 ^ 16 ∧
      t.rd (SCH_SHAPER.BURST n) = (if w.toNat / 2 ^ 16 = 0 then s.rd (SCH_SHAPER.BURST n) else w.toNat / 2 ^ 16) ∧
      tokensOf t n = min (tokensOf s n) (burstOf t n) ∧ ∀ i < 64, i ≠ n.val → tokensOf t i = tokensOf s i)

/-- A port's way from OFF to ACTIVE (R142 to R149): each command acts in its state, within its timer. -/
def Obligations.LaneTraining : Prop :=
  ∀ s (p : Port), TablesOk s →
    -- PORT_ON: the PLL starts, or with TEST set the test; PORT_OFF: the lanes stop, the link goes DOWN (R142, R159, R197)
    (∀ errs, s.fabricOpen = true → s.portPresent p = true → s.laneState p = 0 → Gives (.portOn p errs none) s fun t =>
      (s.rd (LAN_PORT_CFG.TEST p) = 0 → t.laneState p = 1 ∧ (t.lanePort p).timer = some (s.after 200000)) ∧
      (s.rd (LAN_PORT_CFG.TEST p) ≠ 0 → t.laneState p = 10 ∧ t.on (LAN_PORT_STATUS.PLL_LOCKED p) = true) ∧
      t.rd (LAN_PORT_CFG.OFF p) = 0 ∧ t.rd (LAN_PORT_STATUS.FAIL_CAUSE p) = 0) ∧
    (∀ errs, s.fabricOpen = true → s.portPresent p = false → exec (.portOn p errs none) s = .next (drowseExit s)) ∧
    -- a test that runs counts its bit errors; IJTAG_ACCESS starts a test of a port that is Off (R159)
    (∀ errs, s.fabricOpen = true → s.portPresent p = true → s.laneState p = 10 → exec (.portOn p errs none) s =
      .next (testErrors (drowseExit s) p errs)) ∧
    (∀ errs (c : BitVec 3), s.publicSegments = true → s.portPresent p = true → s.laneState p = 0 → 1 ≤ c.toNat → c.toNat ≤ 4 →
      Gives (.portOn p errs (some c)) s fun t => t.laneState p = 10 ∧ t.rd (LAN_PORT_CFG.TEST p) = c.toNat) ∧
    (∀ errs c, s.publicSegments = false → exec (.portOn p errs (some c)) s = .next s) ∧
    (s.fabricOpen = true → s.portPresent p = true → Gives (.portOff p) s fun t => t.laneState p = 0 ∧
      t.rd (LAN_PORT_CFG.OFF p) = 1 ∧ t.rd (LAN_PORT_STATUS.WIDTH p) = 0 ∧ t.linkState p = 0) ∧
    -- RECAL: in any state but FAILED the PLL restarts (R142)
    (s.fabricOpen = true → s.portPresent p = true → s.laneState p ≠ 9 → Gives (.recal p) s fun t =>
      t.laneState p = 1 ∧ t.on (LAN_PORT_STATUS.PLL_LOCKED p) = false ∧ (t.lanePort p).timer = some (s.after 200000)) ∧
    -- LANE_PLL_LOCK: DETECT (R142); LANE_PLL_TMO: the attempt fails with cause 1 and F3, and the link is down (R144)
    (s.laneState p = 1 → s.due (s.lanePort p).timer = false → Gives (.lanePllLock p) s fun t =>
      t.laneState p = 2 ∧ t.on (LAN_PORT_STATUS.PLL_LOCKED p) = true ∧ SameBut [.regs, .lanes] s t) ∧
    (s.laneState p = 1 → s.due (s.lanePort p).timer = true → s.rd (LAN_PORT_STATUS.ATTEMPTS p) < (s.lanePort p).retries →
      Gives (.lanePllTmo p) s fun t => t.laneState p = 1 ∧ t.rd (LAN_PORT_STATUS.FAIL_CAUSE p) = 1 ∧
        t.hhg.waiting = s.hhg.waiting ++ ⟨0x0C, 3, 1, p, false⟩ :: (if s.linkState p = 0 then [] else [⟨0x0D, 2, 1, p, false⟩]) ∧
        t.linkState p = 0 ∧ t.rd (LAN_PORT_STATUS.ATTEMPTS p) = s.rd (LAN_PORT_STATUS.ATTEMPTS p) + 1) ∧
    (s.laneState p = 1 → s.due (s.lanePort p).timer = true → (s.lanePort p).retries ≤ s.rd (LAN_PORT_STATUS.ATTEMPTS p) →
      Gives (.lanePllTmo p) s fun t => t.laneState p = 9) ∧
    -- SIGNAL_DETECT: a signal on 2 lanes or more starts the equalisers from their seeds (R142, R151)
    (∀ mask : BitVec 8, s.laneState p = 2 → 2 ≤ popcount8 (mask.toNat % 2 ^ s.laneCount) → Gives (.signalDetect p mask) s fun t =>
      t.laneState p = 3 ∧ (t.lanePort p).timer = some (s.after (1000000 * (s.lanePort p).adaptMs)) ∧
      ∀ k ∈ lanesOf s p, t.reg (LAN_EQ_LIVE_RX.CTLE k).addr = s.reg (LAN_EQ_SEED_RX.CTLE k).addr) ∧
    (∀ mask : BitVec 8, s.laneState p = 2 → popcount8 (mask.toNat % 2 ^ s.laneCount) < 2 →
      exec (.signalDetect p mask) s = .next s) ∧
    -- ADAPT_DONE: an offset beyond OFFSET_PPM fails the attempt with cause 2, else ALIGN with a drawn seed (R135, R145)
    (∀ ofs live, s.laneState p = 3 → s.due (s.lanePort p).timer = true →
      (((List.range s.laneCount).filter fun i => !(s.lane (8 * p + i)).excluded).any fun i =>
        10 * (s.lanePort p).offsetPpm < (ofs.getD i 0).natAbs) = true →
      exec (.adaptDone p ofs live) s = .next (afterLane (attemptFails s p 2 2 2) p)) ∧
    (∀ ofs live, s.laneState p = 3 → s.due (s.lanePort p).timer = true →
      (((List.range s.laneCount).filter fun i => !(s.lane (8 * p + i)).excluded).any fun i =>
        10 * (s.lanePort p).offsetPpm < (ofs.getD i 0).natAbs) = false →
      Gives (.adaptDone p ofs live) s fun t => t.laneState p = 4 ∧ 1 ≤ (t.lanePort p).seed ∧ (t.lanePort p).seed < 2 ^ 31 ∧
        (t.lanePort p).timer = some (s.after (100000 * (s.lanePort p).alignTmo))) ∧
    -- ALIGN_DONE: every lane in use is aligned and the far end says so: EXCHANGE (R142, R146)
    (∀ f, s.laneState p = 4 → s.due (s.lanePort p).timer = false →
      alignedAll s (lanesOf s p) = true → (s.lanePort p).farAligned = true → (s.lanePort p).far = some f →
      Gives (.alignDone p) s fun t => t.laneState p = 5 ∧ (t.lanePort p).count = 15 ∧ t.rd (LAN_PORT_FAR.FAR_NODE p) = f.1 % 2 ^ 20 ∧ t.rd (LAN_PORT_FAR.FAR_PORT p) = f.2.1 % 16) ∧
    -- ALIGN_TMO: cause 3, or 6 where the skew was too large (R146)
    (s.laneState p = 4 → (s.due (s.lanePort p).timer || (s.lanePort p).skewBad) = true → exec (.alignTmo p) s = .next
      (afterLane (attemptFails (if (s.lanePort p).skewBad then s else mapLanes s p fun l =>
        { l with excluded := l.excluded || !l.aligned }) p (if (s.lanePort p).skewBad then 6 else 3) 2 2) p)) ∧
    -- EXCH_DONE: both ends agree on the seed and the width: ACTIVE, and the link starts (R147 to R149, R197)
    (exchReady s p = true → exec (.exchDone p) s = .next
      (linkActive (laneActive s p (agreedWidth s p) (agreedWidth s p) ((leads s p).getD true) (electedSeed s p)) p)) ∧
    (exchReady s p = false → exec (.exchDone p) s = .next s) ∧
    (∀ w cur l sd t, t = laneActive s p w cur l sd → t.laneState p = 6 ∧ t.rd (LAN_PORT_STATUS.WIDTH_MAX p) = widthCode w ∧
      t.rd (LAN_PORT_STATUS.WIDTH p) = widthCode cur ∧ (t.lanePort p).linkSeed = sd ∧ t.rd (LAN_PORT_STATUS.LEADER p) = b2n l ∧
      (w < s.laneCount → t.hhg.waiting = s.hhg.waiting ++ [⟨0x0C, 2, 7, p, false⟩])) ∧
    -- EXCH_TMO: a width below 2 lanes, a loop that is not permitted, or the timeout (R142, R147, R148)
    (s.laneState p = 5 → (s.lanePort p).farMask.isSome = true → agreedWidth s p < 2 →
      exec (.exchTmo p) s = .next (afterLane (attemptFails s p 7 2 2) p)) ∧
    (s.laneState p = 5 → (s.lanePort p).farMask = none → (s.lanePort p).far = some (ownTriple s p) →
      s.on (LAN_PORT_CFG.LOOPBACK_OK p) = false → exec (.exchTmo p) s = .next (afterLane (attemptFails s p 5 2 2) p)) ∧
    (s.laneState p = 5 → (s.lanePort p).farMask = none → (s.lanePort p).far = none → s.due (s.lanePort p).timer = true →
      exec (.exchTmo p) s = .next (afterLane (attemptFails s p 4 2 2) p)) ∧
    -- of two triples the lower leads; a loop only where it is permitted (R147)
    (∀ f, (s.lanePort p).far = some f → ownTriple s p ≠ f → leads s p = some (tripleLt (ownTriple s p) f))

/-- Control frames and what a lane measures (R139 to R141, R146, R151 to R158, R170 to R174, R188). -/
def Obligations.LaneEvents : Prop :=
  (∀ s (p : Port) (frames : List CtlFrame), TablesOk s →
    -- TS1, TS2: markers align their lanes in ALIGN, and both bring the far end's triple (R139, R146, R147)
    (∀ f inv x, s.laneState p = 5 → frames = [f] → readCtl f.bytes 0x1E = some (inv, x) → Gives (.ts1 p frames) s fun t =>
      (t.lanePort p).far = some (leAt x 10 3 % 2 ^ 20, leAt x 9 1 / 16,
        match (s.lanePort p).far with
        | some g => if 2 ^ 31 ≤ leAt x 13 4 then g.2.2 else leAt x 13 4 % 2 ^ 31
        | none => leAt x 13 4 % 2 ^ 31)) ∧
    (∀ f inv x, s.laneState p = 5 → frames = [f] → readCtl f.bytes 0x2D = some (inv, x) → Gives (.ts2 p frames) s fun t =>
      (t.lanePort p).farMask = some (leAt x 17 1) ∧ (t.lanePort p).farCount = some (leAt x 19 1) ∧
      (∀ m, (s.lanePort p).farMask = some m → m ≠ leAt x 17 1 → (t.lanePort p).count = 15 ∧ (t.lanePort p).zeroSent = false)) ∧
    (s.laneState p ≠ 4 → s.laneState p ≠ 5 → exec (.ts1 p frames) s = .next s ∧ exec (.ts2 p frames) s = .next s) ∧
    -- EI: idle follows on the lanes that carry it; DX: they realign (R139, R141, R154)
    (6 ≤ s.laneState p → s.laneState p ≤ 8 → exec (.ei p frames) s = .next ((ctlLanes s p 0x4B (frames.map fun f =>
      (f.lane, f.ui, f.bytes))).foldl (fun t k => t.setLane k { t.lane k with rxIdle := true }) s)) ∧
    (6 ≤ s.laneState p → s.laneState p ≤ 8 → exec (.dx p frames) s = .next ((ctlLanes s p 0x78 (frames.map fun f =>
      (f.lane, f.ui, f.bytes))).foldl (fun t k =>
        (t.setLane k { t.lane k with rxIdle := false }).wr (LAN_LANE_STATUS.ELASTIC k) 0) s))) ∧
  (∀ s (k : Lane), TablesOk s →
    -- ELASTIC_SLIP and CDR_LOCK_LOSS on a lane of an ACTIVE port; SYMBOL_LOCK_REGAINED (R153, R188)
    (∀ fill : BitVec 5, s.laneState (k / 8) = 6 → fill.toInt.natAbs ≤ 10 → exec (.elasticSlip k fill) s =
      .next (s.wr (LAN_LANE_STATUS.ELASTIC k) fill.toNat)) ∧
    (∀ fill : BitVec 5, s.laneState (k / 8) = 6 → 10 < fill.toInt.natAbs → exec (.elasticSlip k fill) s =
      .next (laneLockLost ((s.bump (LAN_LANE_ERR.SLIP k) 1).wr (LAN_LANE_STATUS.ELASTIC k) 0) k)) ∧
    (s.laneState (k / 8) = 6 → exec (.cdrLockLoss k) s = .next (laneLockLost s k)) ∧
    (∀ fill, s.laneState (k / 8) ≠ 6 → exec (.elasticSlip k fill) s = .next s ∧ exec (.cdrLockLoss k) s = .next s) ∧
    (s.on (LAN_LANE_STATUS.IN_USE k) = true → s.linkState (k / 8) ≠ 0 → s.linkState (k / 8) ≠ 7 →
      (s.link (k / 8)).frozen = none → ∀ t, t = laneLockLost s k → (t.lane k).lockLost = true ∧
        (t.link (k / 8)).frozen = some s.now ∧
        (t.link (k / 8)).lockFrom = some s.now) ∧
    (s.linkState (k / 8) = 7 → exec (.symbolLockRegained k) s = .next (s.setLane k { s.lane k with lockLost := false })) ∧
    (s.linkState (k / 8) ≠ 7 → ∀ u, u = s.setLane k { s.lane k with lockLost := false } →
      ((lanesOf u (k / 8)).any fun j => (u.lane j).lockLost && u.on (LAN_LANE_STATUS.IN_USE j)) = false →
      exec (.symbolLockRegained k) s = .next (thaw u (k / 8))) ∧
    -- ADAPT_STEP: once a PERIOD, each parameter of a lane in use moves by at most one code; a parked lane's holds (R151)
    (∀ dirs, s.on (LAN_LANE_STATUS.IN_USE k) = false → exec (.adaptStep k dirs) s = .next s) ∧
    (∀ dirs, s.laneState (k / 8) = 6 → s.on (LAN_LANE_STATUS.IN_USE k) = true → (s.lane k).lastStep + ns (100000 * s.rd LAN_ADAPT_CFG.PERIOD) ≤ s.now →
      Gives (.adaptStep k dirs) s fun t => ∀ f ∈ rxParams,
        (rxParam (t.reg (LAN_EQ_LIVE_RX.CTLE k).addr) f - rxParam (s.reg (LAN_EQ_LIVE_RX.CTLE k).addr) f).natAbs ≤ 1) ∧
    -- OWL_HEALTH_SCAN: the summary, and F1 for an eye that is too small (R158, R174)
    (∀ w h : BitVec 8, s.on OWL_HEALTH_CFG.ENABLE = true → s.on OWL_STATUS.BUSY = false → owlLaneOk s k = true →
      (s.lane k).scanAt = none → Gives (.owlHealthScan k w h) s fun t => t.rd (OWL_SUMMARY.WIDTH k) = w.toNat ∧
        t.rd (OWL_SUMMARY.HEIGHT k) = h.toNat ∧
        t.hhg.waiting = s.hhg.waiting ++ (if w.toNat < s.rd OWL_HEALTH_CFG.MIN_WIDTH ∨ h.toNat < s.rd OWL_HEALTH_CFG.MIN_HEIGHT
          then [⟨0x0C, 1, 0x11, k, false⟩] else []))) ∧
  -- OWL_SCAN_START and OWL_SCAN_DONE (R157, R170, R172)
  (∀ s (w : Word), TablesOk s → s.fabricOpen = true → s.on OWL_STATUS.BUSY = false → Gives (.owlScanStart w false) s fun t =>
    t.reg OWL_CTRL.LANE.addr = w &&& 0x0FFF7FFF#32 ∧
    (owlLaneOk s (w.toNat % 128) = true → t.rd OWL_CTRL.EYE ≠ 3 → t.on OWL_STATUS.BUSY = true ∧ t.lanes.owlEnd.isSome = true) ∧
    (owlLaneOk s (w.toNat % 128) = false ∨ t.rd OWL_CTRL.EYE = 3 → t.on OWL_STATUS.BUSY = false ∧ t.on OWL_STATUS.REFUSED = true)) ∧
  -- a request of the public segments takes the sampler, and ends a scan that runs (R158)
  (∀ s (w : Word), TablesOk s → s.publicSegments = true → Gives (.owlScanStart w true) s fun t => t.lanes.owlJtag = true ∧
    t.on OWL_STATUS.BUSY = false ∧ (s.on OWL_STATUS.BUSY = true → t.on OWL_STATUS.REFUSED = true)) ∧
  (∀ s (w : Word), s.publicSegments = false → exec (.owlScanStart w true) s = .next s) ∧
  (∀ s (n : Word), TablesOk s → s.on OWL_STATUS.BUSY = true → owlLaneOk s (s.rd OWL_CTRL.LANE) = true →
    s.due s.lanes.owlEnd = true → Gives (.owlScanDone n) s fun t => t.reg OWL_COUNT.MISMATCH.addr = n ∧
      t.on OWL_STATUS.DONE = true ∧ t.on OWL_STATUS.BUSY = false ∧ t.lanes.owlEnd = none) ∧
  (∀ s (n : Word), TablesOk s → s.on OWL_STATUS.BUSY = true → owlLaneOk s (s.rd OWL_CTRL.LANE) = false →
    Gives (.owlScanDone n) s fun t => t.on OWL_STATUS.REFUSED = true ∧ t.on OWL_STATUS.BUSY = false)

/-- Data on a link: flits, acknowledgements, losses and their timers (R178 to R188, R197). -/
def Obligations.LinkData : Prop :=
  ∀ s (p : Port) l, TablesOk s → l = s.link p →
    -- FRAME_SLOT: a port in training sends what its state sends (R142); without fc, or in the safe state, nothing (R184)
    (s.on CSP_STATUS.FC_RUN = true → s.safe = false → s.portPresent p = true → s.laneState p ≠ 6 →
      exec (.frameSlot p) s = .next (wakeUp (laneSlot s p) p)) ∧
    (s.on CSP_STATUS.FC_RUN = false ∨ s.safe = true → exec (.frameSlot p) s = .next s) ∧
    -- an ACTIVE port with nothing to send sends an IDLE flit with its next sequence number (R184)
    (s.on CSP_STATUS.FC_RUN = true → s.safe = false → s.portPresent p = true → s.laneState p = 6 → s.linkState p ≠ 0 → l.txWidth ≠ 0 →
      (chooseSlot s p = .idle → exec (.frameSlot p) s = .next (wakeUp (sendFlit s p { fseq := l.txNext } (List.replicate 240 0)) p)) ∧
      -- a flit again, its replay going on with the next (R187)
      (∀ f, chooseSlot s p = .again f → f.marked = false → exec (.frameSlot p) s = .next (wakeUp (sendFlit (s.setLink p { l with
          replayAt := if l.replay.any (fun g => g.seq = (f.seq + 1) % 65536) then some ((f.seq + 1) % 65536) else none }) p
        { fseq := f.seq, kind := f.kind, blen := f.blen, keyph := f.keyph, first := f.first, pwords := f.pwords } f.payload) p)) ∧
      -- an uncorrectable replay flit is a protocol error (R583)
      (∀ f, chooseSlot s p = .again f → f.marked = true → exec (.frameSlot p) s = .next (wakeUp (protoError s p) p)) ∧
      -- new data on a link that is not sealed: the words it carries leave, and the flit is kept for replay (R180, R184)
      (∀ words, chooseSlot s p = .data none words → s.sealed p = false → exec (.frameSlot p) s = .next (wakeUp (sendNew (s.setLink p { l with txWords := l.txWords.drop words.length }) p
          { kind := 1, first := (match words.findIdx? (·.1) with | some i => i | none => 31), pwords := words.length }
          (dataPayload [] words)) p))) ∧
    -- a replay that is under way comes before anything new (R187), once a resumption or a wake has been confirmed (R207, R684)
    (l.resuming = true ∨ l.waking = true → chooseSlot s p = .idle) ∧
    (∀ a, l.resuming = false → l.waking = false → l.replayAt = some a → chooseSlot s p = (match l.replay.find? (fun f => f.seq = a) with
      | some f => .again f | none => .idle)) ∧
    -- FLIT_RX: a flit that cannot be read, by its stuffing, its code or its CRC, is a loss, and asks for a NAK once (R178, R186)
    (∀ levels s1 bytes bad word, s.laneState p = 6 → s.linkState p ≠ 0 → l.rxWidth ≠ 0 → (rxLanes s p).length = l.rxWidth →
      rxAllLanes (8 / l.rxWidth) (List.zip (rxLanes s p) (levels ++ List.replicate l.rxWidth [])) s = (s1, bytes, bad) →
      word = (List.range 264).map (fun j => (bytes.getD (j % l.rxWidth) []).getD (j / l.rxWidth) 0) →
      (bad = true ∨ (rsDecode word).find? (fun c => leAt c.1 252 4 = crc32c (c.1.take 252)) = none) →
      exec (.flitRx p levels) s = .next (wakeUp (lossDetected
        (s1.setLink p { s1.link p with rxFrames := ((s1.link p).rxFrames + 8 / l.rxWidth) % 2 ^ 32 }) p) p)) ∧
    (∀ levels s1 bytes s2 word flit js s3, s.laneState p = 6 → s.linkState p ≠ 0 → l.rxWidth ≠ 0 → (rxLanes s p).length = l.rxWidth →
      rxAllLanes (8 / l.rxWidth) (List.zip (rxLanes s p) (levels ++ List.replicate l.rxWidth [])) s = (s1, bytes, false) →
      s2 = s1.setLink p { s1.link p with rxFrames := ((s1.link p).rxFrames + 8 / l.rxWidth) % 2 ^ 32 } →
      word = (List.range 264).map (fun j => (bytes.getD (j % l.rxWidth) []).getD (j / l.rxWidth) 0) →
      (rsDecode word).find? (fun c => leAt c.1 252 4 = crc32c (c.1.take 252)) = some (flit, js) → (s2.link p).resuming = false →
      s3 = js.foldl (fun t j => t.bump (LAN_LANE_ERR.CORR_SYM ((rxLanes s p).getD (j % l.rxWidth) 0)) 1) s2 →
      exec (.flitRx p levels) s = .next (wakeUp (takeFlit (wakeSeen s3 p (hdrOf flit)) p flit) p)) ∧
    (l.nakPending = false → lossDetected s p = s.setLink p { l with nakPending := true, nakSend := true }) ∧
    (l.nakPending = true → lossDetected s p = s) ∧
    -- the timers: NAK_TMO, REPLAY_TMO, LOCK_TMO, RETRAIN_BOUND, CAP_TMO (R186 to R188, R197)
    (l.nakPending = true → l.frozen = none → s.ran l.nakFrom (100 * s.rd (LNK_TMR0.NAK_TMO p)) = true →
      exec (.nakTmo p) s = .next (s.setLink p { l with nakSend := true, nakFrom := none })) ∧
    (l.replay ≠ [] → l.frozen = none → l.resuming = false → s.ran l.replayFrom (100 * s.rd (LNK_TMR0.REPLAY_TMO p)) = true →
      s.linkState p ≠ 0 → exec (.replayTmo p) s = .next (startReplay s p ((l.txAcked + 1) % 65536) true)) ∧
    (s.linkState p ≠ 7 → s.ran l.lockFrom (100000 * s.rd (LNK_TMR0.LOCK_TMO p)) = true → exec (.lockTmo p) s = .next (linkDown s p (some 0x01) true)) ∧
    (∀ t0 rest, s.linkState p = 7 → l.retrainFrom = some (t0, rest) →
      s.ran (some t0) (100000 * s.rd (LNK_TMR0.LOCK_TMO p) + rest) = true → exec (.retrainBound p) s = .next (linkDown s p (some 0x01) true)) ∧
    (s.linkState p = 1 → s.due l.capEnd = true → exec (.capTmo p) s = .next (linkDown
      (if (s.sealLink p).running then s.wr (SEA_LINK0.CAUSE p) 5 else s) p (some 0x03) true)) ∧
    -- a link that goes DOWN discards its replay buffer, counts and reports F2 (R197)
    (∀ c r t, s.linkState p ≠ 0 → t = linkDown s p (some c) r → t.linkState p = 0 ∧ t.rd (LNK_STATUS.VC_RUN p) = 0 ∧
      t.on (LNK_STATUS.SEALED p) = false ∧ t.hhg.waiting = s.hhg.waiting ++ [⟨0x0D, 2, c, p, false⟩] ∧
      t.rd (LNK_ERR.DOWN p) = min (s.rd (LNK_ERR.DOWN p) + 1) 255)

/-- Link control: probes, capabilities, verdicts, the commands of a link (R188, R196 to R204). -/
def Obligations.LinkControl : Prop :=
  ∀ s (p : Port) m u at_, TablesOk s → takeLinkMsg s p m = (u, at_) →
    -- PROBE is answered with ECHO (R196, R201)
    (isLinkMsg m 1 = true → s.linkState p ≠ 0 → (u.link p).resuming = false → exec (.probe p m) s =
      .next (sendLink u p 0x02 1 ((m.drop 2).take 8 ++ natLE 8 0 ++ natLE 4 (at_ / 160000000)))) ∧
    -- the eighth ECHO is followed by CAP; the best probe gives the round trip (R201)
    (isLinkMsg m 2 = true → s.linkState p = 1 → (s.link p).capSent = false → ∀ l rtt ofs better, l = u.link p →
      rtt = at_ / 160000000 - leAt m 2 8 - leAt m 18 4 → ofs = (leAt m 10 8 : Int) + (rtt / 2 : Nat) - (at_ / 160000000 : Nat) →
      better = (match l.bestRtt with | some b => decide (rtt < b) | none => true) → ∀ l1, l1 = { l with
        echoes := l.echoes + 1, bestRtt := if better then some rtt else l.bestRtt, bestOfs := if better then ofs else l.bestOfs } →
      (l.echoes < 7 → exec (.echo p m) s = .next (u.setLink p l1)) ∧
      (7 ≤ l.echoes → exec (.echo p m) s =
        .next (judge (sendCap (renewCap (putRtt (u.setLink p l1) p (l1.bestRtt.getD 0) l1.bestOfs) p) p) p))) ∧
    -- CAP: the far capabilities are judged once this end has sent its own; a quarantined link exchanges again (R197, R200)
    (isLinkMsg m 3 = true → s.linkState p ≠ 0 → (u.link p).resuming = false →
      ∀ x v w, x = enterExchange u p → v = (if u.linkState p = 2 then
        (if (x.link p).ownGen = (u.link p).ownGen then x else sendCap x p) else u) →
      w = putVcRun (v.setLink p { v.link p with farCap := some m }) p →
      ((w.link p).capSent = true → exec (.cap p m) s = .next (judge w p)) ∧
      ((w.link p).capSent = false → exec (.cap p m) s = .next w)) ∧
    -- after a retrain, a PROBE or CAP shows a far end that has lost its state: DOWN, and a new exchange (R684)
    (s.linkState p ≠ 0 → (u.link p).resuming = true → (isLinkMsg m 1 = true → exec (.probe p m) s = .next (resumeBroken u p)) ∧
      (isLinkMsg m 3 = true → exec (.cap p m) s = .next (resumeBroken u p))) ∧
    -- VERDICT: the far verdict is kept, and both verdicts decide (R197, R201)
    (isLinkMsg m 4 = true → s.linkState p ≠ 0 → exec (.verdict p m) s =
      .next (evaluate (u.setLink p { u.link p with farVerdict := some (leAt m 2 2, leAt m 4 1) }) p)) ∧
    -- two verdicts without a cause bring an exchanging link UP; a cause quarantines it, with F2 (R197)
    (s.linkState p = 1 → (∃ a b, currentVerdicts (s.link p) = (some a, some b) ∧ a = 0 ∧ b = 0) →
      evaluate s p = enterUp s p ∧ (enterUp s p).linkState p = 3) ∧
    (s.linkState p = 1 ∨ s.linkState p = 3 →
      ∀ c, c = (currentVerdicts (s.link p)).1.getD 0 ||| (currentVerdicts (s.link p)).2.getD 0 → c ≠ 0 → c < 2 ^ 11 →
      evaluate s p = enterQuarantine s p c ∧ (enterQuarantine s p c).linkState p = 2 ∧
      (enterQuarantine s p c).hhg.waiting = s.hhg.waiting ++ [⟨0x0D, 2, 0x02, p + c * 2 ^ 16, false⟩]) ∧
    -- REEXCH of a quarantined link (R197, R215); RETRAIN (R188)
    (s.fabricOpen = true → s.linkState p = 2 → exec (.reexch p) s =
      .next (sendProbes (enterExchange (drowseExit s) p) p)) ∧
    (s.fabricOpen = true → s.linkState p ≠ 2 → exec (.reexch p) s = .next (drowseExit s)) ∧
    (s.fabricOpen = true → s.linkState p ≠ 0 → s.linkState p ≠ 7 → 6 ≤ s.laneState p → s.laneState p ≤ 8 →
      Gives (.retrain p) s fun t => t.linkState p = 7 ∧ t.laneState p = 2 ∧ (t.link p).leftState = s.linkState p ∧
        (t.link p).replay = (s.link p).replay ∧ (t.link p).frozen.isSome = true ∧
        (t.link p).retrainFrom.map (·.1) = some s.now) ∧
    (s.fabricOpen = true → s.laneState p < 6 → exec (.retrain p) s = .next (drowseExit s))

/-- Sleep, wake and width of a link (R154, R155, R205 to R209). -/
def Obligations.LinkSleepWidth : Prop :=
  ∀ s (p : Port) l, TablesOk s → l = s.link p →
    -- LINK_SLEEP_CMD of an UP link: SLEEP_REQ, and DRAIN (R205)
    (∀ deep, s.fabricOpen = true → s.linkState p = 3 → Gives (.linkSleepCmd p deep) s fun t => t.linkState p = 4 ∧
      (t.link p).sleepReq = some (if deep then 2 else 1) ∧ (t.link p).bpLink = l.bpLink ++ [bypassMsg 1 0x10 1 (natLE 1
        (if deep then 2 else 1))] ∧ (t.link p).sleepEnd = some (s.after (100 * s.rd (LNK_TMR1.SLEEP_TMO p)))) ∧
    (∀ deep, s.fabricOpen = true → s.linkState p ≠ 3 → exec (.linkSleepCmd p deep) s = .next (drowseExit s)) ∧
    -- SLEEP_REQ: refused by NO_SLEEP or a rekey, accepted into DRAIN, or crossing an own request (R205, R209)
    (∀ m u deep at_, isLinkMsg m 0x10 = true → s.linkState p ≠ 0 → takeLinkMsg s p m = (u, at_) → deep = leAt m 2 1 →
      (s.on (LNK_CTRL.NO_SLEEP p) = true → exec (.sleepReq p m) s = .next (sendLink u p 0x12 1 [1])) ∧
      (s.on (LNK_CTRL.NO_SLEEP p) = false → rekeying s p = true → exec (.sleepReq p m) s = .next (sendLink u p 0x12 1 [2])) ∧
      (s.on (LNK_CTRL.NO_SLEEP p) = false → rekeying s p = false →
        (s.linkState p = 3 → exec (.sleepReq p m) s = .next (sleepAckNow ((setLinkState u p 4).setLink p
          { u.link p with responding := some deep, ackSent := false }) p)) ∧
        (∀ own, s.linkState p = 4 → (u.link p).sleepReq = some own → exec (.sleepReq p m) s =
          .next (u.setLink p { u.link p with sleepAcked := some (max own deep) })))) ∧
    -- SLEEP_ACK, SLEEP_NAK, WAKE, SLEEP_TMO (R205, R206, R209)
    (∀ m u at_, takeLinkMsg s p m = (u, at_) →
      (isLinkMsg m 0x11 = true → s.linkState p = 4 → (u.link p).sleepReq.isSome = true → exec (.sleepAck p m) s =
        .next (u.setLink p { u.link p with sleepAcked := some (leAt m 2 1), sleepEnd := none })) ∧
      (isLinkMsg m 0x12 = true → s.linkState p = 4 → l.sleepReq.isSome = true → exec (.sleepNak p m) s =
        .next (if s.csp.entering.isSome then abortEntry (sleepCancel u p) else sleepCancel u p)) ∧
      (isLinkMsg m 0x13 = true → s.linkState p = 4 → exec (.wake p m) s = .next (sleepCancel u p)) ∧
      (isLinkMsg m 0x13 = true → s.linkState p ≠ 4 → exec (.wake p m) s = .next u)) ∧
    (s.linkState p = 4 → l.sleepReq.isSome = true → l.sleepAcked = none → s.due l.sleepEnd = true →
      exec (.sleepTmo p) s = .next ((sleepCancel s p).bump (LNK_ERR.SLEEP_FAIL p) 1)) ∧
    -- DRAIN_DONE: with the handshake complete and nothing left to acknowledge the lanes sleep (R205)
    (∀ way, TablesOk s → l.sleepAcked = some way → s.linkState p = 4 → drained s p = true → Gives (.drainDone p) s fun v =>
      v.linkState p = (if way = 2 then 6 else 5) ∧ (v.link p).sleepReq = none ∧
      (s.laneState p = 6 → v.laneState p = (if way = 2 then 8 else 7))) ∧
    -- LINK_WAKE: in DRAIN the sleep is cancelled with WAKE; asleep, the exit starts at once for the far end, and in its turn
    -- within WAKE_SLOTS for this end (R206, R546); a Dormouse has 40 µs to reach ACTIVE (R155)
    (∀ far, s.linkState p = 4 → exec (.linkWake p far) s = .next (sendLink (sleepCancel s p) p 0x13 1 [])) ∧
    (asleep s p = true → s.power ≠ 2 → s.csp.entering ≠ some 2 → exec (.linkWake p true) s = .next
      (linkWake { s with csp := { s.csp with waking := s.csp.waking.erase p, slots := s.csp.slots + 1, unpaid :=
        (s.csp.unpaid || !decide (s.csp.slots < min (s.rd CSP_CFG.WAKE_SLOTS) (sleepers s).length)) } } p)) ∧
    (asleep s p = true → s.csp.slots < min (s.rd CSP_CFG.WAKE_SLOTS) (sleepers s).length → exec (.linkWake p false) s = .next
      (linkWake { s with csp := { s.csp with slots := s.csp.slots + 1 } } p)) ∧
    (asleep s p = true → min (s.rd CSP_CFG.WAKE_SLOTS) (sleepers s).length ≤ s.csp.slots → s.csp.waking.contains p.val = false →
      exec (.linkWake p false) s = .next { s with csp := { s.csp with waking := s.csp.waking ++ [p.val] } }) ∧
    (s.linkState p = 6 → s.laneState p = 8 → (s.lanePort p).timer = none → (linkWake s p).lanePort p = { s.lanePort p with timer := some (s.after 40000) }) ∧
    -- DOZE_EXIT, SHORT_TRAINING of a port whose wake does not wait: ACTIVE again (R154, R155)
    (s.laneState p = 7 → wakeGranted s p = true → (s.lanePort p).timer.isSome = true →
      exec (.dozeExit p) s = .next (linkActive (laneDozeExit s p) p) ∧ (laneDozeExit s p).laneState p = 6) ∧
    (s.laneState p = 7 → (s.lanePort p).timer = none ∨ wakeGranted s p = false → exec (.dozeExit p) s = .next s) ∧
    (∀ live (ts1 ts2 : List CtlFrame) v, s.laneState p = 8 → wakeGranted s p = true →
      v = shortTrained s p live (ts1.map fun f => (f.lane, f.ui, f.bytes)) (ts2.map fun f => (f.lane, f.ui, f.bytes)) →
      (shortReady v p = true → exec (.shortTraining p live ts1 ts2) s = .next (linkActive (laneShortTraining v p) p) ∧
        (laneShortTraining v p).laneState p = 6) ∧
      (shortReady v p = false → exec (.shortTraining p live ts1 ts2) s = .next s)) ∧
    -- the link waits until an IDLE has gone out and the far FSEQ has matched; then it is UP with its sequence state (R207)
    (s.linkState p = 5 ∨ s.linkState p = 6 → (linkActive s p).linkState p = s.linkState p ∧
      ((linkActive s p).link p).waking = true ∧ ((linkActive s p).link p).txNext = l.txNext ∧
      ((linkActive s p).link p).rxExpect = l.rxExpect) ∧
    (l.waking = true → l.wakeIdle = true → l.wakeMatch = true → wakeUp s p = capRefresh (repoint ((setLinkState s p 3).setLink p
      { l with waking := false, wakeIdle := false, wakeMatch := false })) p) ∧
    (l.waking = true → l.wakeIdle = false ∨ l.wakeMatch = false → wakeUp s p = s) ∧
    -- SHORT_TRAIN_TMO: full training, and F1 (R155)
    (s.laneState p = 8 → s.due (s.lanePort p).timer = true → Gives (.shortTrainTmo p) s fun t =>
      t.laneState p = 2 ∧ t.hhg.waiting = s.hhg.waiting ++ [⟨0x0C, 1, 0x10, p, false⟩]) ∧
    -- WIDTH_REQ, WIDTH_ACK, WIDTH_NAK (R208, R209)
    (∀ m u at_ w, takeLinkMsg s p m = (u, at_) → w = leAt m 2 1 →
      (isLinkMsg m 0x18 = true → widthOfCode (s.rd (LAN_PORT_STATUS.WIDTH_MAX p)) < w →
        exec (.widthReq p m) s = .next (sendLink u p 0x1A 1 [1])) ∧
      (isLinkMsg m 0x18 = true → w ≤ widthOfCode (s.rd (LAN_PORT_STATUS.WIDTH_MAX p)) → [2, 4, 8].contains w = true →
        (s.linkState p ≠ 3 ∨ rekeying s p = true → exec (.widthReq p m) s = .next (sendLink u p 0x1A 1 [2])) ∧
        (s.linkState p = 3 → rekeying s p = false → (u.link p).widthReq = none → Gives (.widthReq p m) s fun t =>
          (t.link p).widthReq = none ∧ (t.link p).rxWidthAt = some (w, leAt m 4 4) ∧
          (t.link p).bpLink = (u.link p).bpLink ++ [bypassMsg 1 0x19 1 (natLE 1 w)])) ∧
      (∀ i, isLinkMsg m 0x19 = true → (u.link p).widthReq = some (w, some i) → exec (.widthAck p m) s =
        .next (u.setLink p { u.link p with widthReq := none, txWidthAt := some (w, i), rxWidthAt := some (w, leAt m 4 4) })) ∧
      (isLinkMsg m 0x1A = true → exec (.widthNak p m) s = .next (u.setLink p { u.link p with widthReq := none }))) ∧
    -- the index of a change is filled in as its message goes out, far enough ahead of the flit that carries it (R208)
    (∀ w type, w < 256 → type = 0x18 ∨ type = 0x19 →
      leAt (stampMsg s p (bypassMsg 1 type 1 (natLE 1 w))) 4 4 = widthIndex s p w) ∧
    -- WIDTH_SWITCH: a direction changes at its index; a returning lane that fails is excluded, and the width stays (R30, R208)
    (∀ w i, l.txWidthAt = some (w, i) → indexReached l.txFrames i = true → ∀ live, exec (.widthSwitch p true none live) s = .next
      (resvScale (parkLanes s (((switchFrames s p w).setLink p { l with txWidthAt := none, txWidth := w, oldWidth :=
        (if l.rxWidthAt.isSome then some l.txWidth else none) }).wr (LAN_PORT_STATUS.WIDTH p) (widthCode w)) p))) ∧
    (∀ w i, l.rxWidthAt = some (w, i) → indexReached l.rxFrames i = true → ∀ live, exec (.widthSwitch p false none live) s = .next
      (resvScale (parkLanes s (switchLanes (s.setLink p { l with rxWidthAt := none, rxWidth := w, oldWidth :=
        (if l.txWidthAt.isSome then some l.rxWidth else none) }) p w live) p))) ∧
    (∀ tx (i : Fin 8) live w, l.txWidthAt.isSome = true ∨ l.rxWidthAt.isSome = true → w = l.oldWidth.getD l.txWidth →
      exec (.widthSwitch p tx (some i) live) s = .next
      (resvScale (parkLanes s (useLanes (((s.setLane (8 * p + i) { s.lane (8 * p + i) with excluded := true }).setLink p { l with
        txWidthAt := none, rxWidthAt := none, oldWidth := none, txWidth := w, rxWidth := w }).wr (LAN_PORT_STATUS.WIDTH p)
          (widthCode w)) p w) p)))

/-- The key exchange and the rekey of a sealed link (R513, R525 to R530). The start of a rekey, its retries, and a failed
random source (R513, R529, R530). -/
def Obligations.LinkSealing : Prop :=
  (
    ∀ s (p : Port) m u at_ k, TablesOk s → takeLinkMsg s p m = (u, at_) → k = u.sealLink p → s.linkState p ≠ 0 →
      -- S_HELLO: anchor prefixes that agree let S_CRED follow; else cause 1 (R526 step 1)
      (∀ a, isLinkMsg m 0x20 = true → k.running = true → u.sea.fuses.anchor = some a → a.take 8 = (m.drop 36).take 8 →
        exec (.sHello p m) s = .next (sendFrags (u.setSealLink p { k with
          egen := max k.egen (leAt m 2 1), farNonce := (m.drop 4).take 32 }) p 0x21 (max k.egen (leAt m 2 1)) (currentCred u))) ∧
      (∀ a, isLinkMsg m 0x20 = true → k.running = true → u.sea.fuses.anchor = some a → a.take 8 ≠ (m.drop 36).take 8 →
        exec (.sHello p m) s = .next (sealFail (u.setSealLink p { k with
          egen := max k.egen (leAt m 2 1), farNonce := (m.drop 4).take 32 }) p 1)) ∧
      -- S_CRED: each fragment waits for the rest; a whole credential that fails is cause 2 (R525, R526 step 2)
      (∀ v, isLinkMsg m 0x21 = true → k.running = true → takeFrag u p 0x21 m = (v, none) → exec (.sCred p m) s = .next v) ∧
      (∀ v d, isLinkMsg m 0x21 = true → k.running = true → takeFrag u p 0x21 m = (v, some d) → credOk v p d = false →
        exec (.sCred p m) s = .next (sealFail v p 2)) ∧
      (∀ v d, isLinkMsg m 0x21 = true → k.running = true → takeFrag u p 0x21 m = (v, some d) → credOk v p d = true →
        u.on SEA_STATUS.RNG_OK = true → Gives (.sCred p m) s fun t => (t.sealLink p).farAlias = (d.drop 96).take 96 ∧
          t.freeIdx = s.freeIdx + 2) ∧
      -- S_KEX: a far signature that does not hold is cause 3, else the keys are derived and S_FIN follows (R526 steps 3 to 5)
      (∀ v d, isLinkMsg m 0x22 = true → k.running = true → takeFrag u p 0x22 m = (v, some d) → (v.sealLink p).farAlias = [] →
        exec (.sKex p m) s = .next (sealFail v p 3)) ∧
      (∀ v d c nn, isLinkMsg m 0x22 = true → k.running = true → takeFrag u p 0x22 m = (v, some d) → (v.sealLink p).farAlias ≠ [] →
        (v.link p).farCap = some c → nn = nonces (u.leader p) (v.sealLink p).nonce (v.sealLink p).farNonce →
        ecVerify (v.sealLink p).farAlias (ascii "KEX" ++ nn ++ natLE 4 (leAt c 8 3 % 2 ^ 20) ++ natLE 1 (leAt c 11 1 % 16) ++
          d.take 96) ((d.drop 96).take 96) = true → Gives (.sKex p m) s fun t =>
          (t.sealLink p).derived = some (deriveKeys nn (ecdh (v.sealLink p).eph (d.take 96)) (v.sealLink p).egen 0)) ∧
      (∀ v d c nn, isLinkMsg m 0x22 = true → k.running = true → takeFrag u p 0x22 m = (v, some d) →
        (v.link p).farCap = some c → nn = nonces (u.leader p) (v.sealLink p).nonce (v.sealLink p).farNonce →
        ecVerify (v.sealLink p).farAlias (ascii "KEX" ++ nn ++ natLE 4 (leAt c 8 3 % 2 ^ 20) ++ natLE 1 (leAt c 11 1 % 16) ++
          d.take 96) ((d.drop 96).take 96) = false → exec (.sKex p m) s = .next (sealFail v p 3)) ∧
      -- S_FIN: a confirmation that matches installs the keys of phase 0; another is cause 4 (R526 steps 5 and 6)
      (∀ keys, isLinkMsg m 0x23 = true → k.derived = some keys → k.running = true → leAt m 2 1 = k.egen →
        (m.drop 4).take 16 ≠ confirmation keys (if u.leader p then 1 else 0) → exec (.sFin p m) s = .next (sealFail u p 4)) ∧
      (∀ keys s2 s3, isLinkMsg m 0x23 = true → k.derived = some keys → k.running = true → leAt m 2 1 = k.egen →
        (m.drop 4).take 16 = confirmation keys (if u.leader p then 1 else 0) →
        s2 = (installKeys u p 0 keys).setSealLink p { k with running := false, derived := none, installed := u.now } →
        s3 = ((((s2.wr (SEA_LINK0.STATE p) 2).wr (SEA_LINK0.KGEN p) 0).wr (SEA_LINK0.TX_PH p) 0).wr (SEA_LINK0.RX_PH p) 0) →
        exec (.sFin p m) s = .next (judge (s3.setLink p { s3.link p with txPhase := false }) p)) ∧
      -- S_FAIL: the exchange fails here too, with the cause it names (R526)
      (isLinkMsg m 0x26 = true → k.running = true → leAt m 2 1 = k.egen → exec (.sFail p m) s = .next (sealVerdict
        (((u.setSealLink p { k with running := false, derived := none }).wr (SEA_LINK0.CAUSE p) (leAt m 3 1)).wr
          (SEA_LINK0.STATE p) 0) p)) ∧
      -- a failure shows its cause, sends S_FAIL and the verdict SEAL (R202, R526)
      (∀ c, sealFail u p c = sealVerdict (sendLink (((u.setSealLink p { k with running := false, derived := none }).wr
        (SEA_LINK0.CAUSE p) c).wr (SEA_LINK0.STATE p) 0) p 0x26 1 (natLE 1 k.egen ++ natLE 1 c)) p) ∧
      -- S_REKEY and S_REKEY_ACK: the next keys are installed in the other phase; a bad signature is cause 3 (R529, R530)
      (∀ v d, isLinkMsg m 0x24 = true → 2 ≤ u.rd (SEA_LINK0.STATE p) → takeFrag u p 0x24 m = (v, some d) →
        (v.sealLink p).rekey ≠ 1 ∨ u.rd (LAN_PORT_FAR.FAR_NODE p) ≤ u.node →
        -- a request while old keys are not yet retired waits, with all it carries (R530)
        (keysBusy v p = true → nextUnused (v.sealLink p) = false →
          exec (.sRekey p m) s = .next (v.setSealLink p { v.sealLink p with held := some d })) ∧
        (keysBusy v p = false ∨ nextUnused (v.sealLink p) = true →
          (rekeySigOk v p d = false → exec (.sRekey p m) s = .next (v.wr (SEA_LINK0.CAUSE p) 3)) ∧
          (rekeySigOk v p d = true → v.on SEA_STATUS.RNG_OK = false → exec (.sRekey p m) s = .next (v.wr (SEA_LINK0.CAUSE p) 6)) ∧
          (rekeySigOk v p d = true → v.on SEA_STATUS.RNG_OK = true → Gives (.sRekey p m) s fun t =>
            (t.sealLink p).rekey = 2 ∧ t.rd (SEA_LINK0.STATE p) = 3 ∧ (t.sealLink p).installed = s.now))) ∧
      (∀ v d, isLinkMsg m 0x25 = true → takeFrag u p 0x25 m = (v, some d) → (v.sealLink p).rekey = 1 →
        (rekeySigOk v p d = false → exec (.sRekeyAck p m) s = .next (v.wr (SEA_LINK0.CAUSE p) 3)) ∧
        (rekeySigOk v p d = true → exec (.sRekeyAck p m) s = .next ((installKeys v p (1 - b2n (u.link p).txPhase)
          (nextKeys v p d)).setSealLink p { v.sealLink p with retryEnd := none, flipTx := true, installed := u.now })))) ∧
  (
    ∀ s (p : Port) k, TablesOk s → k = s.sealLink p →
      -- REKEY_START by firmware of a link with keys: S_REKEY goes out (R529 step 1)
      (s.fabricOpen = true → s.rd (SEA_LINK0.STATE p) = 2 → keysBusy s p = false → s.on SEA_STATUS.RNG_OK = true →
        Gives (.rekeyStart p true) s fun t => t.rd (SEA_LINK0.STATE p) = 3 ∧ (t.sealLink p).rekey = 1 ∧ (t.sealLink p).tries = 1 ∧
          (t.sealLink p).retryEnd = some (s.after (1000000 * s.rd SEA_LINK_CFG.RETRY_MS))) ∧
      -- REKEY_START by time, once REKEY_S has elapsed
      (k.installed + ns (10 ^ 9 * s.rd SEA_LINK_CFG.REKEY_S) ≤ s.now → s.rd (SEA_LINK0.STATE p) = 2 → keysBusy s p = false →
        s.on SEA_STATUS.RNG_OK = true → Gives (.rekeyStart p false) s fun t =>
          t.rd (SEA_LINK0.STATE p) = 3 ∧ (t.sealLink p).rekey = 1) ∧
      -- while old keys wait to be retired it is remembered (R530); without a random source it is cause 6 (R513)
      (s.fabricOpen = true → s.rd (SEA_LINK0.STATE p) = 2 → keysBusy s p = true → Gives (.rekeyStart p true) s fun t =>
        (t.sealLink p).wanted = true ∧ t.rd (SEA_LINK0.STATE p) = 2) ∧
      (s.fabricOpen = true → s.rd (SEA_LINK0.STATE p) = 2 → keysBusy s p = false → s.on SEA_STATUS.RNG_OK = false →
        Gives (.rekeyStart p true) s fun t => t.rd (SEA_LINK0.CAUSE p) = 6) ∧
      -- REKEY_RETRY_TMO: again with fresh draws; after 3 failures F3 and QUARANTINE with SEAL (R530)
      (k.rekey = 1 → s.due k.retryEnd = true → k.tries < 3 → Gives (.rekeyRetryTmo p) s fun t =>
        (t.sealLink p).tries = k.tries + 1 ∧ (s.on SEA_STATUS.RNG_OK = true → t.freeIdx = s.freeIdx + 3) ∧
        (s.on SEA_STATUS.RNG_OK = false → t.rd (SEA_LINK0.CAUSE p) = 6 ∧ t.freeIdx = s.freeIdx)) ∧
      (k.rekey = 1 → s.due k.retryEnd = true → 3 ≤ k.tries → exec (.rekeyRetryTmo p) s = .next (enterQuarantine (report
        (((s.setSealLink p { k with rekey := 0, retryEnd := none }).wr (SEA_LINK0.CAUSE p) 7).wr (SEA_LINK0.STATE p) 2)
        0x17 3 0x02 p) p 0x100)) ∧
      -- RNG_FAIL: RNG_OK falls, and F3 (R513)
      exec .rngFail s = .next (report (s.wr SEA_STATUS.RNG_OK 0) 0x17 3 0x01 0) ∧
      -- ATTEST_REPORT: over the written nonce, or BUSY while no Alias is derived (R520, R535)
      (s.fabricOpen = true → s.sea.aliasKey = 0 → Gives .attestReport s fun t => t.rd SEA_RCMD.STATUS = stBUSY ∧ t.sea = s.sea) ∧
      (s.fabricOpen = true → s.sea.aliasKey ≠ 0 → Gives .attestReport s fun t =>
        t.rd SEA_RCMD.STATUS = stOK ∧ t.freeIdx = s.freeIdx + 1) ∧
      -- SESSION_IDLE: a session without a command for 600 s closes (R521)
      (Gives .sessionIdle s fun t =>
        t.sea.sessions = s.sea.sessions.filter fun x => s.now < x.used + ns 600000000000))

/-- Collective packets arrive (R273, R401, R406 to R413, R417): the rows of the stream, then the packet is accepted once and
decided. -/
def Obligations.CollectivePackets : Prop :=
  ∀ s p u (c : Pkt → Instr) op i, (c, op) ∈ [(Instr.ready, 0x20), (Instr.part, 0x21), (Instr.bcast, 0x22),
      (Instr.a2aPacket, 0x23), (Instr.count, 0x24), (Instr.fail, 0x25), (Instr.abort, 0x26)] → p.opcode = op →
    s.fabricOpen = true → u = takeDelivered (drowseExit s) p → i = streamOf p.src p.tc →
    (p.intact = false → exec (c p) s = .next (u.bump XPT_ERR2.BAD 1)) ∧
    (p.intact = true → pktAge u p ≤ u.rd XPT_CFG.PKT_LIFE →
      ((u.peer i).rxState = 0 → exec (c p) s = .next (answerResync u p stFENCED)) ∧
      ((u.peer i).rxState ≠ 0 → (u.peer i).rxState ≠ 1 → exec (c p) s = .next (answerResync u p stPOISON)) ∧
      ((u.peer i).rxState = 1 → p.stag ≠ (u.peer i).rxStag → exec (c p) s = .next (u.bump XPT_ERR.STALE_STAG 1)) ∧
      ((u.peer i).rxState = 1 → p.stag = (u.peer i).rxStag → ∀ d, d = (p.seq + 65536 - (u.peer i).rxBase) % 65536 →
        (512 ≤ d ∧ d < 65024 → exec (c p) s = .next (u.bump XPT_ERR.WINDOW 1)) ∧
        (d < 512 → bitOf (u.peer i).bmp d = false → ∀ v w r, v = applyAcked u i p → markAccepted v i p.seq = some w →
          freeRec w = some r → exec (c p) s = .next (execColl
            { w.useFree with xpt := { w.xpt with recs := w.xpt.recs.put r ⟨i, p.stag, p.seq, none, p.opcode, 0, v.nowNs⟩ } }
            i p (some r)))))

/-- What a member decides on an accepted collective packet (R401, R406 to R408, R412, R413, R417, R437). -/
def Obligations.CollectiveDecisions : Prop :=
  ∀ s i p r g n w, g = p.window % 4096 → n = p.offset % 65536 → w = s.group g → 0x20 ≤ p.opcode → p.opcode ≤ 0x26 →
    -- the rows that refuse a packet: FAIL is acted on but for the first three
    (∀ st, (s.fenced = true ∧ st = stFENCED) ∨ (s.fenced = false ∧ w.state = 0 ∧ st = stVERSION) ∨
        (s.fenced = false ∧ p.opcode ≠ 0x21 ∧ p.opcode ≠ 0x22 ∧ leAt p.payload 0 4 ≠ w.tag ∧ st = stVERSION) →
      execColl s i p r = answer s p r st 0 []) ∧
    (s.fenced = false → w.state ≠ 0 → (p.opcode ≠ 0x21 → p.opcode ≠ 0x22 → leAt p.payload 0 4 = w.tag) →
      (p.pkey ≠ w.pkey → execColl s i p r = answer s p r stRIGHTS 0 []) ∧
      (p.pkey = w.pkey → w.state = 2 → p.opcode ≠ 0x25 → p.opcode ≠ 0x26 → execColl s i p r = answer s p r stABORTED 0 []) ∧
      (p.pkey = w.pkey → w.state = 3 → p.opcode ≠ 0x25 → execColl s i p r = answer s p r stINTERNAL 0 []) ∧
      (p.pkey = w.pkey → w.state = 1 → p.opcode ≠ 0x25 → ∀ st, endedWith s g n = some st → execColl s i p r = answer s p r st 0 [])) ∧
    (collRefused s p = none →
      -- READY for a step not yet issued is kept, for one with other operands it ends both
      (p.opcode = 0x20 → findStep s g n = none → (∀ o, findSto s g n = some o → o.be = none) → s.yar.grants.length < 16384 → execColl s i p r = answer { s with
        yar := { s.yar with grants := s.yar.grants ++ [⟨g, n, p.src, p.fn, leAt p.payload 8 8, leAt p.payload 16 8,
          bitsOf p.offset 24 16, bitsOf p.offset 28 25, bitOf p.offset 45⟩] } } p r stOK 0 []) ∧
      (p.opcode = 0x20 → findStep s g n = none → (∀ o, findSto s g n = some o → o.be = none) → 16384 ≤ s.yar.grants.length →
        execColl s i p r = answer s p r stBUSY 0 []) ∧
      -- a READY of a step that this member issued as a STO ends both (R397)
      (p.opcode = 0x20 → findStep s g n = none → ∀ o, findSto s g n = some o → o.be.isSome = true → execColl s i p r =
        answer (failSto (s.bump YAR_CERR.MISMATCH 1) g n stINTERNAL true) p r stINTERNAL 0 []) ∧
      (p.opcode = 0x20 → ∀ y v, findStep s g n = some (y, v) →
        (v.phase ≠ p.fn ∨ v.ga ≠ leAt p.payload 8 8 ∨ v.gc ≠ leAt p.payload 16 8 →
          execColl s i p r = answer (endStep (s.bump YAR_CERR.MISMATCH 1) y stINTERNAL true) p r stINTERNAL 0 []) ∧
        (v.phase = p.fn → v.ga = leAt p.payload 8 8 → v.gc = leAt p.payload 16 8 → bitsOf p.offset 24 16 < segCount v.len →
          execColl s i p r = answer (takeGrant s y p.src (bitsOf p.offset 24 16) (bitsOf p.offset 28 25) (bitOf p.offset 45))
            p r stOK 0 [])) ∧
      -- PART and BCAST join the slice that this member has granted
      (p.opcode = 0x21 ∨ p.opcode = 0x22 → findStep s g n = none → execColl s i p r = answer s p r stINTERNAL 0 []) ∧
      (p.opcode = 0x21 → ∀ y v k q m c, findStep s g n = some (y, v) → k = bitsOf p.offset 24 16 → q = v.seg k → v.g = g →
        m = min 65536 (redBytes w v k - 65536 * q.slice) → q.kids.find? (fun c => w.nbNode c.nb = p.src) = some c →
        c.granted = true → c.complete = false → q.passing = false → bitsOf p.offset 28 25 = q.slice →
        bitsOf p.offset 44 29 + p.payload.length ≤ m → c.declared + p.payload.length < m → execColl s i p r = answer
          (setSeg (noteInput s y c.nb) y k { q with
            kids := q.kids.map fun x =>
              if x.nb = c.nb then c.add m (bitsOf p.offset 44 29) p.payload (bitOf p.offset 46) else x }) p r stOK 0 []) ∧
      (p.opcode = 0x22 → bitOf p.offset 46 = false → ∀ y v k q m c, findStep s g n = some (y, v) → k = bitsOf p.offset 24 16 →
        q = v.seg k → v.g = g → s.ystep y = some v →
        m = min 65536 (outLen w v k - 65536 * q.gslice) → q.gin = some c → w.nbNode c.nb = p.src → c.complete = false →
        bitsOf p.offset 28 25 = q.gslice → bitsOf p.offset 44 29 + p.payload.length ≤ m → c.declared + p.payload.length < m →
        execColl s i p r = answer (setSeg (noteInput s y c.nb) y k
          { q with gin := some (c.add m (bitsOf p.offset 44 29) p.payload false) }) p r stOK 0 []) ∧
      -- A2A and COUNT: BUSY where the early table is full, else the write under the rows of R309
      (p.opcode = 0x23 ∨ p.opcode = 0x24 → findStep s g n = none → (∀ e ∈ s.yar.early, ¬(e.g = g ∧ e.step = n)) →
        256 ≤ s.yar.early.length → execColl s i p r = answer s p r stBUSY 0 []) ∧
      (∀ y, findStep s g n = some y → ∀ t, t = ({ s with tgt := { s.tgt with next := s.tgt.next + 1 } } : State).putIn s.tgt.next
          { pkt := p, recIdx := r } →
        (p.opcode = 0x23 → execColl s i p r = collInWrite t s.tgt.next) ∧
        (p.opcode = 0x24 → execColl s i p r = countList t s.tgt.next)) ∧
      -- FAIL of a step not issued is kept; of a step that runs, it ends the step (R413)
      (p.opcode = 0x25 → w.fwd.contains (leAt p.payload 4 2) = true → ∀ u st, u = s.bump YAR_CERR.FAIL_RX 1 → st = leAt p.payload 6 1 →
        (findStep s g (leAt p.payload 4 2) = none → findSto s g (leAt p.payload 4 2) = none →
          (∀ x ∈ waitingSteps s g, x.2.step ≠ leAt p.payload 4 2) → endedWith s g (leAt p.payload 4 2) = none → (∀ x ∈ w.kept, x.1 ≠ leAt p.payload 4 2) → w.kept.length < 8 →
          execColl s i p r =
            answer (settle (u.setGroup g { w with kept := w.kept ++ [(leAt p.payload 4 2, st)] })) p r stOK 0 []) ∧
        (∀ y v, findStep s g (leAt p.payload 4 2) = some (y, v) →
          execColl s i p r = answer (settle (endStep u y st false)) p r stOK 0 [])) ∧
      (p.opcode = 0x26 → execColl s i p r = answer (settle (abortGroup s g
        ⟨leAt p.payload 16 8, leAt p.payload 4 4, leAt p.payload 8 2, leAt p.payload 10 1⟩ (some p.src))) p r stOK 0 []))

/-- What keeps a step from starting, and what starts it later (R404, R408, R412, R423). An abort record (R417): the lower of
two is kept, by time and origin node; the group is ABORTED. -/
def Obligations.GroupAdmission : Prop :=
  (
    (∀ s k id rest e, s.yar.runWait = (k, id) :: rest → (s.ctx k).beq.find? (fun e => e.id = id) = some e →
      (groupRunning s (e.imm % 4096) = false → 1024 ≤ groupsRunning s → exec .groupRunAdmit s = .next s) ∧
      (groupRunning s (e.imm % 4096) = true ∨ groupsRunning s < 1024 → ∀ u, u = { s with yar := { s.yar with runWait := rest } } →
        (e.opcode = 0x66 → exec .groupRunAdmit s = .next (stoStart u k id)) ∧
        (e.opcode ≠ 0x66 → exec .groupRunAdmit s = .next (collStart u k id (e.opcode - 0x5F))))) ∧
    (∀ s k id rest, s.yar.stoWait = (k, id) :: rest →
      (8 ≤ stoOutstanding s → exec .stoAdmit s = .next s) ∧
      (stoOutstanding s < 8 → exec .stoAdmit s = .next (stoStart { s with yar := { s.yar with stoWait := rest } } k id))) ∧
    (∀ s, s.yar.runWait = [] → exec .groupRunAdmit s = .next s) ∧ (∀ s, s.yar.stoWait = [] → exec .stoAdmit s = .next s) ∧
    -- a step of a group that is FREE, fenced, ABORTED, or whose phase it does not allow ends at issue (R343, R403)
    (∀ s k id e phase w, (s.ctx k).beq.find? (fun e => e.id = id) = some e → w = s.group (e.imm % 4096) →
      (w.state = 0 → collStart s k id phase = stepEntryDone (recordFail s k stINTERNAL) k id ∧
        stoStart s k id = stepEntryDone (recordFail s k stINTERNAL) k id) ∧
      (w.state ≠ 0 → s.fenced = true → issueStatus s (e.imm % 4096) e.step phase = some (stFENCED, false, false)) ∧
      (w.state = 2 → s.fenced = false → issueStatus s (e.imm % 4096) e.step phase = some (stABORTED, false, false)) ∧
      (w.state = 3 → s.fenced = false → issueStatus s (e.imm % 4096) e.step phase = some (stINTERNAL, false, false)) ∧
      -- a failure kept for it, or a phase that the group does not allow (R413, R343)
      (w.state = 1 → s.fenced = false → ∀ x, w.kept.find? (fun x => x.1 = e.step) = some x →
        issueStatus s (e.imm % 4096) e.step phase = some (x.2, false, true)) ∧
      (w.state = 1 → s.fenced = false → (∀ x ∈ w.kept, x.1 ≠ e.step) → issueStatus s (e.imm % 4096) e.step phase =
        if bitOf w.phases (phase - 1) then none else some (stINTERNAL, true, true))) ∧
    -- COLL_RETRY: the packet whose interval has passed is sent again
    (∀ s, (∀ r ∈ s.yar.retries, s.now < r.due) → exec .collRetry s = .next s) ∧
    (∀ s r, s.yar.retries.find? (fun r => r.due ≤ s.now) = some r → exec .collRetry s = .next (startOp
      { s with yar := { s.yar with retries := s.yar.retries.erase r } }
      { r.op with id := 0, made := 0, opened := false, out := 0, doneBytes := 0, fail := none, result := 0 }))) ∧
  (
    ∀ s g (r : AbortRec) skip v, v = s.group g →
      (∀ a, v.abort = some a → a.time < r.time ∨ (a.time = r.time ∧ a.origin ≤ r.origin) → abortGroup s g r skip = s) ∧
      ((∀ a, v.abort = some a → r.time < a.time ∨ (r.time = a.time ∧ r.origin < a.origin)) →
        (∀ e ∈ s.yar.steps, e.2.g ≠ g) → waitingSteps s g = [] → (∀ o ∈ s.yar.stoats, ¬(o.g = g ∧ o.be.isSome = true)) → ∀ t, t = abortGroup s g r skip →
        t.group g = { v with abort := some r, state := 2 } ∧ t.yar.steps = s.yar.steps) ∧
      -- ABORT_TMO: a step of a privileged group has been outstanding for its ABORT_TMO
      (∀ (g' : Grp), g'.val = g → (v.priv = false ∨ v.abortTmo = 0 ∨ v.state ≠ 1 → exec (.abortTmo g') s = .next s) ∧
        (v.priv = true → v.abortTmo ≠ 0 → v.state = 1 → ∀ y x, List.find? (fun e : Nat × YStep => e.2.g = g &&
            decide (e.2.since + ns (1000 * v.abortTmo) ≤ s.now)) s.yar.steps = some (y, x) →
          exec (.abortTmo g') s = .next (settle (abortGroup s g ⟨s.nowNs, s.node, x.step, stTIMEOUT⟩ none))) ∧
        -- a step that still stands in a back-end queue counts too
        (v.priv = true → v.abortTmo ≠ 0 → v.state = 1 → (∀ e ∈ s.yar.steps, e.2.g ≠ g) → (∀ o ∈ s.yar.stoats, o.g ≠ g) → ∀ x,
          (waitingSteps s g).find? (fun x => decide (x.2.since + ns (1000 * v.abortTmo) ≤ s.now)) = some x →
          exec (.abortTmo g') s = .next (settle (abortGroup s g ⟨s.nowNs, s.node, x.2.step, stTIMEOUT⟩ none)))) ∧
      -- a failure from elsewhere of a step that is not running here: waiting, not issued, or ended (R413, R425)
      (∀ n st, (∀ x y, (waitingSteps s g).find? (fun x => x.2.step = n) = some x → y = entryOut st false s x →
          failElsewhere s g n st = abortIfPriv y g n st) ∧
        ((∀ x ∈ waitingSteps s g, x.2.step ≠ n) → endedWith s g n = none → failElsewhere s g n st = keepFail s g n st) ∧
        ((∀ x ∈ waitingSteps s g, x.2.step ≠ n) → endedWith s g n ≠ none → failElsewhere s g n st = s)) ∧
      (∀ n st, (∀ x ∈ v.kept, x.1 ≠ n) → v.kept.length < 8 →
        keepFail s g n st = s.setGroup g { v with kept := v.kept ++ [(n, st)] }) ∧
      (∀ n st, (∀ x ∈ v.kept, x.1 ≠ n) → 8 ≤ v.kept.length → keepFail s g n st = errorGroup (report s 0x15 2 0x02 g) g))

/-- The commands on collective groups (R129, R388, R390, R392, R426). -/
def Obligations.GroupCommands : Prop :=
  (∀ s u (g : Grp) v, s.fabricOpen = true → u = drowseExit s → TablesOk s → v = u.group g → u.on YAR_GCMD.BUSY = false →
    u.on BDG_STATUS.FW_RESTART = false → u.initDone = true →
    (v.state ≠ 0 → Gives (.descriptorCreate g) s fun t => t.rd YAR_GCMD.STATUS = stINTERNAL ∧ t.rd YAR_GCMD.GROUP = g.val ∧ t.yar = u.yar) ∧
    (v.state = 0 → exec (.descriptorCreate g) s = .next (hmpRead { (u.wr YAR_GCMD.GROUP g).wr YAR_GCMD.BUSY 1 with
      yar := { u.yar with creating := some { g := g, priv := false } } } 6
      (128 * u.rd YAR_GARG_LO.ADDR_LO + 2 ^ 32 * u.rd YAR_GARG_HI.ADDR_HI) 128 .groupImage)) ∧
    (stepsOut u g ≠ 0 → Gives (.destroy g) s fun t => t.rd YAR_GCMD.STATUS = stBUSY ∧ t.yar = u.yar) ∧
    (stepsOut u g = 0 → Gives (.destroy g) s fun t =>
      t.rd YAR_GCMD.STATUS = stOK ∧ t.group g = {} ∧ (∀ e ∈ t.yar.grants, e.g ≠ g.val) ∧ (∀ e ∈ t.yar.early, e.g ≠ g.val) ∧ (∀ o ∈ t.yar.stoats, o.g ≠ g.val) ∧
      (∀ h : Nat, h ≠ g.val → t.group h = u.group h)) ∧
    (v.priv = true → exec (.cancel g true) s = .next u) ∧
    (∀ b n w, b = false ∨ v.priv = false → w = endAll (u.wr YAR_GCMD.GROUP g) g stTIMEOUT →
      n = (u.yar.steps.filter fun e => e.2.g = g.val).map (·.2.step) ++
        (u.yar.stoats.filter fun o => o.g = g.val && o.be.isSome).map (·.step) ++ (waitingSteps u g).map (·.2.step) →
      (n = [] → exec (.cancel g b) s = .next (settle (w.wr YAR_GCMD.STATUS stOK))) ∧
      (∀ x rest, n = x :: rest → exec (.cancel g b) s =
        .next (settle ((abortIfPriv w g x stTIMEOUT).wr YAR_GCMD.STATUS stOK))))) ∧
  -- a command while one runs is ignored (R426); while firmware restarts it is BUSY (R610)
  (∀ s u (g : Grp), s.fabricOpen = true → u = drowseExit s →
    (u.on YAR_GCMD.BUSY = true → exec (.descriptorCreate g) s = .next u ∧ exec (.destroy g) s = .next u ∧
      exec (.cancel g false) s = .next u) ∧
    (u.on YAR_GCMD.BUSY = false → u.on BDG_STATUS.FW_RESTART = true → ∀ v, v = u.wr YAR_GCMD.STATUS stBUSY →
      exec (.descriptorCreate g) s = .next v ∧ exec (.destroy g) s = .next v ∧ exec (.cancel g false) s = .next v)) ∧
  -- CREATE_IMAGE_READ: the image, then the member list entry; the last check makes the group
  (∀ s c x, TablesOk s → s.yar.creating = some c → s.hmp.returned.find? (fun x => x.k = .groupImage || x.k = .groupList) = some x →
    (x.status ≠ stOK → Gives .createImageRead s fun t => t.rd YAR_GCMD.STATUS = x.status ∧ t.on YAR_GCMD.BUSY = false ∧
      t.yar = { s.yar with creating := none }) ∧
    (x.status = stOK → c.image = none → ∀ st, imageStatus s c.priv { image := x.data } = st → st ≠ stOK →
      Gives .createImageRead s fun t => t.rd YAR_GCMD.STATUS = st ∧ t.yar = { s.yar with creating := none }) ∧
    (x.status = stOK → ∀ im, c.image = some im → leNat x.data ≠ s.node → Gives .createImageRead s fun t =>
      t.rd YAR_GCMD.STATUS = stINTERNAL ∧ t.yar = { s.yar with creating := none }) ∧
    (x.status = stOK → ∀ im, c.image = some im → leNat x.data = s.node → Gives .createImageRead s fun t =>
      t.rd YAR_GCMD.STATUS = stOK ∧ t.on YAR_GCMD.BUSY = false ∧ t.group c.g = { state := 1, image := im } ∧ t.yar.creating = none))

/-- Stoat messages arrive (R421 to R423, R425): `u` is the block with the message taken from the port's bypass queue. -/
def Obligations.StoatMessages : Prop :=
  ∀ s (p : Port) m u g step w, s.fabricOpen = true → m.length = 96 → leAt m 0 1 = 2 → u = takeBypass (drowseExit s) p m →
    g = leAt m 2 2 % 4096 → step = leAt m 4 2 → w = u.group g →
    (stoPortOk w p = false → (leAt m 1 1 = 1 → exec (.sval p m) s = .next (u.bump (LNK_ERR.PROTO p) 1)) ∧
      (leAt m 1 1 = 2 → exec (.sfail p m) s = .next (u.bump (LNK_ERR.PROTO p) 1))) ∧
    (stoPortOk w p = true → leAt m 1 1 = 1 → leAt m 6 1 % 8 < w.dims → leAt m 7 1 ≠ 0 → endedWith u g step = none →
      leAt m 10 1 = w.stoOp → ∀ dim len val, dim = leAt m 6 1 % 8 → len = leAt m 8 1 → val = (m.drop 16).take len →
      (findSto u g step = none → 128 ≤ u.yar.stoats.length → exec (.sval p m) s = .next (u.bump (LNK_ERR.PROTO p) 1)) ∧
      (findSto u g step = none → u.yar.stoats.length < 128 → exec (.sval p m) s =
        .next (putSto u { g := g, step := step, len := len, got := [(dim, [val])], fwd := [m] })) ∧
      (∀ o, findSto u g step = some o → o.len = len → ∀ got, got = o.got.put dim (o.got.get [] dim ++ [val]) →
        (o.be = none → exec (.sval p m) s = .next (putSto u { o with got := got, fwd := o.fwd ++ [m] })) ∧
        (∀ b, o.be = some b → ∀ side, side = 2 * dim + (1 - leAt m 6 1 / 8 % 2) → exec (.sval p m) s = .next (settle (stoRun 8
          (stoForward (putSto u { o with
            got := got, fwd := [],
            lag := some (side, w.nbNode side, min ((u.now - o.since) / 160000000) (2 ^ 32 - 1)) }) g m) g step)))) ∧
      (∀ o, findSto u g step = some o → o.len ≠ len → o.be = none → exec (.sval p m) s = .next (settle (failElsewhere u g step stINTERNAL)))) ∧
    (stoPortOk w p = true → leAt m 1 1 = 2 → w.fwd.contains step = true → ∀ v st, v = u.bump YAR_CERR.FAIL_RX 1 → st = leAt m 9 1 →
      (∀ o, findSto u g step = some o → o.be.isSome = true → exec (.sfail p m) s = .next (settle (failSto v g step st false))) ∧
      (∀ o, findSto u g step = some o → o.be = none → exec (.sfail p m) s = .next (settle (failElsewhere v g step st))) ∧
      (findSto u g step = none → exec (.sfail p m) s = .next (settle (failElsewhere v g step st))))

/-- Update records, the update stage, and the records of Foxglove stages (R448, R451, R453, R472 to R475). -/
def Obligations.StageRecords : Prop :=
  (∀ s u (n : Fin 256), s.fabricOpen = true → u = drowseExit s → TablesOk s → Gives (.updateCommit n) s fun t =>
    (∀ i < 15, t.reg (0x28C000 + 0x40 * n + 4 * i) = u.reg (0x288000 + 0x40 * n + 4 * i)) ∧
    (∀ a, (a < 0x28C000 + 0x40 * n ∨ 0x28C000 + 0x40 * n + 60 ≤ a) → t.reg a = u.reg a) ∧ SameBut [.regs, .csp] s t) ∧
  (∀ s u (n : Fin 256), s.fabricOpen = true → u = drowseExit s → TablesOk s → Gives (.stageCommit n) s fun t =>
    (∀ i < 7, t.reg (0x2C8000 + 0x40 * n + 4 * i) = u.reg (0x2C4000 + 0x40 * n + 4 * i)) ∧
    ((t.reg (0x2C8000 + 0x40 * n + 36) = 0#32 ∨ t.reg (0x2C8000 + 0x40 * n + 36) = 1#32)) ∧
    (t.reg (0x2C8000 + 0x40 * n + 36) = 0#32 → t.reg (0x2C8000 + 0x40 * n + 28) = 0#32 ∧ t.reg (0x2C8000 + 0x40 * n + 32) = 0#32) ∧
    (∀ a, (a < 0x2C8000 + 0x40 * n ∨ 0x2C8000 + 0x40 * n + 40 ≤ a) → t.reg a = u.reg a) ∧ SameBut [.regs, .csp] s t) ∧
  -- UPDATE_SEGMENT: the segment at the head of the update stage reads its state and its old weights
  (∀ s, s.yar.upds = [] → exec .updateSegment s = .next s) ∧
  (∀ s x rest v w so sn wo wn, s.yar.upds = x :: rest → s.ystep x.y = some v → w = s.group v.g →
    updRanges w v x.seg = ((so, sn), (wo, wn)) →
    (x.running = true ∨ v.ending.isSome = true → exec .updateSegment s = .next s) ∧
    (x.running = false → v.ending = none → 0 < sn → (s.win (updWin v.upd)).bound < so + sn ∨ (s.win (updWin v.upd)).crosses so sn = true →
      exec .updateSegment s = .next (endStep (dropJob s x.y x.seg) x.y stBOUND true)) ∧
    (x.running = false → v.ending = none → sn = 0 → updMaster v.upd = false → exec .updateSegment s = .next (stepRead
      (putJob s { x with running := true, lines := [], left := 1 }) x.y 2 (dstExt w v x.seg 0 wn) (.updWeights x.y x.seg))))

/-- The Foxglove queue, its commits and its island (R464 to R467, R483, R487). -/
def Obligations.Foxglove : Prop :=
  (∀ s e rest, s.fox.queue = e :: rest →
    -- the island is off, the units of the fabric stand, or the head's resources are in use: nothing leaves
    (s.fox.island ≠ 2 ∨ s.unitsRun = false ∨ foxFree s e = false → exec .foxDispatch s = .next s) ∧
    -- FXCM: the planes of its tiles exchange at once, and its marker starts (R465)
    (s.fox.island = 2 → s.unitsRun = true → e.kind = .commit → e.tiles &&& foxLoading s = 0 → Gives .foxDispatch s fun t =>
      SameBut [.fox] s t ∧ t.fox.queue = rest ∧ t.fox.markers = s.fox.markers ++ [e] ∧ t.fox.running = s.fox.running ∧
      t.fox.poison = s.fox.poison.map fun x => if bitOf e.tiles (x / 16 % 4) then (if x < 64 then x + 64 else x - 64) else x) ∧
    -- FXLW: a length or a slot out of range ends it; else its images are read (R464)
    (s.fox.island = 2 → s.unitsRun = true → e.kind = .load → foxFree s e = true → foxMissing s e = [] →
      (e.len = 0 → exec .foxDispatch s = .next (foxEnd { s with fox := { s.fox with queue := rest } } e stINTERNAL)) ∧
      (e.len ≠ 0 → e.len % (8192 * (tilesOf e.tiles).length) = 0 → e.slot + e.len / (8192 * (tilesOf e.tiles).length) ≤ 16 →
        localCheck (s.win e.win) (s.ctxPkey e.ctx) .rd e.off e.len = stOK → exec .foxDispatch s = .next (hmpGather
          { s with fox := { s.fox with queue := rest, running := s.fox.running ++
              [{ e with ext := extents s e.win e.off e.len, left := 1 }] } } 3 (extents s e.win e.off e.len) (.foxLoad e.id)))) ∧
    (s.fox.island = 2 → s.unitsRun = true → e.kind = .pass → foxFree s e = true → foxMissing s e = [] → ∀ st,
      passStatus s e.cfg e.ctx e.len = st → st ≠ stOK → st ≠ stRIGHTS →
      exec .foxDispatch s = .next (foxEnd { s with fox := { s.fox with queue := rest } } e st)) ∧
    (s.fox.island = 2 → s.unitsRun = true → e.kind = .pass → foxFree s e = true → foxMissing s e = [] →
      passStatus s e.cfg e.ctx e.len = stRIGHTS → exec .foxDispatch s =
        .next (foxEnd (({ s with fox := { s.fox with queue := rest } } : State).bump FOX_ERR.RIGHTS 1) e stRIGHTS))) ∧
  -- COMMIT_MARKER_PASSED: the oldest marker has passed the last cell row, and its FXCM ends
  (∀ s e rest, s.fox.markers = e :: rest → e.kind = .commit → e.stag = [] → Gives .commitMarkerPassed s fun t =>
    t = stepEntryDone (dropStaging { s with fox := { s.fox with markers := rest } } []) e.ctx e.be ∧ t.fox.markers = rest) ∧
  (∀ s, s.fox.markers = [] → exec .commitMarkerPassed s = .next s) ∧
  -- FOX_ISLAND_UP: zero-filled, every mark cleared; FOX_IDLE_OFF: off after IDLE_OFF, its contents lost
  (∀ s, s.fox.island = 1 → exec .foxIslandUp s =
    .next { s with fox := { s.fox with island := 2, weights := [], poison := [] } }) ∧
  (∀ s, s.fox.island ≠ 1 → exec .foxIslandUp s = .next s) ∧
  (∀ s n, n = s.rd FOX_CFG.IDLE_OFF →
    (s.fox.island = 2 → foxNeeded s = false → n ≠ 0 → s.fox.idleSince + ns (100000 * n) ≤ s.now → exec .foxIdleOff s =
      .next { s with fox := { s.fox with island := 0, weights := [], poison := [] } }) ∧
    (s.fox.island ≠ 2 ∨ foxNeeded s = true ∨ n = 0 ∨ s.now < s.fox.idleSince + ns (100000 * n) → exec .foxIdleOff s = .next s))

/-- Session commands (R521, R522, R637 to R639): lost while firmware restarts, refused where no session opens them, answered
INTERNAL for an OP that R638 does not list, left alone by the command of another OP. What opens a session command (R521): a
session, a counter above its last and below 2^63, and the tag of AES-256-GCM. -/
def Obligations.SessionCommands : Prop :=
  (
    ∀ x ∈ ([(.config, 1), (.pkeyWrite, 2), (.routeWrite, 3), (.routeCtrl, 4), (.epochSet, 5), (.policy, 6), (.windowCreate, 7),
        (.groupCreate, 8), (.seal, 9), (.credInstall, 10), (.debugUnlock, 11), (.returnService, 12), (.minSvn, 13),
        (.anchorRevoke, 14), (.fwWrite, 15), (.fwCheck, 16), (.regRead, 17), (.regWrite, 18), (.timeCfg, 19), (.steward, 20),
        (.groveAdd, 21), (.member, 22)] : List ((Fin 16 → List Byte → Instr) × Nat)),
      ∀ s (via : Fin 16) m u, u = takeInbox s via m →
        (ammType m ≠ 0x14 → exec (x.1 via m) s = .next s) ∧
        (ammType m = 0x14 → fwUp s = false → exec (x.1 via m) s = .next (u.bump BDG_AMM_ERR.LOST 1)) ∧
        (ammType m = 0x14 → fwUp s = true →
          (s.bdg.rspWait.isSome = true → exec (x.1 via m) s = .next s) ∧
          (s.bdg.rspWait = none →
            (openCmd u (ammAad m) (ammBody m) = none → exec (x.1 via m) s = .next (u.bump BDG_AMM_ERR.AUTH 1)) ∧
            (∀ v c text, openCmd u (ammAad m) (ammBody m) = some (v, c, text) → ∀ n, n = leAt text 0 2 →
              (n = 0 ∨ 22 < n → exec (x.1 via m) s = .next (cmdDone (noteCmd u v.number c) via m v c n stINTERNAL [])) ∧
              (1 ≤ n → n ≤ 22 → n ≠ x.2 → exec (x.1 via m) s = .next s))))) ∧
  (
    ∀ s aad body n c, n = leAt body 0 4 → c = leAt body 4 8 →
      (findSession s n = none → openCmd s aad body = none) ∧
      (∀ v, findSession s n = some v →
        (v.last.all (· < c) = false ∨ 2 ^ 63 ≤ c ∨ body.length < 28 → openCmd s aad body = none) ∧
        (v.last.all (· < c) = true → c < 2 ^ 63 → 28 ≤ body.length → ∀ iv text, iv = natLE 4 n ++ natLE 8 c →
          text = (body.drop 12).take (body.length - 28) →
          (gcmTag v.key iv aad text = body.drop (body.length - 16) → openCmd s aad body = some (v, c, gcmCrypt v.key iv text)) ∧
          (gcmTag v.key iv aad text ≠ body.drop (body.length - 16) → openCmd s aad body = none))))

/-- The operations of session commands on the fabric (R236, R238, R241, R243, R301, R390, R523, R638): BUSY while the fabric
regions do not answer, INTERNAL for bad arguments. -/
def Obligations.SessionFabric : Prop :=
  ∀ s (via : Fin 16) m v c x a,
    (Opens s via m 1 v c x a → a.length < 11 → exec (.config via m) s = .next (cmdDone x via m v c 1 stINTERNAL [])) ∧
    (Opens s via m 1 v c x a → 11 ≤ a.length → exec (.config via m) s = .next (cmdDone (capRefreshAll
      ((((x.wr NODE_ID.NODE (leAt a 0 4)).wr NODE_ID.CONFIGURED (leAt a 10 1)).wr CFG_HASH_LO.HASH_LO (leAt a 4 4)).wr
        CFG_HASH_HI.HASH_HI (leAt a 8 2))) via m v c 1 stOK [])) ∧
    (Opens s via m 2 v c x a → ∀ first n, first = leAt a 0 1 → n = leAt a 1 2 →
      (256 < first + n ∨ a.length < 3 + 4 * n → exec (.pkeyWrite via m) s = .next (cmdDone x via m v c 2 stINTERNAL [])) ∧
      (first + n ≤ 256 → 3 + 4 * n ≤ a.length → x.fabricOpen = false →
        exec (.pkeyWrite via m) s = .next (cmdDone x via m v c 2 stBUSY [])) ∧
      (first + n ≤ 256 → 3 + 4 * n ≤ a.length → x.fabricOpen = true → exec (.pkeyWrite via m) s = .next (cmdDone
        (capRefreshAll ((List.range n).foldl (fun t i => regWrite t (RTR_PKEY.KEY (first + i)).addr (leAt a (3 + 4 * i) 4))
          (drowseExit x))) via m v c 2 stOK []))) ∧
    (Opens s via m 3 v c x a → ∀ ver off n u, ver = leAt a 0 1 → off = leAt a 1 4 → n = (a.length - 5) / 4 → u = drowseExit x →
      (1 < ver ∨ a.length < 5 ∨ 960 < n ∨ 16384 < off + n →
        exec (.routeWrite via m) s = .next (cmdDone x via m v c 3 stINTERNAL [])) ∧
      (ver ≤ 1 → 5 ≤ a.length → n ≤ 960 → off + n ≤ 16384 → x.fabricOpen = true →
        (tableLocked u ver = true → (∃ i < n, wordSpoiled u ver (off + i) = false) →
          exec (.routeWrite via m) s = .next (cmdDone (u.bump RTR_ERR.TBLWR n) via m v c 3 stBUSY [])) ∧
        (tableLocked u ver = false → exec (.routeWrite via m) s = .next (cmdDone
          ((List.range n).foldl (fun t i => writeTableWord t ver (off + i) (leAt a (5 + 4 * i) 4)) u) via m v c 3 stOK [])))) ∧
    (Opens s via m 4 v c x a → 14 ≤ a.length → x.fabricOpen = true → leAt a 12 1 % 2 = 0 → ∀ u ver, u = drowseExit x →
      ver = 1 - u.epochBit → exec (.routeCtrl via m) s = .next (cmdDone (setHold
        (((writeRouter u (RTR_VER_CFG.RANK ver).addr (leAt a 0 4)).wr RTR_FLIP_TIME_LO.TIME_LO (leAt a 4 4)).wr
          RTR_FLIP_TIME_HI.TIME_HI (leAt a 8 4)) (leAt a 13 1 % 2 = 1)) via m v c 4 stOK [])) ∧
    (Opens s via m 4 v c x a → a.length < 14 → exec (.routeCtrl via m) s = .next (cmdDone x via m v c 4 stINTERNAL [])) ∧
    (Opens s via m 5 v c x a → x.fabricOpen = true → ∀ u e, u = drowseExit x → e = leAt a 0 2 →
      (u.on RTR_EPOCH.OLD_FREE = false ∨ u.on RTR_EPOCH.ARMED = true →
        exec (.epochSet via m) s = .next (cmdDone u via m v c 5 stBUSY [])) ∧
      (u.on RTR_EPOCH.OLD_FREE = true → u.on RTR_EPOCH.ARMED = false →
        (e % 2 = u.epochBit → exec (.epochSet via m) s =
          .next (cmdDone (capRefreshAll (u.wr RTR_EPOCH.EPOCH e)) via m v c 5 stOK [])) ∧
        (e % 2 ≠ u.epochBit → u.on (RTR_VER_CFG.VALID (e % 2)) = false →
          exec (.epochSet via m) s = .next (cmdDone u via m v c 5 stINTERNAL [])))) ∧
    (Opens s via m 6 v c x a → x.fabricOpen = true → ∀ b, b = leAt a 0 1 % 2 → exec (.policy via m) s = .next (cmdDone
      ((((drowseExit x).wr SEA_POLICY.LOCK b).wr TGT_CFG.MGMT_ONLY b).wr SYN_CFG.MGMT_LOCK b) via m v c 6 stOK [])) ∧
    (Opens s via m 7 v c x a → a.length < 24 →
      exec (.windowCreate via m) s = .next (cmdDone x via m v c 7 stINTERNAL [])) ∧
    (Opens s via m 7 v c x a → x.fabricOpen = true → 24 ≤ a.length → ∀ u w d t, u = drowseExit x →
      u.on TGT_WCMD.BUSY = false → w = (List.range 6).foldl (fun t i => t.setReg (0x1A0010 + 4 * i)
        (BitVec.ofNat 32 (leAt a (4 * i) 4))) u → d = argWin w →
      t = createWindow u (argWindow w) d → t.on TGT_WCMD.BUSY = false →
      exec (.windowCreate via m) s = .next (cmdDone t via m v c 7 (t.rd TGT_WCMD.STATUS) [])) ∧
    (Opens s via m 8 v c x a → ∀ g im u, g = leAt a 0 2 → im = (a.drop 2).take 128 → u = drowseExit x →
      (a.length < 130 ∨ 4095 < g → exec (.groupCreate via m) s = .next (cmdDone x via m v c 8 stINTERNAL [])) ∧
      (130 ≤ a.length → g ≤ 4095 → x.fabricOpen = true → u.on YAR_GCMD.BUSY = false → u.initDone = true →
        ((u.group g).state ≠ 0 → exec (.groupCreate via m) s = .next (cmdDone u via m v c 8 stINTERNAL [])) ∧
        ((u.group g).state = 0 → imageStatus u true { image := im } = stOK → ∀ t,
          t = readOwnEntry ((u.wr YAR_GCMD.GROUP g).wr YAR_GCMD.BUSY 1) { g := g, priv := true } { image := im } →
          exec (.groupCreate via m) s =
            .next { t with bdg := { t.bdg with rspWait := some ⟨via, m, v.number, c, 8, false⟩ } }))) ∧
    (Opens s via m 9 v c x a → x.fabricOpen = true → exec (.seal via m) s = .next (cmdDone
      (((List.range 12).filter fun p => (drowseExit x).portPresent p && bitOf (leAt a 0 2) p).foldl
        (fun t p => t.wr (LNK_CTRL.SEAL_REQ p) (b2n (bitOf (leAt a 2 2) p))) (drowseExit x)) via m v c 9 stOK []))

/-- The operations of session commands on the Seal unit, the flash and the registers, and those of groves (R518, R522, R524,
R619, R638, R640, R641, R647, R655). -/
def Obligations.SessionDevice : Prop :=
  ∀ s (via : Fin 16) m v c x a,
    (Opens s via m 10 v c x a →
      (a.length < 452 → exec (.credInstall via m) s = .next (cmdDone x via m v c 10 stINTERNAL [])) ∧
      (452 ≤ a.length → exec (.credInstall via m) s =
        .next (cmdDone { x with sea := { x.sea with cred := a.take 452 } } via m v c 10 stOK []))) ∧
    (Opens s via m 11 v c x a →
      exec (.debugUnlock via m) s = .next (cmdDone (deriveIds (x.wr SEA_STATUS.DBG_UNLOCKED 1)) via m v c 11 stOK [])) ∧
    (Opens s via m 12 v c x a → exec (.returnService via m) s = .next (cmdDone (returnToService x) via m v c 12 stOK [])) ∧
    (Opens s via m 13 v c x a → ∀ n, n = leAt a 0 1 →
      (x.sea.fwSvn < n ∨ 64 < n → exec (.minSvn via m) s = .next (cmdDone x via m v c 13 stINTERNAL [])) ∧
      (n ≤ x.sea.fwSvn → n ≤ 64 → exec (.minSvn via m) s = .next (cmdDone { x with sea := { x.sea with
        fuses := { x.sea.fuses with minSvn := max x.sea.fuses.minSvn n } } } via m v c 13 stOK []))) ∧
    (Opens s via m 14 v c x a → ∀ n, n = leAt a 0 1 →
      (n = v.slot → exec (.anchorRevoke via m) s = .next (cmdDone x via m v c 14 stRIGHTS [])) ∧
      (n ≠ v.slot → n = 0 → exec (.anchorRevoke via m) s = .next (cmdDone { x with sea := { x.sea with
        fuses := { x.sea.fuses with revoked0 := true } } } via m v c 14 stOK [])) ∧
      (n ≠ v.slot → n = 1 → exec (.anchorRevoke via m) s = .next (cmdDone { x with sea := { x.sea with
        fuses := { x.sea.fuses with revoked1 := true } } } via m v c 14 stOK []))) ∧
    (Opens s via m 15 v c x a → ∀ k off d, k = leAt a 0 1 → off = leAt a 1 4 → d = a.drop 5 →
      (1 < k ∨ a.length < 5 ∨ 3968 < d.length ∨ 524288 < off + d.length →
        exec (.fwWrite via m) s = .next (cmdDone x via m v c 15 stINTERNAL [])) ∧
      (k ≤ 1 → 5 ≤ a.length → d.length ≤ 3968 → off + d.length ≤ 524288 →
        (x.burrow.dirty.contains (1 - k) = true → exec (.fwWrite via m) s = .next (cmdDone x via m v c 15 stBUSY [])) ∧
        (x.burrow.dirty.contains (1 - k) = false → ∀ t, t = flashWrite x (524288 * k + off) d →
          exec (.fwWrite via m) s = .next (cmdDone { t with burrow := { t.burrow with
            dirty := k :: x.burrow.dirty.erase k, checking := x.burrow.checking ++ [Sum.inr k] } } via m v c 15 stOK [])))) ∧
    (Opens s via m 16 v c x a → ∀ k, k = leAt a 0 1 →
      (1 < k ∨ imageOk x (imageCopy x k) = false → exec (.fwCheck via m) s = .next (cmdDone x via m v c 16 stINTERNAL [])) ∧
      (k ≤ 1 → imageOk x (imageCopy x k) = true → exec (.fwCheck via m) s = .next (cmdDone
        { x with burrow := { x.burrow with dirty := x.burrow.dirty.erase k } } via m v c 16 stOK []))) ∧
    (Opens s via m 17 v c x a → leAt a 0 2 = 1 → 6 ≤ a.length → ∀ t w st, readWord x .amm (leAt a 2 4 / 4 * 4) = (t, w, st) →
      exec (.regRead via m) s = .next (cmdDone t via m v c 17 stOK (natLE 4 w.toNat ++ natLE 4 st))) ∧
    (Opens s via m 18 v c x a → leAt a 0 2 = 1 → 10 ≤ a.length → ∀ t st,
      writeAperture x .amm (leAt a 2 4 / 4 * 4) (leAt a 6 4) = (t, st) →
      exec (.regWrite via m) s = .next (cmdDone t via m v c 18 st [])) ∧
    (Opens s via m 19 v c x a → 12 ≤ a.length → ∀ t, t = regWrite x BDG_TIME_CFG.ROOT.addr (leAt a 0 4) →
      (t.on BDG_TIME_CFG.ROOT = true → t.time.ref = true →
        exec (.timeCfg via m) s = .next (cmdDone (timeSet t (ns (leAt a 4 8))) via m v c 19 stOK [])) ∧
      (t.on BDG_TIME_CFG.ROOT = false → exec (.timeCfg via m) s = .next (cmdDone t via m v c 19 stOK []))) ∧
    (Opens s via m 20 v c x a → 9 ≤ a.length → leAt a 2 2 ≤ 512 →
      (leAt a 8 1 % 2 = 1 → ∀ t, t = (x.wr BDG_GROVE.STEWARD 1).wr BDG_GROVE.GROVE_ID (leAt a 0 2) →
        exec (.steward via m) s = .next (cmdDone (logEvent { t with bdg := { x.bdg with
          grove := [], healthPeriod := leAt a 4 2, congPeriod := leAt a 6 2 } } 0x4001 1 [leAt a 0 2, leAt a 2 2])
          via m v c 20 stOK [])) ∧
      (leAt a 8 1 % 2 = 0 → exec (.steward via m) s = .next (cmdDone (logEvent { x.wr BDG_GROVE.STEWARD 0 with
        bdg := { x.bdg with grove := [] } } 0x4001 1 [leAt a 0 2, leAt a 2 2]) via m v c 20 stOK []))) ∧
    (Opens s via m 21 v c x a → ∀ n, n = (a.length - 2) / 24 →
      (x.on BDG_GROVE.STEWARD = false ∨ 128 < n ∨ 512 < leAt a 0 2 + n →
        exec (.groveAdd via m) s = .next (cmdDone x via m v c 21 stINTERNAL [])) ∧
      (x.on BDG_GROVE.STEWARD = true → n = 1 → leAt a 0 2 < 512 → ∀ e : GroveEntry,
        e = { node := leAt a 2 4 % 2 ^ 20, route := (a.drop 6).take 16, n := leAt a 22 1, last := x.nowNs } →
        exec (.groveAdd via m) s = .next (cmdDone
          { x with bdg := { x.bdg with grove := x.bdg.grove.put (leAt a 0 2) e } } via m v c 21 stOK []))) ∧
    (Opens s via m 22 v c x a → 25 ≤ a.length → leAt a 22 1 ≤ 32 → Gives (.member via m) s fun t =>
      t.bdg.route = (a.drop 6).take 16 ∧ t.bdg.routeN = leAt a 22 1 ∧ t.bdg.unacked = 0 ∧ t.bdg.lastHealth = s.now ∧
      (TablesOk s → t.on BDG_GROVE.MEMBER = true ∧ t.on BDG_GROVE.STEWARD_LOST = false ∧
        t.rd BDG_GROVE.GROVE_ID = leAt a 0 2))

/-- Management messages (R520, R521, R634 to R637, R641, R643, R644). -/
def Obligations.ManagementMessages : Prop :=
  -- a fragment: the whole message, the next of a message, a gap that breaks it (R634)
  (∀ s (p : Port) m u id idx d, leAt m 0 1 = 3 → s.linkState p ≠ 0 → u = takeBypass s p m → id = leAt m 2 2 → idx = leAt m 4 2 →
    d = (m.drop 8).take 88 →
    (leAt m 1 1 = 1 → idx = 0 → u.bdg.parts.find? p = none → exec (.ammFragment p m) s = .next (ammTake u p d)) ∧
    (leAt m 1 1 = 2 → idx = 0 → u.bdg.parts.find? p = none → exec (.ammFragment p m) s =
      .next { u with bdg := { u.bdg with parts := u.bdg.parts.put p ⟨id, 1, d⟩ } }) ∧
    (leAt m 1 1 = 1 ∨ leAt m 1 1 = 2 → idx ≠ 0 → u.bdg.parts.find? p = none →
      exec (.ammFragment p m) s = .next (u.bump BDG_AMM_ERR.BROKEN 1)) ∧
    (∀ v b, u.bdg.parts.find? p = some v → idx = 0 →
      b = { u.bump BDG_AMM_ERR.BROKEN 1 with bdg := { u.bdg with parts := u.bdg.parts.drop p } } →
      (leAt m 1 1 = 1 → exec (.ammFragment p m) s = .next (ammTake b p d)) ∧
      (leAt m 1 1 = 2 → exec (.ammFragment p m) s = .next
        { b with bdg := { b.bdg with parts := b.bdg.parts.put p ⟨id, 1, d⟩ } })) ∧
    (leAt m 1 1 ≠ 1 → leAt m 1 1 ≠ 2 → u.bdg.parts.find? p = none → exec (.ammFragment p m) s = .next u) ∧
    (∀ v, u.bdg.parts.find? p = some v → leAt m 1 1 = 3 ∨ leAt m 1 1 = 4 →
      (v.msgId ≠ id ∨ v.next ≠ idx ∨ 47 ≤ idx → exec (.ammFragment p m) s =
        .next { u.bump BDG_AMM_ERR.BROKEN 1 with bdg := { u.bdg with parts := u.bdg.parts.drop p } }) ∧
      (v.msgId = id → v.next = idx → idx < 47 →
        (leAt m 1 1 = 3 → exec (.ammFragment p m) s =
          .next { u with bdg := { u.bdg with parts := u.bdg.parts.put p ⟨id, idx + 1, v.bytes ++ d⟩ } }) ∧
        (leAt m 1 1 = 4 → exec (.ammFragment p m) s =
          .next (ammTake { u with bdg := { u.bdg with parts := u.bdg.parts.drop p } } p (v.bytes ++ d)))))) ∧
  -- the requests without a session; lost while firmware restarts (R639)
  (∀ s (via : Fin 16) m u, u = takeInbox s via m →
    (∀ x ∈ ([(.challengeReq, 0x10), (.sessionOpen, 0x12), (.directive, 0x18), (.attestReq, 0x19), (.health, 0x20),
        (.healthAck, 0x21), (.congMap, 0x22)] : List ((Fin 16 → List Byte → Instr) × Nat)),
      (ammType m ≠ x.2 → exec (x.1 via m) s = .next s) ∧
      (ammType m = x.2 → fwUp s = false → exec (x.1 via m) s = .next (u.bump BDG_AMM_ERR.LOST 1))) ∧
    (fwUp s = true →
      (ammType m = 0x10 → u.sea.aliasKey = 0 ∨ u.on SEA_STATUS.RNG_OK = false →
        exec (.challengeReq via m) s = .next (ammError u via m stINTERNAL)) ∧
      (ammType m = 0x10 → u.sea.aliasKey ≠ 0 → u.on SEA_STATUS.RNG_OK = true → exec (.challengeReq via m) s =
        .next (ammReply (makeChallenge u).2 via m 0x11 (makeChallenge u).1)) ∧
      (ammType m = 0x12 → ∀ b t r, b = ammBody m →
        openSession u (b.take 96) ((b.drop 96).take 32) ((b.drop 128).take 96) ((b.drop 224).take 96) = (t, r) →
        (∀ n, r = some n → exec (.sessionOpen via m) s = .next (ammReply t via m 0x13 (natLE 4 n ++ natLE 1 stOK))) ∧
        (r = none → u.on SEA_STATUS.RNG_OK = true →
          exec (.sessionOpen via m) s = .next (ammReply t via m 0x13 (natLE 4 0 ++ natLE 1 stRIGHTS)))) ∧
      (ammType m = 0x19 → u.sea.aliasKey = 0 → exec (.attestReq via m) s = .next (ammError u via m stBUSY)) ∧
      (ammType m = 0x19 → u.sea.aliasKey ≠ 0 → ∀ t r, makeReport u ((ammBody m).take 48) = (r, t) →
        exec (.attestReq via m) s = .next (ammReply t via m 0x1A r)) ∧
      (ammType m = 0x18 → u.on BDG_GROVE.STEWARD = false → u.on BDG_GROVE.MEMBER = false →
        exec (.directive via m) s = .next (acceptDirective u (ammBody m))) ∧
      (ammType m = 0x18 → u.bdg.flooded.contains (leAt (ammBody m) 12 8) = true ∨ (via.val ≠ 15 ∧ bitOf (ammFlags m) 1 = false) →
        exec (.directive via m) s = .next (acceptDirective u (ammBody m))) ∧
      -- groves: a steward keeps what a member reports, and acknowledges it; the sequence acknowledged ends the count (R641, R643)
      (ammType m = 0x20 → u.on BDG_GROVE.STEWARD = false → exec (.health via m) s = .next u) ∧
      (ammType m = 0x20 → u.on BDG_GROVE.STEWARD = true → ∀ b, b = (ammBody m).take 32 → exec (.health via m) s =
        .next (ammReply (groveMap u (ammSrc m) fun e => { e with health := b, last := u.nowNs, silent := false }) via m 0x21
          (natLE 4 (leAt b 20 4)))) ∧
      (ammType m = 0x21 → ∀ later, later = (u.bdg.healthSeq + 2 ^ 32 - leAt (ammBody m) 0 4) % 2 ^ 32 →
        (u.bdg.unacked ≤ later → exec (.healthAck via m) s = .next u) ∧
        (later < u.bdg.unacked → exec (.healthAck via m) s =
          .next { u.wr BDG_GROVE.STEWARD_LOST 0 with bdg := { u.bdg with unacked := later } })) ∧
      (ammType m = 0x22 → u.on BDG_GROVE.STEWARD = true → exec (.congMap via m) s =
        .next (groveMap u (ammSrc m) fun e => { e with map := ((ammBody m).drop 8).take 12 }))))

/-- What firmware does in its own time: HEALTH and congestion maps, silent members, the discipline of fabric time, the log
ring, the flash (R632, R641, R643, R647, R660, R661, R663). -/
def Obligations.FirmwarePeriods : Prop :=
  (∀ s, memberSends s = false → exec .healthPeriod s = .next s ∧ exec .congPeriod s = .next s) ∧
  (∀ s, s.now < s.bdg.lastHealth + ns (1000000 * s.bdg.healthPeriod) → s.bdg.told = healthEvents s →
    exec .healthPeriod s = .next s) ∧
  (∀ s q, memberSends s = true →
    s.bdg.lastHealth + ns (1000000 * s.bdg.healthPeriod) ≤ s.now ∨ s.bdg.told ≠ healthEvents s → s.bdg.unacked < 2 →
    q = (s.bdg.healthSeq + 1) % 2 ^ 32 → ∀ t, t = ammOwn s 0x20 (s.rd BDG_GROVE2.STEWARD_NODE) (healthBody s q) →
    exec .healthPeriod s = .next { t with bdg := { t.bdg with
      healthSeq := q, unacked := s.bdg.unacked + 1, lastHealth := s.now, told := healthEvents s } }) ∧
  (∀ s, TablesOk s → memberSends s = true →
    s.bdg.lastHealth + ns (1000000 * s.bdg.healthPeriod) ≤ s.now ∨ s.bdg.told ≠ healthEvents s → 2 ≤ s.bdg.unacked →
    Gives .healthPeriod s fun t => t.on BDG_GROVE.STEWARD_LOST = true) ∧
  (∀ s, memberSends s = true → s.bdg.lastCong + ns (1000000 * s.bdg.congPeriod) ≤ s.now →
    ∀ t, t = ammOwn s 0x22 (s.rd BDG_GROVE2.STEWARD_NODE) (natLE 8 s.stampNs ++ portMap s) →
    exec .congPeriod s = .next { t with bdg := { t.bdg with lastCong := s.now } }) ∧
  (∀ s (i : Fin 512) e, s.bdg.grove.find? i = some e →
    (e.silent = true ∨ s.nowNs < e.last + 3000000 * s.bdg.healthPeriod → exec (.memberSilent i) s = .next s) ∧
    (s.on BDG_GROVE.STEWARD = true → fwUp s = true → e.silent = false → e.last + 3000000 * s.bdg.healthPeriod ≤ s.nowNs →
      exec (.memberSilent i) s = .next (logEvent { s with bdg := { s.bdg with
        grove := s.bdg.grove.put i { e with silent := true } } } 0x4002 2 [e.node]))) ∧
  -- TIME_SYNC: a small offset is slewed, a larger one stepped with F2 (R647)
  (∀ s ofs p u, p = s.rd BDG_TIME_CFG.PARENT_PORT → s.on BDG_TIME_CFG.ROOT = false → p < 12 → fwUp s = true →
    s.bdg.lastSync + ns (1000000 * s.rd BDG_TIME_CFG.SYNC_PERIOD) ≤ s.now → s.linkState p = 3 ∨ s.linkState p = 2 →
    u = putOffset { s.wr BDG_TIME_STAT.PARENT_LOST 0 with bdg := { s.bdg with lastSync := s.now, missed := 0 } } ofs →
    (s.timeValid = true → ofs.natAbs ≤ 1600 * s.rd (LNK_TMR1.TIME_TOL p) → exec (.timeSync ofs) s =
      .next { u with bdg := { u.bdg with slew := ofs * 10000000 } }) ∧
    (s.timeValid = true → 1600 * s.rd (LNK_TMR1.TIME_TOL p) < ofs.natAbs →
      exec (.timeSync ofs) s = .next (report (timeStep u ofs p) 0x18 2 0x06 p)) ∧
    (s.timeValid = false → parentValid s p = true → exec (.timeSync ofs) s = .next (timeStep u ofs p)) ∧
    (s.timeValid = false → parentValid s p = false → exec (.timeSync ofs) s = .next u)) ∧
  (∀ s ofs, s.on BDG_TIME_CFG.ROOT = true ∨ s.now < s.bdg.lastSync + ns (1000000 * s.rd BDG_TIME_CFG.SYNC_PERIOD) →
    exec (.timeSync ofs) s = .next s) ∧
  -- LOG_ENABLE: setting EN, which was 0, zeroes HEAD and TAIL, clearing it drops what waits (R663)
  (∀ s, s.on BDG_LOG_CFG.EN = true → exec (.logEnable true) s = .next s) ∧
  (∀ s, TablesOk s → (s.on BDG_LOG_CFG.EN = false → Gives (.logEnable true) s fun t => t.on BDG_LOG_CFG.EN = true ∧ t.rd BDG_LOG_PTR.HEAD = 0 ∧
      t.rd BDG_LOG_PTR.TAIL = 0 ∧ t.bdg.logLevels = []) ∧
    (Gives (.logEnable false) s fun t => t.on BDG_LOG_CFG.EN = false ∧ t.bdg.logWait = [])) ∧
  -- BURROW_REFRESH and the end of a flash operation (R660, R661)
  (∀ s (k : Fin 5), s.timeValid = false ∨ fwUp s = false → exec (.burrowRefresh k) s = .next s) ∧
  (∀ s (k : Fin 5), s.timeValid = true → fwUp s = true → k.val < 4 →
    (s.nowNs < s.burrow.refreshed.getD k 0 + 730 * 86400000000000 → exec (.burrowRefresh k) s = .next s) ∧
    (s.burrow.refreshed.getD k 0 + 730 * 86400000000000 ≤ s.nowNs → s.burrow.dirty.contains (otherCopy k) = false →
      copyGood s (otherCopy k) = true → s.on BDG_BURROW.OPEN = false → s.on BDG_LOG_CFG.EN = false →
      Gives (.burrowRefresh k) s fun t => t.burrow.flash = (copyOver s k).burrow.flash ∧
        t.burrow.refreshed = s.burrow.refreshed.set k s.nowNs ∧ t.burrow.checking = s.burrow.checking ++ [Sum.inr k.val])) ∧
  (∀ s ok, s.burrow.checking = [] → exec (.flashEraseProgramDone ok) s = .next s) ∧
  (∀ s x rest u, s.burrow.checking = x :: rest → u = { s with burrow := { s.burrow with checking := rest } } →
    exec (.flashEraseProgramDone true) s = .next u ∧
    (∀ i, x = Sum.inl i → i ≠ (markBad u i).burrow.cur → exec (.flashEraseProgramDone false) s = .next (markBad u i)))
end

