-- ==== Sys2Proof/Laws/State.lean ====
section
/-! SUPPORT. Each field of the state after each named update, so that no proof unfolds a record update. -/
namespace Sys2Proof.Machine
variable (s : State)

@[simp] theorem State.setReg_build (a : Nat) (w : Word) : (s.setReg a w).build = s.build := rfl
@[simp] theorem State.setReg_time (a : Nat) (w : Word) : (s.setReg a w).time = s.time := rfl
@[simp] theorem State.setReg_pins (a : Nat) (w : Word) : (s.setReg a w).pins = s.pins := rfl
@[simp] theorem State.setReg_hhg (a : Nat) (w : Word) : (s.setReg a w).hhg = s.hhg := rfl
@[simp] theorem State.setReg_hmp (a : Nat) (w : Word) : (s.setReg a w).hmp = s.hmp := rfl
@[simp] theorem State.setReg_queues (a : Nat) (w : Word) : (s.setReg a w).queues = s.queues := rfl
@[simp] theorem State.setReg_ctxs (a : Nat) (w : Word) : (s.setReg a w).ctxs = s.ctxs := rfl
@[simp] theorem State.setReg_mrt (a : Nat) (w : Word) : (s.setReg a w).mrt = s.mrt := rfl
@[simp] theorem State.setReg_syn (a : Nat) (w : Word) : (s.setReg a w).syn = s.syn := rfl
@[simp] theorem State.setReg_wins (a : Nat) (w : Word) : (s.setReg a w).wins = s.wins := rfl
@[simp] theorem State.setReg_xpt (a : Nat) (w : Word) : (s.setReg a w).xpt = s.xpt := rfl
@[simp] theorem State.setReg_tgt (a : Nat) (w : Word) : (s.setReg a w).tgt = s.tgt := rfl
@[simp] theorem State.setReg_out (a : Nat) (w : Word) : (s.setReg a w).out = s.out := rfl
@[simp] theorem State.setReg_lanes (a : Nat) (w : Word) : (s.setReg a w).lanes = s.lanes := rfl
@[simp] theorem State.setReg_links (a : Nat) (w : Word) : (s.setReg a w).links = s.links := rfl
@[simp] theorem State.setReg_rtr (a : Nat) (w : Word) : (s.setReg a w).rtr = s.rtr := rfl
@[simp] theorem State.setReg_sch (a : Nat) (w : Word) : (s.setReg a w).sch = s.sch := rfl
@[simp] theorem State.setReg_sea (a : Nat) (w : Word) : (s.setReg a w).sea = s.sea := rfl
@[simp] theorem State.setReg_burrow (a : Nat) (w : Word) : (s.setReg a w).burrow = s.burrow := rfl
@[simp] theorem State.setReg_csp (a : Nat) (w : Word) : (s.setReg a w).csp = s.csp := rfl
@[simp] theorem State.setReg_bdg (a : Nat) (w : Word) : (s.setReg a w).bdg = s.bdg := rfl
@[simp] theorem State.setReg_acc (a : Nat) (w : Word) : (s.setReg a w).acc = s.acc := rfl
@[simp] theorem State.setReg_yar (a : Nat) (w : Word) : (s.setReg a w).yar = s.yar := rfl
@[simp] theorem State.setReg_fox (a : Nat) (w : Word) : (s.setReg a w).fox = s.fox := rfl
@[simp] theorem State.setReg_pending (a : Nat) (w : Word) : (s.setReg a w).pending = s.pending := rfl
@[simp] theorem State.setReg_freeIdx (a : Nat) (w : Word) : (s.setReg a w).freeIdx = s.freeIdx := rfl

@[simp] theorem State.wr_build (f : Fld) (v : Nat) : (s.wr f v).build = s.build := rfl
@[simp] theorem State.wr_time (f : Fld) (v : Nat) : (s.wr f v).time = s.time := rfl
@[simp] theorem State.wr_pins (f : Fld) (v : Nat) : (s.wr f v).pins = s.pins := rfl
@[simp] theorem State.wr_hhg (f : Fld) (v : Nat) : (s.wr f v).hhg = s.hhg := rfl
@[simp] theorem State.wr_hmp (f : Fld) (v : Nat) : (s.wr f v).hmp = s.hmp := rfl
@[simp] theorem State.wr_queues (f : Fld) (v : Nat) : (s.wr f v).queues = s.queues := rfl
@[simp] theorem State.wr_ctxs (f : Fld) (v : Nat) : (s.wr f v).ctxs = s.ctxs := rfl
@[simp] theorem State.wr_mrt (f : Fld) (v : Nat) : (s.wr f v).mrt = s.mrt := rfl
@[simp] theorem State.wr_syn (f : Fld) (v : Nat) : (s.wr f v).syn = s.syn := rfl
@[simp] theorem State.wr_wins (f : Fld) (v : Nat) : (s.wr f v).wins = s.wins := rfl
@[simp] theorem State.wr_xpt (f : Fld) (v : Nat) : (s.wr f v).xpt = s.xpt := rfl
@[simp] theorem State.wr_tgt (f : Fld) (v : Nat) : (s.wr f v).tgt = s.tgt := rfl
@[simp] theorem State.wr_out (f : Fld) (v : Nat) : (s.wr f v).out = s.out := rfl
@[simp] theorem State.wr_lanes (f : Fld) (v : Nat) : (s.wr f v).lanes = s.lanes := rfl
@[simp] theorem State.wr_links (f : Fld) (v : Nat) : (s.wr f v).links = s.links := rfl
@[simp] theorem State.wr_rtr (f : Fld) (v : Nat) : (s.wr f v).rtr = s.rtr := rfl
@[simp] theorem State.wr_sch (f : Fld) (v : Nat) : (s.wr f v).sch = s.sch := rfl
@[simp] theorem State.wr_sea (f : Fld) (v : Nat) : (s.wr f v).sea = s.sea := rfl
@[simp] theorem State.wr_burrow (f : Fld) (v : Nat) : (s.wr f v).burrow = s.burrow := rfl
@[simp] theorem State.wr_csp (f : Fld) (v : Nat) : (s.wr f v).csp = s.csp := rfl
@[simp] theorem State.wr_bdg (f : Fld) (v : Nat) : (s.wr f v).bdg = s.bdg := rfl
@[simp] theorem State.wr_acc (f : Fld) (v : Nat) : (s.wr f v).acc = s.acc := rfl
@[simp] theorem State.wr_yar (f : Fld) (v : Nat) : (s.wr f v).yar = s.yar := rfl
@[simp] theorem State.wr_fox (f : Fld) (v : Nat) : (s.wr f v).fox = s.fox := rfl
@[simp] theorem State.wr_pending (f : Fld) (v : Nat) : (s.wr f v).pending = s.pending := rfl
@[simp] theorem State.wr_freeIdx (f : Fld) (v : Nat) : (s.wr f v).freeIdx = s.freeIdx := rfl

@[simp] theorem State.bump_build (f : Fld) (n : Nat) : (s.bump f n).build = s.build := rfl
@[simp] theorem State.bump_time (f : Fld) (n : Nat) : (s.bump f n).time = s.time := rfl
@[simp] theorem State.bump_pins (f : Fld) (n : Nat) : (s.bump f n).pins = s.pins := rfl
@[simp] theorem State.bump_hhg (f : Fld) (n : Nat) : (s.bump f n).hhg = s.hhg := rfl
@[simp] theorem State.bump_hmp (f : Fld) (n : Nat) : (s.bump f n).hmp = s.hmp := rfl
@[simp] theorem State.bump_queues (f : Fld) (n : Nat) : (s.bump f n).queues = s.queues := rfl
@[simp] theorem State.bump_ctxs (f : Fld) (n : Nat) : (s.bump f n).ctxs = s.ctxs := rfl
@[simp] theorem State.bump_mrt (f : Fld) (n : Nat) : (s.bump f n).mrt = s.mrt := rfl
@[simp] theorem State.bump_syn (f : Fld) (n : Nat) : (s.bump f n).syn = s.syn := rfl
@[simp] theorem State.bump_wins (f : Fld) (n : Nat) : (s.bump f n).wins = s.wins := rfl
@[simp] theorem State.bump_xpt (f : Fld) (n : Nat) : (s.bump f n).xpt = s.xpt := rfl
@[simp] theorem State.bump_tgt (f : Fld) (n : Nat) : (s.bump f n).tgt = s.tgt := rfl
@[simp] theorem State.bump_out (f : Fld) (n : Nat) : (s.bump f n).out = s.out := rfl
@[simp] theorem State.bump_lanes (f : Fld) (n : Nat) : (s.bump f n).lanes = s.lanes := rfl
@[simp] theorem State.bump_links (f : Fld) (n : Nat) : (s.bump f n).links = s.links := rfl
@[simp] theorem State.bump_rtr (f : Fld) (n : Nat) : (s.bump f n).rtr = s.rtr := rfl
@[simp] theorem State.bump_sch (f : Fld) (n : Nat) : (s.bump f n).sch = s.sch := rfl
@[simp] theorem State.bump_sea (f : Fld) (n : Nat) : (s.bump f n).sea = s.sea := rfl
@[simp] theorem State.bump_burrow (f : Fld) (n : Nat) : (s.bump f n).burrow = s.burrow := rfl
@[simp] theorem State.bump_csp (f : Fld) (n : Nat) : (s.bump f n).csp = s.csp := rfl
@[simp] theorem State.bump_bdg (f : Fld) (n : Nat) : (s.bump f n).bdg = s.bdg := rfl
@[simp] theorem State.bump_acc (f : Fld) (n : Nat) : (s.bump f n).acc = s.acc := rfl
@[simp] theorem State.bump_yar (f : Fld) (n : Nat) : (s.bump f n).yar = s.yar := rfl
@[simp] theorem State.bump_fox (f : Fld) (n : Nat) : (s.bump f n).fox = s.fox := rfl
@[simp] theorem State.bump_pending (f : Fld) (n : Nat) : (s.bump f n).pending = s.pending := rfl
@[simp] theorem State.bump_freeIdx (f : Fld) (n : Nat) : (s.bump f n).freeIdx = s.freeIdx := rfl

@[simp] theorem State.wrapAdd_build (f : Fld) (n : Nat) : (s.wrapAdd f n).build = s.build := rfl
@[simp] theorem State.wrapAdd_time (f : Fld) (n : Nat) : (s.wrapAdd f n).time = s.time := rfl
@[simp] theorem State.wrapAdd_pins (f : Fld) (n : Nat) : (s.wrapAdd f n).pins = s.pins := rfl
@[simp] theorem State.wrapAdd_hhg (f : Fld) (n : Nat) : (s.wrapAdd f n).hhg = s.hhg := rfl
@[simp] theorem State.wrapAdd_hmp (f : Fld) (n : Nat) : (s.wrapAdd f n).hmp = s.hmp := rfl
@[simp] theorem State.wrapAdd_queues (f : Fld) (n : Nat) : (s.wrapAdd f n).queues = s.queues := rfl
@[simp] theorem State.wrapAdd_ctxs (f : Fld) (n : Nat) : (s.wrapAdd f n).ctxs = s.ctxs := rfl
@[simp] theorem State.wrapAdd_mrt (f : Fld) (n : Nat) : (s.wrapAdd f n).mrt = s.mrt := rfl
@[simp] theorem State.wrapAdd_syn (f : Fld) (n : Nat) : (s.wrapAdd f n).syn = s.syn := rfl
@[simp] theorem State.wrapAdd_wins (f : Fld) (n : Nat) : (s.wrapAdd f n).wins = s.wins := rfl
@[simp] theorem State.wrapAdd_xpt (f : Fld) (n : Nat) : (s.wrapAdd f n).xpt = s.xpt := rfl
@[simp] theorem State.wrapAdd_tgt (f : Fld) (n : Nat) : (s.wrapAdd f n).tgt = s.tgt := rfl
@[simp] theorem State.wrapAdd_out (f : Fld) (n : Nat) : (s.wrapAdd f n).out = s.out := rfl
@[simp] theorem State.wrapAdd_lanes (f : Fld) (n : Nat) : (s.wrapAdd f n).lanes = s.lanes := rfl
@[simp] theorem State.wrapAdd_links (f : Fld) (n : Nat) : (s.wrapAdd f n).links = s.links := rfl
@[simp] theorem State.wrapAdd_rtr (f : Fld) (n : Nat) : (s.wrapAdd f n).rtr = s.rtr := rfl
@[simp] theorem State.wrapAdd_sch (f : Fld) (n : Nat) : (s.wrapAdd f n).sch = s.sch := rfl
@[simp] theorem State.wrapAdd_sea (f : Fld) (n : Nat) : (s.wrapAdd f n).sea = s.sea := rfl
@[simp] theorem State.wrapAdd_burrow (f : Fld) (n : Nat) : (s.wrapAdd f n).burrow = s.burrow := rfl
@[simp] theorem State.wrapAdd_csp (f : Fld) (n : Nat) : (s.wrapAdd f n).csp = s.csp := rfl
@[simp] theorem State.wrapAdd_bdg (f : Fld) (n : Nat) : (s.wrapAdd f n).bdg = s.bdg := rfl
@[simp] theorem State.wrapAdd_acc (f : Fld) (n : Nat) : (s.wrapAdd f n).acc = s.acc := rfl
@[simp] theorem State.wrapAdd_yar (f : Fld) (n : Nat) : (s.wrapAdd f n).yar = s.yar := rfl
@[simp] theorem State.wrapAdd_fox (f : Fld) (n : Nat) : (s.wrapAdd f n).fox = s.fox := rfl
@[simp] theorem State.wrapAdd_pending (f : Fld) (n : Nat) : (s.wrapAdd f n).pending = s.pending := rfl
@[simp] theorem State.wrapAdd_freeIdx (f : Fld) (n : Nat) : (s.wrapAdd f n).freeIdx = s.freeIdx := rfl

@[simp] theorem State.useFree_build : (s.useFree).build = s.build := rfl
@[simp] theorem State.useFree_regs : (s.useFree).regs = s.regs := rfl
@[simp] theorem State.useFree_time : (s.useFree).time = s.time := rfl
@[simp] theorem State.useFree_pins : (s.useFree).pins = s.pins := rfl
@[simp] theorem State.useFree_hhg : (s.useFree).hhg = s.hhg := rfl
@[simp] theorem State.useFree_hmp : (s.useFree).hmp = s.hmp := rfl
@[simp] theorem State.useFree_queues : (s.useFree).queues = s.queues := rfl
@[simp] theorem State.useFree_ctxs : (s.useFree).ctxs = s.ctxs := rfl
@[simp] theorem State.useFree_mrt : (s.useFree).mrt = s.mrt := rfl
@[simp] theorem State.useFree_syn : (s.useFree).syn = s.syn := rfl
@[simp] theorem State.useFree_wins : (s.useFree).wins = s.wins := rfl
@[simp] theorem State.useFree_xpt : (s.useFree).xpt = s.xpt := rfl
@[simp] theorem State.useFree_tgt : (s.useFree).tgt = s.tgt := rfl
@[simp] theorem State.useFree_out : (s.useFree).out = s.out := rfl
@[simp] theorem State.useFree_lanes : (s.useFree).lanes = s.lanes := rfl
@[simp] theorem State.useFree_links : (s.useFree).links = s.links := rfl
@[simp] theorem State.useFree_rtr : (s.useFree).rtr = s.rtr := rfl
@[simp] theorem State.useFree_sch : (s.useFree).sch = s.sch := rfl
@[simp] theorem State.useFree_sea : (s.useFree).sea = s.sea := rfl
@[simp] theorem State.useFree_burrow : (s.useFree).burrow = s.burrow := rfl
@[simp] theorem State.useFree_csp : (s.useFree).csp = s.csp := rfl
@[simp] theorem State.useFree_bdg : (s.useFree).bdg = s.bdg := rfl
@[simp] theorem State.useFree_acc : (s.useFree).acc = s.acc := rfl
@[simp] theorem State.useFree_yar : (s.useFree).yar = s.yar := rfl
@[simp] theorem State.useFree_fox : (s.useFree).fox = s.fox := rfl
@[simp] theorem State.useFree_pending : (s.useFree).pending = s.pending := rfl

@[simp] theorem report_build (a b c d : Nat) : (report s a b c d).build = s.build := rfl
@[simp] theorem report_regs (a b c d : Nat) : (report s a b c d).regs = s.regs := rfl
@[simp] theorem report_time (a b c d : Nat) : (report s a b c d).time = s.time := rfl
@[simp] theorem report_pins (a b c d : Nat) : (report s a b c d).pins = s.pins := rfl
@[simp] theorem report_hmp (a b c d : Nat) : (report s a b c d).hmp = s.hmp := rfl
@[simp] theorem report_queues (a b c d : Nat) : (report s a b c d).queues = s.queues := rfl
@[simp] theorem report_ctxs (a b c d : Nat) : (report s a b c d).ctxs = s.ctxs := rfl
@[simp] theorem report_mrt (a b c d : Nat) : (report s a b c d).mrt = s.mrt := rfl
@[simp] theorem report_syn (a b c d : Nat) : (report s a b c d).syn = s.syn := rfl
@[simp] theorem report_wins (a b c d : Nat) : (report s a b c d).wins = s.wins := rfl
@[simp] theorem report_xpt (a b c d : Nat) : (report s a b c d).xpt = s.xpt := rfl
@[simp] theorem report_tgt (a b c d : Nat) : (report s a b c d).tgt = s.tgt := rfl
@[simp] theorem report_out (a b c d : Nat) : (report s a b c d).out = s.out := rfl
@[simp] theorem report_lanes (a b c d : Nat) : (report s a b c d).lanes = s.lanes := rfl
@[simp] theorem report_links (a b c d : Nat) : (report s a b c d).links = s.links := rfl
@[simp] theorem report_rtr (a b c d : Nat) : (report s a b c d).rtr = s.rtr := rfl
@[simp] theorem report_sch (a b c d : Nat) : (report s a b c d).sch = s.sch := rfl
@[simp] theorem report_sea (a b c d : Nat) : (report s a b c d).sea = s.sea := rfl
@[simp] theorem report_burrow (a b c d : Nat) : (report s a b c d).burrow = s.burrow := rfl
@[simp] theorem report_csp (a b c d : Nat) : (report s a b c d).csp = s.csp := rfl
@[simp] theorem report_bdg (a b c d : Nat) : (report s a b c d).bdg = s.bdg := rfl
@[simp] theorem report_acc (a b c d : Nat) : (report s a b c d).acc = s.acc := rfl
@[simp] theorem report_yar (a b c d : Nat) : (report s a b c d).yar = s.yar := rfl
@[simp] theorem report_fox (a b c d : Nat) : (report s a b c d).fox = s.fox := rfl
@[simp] theorem report_pending (a b c d : Nat) : (report s a b c d).pending = s.pending := rfl
@[simp] theorem report_freeIdx (a b c d : Nat) : (report s a b c d).freeIdx = s.freeIdx := rfl

@[simp] theorem State.setChan_build (c : Nat) (h : HmpChan) : (s.setChan c h).build = s.build := rfl
@[simp] theorem State.setChan_regs (c : Nat) (h : HmpChan) : (s.setChan c h).regs = s.regs := rfl
@[simp] theorem State.setChan_time (c : Nat) (h : HmpChan) : (s.setChan c h).time = s.time := rfl
@[simp] theorem State.setChan_pins (c : Nat) (h : HmpChan) : (s.setChan c h).pins = s.pins := rfl
@[simp] theorem State.setChan_hhg (c : Nat) (h : HmpChan) : (s.setChan c h).hhg = s.hhg := rfl
@[simp] theorem State.setChan_queues (c : Nat) (h : HmpChan) : (s.setChan c h).queues = s.queues := rfl
@[simp] theorem State.setChan_ctxs (c : Nat) (h : HmpChan) : (s.setChan c h).ctxs = s.ctxs := rfl
@[simp] theorem State.setChan_mrt (c : Nat) (h : HmpChan) : (s.setChan c h).mrt = s.mrt := rfl
@[simp] theorem State.setChan_syn (c : Nat) (h : HmpChan) : (s.setChan c h).syn = s.syn := rfl
@[simp] theorem State.setChan_wins (c : Nat) (h : HmpChan) : (s.setChan c h).wins = s.wins := rfl
@[simp] theorem State.setChan_xpt (c : Nat) (h : HmpChan) : (s.setChan c h).xpt = s.xpt := rfl
@[simp] theorem State.setChan_tgt (c : Nat) (h : HmpChan) : (s.setChan c h).tgt = s.tgt := rfl
@[simp] theorem State.setChan_out (c : Nat) (h : HmpChan) : (s.setChan c h).out = s.out := rfl
@[simp] theorem State.setChan_lanes (c : Nat) (h : HmpChan) : (s.setChan c h).lanes = s.lanes := rfl
@[simp] theorem State.setChan_links (c : Nat) (h : HmpChan) : (s.setChan c h).links = s.links := rfl
@[simp] theorem State.setChan_rtr (c : Nat) (h : HmpChan) : (s.setChan c h).rtr = s.rtr := rfl
@[simp] theorem State.setChan_sch (c : Nat) (h : HmpChan) : (s.setChan c h).sch = s.sch := rfl
@[simp] theorem State.setChan_sea (c : Nat) (h : HmpChan) : (s.setChan c h).sea = s.sea := rfl
@[simp] theorem State.setChan_burrow (c : Nat) (h : HmpChan) : (s.setChan c h).burrow = s.burrow := rfl
@[simp] theorem State.setChan_csp (c : Nat) (h : HmpChan) : (s.setChan c h).csp = s.csp := rfl
@[simp] theorem State.setChan_bdg (c : Nat) (h : HmpChan) : (s.setChan c h).bdg = s.bdg := rfl
@[simp] theorem State.setChan_acc (c : Nat) (h : HmpChan) : (s.setChan c h).acc = s.acc := rfl
@[simp] theorem State.setChan_yar (c : Nat) (h : HmpChan) : (s.setChan c h).yar = s.yar := rfl
@[simp] theorem State.setChan_fox (c : Nat) (h : HmpChan) : (s.setChan c h).fox = s.fox := rfl
@[simp] theorem State.setChan_pending (c : Nat) (h : HmpChan) : (s.setChan c h).pending = s.pending := rfl
@[simp] theorem State.setChan_freeIdx (c : Nat) (h : HmpChan) : (s.setChan c h).freeIdx = s.freeIdx := rfl

@[simp] theorem State.setQueue_build (q : Nat) (v : Queue) : (s.setQueue q v).build = s.build := rfl
@[simp] theorem State.setQueue_regs (q : Nat) (v : Queue) : (s.setQueue q v).regs = s.regs := rfl
@[simp] theorem State.setQueue_time (q : Nat) (v : Queue) : (s.setQueue q v).time = s.time := rfl
@[simp] theorem State.setQueue_pins (q : Nat) (v : Queue) : (s.setQueue q v).pins = s.pins := rfl
@[simp] theorem State.setQueue_hhg (q : Nat) (v : Queue) : (s.setQueue q v).hhg = s.hhg := rfl
@[simp] theorem State.setQueue_hmp (q : Nat) (v : Queue) : (s.setQueue q v).hmp = s.hmp := rfl
@[simp] theorem State.setQueue_ctxs (q : Nat) (v : Queue) : (s.setQueue q v).ctxs = s.ctxs := rfl
@[simp] theorem State.setQueue_mrt (q : Nat) (v : Queue) : (s.setQueue q v).mrt = s.mrt := rfl
@[simp] theorem State.setQueue_syn (q : Nat) (v : Queue) : (s.setQueue q v).syn = s.syn := rfl
@[simp] theorem State.setQueue_wins (q : Nat) (v : Queue) : (s.setQueue q v).wins = s.wins := rfl
@[simp] theorem State.setQueue_xpt (q : Nat) (v : Queue) : (s.setQueue q v).xpt = s.xpt := rfl
@[simp] theorem State.setQueue_tgt (q : Nat) (v : Queue) : (s.setQueue q v).tgt = s.tgt := rfl
@[simp] theorem State.setQueue_out (q : Nat) (v : Queue) : (s.setQueue q v).out = s.out := rfl
@[simp] theorem State.setQueue_lanes (q : Nat) (v : Queue) : (s.setQueue q v).lanes = s.lanes := rfl
@[simp] theorem State.setQueue_links (q : Nat) (v : Queue) : (s.setQueue q v).links = s.links := rfl
@[simp] theorem State.setQueue_rtr (q : Nat) (v : Queue) : (s.setQueue q v).rtr = s.rtr := rfl
@[simp] theorem State.setQueue_sch (q : Nat) (v : Queue) : (s.setQueue q v).sch = s.sch := rfl
@[simp] theorem State.setQueue_sea (q : Nat) (v : Queue) : (s.setQueue q v).sea = s.sea := rfl
@[simp] theorem State.setQueue_burrow (q : Nat) (v : Queue) : (s.setQueue q v).burrow = s.burrow := rfl
@[simp] theorem State.setQueue_csp (q : Nat) (v : Queue) : (s.setQueue q v).csp = s.csp := rfl
@[simp] theorem State.setQueue_bdg (q : Nat) (v : Queue) : (s.setQueue q v).bdg = s.bdg := rfl
@[simp] theorem State.setQueue_acc (q : Nat) (v : Queue) : (s.setQueue q v).acc = s.acc := rfl
@[simp] theorem State.setQueue_yar (q : Nat) (v : Queue) : (s.setQueue q v).yar = s.yar := rfl
@[simp] theorem State.setQueue_fox (q : Nat) (v : Queue) : (s.setQueue q v).fox = s.fox := rfl
@[simp] theorem State.setQueue_pending (q : Nat) (v : Queue) : (s.setQueue q v).pending = s.pending := rfl
@[simp] theorem State.setQueue_freeIdx (q : Nat) (v : Queue) : (s.setQueue q v).freeIdx = s.freeIdx := rfl

@[simp] theorem State.setCtx_build (k : Nat) (c : Ctxt) : (s.setCtx k c).build = s.build := rfl
@[simp] theorem State.setCtx_regs (k : Nat) (c : Ctxt) : (s.setCtx k c).regs = s.regs := rfl
@[simp] theorem State.setCtx_time (k : Nat) (c : Ctxt) : (s.setCtx k c).time = s.time := rfl
@[simp] theorem State.setCtx_pins (k : Nat) (c : Ctxt) : (s.setCtx k c).pins = s.pins := rfl
@[simp] theorem State.setCtx_hhg (k : Nat) (c : Ctxt) : (s.setCtx k c).hhg = s.hhg := rfl
@[simp] theorem State.setCtx_hmp (k : Nat) (c : Ctxt) : (s.setCtx k c).hmp = s.hmp := rfl
@[simp] theorem State.setCtx_queues (k : Nat) (c : Ctxt) : (s.setCtx k c).queues = s.queues := rfl
@[simp] theorem State.setCtx_mrt (k : Nat) (c : Ctxt) : (s.setCtx k c).mrt = s.mrt := rfl
@[simp] theorem State.setCtx_syn (k : Nat) (c : Ctxt) : (s.setCtx k c).syn = s.syn := rfl
@[simp] theorem State.setCtx_wins (k : Nat) (c : Ctxt) : (s.setCtx k c).wins = s.wins := rfl
@[simp] theorem State.setCtx_xpt (k : Nat) (c : Ctxt) : (s.setCtx k c).xpt = s.xpt := rfl
@[simp] theorem State.setCtx_tgt (k : Nat) (c : Ctxt) : (s.setCtx k c).tgt = s.tgt := rfl
@[simp] theorem State.setCtx_out (k : Nat) (c : Ctxt) : (s.setCtx k c).out = s.out := rfl
@[simp] theorem State.setCtx_lanes (k : Nat) (c : Ctxt) : (s.setCtx k c).lanes = s.lanes := rfl
@[simp] theorem State.setCtx_links (k : Nat) (c : Ctxt) : (s.setCtx k c).links = s.links := rfl
@[simp] theorem State.setCtx_rtr (k : Nat) (c : Ctxt) : (s.setCtx k c).rtr = s.rtr := rfl
@[simp] theorem State.setCtx_sch (k : Nat) (c : Ctxt) : (s.setCtx k c).sch = s.sch := rfl
@[simp] theorem State.setCtx_sea (k : Nat) (c : Ctxt) : (s.setCtx k c).sea = s.sea := rfl
@[simp] theorem State.setCtx_burrow (k : Nat) (c : Ctxt) : (s.setCtx k c).burrow = s.burrow := rfl
@[simp] theorem State.setCtx_csp (k : Nat) (c : Ctxt) : (s.setCtx k c).csp = s.csp := rfl
@[simp] theorem State.setCtx_bdg (k : Nat) (c : Ctxt) : (s.setCtx k c).bdg = s.bdg := rfl
@[simp] theorem State.setCtx_acc (k : Nat) (c : Ctxt) : (s.setCtx k c).acc = s.acc := rfl
@[simp] theorem State.setCtx_yar (k : Nat) (c : Ctxt) : (s.setCtx k c).yar = s.yar := rfl
@[simp] theorem State.setCtx_fox (k : Nat) (c : Ctxt) : (s.setCtx k c).fox = s.fox := rfl
@[simp] theorem State.setCtx_pending (k : Nat) (c : Ctxt) : (s.setCtx k c).pending = s.pending := rfl
@[simp] theorem State.setCtx_freeIdx (k : Nat) (c : Ctxt) : (s.setCtx k c).freeIdx = s.freeIdx := rfl

@[simp] theorem State.setTrig_build (t : Nat) (e : TrigEntry) : (s.setTrig t e).build = s.build := rfl
@[simp] theorem State.setTrig_regs (t : Nat) (e : TrigEntry) : (s.setTrig t e).regs = s.regs := rfl
@[simp] theorem State.setTrig_time (t : Nat) (e : TrigEntry) : (s.setTrig t e).time = s.time := rfl
@[simp] theorem State.setTrig_pins (t : Nat) (e : TrigEntry) : (s.setTrig t e).pins = s.pins := rfl
@[simp] theorem State.setTrig_hhg (t : Nat) (e : TrigEntry) : (s.setTrig t e).hhg = s.hhg := rfl
@[simp] theorem State.setTrig_hmp (t : Nat) (e : TrigEntry) : (s.setTrig t e).hmp = s.hmp := rfl
@[simp] theorem State.setTrig_queues (t : Nat) (e : TrigEntry) : (s.setTrig t e).queues = s.queues := rfl
@[simp] theorem State.setTrig_ctxs (t : Nat) (e : TrigEntry) : (s.setTrig t e).ctxs = s.ctxs := rfl
@[simp] theorem State.setTrig_mrt (t : Nat) (e : TrigEntry) : (s.setTrig t e).mrt = s.mrt := rfl
@[simp] theorem State.setTrig_wins (t : Nat) (e : TrigEntry) : (s.setTrig t e).wins = s.wins := rfl
@[simp] theorem State.setTrig_xpt (t : Nat) (e : TrigEntry) : (s.setTrig t e).xpt = s.xpt := rfl
@[simp] theorem State.setTrig_tgt (t : Nat) (e : TrigEntry) : (s.setTrig t e).tgt = s.tgt := rfl
@[simp] theorem State.setTrig_out (t : Nat) (e : TrigEntry) : (s.setTrig t e).out = s.out := rfl
@[simp] theorem State.setTrig_lanes (t : Nat) (e : TrigEntry) : (s.setTrig t e).lanes = s.lanes := rfl
@[simp] theorem State.setTrig_links (t : Nat) (e : TrigEntry) : (s.setTrig t e).links = s.links := rfl
@[simp] theorem State.setTrig_rtr (t : Nat) (e : TrigEntry) : (s.setTrig t e).rtr = s.rtr := rfl
@[simp] theorem State.setTrig_sch (t : Nat) (e : TrigEntry) : (s.setTrig t e).sch = s.sch := rfl
@[simp] theorem State.setTrig_sea (t : Nat) (e : TrigEntry) : (s.setTrig t e).sea = s.sea := rfl
@[simp] theorem State.setTrig_burrow (t : Nat) (e : TrigEntry) : (s.setTrig t e).burrow = s.burrow := rfl
@[simp] theorem State.setTrig_csp (t : Nat) (e : TrigEntry) : (s.setTrig t e).csp = s.csp := rfl
@[simp] theorem State.setTrig_bdg (t : Nat) (e : TrigEntry) : (s.setTrig t e).bdg = s.bdg := rfl
@[simp] theorem State.setTrig_acc (t : Nat) (e : TrigEntry) : (s.setTrig t e).acc = s.acc := rfl
@[simp] theorem State.setTrig_yar (t : Nat) (e : TrigEntry) : (s.setTrig t e).yar = s.yar := rfl
@[simp] theorem State.setTrig_fox (t : Nat) (e : TrigEntry) : (s.setTrig t e).fox = s.fox := rfl
@[simp] theorem State.setTrig_pending (t : Nat) (e : TrigEntry) : (s.setTrig t e).pending = s.pending := rfl
@[simp] theorem State.setTrig_freeIdx (t : Nat) (e : TrigEntry) : (s.setTrig t e).freeIdx = s.freeIdx := rfl

@[simp] theorem State.setWin_build (w : Nat) (v : Win) : (s.setWin w v).build = s.build := rfl
@[simp] theorem State.setWin_regs (w : Nat) (v : Win) : (s.setWin w v).regs = s.regs := rfl
@[simp] theorem State.setWin_time (w : Nat) (v : Win) : (s.setWin w v).time = s.time := rfl
@[simp] theorem State.setWin_pins (w : Nat) (v : Win) : (s.setWin w v).pins = s.pins := rfl
@[simp] theorem State.setWin_hhg (w : Nat) (v : Win) : (s.setWin w v).hhg = s.hhg := rfl
@[simp] theorem State.setWin_hmp (w : Nat) (v : Win) : (s.setWin w v).hmp = s.hmp := rfl
@[simp] theorem State.setWin_queues (w : Nat) (v : Win) : (s.setWin w v).queues = s.queues := rfl
@[simp] theorem State.setWin_ctxs (w : Nat) (v : Win) : (s.setWin w v).ctxs = s.ctxs := rfl
@[simp] theorem State.setWin_mrt (w : Nat) (v : Win) : (s.setWin w v).mrt = s.mrt := rfl
@[simp] theorem State.setWin_syn (w : Nat) (v : Win) : (s.setWin w v).syn = s.syn := rfl
@[simp] theorem State.setWin_xpt (w : Nat) (v : Win) : (s.setWin w v).xpt = s.xpt := rfl
@[simp] theorem State.setWin_tgt (w : Nat) (v : Win) : (s.setWin w v).tgt = s.tgt := rfl
@[simp] theorem State.setWin_out (w : Nat) (v : Win) : (s.setWin w v).out = s.out := rfl
@[simp] theorem State.setWin_lanes (w : Nat) (v : Win) : (s.setWin w v).lanes = s.lanes := rfl
@[simp] theorem State.setWin_links (w : Nat) (v : Win) : (s.setWin w v).links = s.links := rfl
@[simp] theorem State.setWin_rtr (w : Nat) (v : Win) : (s.setWin w v).rtr = s.rtr := rfl
@[simp] theorem State.setWin_sch (w : Nat) (v : Win) : (s.setWin w v).sch = s.sch := rfl
@[simp] theorem State.setWin_sea (w : Nat) (v : Win) : (s.setWin w v).sea = s.sea := rfl
@[simp] theorem State.setWin_burrow (w : Nat) (v : Win) : (s.setWin w v).burrow = s.burrow := rfl
@[simp] theorem State.setWin_csp (w : Nat) (v : Win) : (s.setWin w v).csp = s.csp := rfl
@[simp] theorem State.setWin_bdg (w : Nat) (v : Win) : (s.setWin w v).bdg = s.bdg := rfl
@[simp] theorem State.setWin_acc (w : Nat) (v : Win) : (s.setWin w v).acc = s.acc := rfl
@[simp] theorem State.setWin_yar (w : Nat) (v : Win) : (s.setWin w v).yar = s.yar := rfl
@[simp] theorem State.setWin_fox (w : Nat) (v : Win) : (s.setWin w v).fox = s.fox := rfl
@[simp] theorem State.setWin_pending (w : Nat) (v : Win) : (s.setWin w v).pending = s.pending := rfl
@[simp] theorem State.setWin_freeIdx (w : Nat) (v : Win) : (s.setWin w v).freeIdx = s.freeIdx := rfl

@[simp] theorem State.setPeer_build (i : Nat) (p : Peer) : (s.setPeer i p).build = s.build := rfl
@[simp] theorem State.setPeer_regs (i : Nat) (p : Peer) : (s.setPeer i p).regs = s.regs := rfl
@[simp] theorem State.setPeer_time (i : Nat) (p : Peer) : (s.setPeer i p).time = s.time := rfl
@[simp] theorem State.setPeer_pins (i : Nat) (p : Peer) : (s.setPeer i p).pins = s.pins := rfl
@[simp] theorem State.setPeer_hhg (i : Nat) (p : Peer) : (s.setPeer i p).hhg = s.hhg := rfl
@[simp] theorem State.setPeer_hmp (i : Nat) (p : Peer) : (s.setPeer i p).hmp = s.hmp := rfl
@[simp] theorem State.setPeer_queues (i : Nat) (p : Peer) : (s.setPeer i p).queues = s.queues := rfl
@[simp] theorem State.setPeer_ctxs (i : Nat) (p : Peer) : (s.setPeer i p).ctxs = s.ctxs := rfl
@[simp] theorem State.setPeer_mrt (i : Nat) (p : Peer) : (s.setPeer i p).mrt = s.mrt := rfl
@[simp] theorem State.setPeer_syn (i : Nat) (p : Peer) : (s.setPeer i p).syn = s.syn := rfl
@[simp] theorem State.setPeer_wins (i : Nat) (p : Peer) : (s.setPeer i p).wins = s.wins := rfl
@[simp] theorem State.setPeer_tgt (i : Nat) (p : Peer) : (s.setPeer i p).tgt = s.tgt := rfl
@[simp] theorem State.setPeer_out (i : Nat) (p : Peer) : (s.setPeer i p).out = s.out := rfl
@[simp] theorem State.setPeer_lanes (i : Nat) (p : Peer) : (s.setPeer i p).lanes = s.lanes := rfl
@[simp] theorem State.setPeer_links (i : Nat) (p : Peer) : (s.setPeer i p).links = s.links := rfl
@[simp] theorem State.setPeer_rtr (i : Nat) (p : Peer) : (s.setPeer i p).rtr = s.rtr := rfl
@[simp] theorem State.setPeer_sch (i : Nat) (p : Peer) : (s.setPeer i p).sch = s.sch := rfl
@[simp] theorem State.setPeer_sea (i : Nat) (p : Peer) : (s.setPeer i p).sea = s.sea := rfl
@[simp] theorem State.setPeer_burrow (i : Nat) (p : Peer) : (s.setPeer i p).burrow = s.burrow := rfl
@[simp] theorem State.setPeer_csp (i : Nat) (p : Peer) : (s.setPeer i p).csp = s.csp := rfl
@[simp] theorem State.setPeer_bdg (i : Nat) (p : Peer) : (s.setPeer i p).bdg = s.bdg := rfl
@[simp] theorem State.setPeer_acc (i : Nat) (p : Peer) : (s.setPeer i p).acc = s.acc := rfl
@[simp] theorem State.setPeer_yar (i : Nat) (p : Peer) : (s.setPeer i p).yar = s.yar := rfl
@[simp] theorem State.setPeer_fox (i : Nat) (p : Peer) : (s.setPeer i p).fox = s.fox := rfl
@[simp] theorem State.setPeer_pending (i : Nat) (p : Peer) : (s.setPeer i p).pending = s.pending := rfl
@[simp] theorem State.setPeer_freeIdx (i : Nat) (p : Peer) : (s.setPeer i p).freeIdx = s.freeIdx := rfl

@[simp] theorem State.putXop_build (o : XOp) : (s.putXop o).build = s.build := rfl
@[simp] theorem State.putXop_regs (o : XOp) : (s.putXop o).regs = s.regs := rfl
@[simp] theorem State.putXop_time (o : XOp) : (s.putXop o).time = s.time := rfl
@[simp] theorem State.putXop_pins (o : XOp) : (s.putXop o).pins = s.pins := rfl
@[simp] theorem State.putXop_hhg (o : XOp) : (s.putXop o).hhg = s.hhg := rfl
@[simp] theorem State.putXop_hmp (o : XOp) : (s.putXop o).hmp = s.hmp := rfl
@[simp] theorem State.putXop_queues (o : XOp) : (s.putXop o).queues = s.queues := rfl
@[simp] theorem State.putXop_ctxs (o : XOp) : (s.putXop o).ctxs = s.ctxs := rfl
@[simp] theorem State.putXop_mrt (o : XOp) : (s.putXop o).mrt = s.mrt := rfl
@[simp] theorem State.putXop_syn (o : XOp) : (s.putXop o).syn = s.syn := rfl
@[simp] theorem State.putXop_wins (o : XOp) : (s.putXop o).wins = s.wins := rfl
@[simp] theorem State.putXop_tgt (o : XOp) : (s.putXop o).tgt = s.tgt := rfl
@[simp] theorem State.putXop_out (o : XOp) : (s.putXop o).out = s.out := rfl
@[simp] theorem State.putXop_lanes (o : XOp) : (s.putXop o).lanes = s.lanes := rfl
@[simp] theorem State.putXop_links (o : XOp) : (s.putXop o).links = s.links := rfl
@[simp] theorem State.putXop_rtr (o : XOp) : (s.putXop o).rtr = s.rtr := rfl
@[simp] theorem State.putXop_sch (o : XOp) : (s.putXop o).sch = s.sch := rfl
@[simp] theorem State.putXop_sea (o : XOp) : (s.putXop o).sea = s.sea := rfl
@[simp] theorem State.putXop_burrow (o : XOp) : (s.putXop o).burrow = s.burrow := rfl
@[simp] theorem State.putXop_csp (o : XOp) : (s.putXop o).csp = s.csp := rfl
@[simp] theorem State.putXop_bdg (o : XOp) : (s.putXop o).bdg = s.bdg := rfl
@[simp] theorem State.putXop_acc (o : XOp) : (s.putXop o).acc = s.acc := rfl
@[simp] theorem State.putXop_yar (o : XOp) : (s.putXop o).yar = s.yar := rfl
@[simp] theorem State.putXop_fox (o : XOp) : (s.putXop o).fox = s.fox := rfl
@[simp] theorem State.putXop_pending (o : XOp) : (s.putXop o).pending = s.pending := rfl
@[simp] theorem State.putXop_freeIdx (o : XOp) : (s.putXop o).freeIdx = s.freeIdx := rfl

@[simp] theorem State.dropXop_build (i : Nat) : (s.dropXop i).build = s.build := rfl
@[simp] theorem State.dropXop_regs (i : Nat) : (s.dropXop i).regs = s.regs := rfl
@[simp] theorem State.dropXop_time (i : Nat) : (s.dropXop i).time = s.time := rfl
@[simp] theorem State.dropXop_pins (i : Nat) : (s.dropXop i).pins = s.pins := rfl
@[simp] theorem State.dropXop_hhg (i : Nat) : (s.dropXop i).hhg = s.hhg := rfl
@[simp] theorem State.dropXop_hmp (i : Nat) : (s.dropXop i).hmp = s.hmp := rfl
@[simp] theorem State.dropXop_queues (i : Nat) : (s.dropXop i).queues = s.queues := rfl
@[simp] theorem State.dropXop_ctxs (i : Nat) : (s.dropXop i).ctxs = s.ctxs := rfl
@[simp] theorem State.dropXop_mrt (i : Nat) : (s.dropXop i).mrt = s.mrt := rfl
@[simp] theorem State.dropXop_syn (i : Nat) : (s.dropXop i).syn = s.syn := rfl
@[simp] theorem State.dropXop_wins (i : Nat) : (s.dropXop i).wins = s.wins := rfl
@[simp] theorem State.dropXop_tgt (i : Nat) : (s.dropXop i).tgt = s.tgt := rfl
@[simp] theorem State.dropXop_out (i : Nat) : (s.dropXop i).out = s.out := rfl
@[simp] theorem State.dropXop_lanes (i : Nat) : (s.dropXop i).lanes = s.lanes := rfl
@[simp] theorem State.dropXop_links (i : Nat) : (s.dropXop i).links = s.links := rfl
@[simp] theorem State.dropXop_rtr (i : Nat) : (s.dropXop i).rtr = s.rtr := rfl
@[simp] theorem State.dropXop_sch (i : Nat) : (s.dropXop i).sch = s.sch := rfl
@[simp] theorem State.dropXop_sea (i : Nat) : (s.dropXop i).sea = s.sea := rfl
@[simp] theorem State.dropXop_burrow (i : Nat) : (s.dropXop i).burrow = s.burrow := rfl
@[simp] theorem State.dropXop_csp (i : Nat) : (s.dropXop i).csp = s.csp := rfl
@[simp] theorem State.dropXop_bdg (i : Nat) : (s.dropXop i).bdg = s.bdg := rfl
@[simp] theorem State.dropXop_acc (i : Nat) : (s.dropXop i).acc = s.acc := rfl
@[simp] theorem State.dropXop_yar (i : Nat) : (s.dropXop i).yar = s.yar := rfl
@[simp] theorem State.dropXop_fox (i : Nat) : (s.dropXop i).fox = s.fox := rfl
@[simp] theorem State.dropXop_pending (i : Nat) : (s.dropXop i).pending = s.pending := rfl
@[simp] theorem State.dropXop_freeIdx (i : Nat) : (s.dropXop i).freeIdx = s.freeIdx := rfl

@[simp] theorem State.putEntry_build (t : Nat) (e : OotEntry) : (s.putEntry t e).build = s.build := rfl
@[simp] theorem State.putEntry_regs (t : Nat) (e : OotEntry) : (s.putEntry t e).regs = s.regs := rfl
@[simp] theorem State.putEntry_time (t : Nat) (e : OotEntry) : (s.putEntry t e).time = s.time := rfl
@[simp] theorem State.putEntry_pins (t : Nat) (e : OotEntry) : (s.putEntry t e).pins = s.pins := rfl
@[simp] theorem State.putEntry_hhg (t : Nat) (e : OotEntry) : (s.putEntry t e).hhg = s.hhg := rfl
@[simp] theorem State.putEntry_hmp (t : Nat) (e : OotEntry) : (s.putEntry t e).hmp = s.hmp := rfl
@[simp] theorem State.putEntry_queues (t : Nat) (e : OotEntry) : (s.putEntry t e).queues = s.queues := rfl
@[simp] theorem State.putEntry_ctxs (t : Nat) (e : OotEntry) : (s.putEntry t e).ctxs = s.ctxs := rfl
@[simp] theorem State.putEntry_mrt (t : Nat) (e : OotEntry) : (s.putEntry t e).mrt = s.mrt := rfl
@[simp] theorem State.putEntry_syn (t : Nat) (e : OotEntry) : (s.putEntry t e).syn = s.syn := rfl
@[simp] theorem State.putEntry_wins (t : Nat) (e : OotEntry) : (s.putEntry t e).wins = s.wins := rfl
@[simp] theorem State.putEntry_tgt (t : Nat) (e : OotEntry) : (s.putEntry t e).tgt = s.tgt := rfl
@[simp] theorem State.putEntry_out (t : Nat) (e : OotEntry) : (s.putEntry t e).out = s.out := rfl
@[simp] theorem State.putEntry_lanes (t : Nat) (e : OotEntry) : (s.putEntry t e).lanes = s.lanes := rfl
@[simp] theorem State.putEntry_links (t : Nat) (e : OotEntry) : (s.putEntry t e).links = s.links := rfl
@[simp] theorem State.putEntry_rtr (t : Nat) (e : OotEntry) : (s.putEntry t e).rtr = s.rtr := rfl
@[simp] theorem State.putEntry_sch (t : Nat) (e : OotEntry) : (s.putEntry t e).sch = s.sch := rfl
@[simp] theorem State.putEntry_sea (t : Nat) (e : OotEntry) : (s.putEntry t e).sea = s.sea := rfl
@[simp] theorem State.putEntry_burrow (t : Nat) (e : OotEntry) : (s.putEntry t e).burrow = s.burrow := rfl
@[simp] theorem State.putEntry_csp (t : Nat) (e : OotEntry) : (s.putEntry t e).csp = s.csp := rfl
@[simp] theorem State.putEntry_bdg (t : Nat) (e : OotEntry) : (s.putEntry t e).bdg = s.bdg := rfl
@[simp] theorem State.putEntry_acc (t : Nat) (e : OotEntry) : (s.putEntry t e).acc = s.acc := rfl
@[simp] theorem State.putEntry_yar (t : Nat) (e : OotEntry) : (s.putEntry t e).yar = s.yar := rfl
@[simp] theorem State.putEntry_fox (t : Nat) (e : OotEntry) : (s.putEntry t e).fox = s.fox := rfl
@[simp] theorem State.putEntry_pending (t : Nat) (e : OotEntry) : (s.putEntry t e).pending = s.pending := rfl
@[simp] theorem State.putEntry_freeIdx (t : Nat) (e : OotEntry) : (s.putEntry t e).freeIdx = s.freeIdx := rfl

@[simp] theorem State.dropEntry_build (t : Nat) : (s.dropEntry t).build = s.build := rfl
@[simp] theorem State.dropEntry_regs (t : Nat) : (s.dropEntry t).regs = s.regs := rfl
@[simp] theorem State.dropEntry_time (t : Nat) : (s.dropEntry t).time = s.time := rfl
@[simp] theorem State.dropEntry_pins (t : Nat) : (s.dropEntry t).pins = s.pins := rfl
@[simp] theorem State.dropEntry_hhg (t : Nat) : (s.dropEntry t).hhg = s.hhg := rfl
@[simp] theorem State.dropEntry_hmp (t : Nat) : (s.dropEntry t).hmp = s.hmp := rfl
@[simp] theorem State.dropEntry_queues (t : Nat) : (s.dropEntry t).queues = s.queues := rfl
@[simp] theorem State.dropEntry_ctxs (t : Nat) : (s.dropEntry t).ctxs = s.ctxs := rfl
@[simp] theorem State.dropEntry_mrt (t : Nat) : (s.dropEntry t).mrt = s.mrt := rfl
@[simp] theorem State.dropEntry_syn (t : Nat) : (s.dropEntry t).syn = s.syn := rfl
@[simp] theorem State.dropEntry_wins (t : Nat) : (s.dropEntry t).wins = s.wins := rfl
@[simp] theorem State.dropEntry_tgt (t : Nat) : (s.dropEntry t).tgt = s.tgt := rfl
@[simp] theorem State.dropEntry_out (t : Nat) : (s.dropEntry t).out = s.out := rfl
@[simp] theorem State.dropEntry_lanes (t : Nat) : (s.dropEntry t).lanes = s.lanes := rfl
@[simp] theorem State.dropEntry_links (t : Nat) : (s.dropEntry t).links = s.links := rfl
@[simp] theorem State.dropEntry_rtr (t : Nat) : (s.dropEntry t).rtr = s.rtr := rfl
@[simp] theorem State.dropEntry_sch (t : Nat) : (s.dropEntry t).sch = s.sch := rfl
@[simp] theorem State.dropEntry_sea (t : Nat) : (s.dropEntry t).sea = s.sea := rfl
@[simp] theorem State.dropEntry_burrow (t : Nat) : (s.dropEntry t).burrow = s.burrow := rfl
@[simp] theorem State.dropEntry_csp (t : Nat) : (s.dropEntry t).csp = s.csp := rfl
@[simp] theorem State.dropEntry_bdg (t : Nat) : (s.dropEntry t).bdg = s.bdg := rfl
@[simp] theorem State.dropEntry_acc (t : Nat) : (s.dropEntry t).acc = s.acc := rfl
@[simp] theorem State.dropEntry_yar (t : Nat) : (s.dropEntry t).yar = s.yar := rfl
@[simp] theorem State.dropEntry_fox (t : Nat) : (s.dropEntry t).fox = s.fox := rfl
@[simp] theorem State.dropEntry_pending (t : Nat) : (s.dropEntry t).pending = s.pending := rfl
@[simp] theorem State.dropEntry_freeIdx (t : Nat) : (s.dropEntry t).freeIdx = s.freeIdx := rfl

@[simp] theorem State.putTgt_build (o : TgtOp) : (s.putTgt o).build = s.build := rfl
@[simp] theorem State.putTgt_regs (o : TgtOp) : (s.putTgt o).regs = s.regs := rfl
@[simp] theorem State.putTgt_time (o : TgtOp) : (s.putTgt o).time = s.time := rfl
@[simp] theorem State.putTgt_pins (o : TgtOp) : (s.putTgt o).pins = s.pins := rfl
@[simp] theorem State.putTgt_hhg (o : TgtOp) : (s.putTgt o).hhg = s.hhg := rfl
@[simp] theorem State.putTgt_hmp (o : TgtOp) : (s.putTgt o).hmp = s.hmp := rfl
@[simp] theorem State.putTgt_queues (o : TgtOp) : (s.putTgt o).queues = s.queues := rfl
@[simp] theorem State.putTgt_ctxs (o : TgtOp) : (s.putTgt o).ctxs = s.ctxs := rfl
@[simp] theorem State.putTgt_mrt (o : TgtOp) : (s.putTgt o).mrt = s.mrt := rfl
@[simp] theorem State.putTgt_syn (o : TgtOp) : (s.putTgt o).syn = s.syn := rfl
@[simp] theorem State.putTgt_wins (o : TgtOp) : (s.putTgt o).wins = s.wins := rfl
@[simp] theorem State.putTgt_xpt (o : TgtOp) : (s.putTgt o).xpt = s.xpt := rfl
@[simp] theorem State.putTgt_out (o : TgtOp) : (s.putTgt o).out = s.out := rfl
@[simp] theorem State.putTgt_lanes (o : TgtOp) : (s.putTgt o).lanes = s.lanes := rfl
@[simp] theorem State.putTgt_links (o : TgtOp) : (s.putTgt o).links = s.links := rfl
@[simp] theorem State.putTgt_rtr (o : TgtOp) : (s.putTgt o).rtr = s.rtr := rfl
@[simp] theorem State.putTgt_sch (o : TgtOp) : (s.putTgt o).sch = s.sch := rfl
@[simp] theorem State.putTgt_sea (o : TgtOp) : (s.putTgt o).sea = s.sea := rfl
@[simp] theorem State.putTgt_burrow (o : TgtOp) : (s.putTgt o).burrow = s.burrow := rfl
@[simp] theorem State.putTgt_csp (o : TgtOp) : (s.putTgt o).csp = s.csp := rfl
@[simp] theorem State.putTgt_bdg (o : TgtOp) : (s.putTgt o).bdg = s.bdg := rfl
@[simp] theorem State.putTgt_acc (o : TgtOp) : (s.putTgt o).acc = s.acc := rfl
@[simp] theorem State.putTgt_yar (o : TgtOp) : (s.putTgt o).yar = s.yar := rfl
@[simp] theorem State.putTgt_fox (o : TgtOp) : (s.putTgt o).fox = s.fox := rfl
@[simp] theorem State.putTgt_pending (o : TgtOp) : (s.putTgt o).pending = s.pending := rfl
@[simp] theorem State.putTgt_freeIdx (o : TgtOp) : (s.putTgt o).freeIdx = s.freeIdx := rfl

@[simp] theorem State.dropTgt_build (i : Nat) : (s.dropTgt i).build = s.build := rfl
@[simp] theorem State.dropTgt_regs (i : Nat) : (s.dropTgt i).regs = s.regs := rfl
@[simp] theorem State.dropTgt_time (i : Nat) : (s.dropTgt i).time = s.time := rfl
@[simp] theorem State.dropTgt_pins (i : Nat) : (s.dropTgt i).pins = s.pins := rfl
@[simp] theorem State.dropTgt_hhg (i : Nat) : (s.dropTgt i).hhg = s.hhg := rfl
@[simp] theorem State.dropTgt_hmp (i : Nat) : (s.dropTgt i).hmp = s.hmp := rfl
@[simp] theorem State.dropTgt_queues (i : Nat) : (s.dropTgt i).queues = s.queues := rfl
@[simp] theorem State.dropTgt_ctxs (i : Nat) : (s.dropTgt i).ctxs = s.ctxs := rfl
@[simp] theorem State.dropTgt_mrt (i : Nat) : (s.dropTgt i).mrt = s.mrt := rfl
@[simp] theorem State.dropTgt_syn (i : Nat) : (s.dropTgt i).syn = s.syn := rfl
@[simp] theorem State.dropTgt_wins (i : Nat) : (s.dropTgt i).wins = s.wins := rfl
@[simp] theorem State.dropTgt_xpt (i : Nat) : (s.dropTgt i).xpt = s.xpt := rfl
@[simp] theorem State.dropTgt_out (i : Nat) : (s.dropTgt i).out = s.out := rfl
@[simp] theorem State.dropTgt_lanes (i : Nat) : (s.dropTgt i).lanes = s.lanes := rfl
@[simp] theorem State.dropTgt_links (i : Nat) : (s.dropTgt i).links = s.links := rfl
@[simp] theorem State.dropTgt_rtr (i : Nat) : (s.dropTgt i).rtr = s.rtr := rfl
@[simp] theorem State.dropTgt_sch (i : Nat) : (s.dropTgt i).sch = s.sch := rfl
@[simp] theorem State.dropTgt_sea (i : Nat) : (s.dropTgt i).sea = s.sea := rfl
@[simp] theorem State.dropTgt_burrow (i : Nat) : (s.dropTgt i).burrow = s.burrow := rfl
@[simp] theorem State.dropTgt_csp (i : Nat) : (s.dropTgt i).csp = s.csp := rfl
@[simp] theorem State.dropTgt_bdg (i : Nat) : (s.dropTgt i).bdg = s.bdg := rfl
@[simp] theorem State.dropTgt_acc (i : Nat) : (s.dropTgt i).acc = s.acc := rfl
@[simp] theorem State.dropTgt_yar (i : Nat) : (s.dropTgt i).yar = s.yar := rfl
@[simp] theorem State.dropTgt_fox (i : Nat) : (s.dropTgt i).fox = s.fox := rfl
@[simp] theorem State.dropTgt_pending (i : Nat) : (s.dropTgt i).pending = s.pending := rfl
@[simp] theorem State.dropTgt_freeIdx (i : Nat) : (s.dropTgt i).freeIdx = s.freeIdx := rfl

@[simp] theorem State.setLane_build (k : Nat) (v : LaneIo) : (s.setLane k v).build = s.build := rfl
@[simp] theorem State.setLane_regs (k : Nat) (v : LaneIo) : (s.setLane k v).regs = s.regs := rfl
@[simp] theorem State.setLane_time (k : Nat) (v : LaneIo) : (s.setLane k v).time = s.time := rfl
@[simp] theorem State.setLane_pins (k : Nat) (v : LaneIo) : (s.setLane k v).pins = s.pins := rfl
@[simp] theorem State.setLane_hhg (k : Nat) (v : LaneIo) : (s.setLane k v).hhg = s.hhg := rfl
@[simp] theorem State.setLane_hmp (k : Nat) (v : LaneIo) : (s.setLane k v).hmp = s.hmp := rfl
@[simp] theorem State.setLane_queues (k : Nat) (v : LaneIo) : (s.setLane k v).queues = s.queues := rfl
@[simp] theorem State.setLane_ctxs (k : Nat) (v : LaneIo) : (s.setLane k v).ctxs = s.ctxs := rfl
@[simp] theorem State.setLane_mrt (k : Nat) (v : LaneIo) : (s.setLane k v).mrt = s.mrt := rfl
@[simp] theorem State.setLane_syn (k : Nat) (v : LaneIo) : (s.setLane k v).syn = s.syn := rfl
@[simp] theorem State.setLane_wins (k : Nat) (v : LaneIo) : (s.setLane k v).wins = s.wins := rfl
@[simp] theorem State.setLane_xpt (k : Nat) (v : LaneIo) : (s.setLane k v).xpt = s.xpt := rfl
@[simp] theorem State.setLane_tgt (k : Nat) (v : LaneIo) : (s.setLane k v).tgt = s.tgt := rfl
@[simp] theorem State.setLane_out (k : Nat) (v : LaneIo) : (s.setLane k v).out = s.out := rfl
@[simp] theorem State.setLane_links (k : Nat) (v : LaneIo) : (s.setLane k v).links = s.links := rfl
@[simp] theorem State.setLane_rtr (k : Nat) (v : LaneIo) : (s.setLane k v).rtr = s.rtr := rfl
@[simp] theorem State.setLane_sch (k : Nat) (v : LaneIo) : (s.setLane k v).sch = s.sch := rfl
@[simp] theorem State.setLane_sea (k : Nat) (v : LaneIo) : (s.setLane k v).sea = s.sea := rfl
@[simp] theorem State.setLane_burrow (k : Nat) (v : LaneIo) : (s.setLane k v).burrow = s.burrow := rfl
@[simp] theorem State.setLane_csp (k : Nat) (v : LaneIo) : (s.setLane k v).csp = s.csp := rfl
@[simp] theorem State.setLane_bdg (k : Nat) (v : LaneIo) : (s.setLane k v).bdg = s.bdg := rfl
@[simp] theorem State.setLane_acc (k : Nat) (v : LaneIo) : (s.setLane k v).acc = s.acc := rfl
@[simp] theorem State.setLane_yar (k : Nat) (v : LaneIo) : (s.setLane k v).yar = s.yar := rfl
@[simp] theorem State.setLane_fox (k : Nat) (v : LaneIo) : (s.setLane k v).fox = s.fox := rfl
@[simp] theorem State.setLane_pending (k : Nat) (v : LaneIo) : (s.setLane k v).pending = s.pending := rfl
@[simp] theorem State.setLane_freeIdx (k : Nat) (v : LaneIo) : (s.setLane k v).freeIdx = s.freeIdx := rfl

@[simp] theorem State.setLanePort_build (p : Nat) (v : LanePort) : (s.setLanePort p v).build = s.build := rfl
@[simp] theorem State.setLanePort_regs (p : Nat) (v : LanePort) : (s.setLanePort p v).regs = s.regs := rfl
@[simp] theorem State.setLanePort_time (p : Nat) (v : LanePort) : (s.setLanePort p v).time = s.time := rfl
@[simp] theorem State.setLanePort_pins (p : Nat) (v : LanePort) : (s.setLanePort p v).pins = s.pins := rfl
@[simp] theorem State.setLanePort_hhg (p : Nat) (v : LanePort) : (s.setLanePort p v).hhg = s.hhg := rfl
@[simp] theorem State.setLanePort_hmp (p : Nat) (v : LanePort) : (s.setLanePort p v).hmp = s.hmp := rfl
@[simp] theorem State.setLanePort_queues (p : Nat) (v : LanePort) : (s.setLanePort p v).queues = s.queues := rfl
@[simp] theorem State.setLanePort_ctxs (p : Nat) (v : LanePort) : (s.setLanePort p v).ctxs = s.ctxs := rfl
@[simp] theorem State.setLanePort_mrt (p : Nat) (v : LanePort) : (s.setLanePort p v).mrt = s.mrt := rfl
@[simp] theorem State.setLanePort_syn (p : Nat) (v : LanePort) : (s.setLanePort p v).syn = s.syn := rfl
@[simp] theorem State.setLanePort_wins (p : Nat) (v : LanePort) : (s.setLanePort p v).wins = s.wins := rfl
@[simp] theorem State.setLanePort_xpt (p : Nat) (v : LanePort) : (s.setLanePort p v).xpt = s.xpt := rfl
@[simp] theorem State.setLanePort_tgt (p : Nat) (v : LanePort) : (s.setLanePort p v).tgt = s.tgt := rfl
@[simp] theorem State.setLanePort_out (p : Nat) (v : LanePort) : (s.setLanePort p v).out = s.out := rfl
@[simp] theorem State.setLanePort_links (p : Nat) (v : LanePort) : (s.setLanePort p v).links = s.links := rfl
@[simp] theorem State.setLanePort_rtr (p : Nat) (v : LanePort) : (s.setLanePort p v).rtr = s.rtr := rfl
@[simp] theorem State.setLanePort_sch (p : Nat) (v : LanePort) : (s.setLanePort p v).sch = s.sch := rfl
@[simp] theorem State.setLanePort_sea (p : Nat) (v : LanePort) : (s.setLanePort p v).sea = s.sea := rfl
@[simp] theorem State.setLanePort_burrow (p : Nat) (v : LanePort) : (s.setLanePort p v).burrow = s.burrow := rfl
@[simp] theorem State.setLanePort_csp (p : Nat) (v : LanePort) : (s.setLanePort p v).csp = s.csp := rfl
@[simp] theorem State.setLanePort_bdg (p : Nat) (v : LanePort) : (s.setLanePort p v).bdg = s.bdg := rfl
@[simp] theorem State.setLanePort_acc (p : Nat) (v : LanePort) : (s.setLanePort p v).acc = s.acc := rfl
@[simp] theorem State.setLanePort_yar (p : Nat) (v : LanePort) : (s.setLanePort p v).yar = s.yar := rfl
@[simp] theorem State.setLanePort_fox (p : Nat) (v : LanePort) : (s.setLanePort p v).fox = s.fox := rfl
@[simp] theorem State.setLanePort_pending (p : Nat) (v : LanePort) : (s.setLanePort p v).pending = s.pending := rfl
@[simp] theorem State.setLanePort_freeIdx (p : Nat) (v : LanePort) : (s.setLanePort p v).freeIdx = s.freeIdx := rfl

@[simp] theorem State.setLink_build (p : Nat) (v : LinkPort) : (s.setLink p v).build = s.build := rfl
@[simp] theorem State.setLink_regs (p : Nat) (v : LinkPort) : (s.setLink p v).regs = s.regs := rfl
@[simp] theorem State.setLink_time (p : Nat) (v : LinkPort) : (s.setLink p v).time = s.time := rfl
@[simp] theorem State.setLink_pins (p : Nat) (v : LinkPort) : (s.setLink p v).pins = s.pins := rfl
@[simp] theorem State.setLink_hhg (p : Nat) (v : LinkPort) : (s.setLink p v).hhg = s.hhg := rfl
@[simp] theorem State.setLink_hmp (p : Nat) (v : LinkPort) : (s.setLink p v).hmp = s.hmp := rfl
@[simp] theorem State.setLink_queues (p : Nat) (v : LinkPort) : (s.setLink p v).queues = s.queues := rfl
@[simp] theorem State.setLink_ctxs (p : Nat) (v : LinkPort) : (s.setLink p v).ctxs = s.ctxs := rfl
@[simp] theorem State.setLink_mrt (p : Nat) (v : LinkPort) : (s.setLink p v).mrt = s.mrt := rfl
@[simp] theorem State.setLink_syn (p : Nat) (v : LinkPort) : (s.setLink p v).syn = s.syn := rfl
@[simp] theorem State.setLink_wins (p : Nat) (v : LinkPort) : (s.setLink p v).wins = s.wins := rfl
@[simp] theorem State.setLink_xpt (p : Nat) (v : LinkPort) : (s.setLink p v).xpt = s.xpt := rfl
@[simp] theorem State.setLink_tgt (p : Nat) (v : LinkPort) : (s.setLink p v).tgt = s.tgt := rfl
@[simp] theorem State.setLink_out (p : Nat) (v : LinkPort) : (s.setLink p v).out = s.out := rfl
@[simp] theorem State.setLink_lanes (p : Nat) (v : LinkPort) : (s.setLink p v).lanes = s.lanes := rfl
@[simp] theorem State.setLink_rtr (p : Nat) (v : LinkPort) : (s.setLink p v).rtr = s.rtr := rfl
@[simp] theorem State.setLink_sch (p : Nat) (v : LinkPort) : (s.setLink p v).sch = s.sch := rfl
@[simp] theorem State.setLink_sea (p : Nat) (v : LinkPort) : (s.setLink p v).sea = s.sea := rfl
@[simp] theorem State.setLink_burrow (p : Nat) (v : LinkPort) : (s.setLink p v).burrow = s.burrow := rfl
@[simp] theorem State.setLink_csp (p : Nat) (v : LinkPort) : (s.setLink p v).csp = s.csp := rfl
@[simp] theorem State.setLink_bdg (p : Nat) (v : LinkPort) : (s.setLink p v).bdg = s.bdg := rfl
@[simp] theorem State.setLink_acc (p : Nat) (v : LinkPort) : (s.setLink p v).acc = s.acc := rfl
@[simp] theorem State.setLink_yar (p : Nat) (v : LinkPort) : (s.setLink p v).yar = s.yar := rfl
@[simp] theorem State.setLink_fox (p : Nat) (v : LinkPort) : (s.setLink p v).fox = s.fox := rfl
@[simp] theorem State.setLink_pending (p : Nat) (v : LinkPort) : (s.setLink p v).pending = s.pending := rfl
@[simp] theorem State.setLink_freeIdx (p : Nat) (v : LinkPort) : (s.setLink p v).freeIdx = s.freeIdx := rfl

@[simp] theorem State.setSealLink_build (p : Nat) (k : SealLink) : (s.setSealLink p k).build = s.build := rfl
@[simp] theorem State.setSealLink_regs (p : Nat) (k : SealLink) : (s.setSealLink p k).regs = s.regs := rfl
@[simp] theorem State.setSealLink_time (p : Nat) (k : SealLink) : (s.setSealLink p k).time = s.time := rfl
@[simp] theorem State.setSealLink_pins (p : Nat) (k : SealLink) : (s.setSealLink p k).pins = s.pins := rfl
@[simp] theorem State.setSealLink_hhg (p : Nat) (k : SealLink) : (s.setSealLink p k).hhg = s.hhg := rfl
@[simp] theorem State.setSealLink_hmp (p : Nat) (k : SealLink) : (s.setSealLink p k).hmp = s.hmp := rfl
@[simp] theorem State.setSealLink_queues (p : Nat) (k : SealLink) : (s.setSealLink p k).queues = s.queues := rfl
@[simp] theorem State.setSealLink_ctxs (p : Nat) (k : SealLink) : (s.setSealLink p k).ctxs = s.ctxs := rfl
@[simp] theorem State.setSealLink_mrt (p : Nat) (k : SealLink) : (s.setSealLink p k).mrt = s.mrt := rfl
@[simp] theorem State.setSealLink_syn (p : Nat) (k : SealLink) : (s.setSealLink p k).syn = s.syn := rfl
@[simp] theorem State.setSealLink_wins (p : Nat) (k : SealLink) : (s.setSealLink p k).wins = s.wins := rfl
@[simp] theorem State.setSealLink_xpt (p : Nat) (k : SealLink) : (s.setSealLink p k).xpt = s.xpt := rfl
@[simp] theorem State.setSealLink_tgt (p : Nat) (k : SealLink) : (s.setSealLink p k).tgt = s.tgt := rfl
@[simp] theorem State.setSealLink_out (p : Nat) (k : SealLink) : (s.setSealLink p k).out = s.out := rfl
@[simp] theorem State.setSealLink_lanes (p : Nat) (k : SealLink) : (s.setSealLink p k).lanes = s.lanes := rfl
@[simp] theorem State.setSealLink_links (p : Nat) (k : SealLink) : (s.setSealLink p k).links = s.links := rfl
@[simp] theorem State.setSealLink_rtr (p : Nat) (k : SealLink) : (s.setSealLink p k).rtr = s.rtr := rfl
@[simp] theorem State.setSealLink_sch (p : Nat) (k : SealLink) : (s.setSealLink p k).sch = s.sch := rfl
@[simp] theorem State.setSealLink_burrow (p : Nat) (k : SealLink) : (s.setSealLink p k).burrow = s.burrow := rfl
@[simp] theorem State.setSealLink_csp (p : Nat) (k : SealLink) : (s.setSealLink p k).csp = s.csp := rfl
@[simp] theorem State.setSealLink_bdg (p : Nat) (k : SealLink) : (s.setSealLink p k).bdg = s.bdg := rfl
@[simp] theorem State.setSealLink_acc (p : Nat) (k : SealLink) : (s.setSealLink p k).acc = s.acc := rfl
@[simp] theorem State.setSealLink_yar (p : Nat) (k : SealLink) : (s.setSealLink p k).yar = s.yar := rfl
@[simp] theorem State.setSealLink_fox (p : Nat) (k : SealLink) : (s.setSealLink p k).fox = s.fox := rfl
@[simp] theorem State.setSealLink_pending (p : Nat) (k : SealLink) : (s.setSealLink p k).pending = s.pending := rfl
@[simp] theorem State.setSealLink_freeIdx (p : Nat) (k : SealLink) : (s.setSealLink p k).freeIdx = s.freeIdx := rfl

@[simp] theorem State.setGroup_build (g : Nat) (v : Group) : (s.setGroup g v).build = s.build := rfl
@[simp] theorem State.setGroup_regs (g : Nat) (v : Group) : (s.setGroup g v).regs = s.regs := rfl
@[simp] theorem State.setGroup_time (g : Nat) (v : Group) : (s.setGroup g v).time = s.time := rfl
@[simp] theorem State.setGroup_pins (g : Nat) (v : Group) : (s.setGroup g v).pins = s.pins := rfl
@[simp] theorem State.setGroup_hhg (g : Nat) (v : Group) : (s.setGroup g v).hhg = s.hhg := rfl
@[simp] theorem State.setGroup_hmp (g : Nat) (v : Group) : (s.setGroup g v).hmp = s.hmp := rfl
@[simp] theorem State.setGroup_queues (g : Nat) (v : Group) : (s.setGroup g v).queues = s.queues := rfl
@[simp] theorem State.setGroup_ctxs (g : Nat) (v : Group) : (s.setGroup g v).ctxs = s.ctxs := rfl
@[simp] theorem State.setGroup_mrt (g : Nat) (v : Group) : (s.setGroup g v).mrt = s.mrt := rfl
@[simp] theorem State.setGroup_syn (g : Nat) (v : Group) : (s.setGroup g v).syn = s.syn := rfl
@[simp] theorem State.setGroup_wins (g : Nat) (v : Group) : (s.setGroup g v).wins = s.wins := rfl
@[simp] theorem State.setGroup_xpt (g : Nat) (v : Group) : (s.setGroup g v).xpt = s.xpt := rfl
@[simp] theorem State.setGroup_tgt (g : Nat) (v : Group) : (s.setGroup g v).tgt = s.tgt := rfl
@[simp] theorem State.setGroup_out (g : Nat) (v : Group) : (s.setGroup g v).out = s.out := rfl
@[simp] theorem State.setGroup_lanes (g : Nat) (v : Group) : (s.setGroup g v).lanes = s.lanes := rfl
@[simp] theorem State.setGroup_links (g : Nat) (v : Group) : (s.setGroup g v).links = s.links := rfl
@[simp] theorem State.setGroup_rtr (g : Nat) (v : Group) : (s.setGroup g v).rtr = s.rtr := rfl
@[simp] theorem State.setGroup_sch (g : Nat) (v : Group) : (s.setGroup g v).sch = s.sch := rfl
@[simp] theorem State.setGroup_sea (g : Nat) (v : Group) : (s.setGroup g v).sea = s.sea := rfl
@[simp] theorem State.setGroup_burrow (g : Nat) (v : Group) : (s.setGroup g v).burrow = s.burrow := rfl
@[simp] theorem State.setGroup_csp (g : Nat) (v : Group) : (s.setGroup g v).csp = s.csp := rfl
@[simp] theorem State.setGroup_bdg (g : Nat) (v : Group) : (s.setGroup g v).bdg = s.bdg := rfl
@[simp] theorem State.setGroup_acc (g : Nat) (v : Group) : (s.setGroup g v).acc = s.acc := rfl
@[simp] theorem State.setGroup_fox (g : Nat) (v : Group) : (s.setGroup g v).fox = s.fox := rfl
@[simp] theorem State.setGroup_pending (g : Nat) (v : Group) : (s.setGroup g v).pending = s.pending := rfl
@[simp] theorem State.setGroup_freeIdx (g : Nat) (v : Group) : (s.setGroup g v).freeIdx = s.freeIdx := rfl

@[simp] theorem State.putStep_build (y : Nat) (v : YStep) : (s.putStep y v).build = s.build := rfl
@[simp] theorem State.putStep_regs (y : Nat) (v : YStep) : (s.putStep y v).regs = s.regs := rfl
@[simp] theorem State.putStep_time (y : Nat) (v : YStep) : (s.putStep y v).time = s.time := rfl
@[simp] theorem State.putStep_pins (y : Nat) (v : YStep) : (s.putStep y v).pins = s.pins := rfl
@[simp] theorem State.putStep_hhg (y : Nat) (v : YStep) : (s.putStep y v).hhg = s.hhg := rfl
@[simp] theorem State.putStep_hmp (y : Nat) (v : YStep) : (s.putStep y v).hmp = s.hmp := rfl
@[simp] theorem State.putStep_queues (y : Nat) (v : YStep) : (s.putStep y v).queues = s.queues := rfl
@[simp] theorem State.putStep_ctxs (y : Nat) (v : YStep) : (s.putStep y v).ctxs = s.ctxs := rfl
@[simp] theorem State.putStep_mrt (y : Nat) (v : YStep) : (s.putStep y v).mrt = s.mrt := rfl
@[simp] theorem State.putStep_syn (y : Nat) (v : YStep) : (s.putStep y v).syn = s.syn := rfl
@[simp] theorem State.putStep_wins (y : Nat) (v : YStep) : (s.putStep y v).wins = s.wins := rfl
@[simp] theorem State.putStep_xpt (y : Nat) (v : YStep) : (s.putStep y v).xpt = s.xpt := rfl
@[simp] theorem State.putStep_tgt (y : Nat) (v : YStep) : (s.putStep y v).tgt = s.tgt := rfl
@[simp] theorem State.putStep_out (y : Nat) (v : YStep) : (s.putStep y v).out = s.out := rfl
@[simp] theorem State.putStep_lanes (y : Nat) (v : YStep) : (s.putStep y v).lanes = s.lanes := rfl
@[simp] theorem State.putStep_links (y : Nat) (v : YStep) : (s.putStep y v).links = s.links := rfl
@[simp] theorem State.putStep_rtr (y : Nat) (v : YStep) : (s.putStep y v).rtr = s.rtr := rfl
@[simp] theorem State.putStep_sch (y : Nat) (v : YStep) : (s.putStep y v).sch = s.sch := rfl
@[simp] theorem State.putStep_sea (y : Nat) (v : YStep) : (s.putStep y v).sea = s.sea := rfl
@[simp] theorem State.putStep_burrow (y : Nat) (v : YStep) : (s.putStep y v).burrow = s.burrow := rfl
@[simp] theorem State.putStep_csp (y : Nat) (v : YStep) : (s.putStep y v).csp = s.csp := rfl
@[simp] theorem State.putStep_bdg (y : Nat) (v : YStep) : (s.putStep y v).bdg = s.bdg := rfl
@[simp] theorem State.putStep_acc (y : Nat) (v : YStep) : (s.putStep y v).acc = s.acc := rfl
@[simp] theorem State.putStep_fox (y : Nat) (v : YStep) : (s.putStep y v).fox = s.fox := rfl
@[simp] theorem State.putStep_pending (y : Nat) (v : YStep) : (s.putStep y v).pending = s.pending := rfl
@[simp] theorem State.putStep_freeIdx (y : Nat) (v : YStep) : (s.putStep y v).freeIdx = s.freeIdx := rfl

@[simp] theorem report_waiting (a b c d : Nat) : (report s a b c d).hhg.waiting = s.hhg.waiting ++ [⟨a, b, c, d, false⟩] := rfl
@[simp] theorem State.setQueue_queues (q : Nat) (v : Queue) : (s.setQueue q v).queues = s.queues.set {} q v := rfl
@[simp] theorem State.setCtx_ctxs (k : Nat) (c : Ctxt) : (s.setCtx k c).ctxs = s.ctxs.set {} k c := rfl
@[simp] theorem State.setLink_links (p : Nat) (v : LinkPort) : (s.setLink p v).links = s.links.set {} p v := rfl

end Sys2Proof.Machine
end

