-- ==== Sys2Proof/Laws/Tbl.lean ====
section
/-! SUPPORT. Laws of the sparse tables: what a read finds after a write, and that every operation keeps the canonical
form. -/
namespace Sys2Proof

variable {α : Type}

@[simp] theorem Tbl.get_nil (d : α) (a : Nat) : Tbl.get d [] a = d := rfl
@[simp] theorem Tbl.find_nil (a : Nat) : Tbl.find? ([] : Tbl α) a = none := rfl

/-- A read at the key just written finds the value. -/
@[simp] theorem Tbl.get_put_self (d : α) (t : Tbl α) (a : Nat) (v : α) : Tbl.get d (t.put a v) a = v := by
  induction t with
  | nil => simp [Tbl.put, Tbl.get]
  | cons e t ih =>
    obtain ⟨k, w⟩ := e
    by_cases h1 : a < k
    · simp [Tbl.put, Tbl.get, h1]
    · by_cases h2 : a = k
      · simp [Tbl.put, Tbl.get, h2]
      · simp [Tbl.put, Tbl.get, h1, h2, ih]

/-- A write leaves every other key alone. -/
theorem Tbl.get_put_ne (d : α) (t : Tbl α) (a b : Nat) (v : α) (h : b ≠ a) : Tbl.get d (t.put a v) b = Tbl.get d t b := by
  induction t with
  | nil => by_cases hb : b < a <;> simp [Tbl.put, Tbl.get, hb, h]
  | cons e t ih =>
    obtain ⟨k, w⟩ := e
    by_cases h1 : a < k
    · by_cases hb : b < a
      · have : b < k := Nat.lt_trans hb h1
        simp [Tbl.put, Tbl.get, h1, hb, this]
      · simp [Tbl.put, Tbl.get, h1, hb, h]
    · by_cases h2 : a = k
      · subst h2
        by_cases hb : b < a <;> simp [Tbl.put, Tbl.get, hb, h]
      · simp only [Tbl.put, h1, h2, if_false, Tbl.get, ih]

@[simp] theorem Tbl.find_put_self (t : Tbl α) (a : Nat) (v : α) : Tbl.find? (t.put a v) a = some v := by
  induction t with
  | nil => simp [Tbl.put, Tbl.find?]
  | cons e t ih =>
    obtain ⟨k, w⟩ := e
    by_cases h1 : a < k
    · simp [Tbl.put, Tbl.find?, h1]
    · by_cases h2 : a = k
      · simp [Tbl.put, Tbl.find?, h2]
      · simp [Tbl.put, Tbl.find?, h1, h2, ih]

/-- What a read finds is listed. -/
theorem Tbl.mem_of_find (t : Tbl α) (a : Nat) (v : α) (h : Tbl.find? t a = some v) : (a, v) ∈ t := by
  induction t with
  | nil => simp [Tbl.find?] at h
  | cons e t ih =>
    obtain ⟨k, w⟩ := e
    simp only [Tbl.find?] at h
    split at h
    · cases h
    · split at h
      · rename_i h2
        cases h
        subst h2
        exact List.mem_cons_self
      · exact List.mem_cons_of_mem _ (ih h)

/-- An entry of a written table is the new one or an old one. -/
theorem Tbl.mem_put {t : Tbl α} {a : Nat} {v : α} {e : Nat × α} (h : e ∈ t.put a v) : e = (a, v) ∨ e ∈ t := by
  induction t with
  | nil => exact Or.inl (by simpa [Tbl.put] using h)
  | cons x t ih =>
    obtain ⟨k, w⟩ := x
    simp only [Tbl.put] at h
    split at h
    · simpa [or_assoc] using h
    · split at h
      · rcases List.mem_cons.1 h with h | h
        · exact Or.inl h
        · exact Or.inr (List.mem_cons_of_mem _ h)
      · rcases List.mem_cons.1 h with h | h
        · exact Or.inr (h ▸ List.mem_cons_self)
        · exact (ih h).imp_right (List.mem_cons_of_mem _)

/-- An entry of a table with a key dropped is an old one. -/
theorem Tbl.mem_drop {t : Tbl α} {a : Nat} {e : Nat × α} (h : e ∈ Tbl.drop t a) : e ∈ t := by
  induction t with
  | nil => simp [Tbl.drop] at h
  | cons x t ih =>
    obtain ⟨k, w⟩ := x
    simp only [Tbl.drop] at h
    split at h
    · exact h
    · split at h
      · exact List.mem_cons_of_mem _ h
      · rcases List.mem_cons.1 h with h | h
        · exact h ▸ List.mem_cons_self
        · exact List.mem_cons_of_mem _ (ih h)

variable [DecidableEq α]

theorem Tbl.wfFrom_cons (d : Nat → α) (lo k : Nat) (v : α) (t : Tbl α) :
    Tbl.wfFrom d lo ((k, v) :: t) = true ↔ lo ≤ k ∧ v ≠ d k ∧ Tbl.wfFrom d (k + 1) t = true := by
  simp [Tbl.wfFrom, and_assoc]

@[simp] theorem Tbl.wf_nil (d : Nat → α) : Tbl.wf d [] = true := rfl

theorem Tbl.wfFrom_mono (d : Nat → α) {lo lo' : Nat} {t : Tbl α} (hl : lo' ≤ lo) (h : Tbl.wfFrom d lo t = true) :
    Tbl.wfFrom d lo' t = true := by
  cases t with
  | nil => rfl
  | cons e t =>
    obtain ⟨k, v⟩ := e
    rw [Tbl.wfFrom_cons] at *
    exact ⟨Nat.le_trans hl h.1, h.2⟩

/-- A key below the table's first reads what an unlisted key holds. -/
theorem Tbl.get_below (d : Nat → α) (e : α) {lo a : Nat} {t : Tbl α} (h : Tbl.wfFrom d lo t = true) (ha : a < lo) :
    Tbl.get e t a = e := by
  cases t with
  | nil => rfl
  | cons x t =>
    obtain ⟨k, v⟩ := x
    rw [Tbl.wfFrom_cons] at h
    have : a < k := Nat.lt_of_lt_of_le ha h.1
    simp [Tbl.get, this]

theorem Tbl.wfFrom_put (d : Nat → α) {lo a : Nat} {t : Tbl α} {v : α} (h : Tbl.wfFrom d lo t = true) (ha : lo ≤ a)
    (hv : v ≠ d a) : Tbl.wfFrom d lo (t.put a v) = true := by
  induction t generalizing lo with
  | nil => simp [Tbl.put, Tbl.wfFrom, ha, hv]
  | cons e t ih =>
    obtain ⟨k, w⟩ := e
    rw [Tbl.wfFrom_cons] at h
    by_cases h1 : a < k
    · simp only [Tbl.put, h1, if_true, Tbl.wfFrom_cons]
      exact ⟨ha, hv, h1, h.2⟩
    · by_cases h2 : a = k
      · subst h2
        simp only [Tbl.put, Nat.lt_irrefl, if_false, if_true, Tbl.wfFrom_cons]
        exact ⟨ha, hv, h.2.2⟩
      · simp only [Tbl.put, h1, h2, if_false, Tbl.wfFrom_cons]
        exact ⟨h.1, h.2.1, ih h.2.2 (by omega)⟩

theorem Tbl.wfFrom_drop (d : Nat → α) {lo a : Nat} {t : Tbl α} (h : Tbl.wfFrom d lo t = true) :
    Tbl.wfFrom d lo (Tbl.drop t a) = true := by
  induction t generalizing lo with
  | nil => rfl
  | cons e t ih =>
    obtain ⟨k, w⟩ := e
    have h' := (Tbl.wfFrom_cons d lo k w t).1 h
    by_cases h1 : a < k
    · simpa [Tbl.drop, h1] using h
    · by_cases h2 : a = k
      · simp only [Tbl.drop, h2, if_false, if_true, Nat.lt_irrefl]
        exact Tbl.wfFrom_mono d (by omega) h'.2.2
      · simp only [Tbl.drop, h1, h2, if_false, Tbl.wfFrom_cons]
        exact ⟨h'.1, h'.2.1, ih h'.2.2⟩

theorem Tbl.get_drop_self (d : Nat → α) {lo a : Nat} {t : Tbl α} (e : α) (h : Tbl.wfFrom d lo t = true) :
    Tbl.get e (Tbl.drop t a) a = e := by
  induction t generalizing lo with
  | nil => rfl
  | cons x t ih =>
    obtain ⟨k, w⟩ := x
    have h' := (Tbl.wfFrom_cons d lo k w t).1 h
    by_cases h1 : a < k
    · simp [Tbl.drop, Tbl.get, h1]
    · by_cases h2 : a = k
      · simp only [Tbl.drop, h2, if_false, if_true, Nat.lt_irrefl]
        exact Tbl.get_below d e h'.2.2 (by omega)
      · simp only [Tbl.drop, h1, h2, if_false, Tbl.get]
        exact ih h'.2.2

theorem Tbl.get_drop_ne (d : Nat → α) {lo a b : Nat} {t : Tbl α} (e : α) (h : Tbl.wfFrom d lo t = true) (hb : b ≠ a) :
    Tbl.get e (Tbl.drop t a) b = Tbl.get e t b := by
  induction t generalizing lo with
  | nil => rfl
  | cons x t ih =>
    obtain ⟨k, w⟩ := x
    have h' := (Tbl.wfFrom_cons d lo k w t).1 h
    by_cases h1 : a < k
    · simp [Tbl.drop, h1]
    · by_cases h2 : a = k
      · subst h2
        simp only [Tbl.drop, Nat.lt_irrefl, if_false, if_true, Tbl.get]
        by_cases h3 : b < a
        · simp only [h3, if_true]
          exact Tbl.get_below d e h'.2.2 (by omega)
        · simp [h3, hb]
      · simp only [Tbl.drop, h1, h2, if_false, Tbl.get]
        rw [ih h'.2.2]

/-- A write keeps the canonical form. -/
theorem Tbl.wf_set (d : Nat → α) {t : Tbl α} (a : Nat) (v : α) (h : Tbl.wf d t = true) : Tbl.wf d (t.set (d a) a v) = true := by
  unfold Tbl.set
  split
  · exact Tbl.wfFrom_drop d h
  · exact Tbl.wfFrom_put d h (Nat.zero_le _) ‹_›

/-- A read at the key just written finds the value. -/
theorem Tbl.get_set_self (d : Nat → α) {t : Tbl α} (a : Nat) (v : α) (h : Tbl.wf d t = true) :
    Tbl.get (d a) (t.set (d a) a v) a = v := by
  unfold Tbl.set
  split
  · rw [Tbl.get_drop_self d (d a) h, ‹v = d a›]
  · exact Tbl.get_put_self _ _ _ _

/-- A write leaves every other key alone. -/
theorem Tbl.get_set_ne (d : Nat → α) {t : Tbl α} (a b : Nat) (v e : α) (h : Tbl.wf d t = true) (hb : b ≠ a) :
    Tbl.get e (t.set (d a) a v) b = Tbl.get e t b := by
  unfold Tbl.set
  split
  · exact Tbl.get_drop_ne d e h hb
  · exact Tbl.get_put_ne _ _ _ _ _ hb

theorem Tbl.wfFrom_filter (d : Nat → α) (p : Nat × α → Bool) {lo : Nat} {t : Tbl α} (h : Tbl.wfFrom d lo t = true) :
    Tbl.wfFrom d lo (t.filter p) = true := by
  induction t generalizing lo with
  | nil => rfl
  | cons e t ih =>
    obtain ⟨k, v⟩ := e
    rw [Tbl.wfFrom_cons] at h
    by_cases hp : p (k, v)
    · rw [List.filter_cons_of_pos hp, Tbl.wfFrom_cons]
      exact ⟨h.1, h.2.1, ih h.2.2⟩
    · rw [List.filter_cons_of_neg hp]
      exact Tbl.wfFrom_mono d (by omega) (ih h.2.2)

/-- Keeping some entries keeps the canonical form. -/
theorem Tbl.wf_keep (d : Nat → α) (p : Nat → α → Bool) {t : Tbl α} (h : Tbl.wf d t = true) : Tbl.wf d (t.keep p) = true :=
  Tbl.wfFrom_filter d _ h

theorem Tbl.wfFrom_mapAll (d : α) (f : Nat → α → α) {lo : Nat} {t : Tbl α} (h : Tbl.wfFrom (fun _ => d) lo t = true) :
    Tbl.wfFrom (fun _ => d) lo (Tbl.mapAll d f t) = true := by
  induction t generalizing lo with
  | nil => rfl
  | cons e t ih =>
    obtain ⟨k, v⟩ := e
    rw [Tbl.wfFrom_cons] at h
    unfold Tbl.mapAll
    split
    · exact Tbl.wfFrom_mono _ (by omega) (ih h.2.2)
    · rw [Tbl.wfFrom_cons]
      exact ⟨h.1, ‹_›, ih h.2.2⟩

/-- Mapping every value keeps the canonical form. -/
theorem Tbl.wf_mapAll (d : α) (f : Nat → α → α) {t : Tbl α} (h : Tbl.wf (fun _ => d) t = true) :
    Tbl.wf (fun _ => d) (Tbl.mapAll d f t) = true := Tbl.wfFrom_mapAll d f h

/-- What a key holds after every value has been mapped by a function that keeps the unlisted value. -/
theorem Tbl.get_mapAll (d : α) (f : Nat → α → α) {lo : Nat} {t : Tbl α} (a : Nat) (h : Tbl.wfFrom (fun _ => d) lo t = true)
    (hd : f a d = d) : Tbl.get d (Tbl.mapAll d f t) a = f a (Tbl.get d t a) := by
  induction t generalizing lo with
  | nil => simp [Tbl.mapAll, hd]
  | cons e t ih =>
    obtain ⟨k, v⟩ := e
    have h' := (Tbl.wfFrom_cons _ lo k v t).1 h
    unfold Tbl.mapAll
    by_cases h1 : a < k
    · have hb : Tbl.get d (Tbl.mapAll d f t) a = d :=
        Tbl.get_below (fun _ => d) d (Tbl.wfFrom_mapAll d f h'.2.2) (by omega)
      split <;> simp [Tbl.get, h1, hd, hb]
    · by_cases h2 : a = k
      · subst h2
        have hb : Tbl.get d (Tbl.mapAll d f t) a = d :=
          Tbl.get_below (fun _ => d) d (Tbl.wfFrom_mapAll d f h'.2.2) (by omega)
        split <;> simp_all [Tbl.get]
      · split <;> simp [Tbl.get, h1, h2, ih h'.2.2]

end Sys2Proof
end

