-- ==== Sys2Proof/Laws/Regs.lean ====
section
/-! SUPPORT. Laws of the register file: what a word and a field read after a write, and that the file keeps its canonical
form. -/
namespace Sys2Proof.Machine

theorem bitsOf_lt (v hi lo : Nat) : bitsOf v hi lo < 2 ^ (hi + 1 - lo) := Nat.mod_lt _ (Nat.two_pow_pos _)

theorem bitsOf_testBit (v hi lo i : Nat) : (bitsOf v hi lo).testBit i = (decide (i < hi + 1 - lo) && v.testBit (i + lo)) := by
  simp [bitsOf, Nat.testBit_mod_two_pow, Nat.testBit_div_two_pow]

/-- A number cut at `lo` and `hi`. -/
theorem cut_eq (w hi lo : Nat) (h : lo ≤ hi + 1) :
    w = w / 2 ^ (hi + 1) * 2 ^ (hi + 1) + bitsOf w hi lo * 2 ^ lo + w % 2 ^ lo := by
  have e : 2 ^ (hi + 1) = 2 ^ lo * 2 ^ (hi + 1 - lo) := by rw [← Nat.pow_add]; congr 1; omega
  have h1 : w / 2 ^ (hi + 1) = w / 2 ^ lo / 2 ^ (hi + 1 - lo) := by rw [e, Nat.div_div_eq_div_mul]
  have h2 := Nat.div_add_mod w (2 ^ lo)
  have h3 := Nat.div_add_mod (w / 2 ^ lo) (2 ^ (hi + 1 - lo))
  rw [h1, e]
  unfold bitsOf
  calc w = 2 ^ lo * (w / 2 ^ lo) + w % 2 ^ lo := h2.symm
    _ = 2 ^ lo * (2 ^ (hi + 1 - lo) * (w / 2 ^ lo / 2 ^ (hi + 1 - lo)) + w / 2 ^ lo % 2 ^ (hi + 1 - lo)) + w % 2 ^ lo := by
      rw [h3]
    _ = _ := by ring

/-- What `putBits` writes, as a number. -/
theorem putBits_toNat (w : Word) (hi lo v : Nat) (h : lo ≤ hi + 1) (hw : hi < 32) :
    (putBits w hi lo v).toNat =
      w.toNat / 2 ^ (hi + 1) * 2 ^ (hi + 1) + v % 2 ^ (hi + 1 - lo) * 2 ^ lo + w.toNat % 2 ^ lo := by
  have c := cut_eq w.toNat hi lo h
  have e : 2 ^ (hi + 1) = 2 ^ (hi + 1 - lo) * 2 ^ lo := by rw [← Nat.pow_add]; congr 1; omega
  have hm : v % 2 ^ (hi + 1 - lo) < 2 ^ (hi + 1 - lo) := Nat.mod_lt _ (Nat.two_pow_pos _)
  have hl : w.toNat % 2 ^ lo < 2 ^ lo := Nat.mod_lt _ (Nat.two_pow_pos _)
  have hq : w.toNat / 2 ^ (hi + 1) < 2 ^ (32 - (hi + 1)) := by
    apply Nat.div_lt_of_lt_mul
    rw [← Nat.pow_add]
    exact lt_of_lt_of_eq w.isLt (by congr 1; omega)
  have hs : v % 2 ^ (hi + 1 - lo) * 2 ^ lo + w.toNat % 2 ^ lo < 2 ^ (hi + 1) := by
    have : (v % 2 ^ (hi + 1 - lo) + 1) * 2 ^ lo ≤ 2 ^ (hi + 1) := by
      rw [e]
      exact Nat.mul_le_mul_right _ hm
    rw [Nat.add_mul, Nat.one_mul] at this
    omega
  have hb : w.toNat / 2 ^ (hi + 1) * 2 ^ (hi + 1) + v % 2 ^ (hi + 1 - lo) * 2 ^ lo + w.toNat % 2 ^ lo < 2 ^ 32 := by
    have : (w.toNat / 2 ^ (hi + 1) + 1) * 2 ^ (hi + 1) ≤ 2 ^ 32 := by
      calc _ ≤ 2 ^ (32 - (hi + 1)) * 2 ^ (hi + 1) := Nat.mul_le_mul_right _ hq
        _ = 2 ^ 32 := by rw [← Nat.pow_add]; congr 1; omega
    rw [Nat.add_mul, Nat.one_mul] at this
    omega
  unfold putBits
  simp only [BitVec.toNat_ofNat]
  rw [Nat.mod_eq_of_lt]
  · omega
  · omega

/-- A bit of a written word: the value's inside the field, the old one outside. -/
theorem putBits_testBit (w : Word) (hi lo v j : Nat) (h : lo ≤ hi + 1) (hw : hi < 32) :
    (putBits w hi lo v).toNat.testBit j =
      if lo ≤ j ∧ j ≤ hi then v.testBit (j - lo) else w.toNat.testBit j := by
  have hm : v % 2 ^ (hi + 1 - lo) < 2 ^ (hi + 1 - lo) := Nat.mod_lt _ (Nat.two_pow_pos _)
  have hl : w.toNat % 2 ^ lo < 2 ^ lo := Nat.mod_lt _ (Nat.two_pow_pos _)
  have e : 2 ^ (hi + 1) = 2 ^ (hi + 1 - lo) * 2 ^ lo := by rw [← Nat.pow_add]; congr 1; omega
  have hs : v % 2 ^ (hi + 1 - lo) * 2 ^ lo + w.toNat % 2 ^ lo < 2 ^ (hi + 1) := by
    have : (v % 2 ^ (hi + 1 - lo) + 1) * 2 ^ lo ≤ 2 ^ (hi + 1) := by
      rw [e]
      exact Nat.mul_le_mul_right _ hm
    rw [Nat.add_mul, Nat.one_mul] at this
    omega
  rw [putBits_toNat w hi lo v h hw, Nat.add_assoc, Nat.mul_comm (w.toNat / _),
    Nat.testBit_two_pow_mul_add _ hs, Nat.mul_comm (v % _), Nat.testBit_two_pow_mul_add _ hl,
    Nat.testBit_mod_two_pow, Nat.testBit_mod_two_pow, Nat.testBit_div_two_pow]
  by_cases h1 : j < hi + 1
  · by_cases h2 : j < lo
    · simp [h1, h2, show ¬lo ≤ j by omega]
    · simp [h1, h2, show lo ≤ j by omega, show j ≤ hi by omega, show j - lo < hi + 1 - lo by omega]
  · simp [h1, show ¬(lo ≤ j ∧ j ≤ hi) by omega, show j - (hi + 1) + (hi + 1) = j by omega]

/-- A field of a written word: the value, cut to the field. -/
theorem bitsOf_putBits_self (w : Word) (hi lo v : Nat) (h : lo ≤ hi + 1) (hw : hi < 32) :
    bitsOf (putBits w hi lo v).toNat hi lo = v % 2 ^ (hi + 1 - lo) := by
  apply Nat.eq_of_testBit_eq
  intro i
  rw [bitsOf_testBit, Nat.testBit_mod_two_pow, putBits_testBit w hi lo v _ h hw]
  by_cases hi' : i < hi + 1 - lo
  · simp [hi', show i + lo ≤ hi by omega]
  · simp [hi']

/-- Another field of a written word keeps its value. -/
theorem bitsOf_putBits_disjoint (w : Word) (hi lo v hi' lo' : Nat) (h : lo ≤ hi + 1) (hw : hi < 32)
    (hd : hi' < lo ∨ hi < lo') : bitsOf (putBits w hi lo v).toNat hi' lo' = bitsOf w.toNat hi' lo' := by
  apply Nat.eq_of_testBit_eq
  intro i
  rw [bitsOf_testBit, bitsOf_testBit, putBits_testBit w hi lo v _ h hw]
  by_cases hi2 : i < hi' + 1 - lo'
  · rw [if_neg (by omega)]
  · simp [hi2]

/-- The word just written, and every other word. -/
theorem State.reg_setReg_self (s : State) (a : Nat) (w : Word) (h : Tbl.wf resetWord s.regs = true) :
    (s.setReg a w).reg a = w := Tbl.get_set_self resetWord a w h

theorem State.reg_setReg_ne (s : State) (a b : Nat) (w : Word) (h : Tbl.wf resetWord s.regs = true) (hb : b ≠ a) :
    (s.setReg a w).reg b = s.reg b := Tbl.get_set_ne resetWord a b w _ h hb

theorem State.wf_setReg (s : State) (a : Nat) (w : Word) (h : Tbl.wf resetWord s.regs = true) :
    Tbl.wf resetWord (s.setReg a w).regs = true := Tbl.wf_set resetWord a w h

theorem State.wf_wr (s : State) (f : Fld) (v : Nat) (h : Tbl.wf resetWord s.regs = true) :
    Tbl.wf resetWord (s.wr f v).regs = true := State.wf_setReg s _ _ h

theorem State.wf_bump (s : State) (f : Fld) (n : Nat) (h : Tbl.wf resetWord s.regs = true) :
    Tbl.wf resetWord (s.bump f n).regs = true := State.wf_wr s _ _ h

theorem State.reg_wr_ne (s : State) (f : Fld) (v a : Nat) (h : Tbl.wf resetWord s.regs = true) (ha : a ≠ f.addr) :
    (s.wr f v).reg a = s.reg a := State.reg_setReg_ne s _ _ _ h ha

theorem State.reg_bump_ne (s : State) (f : Fld) (n a : Nat) (h : Tbl.wf resetWord s.regs = true) (ha : a ≠ f.addr) :
    (s.bump f n).reg a = s.reg a := State.reg_wr_ne s f _ a h ha

/-- A field reads what was written to it, cut to its width. -/
theorem State.rd_wr_self (s : State) (f : Fld) (v : Nat) (h : Tbl.wf resetWord s.regs = true) (hl : f.lo ≤ f.hi + 1)
    (hh : f.hi < 32) : (s.wr f v).rd f = v % 2 ^ (f.hi + 1 - f.lo) := by
  unfold State.rd State.wr
  rw [State.reg_setReg_self s _ _ h, bitsOf_putBits_self _ _ _ _ hl hh]

/-- A field of another register keeps its value. -/
theorem State.rd_wr_ne (s : State) (f g : Fld) (v : Nat) (h : Tbl.wf resetWord s.regs = true) (ha : g.addr ≠ f.addr) :
    (s.wr f v).rd g = s.rd g := by
  unfold State.rd
  rw [State.reg_wr_ne s f v _ h ha]

/-- Another field of the register keeps its value. -/
theorem State.rd_wr_disjoint (s : State) (f g : Fld) (v : Nat) (h : Tbl.wf resetWord s.regs = true) (hl : f.lo ≤ f.hi + 1)
    (hh : f.hi < 32) (ha : g.addr = f.addr) (hd : g.hi < f.lo ∨ f.hi < g.lo) : (s.wr f v).rd g = s.rd g := by
  unfold State.rd State.wr
  rw [ha, State.reg_setReg_self s _ _ h, bitsOf_putBits_disjoint _ _ _ _ _ _ hl hh hd]

/-- A counter that saturates reads one step further, or stays at its top. -/
theorem State.rd_bump_self (s : State) (f : Fld) (n : Nat) (h : Tbl.wf resetWord s.regs = true) (hl : f.lo ≤ f.hi + 1)
    (hh : f.hi < 32) : (s.bump f n).rd f = min (s.rd f + n) (2 ^ (f.hi + 1 - f.lo) - 1) := by
  unfold State.bump
  rw [State.rd_wr_self s f _ h hl hh, Nat.mod_eq_of_lt]
  exact lt_of_le_of_lt (min_le_right _ _) (Nat.sub_lt (Nat.two_pow_pos _) Nat.one_pos)

end Sys2Proof.Machine
end

