-- ==== Sys2Proof/Laws/Tables.lean ====
section
/-! SUPPORT. The named updates keep the tables of the state canonical. -/
namespace Sys2Proof.Machine

/-- A register write. -/
theorem tablesOk_setReg {s : State} (h : TablesOk s) (a : Nat) (w : Word) : TablesOk (s.setReg a w) :=
  ⟨State.wf_setReg s a w h.regs, h.ctxs, h.ctxRegs, h.queues, h.scratch, h.imem, h.objs, h.trigs, h.wins, h.peers, h.groups, h.links, h.credits, h.tokens, h.rates, h.xops, h.tgtOps⟩

/-- A field write. -/
theorem tablesOk_wr {s : State} (h : TablesOk s) (f : Fld) (v : Nat) : TablesOk (s.wr f v) :=
  ⟨State.wf_wr s f v h.regs, h.ctxs, h.ctxRegs, h.queues, h.scratch, h.imem, h.objs, h.trigs, h.wins, h.peers, h.groups, h.links, h.credits, h.tokens, h.rates, h.xops, h.tgtOps⟩

/-- A counter. -/
theorem tablesOk_bump {s : State} (h : TablesOk s) (f : Fld) (n : Nat) : TablesOk (s.bump f n) :=
  ⟨State.wf_bump s f n h.regs, h.ctxs, h.ctxRegs, h.queues, h.scratch, h.imem, h.objs, h.trigs, h.wins, h.peers, h.groups, h.links, h.credits, h.tokens, h.rates, h.xops, h.tgtOps⟩

/-- A report to Hedgehog. -/
theorem tablesOk_report {s : State} (h : TablesOk s) (a b c d : Nat) : TablesOk (report s a b c d) :=
  ⟨h.regs, h.ctxs, h.ctxRegs, h.queues, h.scratch, h.imem, h.objs, h.trigs, h.wins, h.peers, h.groups, h.links, h.credits, h.tokens, h.rates, h.xops, h.tgtOps⟩

/-- A free value drawn. -/
theorem tablesOk_useFree {s : State} (h : TablesOk s) : TablesOk (s.useFree) :=
  ⟨h.regs, h.ctxs, h.ctxRegs, h.queues, h.scratch, h.imem, h.objs, h.trigs, h.wins, h.peers, h.groups, h.links, h.credits, h.tokens, h.rates, h.xops, h.tgtOps⟩

/-- A channel of the Host Memory Port. -/
theorem tablesOk_setChan {s : State} (h : TablesOk s) (c : Nat) (v : HmpChan) : TablesOk (s.setChan c v) :=
  ⟨h.regs, h.ctxs, h.ctxRegs, h.queues, h.scratch, h.imem, h.objs, h.trigs, h.wins, h.peers, h.groups, h.links, h.credits, h.tokens, h.rates, h.xops, h.tgtOps⟩

/-- A queue. -/
theorem tablesOk_setQueue {s : State} (h : TablesOk s) (q : Nat) (v : Queue) : TablesOk (s.setQueue q v) :=
  ⟨h.regs, h.ctxs, h.ctxRegs, Tbl.wf_set (fun _ => ({} : Queue)) q v h.queues, h.scratch, h.imem, h.objs, h.trigs, h.wins, h.peers, h.groups, h.links, h.credits, h.tokens, h.rates, h.xops, h.tgtOps⟩

/-- A trigger entry. -/
theorem tablesOk_setTrig {s : State} (h : TablesOk s) (i : Nat) (e : TrigEntry) : TablesOk (s.setTrig i e) :=
  ⟨h.regs, h.ctxs, h.ctxRegs, h.queues, h.scratch, h.imem, h.objs, Tbl.wf_set (fun _ => ({} : TrigEntry)) i e h.trigs, h.wins, h.peers, h.groups, h.links, h.credits, h.tokens, h.rates, h.xops, h.tgtOps⟩

/-- A window. -/
theorem tablesOk_setWin {s : State} (h : TablesOk s) (w : Nat) (v : Win) : TablesOk (s.setWin w v) :=
  ⟨h.regs, h.ctxs, h.ctxRegs, h.queues, h.scratch, h.imem, h.objs, h.trigs, Tbl.wf_set (fun _ => ({} : Win)) w v h.wins, h.peers, h.groups, h.links, h.credits, h.tokens, h.rates, h.xops, h.tgtOps⟩

/-- A stream. -/
theorem tablesOk_setPeer {s : State} (h : TablesOk s) (i : Nat) (p : Peer) : TablesOk (s.setPeer i p) :=
  ⟨h.regs, h.ctxs, h.ctxRegs, h.queues, h.scratch, h.imem, h.objs, h.trigs, h.wins, Tbl.wf_set (fun _ => ({} : Peer)) i p h.peers, h.groups, h.links, h.credits, h.tokens, h.rates, h.xops, h.tgtOps⟩

/-- A group. -/
theorem tablesOk_setGroup {s : State} (h : TablesOk s) (g : Nat) (v : Group) : TablesOk (s.setGroup g v) :=
  ⟨h.regs, h.ctxs, h.ctxRegs, h.queues, h.scratch, h.imem, h.objs, h.trigs, h.wins, h.peers, Tbl.wf_set (fun _ => ({} : Group)) g v h.groups, h.links, h.credits, h.tokens, h.rates, h.xops, h.tgtOps⟩

/-- A lane. -/
theorem tablesOk_setLane {s : State} (h : TablesOk s) (k : Nat) (v : LaneIo) : TablesOk (s.setLane k v) :=
  ⟨h.regs, h.ctxs, h.ctxRegs, h.queues, h.scratch, h.imem, h.objs, h.trigs, h.wins, h.peers, h.groups, h.links, h.credits, h.tokens, h.rates, h.xops, h.tgtOps⟩

/-- The lane side of a port. -/
theorem tablesOk_setLanePort {s : State} (h : TablesOk s) (p : Nat) (v : LanePort) : TablesOk (s.setLanePort p v) :=
  ⟨h.regs, h.ctxs, h.ctxRegs, h.queues, h.scratch, h.imem, h.objs, h.trigs, h.wins, h.peers, h.groups, h.links, h.credits, h.tokens, h.rates, h.xops, h.tgtOps⟩

/-- An entry of a table after a write is the new one or an old one. -/
theorem mem_set {α : Type} [DecidableEq α] {d : α} {t : Tbl α} {a : Nat} {v : α} {e : Nat × α} (he : e ∈ t.set d a v) :
    e = (a, v) ∨ e ∈ t := by
  unfold Tbl.set at he
  split at he
  · exact Or.inr (Tbl.mem_drop he)
  · exact Tbl.mem_put he

/-- A context whose own registers are canonical. -/
theorem tablesOk_setCtx {s : State} (h : TablesOk s) (k : Nat) (c : Ctxt)
    (hc : Tbl.wf (fun _ => (0 : Dword)) c.g = true ∧ Tbl.wf (fun _ => false) c.p = true) : TablesOk (s.setCtx k c) :=
  ⟨h.regs, Tbl.wf_set (fun _ => ({} : Ctxt)) k c h.ctxs, fun _ he => (mem_set he).elim (fun x => x ▸ hc) (h.ctxRegs _), h.queues, h.scratch, h.imem, h.objs, h.trigs, h.wins, h.peers, h.groups, h.links, h.credits, h.tokens, h.rates, h.xops, h.tgtOps⟩

/-- A link whose credits are canonical. -/
theorem tablesOk_setLink {s : State} (h : TablesOk s) (p : Nat) (v : LinkPort)
    (hc : Tbl.wf (fun _ => ({} : Credit)) v.credits = true) : TablesOk (s.setLink p v) :=
  ⟨h.regs, h.ctxs, h.ctxRegs, h.queues, h.scratch, h.imem, h.objs, h.trigs, h.wins, h.peers, h.groups, Tbl.wf_set (fun _ => ({} : LinkPort)) p v h.links, fun _ he => (mem_set he).elim (fun x => x ▸ hc) (h.credits _), h.tokens, h.rates, h.xops, h.tgtOps⟩

/-- An operation of transport. -/
theorem tablesOk_putXop {s : State} (h : TablesOk s) (o : XOp) : TablesOk (s.putXop o) :=
  ⟨h.regs, h.ctxs, h.ctxRegs, h.queues, h.scratch, h.imem, h.objs, h.trigs, h.wins, h.peers, h.groups, h.links, h.credits, h.tokens, h.rates, fun _ he => (Tbl.mem_put he).elim (fun x => x ▸ rfl) (h.xops _), h.tgtOps⟩

/-- The end of an operation of transport. -/
theorem tablesOk_dropXop {s : State} (h : TablesOk s) (i : Nat) : TablesOk (s.dropXop i) :=
  ⟨h.regs, h.ctxs, h.ctxRegs, h.queues, h.scratch, h.imem, h.objs, h.trigs, h.wins, h.peers, h.groups, h.links, h.credits, h.tokens, h.rates, fun _ he => h.xops _ (Tbl.mem_drop he), h.tgtOps⟩

/-- An operation of the target engine. -/
theorem tablesOk_putTgt {s : State} (h : TablesOk s) (o : TgtOp) : TablesOk (s.putTgt o) :=
  ⟨h.regs, h.ctxs, h.ctxRegs, h.queues, h.scratch, h.imem, h.objs, h.trigs, h.wins, h.peers, h.groups, h.links, h.credits, h.tokens, h.rates, h.xops, fun _ he => (Tbl.mem_put he).elim (fun x => x ▸ rfl) (h.tgtOps _)⟩

/-- The end of an operation of the target engine. -/
theorem tablesOk_dropTgt {s : State} (h : TablesOk s) (i : Nat) : TablesOk (s.dropTgt i) :=
  ⟨h.regs, h.ctxs, h.ctxRegs, h.queues, h.scratch, h.imem, h.objs, h.trigs, h.wins, h.peers, h.groups, h.links, h.credits, h.tokens, h.rates, h.xops, fun _ he => h.tgtOps _ (Tbl.mem_drop he)⟩

/-- The registers and predicates of a context are canonical. -/
theorem ctx_wf {s : State} (h : TablesOk s) (k : Nat) :
    Tbl.wf (fun _ => (0 : Dword)) (s.ctx k).g = true ∧ Tbl.wf (fun _ => false) (s.ctx k).p = true := by
  have key : ∀ t : Tbl Ctxt, (∀ e ∈ t, Tbl.wf (fun _ => (0 : Dword)) e.2.g = true ∧ Tbl.wf (fun _ => false) e.2.p = true) →
      Tbl.wf (fun _ => (0 : Dword)) (t.get {} k).g = true ∧ Tbl.wf (fun _ => false) (t.get {} k).p = true := by
    intro t
    induction t with
    | nil => intro _; exact ⟨rfl, rfl⟩
    | cons e t ih =>
      intro ht
      obtain ⟨j, c⟩ := e
      simp only [Tbl.get]
      split
      · exact ⟨rfl, rfl⟩
      · split
        · exact ht _ List.mem_cons_self
        · exact ih fun e he => ht e (List.mem_cons_of_mem _ he)
  exact key s.ctxs h.ctxRegs

/-- A write of a general register keeps them canonical. -/
theorem setG_wf {c : Ctxt} (i v : Nat)
    (h : Tbl.wf (fun _ => (0 : Dword)) c.g = true ∧ Tbl.wf (fun _ => false) c.p = true) :
    Tbl.wf (fun _ => (0 : Dword)) (c.setG i v).g = true ∧ Tbl.wf (fun _ => false) (c.setG i v).p = true := by
  unfold Ctxt.setG
  split
  · exact h
  · exact ⟨Tbl.wf_set (fun _ => (0 : Dword)) _ _ h.1, h.2⟩

/-- A write of a predicate keeps them canonical. -/
theorem setP_wf {c : Ctxt} (i : Nat) (v : Bool)
    (h : Tbl.wf (fun _ => (0 : Dword)) c.g = true ∧ Tbl.wf (fun _ => false) c.p = true) :
    Tbl.wf (fun _ => (0 : Dword)) (c.setP i v).g = true ∧ Tbl.wf (fun _ => false) (c.setP i v).p = true := by
  unfold Ctxt.setP
  split
  · exact h
  · exact ⟨h.1, Tbl.wf_set (fun _ => false) _ _ h.2⟩

/-- A write of bytes to scratch. -/
theorem tablesOk_scrWrite {s : State} (h : TablesOk s) (a : Nat) (b : List Byte) : TablesOk (scrWrite s a b) := by
  induction b generalizing s a with
  | nil => exact h
  | cons x t ih =>
    unfold scrWrite
    refine ih ?_ (a + 1)
    exact { h with scratch := Tbl.wf_set (fun _ => (0 : Byte)) a x h.scratch }

/-- What a general register holds after a write: G0 reads 0, another register its value. -/
theorem gr_setG_self {c : Ctxt} (i v : Nat) (h : Tbl.wf (fun _ => (0 : Dword)) c.g = true) :
    (c.setG i v).gr i = if i = 0 then 0 else v % 2 ^ 64 := by
  unfold Ctxt.setG Ctxt.gr
  by_cases hi : i = 0
  · simp [hi]
  · simp only [hi, if_false]
    rw [Tbl.get_set_self (fun _ => (0 : Dword)) i _ h, BitVec.toNat_ofNat]

theorem gr_setG_ne {c : Ctxt} (i j v : Nat) (h : Tbl.wf (fun _ => (0 : Dword)) c.g = true) (hj : j ≠ i) :
    (c.setG i v).gr j = c.gr j := by
  unfold Ctxt.setG Ctxt.gr
  by_cases hi : i = 0
  · simp [hi]
  · simp only [hi, if_false]
    rw [Tbl.get_set_ne (fun _ => (0 : Dword)) i j _ _ h hj]

/-- A context just written, and every other context. -/
theorem ctx_setCtx_self {s : State} (h : TablesOk s) (k : Nat) (c : Ctxt) : (s.setCtx k c).ctx k = c :=
  Tbl.get_set_self (fun _ => ({} : Ctxt)) k c h.ctxs

theorem ctx_setCtx_ne {s : State} (h : TablesOk s) (k j : Nat) (c : Ctxt) (hj : j ≠ k) : (s.setCtx k c).ctx j = s.ctx j :=
  Tbl.get_set_ne (fun _ => ({} : Ctxt)) k j c _ h.ctxs hj

theorem queue_setQueue_self {s : State} (h : TablesOk s) (q : Nat) (v : Queue) : (s.setQueue q v).queue q = v :=
  Tbl.get_set_self (fun _ => ({} : Queue)) q v h.queues

theorem queue_setQueue_ne {s : State} (h : TablesOk s) (q j : Nat) (v : Queue) (hj : j ≠ q) :
    (s.setQueue q v).queue j = s.queue j := Tbl.get_set_ne (fun _ => ({} : Queue)) q j v _ h.queues hj

theorem win_setWin_self {s : State} (h : TablesOk s) (w : Nat) (v : Win) : (s.setWin w v).win w = v :=
  Tbl.get_set_self (fun _ => ({} : Win)) w v h.wins

theorem win_setWin_ne {s : State} (h : TablesOk s) (w j : Nat) (v : Win) (hj : j ≠ w) : (s.setWin w v).win j = s.win j :=
  Tbl.get_set_ne (fun _ => ({} : Win)) w j v _ h.wins hj

theorem peer_setPeer_self {s : State} (h : TablesOk s) (i : Nat) (p : Peer) : (s.setPeer i p).peer i = p :=
  Tbl.get_set_self (fun _ => ({} : Peer)) i p h.peers

theorem group_setGroup_self {s : State} (h : TablesOk s) (g : Nat) (v : Group) : (s.setGroup g v).group g = v :=
  Tbl.get_set_self (fun _ => ({} : Group)) g v h.groups

theorem link_setLink_self {s : State} (h : TablesOk s) (p : Nat) (v : LinkPort) : (s.setLink p v).link p = v :=
  Tbl.get_set_self (fun _ => ({} : LinkPort)) p v h.links

theorem trig_setTrig_self {s : State} (h : TablesOk s) (i : Nat) (e : TrigEntry) : (s.setTrig i e).trig i = e :=
  Tbl.get_set_self (fun _ => ({} : TrigEntry)) i e h.trigs

end Sys2Proof.Machine
end

