-- ==== Sys2Proof/Laws/Ops.lean ====
section
/-! SUPPORT. What each shared operation can do, said once: the gate of the fabric regions, the issue of a Marten
instruction, a context fault, an update of a synchronisation object, a step. -/
namespace Sys2Proof.Machine

theorem step_front (s : State) (c : Instr) (rest : List Instr) (h : s.pending = c :: rest) :
    step s = exec c { s with pending := rest } := by simp [step, h]

theorem step_idle (s : State) (h : s.pending = []) : step s = .next (tick s) := by simp [step, h]

/-- A command written to a fabric register does nothing while the region does not answer. -/
theorem viaFabric_closed (s : State) (f : State → State) (h : s.fabricOpen = false) : viaFabric s f = s := by
  simp [viaFabric, h]

theorem viaFabric_open (s : State) (f : State → State) (h : s.fabricOpen = true) : viaFabric s f = f (drowseExit s) := by
  simp [viaFabric, h]

theorem viaFirmware_run (busy st : Fld) (s : State) (f : State → State) (h : s.fabricOpen = true)
    (hb : (drowseExit s).on busy = false) (hr : (drowseExit s).on BDG_STATUS.FW_RESTART = false) :
    viaFirmware busy st s f = f (drowseExit s) := by
  simp [viaFirmware, viaFabric, h, hb, hr]

/-- The end of Drowse changes the power state's register and the idle clock only. -/
theorem drowseExit_cases (s : State) : drowseExit s = s ∨
    (s.power = 1 ∧ drowseExit s = { s.wr CSP_STATUS.STATE 0 with csp := { s.csp with activeAt := s.now } }) := by
  unfold drowseExit
  split
  · exact Or.inr ⟨‹_›, rfl⟩
  · exact Or.inl rfl

theorem tablesOk_drowseExit {s : State} (h : TablesOk s) : TablesOk (drowseExit s) := by
  rcases drowseExit_cases s with e | ⟨-, e⟩
  · rw [e]; exact h
  · rw [e]; exact { tablesOk_wr h CSP_STATUS.STATE 0 with }

@[simp] theorem drowseExit_ctxs (s : State) : (drowseExit s).ctxs = s.ctxs := by unfold drowseExit; split <;> rfl
@[simp] theorem drowseExit_queues (s : State) : (drowseExit s).queues = s.queues := by unfold drowseExit; split <;> rfl
@[simp] theorem drowseExit_syn (s : State) : (drowseExit s).syn = s.syn := by unfold drowseExit; split <;> rfl
@[simp] theorem drowseExit_xpt (s : State) : (drowseExit s).xpt = s.xpt := by unfold drowseExit; split <;> rfl
@[simp] theorem drowseExit_yar (s : State) : (drowseExit s).yar = s.yar := by unfold drowseExit; split <;> rfl
@[simp] theorem drowseExit_wins (s : State) : (drowseExit s).wins = s.wins := by unfold drowseExit; split <;> rfl
@[simp] theorem drowseExit_hhg (s : State) : (drowseExit s).hhg = s.hhg := by unfold drowseExit; split <;> rfl
@[simp] theorem drowseExit_out (s : State) : (drowseExit s).out = s.out := by unfold drowseExit; split <;> rfl
@[simp] theorem drowseExit_time (s : State) : (drowseExit s).time = s.time := by unfold drowseExit; split <;> rfl
@[simp] theorem drowseExit_pins (s : State) : (drowseExit s).pins = s.pins := by unfold drowseExit; split <;> rfl
@[simp] theorem drowseExit_pending (s : State) : (drowseExit s).pending = s.pending := by unfold drowseExit; split <;> rfl
@[simp] theorem drowseExit_build (s : State) : (drowseExit s).build = s.build := by unfold drowseExit; split <;> rfl

@[simp] theorem fetch_ctx (s : State) (k j : Nat) : (s.fetch k).ctx j = s.ctx j := by
  have h : (s.fetch k).ctxs = s.ctxs := by unfold State.fetch; dsimp only; repeat (first | rfl | split)
  unfold State.ctx; rw [h]

/-- Everything that the issue of an instruction can do (R320, R326, R329, R333, R336, R345): nothing, the fetch alone, a fault
of the context, a step past a word whose guard is false, or the instruction itself, at its word, with its fields and guard
right. -/
theorem issue_cases (op : Nat) (f : Form) (extra : State → Nat → Bool) (run : State → Nat → Nat → State) (s : State) (k : Nat) :
    issue op f extra run s k = s ∨ issue op f extra run s k = s.fetch k ∨
    (∃ cause info, issue op f extra run s k = ctxFault s k cause info ∧ (s.ctx k).state = .ready) ∨
    (∃ cause info, issue op f extra run s k = ctxFault (s.fetch k) k cause info ∧ (s.ctx k).state = .ready) ∨
    (issue op f extra run s k = advance (s.fetch k) k ∧ guardOn (s.ctx k) (s.instr k (s.ctx k).pc) = false) ∨
    (issue op f extra run s k = run (s.fetch k) k (s.instr k (s.ctx k).pc) ∧ AtWord s k (s.instr k (s.ctx k).pc) ∧
      iOp (s.instr k (s.ctx k).pc) = op ∧ guardOn (s.ctx k) (s.instr k (s.ctx k).pc) = true ∧
      f.ok (s.instr k (s.ctx k).pc) = true ∧ extra (s.fetch k) (s.instr k (s.ctx k).pc) = false ∧
      f.stalls (s.ctx k) (s.instr k (s.ctx k).pc) = false) := by
  generalize hr : issue op f extra run s k = r
  dsimp only [issue] at hr
  split at hr
  · exact Or.inl hr.symm
  · rename_i h0
    simp only [Bool.or_eq_true, not_or, Bool.not_eq_true', decide_eq_true_eq, ne_eq, not_not, Bool.not_eq_true] at h0
    obtain ⟨⟨hs, hu⟩, hh⟩ := h0
    have hu' : s.unitsRun = true := by simpa using hu
    split at hr
    · exact Or.inr (Or.inr (Or.inl ⟨_, _, hr.symm, hs⟩))
    rename_i h1
    split at hr
    · exact Or.inr (Or.inr (Or.inl ⟨_, _, hr.symm, hs⟩))
    rename_i h2
    split at hr
    · exact Or.inr (Or.inl hr.symm)
    rename_i h3
    split at hr
    · split at hr
      · exact Or.inr (Or.inr (Or.inr (Or.inl ⟨_, _, hr.symm, hs⟩)))
      · rename_i h5
        exact Or.inr (Or.inr (Or.inr (Or.inr (Or.inl ⟨hr.symm, by simpa using h5⟩))))
    split at hr
    · exact Or.inl hr.symm
    rename_i h5
    split at hr
    · rename_i h6
      exact Or.inr (Or.inr (Or.inr (Or.inr (Or.inl ⟨hr.symm, by simpa using h6⟩))))
    rename_i h6
    split at hr
    · exact Or.inr (Or.inr (Or.inr (Or.inl ⟨_, _, hr.symm, hs⟩)))
    rename_i h7
    split at hr
    · exact Or.inr (Or.inl hr.symm)
    rename_i h8
    split at hr
    · exact Or.inr (Or.inr (Or.inr (Or.inl ⟨_, _, hr.symm, hs⟩)))
    rename_i h9
    exact Or.inr (Or.inr (Or.inr (Or.inr (Or.inr ⟨hr.symm, ⟨⟨hs, hu', hh⟩, by simpa using h1,
      by simpa using h2, rfl, by simpa using h3⟩, by simpa using h5, by simpa using h6, by simpa using h7,
      by simpa using h9, by simpa using h8⟩))))

/-- A response of the Host Memory Port that ends no transfer. -/
theorem afterResponse_none (s : State) : afterResponse (s, none) = tierStep s := rfl

theorem afterResponse_some (s : State) (x : Xfer) : afterResponse (s, some x) = tierStep (xferDone s x) := rfl

/-- No run of a tier, no step of it. -/
theorem tierStep_none (s : State) (h : s.bdg.tier = none) : tierStep s = s := by simp [tierStep, h]

/-- No session command that waits, nothing to answer. -/
theorem mgmtDone_none (s : State) (h : s.bdg.rspWait = none) : mgmtDone s = s := by simp [mgmtDone, h]

end Sys2Proof.Machine
end

