-- ==== Sys2Proof/WellFormed.lean ====
section
/-! DEFINITION. Which commands are well formed: the operands whose type leaves more room than the port that carries them. -/
namespace Sys2Proof
open Sys2Proof.Machine

/-- The fields of a packet fit their places in the header and the trailer (R263, R265), and its payload the longest packet. -/
def Machine.Pkt.wf (p : Pkt) : Bool :=
  p.dest < 2 ^ 20 && p.src < 2 ^ 20 && p.pkey < 2 ^ 16 && p.tc < 8 && p.opcode < 256 && p.fn < 32 && p.length < 2 ^ 13 &&
  p.window < 2 ^ 16 && p.offset < 2 ^ 48 && p.seq < 2 ^ 16 && p.stag < 2 ^ 24 && p.ackedLow < 2 ^ 16 && p.tag < 2 ^ 15 &&
  p.ctx < 512 && p.status < 256 && p.life < 256 && p.rsvd < 64 && p.payload.length ≤ 4096 && p.crc < 2 ^ 32 && p.mark < 256 &&
  p.words < 2 ^ 16

/-- A packet of OPCODE `op`: the row of the command and the packet agree (R264, R410). -/
def Machine.Pkt.ofRow (op : Nat) (p : Pkt) : Bool := p.wf && p.opcode = op

/-- A control frame names a lane of its port and carries 34 bytes (R139). -/
def Machine.CtlFrame.wf (f : CtlFrame) : Bool := f.lane < 8 && f.bytes.length = 34

/-- A bypass message is 32 × BLEN bytes (R182). -/
def msgOk (m : List Byte) : Bool := m.length = 32 || m.length = 64 || m.length = 96

/-- A management message is 48 to 4,096 bytes (R635, R652). -/
def ammOk (m : List Byte) : Bool := 48 ≤ m.length && m.length ≤ 4096

/-- The well-formed commands. -/
def Instr.wf (i : Instr) : Bool :=
  match i with
  | .registerWrite _ _ _ => true
  | .mrpTimeout _ _ _ => true
  | .lowWordRead _ _ => true
  | .objectWindowWrite _ _ _ _ => true
  | .ftimeLoRead _ => true
  | .entryLatchRead _ _ => true
  | .porstAssert => true
  | .porstRelease _ _ _ => true
  | .imageCheck => true
  | .hrstAssert => true
  | .hrstRelease => true
  | .refLoss => true
  | .supplyFault _ => true
  | .aonPowerOnReset => true
  | .fabricPllLock => true
  | .fabricPllTmo => true
  | .fltAliveToggle => true
  | .herrError _ => true
  | .wireFault _ => true
  | .jtTrst => true
  | .extest _ _ => true
  | .idcode => true
  | .samplePreload _ _ => true
  | .clamp => true
  | .highz => true
  | .ijtagAccess => true
  | .bypass _ _ => true
  | .hmpReadBeat _ _ line _ _ => line.length = 128
  | .hmpWriteResponse _ _ _ => true
  | .hmpRespTmo _ _ => true
  | .quarantineTagFree _ => true
  | .quiesceDone => true
  | .oppPush _ bytes => bytes.length = 64
  | .descFetch _ => true
  | .descNop _ => true
  | .descPut _ => true
  | .descGet _ => true
  | .descAtomic _ => true
  | .descSignal _ => true
  | .descFence _ => true
  | .openQueue _ => true
  | .closeQueue _ => true
  | .queueClosed _ => true
  | .qDb _ _ => true
  | .qCqdb _ _ => true
  | .trgToken _ _ _ => true
  | .trgCfgWrite _ => true
  | .portOn _ errs _ => errs.length ≤ 8
  | .portOff _ => true
  | .recal _ => true
  | .lanePllLock _ => true
  | .lanePllTmo _ => true
  | .signalDetect _ _ => true
  | .adaptDone _ offsets live => offsets.length ≤ 8 && live.length ≤ 8
  | .alignDone _ => true
  | .alignTmo _ => true
  | .exchDone _ => true
  | .exchTmo _ => true
  | .ts1 _ frames => frames.all CtlFrame.wf
  | .ts2 _ frames => frames.all CtlFrame.wf
  | .ei _ frames => frames.all CtlFrame.wf
  | .dx _ frames => frames.all CtlFrame.wf
  | .dozeExit _ => true
  | .shortTraining _ live firsts seconds => live.length ≤ 8 && firsts.all CtlFrame.wf && seconds.all CtlFrame.wf
  | .shortTrainTmo _ => true
  | .elasticSlip _ _ => true
  | .cdrLockLoss _ => true
  | .adaptStep _ dirs => dirs.length ≤ 8
  | .owlScanStart _ _ => true
  | .owlScanDone _ => true
  | .owlHealthScan _ _ _ => true
  | .flitRx _ levels => levels.length ≤ 8 && levels.all fun l => l.all fun x => x ≤ 3
  | .nakTmo _ => true
  | .replayTmo _ => true
  | .lockTmo _ => true
  | .retrainBound _ => true
  | .probe _ m => msgOk m
  | .echo _ m => msgOk m
  | .cap _ m => msgOk m
  | .verdict _ m => msgOk m
  | .capTmo _ => true
  | .reexch _ => true
  | .retrain _ => true
  | .linkSleepCmd _ _ => true
  | .sleepReq _ m => msgOk m
  | .sleepAck _ m => msgOk m
  | .sleepNak _ m => msgOk m
  | .wake _ m => msgOk m
  | .sleepTmo _ => true
  | .drainDone _ => true
  | .linkWake _ _ => true
  | .widthReq _ m => msgOk m
  | .widthAck _ m => msgOk m
  | .widthNak _ m => msgOk m
  | .widthSwitch _ _ _ live => live.length ≤ 8
  | .sHello _ m => msgOk m
  | .sCred _ m => msgOk m
  | .sKex _ m => msgOk m
  | .sFin _ m => msgOk m
  | .sRekey _ m => msgOk m
  | .sRekeyAck _ m => msgOk m
  | .sFail _ m => msgOk m
  | .rekeyStart _ _ => true
  | .rekeyRetryTmo _ => true
  | .rngFail => true
  | .attestReport => true
  | .sessionIdle => true
  | .routerPacket _ => true
  | .egressGrant _ => true
  | .downHoldTmo => true
  | .entryWait => true
  | .flipArm => true
  | .hold _ => true
  | .epochFlip => true
  | .drainDeadline => true
  | .congSample _ => true
  | .putPacket p => p.ofRow 0x01
  | .getPacket p => p.ofRow 0x02
  | .atomicPacket p => p.ofRow 0x03
  | .signalPacket p => p.ofRow 0x04
  | .sync p => p.ofRow 0x08
  | .notice p => p.ofRow 0x09
  | .ready p => p.ofRow 0x20
  | .part p => p.ofRow 0x21
  | .bcast p => p.ofRow 0x22
  | .a2aPacket p => p.ofRow 0x23
  | .count p => p.ofRow 0x24
  | .fail p => p.ofRow 0x25
  | .abort p => p.ofRow 0x26
  | .ack p => p.ofRow 0x81
  | .data p => p.ofRow 0x82
  | .result p => p.ofRow 0x83
  | .syncAck p => p.ofRow 0x88
  | .resync p => p.ofRow 0x8A
  | .routerNak p => p.ofRow 0x8F
  | .retxTmo _ _ => true
  | .streamHandshake _ => true
  | .seqBudgetRelease _ => true
  | .ootAllocate _ => true
  | .ordExecute _ => true
  | .heldAgeOut _ => true
  | .recordAgeOut _ => true
  | .create _ => true
  | .createListRead => true
  | .narrow => true
  | .revoke => true
  | .revokeAck _ => true
  | .chunkMissFill _ _ => true
  | .tgtAdmit _ => true
  | .busyBoundTmo _ => true
  | .heatHalve => true
  | .start _ => true
  | .stop _ => true
  | .tier0 _ => true
  | .contextStopped _ => true
  | .iload => true
  | .iloadDone => true
  | .backendEntryStart _ => true
  | .backendEntryDone _ _ => true
  | .fenceDone _ => true
  | .synwaitTmo _ => true
  | .nop _ => true
  | .movi _ => true
  | .add _ => true
  | .sub _ => true
  | .mul _ => true
  | .mulhu _ => true
  | .and _ => true
  | .or _ => true
  | .xor _ => true
  | .shl _ => true
  | .shr _ => true
  | .sra _ => true
  | .minu _ => true
  | .maxu _ => true
  | .mins _ => true
  | .maxs _ => true
  | .clz _ => true
  | .sel _ => true
  | .cmp _ => true
  | .plog _ => true
  | .br _ => true
  | .call _ => true
  | .jr _ => true
  | .endProg _ => true
  | .fault _ => true
  | .srd _ => true
  | .lds _ => true
  | .sts _ => true
  | .ldw _ => true
  | .stw _ => true
  | .cpin _ => true
  | .cpout _ => true
  | .put _ => true
  | .get _ => true
  | .atom _ => true
  | .signal _ => true
  | .fence _ => true
  | .synadd _ => true
  | .synset _ => true
  | .synrd _ => true
  | .synwait _ => true
  | .wtrig _ => true
  | .rs _ => true
  | .ag _ => true
  | .ar _ => true
  | .rug _ => true
  | .a2a _ => true
  | .cx _ => true
  | .sto _ => true
  | .gstat _ => true
  | .fxlw _ => true
  | .fxcm _ => true
  | .fxpass _ => true
  | .armTrig _ => true
  | .disarmTrig _ => true
  | .synHostAdd _ _ => true
  | .triggerDelivery => true
  | .descriptorCreate _ => true
  | .createImageRead => true
  | .destroy _ => true
  | .cancel _ _ => true
  | .groupRunAdmit => true
  | .stoAdmit => true
  | .abortTmo _ => true
  | .collRetry => true
  | .sval _ m => msgOk m
  | .sfail _ m => msgOk m
  | .updateCommit _ => true
  | .updateSegment => true
  | .stageCommit _ => true
  | .foxDispatch => true
  | .foxIslandUp => true
  | .foxIdleOff => true
  | .schedGrant => true
  | .shaperRefill => true
  | .shaperWrite _ _ => true
  | .run => true
  | .nap => true
  | .hibernate => true
  | .napEntryDone => true
  | .hibernateEntryDone => true
  | .wakeAt => true
  | .wakeDone => true
  | .drowseEntry => true
  | .drowseExit => true
  | .tokenPeriod used => used.length ≤ 6
  | .autoDoze _ => true
  | .autoDormouse _ => true
  | .localLevel _ => true
  | .directiveApply => true
  | .rampForceOff => true
  | .faultEvent => true
  | .hhgPend _ => true
  | .selfCheck _ => true
  | .quietExpiry => true
  | .scrubWord _ w _ => w < 2 ^ 28
  | .initFillDone => true
  | .initFillTmo _ => true
  | .tier1 _ _ => true
  | .tier2 _ => true
  | .tier3 _ => true
  | .tier2LinksDrained => true
  | .linkDrainTmo _ => true
  | .tier3Complete => true
  | .fenceSw _ => true
  | .hostEn _ => true
  | .hostHb _ => true
  | .hostHbExpiry => true
  | .watchdog => true
  | .fwRestartDone => true
  | .mpuViolation _ => true
  | .hang _ => true
  | .captureHoldTmo => true
  | .release => true
  | .soloSlotEnd => true
  | .heldRelease _ _ => true
  | .ammFragment _ m => msgOk m
  | .challengeReq _ m => ammOk m
  | .sessionOpen _ m => ammOk m
  | .directive _ m => ammOk m
  | .attestReq _ m => ammOk m
  | .health _ m => ammOk m
  | .healthAck _ m => ammOk m
  | .congMap _ m => ammOk m
  | .config _ m => ammOk m
  | .pkeyWrite _ m => ammOk m
  | .routeWrite _ m => ammOk m
  | .routeCtrl _ m => ammOk m
  | .epochSet _ m => ammOk m
  | .policy _ m => ammOk m
  | .windowCreate _ m => ammOk m
  | .groupCreate _ m => ammOk m
  | .seal _ m => ammOk m
  | .credInstall _ m => ammOk m
  | .debugUnlock _ m => ammOk m
  | .returnService _ m => ammOk m
  | .minSvn _ m => ammOk m
  | .anchorRevoke _ m => ammOk m
  | .fwWrite _ m => ammOk m
  | .fwCheck _ m => ammOk m
  | .regRead _ m => ammOk m
  | .regWrite _ m => ammOk m
  | .timeCfg _ m => ammOk m
  | .steward _ m => ammOk m
  | .groveAdd _ m => ammOk m
  | .member _ m => ammOk m
  | .healthPeriod => true
  | .congPeriod => true
  | .memberSilent _ => true
  | .timeSync _ => true
  | .logEnable _ => true
  | .burrowRefresh _ => true
  | .sbWrite _ ws => ws.length ≤ 64
  | .sbRead _ _ => true
  | .sbStatus => true
  | .sbReadData _ n => n ≤ 64
  | .ammPut _ ws => ws.length ≤ 1024
  | .ammSend len => len < 2 ^ 13
  | .ammGet _ n => n ≤ 1024
  | .ammDone => true
  | .loadPut ofs ws => ofs < 2 ^ 24 && ws.length ≤ 114752
  | .loadStart => true
  | .sbBadFrame _ => true
  | .frameSlot _ => true
  | .symbolLockRegained _ => true
  | .refclkReturn => true
  | .herrNoError _ => true
  | .hmpCommandTransfer _ _ => true
  | .commitMarkerPassed => true
  | .flashEraseProgramDone _ => true

end Sys2Proof
end

