-- ==== Sys2Proof/Tests/Slice0.lean ====
section
/-! SUPPORT. Tests of the model: ill-formed commands are refused, single steps give what the worked examples of the spec
say, and for the statements with hypotheses there are states and operands that meet them. Each witness is a conjunction,
one part for each clause of the statement. Left without a witness here, since the kernel would compute for minutes: clauses
behind a verified ECDSA signature (image checks, the end of a key exchange, SESSION_OPEN), and clauses that need a full
table of 4,096 or more entries. -/
open Sys2Proof Sys2Proof.Machine
namespace Sys2Proof.Tests
set_option Elab.async false
/-- `TablesOk` as a Bool. -/
def tablesOkB (s : State) : Bool :=
  Tbl.wf resetWord s.regs && Tbl.wf (fun _ => ({} : Ctxt)) s.ctxs &&
  (s.ctxs.all fun e => Tbl.wf (fun _ => (0 : Dword)) e.2.g && Tbl.wf (fun _ => false) e.2.p) &&
  Tbl.wf (fun _ => ({} : Queue)) s.queues && Tbl.wf (fun _ => (0 : Byte)) s.mrt.scratch &&
  Tbl.wf (fun _ => (0 : BitVec 128)) s.mrt.imem && Tbl.wf (fun _ => (0 : Dword)) s.syn.objs &&
  Tbl.wf (fun _ => ({} : TrigEntry)) s.syn.trigs && Tbl.wf (fun _ => ({} : Win)) s.wins.tbl &&
  Tbl.wf (fun _ => ({} : Peer)) s.xpt.peers && Tbl.wf (fun _ => ({} : Group)) s.yar.groups &&
  Tbl.wf (fun _ => ({} : LinkPort)) s.links && (s.links.all fun e => Tbl.wf (fun _ => ({} : Credit)) e.2.credits) &&
  Tbl.wf (fun _ => resetTokens) s.sch.tokens && Tbl.wf (fun _ => (0 : Nat)) s.sch.rates &&
  (s.xpt.ops.all fun e => e.2.id = e.1) && (s.tgt.ops.all fun e => e.2.id = e.1)
/-- `TablesOk` from its Bool. -/
theorem tablesOk_of {s : State} (h : tablesOkB s = true) : TablesOk s := by
  simp only [tablesOkB, Bool.and_eq_true, List.all_eq_true, decide_eq_true_eq] at h
  obtain ⟨⟨⟨⟨⟨⟨⟨⟨⟨⟨⟨⟨⟨⟨⟨⟨h1, h2⟩, h3⟩, h4⟩, h5⟩, h6⟩, h7⟩, h8⟩, h9⟩, h10⟩, h11⟩, h12⟩, h13⟩, h14⟩, h15⟩, h16⟩, h17⟩ := h
  exact ⟨h1, h2, h3, h4, h5, h6, h7, h8, h9, h10, h11, h12, h13, h14, h15, h16, h17⟩
/-- A block in service: bring-up done, the fabric running. -/
def up : State :=
        ({ State.reset with pins := { State.reset.pins with porst := false, fcValid := true, trgReady := true, fltStopped := false }, bdg := { State.reset.bdg with boot := .done, running := [1] }, time := { units := ns 1000000, refclks := 200000 } } : State).wr CSP_STATUS.FC_RUN 1
/-- A tier in progress at a step. -/
def tr (n : Nat) (st : TierStep) : TierRun := { n := n, step := st }
/-- The block with a tier in progress. -/
def upT (n : Nat) (st : TierStep) : State := { up with bdg := { up.bdg with tier := some (tr n st) } }
/-- The same with the step's time over. -/
def upTm (n : Nat) (st : TierStep) : State := { up with bdg := { up.bdg with tier := some { tr n st with mark := some 0 } } }
/-- The block with an event waiting for a record. -/
def wait1 (c : Nat) : State := { up with hhg := { up.hhg with waiting := [⟨0x18, c, 1, 5, false⟩] } }
/-- A request at the Host Memory Port. -/
def rq (w : Bool) (a n : Nat) : HmpReq :=
        { write := w, addr := a, len := n, src := 4, bytes := [], strb := 0, xfer := 7, off := 0 }
/-- The block with one channel of the Host Memory Port. -/
def upCh (c : Nat) (h : HmpChan) : State := { up with hmp := { up.hmp with chans := [(c, h)] } }
/-- The block with a host write in progress. -/
def upXf (h : HmpChan) (left : Nat) : State :=
        { up with hmp := { up.hmp with chans := [(3, h)], xfers := [(7, { k := .hostWr 4, write := true, len := 128, got := [], left := left })] } }
/-- The block with one queue. -/
def upQ (v : Queue) : State := { up with queues := [(5, v)] }
/-- The bytes of a descriptor: opcode, format, length. -/
def pushB (op fmt len : Nat) : List Byte := (List.range 64).map fun i => if i = 0 then BitVec.ofNat 8 op else if i =
        62 then BitVec.ofNat 8 fmt else if i = 12 then BitVec.ofNat 8 len else 0
/-- A descriptor. -/
def dsc : Desc := { opcode := 0, format := 1, length := 8, index := 9 }
/-- The block with one trigger pending. -/
def upTrig (e : TrigEntry) : State :=
        { up with syn := { up.syn with trigs := [(2, { e with pending := true })], deliv := [2, 4] } }
/-- A packet before its CRC. -/
def pk0 (op : Nat) : Pkt :=
        { opcode := op, src := 5, tc := 4, stag := 7, rsp := 128 ≤ op, length := (match op with | 1 => 8 | 2 => 8 | 3 => 16 | 4 => 8 | 9 => 16 | 0x83 => 8 | 0x82 => 8 | _ => 0), payload := List.replicate (match op with | 1 => 8 | 3 => 16 | 4 => 8 | 9 => 16 | 0x83 => 8 | 0x82 => 8 | _ => 0) 1, life := up.life, tag := 9, w8 := op = 3, dest := up.node, pkey := if op = 0x8F then 0 else 6 }
/-- A packet. -/
def pk (op : Nat) : Pkt := (pk0 op).seal
/-- The block with one peer entry. -/
def upP (p : Peer) : State := { up with xpt := { up.xpt with peers := [(11, p)] } }
/-- A peer whose receiving half is valid. -/
def rx1 : Peer := { rxState := 1, rxStag := 7 }
/-- A response record. -/
def rec7 (op : Nat) (st : Option Nat) : RespRec :=
        { stream := 11, stag := 7, seq := 0, status := st, opcode := op, result := 44, created := 0 }
/-- The block with one outstanding packet. -/
def upE (e : OotEntry) : State :=
        { up with xpt := { up.xpt with oot := [(9, e)], ops := [(4, { id := 4, opcode := e.opcode, dest := 5, tc := 4, len := 8, ext := [(4096, 8)], out := 1, made := 8 })] } }
/-- An outstanding packet. -/
def ent (op : Nat) : OotEntry :=
        { state := 2, op := 4, peer := 5, tc := 4, opcode := op, seq := 3, stag := 7, attempt := 1, deadline := some 0, len := 8 }
/-- A response packet. -/
def rpk (op : Nat) : Pkt := { pk0 op with seq := 3 }.seal
/-- A block whose partition key table knows the key. -/
def keyed (s : State) : State :=
        (((s.wr (RTR_PKEY.VALID 3) 1).wr (RTR_PKEY.KEY 3) 6).wr (RTR_PKEY.PORTS 3) 0x800).wr (RTR_PKEY.LOCAL 3) 1
/-- The block with one packet in the router. -/
def upB (b : RtPkt) : State := keyed { up with rtr := { up.rtr with bufs := [b] } }
/-- A packet in transit. -/
def tb : RtPkt := { from_ := 11, pkt := { pk 4 with dest := 9 }.seal, since := 0 }
/-- A packet with its egress chosen. -/
def egr (late ent : Bool) : RtPkt := { tb with dir := some 3, egress := some 11, entering := ent, late := late }
/-- A link with credit. -/
def lnk11 : LinkPort := { credits := [(8, { limH := 100, limD := 4000 })], maxpkt := 0 }
/-- The block with packets in the router and a link that is UP. -/
def upG (l : List RtPkt) : State :=
        { (keyed { up with rtr := { up.rtr with bufs := l } }).wr (LNK_STATUS.STATE 11) 3 |>.wr (LNK_STATUS.VC_RUN 11) 0xFFFF with links := [(11, lnk11)] }
/-- The block with one valid window. -/
def winOk (s : State) : State :=
        { s with wins := { s.wins with tbl := [(0, { state := .valid, base := 4096, bound := 4096, wr := true, rd := true, at_ := true, pkey := 6 })] } }
/-- An instruction word. -/
def mw (op d a b c fn imm : Nat) : Nat := 2 ^ 120 * op + 2 ^ 111 * d + 2 ^ 106 * a + 2 ^ 101 * b + 2 ^ 96 * c + 2 ^ 80 * fn + imm
/-- A context that is ready. -/
def mc : Ctxt := { state := .ready, pc := 5, g := [(1, 7), (2, 0xFFFFFFFFFFFFFFFE), (3, 3)], p := [(1, true)] }
/-- The block with an instruction at the context's pc. -/
def mSc (w : Nat) (c : Ctxt) : State :=
        { (up.wr (MRT_CTX_CFG0.CODE_BASE 35) 4).wr (MRT_CTX_CFG1.CODE_LEN 35) 4 with mrt := { up.mrt with imem := [(5, BitVec.ofNat 128 w)] }, ctxs := [(35, c)] }
/-- The same for the usual context. -/
def mS (w : Nat) : State := mSc w mc
/-- The block with one link. -/
def ln (p ls st : Nat) (l : LinkPort) : State :=
        { (up.wr (LAN_PORT_STATUS.STATE p) ls).wr (LNK_STATUS.STATE p) st with links := [(p, l)] }
/-- The block with one lane port. -/
def lpo (p ls : Nat) (v : LanePort) : State :=
        { up.wr (LAN_PORT_STATUS.STATE p) ls with lanes := { up.lanes with ports := [(p, v)] } }
/-- Another lane port in a state. -/
def setLp (s : State) (p : Nat) (v : LanePort) : State := { s with lanes := { s.lanes with ports := [(p, v)] } }
/-- A transfer whose last data came. -/
def xf (k : Purpose) (bytes : List Byte) (st : Nat) : Xfer :=
        { k := k, write := false, len := bytes.length, got := [⟨0, bytes, st⟩], left := 0 }
/-- A state with its clock far on. -/
def late (s : State) : State := { s with time := { s.time with units := ns 1000000000000 } }
/-- A state with another instruction in the test access port. -/
def jt (s : State) : State := { s with pins := { s.pins with ir := 0x10 } }
/-- A port whose eight lanes are trained, with its link. -/
def trained (p : Nat) (l : LinkPort) (st : Nat) : State := let a :=
        { (up.wr (LAN_PORT_STATUS.STATE p) 6).wr (LNK_STATUS.STATE p) st with links := [(p, { l with txWidth := 8, rxWidth := 8 })], lanes := { up.lanes with ports := [(p, { txMask := 255, rxMask := 255 })] } };
      (lanesOf a p).foldl (fun t k => ((t.setLane k { t.lane k with aligned := true, txGen := 77 + k, rxGen := 77 + k }).wr (LAN_LANE_STATUS.LOGICAL k) (k % 8)).wr (LAN_LANE_STATUS.IN_USE k) 1) a
/-- A message of the link layer. -/
def lmsg (type : Nat) (body : List Byte) : List Byte := bypassMsg 1 type 1 body
/-- A training port as the far end sees it. -/
def farT : State := let a := lpo 4 5 { seed := 99, count := 0 };
      (lanesOf a 4).foldl (fun t k => (t.setLane k { t.lane k with aligned := true }).wr (LAN_LANE_STATUS.LOGICAL k) (k % 8)) a
/-- A frame on each of its lanes. -/
def tsF (type : Nat) : List CtlFrame := (List.range 8).map fun i => ⟨i, 100 + i, ctlFrame farT 4 i type⟩
/-- A state whose port 11 uses all of its lanes. -/
def used11 (s : State) : State := (lanesOf s 11).foldl (fun t k => t.wr (LAN_LANE_STATUS.IN_USE k) 1) s
/-- The image of a group descriptor. -/
def gimg (fl ph md sto arith : Nat) : List Byte := natLE 4 0xABCD ++ natLE 2 6 ++ natLE 1 fl ++ natLE 1 1 ++ natLE 2 ph ++
        natLE 1 md ++ natLE 1 sto ++ List.replicate 12 0 ++ natLE 8 arith ++ List.replicate 16 0 ++ natLE 1 4 ++ natLE 1 1 ++
        natLE 1 1 ++ natLE 1 0x43 ++ natLE 4 7 ++ natLE 4 5 ++ List.replicate 64 0
/-- A group. -/
def grp : Group := { state := 1, image := gimg 0 0xFFFF 0 0 0, issued := 10, ended := 10 }
/-- The block with one group. -/
def upY (g : Group) (y : Yarrow) : State := { up with yar := { y with groups := [(9, g)] } }
/-- A collective packet. -/
def cpk (op off : Nat) (pl : List Byte) : Pkt :=
        { pk0 op with pkey := 6, window := 9, offset := off, payload := pl, length := pl.length }
/-- A READY packet. -/
def rdy (n ga gc : Nat) (off : Nat) : Pkt := cpk 0x20 (n + off) (natLE 8 0xABCD ++ natLE 8 ga ++ natLE 8 gc)
/-- A step in progress. -/
def yst (ph len ga gc : Nat) : YStep :=
        { g := 9, step := 12, phase := ph, ctx := 35, be := 3, ga := ga, gb := 0, gc := gc, swin := 0, dwin := 0, len := len, since := 0 }
/-- A fragment of a message of the key exchange. -/
def fm (type egen i n : Nat) (d : List Byte) : List Byte := bypassMsg 1 type 3 (natLE 1 egen ++ natLE 1 (i + 16 * n) ++ d)
/-- A link with its exchange in progress. -/
def sgx (k : SealLink) : State :=
        (((ln 11 6 1 { farCap := some (bypassMsg 1 3 1 (natLE 6 0 ++ natLE 3 5 ++ natLE 1 4)) }).setSealLink 11 k).wr SEA_STATUS.RNG_OK 1).wr (SEA_LINK0.STATE 11) 1
/-- A state with an anchor. -/
def withAnchor (s : State) : State :=
        { s with sea := { s.sea with anchorKey := pubOf 17, fuses := { s.sea.fuses with anchor0 := List.replicate 48 3 } } }
/-- A group with the abort step. -/
def grpA : Group := { grp with image := (gimg 0 0xFFFF 0 7 0).take 50 ++ natLE 1 3 ++ (gimg 0 0xFFFF 0 7 0).drop 51 }
/-- A Stoat message. -/
def smsg (type step b6 b7 len st op : Nat) : List Byte := [2, BitVec.ofNat 8 type] ++ natLE 2 9 ++ natLE 2 step ++
        natLE 1 b6 ++ natLE 1 b7 ++ natLE 1 len ++ natLE 1 st ++ natLE 1 op ++ List.replicate 85 5
/-- The block with Stoat operations. -/
def upS (st : List StoOp) : State := upY grpA { stoats := st }
/-- The block with a Foxglove unit. -/
def upF (f : Fox) : State := { up with fox := f, build := { up.build with fox := true } }
/-- An entry of the Foxglove queue. -/
def fxe (k : FoxKind) (tiles slot len : Nat) : FoxEntry :=
        { id := 3, kind := k, ctx := 35, be := 4, tiles := tiles, slot := slot, len := len }
/-- A session. -/
def sess : Session := { number := 3, key := List.replicate 32 9 }
/-- A management message. -/
def amm (type flags : Nat) (body : List Byte) : List Byte := ammMake type flags 0 0 7 9 0xFFFFF [] body
/-- The plain text of a session command. -/
def cmdText (op : Nat) (args : List Byte) : List Byte := natLE 2 op ++ [0, 0] ++ args
/-- A text sealed under the session's key. -/
def sealed (aad text : List Byte) : List Byte := natLE 4 3 ++ natLE 8 5 ++ (gcmCrypt sess.key (sessionIv 3 5) text ++
        gcmTag sess.key (sessionIv 3 5) aad (gcmCrypt sess.key (sessionIv 3 5) text))
/-- The header of a session command. -/
def cmdHead (op : Nat) (args : List Byte) : List Byte := ammMake 0x14 1 0 0 7 9 0xFFFFF [] (List.replicate (32 + args.length) 0) |>.take 48
/-- A session command. -/
def cmdM (op : Nat) (args : List Byte) : List Byte := cmdHead op args ++ sealed (ammAad (cmdHead op args)) (cmdText op args)
/-- The state once the command has been opened. -/
def opened (s : State) (via op : Nat) (args : List Byte) : State := let n := noteCmd (takeInbox s via (cmdM op args)) 3 5;
        if op = 11 then extendCfg n (ascii "DEBUG-UNLOCK") else if 2 ≤ op ∧ op ≤ 15 then extendCfg n (cmdText op args) else n
/-- A state with the session open. -/
def upC (s : State) : State := { s with sea := { s.sea with sessions := [sess] } }
/-- A fragment of a management message. -/
def frag (type id idx : Nat) (d : List Byte) : List Byte := [3, BitVec.ofNat 8 type] ++ natLE 2 id ++ natLE 2 idx ++ [0, 0] ++ d
/-- A state with a message in parts. -/
def prt (s : State) (v : AmmPart) : State := { s with bdg := { s.bdg with parts := [(11, v)] } }
/-- A state that is a member of a grove. -/
def mem (s : State) : State :=
        { s.wr BDG_GROVE.MEMBER 1 with bdg := { s.bdg with healthPeriod := 10, congPeriod := 10, lastHealth := s.now, lastCong := s.now } }
/-- The image of a group that passes its checks. -/
def okImg : List Byte := natLE 4 0xABCD ++ natLE 2 6 ++ natLE 1 0 ++ natLE 1 1 ++ natLE 2 4 ++ natLE 1 0 ++ natLE 1 0 ++
        List.replicate 8 0 ++ natLE 2 0xFFFF ++ natLE 2 0xFFFF ++ natLE 8 0 ++ List.replicate 16 0 ++ natLE 1 1 ++ natLE 1 0 ++
        natLE 1 0 ++ natLE 1 0 ++ natLE 4 0xFFFFF ++ natLE 4 0xFFFFF ++ List.replicate 66 0 ++ [1, 0]
/-- A state with a configuration in its flash. -/
def cfgS (s : State) : State := let b : List Byte := natLE 4 0x43464757 ++ natLE 4 0;
        { s with burrow := { s.burrow with flash := ((List.range 12).zip (b ++ natLE 4 (crc32c b))).foldl (fun f x => f.set 0xFF (0x110000 + x.1) x.2) [] } }
/-- The levels of eight lanes that carry the flit of FSEQ 9 of `trained 11`. -/
def wireLevels : List (List Nat) := [1517681908155778636192722420018371681168674213359767244631760327762115663655600135, 6065672900492956992233338499054856665405528747858825325956625264635160186384809984, 6076179110261629900699644915474676317921563019962773557042400576806660571116077226, 1513984533314137663714885655882113741039094366434591581986960153753566270333124778, 6058315749315209304386744652025751075285348435520207734349392687038473450449534976, 6058694561325911627269894779079729043088988594106421032169272001967210779655536698, 6061546733070858508180762897901248323119341419096482877406001449445870801911808232, 1513656182455617644012347196657241817109904306774343013891300213784831701275377664].map fun n => (List.range 136).map fun i => n / 4 ^ i % 4

/-- A block of AES has 16 bytes. -/
theorem aes256_length {key : List Byte} (b : List Byte) (h : ((aesKeys key).getD 14 []).length = 16) :
    (aes256 key b).length = 16 := by
  simp [aes256, aesShift, -List.getD_eq_getElem?_getD, h]
/-- A little-endian number has the length asked for. -/
theorem natLE_length (n v : Nat) : (natLE n v).length = n := by
  induction n generalizing v with
  | zero => rfl
  | succ n ih => simp [natLE, ih]
/-- A tag has 16 bytes. -/
theorem gcmTag_length {key : List Byte} (iv aad t : List Byte) (h : ((aesKeys key).getD 14 []).length = 16) :
    (gcmTag key iv aad t).length = 16 := by
  simp [gcmTag, aes256_length _ h, natBE, natLE_length]
/-- The length of the key stream. -/
theorem stream_length {key : List Byte} (iv : List Byte) (n : Nat) (h : ((aesKeys key).getD 14 []).length = 16) :
    ((List.range n).flatMap fun i => aes256 key (iv ++ natBE 4 (i + 2))).length = n * 16 := by
  simp [List.length_flatMap, aes256_length _ h]
/-- Encryption keeps the length. -/
theorem gcmCrypt_length {key : List Byte} (iv t : List Byte) (h : ((aesKeys key).getD 14 []).length = 16) :
    (gcmCrypt key iv t).length = t.length := by
  simp only [gcmCrypt, List.length_zipWith, stream_length iv _ h]; omega
/-- XOR with the same stream twice gives the text back. -/
theorem zipWith_xor_twice (a b : List Byte) (h : a.length ≤ b.length) :
    List.zipWith (· ^^^ ·) (List.zipWith (· ^^^ ·) a b) b = a := by
  induction a generalizing b with
  | nil => simp
  | cons x t ih =>
    cases b with
    | nil => simp at h
    | cons y u => simp [ih u (by simpa using h)]
/-- Decryption is encryption once more. -/
theorem gcmCrypt_twice {key : List Byte} (iv t : List Byte) (h : ((aesKeys key).getD 14 []).length = 16) :
    gcmCrypt key iv (gcmCrypt key iv t) = t := by
  have e := gcmCrypt_length iv t h
  rw [gcmCrypt, e]
  exact zipWith_xor_twice _ _ (by rw [stream_length iv _ h]; omega)
/-- The session's key expands. -/
theorem sess_key : ((aesKeys sess.key).getD 14 []).length = 16 := by decide +kernel
/-- Sealing adds 28 bytes. -/
theorem sealed_length (aad text : List Byte) : (sealed aad text).length = 28 + text.length := by
  simp [sealed, natLE_length, gcmCrypt_length _ _ sess_key, gcmTag_length _ _ _ sess_key]; omega
/-- The fields in front of a sealed text. -/
theorem leAt_session (r : List Byte) : leAt (natLE 4 3 ++ natLE 8 5 ++ r) 0 4 = 3 ∧ leAt (natLE 4 3 ++ natLE 8 5 ++ r) 4 8 = 5 ∧
    (natLE 4 3 ++ natLE 8 5 ++ r).drop 12 = r := by
  simp [natLE, leAt, leNat]
/-- A sealed text opens under its session. -/
theorem openCmd_sealed (s : State) (aad text : List Byte) (k : Nat) (h : findSession s 3 = some { sess with slot := k }) :
    openCmd s aad (sealed aad text) = some ({ sess with slot := k }, 5, text) := by
  have hl := sealed_length aad text
  have h0 : leAt (sealed aad text) 0 4 = 3 := (leAt_session _).1
  have h1 : leAt (sealed aad text) 4 8 = 5 := (leAt_session _).2.1
  have hx := gcmCrypt_length (sessionIv 3 5) text sess_key
  have h2 : ((sealed aad text).drop 12).take ((sealed aad text).length - 28) = gcmCrypt sess.key (sessionIv 3 5) text := by
    have : (28 + text.length - 28) = (gcmCrypt sess.key (sessionIv 3 5) text).length := by omega
    rw [hl, this]
    have hd : (sealed aad text).drop 12 = gcmCrypt sess.key (sessionIv 3 5) text ++
        gcmTag sess.key (sessionIv 3 5) aad (gcmCrypt sess.key (sessionIv 3 5) text) := (leAt_session _).2.2
    rw [hd, List.take_left']
    rfl
  have h3 : (sealed aad text).drop ((sealed aad text).length - 16) =
        gcmTag sess.key (sessionIv 3 5) aad (gcmCrypt sess.key (sessionIv 3 5) text) := by
    rw [hl, sealed, ← List.append_assoc]
    apply List.drop_left'
    simp [natLE_length, hx]; omega
  have h4 : 28 ≤ (sealed aad text).length := by omega
  unfold openCmd
  simp only [h0, h1, h, h2, h3, gcmCrypt_twice _ _ sess_key]
  simp [h4, show sess.last = none from rfl]
/-- The header has 48 bytes. -/
theorem cmdHead_length (op : Nat) (args : List Byte) : (cmdHead op args).length = 48 := by
  simp [cmdHead, ammMake, natLE_length, routeBytes]; omega
/-- What the tag of a command covers. -/
theorem cmdM_aad (op : Nat) (args : List Byte) : ammAad (cmdM op args) = ammAad (cmdHead op args) := by
  have h := cmdHead_length op args
  rw [ammAad, ammAad, cmdM, List.take_append_of_le_length (by omega), List.drop_append_of_le_length (by omega),
    List.take_append_of_le_length (by simp; omega)]
/-- The body of a command. -/
theorem cmdM_body (op : Nat) (args : List Byte) (hl : leAt (cmdM op args) 16 2 = 80 + args.length) :
    ammBody (cmdM op args) = sealed (ammAad (cmdHead op args)) (cmdText op args) := by
  rw [ammBody, hl, cmdM, List.drop_left' (cmdHead_length op args)]
  apply List.take_of_length_le
  rw [sealed_length, cmdText]
  simp [natLE_length]; omega
/-- A command opens under its session. -/
theorem openCmd_cmd (s : State) (op : Nat) (args : List Byte) (hl : leAt (cmdM op args) 16 2 = 80 + args.length)
    (k : Nat) (h : findSession s 3 = some { sess with slot := k }) :
    openCmd s (ammAad (cmdM op args)) (ammBody (cmdM op args)) = some ({ sess with slot := k }, 5, cmdText op args) := by
  rw [cmdM_aad, cmdM_body op args hl, openCmd_sealed s _ _ k h]
/-- A command meets `Opens`. -/
theorem opens_cmd (s : State) (via op : Nat) (args : List Byte) (k : Nat) (h1 : ammType (cmdM op args) = 0x14) (h2 : fwUp s =
        true)
    (h3 : s.bdg.rspWait = none) (hl : leAt (cmdM op args) 16 2 = 80 + args.length)
    (h : findSession (takeInbox s via (cmdM op args)) 3 = some { sess with slot := k }) (ho : leAt (cmdText op args) 0 2 = op) :
    Opens s via (cmdM op args) op { sess with slot := k } 5 (opened s via op args) args :=
  ⟨h1, h2, h3, cmdText op args, _, openCmd_cmd _ op args hl k h, ho, rfl, rfl, rfl⟩
/-- A free response record exists if a number is unused. -/
theorem freeRec_isSome {s : State} {r : Nat} (hr : r < 32768) (h : (Tbl.find? s.xpt.recs r).isNone = true) :
    (freeRec s).isSome = true := by
  have hm : r ∈ (List.range 32768).filter fun r => (Tbl.find? s.xpt.recs r).isNone :=
    List.mem_filter.2 ⟨List.mem_range.2 hr, h⟩
  have hp := List.length_pos_of_mem hm
  have hl := Nat.mod_lt s.free hp
  unfold freeRec
  simp only [List.getElem?_eq_getElem hl, Option.isSome_some]
/-- A pair from an option that holds one. -/
theorem pair_ex {α β : Type} {m : Option (α × β)} (h : m.isSome = true) : ∃ a b, m = some (a, b) := by
  obtain ⟨x, hx⟩ := Option.isSome_iff_exists.1 h
  exact ⟨x.1, x.2, hx⟩
/-- A packet accepted and a record for it. -/
theorem accept_ex {m : Option State} (h : m.map (fun w => (Tbl.find? w.xpt.recs 0).isNone) = some true) :
    ∃ w r, m = some w ∧ freeRec w = some r := by
  cases m with
  | none => simp at h
  | some w =>
    obtain ⟨r, hr⟩ := Option.isSome_iff_exists.1 (freeRec_isSome (r := 0) (by decide) (by simpa using h))
    exact ⟨w, r, rfl, hr⟩


/-- Every check of `Instr.wf` on link layer and management messages refuses a term. -/
theorem test_wf_messages : ∀ i ∈ ([.probe 0 [], .echo 0 [], .cap 0 [], .verdict 0 [], .sleepReq 0 [], .sleepAck 0 [], .sleepNak 0 [], .wake 0 [],
    .widthReq 0 [], .widthAck 0 [], .widthNak 0 [], .sHello 0 [], .sCred 0 [], .sKex 0 [], .sFin 0 [], .sRekey 0 [],
    .sRekeyAck 0 [], .sFail 0 [], .sval 0 [], .sfail 0 [], .ammFragment 0 [], .challengeReq 0 (List.replicate 47 0),
    .sessionOpen 0 (List.replicate 47 0), .directive 0 (List.replicate 47 0), .attestReq 0 (List.replicate 47 0),
    .health 0 (List.replicate 47 0), .healthAck 0 (List.replicate 47 0), .congMap 0 (List.replicate 47 0),
    .config 0 (List.replicate 47 0), .pkeyWrite 0 (List.replicate 47 0), .routeWrite 0 (List.replicate 47 0),
    .routeCtrl 0 (List.replicate 47 0), .epochSet 0 (List.replicate 47 0), .policy 0 (List.replicate 47 0),
    .windowCreate 0 (List.replicate 47 0), .groupCreate 0 (List.replicate 47 0), .seal 0 (List.replicate 47 0),
    .credInstall 0 (List.replicate 47 0), .debugUnlock 0 (List.replicate 47 0), .returnService 0 (List.replicate 47 0),
    .minSvn 0 (List.replicate 47 0), .anchorRevoke 0 (List.replicate 47 0), .fwWrite 0 (List.replicate 47 0),
    .fwCheck 0 (List.replicate 47 0), .regRead 0 (List.replicate 47 0), .regWrite 0 (List.replicate 47 0),
    .timeCfg 0 (List.replicate 47 0), .steward 0 (List.replicate 47 0), .groveAdd 0 (List.replicate 47 0),
    .member 0 (List.replicate 47 0)] : List Instr), i.wf = false := by decide +kernel

/-- A packet row refuses a packet of another OPCODE. -/
theorem test_wf_rows : ∀ i ∈ ([.putPacket { opcode := 0x7F }, .getPacket { opcode := 0x7F }, .atomicPacket { opcode := 0x7F },
    .signalPacket { opcode := 0x7F }, .sync { opcode := 0x7F }, .notice { opcode := 0x7F }, .ready { opcode := 0x7F },
    .part { opcode := 0x7F }, .bcast { opcode := 0x7F }, .a2aPacket { opcode := 0x7F }, .count { opcode := 0x7F },
    .fail { opcode := 0x7F }, .abort { opcode := 0x7F }, .ack { opcode := 0x7F }, .data { opcode := 0x7F },
    .result { opcode := 0x7F }, .syncAck { opcode := 0x7F }, .resync { opcode := 0x7F }, .routerNak { opcode := 0x7F }] : List Instr), i.wf = false := by decide +kernel

/-- Each field of a packet has its bound. -/
theorem test_wf_packet : ∀ p ∈ ([{ dest := 2 ^ 20 }, { src := 2 ^ 20 }, { pkey := 2 ^ 16 }, { tc := 8 }, { opcode := 256 }, { fn := 32 },
    { length := 2 ^ 13 }, { window := 2 ^ 16 }, { offset := 2 ^ 48 }, { seq := 2 ^ 16 }, { stag := 2 ^ 24 },
    { ackedLow := 2 ^ 16 }, { tag := 2 ^ 15 }, { ctx := 512 }, { status := 256 }, { life := 256 }, { rsvd := 64 },
    { payload := List.replicate 4097 0 }, { crc := 2 ^ 32 }, { mark := 256 }, { words := 2 ^ 16 }] : List Pkt), p.wf = false := by decide +kernel

/-- The other checks refuse a term each. -/
theorem test_wf_refuses : ∀ i ∈ ([.hmpReadBeat 0 0 (List.replicate 127 0) 0 false, .oppPush 0 (List.replicate 63 0), .portOn 0 (List.replicate 9 0) none,
    .adaptDone 0 (List.replicate 9 0) [], .adaptDone 0 [] (List.replicate 9 0), .shortTraining 0 (List.replicate 9 0) [] [],
    .shortTraining 0 [] [⟨8, 0, List.replicate 34 0⟩] [], .shortTraining 0 [] [] [⟨0, 0, []⟩],
    .adaptStep 0 (List.replicate 9 0), .flitRx 0 (List.replicate 9 []), .flitRx 0 [[4]],
    .widthSwitch 0 true none (List.replicate 9 0), .tokenPeriod (List.replicate 7 0), .scrubWord 0 (2 ^ 28) 0,
    .sbWrite 0 (List.replicate 65 0), .sbReadData 0 65, .ammPut 0 (List.replicate 1025 0), .ammSend (2 ^ 13), .ammGet 0 1025,
    .loadPut (2 ^ 24) [], .ts1 0 [⟨8, 0, List.replicate 34 0⟩], .ts1 0 [⟨0, 0, List.replicate 33 0⟩],
    .ts2 0 [⟨8, 0, List.replicate 34 0⟩], .ts2 0 [⟨0, 0, List.replicate 33 0⟩], .ei 0 [⟨8, 0, List.replicate 34 0⟩],
    .ei 0 [⟨0, 0, List.replicate 33 0⟩], .dx 0 [⟨8, 0, List.replicate 34 0⟩], .dx 0 [⟨0, 0, List.replicate 33 0⟩]] : List Instr), i.wf = false := by decide +kernel

/-- Well-formed commands of the rows that have checks. -/
theorem test_wf_accepts : ∀ i ∈ ([.probe 0 (List.replicate 32 0), .echo 0 (List.replicate 32 0), .cap 0 (List.replicate 32 0),
    .verdict 0 (List.replicate 32 0), .sleepReq 0 (List.replicate 32 0), .sleepAck 0 (List.replicate 32 0),
    .sleepNak 0 (List.replicate 32 0), .wake 0 (List.replicate 32 0), .widthReq 0 (List.replicate 32 0),
    .widthAck 0 (List.replicate 32 0), .widthNak 0 (List.replicate 32 0), .sHello 0 (List.replicate 32 0),
    .sCred 0 (List.replicate 32 0), .sKex 0 (List.replicate 32 0), .sFin 0 (List.replicate 32 0),
    .sRekey 0 (List.replicate 32 0), .sRekeyAck 0 (List.replicate 32 0), .sFail 0 (List.replicate 32 0),
    .putPacket { opcode := 0x01 }, .getPacket { opcode := 0x02 }, .atomicPacket { opcode := 0x03 },
    .signalPacket { opcode := 0x04 }, .sync { opcode := 0x08 }, .notice { opcode := 0x09 }, .ready { opcode := 0x20 },
    .part { opcode := 0x21 }, .bcast { opcode := 0x22 }, .a2aPacket { opcode := 0x23 }, .count { opcode := 0x24 },
    .fail { opcode := 0x25 }, .abort { opcode := 0x26 }, .ack { opcode := 0x81 }, .data { opcode := 0x82 },
    .result { opcode := 0x83 }, .syncAck { opcode := 0x88 }, .resync { opcode := 0x8A }, .routerNak { opcode := 0x8F },
    .sval 0 (List.replicate 32 0), .sfail 0 (List.replicate 32 0), .ammFragment 0 (List.replicate 32 0),
    .challengeReq 0 (List.replicate 48 0), .sessionOpen 0 (List.replicate 48 0), .directive 0 (List.replicate 48 0),
    .attestReq 0 (List.replicate 48 0), .health 0 (List.replicate 48 0), .healthAck 0 (List.replicate 48 0),
    .congMap 0 (List.replicate 48 0), .config 0 (List.replicate 48 0), .pkeyWrite 0 (List.replicate 48 0),
    .routeWrite 0 (List.replicate 48 0), .routeCtrl 0 (List.replicate 48 0), .epochSet 0 (List.replicate 48 0),
    .policy 0 (List.replicate 48 0), .windowCreate 0 (List.replicate 48 0), .groupCreate 0 (List.replicate 48 0),
    .seal 0 (List.replicate 48 0), .credInstall 0 (List.replicate 48 0), .debugUnlock 0 (List.replicate 48 0),
    .returnService 0 (List.replicate 48 0), .minSvn 0 (List.replicate 48 0), .anchorRevoke 0 (List.replicate 48 0),
    .fwWrite 0 (List.replicate 48 0), .fwCheck 0 (List.replicate 48 0), .regRead 0 (List.replicate 48 0),
    .regWrite 0 (List.replicate 48 0), .timeCfg 0 (List.replicate 48 0), .steward 0 (List.replicate 48 0),
    .groveAdd 0 (List.replicate 48 0), .member 0 (List.replicate 48 0)] : List Instr), i.wf = true := by decide +kernel

/-- The state that an outcome goes on in. -/
def nextOf (o : Host.Outcome State Fault Refusal) : State := match o with | .next t => t | _ => State.reset

/-- The channel of an address: the cycle example of spec/03_host_ports.md puts both addresses on channel 3. -/
theorem test_channel : hmpChanOf 20 0x2A000E00 = 3 ∧ hmpChanOf 20 0x2A003600 = 3 := by decide

/-- A PUT of 4,096 bytes occupies 517 words (spec/07_transport.md). -/
theorem test_words : ({ opcode := 1, length := 4096 } : Pkt).wordCount = 517 := by decide

/-- The check value of the Castagnoli CRC over the digits 1 to 9, as published for the polynomial of R177. -/
theorem test_crc32c : crc32c [0x31, 0x32, 0x33, 0x34, 0x35, 0x36, 0x37, 0x38, 0x39] = 0xE3069283 := by decide +kernel

/-- The word that spec/09_marten_isa.md gives for add g2, g2, 0x10_0000. -/
theorem test_add : ((nextOf (exec (.add 35) (mS 0x02010800000100000000000000100000))).ctx 35).gr 2 = 0xFFFFE := by
  decide +kernel

/-- The word that spec/09_marten_isa.md gives for (p1) br to 0x0104. -/
theorem test_br : ((nextOf (exec (.br 35) (mS 0x20100000000000000000000000000104))).ctx 35).pc = 0x104 := by decide +kernel

/-- The contributions of the worked example of spec/12_reduction_arithmetic.md as EXACT partials. -/
theorem test_exact : [0x4C00, 0x3F80, 0x3580, 0xCC00].map (fun b => (convertExact (-16) ((elemOf 1).decode b)).1.bits.1) =
    [0x20000000000, 0x10000, 0, 0xFFFFFE0000000000] := by decide +kernel

/-- The same example in FAST: rank 3's partial, and the two orders at rank 0. -/
theorem test_fast : addOdd 0xCC000000 0x35800000 = 0xCBFFFFFF ∧ addOdd 0x4C000000 0x3F800000 = 0x4C000001 ∧
    addOdd 0x4C000000 0xCBFFFFFF = 0x40000000 := by decide +kernel

/-- The example of R618 in spec/18_reset_and_recovery.md: the window of 24 hours is half-open. -/
theorem test_day : (judgeReset (putStamps up 10000000000000 50000000000000) 96399999999999).rd BDG_STATUS.OUT_OF_SERVICE = 1 ∧
    (let t := judgeReset (putStamps up 10000000000000 50000000000000) 96400000000000
     t.rd BDG_STATUS.OUT_OF_SERVICE = 0 ∧ stampAt t 0 = 50000000000000 ∧ stampAt t 2 = 96400000000000) := by decide +kernel

/-- No word spells a command: the table gives its rows no bits. -/
theorem test_no_word : decodeTableWord 32 5 = none ∧ State.reset.withFetchWord 32 5 = State.reset := by decide +kernel

/-- A queue that meets the hypothesis of `Obligations.StepRunsFront`. -/
theorem witness_StepRunsFront : ∃ rest, ({ up with pending := [.run, .rngFail] } : State).pending = .run :: rest := ⟨_, rfl⟩

/-- States that meet the hypotheses of `Obligations.StepAlwaysAnswers`. -/
theorem witness_StepAlwaysAnswers : up.pending = [] ∧ up.pins.porst = false ∧ up.time.ref = true ∧
    State.reset.pending = [] ∧ State.reset.pins.porst = true := by decide +kernel

/-- A state and a step that meet the hypotheses of `Obligations.TablesOkStep`. -/
theorem witness_TablesOkStep : TablesOk (mS 1) ∧ ∃ t, step (mS 1) = .next t := ⟨tablesOk_of (by decide +kernel), _, rfl⟩

/-- A command that meets the hypothesis of `Obligations.QueueKept`. -/
theorem witness_QueueKept : ∃ t, exec .run up = .next t := ⟨_, rfl⟩

/-- A command that meets the hypothesis of the frames of `Obligations.UnitFrames`. -/
theorem witness_UnitFrames : ∃ t, exec .foxIdleOff up = .next t := ⟨_, rfl⟩

/-- A state that meets the hypothesis of `Obligations.FabricClosed`. -/
theorem witness_FabricClosed : State.reset.fabricOpen = false := by decide +kernel

/-- An instruction that meets the hypotheses of `Obligations.MartenFrames`. -/
theorem witness_MartenFrames : TablesOk (mS 0x02010800000100000000000000100000) ∧
    (∃ x ∈ martenOps, x.2 = 2) ∧ ∃ t, exec (.add 35) (mS 0x02010800000100000000000000100000) = .next t :=
  ⟨tablesOk_of (by decide +kernel), ⟨(.add, 2), by simp [martenOps], rfl⟩, _, rfl⟩


/-- States and operands that meet the hypotheses of `Obligations.QueueCommands` for an OPEN that succeeds: the driver names the
ABI of the loaded firmware, whatever it is. -/
theorem witness_QueueCommands_open : let s : State := upQ { push := true, driverAbi := Config.firmwareAbi }
    TablesOk s ∧ s.fabricOpen = true ∧ s.on BDG_STATUS.FW_RESTART = false ∧ openStatus s (s.queue 5) = stOK := by
  have a : up.initDone = true := by decide +kernel
  have b : up.fenced = false := by decide +kernel
  refine ⟨?_, by decide +kernel, by decide +kernel, ?_⟩
  · have h := tablesOk_of (s := upQ { push := true }) (by decide +kernel)
    refine { h with queues := ?_ }
    have e : ({ push := true, driverAbi := Config.firmwareAbi } : Queue) ≠ {} := fun x => by
      have := congrArg Queue.push x; simp at this
    simp [Tbl.wf, Tbl.wfFrom, upQ, e]
  · have q : (upQ { push := true, driverAbi := Config.firmwareAbi }).queue 5 = { push := true, driverAbi := Config.firmwareAbi } := rfl
    simp only [openStatus, q]
    rw [show (upQ { push := true, driverAbi := Config.firmwareAbi }).initDone = true from a,
      show (upQ { push := true, driverAbi := Config.firmwareAbi }).fenced = false from b]
    simp [Queue.isClosed]


/-- States and operands that meet the hypotheses of `Obligations.PinResets`. -/
theorem witness_PinResets :
    (let s : State := State.reset; (s.pins.porst = true)) ∧
    (let s : State := State.reset; (s.pins.porst = true)) ∧
    (let s : State := State.reset; (s.pins.porst = true)) ∧
    (let s : State := State.reset; (s.pins.porst = true)) ∧
    (let s : State := { up with bdg := { up.bdg with boot := .image } }; (s.bdg.boot = .image) ∧ (goodCopy s = none)) ∧
    (let s : State := up; (s.pins.hrst = false) ∧ (s.pins.porst = false) ∧ (s.bdg.boot = .done) ∧
      (s.on BDG_STATUS.OUT_OF_SERVICE = false) ∧ (s.power ≤ 1)) ∧
    (let s : State := up; (s.bdg.tier = none)) ∧
    (let s : State := { (upT 3 .hrst) with pins := { up.pins with hrst := true } }; ∃ r, (s.bdg.tier = some r) ∧ (r.n = 3) ∧
      (r.step = .hrst) ∧ (s.on CSP_STATUS.FC_RUN = true)) :=
  ⟨by decide +kernel,
   by decide +kernel,
   by decide +kernel,
   by decide +kernel,
   by decide +kernel,
   by decide +kernel,
   by decide +kernel,
   ⟨(Option.get (({ (upT 3 .hrst) with pins := { up.pins with hrst := true } } : State).bdg.tier) (by decide +kernel)),
      (Option.some_get _).symm, by decide +kernel⟩⟩

/-- States and operands that meet the hypotheses of `Obligations.PinResets` (TestPort). -/
theorem witness_TestPort :
    (let s : State := up; (s.pins.testFence = false)) ∧
    (let s : State := up; (s.pins.testFence = false)) ∧
    (let s : State := { up with pins := { up.pins with porst := true } }; (s.pins.testFence = false)) ∧
    (let s : State := up; let code : Byte := 0xFF#8; (s.pins.testFence = false) ∧
      (code.toNat ∉ [0x00, 0x01, 0x02, 0x04, 0x05, 0x10])) ∧
    (let s : State := up; let code : Byte := 0x03#8; (s.pins.testFence = false) ∧
      (code.toNat ∉ [0x00, 0x01, 0x02, 0x04, 0x05, 0x10])) ∧
    (let s : State := up; (s.pins.testFence = false)) ∧
    (let s : State := up; (s.pins.testFence = false)) ∧
    (let s : State := up; (s.pins.testFence = false)) ∧
    (let s : State := up; (s.pins.testFence = false)) ∧
    (let s : State := { up with pins := { up.pins with ir := 0x00, testFence := true, preload := 0x155555555555 } };
      let x := Pin.flIo 3; let c := (Pin.flIo 3).cell.getD 99; (s.pins.porst = false) ∧ (s.jtag = .extest ∨ s.jtag = .clamp) ∧
      (x.board = true) ∧ (x.cell = some c)) ∧
    (let s : State := { up with pins := { up.pins with ir := 0x04, testFence := true, preload := 0x155555555555 } };
      let x := Pin.flCsN; let c := (Pin.flCsN).cell.getD 99; (s.pins.porst = false) ∧ (s.jtag = .extest ∨ s.jtag = .clamp) ∧
      (x.board = true) ∧ (x.cell = some c)) ∧
    (let s : State := { up with pins := { up.pins with ir := 0x05, testFence := true } }; let x := Pin.flSck;
      (s.pins.porst = false) ∧ (s.jtag = .highz) ∧ (x.board = true)) :=
  ⟨by decide +kernel,
   by decide +kernel,
   by decide +kernel,
   by decide +kernel,
   by decide +kernel,
   by decide +kernel,
   by decide +kernel,
   by decide +kernel,
   by decide +kernel,
   by decide +kernel,
   by decide +kernel,
   by decide +kernel⟩

/-- States and operands that meet the hypotheses of `Obligations.PinResets` (TestPort). -/
theorem witness_TestPort_2 :
    (let s : State := State.reset; (s.pins.porst = true)) ∧
    (let s : State := up; (s.pins.testFence = false)) ∧
    (let s : State := { up with sea := { up.sea with fuses := { up.sea.fuses with debugLock := true } } };
      (s.pins.testFence = false)) :=
  ⟨by decide +kernel,
   by decide +kernel,
   by decide +kernel⟩

/-- States and operands that meet the hypotheses of `Obligations.PinMonitors`. -/
theorem witness_PinMonitors :
    (let s : State := up; (s.pins.porst = false) ∧ (s.time.ref = true)) ∧
    (let s : State := { up with time := { up.time with ref := false } }; (s.time.ref = false)) ∧
    (let s : State := up; let rail : Fin 4 := 1; (s.pins.porst = false) ∧ ((rail.val < 2 ∨ ∃ p ∈ portsOf s, s.laneState p ≠ 0))) ∧
    (let s : State := up.wr (LAN_PORT_STATUS.STATE 11) 6; let rail : Fin 4 := 3; (s.pins.porst = false) ∧
      ((rail.val < 2 ∨ ∃ p ∈ portsOf s, s.laneState p ≠ 0))) ∧
    (let s : State := { up with csp := { up.csp with pllEnd := some up.now } }; (s.due s.csp.pllEnd = true)) ∧
    (let s : State := { up with csp := { up.csp with pllEnd := some up.now, pllFails := 2 } }; (s.due s.csp.pllEnd = true)) ∧
    (let s : State := { up with csp := { up.csp with pllEnd := some (up.now + 1) } }; ∃ e, (s.csp.pllEnd = some e) ∧
      (s.now < e) ∧ (s.bdg.tier = none) ∧ (s.bdg.boot = .done) ∧ (s.csp.leaving ≠ some 3)) ∧
    (let s : State := up; (s.pins.porst = false) ∧ (s.pins.fltStopped = false) ∧ (s.pins.fltLast + 32 ≤ s.acs)) :=
  ⟨by decide +kernel,
   by decide +kernel,
   by decide +kernel,
   by decide +kernel,
   by decide +kernel,
   by decide +kernel,
   ⟨(Option.get (({ up with csp := { up.csp with pllEnd := some (up.now + 1) } } : State).csp.pllEnd) (by decide +kernel)),
      (Option.some_get _).symm, by decide +kernel⟩,
   by decide +kernel⟩

/-- States and operands that meet the hypotheses of `Obligations.WireFaults`. -/
theorem witness_WireFaults :
    (let s : State := up; let pair : Fin 27 := 26; (s.pins.wireFaults.contains pair.val = false)) ∧
    (let s : State := { up with pins := { up.pins with wireFaults := [0, 26] } }; let pair : Fin 27 := 26;
      (s.pins.wireFaults.contains pair.val = true)) :=
  ⟨by decide +kernel,
   by decide +kernel⟩

/-- States and operands that meet the hypotheses of `Obligations.TierRequests`. -/
theorem witness_TierRequests :
    (let s : State := up; (TablesOk s) ∧ (s.fabricOpen = true)) ∧
    (let s : State := up; let e : Fin 256 := 15; (TablesOk s) ∧ (e.val < 16) ∧ (tierRefused s 1 e = none)) ∧
    (let s : State := up; let e : Fin 256 := 0; (TablesOk s) ∧ (e.val < 16) ∧ (tierRefused s 1 e = none)) ∧
    (let s : State := up.wr BDG_CAP_CFG.HOLD 1; let e : Fin 256 := 15; (TablesOk s) ∧ (tierRefused s 1 e = none) ∧
      (s.rd BDG_CAP_CFG.HOLD ≠ 0)) ∧
    (let s : State := up; (tierRefused s 2 0 = none) ∧ (s.hhg.fillBad = false)) ∧
    (let s : State := up.wr BDG_CAP_CFG.HOLD 1; (TablesOk s) ∧ (tierRefused s 2 0 = none) ∧ (s.hhg.fillBad = false) ∧
      (s.rd BDG_CAP_CFG.HOLD ≠ 0)) ∧
    (let s : State := up; (TablesOk s) ∧ (tierRefused s 3 0 = none) ∧ (s.power ≤ 1)) ∧
    (let s : State := up.wr CSP_STATUS.STATE 1; (TablesOk s) ∧ (tierRefused s 3 0 = none) ∧ (s.power ≤ 1)) ∧
    (let s : State := up.wr CSP_STATUS.STATE 2; (TablesOk s) ∧ (tierRefused s 3 0 = none) ∧ (s.power = 2 ∨ s.power = 3)) ∧
    (let s : State := up.wr CSP_STATUS.STATE 3; (TablesOk s) ∧ (tierRefused s 3 0 = none) ∧ (s.power = 2 ∨ s.power = 3)) :=
  ⟨⟨tablesOk_of (by decide +kernel), by decide +kernel⟩,
   ⟨tablesOk_of (by decide +kernel), by decide +kernel⟩,
   ⟨tablesOk_of (by decide +kernel), by decide +kernel⟩,
   ⟨tablesOk_of (by decide +kernel), by decide +kernel⟩,
   by decide +kernel,
   ⟨tablesOk_of (by decide +kernel), by decide +kernel⟩,
   ⟨tablesOk_of (by decide +kernel), by decide +kernel⟩,
   ⟨tablesOk_of (by decide +kernel), by decide +kernel⟩,
   ⟨tablesOk_of (by decide +kernel), by decide +kernel⟩,
   ⟨tablesOk_of (by decide +kernel), by decide +kernel⟩⟩

/-- States and operands that meet the hypotheses of `Obligations.TierRequests` (TierRefused). -/
theorem witness_TierRefused :
    (let s : State := up; let e : Fin 256 := 200; ∃ st, (tierRefused s 1 e = some st)) ∧
    (let s : State := up.wr BDG_STATUS.FW_RESTART 1; let e : Fin 256 := 3; ∃ st, (tierRefused s 1 e = some st)) ∧
    (let s : State := up.wr CSP_STATUS.STATE 2; let e : Fin 256 := 3; ∃ st, (tierRefused s 1 e = some st)) ∧
    (let s : State := up; let e : Fin 256 := 45; ∃ st, (tierRefused s 1 e = some st)) ∧
    (let s : State := up.wr HHG_STATUS.STATE 2; ∃ st, (tierRefused s 2 0 = some st) ∧ (s.hhg.fillBad = false)) ∧
    (let s : State := upT 2 .fill; ∃ st, (tierRefused s 2 0 = some st) ∧ (s.hhg.fillBad = false)) ∧
    (let s : State := up.wr BDG_STATUS.OUT_OF_SERVICE 1; ∃ st, (tierRefused s 3 0 = some st)) ∧
    (let s : State := upT 3 .train; ∃ st, (tierRefused s 3 0 = some st)) :=
  ⟨⟨(Option.get (tierRefused (up : State) 1 (200 : Fin 256)) (by decide +kernel)), (Option.some_get _).symm⟩,
   ⟨(Option.get (tierRefused (up.wr BDG_STATUS.FW_RESTART 1 : State) 1 (3 : Fin 256)) (by decide +kernel)),
      (Option.some_get _).symm⟩,
   ⟨(Option.get (tierRefused (up.wr CSP_STATUS.STATE 2 : State) 1 (3 : Fin 256)) (by decide +kernel)), (Option.some_get _).symm⟩,
   ⟨(Option.get (tierRefused (up : State) 1 (45 : Fin 256)) (by decide +kernel)), (Option.some_get _).symm⟩,
   ⟨(Option.get (tierRefused (up.wr HHG_STATUS.STATE 2 : State) 2 0) (by decide +kernel)), (Option.some_get _).symm,
      by decide +kernel⟩,
   ⟨(Option.get (tierRefused (upT 2 .fill : State) 2 0) (by decide +kernel)), (Option.some_get _).symm, by decide +kernel⟩,
   ⟨(Option.get (tierRefused (up.wr BDG_STATUS.OUT_OF_SERVICE 1 : State) 3 0) (by decide +kernel)), (Option.some_get _).symm⟩,
   ⟨(Option.get (tierRefused (upT 3 .train : State) 3 0) (by decide +kernel)), (Option.some_get _).symm⟩⟩

/-- States and operands that meet the hypotheses of `Obligations.TierSteps`. -/
theorem witness_TierSteps :
    (let s : State := let a := upT 3 .quiesce;
        { a with hmp := { a.hmp with quiesce := true }, pins := { a.pins with hrst := true } };
      ∃ r, (s.bdg.tier = some r) ∧ (s.hmp.quiesce = true) ∧ (s.quiesceDone = true) ∧ (r.n = 3) ∧ (r.step = .quiesce) ∧
      (s.pins.hrst = true)) ∧
    (let s : State := { up with hmp := { up.hmp with quiesce := true }, pins := { up.pins with testFence := true } };
      (s.hmp.quiesce = true) ∧ (s.quiesceDone = true) ∧ (s.bdg.tier = none) ∧ (s.pins.testFence = true)) ∧
    (let s : State := let a := upT 2 .quiesce; { a with hmp := { a.hmp with quiesce := true } }; ∃ r, (s.bdg.tier = some r) ∧
      (s.hmp.quiesce = true) ∧ (s.quiesceDone = true) ∧ (r.n = 2) ∧ (r.step = .quiesce) ∧ (r.mark = none)) ∧
    (let s : State := upTm 2 .quiesce; ∃ r, (s.bdg.tier = some r) ∧ (r.n = 2) ∧ (r.step = .quiesce) ∧ (s.quiesceDone = true) ∧
      ((List.range 12).all (linkDrained s) = true)) ∧
    (let s : State := { upTm 2 .quiesce with ctxs := [(3, { pc := 4 })], queues := [(7, { state := .opened })] }; ∃ r,
      (s.bdg.tier = some r) ∧ (r.n = 2) ∧ (r.step = .quiesce) ∧ (s.quiesceDone = true) ∧
      ((List.range 12).all (linkDrained s) = true)) ∧
    (let s : State := { ((upTm 2 .quiesce).wr (LNK_STATUS.STATE 11) 3) with links := [(11, { txNext := 5 })] };
      let p : Port := 11; ∃ r, (TablesOk s) ∧ (s.bdg.tier = some r) ∧ (r.n = 2) ∧ (r.step = .quiesce) ∧ (s.due r.mark = true) ∧
      (linkDrained s p = false)) ∧
    (let s : State := (upTm 3 .train).wr (LAN_PORT_CFG.OFF 3) 1 |>.wr (LAN_PORT_CFG.OFF 0) 1; ∃ r, (s.bdg.tier = some r) ∧
      (r.n = 3) ∧ (r.step = .train) ∧
      (((List.range 12).filter fun p => s.portPresent p && s.rd (LAN_PORT_CFG.OFF p) = 0).all (portSettled s (r.mark.getD 0)) =
        true)) ∧
    (let s : State := (List.range 12).foldl (fun s p => s.wr (LNK_STATUS.STATE p) 3) (upTm 3 .train); ∃ r,
      (s.bdg.tier = some r) ∧ (r.n = 3) ∧ (r.step = .train) ∧
      (((List.range 12).filter fun p => s.portPresent p && s.rd (LAN_PORT_CFG.OFF p) = 0).all (portSettled s (r.mark.getD 0)) =
        true)) ∧
    (let s : State := upTm 2 .hold; ∃ r, (s.bdg.tier = some r) ∧ (r.n = 2) ∧ (r.step = .hold) ∧ (s.due r.mark = true)) ∧
    (let s : State := upT 2 .hold; ∃ r, (s.bdg.tier = some r) ∧ (r.n = 2) ∧ (r.step = .hold)) ∧
    (let s : State := { (up.wr HHG_INIT.BUSY 1) with bdg := { up.bdg with boot := .bringup } }; (TablesOk s) ∧
      (s.on HHG_INIT.BUSY = true) ∧ (s.hhg.fillBad = false) ∧ (s.bdg.tier = none) ∧ (s.bdg.boot = .bringup)) ∧
    (let s : State := (upT 2 .fill).wr HHG_INIT.BUSY 1; ∃ r, (s.bdg.tier = some r) ∧ (s.on HHG_INIT.BUSY = true) ∧
      (s.hhg.fillBad = false) ∧ (r.n = 2) ∧ (r.step = .fill)) :=
  ⟨⟨(Option.get ((let a := upT 3 .quiesce;
        { a with hmp := { a.hmp with quiesce := true }, pins := { a.pins with hrst := true } } : State).bdg.tier) (by decide +kernel)),
      (Option.some_get _).symm, by decide +kernel⟩,
   by decide +kernel,
   ⟨(Option.get ((let a := upT 2 .quiesce;
        { a with hmp := { a.hmp with quiesce := true } } : State).bdg.tier) (by decide +kernel)),
      (Option.some_get _).symm, by decide +kernel⟩,
   ⟨(Option.get ((upTm 2 .quiesce : State).bdg.tier) (by decide +kernel)), (Option.some_get _).symm, by decide +kernel⟩,
   ⟨(Option.get (({ upTm 2 .quiesce with ctxs := [(3, { pc := 4 })], queues := [(7, { state := .opened })] } : State).bdg.tier) (by decide +kernel)),
      (Option.some_get _).symm, by decide +kernel⟩,
   ⟨(Option.get (({ ((upTm 2 .quiesce).wr (LNK_STATUS.STATE 11) 3) with links := [(11, { txNext := 5 })] } : State).bdg.tier) (by decide +kernel)),
      tablesOk_of (by decide +kernel), (Option.some_get _).symm, by decide +kernel⟩,
   ⟨(Option.get (((upTm 3 .train).wr (LAN_PORT_CFG.OFF 3) 1 |>.wr (LAN_PORT_CFG.OFF 0) 1 : State).bdg.tier) (by decide +kernel)),
      (Option.some_get _).symm, by decide +kernel⟩,
   ⟨(Option.get (((List.range 12).foldl (fun s p => s.wr (LNK_STATUS.STATE p) 3) (upTm 3 .train) : State).bdg.tier) (by decide +kernel)),
      (Option.some_get _).symm, by decide +kernel⟩,
   ⟨(Option.get ((upTm 2 .hold : State).bdg.tier) (by decide +kernel)), (Option.some_get _).symm, by decide +kernel⟩,
   ⟨(Option.get ((upT 2 .hold : State).bdg.tier) (by decide +kernel)), (Option.some_get _).symm, by decide +kernel⟩,
   ⟨tablesOk_of (by decide +kernel), by decide +kernel⟩,
   ⟨(Option.get (((upT 2 .fill).wr HHG_INIT.BUSY 1 : State).bdg.tier) (by decide +kernel)), (Option.some_get _).symm,
      by decide +kernel⟩⟩

/-- States and operands that meet the hypotheses of `Obligations.TierSteps`. -/
theorem witness_TierSteps_2 :
    (let s : State := up.wr HHG_INIT.BUSY 1; (s.on HHG_INIT.BUSY = true) ∧ (s.hhg.fillStart + ns 200000 ≤ s.now)) ∧
    (let s : State := up.wr HHG_INIT.BUSY 1; (s.on HHG_INIT.BUSY = true) ∧ (s.hhg.fillStart + ns 200000 ≤ s.now)) :=
  ⟨by decide +kernel,
   by decide +kernel⟩

/-- States and operands that meet the hypotheses of `Obligations.FenceAndWatches`. -/
theorem witness_FenceAndWatches :
    (let s : State := up; (TablesOk s)) :=
  tablesOk_of (by decide +kernel)

/-- States and operands that meet the hypotheses of `Obligations.FenceAndWatches`. -/
theorem witness_FenceAndWatches_2 :
    (let s : State := up.wr BDG_FENCE.SW 1; (TablesOk s)) :=
  tablesOk_of (by decide +kernel)

/-- States and operands that meet the hypotheses of `Obligations.FenceAndWatches`. -/
theorem witness_FenceAndWatches_3 :
    (let s : State := up; (TablesOk s)) :=
  tablesOk_of (by decide +kernel)

/-- States and operands that meet the hypotheses of `Obligations.FenceAndWatches`. -/
theorem witness_FenceAndWatches_4 :
    (let s : State := ((up.wr BDG_FENCE.HB 1).wr BDG_HB_CFG.EXPIRED 1).wr BDG_HB_CFG.HOST_EN 1; (TablesOk s)) :=
  tablesOk_of (by decide +kernel)

/-- States and operands that meet the hypotheses of `Obligations.FenceAndWatches`. -/
theorem witness_FenceAndWatches_5 :
    (let s : State := (up.wr BDG_FENCE.HB 1).wr BDG_HB_CFG.HOST_EN 1; let v : Word := 0xFFFFFFFF#32; (TablesOk s) ∧
      (v.toNat ≠ s.rd BDG_HOST_HB.VALUE)) :=
  ⟨tablesOk_of (by decide +kernel), by decide +kernel⟩

/-- States and operands that meet the hypotheses of `Obligations.FenceAndWatches`. -/
theorem witness_FenceAndWatches_6 :
    (let s : State := up; let v : Word := 0#32; (v.toNat = s.rd BDG_HOST_HB.VALUE)) :=
  by decide +kernel

/-- States and operands that meet the hypotheses of `Obligations.FenceAndWatches`. -/
theorem witness_FenceAndWatches_7 :
    (let s : State := up.wr BDG_HOST_HB.VALUE 0xFFFFFFFF; let v : Word := 0xFFFFFFFF#32; (v.toNat = s.rd BDG_HOST_HB.VALUE)) :=
  by decide +kernel

/-- States and operands that meet the hypotheses of `Obligations.FenceAndWatches`. -/
theorem witness_FenceAndWatches_8 :
    (let s : State := { up with bdg := { up.bdg with hbEnd := some up.now } }.wr BDG_HB_CFG.ACTION 0; (TablesOk s) ∧
      (s.due s.bdg.hbEnd = true) ∧ (s.on BDG_HB_CFG.ACTION = false)) :=
  ⟨tablesOk_of (by decide +kernel), by decide +kernel⟩

/-- States and operands that meet the hypotheses of `Obligations.FenceAndWatches`. -/
theorem witness_FenceAndWatches_9 :
    (let s : State := { up with bdg := { up.bdg with hbEnd := some up.now } }.wr BDG_HB_CFG.ACTION 1; (TablesOk s) ∧
      (s.due s.bdg.hbEnd = true) ∧ (s.on BDG_HB_CFG.ACTION = true)) :=
  ⟨tablesOk_of (by decide +kernel), by decide +kernel⟩

/-- States and operands that meet the hypotheses of `Obligations.FenceAndWatches`. -/
theorem witness_FenceAndWatches_10 :
    (let s : State := { up with time := { up.time with units := ns 100000000 } }; (TablesOk s) ∧
      (s.bdg.fwSince + ns 100000000 ≤ s.now) ∧ (s.bdg.running ≠ []) ∧ (s.on BDG_STATUS.FW_RESTART = false) ∧
      (s.bdg.tier = none)) :=
  ⟨tablesOk_of (by decide +kernel), by decide +kernel⟩

/-- States and operands that meet the hypotheses of `Obligations.FenceAndWatches`. -/
theorem witness_FenceAndWatches_11 :
    (let s : State := up.wr BDG_STATUS.FW_RESTART 1; (s.on BDG_STATUS.FW_RESTART = true) ∧ (goodCopy s = none)) :=
  by decide +kernel

/-- States and operands that meet the hypotheses of `Obligations.FenceAndWatches`. -/
theorem witness_FenceAndWatches_12 :
    (let s : State := up; let c : Fin 8 := 3; (3 ≤ c.val) ∧ (s.bdg.running ≠ []) ∧ (s.on BDG_STATUS.FW_RESTART = false) ∧
      ((s.bdg.restarts.filter fun x => decide (s.now < x.2 + ns 1000000000)).countP (fun x => x.1 = c.val) < 2)) :=
  by decide +kernel

/-- States and operands that meet the hypotheses of `Obligations.FenceAndWatches`. -/
theorem witness_FenceAndWatches_13 :
    (let s : State := { up with bdg := { up.bdg with restarts := [(7, 0), (3, up.now), (3, up.now)] } }; let c : Fin 8 := 7;
      (3 ≤ c.val) ∧ (s.bdg.running ≠ []) ∧ (s.on BDG_STATUS.FW_RESTART = false) ∧
      ((s.bdg.restarts.filter fun x => decide (s.now < x.2 + ns 1000000000)).countP (fun x => x.1 = c.val) < 2)) :=
  by decide +kernel

/-- States and operands that meet the hypotheses of `Obligations.FenceAndWatches`. -/
theorem witness_FenceAndWatches_14 :
    (let s : State := let a :=
        { up.wr BDG_HANG_CFG.ENABLE 1 with ctxs := [(3, { state := .ready })], time := { up.time with units := ns 100000000 } };
        { a with bdg := { a.bdg with seen := [(0, (engineItems a 0, 0))] } };
      let e : Fin 21 := 0; let since := 0; (s.on BDG_HANG_CFG.ENABLE = true) ∧ (engineHolds s e = true) ∧
      (s.bdg.seen.find? e.val = some (engineItems s e, since)) ∧ (since + ns (1000000 * s.rd BDG_HANG_CFG.TMO) ≤ s.now)) :=
  by decide +kernel

/-- States and operands that meet the hypotheses of `Obligations.FenceAndWatches`. -/
theorem witness_FenceAndWatches_15 :
    (let s : State := let a :=
        { up.wr BDG_HANG_CFG.ENABLE 1 with out := [⟨.control, {}, [], 0⟩], time := { up.time with units := ns 100000000 } };
        { a with bdg := { a.bdg with seen := [(20, (engineItems a 20, 0))] } };
      let e : Fin 21 := 20; let since := 0; (s.on BDG_HANG_CFG.ENABLE = true) ∧ (engineHolds s e = true) ∧
      (s.bdg.seen.find? e.val = some (engineItems s e, since)) ∧ (since + ns (1000000 * s.rd BDG_HANG_CFG.TMO) ≤ s.now)) :=
  by decide +kernel

/-- States and operands that meet the hypotheses of `Obligations.FenceAndWatches`. -/
theorem witness_FenceAndWatches_16 :
    (let k := 5; let rest := [6];
      let s : State :=
        { up with bdg := { up.bdg with replay := some { rest := [5, 6], solo := 4, slotEnd := 0, ran := true, src := 1, cause := 1 } } };
      ∃ r, (s.bdg.replay = some r) ∧ (slotOver s r = true) ∧ (r.rest = k :: rest)) :=
  ⟨(Option.get (({ up with bdg := { up.bdg with replay := some { rest := [5, 6], solo := 4, slotEnd := 0, ran := true, src := 1, cause := 1 } } } : State).bdg.replay) (by decide +kernel)),
      (Option.some_get _).symm, by decide +kernel⟩

/-- States and operands that meet the hypotheses of `Obligations.FenceAndWatches`. -/
theorem witness_FenceAndWatches_17 :
    (let s : State :=
        { up with bdg := { up.bdg with replay := some { rest := [], solo := 4, slotEnd := up.now, src := 1, cause := 1 } } };
      ∃ r, (TablesOk s) ∧ (s.bdg.replay = some r) ∧ (slotOver s r = true) ∧ (r.rest = [])) :=
  ⟨(Option.get (({ up with bdg := { up.bdg with replay := some { rest := [], solo := 4, slotEnd := up.now, src := 1, cause := 1 } } } : State).bdg.replay) (by decide +kernel)),
      tablesOk_of (by decide +kernel), (Option.some_get _).symm, by decide +kernel⟩

/-- States and operands that meet the hypotheses of `Obligations.FaultEvents`. -/
theorem witness_FaultEvents :
    (let s : State := wait1 2; let e := ⟨0x18, 2, 1, 5, false⟩; let rest := []; (TablesOk s) ∧ (s.hhg.waiting = e :: rest) ∧
      (s.bdg.replay = none) ∧ (max e.cls (s.rd (HHG_SRC_CFG.MIN_CLASS e.src)) = 2) ∧ (bitOf (s.rd HHG_PEND.PEND) 2 = false) ∧
      (headFree s = true)) ∧
    (let s : State := (wait1 1).wr (HHG_SRC_CFG.MIN_CLASS 0x18) 2; let e := ⟨0x18, 1, 1, 5, false⟩; let rest := [];
      (TablesOk s) ∧ (s.hhg.waiting = e :: rest) ∧ (s.bdg.replay = none) ∧
      (max e.cls (s.rd (HHG_SRC_CFG.MIN_CLASS e.src)) = 2) ∧ (bitOf (s.rd HHG_PEND.PEND) 2 = false) ∧ (headFree s = true)) ∧
    (let s : State := wait1 4; let e := ⟨0x18, 4, 1, 5, false⟩; let rest := []; (TablesOk s) ∧ (s.hhg.waiting = e :: rest) ∧
      (s.bdg.replay = none) ∧ (s.normal = true) ∧ (max e.cls (s.rd (HHG_SRC_CFG.MIN_CLASS e.src)) = 4)) ∧
    (let s : State :=
        { up.wr HHG_PEND.PEND 0x1F with hhg := { up.hhg with log := [(0, { valid := true, effective := 2 }), (1, { valid := true, effective := 1 })] } };
      (TablesOk s)) ∧
    (let s : State := { up with hhg := { up.hhg with selfPtr := 1 } }; (selfWords.getD s.hhg.selfPtr 0 ≠ 0x20000)) ∧
    (let s : State := { (up.wr HHG_CFG.SELF_SAFE 1) with hhg := { up.hhg with selfPtr := 1 } };
      (selfWords.getD s.hhg.selfPtr 0 ≠ 0x20000)) ∧
    (let s : State :=
        (({ up with hhg := { up.hhg with quietEnd := some up.now } }.wr HHG_STATUS.STATE 2).wr HHG_CFG.AUTO_EXIT 1).wr HHG_CFG.RECOV_MAX 0;
      (TablesOk s) ∧ (s.rd HHG_STATUS.STATE = 2) ∧ (quietOver s = true) ∧ (s.on HHG_CFG.AUTO_EXIT = true) ∧
      (s.rd HHG_CFG.RECOV_MAX = 0) ∧ (s.power ≤ 1)) ∧
    (let s : State :=
        ({ up with hhg := { up.hhg with quietEnd := some up.acs, quietInAc := true } }.wr HHG_STATUS.STATE 2).wr HHG_CFG.AUTO_EXIT 0;
      (s.rd HHG_STATUS.STATE = 2) ∧ (quietOver s = true) ∧ (s.on HHG_CFG.AUTO_EXIT = false)) :=
  ⟨⟨tablesOk_of (by decide +kernel), by decide +kernel⟩,
   ⟨tablesOk_of (by decide +kernel), by decide +kernel⟩,
   ⟨tablesOk_of (by decide +kernel), by decide +kernel⟩,
   tablesOk_of (by decide +kernel),
   by decide +kernel,
   by decide +kernel,
   ⟨tablesOk_of (by decide +kernel), by decide +kernel⟩,
   by decide +kernel⟩

/-- States and operands that meet the hypotheses of `Obligations.FaultEvents` (Scrubbing). -/
theorem witness_Scrubbing :
    (let s : State :=
        { (up.wr HHG_SCRUB_CFG.ENABLE 1).wr HHG_SCRUB_CFG.INTERVAL 1 with fox := { up.fox with island := 2 }, time := { up.time with units := ns 1000000000 } };
      let g : Fin 15 := 14; let w := 9; (s.on HHG_SCRUB_CFG.ENABLE = true) ∧ (s.power ≤ 1) ∧ (s.on CSP_STATUS.FC_RUN = true) ∧
      (s.initDone = true) ∧ (s.hhg.scrubAt + 1000 * s.rd HHG_SCRUB_CFG.INTERVAL * 160000 / 1800 ≤ s.now) ∧
      (¬(g.val = 0 ∧ s.yar.retired.contains (w / 8192) = true)) ∧ (¬(g.val = 5 ∧ s.fox.island = 0))) ∧
    (let s : State :=
        { (up.wr HHG_SCRUB_CFG.ENABLE 1).wr HHG_SCRUB_CFG.INTERVAL 1 with time := { up.time with units := ns 1000000000 } };
      let g : Fin 15 := 0; let w := 9; (s.on HHG_SCRUB_CFG.ENABLE = true) ∧ (s.power ≤ 1) ∧ (s.on CSP_STATUS.FC_RUN = true) ∧
      (s.initDone = true) ∧ (s.hhg.scrubAt + 1000 * s.rd HHG_SCRUB_CFG.INTERVAL * 160000 / 1800 ≤ s.now) ∧
      (¬(g.val = 0 ∧ s.yar.retired.contains (w / 8192) = true)) ∧ (¬(g.val = 5 ∧ s.fox.island = 0))) ∧
    (let s : State :=
        { (up.wr HHG_SCRUB_CFG.ENABLE 1).wr HHG_SCRUB_CFG.INTERVAL 1 with fox := { up.fox with island := 2 }, time := { up.time with units := ns 1000000000 } };
      let g : Fin 15 := 6; let w := 9; (s.on HHG_SCRUB_CFG.ENABLE = true) ∧ (s.power ≤ 1) ∧ (s.on CSP_STATUS.FC_RUN = true) ∧
      (s.initDone = true) ∧ (s.hhg.scrubAt + 1000 * s.rd HHG_SCRUB_CFG.INTERVAL * 160000 / 1800 ≤ s.now) ∧
      (¬(g.val = 0 ∧ s.yar.retired.contains (w / 8192) = true)) ∧ (¬(g.val = 5 ∧ s.fox.island = 0)) ∧
      (wordMarked s g w = false)) ∧
    (let s : State :=
        { (up.wr HHG_SCRUB_CFG.ENABLE 1).wr HHG_SCRUB_CFG.INTERVAL 1 with fox := { up.fox with island := 2 }, time := { up.time with units := ns 1000000000 } };
      let g : Fin 15 := 5; let w := 9; (s.on HHG_SCRUB_CFG.ENABLE = true) ∧ (s.power ≤ 1) ∧ (s.on CSP_STATUS.FC_RUN = true) ∧
      (s.initDone = true) ∧ (s.hhg.scrubAt + 1000 * s.rd HHG_SCRUB_CFG.INTERVAL * 160000 / 1800 ≤ s.now) ∧
      (¬(g.val = 0 ∧ s.yar.retired.contains (w / 8192) = true)) ∧ (¬(g.val = 5 ∧ s.fox.island = 0)) ∧
      (wordMarked s g w = false)) ∧
    (let s : State :=
        { (up.wr HHG_SCRUB_CFG.ENABLE 1).wr HHG_SCRUB_CFG.INTERVAL 1 with fox := { up.fox with island := 2 }, time := { up.time with units := ns 1000000000 } };
      let g : Fin 15 := 7; let w := 9; (s.on HHG_SCRUB_CFG.ENABLE = true) ∧ (s.power ≤ 1) ∧ (s.on CSP_STATUS.FC_RUN = true) ∧
      (s.initDone = true) ∧ (s.hhg.scrubAt + 1000 * s.rd HHG_SCRUB_CFG.INTERVAL * 160000 / 1800 ≤ s.now) ∧
      (¬(g.val = 0 ∧ s.yar.retired.contains (w / 8192) = true)) ∧ (¬(g.val = 5 ∧ s.fox.island = 0)) ∧
      (wordMarked s g w = false)) ∧
    (let s : State :=
        { (up.wr HHG_SCRUB_CFG.ENABLE 1).wr HHG_SCRUB_CFG.INTERVAL 1 with fox := { up.fox with island := 2 }, time := { up.time with units := ns 1000000000 } };
      let g : Fin 15 := 0; let w := 9; (s.on HHG_SCRUB_CFG.ENABLE = true) ∧ (s.power ≤ 1) ∧ (s.on CSP_STATUS.FC_RUN = true) ∧
      (s.initDone = true) ∧ (s.hhg.scrubAt + 1000 * s.rd HHG_SCRUB_CFG.INTERVAL * 160000 / 1800 ≤ s.now) ∧
      (¬(g.val = 0 ∧ s.yar.retired.contains (w / 8192) = true)) ∧ (¬(g.val = 5 ∧ s.fox.island = 0)) ∧
      (wordMarked s g w = false)) ∧
    (let s : State :=
        { (up.wr HHG_SCRUB_CFG.ENABLE 1).wr HHG_SCRUB_CFG.INTERVAL 1 with fox := { up.fox with island := 2 }, time := { up.time with units := ns 1000000000 } };
      let g : Fin 15 := 14; let w := 9; (s.on HHG_SCRUB_CFG.ENABLE = true) ∧ (s.power ≤ 1) ∧ (s.on CSP_STATUS.FC_RUN = true) ∧
      (s.initDone = true) ∧ (s.hhg.scrubAt + 1000 * s.rd HHG_SCRUB_CFG.INTERVAL * 160000 / 1800 ≤ s.now) ∧
      (¬(g.val = 0 ∧ s.yar.retired.contains (w / 8192) = true)) ∧ (¬(g.val = 5 ∧ s.fox.island = 0)) ∧
      (wordMarked s g w = false)) ∧
    (let s : State :=
        { (up.wr HHG_SCRUB_CFG.ENABLE 1).wr HHG_SCRUB_CFG.INTERVAL 1 with fox := { up.fox with island := 2 }, time := { up.time with units := ns 1000000000 } };
      let g : Fin 15 := 13; let w := 9; (s.on HHG_SCRUB_CFG.ENABLE = true) ∧ (s.power ≤ 1) ∧ (s.on CSP_STATUS.FC_RUN = true) ∧
      (s.initDone = true) ∧ (s.hhg.scrubAt + 1000 * s.rd HHG_SCRUB_CFG.INTERVAL * 160000 / 1800 ≤ s.now) ∧
      (¬(g.val = 0 ∧ s.yar.retired.contains (w / 8192) = true)) ∧ (¬(g.val = 5 ∧ s.fox.island = 0)) ∧
      (wordMarked s g w = false)) ∧
    (let s : State :=
        { (up.wr HHG_SCRUB_CFG.ENABLE 1).wr HHG_SCRUB_CFG.INTERVAL 1 with mrt := { up.mrt with imemPoison := [1], scratchPoison := [9] }, time := { up.time with units := ns 1000000000 } };
      let g : Fin 15 := 9; let w := 9; (s.on HHG_SCRUB_CFG.ENABLE = true) ∧ (s.power ≤ 1) ∧ (s.on CSP_STATUS.FC_RUN = true) ∧
      (s.initDone = true) ∧ (s.hhg.scrubAt + 1000 * s.rd HHG_SCRUB_CFG.INTERVAL * 160000 / 1800 ≤ s.now) ∧
      (¬(g.val = 0 ∧ s.yar.retired.contains (w / 8192) = true)) ∧ (¬(g.val = 5 ∧ s.fox.island = 0)) ∧
      (wordMarked s g w = true)) ∧
    (let s : State :=
        { (up.wr HHG_SCRUB_CFG.ENABLE 1).wr HHG_SCRUB_CFG.INTERVAL 1 with time := { up.time with units := ns 1000000000 } };
      let g : Fin 15 := 7; let w := 65535; (s.on HHG_SCRUB_CFG.ENABLE = true) ∧ (s.power ≤ 1) ∧
      (s.on CSP_STATUS.FC_RUN = true) ∧ (s.initDone = true) ∧
      (s.hhg.scrubAt + 1000 * s.rd HHG_SCRUB_CFG.INTERVAL * 160000 / 1800 ≤ s.now) ∧
      (¬(g.val = 0 ∧ s.yar.retired.contains (w / 8192) = true)) ∧ (¬(g.val = 5 ∧ s.fox.island = 0)) ∧ (g.val = 7) ∧
      (s.objPoisoned w = false)) :=
  ⟨by decide +kernel,
   by decide +kernel,
   by decide +kernel,
   by decide +kernel,
   by decide +kernel,
   by decide +kernel,
   by decide +kernel,
   by decide +kernel,
   by decide +kernel,
   by decide +kernel⟩

/-- States and operands that meet the hypotheses of `Obligations.PowerStates`. -/
theorem witness_PowerStates :
    (let s : State := up; (TablesOk s) ∧ (s.on CSP_CMD.BUSY = false) ∧ (s.power ≤ 1) ∧ (s.normal = true) ∧
      (s.bdg.tier = none) ∧ (s.initDone = true) ∧ (idleNow s = true) ∧ ((portsOf s).all (canSleep s) = true)) ∧
    (let s : State := up; (TablesOk s) ∧ (s.on CSP_CMD.BUSY = false) ∧ (s.power ≤ 1) ∧ (s.normal = true) ∧
      (s.bdg.tier = none) ∧ (s.initDone = true) ∧ (idleNow s = true)) ∧
    (let s : State := (up.wr (LAN_PORT_STATUS.STATE 3) 6); (TablesOk s) ∧ (s.on CSP_CMD.BUSY = false) ∧ (s.power ≤ 1) ∧
      (s.normal = true) ∧ (s.bdg.tier = none) ∧ (s.initDone = true) ∧ (idleNow s = true)) ∧
    (let s : State := up.wr HHG_STATUS.STATE 2; (s.on CSP_CMD.BUSY = false) ∧ (s.power ≤ 1) ∧ (s.normal = false)) ∧
    (let s : State := { up.wr CSP_STATUS.STATE 4 with csp := { up.csp with entering := some 2 } }; (TablesOk s) ∧
      (s.power = 4) ∧ (s.csp.entering = some 2) ∧ (idleNow s = true) ∧ (s.hmpQuiesced = true) ∧
      ((portsOf s).all (fun p => s.laneState p = 0 || s.laneState p = 8) = true)) ∧
    (let s : State := { up.wr CSP_STATUS.STATE 4 with csp := { up.csp with entering := some 3 } }; (TablesOk s) ∧
      (s.power = 4) ∧ (s.csp.entering = some 3) ∧ (idleNow s = true) ∧ (s.hmpQuiesced = true) ∧
      ((portsOf s).all (fun p => s.laneState p = 0) = true)) ∧
    (let s : State := up.wr CSP_STATUS.STATE 2; (TablesOk s) ∧ (s.power = 2 ∨ s.power = 3)) ∧
    (let s : State := up.wr CSP_STATUS.STATE 3; (TablesOk s) ∧ (s.power = 2 ∨ s.power = 3)) ∧
    (let s : State := up.wr CSP_STATUS.STATE 4; (TablesOk s) ∧ (s.power = 4)) ∧
    (let s : State := (up.wr CSP_STATUS.STATE 3).wr CSP_WAKE_AT_LO.AT_LO 5; (TablesOk s) ∧ (s.power = 2 ∨ s.power = 3) ∧
      (0 < s.rd CSP_WAKE_AT_LO.AT_LO + 2 ^ 32 * s.rd CSP_WAKE_AT_HI.AT_HI) ∧
      (s.rd CSP_WAKE_AT_LO.AT_LO + 2 ^ 32 * s.rd CSP_WAKE_AT_HI.AT_HI ≤ s.nowNs)) ∧
    (let s : State := { up.wr CSP_STATUS.STATE 5 with csp := { up.csp with leaving := some 2 } }; (TablesOk s) ∧
      (s.power = 5) ∧ (s.on CSP_STATUS.FC_RUN = true) ∧ (s.initDone = true) ∧ (s.csp.leaving = some 2) ∧
      (s.csp.tier3After = none)) ∧
    (let s : State := up.wr CSP_CFG.DROWSE_EN 1; (s.power = 0) ∧ (s.on CSP_CFG.DROWSE_EN = true) ∧ (s.normal = true) ∧
      (idleNow s = true) ∧ (lanesRest s = true) ∧ (s.csp.activeAt + ns (100 * s.rd CSP_TMR.DROWSE_IDLE) ≤ s.now)) :=
  ⟨⟨tablesOk_of (by decide +kernel), by decide +kernel⟩,
   ⟨tablesOk_of (by decide +kernel), by decide +kernel⟩,
   ⟨tablesOk_of (by decide +kernel), by decide +kernel⟩,
   by decide +kernel,
   ⟨tablesOk_of (by decide +kernel), by decide +kernel⟩,
   ⟨tablesOk_of (by decide +kernel), by decide +kernel⟩,
   ⟨tablesOk_of (by decide +kernel), by decide +kernel⟩,
   ⟨tablesOk_of (by decide +kernel), by decide +kernel⟩,
   ⟨tablesOk_of (by decide +kernel), by decide +kernel⟩,
   ⟨tablesOk_of (by decide +kernel), by decide +kernel⟩,
   ⟨tablesOk_of (by decide +kernel), by decide +kernel⟩,
   by decide +kernel⟩

/-- States and operands that meet the hypotheses of `Obligations.PowerStates`. -/
theorem witness_PowerStates_2 :
    (let s : State := up.wr CSP_STATUS.STATE 1; (s.power = 1)) :=
  by decide +kernel

/-- States and operands that meet the hypotheses of `Obligations.PowerStates` (PowerLevels). -/
theorem witness_PowerLevels :
    (let s : State := up; (TablesOk s)) ∧
    (let s : State := up; (TablesOk s)) ∧
    (let s : State := (up.wr CSP_DIR.PENDING 1).wr CSP_DIR_AT_LO.AT_LO 1000000; (TablesOk s) ∧ (s.on CSP_DIR.PENDING = true) ∧
      (s.rd CSP_DIR_AT_LO.AT_LO + 2 ^ 32 * s.rd CSP_DIR_AT_HI.AT_HI ≤ s.nowNs)) ∧
    (let s : State := up; (ns (1000 * (s.csp.period + 1)) ≤ s.now)) ∧
    (let s : State := ((up.wr CSP_CFG.AUTO_DOZE 1).wr (LNK_STATUS.STATE 11) 3).wr (CSP_PORT.MIN_STATE 11) 1;
      let p : Port := 11; (s.on CSP_CFG.AUTO_DOZE = true) ∧ (s.rd (CSP_PORT.MIN_STATE p) ≠ 2) ∧ (s.linkState p = 3) ∧
      (portIdleFor s p (1000 * s.rd CSP_TMR.DOZE_IDLE) = true) ∧ (s.rd CSP_STATUS.LEVEL = 15)) ∧
    (let s : State :=
        { (((up.wr CSP_CFG.AUTO_DOZE 1).wr (LNK_STATUS.STATE 11) 3).wr (CSP_PORT.MIN_STATE 11) 0) with csp := { up.csp with deepen := [11] } };
      let p : Port := 11; (s.on CSP_CFG.AUTO_DOZE = true) ∧ (s.rd (CSP_PORT.MIN_STATE p) = 0) ∧ (portWaits s p = false) ∧
      (s.linkState p = 3) ∧ (s.csp.deepen.contains p.val = true) ∧ (s.rd CSP_STATUS.LEVEL = 15) ∧
      ((sleepCmd s p 2).linkState p ≠ 3)) ∧
    (let s : State :=
        { (((up.wr CSP_CFG.AUTO_DOZE 1).wr (LNK_STATUS.STATE 11) 5).wr (CSP_PORT.MIN_STATE 11) 0) with time := { up.time with units := ns 10000000000 } };
      let p : Port := 11; (s.on CSP_CFG.AUTO_DOZE = true) ∧ (s.rd (CSP_PORT.MIN_STATE p) = 0) ∧ (s.linkState p = 5) ∧
      (portIdleFor s p (100000 * s.rd CSP_TMR.DORM_IDLE) = true)) ∧
    (let s : State := { up with csp := { up.csp with changed := some 0, forced := false } }; let c := 0;
      (s.csp.changed = some c) ∧ (s.csp.forced = false) ∧ (s.csp.rising = false) ∧ (c + ns 100000 ≤ s.now) ∧
      (((s.csp.measures.reverse).filterMap (unmet s)).dedup = [])) ∧
    (let c := 0; let p := 3;
      let s : State :=
        { ((List.range 12).foldl (fun s p => (s.wr (LNK_STATUS.STATE p) 3).wr (LAN_PORT_STATUS.STATE p) 3) up).wr CSP_STATUS.LEVEL 0 with csp := { up.csp with rising := false, changed := some 0, forced := false, grants := [999,999,999,999,999,999], measures := [.sleep 3] }, links := (List.range 12).map fun p => (p, { txWidth := 8, rxWidth := 8 }) };
      let rest := []; (TablesOk s) ∧ (s.csp.changed = some c) ∧ (s.csp.forced = false) ∧ (s.csp.rising = false) ∧
      (c + ns 100000 ≤ s.now) ∧ (((s.csp.measures.reverse).filterMap (unmet s)).dedup = p :: rest) ∧ (p < 12) ∧
      (accountHigh { s with csp := { s.csp with forced := true } } = true)) :=
  ⟨tablesOk_of (by decide +kernel),
   tablesOk_of (by decide +kernel),
   ⟨tablesOk_of (by decide +kernel), by decide +kernel⟩,
   by decide +kernel,
   by decide +kernel,
   by decide +kernel,
   by decide +kernel,
   by decide +kernel,
   ⟨tablesOk_of (by decide +kernel), by decide +kernel⟩⟩

/-- States and operands that meet the hypotheses of `Obligations.SidebandFrames`. -/
theorem witness_SidebandFrames :
    (let s : State := up; let a : BitVec 24 := 0x44#24; (s.pins.porst = false) ∧ (a.toNat % 4 = 0)) :=
  by decide +kernel

/-- States and operands that meet the hypotheses of `Obligations.SidebandFrames`. -/
theorem witness_SidebandFrames_2 :
    (let s : State := up; let a : BitVec 24 := 0x45#24; (s.pins.porst = false) ∧ (a.toNat % 4 ≠ 0)) :=
  by decide +kernel

/-- States and operands that meet the hypotheses of `Obligations.SidebandFrames`. -/
theorem witness_SidebandFrames_3 :
    (let s : State := up; let a : BitVec 24 := 0x44#24; (s.pins.porst = false) ∧ (a.toNat % 4 = 0)) :=
  by decide +kernel

/-- States and operands that meet the hypotheses of `Obligations.SidebandFrames`. -/
theorem witness_SidebandFrames_4 :
    (let s : State := up; let a : BitVec 24 := 0x44#24; let n : Byte := 0; (s.pins.porst = false) ∧
      (a.toNat % 4 ≠ 0 ∨ n = 0 ∨ 64 < n.toNat)) :=
  by decide +kernel

/-- States and operands that meet the hypotheses of `Obligations.SidebandFrames`. -/
theorem witness_SidebandFrames_5 :
    (let s : State := up; let a : BitVec 24 := 0x44#24; let n : Byte := 65; (s.pins.porst = false) ∧
      (a.toNat % 4 ≠ 0 ∨ n = 0 ∨ 64 < n.toNat)) :=
  by decide +kernel

/-- States and operands that meet the hypotheses of `Obligations.SidebandFrames`. -/
theorem witness_SidebandFrames_6 :
    (let s : State := up; let a : BitVec 24 := 0x47#24; let n : Byte := 1; (s.pins.porst = false) ∧
      (a.toNat % 4 ≠ 0 ∨ n = 0 ∨ 64 < n.toNat)) :=
  by decide +kernel

/-- States and operands that meet the hypotheses of `Obligations.SidebandFrames`. -/
theorem witness_SidebandFrames_7 :
    (let s : State := up; (s.pins.porst = false)) :=
  by decide +kernel

/-- States and operands that meet the hypotheses of `Obligations.SidebandFrames`. -/
theorem witness_SidebandFrames_8 :
    (let s : State := up; let first : Fin 64 := 63; let n := 1; (s.pins.porst = false) ∧ (first.val + n ≤ 64)) :=
  by decide +kernel

/-- States and operands that meet the hypotheses of `Obligations.SidebandFrames`. -/
theorem witness_SidebandFrames_9 :
    (let s : State := up; let o : Fin 4096 := 4092; let n := 1; (s.pins.porst = false) ∧ (o.val % 4 = 0) ∧
      (o.val + 4 * n ≤ 4096)) :=
  by decide +kernel

/-- States and operands that meet the hypotheses of `Obligations.SidebandFrames`. -/
theorem witness_SidebandFrames_10 :
    (let s : State := up; let o : Fin 4096 := 4092; let ws := [7#32]; (s.pins.porst = false) ∧ (o.val % 4 = 0) ∧
      (o.val + 4 * ws.length ≤ 4096)) :=
  by decide +kernel

/-- States and operands that meet the hypotheses of `Obligations.SidebandFrames`. -/
theorem witness_SidebandFrames_11 :
    (let s : State := up; let n := 48; (s.pins.porst = false) ∧ (48 ≤ n) ∧ (n ≤ 4096)) :=
  by decide +kernel

/-- States and operands that meet the hypotheses of `Obligations.SidebandFrames`. -/
theorem witness_SidebandFrames_12 :
    (let s : State := up; let n := 4096; (s.pins.porst = false) ∧ (48 ≤ n) ∧ (n ≤ 4096)) :=
  by decide +kernel

/-- States and operands that meet the hypotheses of `Obligations.SidebandFrames`. -/
theorem witness_SidebandFrames_13 :
    (let s : State := up; let n := 47; (s.pins.porst = false) ∧ (n < 48 ∨ 4096 < n)) :=
  by decide +kernel

/-- States and operands that meet the hypotheses of `Obligations.SidebandFrames`. -/
theorem witness_SidebandFrames_14 :
    (let s : State := up; let n := 4097; (s.pins.porst = false) ∧ (n < 48 ∨ 4096 < n)) :=
  by decide +kernel

/-- States and operands that meet the hypotheses of `Obligations.SidebandFrames`. -/
theorem witness_SidebandFrames_15 :
    (let s : State := up; (s.pins.porst = false)) :=
  by decide +kernel

/-- States and operands that meet the hypotheses of `Obligations.SidebandFrames`. -/
theorem witness_SidebandFrames_16 :
    (let s : State := { up with bdg := { up.bdg with running := [], load := 1 } }; let o := 459004; let ws := [1#32];
      (s.pins.porst = false) ∧ (mayLoad s = true) ∧ (o % 4 = 0) ∧ (o + 4 * ws.length ≤ 459008) ∧ (o < 459008)) :=
  by decide +kernel

/-- States and operands that meet the hypotheses of `Obligations.SidebandFrames`. -/
theorem witness_SidebandFrames_17 :
    (let s : State := up; (s.pins.porst = false) ∧ (mayLoad s = false)) :=
  by decide +kernel

/-- States and operands that meet the hypotheses of `Obligations.SidebandFrames`. -/
theorem witness_SidebandFrames_18 :
    (let s : State := up; (s.pins.porst = false) ∧ (mayLoad s = false)) :=
  by decide +kernel

/-- States and operands that meet the hypotheses of `Obligations.SidebandFrames`. -/
theorem witness_SidebandFrames_19 :
    (let s : State := up; (s.pins.porst = false)) :=
  by decide +kernel

/-- States and operands that meet the hypotheses of `Obligations.ApertureAccess`. -/
theorem witness_ApertureAccess :
    (let s : State := up; (s.pins.porst = false)) ∧
    (let s : State := up; let a : BitVec 24 := 0xFFFFFC#24; (s.pins.porst = false) ∧ (regionStatus s (a.toNat / 4 * 4) ≠ stOK)) ∧
    (let s : State := up; let a : BitVec 24 := 0x45#24; (s.pins.porst = false) ∧ (a.toNat % 4 ≠ 0)) ∧
    (let s : State := up; let a : BitVec 24 := 0x44#24; (s.pins.porst = false) ∧ (a.toNat % 4 = 0)) ∧
    (let s : State := up; (s.pins.porst = false) ∧ (TablesOk s)) ∧
    (let s : State := up; (s.pins.porst = false) ∧ (s.fabricOpen = true)) ∧
    (let s : State := up; (s.pins.porst = false) ∧ (s.fabricOpen = true)) ∧
    (let s : State := up; (s.pins.porst = false) ∧ (s.fabricOpen = true)) ∧
    (let s : State := up; (s.pins.porst = false)) :=
  ⟨by decide +kernel,
   by decide +kernel,
   by decide +kernel,
   by decide +kernel,
   ⟨by decide +kernel, tablesOk_of (by decide +kernel)⟩,
   by decide +kernel,
   by decide +kernel,
   by decide +kernel,
   by decide +kernel⟩

/-- States and operands that meet the hypotheses of `Obligations.HostMemoryPort`. -/
theorem witness_HostMemoryPort :
    (let s : State := upCh 19 { cmds := [rq true 0x2600 64], early := 1 }; let c : Chan := 19; let h := s.chan c;
      let r := rq true 0x2600 64; let rest := []; (h = s.chan c) ∧ (h.cmds = r :: rest) ∧
      (s.hmp.quiesce = false ∨ h.up = true) ∧ (h.outstanding < s.rd HMP_CFG.TAG_LIMIT) ∧ (h.freeTags s.now ≠ []) ∧
      ((r.write = true → h.wleft = 0))) ∧
    (let s : State := upCh 0 { cmds := [rq false 0x2600 64], wleft := 3 }; let c : Chan := 0; let h := s.chan c;
      let r := rq false 0x2600 64; let rest := []; (h = s.chan c) ∧ (h.cmds = r :: rest) ∧
      (s.hmp.quiesce = false ∨ h.up = true) ∧ (h.outstanding < s.rd HMP_CFG.TAG_LIMIT) ∧ (h.freeTags s.now ≠ []) ∧
      ((r.write = true → h.wleft = 0))) ∧
    (let s : State := (upCh 3 { cmds := [rq true 0x600 64] }).wr HMP_CFG.TAG_LIMIT 0; let c : Chan := 3; let h := s.chan c;
      (h = s.chan c) ∧ (h.up = false) ∧ (h.early = 0) ∧
      (s.hmp.quiesce = true ∨ s.rd HMP_CFG.TAG_LIMIT ≤ h.outstanding ∨ h.freeTags s.now = [] ∨
        (0 < h.wleft ∧ h.cmds.head?.any (·.write) = true))) ∧
    (let s : State := upCh 3 { cmds := [rq true 0x600 64], wleft := 1 }; let c : Chan := 3; let h := s.chan c; (h = s.chan c) ∧
      (h.up = false) ∧ (h.early = 0) ∧
      (s.hmp.quiesce = true ∨ s.rd HMP_CFG.TAG_LIMIT ≤ h.outstanding ∨ h.freeTags s.now = [] ∨
        (0 < h.wleft ∧ h.cmds.head?.any (·.write) = true))) ∧
    (let s : State := upCh 3 { cmds := [rq true 0x600 64], wleft := 1 }; let c : Chan := 3; let h := s.chan c; (h = s.chan c) ∧
      (h.wleft ≠ 0)) ∧
    (let s : State := upCh 3 { cmds := [rq true 0x600 64] }; let c : Chan := 3; let h := s.chan c; let r := rq true 0x600 64;
      let rest := []; (h = s.chan c) ∧ (h.wleft = 0) ∧ (h.cmds = r :: rest) ∧ (r.write = true) ∧ (s.presents h = true) ∧
      (h.early < linesOf r.addr r.len)) ∧
    (let s : State := upXf { tags := [(9, ⟨rq false 0x600 64, 0, 0, false⟩)] } 2; let c : Chan := 3; let h := s.chan c;
      let tag : Fin 2048 := 9; let line := []; let stat : Fin 4 := 1; let last := true; ∃ g, ∃ u : State, ∃ v, (h = s.chan c) ∧
      (h.tags.find? tag = some g) ∧
      (u =
        (countStat s c stat).setChan c { h with tags := if last then h.tags.drop tag else h.tags.put tag { g with beats := g.beats + 1 } }) ∧
      (xferPiece u g.req.xfer (beatPiece g.req g.beats line stat) last = (v, none)) ∧ (g.quarantined = false) ∧
      (g.req.write = false)) ∧
    (let s : State := upXf { tags := [(9, ⟨rq false 0x600 64, 0, 0, false⟩)] } 1; let c : Chan := 3; let h := s.chan c;
      let tag : Fin 2048 := 9; let line := []; let stat : Fin 4 := 0; let last := true; ∃ g, ∃ u : State, ∃ v, ∃ x,
      (h = s.chan c) ∧ (h.tags.find? tag = some g) ∧
      (u =
        (countStat s c stat).setChan c { h with tags := if last then h.tags.drop tag else h.tags.put tag { g with beats := g.beats + 1 } }) ∧
      (xferPiece u g.req.xfer (beatPiece g.req g.beats line stat) last = (v, some x)) ∧ (g.quarantined = false) ∧
      (g.req.write = false)) ∧
    (let s : State := upXf { tags := [(9, ⟨rq true 0x600 64, 0, 0, false⟩)] } 2; let c : Chan := 3; let h := s.chan c;
      let tag : Fin 2048 := 9; let stat : Fin 4 := 1;
      ∃ g, let u : State := (countStat s c stat).setChan c { h with tags := h.tags.drop tag }; ∃ v, (h = s.chan c) ∧
      (h.tags.find? tag = some g) ∧ (u = (countStat s c stat).setChan c { h with tags := h.tags.drop tag }) ∧
      (xferPiece u g.req.xfer ⟨g.req.off, g.req.bytes, stat⟩ true = (v, none)) ∧ (g.quarantined = false) ∧
      (g.req.write = true)) ∧
    (let s : State := upXf { tags := [(9, ⟨rq true 0x600 64, 0, 0, false⟩)] } 1; let c : Chan := 3; let h := s.chan c;
      let tag : Fin 2048 := 9; let stat : Fin 4 := 3;
      ∃ g, let u : State := (countStat s c stat).setChan c { h with tags := h.tags.drop tag }; ∃ v, ∃ x, (h = s.chan c) ∧
      (h.tags.find? tag = some g) ∧ (u = (countStat s c stat).setChan c { h with tags := h.tags.drop tag }) ∧
      (xferPiece u g.req.xfer ⟨g.req.off, g.req.bytes, stat⟩ true = (v, some x)) ∧ (g.quarantined = false) ∧
      (g.req.write = true)) ∧
    (let s : State := upXf { tags := [(9, ⟨rq true 0x600 64, 0, 0, true⟩)] } 1; let c : Chan := 3; let h := s.chan c;
      let tag : Fin 2048 := 9; ∃ g, (h = s.chan c) ∧ (h.tags.find? tag = some g) ∧ (g.quarantined = true)) ∧
    (let s : State :=
        { (upXf { tags := [(9, ⟨rq true 0x600 64, 0, 0, false⟩)] } 1).wr HMP_CFG.RESP_TMO 1 with time := { up.time with units := ns 1000000000 } };
      let c : Chan := 3; let h := s.chan c; let tag : Fin 2048 := 9; ∃ g, ∃ v, ∃ x, (h = s.chan c) ∧
      (h.tags.find? tag = some g) ∧
      (xferPiece (report (s.setChan c { h with tags := h.tags.put tag { g with quarantined := true } }) 0x11 2 0x02 c) g.req.xfer ⟨g.req.off,
        List.replicate g.req.len 0, 4⟩ true = (v, some x)) ∧
      (g.quarantined = false) ∧ (g.since + s.respTmo < s.now)) :=
  ⟨⟨rfl, by decide +kernel⟩,
   ⟨rfl, by decide +kernel⟩,
   ⟨rfl, by decide +kernel⟩,
   ⟨rfl, by decide +kernel⟩,
   ⟨rfl, by decide +kernel⟩,
   ⟨rfl, by decide +kernel⟩,
   ⟨(Option.get (((upXf { tags := [(9, ⟨rq false 0x600 64, 0, 0, false⟩)] } 2 : State).chan (3 : Chan)).tags.find? (9 : Fin 2048)) (by decide +kernel)),
      ((countStat (upXf { tags := [(9, ⟨rq false 0x600 64, 0, 0, false⟩)] } 2 : State) (3 : Chan) (1 : Fin 4)).setChan (3 : Chan) { ((upXf { tags := [(9, ⟨rq false 0x600 64, 0, 0, false⟩)] } 2 : State).chan (3 : Chan)) with tags := if (true) then ((upXf { tags := [(9, ⟨rq false 0x600 64, 0, 0, false⟩)] } 2 : State).chan (3 : Chan)).tags.drop (9 : Fin 2048) else ((upXf { tags := [(9, ⟨rq false 0x600 64, 0, 0, false⟩)] } 2 : State).chan (3 : Chan)).tags.put (9 : Fin 2048) { (Option.get (((upXf { tags := [(9, ⟨rq false 0x600 64, 0, 0, false⟩)] } 2 : State).chan (3 : Chan)).tags.find? (9 : Fin 2048)) (by decide +kernel)) with beats := (Option.get (((upXf { tags := [(9, ⟨rq false 0x600 64, 0, 0, false⟩)] } 2 : State).chan (3 : Chan)).tags.find? (9 : Fin 2048)) (by decide +kernel)).beats + 1 } } : State),
      ((xferPiece ((countStat (upXf { tags := [(9, ⟨rq false 0x600 64, 0, 0, false⟩)] } 2 : State) (3 : Chan) (1 : Fin 4)).setChan (3 : Chan) { ((upXf { tags := [(9, ⟨rq false 0x600 64, 0, 0, false⟩)] } 2 : State).chan (3 : Chan)) with tags := if (true) then ((upXf { tags := [(9, ⟨rq false 0x600 64, 0, 0, false⟩)] } 2 : State).chan (3 : Chan)).tags.drop (9 : Fin 2048) else ((upXf { tags := [(9, ⟨rq false 0x600 64, 0, 0, false⟩)] } 2 : State).chan (3 : Chan)).tags.put (9 : Fin 2048) { (Option.get (((upXf { tags := [(9, ⟨rq false 0x600 64, 0, 0, false⟩)] } 2 : State).chan (3 : Chan)).tags.find? (9 : Fin 2048)) (by decide +kernel)) with beats := (Option.get (((upXf { tags := [(9, ⟨rq false 0x600 64, 0, 0, false⟩)] } 2 : State).chan (3 : Chan)).tags.find? (9 : Fin 2048)) (by decide +kernel)).beats + 1 } } : State) (Option.get (((upXf { tags := [(9, ⟨rq false 0x600 64, 0, 0, false⟩)] } 2 : State).chan (3 : Chan)).tags.find? (9 : Fin 2048)) (by decide +kernel)).req.xfer (beatPiece (Option.get (((upXf { tags := [(9, ⟨rq false 0x600 64, 0, 0, false⟩)] } 2 : State).chan (3 : Chan)).tags.find? (9 : Fin 2048)) (by decide +kernel)).req (Option.get (((upXf { tags := [(9, ⟨rq false 0x600 64, 0, 0, false⟩)] } 2 : State).chan (3 : Chan)).tags.find? (9 : Fin 2048)) (by decide +kernel)).beats ([]) (1 : Fin 4)) (true)).1),
      rfl, (Option.some_get _).symm, rfl, rfl, by decide +kernel⟩,
   ⟨(Option.get (((upXf { tags := [(9, ⟨rq false 0x600 64, 0, 0, false⟩)] } 1 : State).chan (3 : Chan)).tags.find? (9 : Fin 2048)) (by decide +kernel)),
      ((countStat (upXf { tags := [(9, ⟨rq false 0x600 64, 0, 0, false⟩)] } 1 : State) (3 : Chan) (0 : Fin 4)).setChan (3 : Chan) { ((upXf { tags := [(9, ⟨rq false 0x600 64, 0, 0, false⟩)] } 1 : State).chan (3 : Chan)) with tags := if (true) then ((upXf { tags := [(9, ⟨rq false 0x600 64, 0, 0, false⟩)] } 1 : State).chan (3 : Chan)).tags.drop (9 : Fin 2048) else ((upXf { tags := [(9, ⟨rq false 0x600 64, 0, 0, false⟩)] } 1 : State).chan (3 : Chan)).tags.put (9 : Fin 2048) { (Option.get (((upXf { tags := [(9, ⟨rq false 0x600 64, 0, 0, false⟩)] } 1 : State).chan (3 : Chan)).tags.find? (9 : Fin 2048)) (by decide +kernel)) with beats := (Option.get (((upXf { tags := [(9, ⟨rq false 0x600 64, 0, 0, false⟩)] } 1 : State).chan (3 : Chan)).tags.find? (9 : Fin 2048)) (by decide +kernel)).beats + 1 } } : State),
      ((xferPiece ((countStat (upXf { tags := [(9, ⟨rq false 0x600 64, 0, 0, false⟩)] } 1 : State) (3 : Chan) (0 : Fin 4)).setChan (3 : Chan) { ((upXf { tags := [(9, ⟨rq false 0x600 64, 0, 0, false⟩)] } 1 : State).chan (3 : Chan)) with tags := if (true) then ((upXf { tags := [(9, ⟨rq false 0x600 64, 0, 0, false⟩)] } 1 : State).chan (3 : Chan)).tags.drop (9 : Fin 2048) else ((upXf { tags := [(9, ⟨rq false 0x600 64, 0, 0, false⟩)] } 1 : State).chan (3 : Chan)).tags.put (9 : Fin 2048) { (Option.get (((upXf { tags := [(9, ⟨rq false 0x600 64, 0, 0, false⟩)] } 1 : State).chan (3 : Chan)).tags.find? (9 : Fin 2048)) (by decide +kernel)) with beats := (Option.get (((upXf { tags := [(9, ⟨rq false 0x600 64, 0, 0, false⟩)] } 1 : State).chan (3 : Chan)).tags.find? (9 : Fin 2048)) (by decide +kernel)).beats + 1 } } : State) (Option.get (((upXf { tags := [(9, ⟨rq false 0x600 64, 0, 0, false⟩)] } 1 : State).chan (3 : Chan)).tags.find? (9 : Fin 2048)) (by decide +kernel)).req.xfer (beatPiece (Option.get (((upXf { tags := [(9, ⟨rq false 0x600 64, 0, 0, false⟩)] } 1 : State).chan (3 : Chan)).tags.find? (9 : Fin 2048)) (by decide +kernel)).req (Option.get (((upXf { tags := [(9, ⟨rq false 0x600 64, 0, 0, false⟩)] } 1 : State).chan (3 : Chan)).tags.find? (9 : Fin 2048)) (by decide +kernel)).beats ([]) (0 : Fin 4)) (true)).1),
      (Option.get (xferPiece ((countStat (upXf { tags := [(9, ⟨rq false 0x600 64, 0, 0, false⟩)] } 1 : State) (3 : Chan) (0 : Fin 4)).setChan (3 : Chan) { ((upXf { tags := [(9, ⟨rq false 0x600 64, 0, 0, false⟩)] } 1 : State).chan (3 : Chan)) with tags := if (true) then ((upXf { tags := [(9, ⟨rq false 0x600 64, 0, 0, false⟩)] } 1 : State).chan (3 : Chan)).tags.drop (9 : Fin 2048) else ((upXf { tags := [(9, ⟨rq false 0x600 64, 0, 0, false⟩)] } 1 : State).chan (3 : Chan)).tags.put (9 : Fin 2048) { (Option.get (((upXf { tags := [(9, ⟨rq false 0x600 64, 0, 0, false⟩)] } 1 : State).chan (3 : Chan)).tags.find? (9 : Fin 2048)) (by decide +kernel)) with beats := (Option.get (((upXf { tags := [(9, ⟨rq false 0x600 64, 0, 0, false⟩)] } 1 : State).chan (3 : Chan)).tags.find? (9 : Fin 2048)) (by decide +kernel)).beats + 1 } } : State) (Option.get (((upXf { tags := [(9, ⟨rq false 0x600 64, 0, 0, false⟩)] } 1 : State).chan (3 : Chan)).tags.find? (9 : Fin 2048)) (by decide +kernel)).req.xfer (beatPiece (Option.get (((upXf { tags := [(9, ⟨rq false 0x600 64, 0, 0, false⟩)] } 1 : State).chan (3 : Chan)).tags.find? (9 : Fin 2048)) (by decide +kernel)).req (Option.get (((upXf { tags := [(9, ⟨rq false 0x600 64, 0, 0, false⟩)] } 1 : State).chan (3 : Chan)).tags.find? (9 : Fin 2048)) (by decide +kernel)).beats ([]) (0 : Fin 4)) (true)).2 (by decide +kernel)),
      rfl, (Option.some_get _).symm, rfl, Prod.ext rfl (Option.some_get _).symm, by decide +kernel⟩,
   ⟨(Option.get (((upXf { tags := [(9, ⟨rq true 0x600 64, 0, 0, false⟩)] } 2 : State).chan (3 : Chan)).tags.find? (9 : Fin 2048)) (by decide +kernel)),
      ((xferPiece ((countStat (upXf { tags := [(9, ⟨rq true 0x600 64, 0, 0, false⟩)] } 2 : State) (3 : Chan) (1 : Fin 4)).setChan (3 : Chan) { ((upXf { tags := [(9, ⟨rq true 0x600 64, 0, 0, false⟩)] } 2 : State).chan (3 : Chan)) with tags := ((upXf { tags := [(9, ⟨rq true 0x600 64, 0, 0, false⟩)] } 2 : State).chan (3 : Chan)).tags.drop (9 : Fin 2048) } : State) (Option.get (((upXf { tags := [(9, ⟨rq true 0x600 64, 0, 0, false⟩)] } 2 : State).chan (3 : Chan)).tags.find? (9 : Fin 2048)) (by decide +kernel)).req.xfer ⟨(Option.get (((upXf { tags := [(9, ⟨rq true 0x600 64, 0, 0, false⟩)] } 2 : State).chan (3 : Chan)).tags.find? (9 : Fin 2048)) (by decide +kernel)).req.off,
      (Option.get (((upXf { tags := [(9, ⟨rq true 0x600 64, 0, 0, false⟩)] } 2 : State).chan (3 : Chan)).tags.find? (9 : Fin 2048)) (by decide +kernel)).req.bytes,
      (1 : Fin 4)⟩ true).1), rfl, (Option.some_get _).symm, rfl, rfl, by decide +kernel⟩,
   ⟨(Option.get (((upXf { tags := [(9, ⟨rq true 0x600 64, 0, 0, false⟩)] } 1 : State).chan (3 : Chan)).tags.find? (9 : Fin 2048)) (by decide +kernel)),
      ((xferPiece ((countStat (upXf { tags := [(9, ⟨rq true 0x600 64, 0, 0, false⟩)] } 1 : State) (3 : Chan) (3 : Fin 4)).setChan (3 : Chan) { ((upXf { tags := [(9, ⟨rq true 0x600 64, 0, 0, false⟩)] } 1 : State).chan (3 : Chan)) with tags := ((upXf { tags := [(9, ⟨rq true 0x600 64, 0, 0, false⟩)] } 1 : State).chan (3 : Chan)).tags.drop (9 : Fin 2048) } : State) (Option.get (((upXf { tags := [(9, ⟨rq true 0x600 64, 0, 0, false⟩)] } 1 : State).chan (3 : Chan)).tags.find? (9 : Fin 2048)) (by decide +kernel)).req.xfer ⟨(Option.get (((upXf { tags := [(9, ⟨rq true 0x600 64, 0, 0, false⟩)] } 1 : State).chan (3 : Chan)).tags.find? (9 : Fin 2048)) (by decide +kernel)).req.off,
      (Option.get (((upXf { tags := [(9, ⟨rq true 0x600 64, 0, 0, false⟩)] } 1 : State).chan (3 : Chan)).tags.find? (9 : Fin 2048)) (by decide +kernel)).req.bytes,
      (3 : Fin 4)⟩ true).1),
      (Option.get (xferPiece ((countStat (upXf { tags := [(9, ⟨rq true 0x600 64, 0, 0, false⟩)] } 1 : State) (3 : Chan) (3 : Fin 4)).setChan (3 : Chan) { ((upXf { tags := [(9, ⟨rq true 0x600 64, 0, 0, false⟩)] } 1 : State).chan (3 : Chan)) with tags := ((upXf { tags := [(9, ⟨rq true 0x600 64, 0, 0, false⟩)] } 1 : State).chan (3 : Chan)).tags.drop (9 : Fin 2048) } : State) (Option.get (((upXf { tags := [(9, ⟨rq true 0x600 64, 0, 0, false⟩)] } 1 : State).chan (3 : Chan)).tags.find? (9 : Fin 2048)) (by decide +kernel)).req.xfer ⟨(Option.get (((upXf { tags := [(9, ⟨rq true 0x600 64, 0, 0, false⟩)] } 1 : State).chan (3 : Chan)).tags.find? (9 : Fin 2048)) (by decide +kernel)).req.off,
      (Option.get (((upXf { tags := [(9, ⟨rq true 0x600 64, 0, 0, false⟩)] } 1 : State).chan (3 : Chan)).tags.find? (9 : Fin 2048)) (by decide +kernel)).req.bytes,
      (3 : Fin 4)⟩ true).2 (by decide +kernel)), rfl, (Option.some_get _).symm, rfl, Prod.ext rfl (Option.some_get _).symm,
      by decide +kernel⟩,
   ⟨(Option.get (((upXf { tags := [(9, ⟨rq true 0x600 64, 0, 0, true⟩)] } 1 : State).chan (3 : Chan)).tags.find? (9 : Fin 2048)) (by decide +kernel)),
      rfl, (Option.some_get _).symm, by decide +kernel⟩,
   ⟨(Option.get ((({ (upXf { tags := [(9, ⟨rq true 0x600 64, 0, 0, false⟩)] } 1).wr HMP_CFG.RESP_TMO 1 with time := { up.time with units := ns 1000000000 } } : State).chan (3 : Chan)).tags.find? (9 : Fin 2048)) (by decide +kernel)),
      ((xferPiece (report (({ (upXf { tags := [(9, ⟨rq true 0x600 64, 0, 0, false⟩)] } 1).wr HMP_CFG.RESP_TMO 1 with time := { up.time with units := ns 1000000000 } } : State).setChan (3 : Chan) { (({ (upXf { tags := [(9, ⟨rq true 0x600 64, 0, 0, false⟩)] } 1).wr HMP_CFG.RESP_TMO 1 with time := { up.time with units := ns 1000000000 } } : State).chan (3 : Chan)) with tags := (({ (upXf { tags := [(9, ⟨rq true 0x600 64, 0, 0, false⟩)] } 1).wr HMP_CFG.RESP_TMO 1 with time := { up.time with units := ns 1000000000 } } : State).chan (3 : Chan)).tags.put (9 : Fin 2048) { (Option.get ((({ (upXf { tags := [(9, ⟨rq true 0x600 64, 0, 0, false⟩)] } 1).wr HMP_CFG.RESP_TMO 1 with time := { up.time with units := ns 1000000000 } } : State).chan (3 : Chan)).tags.find? (9 : Fin 2048)) (by decide +kernel)) with quarantined := true } }) 0x11 2 0x02 (3 : Chan)) (Option.get ((({ (upXf { tags := [(9, ⟨rq true 0x600 64, 0, 0, false⟩)] } 1).wr HMP_CFG.RESP_TMO 1 with time := { up.time with units := ns 1000000000 } } : State).chan (3 : Chan)).tags.find? (9 : Fin 2048)) (by decide +kernel)).req.xfer ⟨(Option.get ((({ (upXf { tags := [(9, ⟨rq true 0x600 64, 0, 0, false⟩)] } 1).wr HMP_CFG.RESP_TMO 1 with time := { up.time with units := ns 1000000000 } } : State).chan (3 : Chan)).tags.find? (9 : Fin 2048)) (by decide +kernel)).req.off,
        List.replicate (Option.get ((({ (upXf { tags := [(9, ⟨rq true 0x600 64, 0, 0, false⟩)] } 1).wr HMP_CFG.RESP_TMO 1 with time := { up.time with units := ns 1000000000 } } : State).chan (3 : Chan)).tags.find? (9 : Fin 2048)) (by decide +kernel)).req.len 0,
        4⟩ true).1),
      (Option.get (xferPiece (report (({ (upXf { tags := [(9, ⟨rq true 0x600 64, 0, 0, false⟩)] } 1).wr HMP_CFG.RESP_TMO 1 with time := { up.time with units := ns 1000000000 } } : State).setChan (3 : Chan) { (({ (upXf { tags := [(9, ⟨rq true 0x600 64, 0, 0, false⟩)] } 1).wr HMP_CFG.RESP_TMO 1 with time := { up.time with units := ns 1000000000 } } : State).chan (3 : Chan)) with tags := (({ (upXf { tags := [(9, ⟨rq true 0x600 64, 0, 0, false⟩)] } 1).wr HMP_CFG.RESP_TMO 1 with time := { up.time with units := ns 1000000000 } } : State).chan (3 : Chan)).tags.put (9 : Fin 2048) { (Option.get ((({ (upXf { tags := [(9, ⟨rq true 0x600 64, 0, 0, false⟩)] } 1).wr HMP_CFG.RESP_TMO 1 with time := { up.time with units := ns 1000000000 } } : State).chan (3 : Chan)).tags.find? (9 : Fin 2048)) (by decide +kernel)) with quarantined := true } }) 0x11 2 0x02 (3 : Chan)) (Option.get ((({ (upXf { tags := [(9, ⟨rq true 0x600 64, 0, 0, false⟩)] } 1).wr HMP_CFG.RESP_TMO 1 with time := { up.time with units := ns 1000000000 } } : State).chan (3 : Chan)).tags.find? (9 : Fin 2048)) (by decide +kernel)).req.xfer ⟨(Option.get ((({ (upXf { tags := [(9, ⟨rq true 0x600 64, 0, 0, false⟩)] } 1).wr HMP_CFG.RESP_TMO 1 with time := { up.time with units := ns 1000000000 } } : State).chan (3 : Chan)).tags.find? (9 : Fin 2048)) (by decide +kernel)).req.off,
        List.replicate (Option.get ((({ (upXf { tags := [(9, ⟨rq true 0x600 64, 0, 0, false⟩)] } 1).wr HMP_CFG.RESP_TMO 1 with time := { up.time with units := ns 1000000000 } } : State).chan (3 : Chan)).tags.find? (9 : Fin 2048)) (by decide +kernel)).req.len 0,
        4⟩ true).2 (by decide +kernel)),
      rfl, (Option.some_get _).symm, Prod.ext rfl (Option.some_get _).symm, by decide +kernel⟩⟩

/-- States and operands that meet the hypotheses of `Obligations.HostMemoryPort`. -/
theorem witness_HostMemoryPort_2 :
    (let s : State := upCh 3 { held := [4], holdUntil := up.now }; let c : Chan := 3; let h := s.chan c; (h = s.chan c) ∧
      (h.holdUntil ≤ s.now)) :=
  ⟨rfl, by decide +kernel⟩

/-- States and operands that meet the hypotheses of `Obligations.StrayResponses`. -/
theorem witness_StrayResponses :
    (let s : State := up; let c : Chan := 19; let tag : Fin 2048 := 2047; (TablesOk s) ∧ ((s.chan c).tags.find? tag = none)) ∧
    (let s : State := up; let c : Chan := 19; let tag : Fin 2048 := 2047; (TablesOk s) ∧ ((s.chan c).tags.find? tag = none)) :=
  ⟨⟨tablesOk_of (by decide +kernel), by decide +kernel⟩,
   ⟨tablesOk_of (by decide +kernel), by decide +kernel⟩⟩

/-- States and operands that meet the hypotheses of `Obligations.PushesAndCompletions` (DescriptorPush). -/
theorem witness_DescriptorPush :
    (let s : State := { up with pins := { up.pins with fcValid := false } }; let u : State := drowseExit s;
      let q : QNum := 4095; let b : List Byte := pushB 0 1 0; let v := u.queue q; let d := descOf b v.accepted;
      let s1 := u.setQueue q { v with accepted := (v.accepted + 1) % 2 ^ 32 }; (TablesOk s) ∧ (u = drowseExit s) ∧
      (v = u.queue q) ∧ (d = descOf b v.accepted) ∧ (s1 = u.setQueue q { v with accepted := (v.accepted + 1) % 2 ^ 32 }) ∧
      (s.fabricOpen = true) ∧ (u.oppReady = false)) ∧
    (let s : State := upQ { state := .opened, push := false }; let u : State := drowseExit s; let q : QNum := 5;
      let b : List Byte := pushB 0 1 0; let v := u.queue q; let d := descOf b v.accepted;
      let s1 := u.setQueue q { v with accepted := (v.accepted + 1) % 2 ^ 32 }; (TablesOk s) ∧ (u = drowseExit s) ∧
      (v = u.queue q) ∧ (d = descOf b v.accepted) ∧ (s1 = u.setQueue q { v with accepted := (v.accepted + 1) % 2 ^ 32 }) ∧
      (s.fabricOpen = true) ∧ (u.oppReady = true) ∧ (v.state ≠ .opened ∨ v.push = false)) ∧
    (let s : State := upQ { state := .opened, push := true, log2 := 6, unconsumed := List.replicate 64 false, waiting := List.replicate 64 dsc };
      let u : State := drowseExit s; let q : QNum := 5; let b : List Byte := pushB 0 1 0; let v := u.queue q;
      let d := descOf b v.accepted; let s1 := u.setQueue q { v with accepted := (v.accepted + 1) % 2 ^ 32 }; (TablesOk s) ∧
      (u = drowseExit s) ∧ (v = u.queue q) ∧ (d = descOf b v.accepted) ∧
      (s1 = u.setQueue q { v with accepted := (v.accepted + 1) % 2 ^ 32 }) ∧ (s.fabricOpen = true) ∧ (u.oppReady = true) ∧
      (v.state = .opened) ∧ (v.push = true) ∧ (v.full = true) ∧ (64 ≤ v.fifoUse)) ∧
    (let s : State := (upQ { state := .opened, push := true }).wr BDG_FENCE.SW 1; let u : State := drowseExit s;
      let q : QNum := 5; let b : List Byte := pushB 3 2 4; let v := u.queue q; let d := descOf b v.accepted;
      let s1 := u.setQueue q { v with accepted := (v.accepted + 1) % 2 ^ 32 }; (TablesOk s) ∧ (u = drowseExit s) ∧
      (v = u.queue q) ∧ (d = descOf b v.accepted) ∧ (s1 = u.setQueue q { v with accepted := (v.accepted + 1) % 2 ^ 32 }) ∧
      (s.fabricOpen = true) ∧ (u.oppReady = true) ∧ (v.state = .opened) ∧ (v.push = true) ∧ (v.full = false ∨ v.fifoUse < 64) ∧
      (s.fenced = true)) ∧
    (let s : State := upQ { state := .opened, push := true, waiting := List.replicate 64 dsc }; let u : State := drowseExit s;
      let q : QNum := 5; let b : List Byte := pushB 3 1 4; let v := u.queue q; let d := descOf b v.accepted;
      let s1 := u.setQueue q { v with accepted := (v.accepted + 1) % 2 ^ 32 }; (TablesOk s) ∧ (u = drowseExit s) ∧
      (v = u.queue q) ∧ (d = descOf b v.accepted) ∧ (s1 = u.setQueue q { v with accepted := (v.accepted + 1) % 2 ^ 32 }) ∧
      (s.fabricOpen = true) ∧ (u.oppReady = true) ∧ (v.state = .opened) ∧ (v.push = true) ∧ (v.full = false ∨ v.fifoUse < 64) ∧
      (s.fenced = false) ∧ (64 ≤ v.fifoUse)) ∧
    (let s : State := upQ { state := .opened, push := true }; let u : State := drowseExit s; let q : QNum := 5;
      let b : List Byte := pushB 0 2 0; let v := u.queue q; let d := descOf b v.accepted;
      let s1 := u.setQueue q { v with accepted := (v.accepted + 1) % 2 ^ 32 }; ∃ st, (TablesOk s) ∧ (u = drowseExit s) ∧
      (v = u.queue q) ∧ (d = descOf b v.accepted) ∧ (s1 = u.setQueue q { v with accepted := (v.accepted + 1) % 2 ^ 32 }) ∧
      (d.malformed = some st) ∧ (s.fabricOpen = true) ∧ (u.oppReady = true) ∧ (v.state = .opened) ∧ (v.push = true) ∧
      (v.full = false ∨ v.fifoUse < 64) ∧ (s.fenced = false) ∧ (v.fifoUse < 64)) ∧
    (let s : State := upQ { state := .opened, push := true }; let u : State := drowseExit s; let q : QNum := 5;
      let b : List Byte := pushB 6 1 0; let v := u.queue q; let d := descOf b v.accepted;
      let s1 := u.setQueue q { v with accepted := (v.accepted + 1) % 2 ^ 32 }; ∃ st, (TablesOk s) ∧ (u = drowseExit s) ∧
      (v = u.queue q) ∧ (d = descOf b v.accepted) ∧ (s1 = u.setQueue q { v with accepted := (v.accepted + 1) % 2 ^ 32 }) ∧
      (d.malformed = some st) ∧ (s.fabricOpen = true) ∧ (u.oppReady = true) ∧ (v.state = .opened) ∧ (v.push = true) ∧
      (v.full = false ∨ v.fifoUse < 64) ∧ (s.fenced = false) ∧ (v.fifoUse < 64)) ∧
    (let s : State := upQ { state := .opened, push := true, accepted := 0xFFFFFFFF }; let u : State := drowseExit s;
      let q : QNum := 5; let b : List Byte := pushB 3 1 5; let v := u.queue q; let d := descOf b v.accepted;
      let s1 := u.setQueue q { v with accepted := (v.accepted + 1) % 2 ^ 32 }; ∃ st, (TablesOk s) ∧ (u = drowseExit s) ∧
      (v = u.queue q) ∧ (d = descOf b v.accepted) ∧ (s1 = u.setQueue q { v with accepted := (v.accepted + 1) % 2 ^ 32 }) ∧
      (d.malformed = some st) ∧ (s.fabricOpen = true) ∧ (u.oppReady = true) ∧ (v.state = .opened) ∧ (v.push = true) ∧
      (v.full = false ∨ v.fifoUse < 64) ∧ (s.fenced = false) ∧ (v.fifoUse < 64)) ∧
    (let s : State := upQ { state := .opened, push := true, waiting := List.replicate 63 dsc }; let u : State := drowseExit s;
      let q : QNum := 5; let b : List Byte := pushB 3 1 8; let v := u.queue q; let d := descOf b v.accepted;
      let s1 := u.setQueue q { v with accepted := (v.accepted + 1) % 2 ^ 32 }; (TablesOk s) ∧ (u = drowseExit s) ∧
      (v = u.queue q) ∧ (d = descOf b v.accepted) ∧ (s1 = u.setQueue q { v with accepted := (v.accepted + 1) % 2 ^ 32 }) ∧
      (s.fabricOpen = true) ∧ (u.oppReady = true) ∧ (v.state = .opened) ∧ (v.push = true) ∧ (v.full = false ∨ v.fifoUse < 64) ∧
      (d.malformed = none) ∧ (s.fenced = false) ∧ (v.fifoUse < 64)) :=
  ⟨⟨tablesOk_of (by decide +kernel), rfl, rfl, rfl, rfl, by decide +kernel⟩,
   ⟨tablesOk_of (by decide +kernel), rfl, rfl, rfl, rfl, by decide +kernel⟩,
   ⟨tablesOk_of (by decide +kernel), rfl, rfl, rfl, rfl, by decide +kernel⟩,
   ⟨tablesOk_of (by decide +kernel), rfl, rfl, rfl, rfl, by decide +kernel⟩,
   ⟨tablesOk_of (by decide +kernel), rfl, rfl, rfl, rfl, by decide +kernel⟩,
   ⟨(Option.get ((descOf (pushB 0 2 0 : List Byte) ((drowseExit (upQ { state := .opened, push := true } : State) : State).queue (5 : QNum)).accepted).malformed) (by decide +kernel)),
      tablesOk_of (by decide +kernel), rfl, rfl, rfl, rfl, (Option.some_get _).symm, by decide +kernel⟩,
   ⟨(Option.get ((descOf (pushB 6 1 0 : List Byte) ((drowseExit (upQ { state := .opened, push := true } : State) : State).queue (5 : QNum)).accepted).malformed) (by decide +kernel)),
      tablesOk_of (by decide +kernel), rfl, rfl, rfl, rfl, (Option.some_get _).symm, by decide +kernel⟩,
   ⟨(Option.get ((descOf (pushB 3 1 5 : List Byte) ((drowseExit (upQ { state := .opened, push := true, accepted := 0xFFFFFFFF } : State) : State).queue (5 : QNum)).accepted).malformed) (by decide +kernel)),
      tablesOk_of (by decide +kernel), rfl, rfl, rfl, rfl, (Option.some_get _).symm, by decide +kernel⟩,
   ⟨tablesOk_of (by decide +kernel), rfl, rfl, rfl, rfl, by decide +kernel⟩⟩

/-- States and operands that meet the hypotheses of `Obligations.PushesAndCompletions` (Completions). -/
theorem witness_Completions :
    (let s : State := upQ { state := .opened }; let q := 5; let c := ({ dsc with flags := 1 } : Desc).cplOf 3 9 9 false;
      let v := s.queue q; let t : State := qComplete s q c; (TablesOk s) ∧ (v = s.queue q) ∧ (t = qComplete s q c) ∧
      (bitOf c.flags 0 = true) ∧ (v.state = .opened) ∧ (v.noEntries = false) ∧ (v.full = false) ∧ (v.held = [])) ∧
    (let s : State := upQ { state := .opened, cplTail := 63 }; let q := 5;
      let c := ({ dsc with flags := 1 } : Desc).cplOf 3 9 9 true; let v := s.queue q; let t : State := qComplete s q c;
      (TablesOk s) ∧ (v = s.queue q) ∧ (t = qComplete s q c) ∧ (bitOf c.flags 0 = true) ∧ (v.state = .opened) ∧
      (v.noEntries = false) ∧ (v.full = false) ∧ (v.held = [])) ∧
    (let s : State := upQ { state := .opened, unconsumed := List.replicate 64 false }; let q := 5;
      let c := ({ dsc with flags := 1 } : Desc).cplOf 3 9 9 true; let v := s.queue q; (v = s.queue q) ∧
      (bitOf c.flags 0 = true) ∧ (v.state = .opened) ∧ (v.noEntries = false) ∧ (v.full = true)) ∧
    (let s : State := upQ { state := .opened }; let q := 5;
      let c := ({ dsc with flags := 2, sync := 7 } : Desc).cplOf 3 9 9 false;
      ((bitOf c.flags 0 = false ∧ c.imm = false) ∨ (s.queue q).state = .error)) ∧
    (let s : State := upQ { state := .error }; let q := 5;
      let c := ({ dsc with flags := 3, sync := 7 } : Desc).cplOf 3 9 9 true;
      ((bitOf c.flags 0 = false ∧ c.imm = false) ∨ (s.queue q).state = .error)) ∧
    (let s : State := upQ { state := .opened, writing := 1 }; let q := 5; let o := some 3;
      let t : State := cplWritten s q o false; (TablesOk s) ∧ (t = cplWritten s q o false) ∧ ((s.queue q).noEntries = false) ∧
      ((s.queue q).held = [])) ∧
    (let s : State := upQ { state := .error, writing := 1 }; let q := 5; let o := none;
      let t : State := cplWritten s q o false; (TablesOk s) ∧ (t = cplWritten s q o false) ∧ ((s.queue q).noEntries = false) ∧
      ((s.queue q).held = [])) :=
  ⟨⟨tablesOk_of (by decide +kernel), rfl, rfl, by decide +kernel⟩,
   ⟨tablesOk_of (by decide +kernel), rfl, rfl, by decide +kernel⟩,
   ⟨rfl, by decide +kernel⟩,
   by decide +kernel,
   by decide +kernel,
   ⟨tablesOk_of (by decide +kernel), rfl, by decide +kernel⟩,
   ⟨tablesOk_of (by decide +kernel), rfl, by decide +kernel⟩⟩

/-- States and operands that meet the hypotheses of `Obligations.QueueCommands`. -/
theorem witness_QueueCommands :
    (let s : State := (upQ { push := true }).wr BDG_FENCE.SW 1; let q : QNum := 5; let v := s.queue q; (TablesOk s) ∧
      (v = s.queue q) ∧ (s.fabricOpen = true) ∧ (s.on BDG_STATUS.FW_RESTART = false) ∧ (openStatus s v ≠ stOK)) ∧
    (let s : State := upQ { state := .opened }; let q : QNum := 5; let v := s.queue q; (TablesOk s) ∧ (v = s.queue q) ∧
      (s.fabricOpen = true) ∧ (s.on BDG_STATUS.FW_RESTART = false) ∧ (v.state = .opened)) ∧
    (let s : State := upQ { state := .error, waiting := [dsc] }; let q : QNum := 5; let v := s.queue q; (TablesOk s) ∧
      (v = s.queue q) ∧ (s.fabricOpen = true) ∧ (s.on BDG_STATUS.FW_RESTART = false) ∧ (v.state = .error)) ∧
    (let s : State := (upQ { push := true }).wr BDG_STATUS.FW_RESTART 1; let q : QNum := 5; let v := s.queue q; (TablesOk s) ∧
      (v = s.queue q) ∧ (s.fabricOpen = true) ∧ (s.on BDG_STATUS.FW_RESTART = true)) ∧
    (let s : State := (upQ { push := true }).wr BDG_STATUS.FW_RESTART 1; let q : QNum := 5; let v := s.queue q; (TablesOk s) ∧
      (v = s.queue q) ∧ (s.fabricOpen = true) ∧ (s.on BDG_STATUS.FW_RESTART = true)) ∧
    (let s : State := upQ { state := .closing }; let q : QNum := 5; let v := s.queue q; (TablesOk s) ∧ (v = s.queue q) ∧
      (v.state = .closing) ∧ (v.drained = true)) ∧
    (let s : State := upQ { state := .closing, waiting := [dsc] }; let q : QNum := 5; let v := s.queue q; (TablesOk s) ∧
      (v = s.queue q) ∧ (v.state = .closing) ∧ (v.drained = false)) ∧
    (let s : State := upQ { state := .opened }; let q : QNum := 5; let v := s.queue q; let tail : BitVec 16 := 63;
      (TablesOk s) ∧ (v = s.queue q) ∧ (s.fabricOpen = true) ∧ (tail.toNat < v.size) ∧ (v.state = .opened) ∧ (v.push = false)) ∧
    (let s : State := upQ { state := .opened }; let q : QNum := 5; let v := s.queue q; let tail : BitVec 16 := 0;
      (TablesOk s) ∧ (v = s.queue q) ∧ (s.fabricOpen = true) ∧ (tail.toNat < v.size) ∧ (v.state = .opened) ∧ (v.push = false)) ∧
    (let s : State := upQ { state := .opened, fetching := true, head := 1 }; let q : QNum := 5; let v := s.queue q;
      let tail : BitVec 16 := 3; (TablesOk s) ∧ (v = s.queue q) ∧ (s.fabricOpen = true) ∧ (tail.toNat < v.size) ∧
      (v.state = .opened) ∧ (v.push = false)) ∧
    (let s : State := upQ { state := .opened, unconsumed := List.replicate 64 true }; let q : QNum := 5; let v := s.queue q;
      let tail : BitVec 16 := 3; (TablesOk s) ∧ (v = s.queue q) ∧ (s.fabricOpen = true) ∧ (tail.toNat < v.size) ∧
      (v.state = .opened) ∧ (v.push = false)) ∧
    (let s : State := upQ { state := .opened }; let q : QNum := 5; let v := s.queue q; let tail : BitVec 16 := 64;
      (TablesOk s) ∧ (v = s.queue q) ∧ (s.fabricOpen = true) ∧ (v.size ≤ tail.toNat ∨ v.state ≠ .opened ∨ v.push = true)) :=
  ⟨⟨tablesOk_of (by decide +kernel), rfl, by decide +kernel⟩,
   ⟨tablesOk_of (by decide +kernel), rfl, by decide +kernel⟩,
   ⟨tablesOk_of (by decide +kernel), rfl, by decide +kernel⟩,
   ⟨tablesOk_of (by decide +kernel), rfl, by decide +kernel⟩,
   ⟨tablesOk_of (by decide +kernel), rfl, by decide +kernel⟩,
   ⟨tablesOk_of (by decide +kernel), rfl, by decide +kernel⟩,
   ⟨tablesOk_of (by decide +kernel), rfl, by decide +kernel⟩,
   ⟨tablesOk_of (by decide +kernel), rfl, by decide +kernel⟩,
   ⟨tablesOk_of (by decide +kernel), rfl, by decide +kernel⟩,
   ⟨tablesOk_of (by decide +kernel), rfl, by decide +kernel⟩,
   ⟨tablesOk_of (by decide +kernel), rfl, by decide +kernel⟩,
   ⟨tablesOk_of (by decide +kernel), rfl, by decide +kernel⟩⟩

/-- States and operands that meet the hypotheses of `Obligations.QueueCommands`. -/
theorem witness_QueueCommands_2 :
    (let s : State := upQ { state := .opened, cplTail := 5, unconsumed := [true, false, true] }; let q : QNum := 5;
      let v := s.queue q; let head : BitVec 16 := 3; (TablesOk s) ∧ (v = s.queue q) ∧ (s.fabricOpen = true) ∧
      (head.toNat < v.size) ∧ (v.isClosed = false) ∧ (v.held = []) ∧
      ((v.cplTail + v.size - head.toNat) % v.size ≤ v.unconsumed.length)) ∧
    (let s : State := upQ { state := .opened, cplTail := 5, unconsumed := List.replicate 64 true }; let q : QNum := 5;
      let v := s.queue q; let head : BitVec 16 := 5; (TablesOk s) ∧ (v = s.queue q) ∧ (s.fabricOpen = true) ∧
      (head.toNat < v.size) ∧ (v.isClosed = false) ∧ (v.held = []) ∧
      ((v.cplTail + v.size - head.toNat) % v.size ≤ v.unconsumed.length)) ∧
    (let s : State := upQ { state := .opened, cplTail := 5, unconsumed := [true, false, true] }; let q : QNum := 5;
      let v := s.queue q; let head : BitVec 16 := 1; (TablesOk s) ∧ (v = s.queue q) ∧ (s.fabricOpen = true) ∧
      (v.size ≤ head.toNat ∨ v.isClosed = true ∨ v.unconsumed.length < (v.cplTail + v.size - head.toNat) % v.size)) ∧
    (let s : State := upQ { state := .opened, cplTail := 5, unconsumed := [true, false, true] }; let q : QNum := 5;
      let v := s.queue q; let head : BitVec 16 := 65535; (TablesOk s) ∧ (v = s.queue q) ∧ (s.fabricOpen = true) ∧
      (v.size ≤ head.toNat ∨ v.isClosed = true ∨ v.unconsumed.length < (v.cplTail + v.size - head.toNat) % v.size)) ∧
    (let s : State := upQ { state := .closed, push := true, cplTail := 5, unconsumed := [true, false, true] };
      let q : QNum := 5; let v := s.queue q; let head : BitVec 16 := 1; (TablesOk s) ∧ (v = s.queue q) ∧
      (s.fabricOpen = true) ∧
      (v.size ≤ head.toNat ∨ v.isClosed = true ∨ v.unconsumed.length < (v.cplTail + v.size - head.toNat) % v.size)) ∧
    (let s : State :=
        { upQ { state := .opened, fetching := true } with ctxs := [(0, { state := .faulted })], hmp := { up.hmp with returned := [{ k := .descFetch 5 62 4, write := false, len := 256, got := [⟨0, pushB 0 1 0 ++ pushB 1 1 0, 0⟩, ⟨128, pushB 9 1 0 ++ pushB 0 2 0, 0⟩], left := 0 }] } };
      let q : QNum := 5; let v := s.queue q;
      let x :=
        ({ k := .descFetch 5 62 4, write := false, len := 256, got := [⟨0, pushB 0 1 0 ++ pushB 1 1 0, 0⟩, ⟨128, pushB 9 1 0 ++ pushB 0 2 0, 0⟩], left := 0 } : Xfer);
      (TablesOk s) ∧ (v = s.queue q) ∧
      (s.hmp.returned.find? (fun x => match x.k with | .descFetch q' _ _ => q' = q.val | _ => false) = some x) ∧
      ((s.ctx v.context).state = .faulted) ∧ (v.isClosed = false) ∧ (v.noEntries = false)) ∧
    (let s : State :=
        { upQ { state := .error, noEntries := true, fetching := true } with hmp := { up.hmp with returned := [{ k := .descFetch 5 62 4, write := false, len := 256, got := [⟨0, pushB 0 1 0 ++ pushB 1 1 0, 0⟩, ⟨128, pushB 9 1 0 ++ pushB 0 2 0, 0⟩], left := 0 }] } };
      let q : QNum := 5; let v := s.queue q;
      let x :=
        ({ k := .descFetch 5 62 4, write := false, len := 256, got := [⟨0, pushB 0 1 0 ++ pushB 1 1 0, 0⟩, ⟨128, pushB 9 1 0 ++ pushB 0 2 0, 0⟩], left := 0 } : Xfer);
      let first := 62; let n := 4; (TablesOk s) ∧ (v = s.queue q) ∧
      (s.hmp.returned.find? (fun x => match x.k with | .descFetch q' _ _ => q' = q.val | _ => false) = some x) ∧
      (x.k = .descFetch q.val first n) ∧ (v.noEntries = true)) ∧
    (let s : State :=
        { upQ { state := .opened, fetching := true } with hmp := { up.hmp with returned := [{ k := .descFetch 5 62 4, write := false, len := 256, got := [⟨0, pushB 0 1 0 ++ pushB 1 1 0, 0⟩, ⟨128, pushB 9 1 0 ++ pushB 0 2 0, 0⟩], left := 0 }] } };
      let q : QNum := 5; let v := s.queue q;
      let x :=
        { k := .descFetch 5 62 4, write := false, len := 256, got := [⟨0, pushB 0 1 0 ++ pushB 1 1 0, 0⟩, ⟨128, pushB 9 1 0 ++ pushB 0 2 0, 0⟩], left := 0 };
      let first := 62; let n := 4; (TablesOk s) ∧ (v = s.queue q) ∧
      (s.hmp.returned.find? (fun x => match x.k with | .descFetch q' _ _ => q' = q.val | _ => false) = some x) ∧
      (x.k = .descFetch q.val first n) ∧ (v.state = .opened) ∧ (v.noEntries = false) ∧ ((s.ctx v.context).state ≠ .faulted)) :=
  ⟨⟨tablesOk_of (by decide +kernel), rfl, by decide +kernel⟩,
   ⟨tablesOk_of (by decide +kernel), rfl, by decide +kernel⟩,
   ⟨tablesOk_of (by decide +kernel), rfl, by decide +kernel⟩,
   ⟨tablesOk_of (by decide +kernel), rfl, by decide +kernel⟩,
   ⟨tablesOk_of (by decide +kernel), rfl, by decide +kernel⟩,
   ⟨tablesOk_of (by decide +kernel), rfl, by decide +kernel⟩,
   ⟨tablesOk_of (by decide +kernel), rfl, by decide +kernel⟩,
   ⟨tablesOk_of (by decide +kernel), rfl, by decide +kernel⟩⟩

/-- States and operands that meet the hypotheses of `Obligations.DescriptorStarts`. -/
theorem witness_DescriptorStarts :
    (let s : State := upQ { state := .opened, context := 3, waiting := [{ dsc with opcode := 1, flags := 3, sync := 65535 }] };
      let q : QNum := 5; let op := 1; ∃ d, let v := s.queue q; let c := s.ctx v.context; (descHead s q op = some d) ∧
      (v = s.queue q) ∧ (TablesOk s) ∧ (c = s.ctx v.context) ∧ (d.wantsCnt = true) ∧ (synMayUse s v.context d.sync = false)) ∧
    (let s : State := upQ { state := .opened, context := 3, waiting := [{ dsc with flags := 1 }] }; let q : QNum := 5;
      let op := 0; ∃ d, let v := s.queue q; let c := s.ctx v.context; ∃ e, ∃ u : State, (descHead s q op = some d) ∧
      (v = s.queue q) ∧ (TablesOk s) ∧ (c = s.ctx v.context) ∧ (d.wantsCnt = false ∨ synMayUse s v.context d.sync = true) ∧
      (e = { id := c.nextId, opcode := if op = 5 then 0x44 else op + 0x3F, desc := some (q.val, d.index), order := d.ordered }) ∧
      (u =
        (s.setQueue q { v with waiting := v.waiting.drop 1, started := v.started ++ [d] }).setCtx v.context { c with beq := c.beq ++ [e], nextId := c.nextId + 1 }) ∧
      (op = 0)) ∧
    (let s : State := upQ { state := .opened, context := 3, waiting := [{ dsc with opcode := 2, flags := 1 }] };
      let q : QNum := 5; let op := 2; ∃ d, let v := s.queue q; let c := s.ctx v.context; ∃ e, ∃ u : State,
      (descHead s q op = some d) ∧ (v = s.queue q) ∧ (TablesOk s) ∧ (c = s.ctx v.context) ∧
      (e = { id := c.nextId, opcode := if op = 5 then 0x44 else op + 0x3F, desc := some (q.val, d.index), order := d.ordered }) ∧
      (u =
        (s.setQueue q { v with waiting := v.waiting.drop 1, started := v.started ++ [d] }).setCtx v.context { c with beq := c.beq ++ [e], nextId := c.nextId + 1 }) ∧
      (d.wantsCnt = false ∨ synMayUse s v.context d.sync = true) ∧ (op ≠ 0)) ∧
    (let s : State := upQ { state := .opened, context := 3, waiting := [{ dsc with opcode := 5, flags := 1 }] };
      let q : QNum := 5; let op := 5; ∃ d, let v := s.queue q; let c := s.ctx v.context; ∃ e, ∃ u : State,
      (descHead s q op = some d) ∧ (v = s.queue q) ∧ (TablesOk s) ∧ (c = s.ctx v.context) ∧
      (e = { id := c.nextId, opcode := if op = 5 then 0x44 else op + 0x3F, desc := some (q.val, d.index), order := d.ordered }) ∧
      (u =
        (s.setQueue q { v with waiting := v.waiting.drop 1, started := v.started ++ [d] }).setCtx v.context { c with beq := c.beq ++ [e], nextId := c.nextId + 1 }) ∧
      (d.wantsCnt = false ∨ synMayUse s v.context d.sync = true) ∧ (op ≠ 0)) ∧
    (let s : State := upQ { state := .opened, context := 3, waiting := [{ dsc with opcode := 2, flags := 1 }] };
      let q : QNum := 5; let op := 2; ∃ d, let v := s.queue q; let c := s.ctx v.context; ∃ e, ∃ u : State,
      (descHead s q op = some d) ∧ (v = s.queue q) ∧ (TablesOk s) ∧ (c = s.ctx v.context) ∧
      (e = { id := c.nextId, opcode := if op = 5 then 0x44 else op + 0x3F, desc := some (q.val, d.index), order := d.ordered }) ∧
      (u =
        (s.setQueue q { v with waiting := v.waiting.drop 1, started := v.started ++ [d] }).setCtx v.context { c with beq := c.beq ++ [e], nextId := c.nextId + 1 }) ∧
      (d.wantsCnt = false ∨ synMayUse s v.context d.sync = true) ∧ (op ≠ 0) ∧ (op ≠ 5) ∧ (c.beq = [])) ∧
    (let s : State := upQ { state := .opened, context := 3, waiting := [{ dsc with opcode := 3, flags := 1 }] };
      let q : QNum := 5; let op := 3; ∃ d, let v := s.queue q; let c := s.ctx v.context; ∃ e, ∃ u : State,
      (descHead s q op = some d) ∧ (v = s.queue q) ∧ (TablesOk s) ∧ (c = s.ctx v.context) ∧
      (e = { id := c.nextId, opcode := if op = 5 then 0x44 else op + 0x3F, desc := some (q.val, d.index), order := d.ordered }) ∧
      (u =
        (s.setQueue q { v with waiting := v.waiting.drop 1, started := v.started ++ [d] }).setCtx v.context { c with beq := c.beq ++ [e], nextId := c.nextId + 1 }) ∧
      (d.wantsCnt = false ∨ synMayUse s v.context d.sync = true) ∧ (op ≠ 0) ∧ (op ≠ 5) ∧ (c.beq = [])) ∧
    (let s : State := upQ { state := .closing, context := 3, waiting := [{ dsc with opcode := 4, flags := 1, dest := 5 }] };
      let q : QNum := 5; let op := 4; ∃ d, let v := s.queue q; let c := s.ctx v.context; ∃ e, ∃ u : State,
      (descHead s q op = some d) ∧ (v = s.queue q) ∧ (TablesOk s) ∧ (c = s.ctx v.context) ∧
      (e = { id := c.nextId, opcode := if op = 5 then 0x44 else op + 0x3F, desc := some (q.val, d.index), order := d.ordered }) ∧
      (u =
        (s.setQueue q { v with waiting := v.waiting.drop 1, started := v.started ++ [d] }).setCtx v.context { c with beq := c.beq ++ [e], nextId := c.nextId + 1 }) ∧
      (d.wantsCnt = false ∨ synMayUse s v.context d.sync = true) ∧ (op ≠ 0) ∧ (op ≠ 5) ∧ (c.beq = [])) ∧
    (let s : State := upQ { state := .opened, context := 3, waiting := [{ dsc with opcode := 1, flags := 1, dest := 5 }] };
      let q : QNum := 5; let op := 1; ∃ d, let v := s.queue q; let c := s.ctx v.context; ∃ e, ∃ u : State,
      (descHead s q op = some d) ∧ (v = s.queue q) ∧ (TablesOk s) ∧ (c = s.ctx v.context) ∧
      (e = { id := c.nextId, opcode := if op = 5 then 0x44 else op + 0x3F, desc := some (q.val, d.index), order := d.ordered }) ∧
      (u =
        (s.setQueue q { v with waiting := v.waiting.drop 1, started := v.started ++ [d] }).setCtx v.context { c with beq := c.beq ++ [e], nextId := c.nextId + 1 }) ∧
      (d.wantsCnt = false ∨ synMayUse s v.context d.sync = true) ∧ (op ≠ 0) ∧ (op ≠ 5) ∧ (c.beq = [])) ∧
    (let s : State := upQ { state := .opened, context := 3, waiting := [{ dsc with opcode := 5, flags := 1 }] };
      let q : QNum := 5; let op := 5; ∃ d, let v := s.queue q; let c := s.ctx v.context; ∃ e, ∃ u : State,
      (descHead s q op = some d) ∧ (v = s.queue q) ∧ (TablesOk s) ∧ (c = s.ctx v.context) ∧
      (e = { id := c.nextId, opcode := if op = 5 then 0x44 else op + 0x3F, desc := some (q.val, d.index), order := d.ordered }) ∧
      (u =
        (s.setQueue q { v with waiting := v.waiting.drop 1, started := v.started ++ [d] }).setCtx v.context { c with beq := c.beq ++ [e], nextId := c.nextId + 1 }) ∧
      (op = 5) ∧ (d.wantsCnt = false ∨ synMayUse s v.context d.sync = true) ∧ (c.beq = [])) :=
  ⟨⟨(Option.get (descHead (upQ { state := .opened, context := 3, waiting := [{ dsc with opcode := 1, flags := 3, sync := 65535 }] } : State) (5 : QNum) (1)) (by decide +kernel)),
      (Option.some_get _).symm, rfl, tablesOk_of (by decide +kernel), rfl, by decide +kernel⟩,
   ⟨(Option.get (descHead (upQ { state := .opened, context := 3, waiting := [{ dsc with flags := 1 }] } : State) (5 : QNum) (0)) (by decide +kernel)),
      ({ id := ((upQ { state := .opened, context := 3, waiting := [{ dsc with flags := 1 }] } : State).ctx ((upQ { state := .opened, context := 3, waiting := [{ dsc with flags := 1 }] } : State).queue (5 : QNum)).context).nextId, opcode := if (0) = 5 then 0x44 else (0) + 0x3F, desc := some ((5 : QNum).val, (Option.get (descHead (upQ { state := .opened, context := 3, waiting := [{ dsc with flags := 1 }] } : State) (5 : QNum) (0)) (by decide +kernel)).index), order := (Option.get (descHead (upQ { state := .opened, context := 3, waiting := [{ dsc with flags := 1 }] } : State) (5 : QNum) (0)) (by decide +kernel)).ordered }),
      (((upQ { state := .opened, context := 3, waiting := [{ dsc with flags := 1 }] } : State).setQueue (5 : QNum) { ((upQ { state := .opened, context := 3, waiting := [{ dsc with flags := 1 }] } : State).queue (5 : QNum)) with waiting := ((upQ { state := .opened, context := 3, waiting := [{ dsc with flags := 1 }] } : State).queue (5 : QNum)).waiting.drop 1, started := ((upQ { state := .opened, context := 3, waiting := [{ dsc with flags := 1 }] } : State).queue (5 : QNum)).started ++ [(Option.get (descHead (upQ { state := .opened, context := 3, waiting := [{ dsc with flags := 1 }] } : State) (5 : QNum) (0)) (by decide +kernel))] }).setCtx ((upQ { state := .opened, context := 3, waiting := [{ dsc with flags := 1 }] } : State).queue (5 : QNum)).context { ((upQ { state := .opened, context := 3, waiting := [{ dsc with flags := 1 }] } : State).ctx ((upQ { state := .opened, context := 3, waiting := [{ dsc with flags := 1 }] } : State).queue (5 : QNum)).context) with beq := ((upQ { state := .opened, context := 3, waiting := [{ dsc with flags := 1 }] } : State).ctx ((upQ { state := .opened, context := 3, waiting := [{ dsc with flags := 1 }] } : State).queue (5 : QNum)).context).beq ++ [({ id := ((upQ { state := .opened, context := 3, waiting := [{ dsc with flags := 1 }] } : State).ctx ((upQ { state := .opened, context := 3, waiting := [{ dsc with flags := 1 }] } : State).queue (5 : QNum)).context).nextId, opcode := if (0) = 5 then 0x44 else (0) + 0x3F, desc := some ((5 : QNum).val, (Option.get (descHead (upQ { state := .opened, context := 3, waiting := [{ dsc with flags := 1 }] } : State) (5 : QNum) (0)) (by decide +kernel)).index), order := (Option.get (descHead (upQ { state := .opened, context := 3, waiting := [{ dsc with flags := 1 }] } : State) (5 : QNum) (0)) (by decide +kernel)).ordered })], nextId := ((upQ { state := .opened, context := 3, waiting := [{ dsc with flags := 1 }] } : State).ctx ((upQ { state := .opened, context := 3, waiting := [{ dsc with flags := 1 }] } : State).queue (5 : QNum)).context).nextId + 1 } : State),
      (Option.some_get _).symm, rfl, tablesOk_of (by decide +kernel), rfl, by decide +kernel, rfl, rfl, rfl⟩,
   ⟨(Option.get (descHead (upQ { state := .opened, context := 3, waiting := [{ dsc with opcode := 2, flags := 1 }] } : State) (5 : QNum) (2)) (by decide +kernel)),
      ({ id := ((upQ { state := .opened, context := 3, waiting := [{ dsc with opcode := 2, flags := 1 }] } : State).ctx ((upQ { state := .opened, context := 3, waiting := [{ dsc with opcode := 2, flags := 1 }] } : State).queue (5 : QNum)).context).nextId, opcode := if (2) = 5 then 0x44 else (2) + 0x3F, desc := some ((5 : QNum).val, (Option.get (descHead (upQ { state := .opened, context := 3, waiting := [{ dsc with opcode := 2, flags := 1 }] } : State) (5 : QNum) (2)) (by decide +kernel)).index), order := (Option.get (descHead (upQ { state := .opened, context := 3, waiting := [{ dsc with opcode := 2, flags := 1 }] } : State) (5 : QNum) (2)) (by decide +kernel)).ordered }),
      (((upQ { state := .opened, context := 3, waiting := [{ dsc with opcode := 2, flags := 1 }] } : State).setQueue (5 : QNum) { ((upQ { state := .opened, context := 3, waiting := [{ dsc with opcode := 2, flags := 1 }] } : State).queue (5 : QNum)) with waiting := ((upQ { state := .opened, context := 3, waiting := [{ dsc with opcode := 2, flags := 1 }] } : State).queue (5 : QNum)).waiting.drop 1, started := ((upQ { state := .opened, context := 3, waiting := [{ dsc with opcode := 2, flags := 1 }] } : State).queue (5 : QNum)).started ++ [(Option.get (descHead (upQ { state := .opened, context := 3, waiting := [{ dsc with opcode := 2, flags := 1 }] } : State) (5 : QNum) (2)) (by decide +kernel))] }).setCtx ((upQ { state := .opened, context := 3, waiting := [{ dsc with opcode := 2, flags := 1 }] } : State).queue (5 : QNum)).context { ((upQ { state := .opened, context := 3, waiting := [{ dsc with opcode := 2, flags := 1 }] } : State).ctx ((upQ { state := .opened, context := 3, waiting := [{ dsc with opcode := 2, flags := 1 }] } : State).queue (5 : QNum)).context) with beq := ((upQ { state := .opened, context := 3, waiting := [{ dsc with opcode := 2, flags := 1 }] } : State).ctx ((upQ { state := .opened, context := 3, waiting := [{ dsc with opcode := 2, flags := 1 }] } : State).queue (5 : QNum)).context).beq ++ [({ id := ((upQ { state := .opened, context := 3, waiting := [{ dsc with opcode := 2, flags := 1 }] } : State).ctx ((upQ { state := .opened, context := 3, waiting := [{ dsc with opcode := 2, flags := 1 }] } : State).queue (5 : QNum)).context).nextId, opcode := if (2) = 5 then 0x44 else (2) + 0x3F, desc := some ((5 : QNum).val, (Option.get (descHead (upQ { state := .opened, context := 3, waiting := [{ dsc with opcode := 2, flags := 1 }] } : State) (5 : QNum) (2)) (by decide +kernel)).index), order := (Option.get (descHead (upQ { state := .opened, context := 3, waiting := [{ dsc with opcode := 2, flags := 1 }] } : State) (5 : QNum) (2)) (by decide +kernel)).ordered })], nextId := ((upQ { state := .opened, context := 3, waiting := [{ dsc with opcode := 2, flags := 1 }] } : State).ctx ((upQ { state := .opened, context := 3, waiting := [{ dsc with opcode := 2, flags := 1 }] } : State).queue (5 : QNum)).context).nextId + 1 } : State),
      (Option.some_get _).symm, rfl, tablesOk_of (by decide +kernel), rfl, rfl, rfl, by decide +kernel⟩,
   ⟨(Option.get (descHead (upQ { state := .opened, context := 3, waiting := [{ dsc with opcode := 5, flags := 1 }] } : State) (5 : QNum) (5)) (by decide +kernel)),
      ({ id := ((upQ { state := .opened, context := 3, waiting := [{ dsc with opcode := 5, flags := 1 }] } : State).ctx ((upQ { state := .opened, context := 3, waiting := [{ dsc with opcode := 5, flags := 1 }] } : State).queue (5 : QNum)).context).nextId, opcode := if (5) = 5 then 0x44 else (5) + 0x3F, desc := some ((5 : QNum).val, (Option.get (descHead (upQ { state := .opened, context := 3, waiting := [{ dsc with opcode := 5, flags := 1 }] } : State) (5 : QNum) (5)) (by decide +kernel)).index), order := (Option.get (descHead (upQ { state := .opened, context := 3, waiting := [{ dsc with opcode := 5, flags := 1 }] } : State) (5 : QNum) (5)) (by decide +kernel)).ordered }),
      (((upQ { state := .opened, context := 3, waiting := [{ dsc with opcode := 5, flags := 1 }] } : State).setQueue (5 : QNum) { ((upQ { state := .opened, context := 3, waiting := [{ dsc with opcode := 5, flags := 1 }] } : State).queue (5 : QNum)) with waiting := ((upQ { state := .opened, context := 3, waiting := [{ dsc with opcode := 5, flags := 1 }] } : State).queue (5 : QNum)).waiting.drop 1, started := ((upQ { state := .opened, context := 3, waiting := [{ dsc with opcode := 5, flags := 1 }] } : State).queue (5 : QNum)).started ++ [(Option.get (descHead (upQ { state := .opened, context := 3, waiting := [{ dsc with opcode := 5, flags := 1 }] } : State) (5 : QNum) (5)) (by decide +kernel))] }).setCtx ((upQ { state := .opened, context := 3, waiting := [{ dsc with opcode := 5, flags := 1 }] } : State).queue (5 : QNum)).context { ((upQ { state := .opened, context := 3, waiting := [{ dsc with opcode := 5, flags := 1 }] } : State).ctx ((upQ { state := .opened, context := 3, waiting := [{ dsc with opcode := 5, flags := 1 }] } : State).queue (5 : QNum)).context) with beq := ((upQ { state := .opened, context := 3, waiting := [{ dsc with opcode := 5, flags := 1 }] } : State).ctx ((upQ { state := .opened, context := 3, waiting := [{ dsc with opcode := 5, flags := 1 }] } : State).queue (5 : QNum)).context).beq ++ [({ id := ((upQ { state := .opened, context := 3, waiting := [{ dsc with opcode := 5, flags := 1 }] } : State).ctx ((upQ { state := .opened, context := 3, waiting := [{ dsc with opcode := 5, flags := 1 }] } : State).queue (5 : QNum)).context).nextId, opcode := if (5) = 5 then 0x44 else (5) + 0x3F, desc := some ((5 : QNum).val, (Option.get (descHead (upQ { state := .opened, context := 3, waiting := [{ dsc with opcode := 5, flags := 1 }] } : State) (5 : QNum) (5)) (by decide +kernel)).index), order := (Option.get (descHead (upQ { state := .opened, context := 3, waiting := [{ dsc with opcode := 5, flags := 1 }] } : State) (5 : QNum) (5)) (by decide +kernel)).ordered })], nextId := ((upQ { state := .opened, context := 3, waiting := [{ dsc with opcode := 5, flags := 1 }] } : State).ctx ((upQ { state := .opened, context := 3, waiting := [{ dsc with opcode := 5, flags := 1 }] } : State).queue (5 : QNum)).context).nextId + 1 } : State),
      (Option.some_get _).symm, rfl, tablesOk_of (by decide +kernel), rfl, rfl, rfl, by decide +kernel⟩,
   ⟨(Option.get (descHead (upQ { state := .opened, context := 3, waiting := [{ dsc with opcode := 2, flags := 1 }] } : State) (5 : QNum) (2)) (by decide +kernel)),
      ({ id := ((upQ { state := .opened, context := 3, waiting := [{ dsc with opcode := 2, flags := 1 }] } : State).ctx ((upQ { state := .opened, context := 3, waiting := [{ dsc with opcode := 2, flags := 1 }] } : State).queue (5 : QNum)).context).nextId, opcode := if (2) = 5 then 0x44 else (2) + 0x3F, desc := some ((5 : QNum).val, (Option.get (descHead (upQ { state := .opened, context := 3, waiting := [{ dsc with opcode := 2, flags := 1 }] } : State) (5 : QNum) (2)) (by decide +kernel)).index), order := (Option.get (descHead (upQ { state := .opened, context := 3, waiting := [{ dsc with opcode := 2, flags := 1 }] } : State) (5 : QNum) (2)) (by decide +kernel)).ordered }),
      (((upQ { state := .opened, context := 3, waiting := [{ dsc with opcode := 2, flags := 1 }] } : State).setQueue (5 : QNum) { ((upQ { state := .opened, context := 3, waiting := [{ dsc with opcode := 2, flags := 1 }] } : State).queue (5 : QNum)) with waiting := ((upQ { state := .opened, context := 3, waiting := [{ dsc with opcode := 2, flags := 1 }] } : State).queue (5 : QNum)).waiting.drop 1, started := ((upQ { state := .opened, context := 3, waiting := [{ dsc with opcode := 2, flags := 1 }] } : State).queue (5 : QNum)).started ++ [(Option.get (descHead (upQ { state := .opened, context := 3, waiting := [{ dsc with opcode := 2, flags := 1 }] } : State) (5 : QNum) (2)) (by decide +kernel))] }).setCtx ((upQ { state := .opened, context := 3, waiting := [{ dsc with opcode := 2, flags := 1 }] } : State).queue (5 : QNum)).context { ((upQ { state := .opened, context := 3, waiting := [{ dsc with opcode := 2, flags := 1 }] } : State).ctx ((upQ { state := .opened, context := 3, waiting := [{ dsc with opcode := 2, flags := 1 }] } : State).queue (5 : QNum)).context) with beq := ((upQ { state := .opened, context := 3, waiting := [{ dsc with opcode := 2, flags := 1 }] } : State).ctx ((upQ { state := .opened, context := 3, waiting := [{ dsc with opcode := 2, flags := 1 }] } : State).queue (5 : QNum)).context).beq ++ [({ id := ((upQ { state := .opened, context := 3, waiting := [{ dsc with opcode := 2, flags := 1 }] } : State).ctx ((upQ { state := .opened, context := 3, waiting := [{ dsc with opcode := 2, flags := 1 }] } : State).queue (5 : QNum)).context).nextId, opcode := if (2) = 5 then 0x44 else (2) + 0x3F, desc := some ((5 : QNum).val, (Option.get (descHead (upQ { state := .opened, context := 3, waiting := [{ dsc with opcode := 2, flags := 1 }] } : State) (5 : QNum) (2)) (by decide +kernel)).index), order := (Option.get (descHead (upQ { state := .opened, context := 3, waiting := [{ dsc with opcode := 2, flags := 1 }] } : State) (5 : QNum) (2)) (by decide +kernel)).ordered })], nextId := ((upQ { state := .opened, context := 3, waiting := [{ dsc with opcode := 2, flags := 1 }] } : State).ctx ((upQ { state := .opened, context := 3, waiting := [{ dsc with opcode := 2, flags := 1 }] } : State).queue (5 : QNum)).context).nextId + 1 } : State),
      (Option.some_get _).symm, rfl, tablesOk_of (by decide +kernel), rfl, rfl, rfl, by decide +kernel⟩,
   ⟨(Option.get (descHead (upQ { state := .opened, context := 3, waiting := [{ dsc with opcode := 3, flags := 1 }] } : State) (5 : QNum) (3)) (by decide +kernel)),
      ({ id := ((upQ { state := .opened, context := 3, waiting := [{ dsc with opcode := 3, flags := 1 }] } : State).ctx ((upQ { state := .opened, context := 3, waiting := [{ dsc with opcode := 3, flags := 1 }] } : State).queue (5 : QNum)).context).nextId, opcode := if (3) = 5 then 0x44 else (3) + 0x3F, desc := some ((5 : QNum).val, (Option.get (descHead (upQ { state := .opened, context := 3, waiting := [{ dsc with opcode := 3, flags := 1 }] } : State) (5 : QNum) (3)) (by decide +kernel)).index), order := (Option.get (descHead (upQ { state := .opened, context := 3, waiting := [{ dsc with opcode := 3, flags := 1 }] } : State) (5 : QNum) (3)) (by decide +kernel)).ordered }),
      (((upQ { state := .opened, context := 3, waiting := [{ dsc with opcode := 3, flags := 1 }] } : State).setQueue (5 : QNum) { ((upQ { state := .opened, context := 3, waiting := [{ dsc with opcode := 3, flags := 1 }] } : State).queue (5 : QNum)) with waiting := ((upQ { state := .opened, context := 3, waiting := [{ dsc with opcode := 3, flags := 1 }] } : State).queue (5 : QNum)).waiting.drop 1, started := ((upQ { state := .opened, context := 3, waiting := [{ dsc with opcode := 3, flags := 1 }] } : State).queue (5 : QNum)).started ++ [(Option.get (descHead (upQ { state := .opened, context := 3, waiting := [{ dsc with opcode := 3, flags := 1 }] } : State) (5 : QNum) (3)) (by decide +kernel))] }).setCtx ((upQ { state := .opened, context := 3, waiting := [{ dsc with opcode := 3, flags := 1 }] } : State).queue (5 : QNum)).context { ((upQ { state := .opened, context := 3, waiting := [{ dsc with opcode := 3, flags := 1 }] } : State).ctx ((upQ { state := .opened, context := 3, waiting := [{ dsc with opcode := 3, flags := 1 }] } : State).queue (5 : QNum)).context) with beq := ((upQ { state := .opened, context := 3, waiting := [{ dsc with opcode := 3, flags := 1 }] } : State).ctx ((upQ { state := .opened, context := 3, waiting := [{ dsc with opcode := 3, flags := 1 }] } : State).queue (5 : QNum)).context).beq ++ [({ id := ((upQ { state := .opened, context := 3, waiting := [{ dsc with opcode := 3, flags := 1 }] } : State).ctx ((upQ { state := .opened, context := 3, waiting := [{ dsc with opcode := 3, flags := 1 }] } : State).queue (5 : QNum)).context).nextId, opcode := if (3) = 5 then 0x44 else (3) + 0x3F, desc := some ((5 : QNum).val, (Option.get (descHead (upQ { state := .opened, context := 3, waiting := [{ dsc with opcode := 3, flags := 1 }] } : State) (5 : QNum) (3)) (by decide +kernel)).index), order := (Option.get (descHead (upQ { state := .opened, context := 3, waiting := [{ dsc with opcode := 3, flags := 1 }] } : State) (5 : QNum) (3)) (by decide +kernel)).ordered })], nextId := ((upQ { state := .opened, context := 3, waiting := [{ dsc with opcode := 3, flags := 1 }] } : State).ctx ((upQ { state := .opened, context := 3, waiting := [{ dsc with opcode := 3, flags := 1 }] } : State).queue (5 : QNum)).context).nextId + 1 } : State),
      (Option.some_get _).symm, rfl, tablesOk_of (by decide +kernel), rfl, rfl, rfl, by decide +kernel⟩,
   ⟨(Option.get (descHead (upQ { state := .closing, context := 3, waiting := [{ dsc with opcode := 4, flags := 1, dest := 5 }] } : State) (5 : QNum) (4)) (by decide +kernel)),
      ({ id := ((upQ { state := .closing, context := 3, waiting := [{ dsc with opcode := 4, flags := 1, dest := 5 }] } : State).ctx ((upQ { state := .closing, context := 3, waiting := [{ dsc with opcode := 4, flags := 1, dest := 5 }] } : State).queue (5 : QNum)).context).nextId, opcode := if (4) = 5 then 0x44 else (4) + 0x3F, desc := some ((5 : QNum).val, (Option.get (descHead (upQ { state := .closing, context := 3, waiting := [{ dsc with opcode := 4, flags := 1, dest := 5 }] } : State) (5 : QNum) (4)) (by decide +kernel)).index), order := (Option.get (descHead (upQ { state := .closing, context := 3, waiting := [{ dsc with opcode := 4, flags := 1, dest := 5 }] } : State) (5 : QNum) (4)) (by decide +kernel)).ordered }),
      (((upQ { state := .closing, context := 3, waiting := [{ dsc with opcode := 4, flags := 1, dest := 5 }] } : State).setQueue (5 : QNum) { ((upQ { state := .closing, context := 3, waiting := [{ dsc with opcode := 4, flags := 1, dest := 5 }] } : State).queue (5 : QNum)) with waiting := ((upQ { state := .closing, context := 3, waiting := [{ dsc with opcode := 4, flags := 1, dest := 5 }] } : State).queue (5 : QNum)).waiting.drop 1, started := ((upQ { state := .closing, context := 3, waiting := [{ dsc with opcode := 4, flags := 1, dest := 5 }] } : State).queue (5 : QNum)).started ++ [(Option.get (descHead (upQ { state := .closing, context := 3, waiting := [{ dsc with opcode := 4, flags := 1, dest := 5 }] } : State) (5 : QNum) (4)) (by decide +kernel))] }).setCtx ((upQ { state := .closing, context := 3, waiting := [{ dsc with opcode := 4, flags := 1, dest := 5 }] } : State).queue (5 : QNum)).context { ((upQ { state := .closing, context := 3, waiting := [{ dsc with opcode := 4, flags := 1, dest := 5 }] } : State).ctx ((upQ { state := .closing, context := 3, waiting := [{ dsc with opcode := 4, flags := 1, dest := 5 }] } : State).queue (5 : QNum)).context) with beq := ((upQ { state := .closing, context := 3, waiting := [{ dsc with opcode := 4, flags := 1, dest := 5 }] } : State).ctx ((upQ { state := .closing, context := 3, waiting := [{ dsc with opcode := 4, flags := 1, dest := 5 }] } : State).queue (5 : QNum)).context).beq ++ [({ id := ((upQ { state := .closing, context := 3, waiting := [{ dsc with opcode := 4, flags := 1, dest := 5 }] } : State).ctx ((upQ { state := .closing, context := 3, waiting := [{ dsc with opcode := 4, flags := 1, dest := 5 }] } : State).queue (5 : QNum)).context).nextId, opcode := if (4) = 5 then 0x44 else (4) + 0x3F, desc := some ((5 : QNum).val, (Option.get (descHead (upQ { state := .closing, context := 3, waiting := [{ dsc with opcode := 4, flags := 1, dest := 5 }] } : State) (5 : QNum) (4)) (by decide +kernel)).index), order := (Option.get (descHead (upQ { state := .closing, context := 3, waiting := [{ dsc with opcode := 4, flags := 1, dest := 5 }] } : State) (5 : QNum) (4)) (by decide +kernel)).ordered })], nextId := ((upQ { state := .closing, context := 3, waiting := [{ dsc with opcode := 4, flags := 1, dest := 5 }] } : State).ctx ((upQ { state := .closing, context := 3, waiting := [{ dsc with opcode := 4, flags := 1, dest := 5 }] } : State).queue (5 : QNum)).context).nextId + 1 } : State),
      (Option.some_get _).symm, rfl, tablesOk_of (by decide +kernel), rfl, rfl, rfl, by decide +kernel⟩,
   ⟨(Option.get (descHead (upQ { state := .opened, context := 3, waiting := [{ dsc with opcode := 1, flags := 1, dest := 5 }] } : State) (5 : QNum) (1)) (by decide +kernel)),
      ({ id := ((upQ { state := .opened, context := 3, waiting := [{ dsc with opcode := 1, flags := 1, dest := 5 }] } : State).ctx ((upQ { state := .opened, context := 3, waiting := [{ dsc with opcode := 1, flags := 1, dest := 5 }] } : State).queue (5 : QNum)).context).nextId, opcode := if (1) = 5 then 0x44 else (1) + 0x3F, desc := some ((5 : QNum).val, (Option.get (descHead (upQ { state := .opened, context := 3, waiting := [{ dsc with opcode := 1, flags := 1, dest := 5 }] } : State) (5 : QNum) (1)) (by decide +kernel)).index), order := (Option.get (descHead (upQ { state := .opened, context := 3, waiting := [{ dsc with opcode := 1, flags := 1, dest := 5 }] } : State) (5 : QNum) (1)) (by decide +kernel)).ordered }),
      (((upQ { state := .opened, context := 3, waiting := [{ dsc with opcode := 1, flags := 1, dest := 5 }] } : State).setQueue (5 : QNum) { ((upQ { state := .opened, context := 3, waiting := [{ dsc with opcode := 1, flags := 1, dest := 5 }] } : State).queue (5 : QNum)) with waiting := ((upQ { state := .opened, context := 3, waiting := [{ dsc with opcode := 1, flags := 1, dest := 5 }] } : State).queue (5 : QNum)).waiting.drop 1, started := ((upQ { state := .opened, context := 3, waiting := [{ dsc with opcode := 1, flags := 1, dest := 5 }] } : State).queue (5 : QNum)).started ++ [(Option.get (descHead (upQ { state := .opened, context := 3, waiting := [{ dsc with opcode := 1, flags := 1, dest := 5 }] } : State) (5 : QNum) (1)) (by decide +kernel))] }).setCtx ((upQ { state := .opened, context := 3, waiting := [{ dsc with opcode := 1, flags := 1, dest := 5 }] } : State).queue (5 : QNum)).context { ((upQ { state := .opened, context := 3, waiting := [{ dsc with opcode := 1, flags := 1, dest := 5 }] } : State).ctx ((upQ { state := .opened, context := 3, waiting := [{ dsc with opcode := 1, flags := 1, dest := 5 }] } : State).queue (5 : QNum)).context) with beq := ((upQ { state := .opened, context := 3, waiting := [{ dsc with opcode := 1, flags := 1, dest := 5 }] } : State).ctx ((upQ { state := .opened, context := 3, waiting := [{ dsc with opcode := 1, flags := 1, dest := 5 }] } : State).queue (5 : QNum)).context).beq ++ [({ id := ((upQ { state := .opened, context := 3, waiting := [{ dsc with opcode := 1, flags := 1, dest := 5 }] } : State).ctx ((upQ { state := .opened, context := 3, waiting := [{ dsc with opcode := 1, flags := 1, dest := 5 }] } : State).queue (5 : QNum)).context).nextId, opcode := if (1) = 5 then 0x44 else (1) + 0x3F, desc := some ((5 : QNum).val, (Option.get (descHead (upQ { state := .opened, context := 3, waiting := [{ dsc with opcode := 1, flags := 1, dest := 5 }] } : State) (5 : QNum) (1)) (by decide +kernel)).index), order := (Option.get (descHead (upQ { state := .opened, context := 3, waiting := [{ dsc with opcode := 1, flags := 1, dest := 5 }] } : State) (5 : QNum) (1)) (by decide +kernel)).ordered })], nextId := ((upQ { state := .opened, context := 3, waiting := [{ dsc with opcode := 1, flags := 1, dest := 5 }] } : State).ctx ((upQ { state := .opened, context := 3, waiting := [{ dsc with opcode := 1, flags := 1, dest := 5 }] } : State).queue (5 : QNum)).context).nextId + 1 } : State),
      (Option.some_get _).symm, rfl, tablesOk_of (by decide +kernel), rfl, rfl, rfl, by decide +kernel⟩,
   ⟨(Option.get (descHead (upQ { state := .opened, context := 3, waiting := [{ dsc with opcode := 5, flags := 1 }] } : State) (5 : QNum) (5)) (by decide +kernel)),
      ({ id := ((upQ { state := .opened, context := 3, waiting := [{ dsc with opcode := 5, flags := 1 }] } : State).ctx ((upQ { state := .opened, context := 3, waiting := [{ dsc with opcode := 5, flags := 1 }] } : State).queue (5 : QNum)).context).nextId, opcode := if (5) = 5 then 0x44 else (5) + 0x3F, desc := some ((5 : QNum).val, (Option.get (descHead (upQ { state := .opened, context := 3, waiting := [{ dsc with opcode := 5, flags := 1 }] } : State) (5 : QNum) (5)) (by decide +kernel)).index), order := (Option.get (descHead (upQ { state := .opened, context := 3, waiting := [{ dsc with opcode := 5, flags := 1 }] } : State) (5 : QNum) (5)) (by decide +kernel)).ordered }),
      (((upQ { state := .opened, context := 3, waiting := [{ dsc with opcode := 5, flags := 1 }] } : State).setQueue (5 : QNum) { ((upQ { state := .opened, context := 3, waiting := [{ dsc with opcode := 5, flags := 1 }] } : State).queue (5 : QNum)) with waiting := ((upQ { state := .opened, context := 3, waiting := [{ dsc with opcode := 5, flags := 1 }] } : State).queue (5 : QNum)).waiting.drop 1, started := ((upQ { state := .opened, context := 3, waiting := [{ dsc with opcode := 5, flags := 1 }] } : State).queue (5 : QNum)).started ++ [(Option.get (descHead (upQ { state := .opened, context := 3, waiting := [{ dsc with opcode := 5, flags := 1 }] } : State) (5 : QNum) (5)) (by decide +kernel))] }).setCtx ((upQ { state := .opened, context := 3, waiting := [{ dsc with opcode := 5, flags := 1 }] } : State).queue (5 : QNum)).context { ((upQ { state := .opened, context := 3, waiting := [{ dsc with opcode := 5, flags := 1 }] } : State).ctx ((upQ { state := .opened, context := 3, waiting := [{ dsc with opcode := 5, flags := 1 }] } : State).queue (5 : QNum)).context) with beq := ((upQ { state := .opened, context := 3, waiting := [{ dsc with opcode := 5, flags := 1 }] } : State).ctx ((upQ { state := .opened, context := 3, waiting := [{ dsc with opcode := 5, flags := 1 }] } : State).queue (5 : QNum)).context).beq ++ [({ id := ((upQ { state := .opened, context := 3, waiting := [{ dsc with opcode := 5, flags := 1 }] } : State).ctx ((upQ { state := .opened, context := 3, waiting := [{ dsc with opcode := 5, flags := 1 }] } : State).queue (5 : QNum)).context).nextId, opcode := if (5) = 5 then 0x44 else (5) + 0x3F, desc := some ((5 : QNum).val, (Option.get (descHead (upQ { state := .opened, context := 3, waiting := [{ dsc with opcode := 5, flags := 1 }] } : State) (5 : QNum) (5)) (by decide +kernel)).index), order := (Option.get (descHead (upQ { state := .opened, context := 3, waiting := [{ dsc with opcode := 5, flags := 1 }] } : State) (5 : QNum) (5)) (by decide +kernel)).ordered })], nextId := ((upQ { state := .opened, context := 3, waiting := [{ dsc with opcode := 5, flags := 1 }] } : State).ctx ((upQ { state := .opened, context := 3, waiting := [{ dsc with opcode := 5, flags := 1 }] } : State).queue (5 : QNum)).context).nextId + 1 } : State),
      (Option.some_get _).symm, rfl, tablesOk_of (by decide +kernel), rfl, rfl, rfl, rfl, by decide +kernel⟩⟩

/-- States and operands that meet the hypotheses of `Obligations.DescriptorStarts` (RemoteStarts). -/
theorem witness_RemoteStarts :
    (let s : State := up.wr BDG_FENCE.SW 1; let e := { opcode := 0x43 }; let r := remoteOf s e; (r = remoteOf s e) ∧
      (s.fenced = true)) ∧
    (let s : State := { up with ctxs := [(3, { beq := [{ opcode := 0x43, id := 1, va := 65536 * up.node + 5 }] })] };
      let e := { opcode := 0x43, id := 1, va := 65536 * up.node + 5 }; let r := remoteOf s e; (r = remoteOf s e) ∧
      (s.fenced = false) ∧ (r.opcode = 4) ∧ (r.dest = s.node)) ∧
    (let s : State := { up with ctxs := [(3, { beq := [{ opcode := 0x43, id := 1, va := 0x50123 }] })] };
      let e := { opcode := 0x43, id := 1, va := 0x50123 }; let r := remoteOf s e; (r = remoteOf s e) ∧ (s.fenced = false) ∧
      (r.opcode = 4) ∧ (r.dest ≠ s.node)) ∧
    (let s : State := { up with ctxs := [(3, { beq := [{ opcode := 0x42, id := 1, va := 0x50123 }] })] };
      let e := { opcode := 0x42, id := 1, va := 0x50123 }; let r := remoteOf s e; (r = remoteOf s e) ∧ (s.fenced = false) ∧
      (r.opcode = 3)) ∧
    (let s : State := { up with ctxs := [(3, { beq := [{ opcode := 0x40, id := 1, va := 0x50123 }] })] };
      let e := { opcode := 0x40, id := 1, va := 0x50123 }; let r := remoteOf s e; (r = remoteOf s e) ∧ (s.fenced = false) ∧
      ((r.opcode = 1 ∨ r.opcode = 2)) ∧ (r.len = 0)) ∧
    (let s : State := { up with ctxs := [(3, { beq := [{ opcode := 0x40, id := 1, va := 0x50123, imm := 5 }] })] }; let k := 3;
      let e := { opcode := 0x40, id := 1, va := 0x50123, imm := 5 }; let r := remoteOf s e;
      let st := localCheck (s.win r.lwin) (s.ctxPkey k) (if r.opcode = 1 then .rd else .wr) r.loff r.len; (r = remoteOf s e) ∧
      (st = localCheck (s.win r.lwin) (s.ctxPkey k) (if r.opcode = 1 then .rd else .wr) r.loff r.len) ∧ (s.fenced = false) ∧
      ((r.opcode = 1 ∨ r.opcode = 2)) ∧ (0 < r.len) ∧ (e.ext = []) ∧ (st ≠ stOK)) ∧
    (let s : State :=
        { up with ctxs := [(3, { beq := [{ opcode := 0x41, id := 1, va := 0x50123, imm := 5 }] })], wins := { up.wins with tbl := [(0, { state := .valid, base := 4096, bound := 4096, wr := true })] } };
      let k := 3; let e := { opcode := 0x41, id := 1, va := 0x50123, imm := 5 }; let r := remoteOf s e;
      let st := localCheck (s.win r.lwin) (s.ctxPkey k) (if r.opcode = 1 then .rd else .wr) r.loff r.len;
      let e1 := { e with started := true, ext := [((s.win r.lwin).base + r.loff, r.len)], lines := [] }; (r = remoteOf s e) ∧
      (st = localCheck (s.win r.lwin) (s.ctxPkey k) (if r.opcode = 1 then .rd else .wr) r.loff r.len) ∧
      (e1 = { e with started := true, ext := [((s.win r.lwin).base + r.loff, r.len)], lines := [] }) ∧ (s.fenced = false) ∧
      ((r.opcode = 1 ∨ r.opcode = 2)) ∧ (0 < r.len) ∧ (e.ext = []) ∧ (st = stOK) ∧ ((s.win r.lwin).chunked = false)) :=
  ⟨⟨rfl, by decide +kernel⟩,
   ⟨rfl, by decide +kernel⟩,
   ⟨rfl, by decide +kernel⟩,
   ⟨rfl, by decide +kernel⟩,
   ⟨rfl, by decide +kernel⟩,
   ⟨rfl, rfl, by decide +kernel⟩,
   ⟨rfl, rfl, rfl, by decide +kernel⟩⟩

/-- States and operands that meet the hypotheses of `Obligations.SyncAndTriggerPort` (SyncUpdates). -/
theorem witness_SyncUpdates :
    (let s : State := up; let o := 65535; let v := 2 ^ 64 + 3; let t : State := synPut s o v; (TablesOk s) ∧ (t = synPut s o v)) ∧
    (let s : State := { up with syn := { up.syn with objs := [(4, 6), (65535, 1)] } }; let o := 65535; let v := 0;
      let t : State := synPut s o v; let x := 4; (TablesOk s) ∧ (t = synPut s o v) ∧ (x ≠ o)) ∧
    (let s : State := { up with ctxs := [(3, { state := .waitSync, waitObj := 5, waitCond := 0, waitVal := 3, waitDst := 1 })] };
      let o := 5; let v := 2 ^ 64 + 3; let t : State := synPut s o v; (TablesOk s) ∧ (t = synPut s o v)) ∧
    (let s : State := { up with ctxs := [(3, { state := .waitSync, waitObj := 5, waitCond := 0, waitVal := 3, waitDst := 1 })] };
      let o := 5; let v := 2; let t : State := synPut s o v; (TablesOk s) ∧ (t = synPut s o v)) ∧
    (let s : State :=
        { up with syn := { up.syn with trigs := [(3, { armed := true, obj := 5, thresh := 3, step := 2, action := 0 })] } };
      let o := 5; let v := 9; let t : State := synPut s o v; (TablesOk s) ∧ (t = synPut s o v)) ∧
    (let s : State :=
        { up with syn := { up.syn with trigs := [(3, { armed := true, obj := 5, thresh := 3, step := 2, action := 0 })] } };
      let o := 5; let v := 9; let t : State := synPut s o v; (TablesOk s) ∧ (t = synPut s o v)) ∧
    (let s : State := { up with syn := { up.syn with poison := [5] } }; let o := 5; (TablesOk s) ∧ (s.objPoisoned o = true)) ∧
    (let s : State := { up with syn := { up.syn with objs := [(5, 6)] } }; let o := 5; (TablesOk s) ∧ (s.objPoisoned o = false)) ∧
    (let s : State := { up with syn := { up.syn with poison := [5] } }; (TablesOk s)) ∧
    (let s : State := up; let a : BitVec 16 := 0xFFFF#16; (TablesOk s) ∧ (s.fabricOpen = true) ∧ (a.toNat ≠ 0)) ∧
    (let s : State := up.wr CSP_STATUS.STATE 1; let a : BitVec 16 := 0#16; (TablesOk s) ∧ (s.fabricOpen = true) ∧
      (a.toNat = 0)) :=
  ⟨⟨tablesOk_of (by decide +kernel), rfl⟩,
   ⟨tablesOk_of (by decide +kernel), rfl, by decide +kernel⟩,
   ⟨tablesOk_of (by decide +kernel), rfl⟩,
   ⟨tablesOk_of (by decide +kernel), rfl⟩,
   ⟨tablesOk_of (by decide +kernel), rfl⟩,
   ⟨tablesOk_of (by decide +kernel), rfl⟩,
   ⟨tablesOk_of (by decide +kernel), by decide +kernel⟩,
   ⟨tablesOk_of (by decide +kernel), by decide +kernel⟩,
   tablesOk_of (by decide +kernel),
   ⟨tablesOk_of (by decide +kernel), by decide +kernel⟩,
   ⟨tablesOk_of (by decide +kernel), by decide +kernel⟩⟩

/-- States and operands that meet the hypotheses of `Obligations.Triggers`. -/
theorem witness_Triggers :
    (let s : State := up.wr SYN_TARG0.COND 2; let i : Trig := 4095; let st := armStatus s i; (TablesOk s) ∧
      (armStatus s i = st) ∧ (s.fabricOpen = true) ∧ (s.on BDG_STATUS.FW_RESTART = false) ∧ (s.on SYN_TCMD.BUSY = false) ∧
      (st ≠ stOK)) ∧
    (let s : State := up; let i : Trig := 4095;
      let e :=
        ({ armArgs s with pending := (s.trig i).pending, value := (s.trig i).value, ftime := (s.trig i).ftime } : TrigEntry);
      (TablesOk s) ∧ (s.fabricOpen = true) ∧ (s.on BDG_STATUS.FW_RESTART = false) ∧ (s.on SYN_TCMD.BUSY = false) ∧
      (armStatus s i = stOK) ∧
      (e = { armArgs s with pending := (s.trig i).pending, value := (s.trig i).value, ftime := (s.trig i).ftime })) ∧
    (let s : State :=
        { up.wr SYN_TARG1.THRESH_LO 5 with syn := { up.syn with trigs := [(4095, { pending := true, fires := 3, laps := 2, value := 1 })] } };
      let i : Trig := 4095;
      let e :=
        ({ armArgs s with pending := (s.trig i).pending, value := (s.trig i).value, ftime := (s.trig i).ftime } : TrigEntry);
      (TablesOk s) ∧ (s.fabricOpen = true) ∧ (s.on BDG_STATUS.FW_RESTART = false) ∧ (s.on SYN_TCMD.BUSY = false) ∧
      (armStatus s i = stOK) ∧
      (e = { armArgs s with pending := (s.trig i).pending, value := (s.trig i).value, ftime := (s.trig i).ftime })) ∧
    (let s : State := { up with syn := { up.syn with trigs := [(2, { armed := true })] } }; let i : Trig := 2; (TablesOk s) ∧
      (s.fabricOpen = true) ∧ (s.on BDG_STATUS.FW_RESTART = false) ∧ (s.on SYN_TCMD.BUSY = false) ∧
      ((s.trig i).pending = false)) ∧
    (let s : State := upTrig { armed := true }; let i : Trig := 2; (TablesOk s) ∧ (s.fabricOpen = true) ∧
      (s.on BDG_STATUS.FW_RESTART = false) ∧ (s.on SYN_TCMD.BUSY = false) ∧ ((s.trig i).pending = true)) ∧
    (let s : State := upTrig { action := 0 }; let i := 2; let rest := [4]; let e := s.trig i; let u : State := delivered s i;
      (e = s.trig i) ∧ (u = delivered s i) ∧ (s.unitsRun = true) ∧ (s.syn.deliv = i :: rest) ∧ (e.action = 0)) ∧
    (let s : State := upTrig { action := 1 }; let i := 2; let rest := [4]; let e := s.trig i; let u : State := delivered s i;
      (e = s.trig i) ∧ (u = delivered s i) ∧ (s.unitsRun = true) ∧ (s.syn.deliv = i :: rest) ∧ (e.action = 1)) ∧
    (let s : State := upTrig { action := 2, arg := 0x1000, value := 6 }; let i := 2; let rest := [4]; let e := s.trig i;
      let u : State := delivered s i; (e = s.trig i) ∧ (u = delivered s i) ∧ (s.unitsRun = true) ∧ (s.syn.deliv = i :: rest) ∧
      (e.action = 2) ∧ (tagFree s e.arg = true)) ∧
    (let s : State := (upTrig { action := 2, arg := 0x1000, value := 6 }).wr HMP_CFG.TAG_LIMIT 0; let i := 2; let rest := [4];
      let e := s.trig i; let u : State := delivered s i; (e = s.trig i) ∧ (u = delivered s i) ∧ (s.unitsRun = true) ∧
      (s.syn.deliv = i :: rest) ∧ (e.action = 2) ∧ (tagFree s e.arg = false)) ∧
    (let s : State := upTrig { action := 3, arg := 0x50007, value := 6 }; let i := 2; let rest := [4]; let e := s.trig i;
      let u : State := delivered s i; (e = s.trig i) ∧ (u = delivered s i) ∧ (s.unitsRun = true) ∧ (s.syn.deliv = i :: rest) ∧
      (e.action = 3) ∧ (s.objPoisoned (e.arg % 65536) = false)) ∧
    (let s : State := let a := upTrig { action := 3, arg := 0x50007, value := 6 };
        { a with syn := { a.syn with poison := [7] } };
      let i := 2; let rest := [4]; let e := s.trig i; let u : State := delivered s i; (e = s.trig i) ∧ (u = delivered s i) ∧
      (s.unitsRun = true) ∧ (s.syn.deliv = i :: rest) ∧ (e.action = 3) ∧ (s.objPoisoned (e.arg % 65536) = true)) ∧
    (let s : State := (upTrig { action := 4, arg := 0x50007, value := 6 }).wr BDG_FENCE.SW 1; let i := 2; let rest := [4];
      let e := s.trig i; let u : State := delivered s i; (e = s.trig i) ∧ (u = delivered s i) ∧ (s.unitsRun = true) ∧
      (s.syn.deliv = i :: rest) ∧ (e.action = 4) ∧ (s.fenced = true)) :=
  ⟨⟨tablesOk_of (by decide +kernel), rfl, by decide +kernel⟩,
   ⟨tablesOk_of (by decide +kernel), by decide +kernel⟩,
   ⟨tablesOk_of (by decide +kernel), by decide +kernel⟩,
   ⟨tablesOk_of (by decide +kernel), by decide +kernel⟩,
   ⟨tablesOk_of (by decide +kernel), by decide +kernel⟩,
   ⟨rfl, rfl, by decide +kernel⟩,
   ⟨rfl, rfl, by decide +kernel⟩,
   ⟨rfl, rfl, by decide +kernel⟩,
   ⟨rfl, rfl, by decide +kernel⟩,
   ⟨rfl, rfl, by decide +kernel⟩,
   ⟨rfl, rfl, by decide +kernel⟩,
   ⟨rfl, rfl, by decide +kernel⟩⟩

/-- States and operands that meet the hypotheses of `Obligations.Triggers`. -/
theorem witness_Triggers_2 :
    (let s : State := upTrig { action := 4, arg := 0x3000500000 + up.node, value := 6 }; let i := 2; let rest := [4];
      let e := s.trig i; let u : State := delivered s i; let node := e.arg % 2 ^ 20; let obj := bitsOf e.arg 35 20;
      let tc := bitsOf e.arg 54 52; (e = s.trig i) ∧ (u = delivered s i) ∧ (node = e.arg % 2 ^ 20) ∧
      (obj = bitsOf e.arg 35 20) ∧ (tc = bitsOf e.arg 54 52) ∧ (s.unitsRun = true) ∧ (s.syn.deliv = i :: rest) ∧
      (e.action = 4) ∧ (s.fenced = false) ∧ (node = s.node) ∧ (signalStatus u obj (s.ctxPkey e.ctx) s.node = stOK)) ∧
    (let s : State := upTrig { action := 4, arg := 0x3FFFF00000 + up.node, value := 6 }; let i := 2; let rest := [4];
      let e := s.trig i; let u : State := delivered s i; let node := e.arg % 2 ^ 20; let obj := bitsOf e.arg 35 20;
      let tc := bitsOf e.arg 54 52; let st := signalStatus u obj (s.ctxPkey e.ctx) s.node; (e = s.trig i) ∧
      (u = delivered s i) ∧ (node = e.arg % 2 ^ 20) ∧ (obj = bitsOf e.arg 35 20) ∧ (tc = bitsOf e.arg 54 52) ∧
      (signalStatus u obj (s.ctxPkey e.ctx) s.node = st) ∧ (s.unitsRun = true) ∧ (s.syn.deliv = i :: rest) ∧ (e.action = 4) ∧
      (s.fenced = false) ∧ (node = s.node) ∧ (st ≠ stOK)) ∧
    (let s : State := (upTrig { action := 4, arg := 0x3FFFF00007, value := 6 }).wr (XPT_CTX.CAP 0) 0; let i := 2;
      let rest := [4]; let e := s.trig i; let u : State := delivered s i; let node := e.arg % 2 ^ 20;
      let obj := bitsOf e.arg 35 20; let tc := bitsOf e.arg 54 52; (e = s.trig i) ∧ (u = delivered s i) ∧
      (node = e.arg % 2 ^ 20) ∧ (obj = bitsOf e.arg 35 20) ∧ (tc = bitsOf e.arg 54 52) ∧ (s.unitsRun = true) ∧
      (s.syn.deliv = i :: rest) ∧ (e.action = 4) ∧ (s.fenced = false) ∧ (node ≠ s.node) ∧
      (ootRoom s e.ctx = false ∨ seqRoom s (streamOf node tc) = false)) ∧
    (let s : State := (upTrig { action := 4, arg := 0x3FFFF00007, value := 6 }); let i := 2; let rest := [4];
      let e := s.trig i; let u : State := delivered s i; let node := e.arg % 2 ^ 20; let obj := bitsOf e.arg 35 20;
      let tc := bitsOf e.arg 54 52; (e = s.trig i) ∧ (u = delivered s i) ∧ (node = e.arg % 2 ^ 20) ∧
      (obj = bitsOf e.arg 35 20) ∧ (tc = bitsOf e.arg 54 52) ∧ (s.unitsRun = true) ∧ (s.syn.deliv = i :: rest) ∧
      (e.action = 4) ∧ (s.fenced = false) ∧ (node ≠ s.node) ∧ (ootRoom s e.ctx = true) ∧
      (seqRoom s (streamOf node tc) = true)) ∧
    (let s : State :=
        { (upTrig { action := 5, arg := 0x7 }).wr (MRT_CTX_CFG1.CODE_LEN 7) 4 with ctxs := [(7, { fifo := List.replicate 64 1 })] };
      let i := 2; let rest := [4]; let e := s.trig i; let u : State := delivered s i; (e = s.trig i) ∧ (u = delivered s i) ∧
      (s.unitsRun = true) ∧ (s.syn.deliv = i :: rest) ∧ (e.action = 5) ∧ (trgDiscards s (e.arg % 512) = false) ∧
      (64 ≤ (s.ctx (e.arg % 512)).fifo.length)) ∧
    (let s : State :=
        { (upTrig { action := 5, arg := 0x90007 }).wr (MRT_CTX_CFG1.CODE_LEN 7) 4 with ctxs := [(7, { fifo := List.replicate 63 1 })] };
      let i := 2; let rest := [4]; let e := s.trig i; let u : State := delivered s i; (e = s.trig i) ∧ (u = delivered s i) ∧
      (s.unitsRun = true) ∧ (s.syn.deliv = i :: rest) ∧ (e.action = 5) ∧
      ((trgDiscards s (e.arg % 512) = true ∨ (s.ctx (e.arg % 512)).fifo.length < 64))) ∧
    (let s : State := { (upTrig { action := 5, arg := 0x90007 }) with ctxs := [(7, { fifo := List.replicate 64 1 })] };
      let i := 2; let rest := [4]; let e := s.trig i; let u : State := delivered s i; (e = s.trig i) ∧ (u = delivered s i) ∧
      (s.unitsRun = true) ∧ (s.syn.deliv = i :: rest) ∧ (e.action = 5) ∧
      ((trgDiscards s (e.arg % 512) = true ∨ (s.ctx (e.arg % 512)).fifo.length < 64))) ∧
    (let s : State := upTrig { armed := true, fires := 2 ^ 32 - 1 }; let i := 2; let t : State := delivered s i; (TablesOk s) ∧
      (t = delivered s i)) ∧
    (let s : State := { upTrig { action := 0 } with pins := { up.pins with porst := true } }.wr CSP_STATUS.FC_RUN 0;
      (s.unitsRun = false)) :=
  ⟨⟨rfl, rfl, rfl, rfl, rfl, by decide +kernel⟩,
   ⟨rfl, rfl, rfl, rfl, rfl, rfl, by decide +kernel⟩,
   ⟨rfl, rfl, rfl, rfl, rfl, by decide +kernel⟩,
   ⟨rfl, rfl, rfl, rfl, rfl, by decide +kernel⟩,
   ⟨rfl, rfl, by decide +kernel⟩,
   ⟨rfl, rfl, by decide +kernel⟩,
   ⟨rfl, rfl, by decide +kernel⟩,
   ⟨tablesOk_of (by decide +kernel), rfl⟩,
   by decide +kernel⟩

/-- States and operands that meet the hypotheses of `Obligations.SyncAndTriggerPort` (TriggerPort). -/
theorem witness_TriggerPort :
    (let s : State := { up with pins := { up.pins with trgReady := false } }; let n := 9; (TablesOk s) ∧
      (s.pins.fcValid = true) ∧ (s.initDone = true) ∧ (s.pins.trgReady = false) ∧ (8 < n)) ∧
    (let s : State := up; let k : Ctx := 511; (TablesOk s) ∧ (s.pins.fcValid = true) ∧ (s.initDone = true) ∧
      (trgDiscards s k = true)) ∧
    (let s : State := { up.wr (MRT_CTX_CFG1.CODE_LEN 511) 4 with ctxs := [(511, { fifo := List.replicate 64 1 })] };
      let k : Ctx := 511; (TablesOk s) ∧ (s.pins.fcValid = true) ∧ (s.initDone = true) ∧ (trgDiscards s k = false) ∧
      (64 ≤ (s.ctx k).fifo.length)) ∧
    (let s : State := { up.wr (MRT_CTX_CFG1.CODE_LEN 511) 4 with ctxs := [(511, { fifo := List.replicate 63 1 })] };
      let k : Ctx := 511; (TablesOk s) ∧ (s.pins.fcValid = true) ∧ (s.initDone = true) ∧ (trgDiscards s k = false) ∧
      ((s.ctx k).fifo.length < 64) ∧ ((s.ctx k).state ≠ .waitTrig)) ∧
    (let s : State :=
        { up.wr (MRT_CTX_CFG1.CODE_LEN 511) 4 with ctxs := [(511, { fifo := List.replicate 63 1 })], pins := { up.pins with trgReady := false } };
      let k : Ctx := 511; (TablesOk s) ∧ (s.pins.fcValid = true) ∧ (s.initDone = true) ∧ (trgDiscards s k = false) ∧
      ((s.ctx k).fifo.length < 64) ∧ ((s.ctx k).state ≠ .waitTrig)) ∧
    (let s : State :=
        { up.wr (MRT_CTX_CFG1.CODE_LEN 511) 4 with ctxs := [(511, { state := .waitTrig, waitDst := 31 })], pins := { up.pins with trgReady := false } };
      let k : Ctx := 511; (TablesOk s) ∧ (s.pins.fcValid = true) ∧ (s.initDone = true) ∧ (trgDiscards s k = false) ∧
      ((s.ctx k).fifo = []) ∧ ((s.ctx k).state = .waitTrig)) ∧
    (let s : State :=
        { up.wr (MRT_CTX_CFG1.CODE_LEN 511) 4 with ctxs := [(511, { state := .waitTrig, waitDst := 0 })], pins := { up.pins with trgReady := false } };
      let k : Ctx := 511; (TablesOk s) ∧ (s.pins.fcValid = true) ∧ (s.initDone = true) ∧ (trgDiscards s k = false) ∧
      ((s.ctx k).fifo = []) ∧ ((s.ctx k).state = .waitTrig)) ∧
    (let s : State := up; (TablesOk s) ∧ (s.fabricOpen = true)) ∧
    (let s : State := up; (TablesOk s) ∧ (s.fabricOpen = true)) ∧
    (let s : State := up; (TablesOk s) ∧ (s.fabricOpen = true)) ∧
    (let s : State := up; (TablesOk s) ∧ (s.fabricOpen = true)) :=
  ⟨⟨tablesOk_of (by decide +kernel), by decide +kernel⟩,
   ⟨tablesOk_of (by decide +kernel), by decide +kernel⟩,
   ⟨tablesOk_of (by decide +kernel), by decide +kernel⟩,
   ⟨tablesOk_of (by decide +kernel), by decide +kernel⟩,
   ⟨tablesOk_of (by decide +kernel), by decide +kernel⟩,
   ⟨tablesOk_of (by decide +kernel), by decide +kernel⟩,
   ⟨tablesOk_of (by decide +kernel), by decide +kernel⟩,
   ⟨tablesOk_of (by decide +kernel), by decide +kernel⟩,
   ⟨tablesOk_of (by decide +kernel), by decide +kernel⟩,
   ⟨tablesOk_of (by decide +kernel), by decide +kernel⟩,
   ⟨tablesOk_of (by decide +kernel), by decide +kernel⟩⟩

/-- States and operands that meet the hypotheses of `Obligations.RouterPackets` (RouterFates). -/
theorem witness_RouterFates :
    (let s : State := { up with rtr := { up.rtr with bufs := [tb] } }; let p : Port := 11; let b := tb;
      let u : State := releaseBuf { s with rtr := { s.rtr with bufs := s.rtr.bufs.erase b } } b;
      (u = releaseBuf { s with rtr := { s.rtr with bufs := s.rtr.bufs.erase b } } b) ∧
      (s.rtr.bufs.find? (fun x => x.from_ = p.val && x.dir.isNone) = some b) ∧ (pkeyPasses s p b.pkt = false)) ∧
    (let s : State := upB { tb with pkt := pk 4 }; let p : Port := 11; let b := { tb with pkt := pk 4 };
      let u : State := releaseBuf { s with rtr := { s.rtr with bufs := s.rtr.bufs.erase b } } b;
      (u = releaseBuf { s with rtr := { s.rtr with bufs := s.rtr.bufs.erase b } } b) ∧
      (s.rtr.bufs.find? (fun x => x.from_ = p.val && x.dir.isNone) = some b) ∧ (pkeyPasses s p b.pkt = true) ∧
      (fateOf s b.from_ b.pkt = .deliver) ∧ (pkeyPasses s 12 b.pkt = true) ∧ (b.pkt.known = true)) ∧
    (let s : State := upB { tb with pkt := pk 0x55 }; let p : Port := 11; let b := { tb with pkt := pk 0x55 };
      let u : State := releaseBuf { s with rtr := { s.rtr with bufs := s.rtr.bufs.erase b } } b;
      (u = releaseBuf { s with rtr := { s.rtr with bufs := s.rtr.bufs.erase b } } b) ∧
      (s.rtr.bufs.find? (fun x => x.from_ = p.val && x.dir.isNone) = some b) ∧ (pkeyPasses s p b.pkt = true) ∧
      (fateOf s b.from_ b.pkt = .deliver) ∧ (pkeyPasses s 12 b.pkt = true) ∧ (b.pkt.known = false)) ∧
    (let s : State := (upB { tb with pkt := pk 4 }).wr (RTR_PKEY.LOCAL 3) 0; let p : Port := 11;
      let b := { tb with pkt := pk 4 };
      let u : State := releaseBuf { s with rtr := { s.rtr with bufs := s.rtr.bufs.erase b } } b;
      (u = releaseBuf { s with rtr := { s.rtr with bufs := s.rtr.bufs.erase b } } b) ∧
      (s.rtr.bufs.find? (fun x => x.from_ = p.val && x.dir.isNone) = some b) ∧ (pkeyPasses s p b.pkt = true) ∧
      (fateOf s b.from_ b.pkt = .deliver) ∧ (pkeyPasses s 12 b.pkt = false)) ∧
    (let s : State := upB tb; let p : Port := 11; let b := tb;
      let u : State := releaseBuf { s with rtr := { s.rtr with bufs := s.rtr.bufs.erase b } } b;
      (u = releaseBuf { s with rtr := { s.rtr with bufs := s.rtr.bufs.erase b } } b) ∧
      (s.rtr.bufs.find? (fun x => x.from_ = p.val && x.dir.isNone) = some b) ∧ (pkeyPasses s p b.pkt = true) ∧
      (fateOf s b.from_ b.pkt = .stale)) ∧
    (let s : State := (upB tb).wr (RTR_VER_CFG.VALID 0) 1; let p : Port := 11; let b := tb;
      let u : State := releaseBuf { s with rtr := { s.rtr with bufs := s.rtr.bufs.erase b } } b;
      (u = releaseBuf { s with rtr := { s.rtr with bufs := s.rtr.bufs.erase b } } b) ∧
      (s.rtr.bufs.find? (fun x => x.from_ = p.val && x.dir.isNone) = some b) ∧ (pkeyPasses s p b.pkt = true) ∧
      (fateOf s b.from_ b.pkt = .noRoute)) ∧
    (let s : State := let a := ((upB tb).wr (RTR_VER_CFG.VALID 0) 1).wr (RTR_PORT_CFG.DIR 11) 2;
        { a with rtr := { a.rtr with table := [(9, 3)] } };
      let p : Port := 11; let b := tb;
      let u : State := releaseBuf { s with rtr := { s.rtr with bufs := s.rtr.bufs.erase b } } b;
      (u = releaseBuf { s with rtr := { s.rtr with bufs := s.rtr.bufs.erase b } } b) ∧
      (s.rtr.bufs.find? (fun x => x.from_ = p.val && x.dir.isNone) = some b) ∧ (pkeyPasses s p b.pkt = true) ∧
      (fateOf s b.from_ b.pkt = .order)) ∧
    (let s : State := let a := ((upB tb).wr (RTR_VER_CFG.VALID 0) 1).wr (RTR_PORT_CFG.DIR 11) 3;
        { a with rtr := { a.rtr with table := [(9, 3)] } };
      let p : Port := 11; let b := tb;
      let u : State := releaseBuf { s with rtr := { s.rtr with bufs := s.rtr.bufs.erase b } } b; let d := 2;
      (u = releaseBuf { s with rtr := { s.rtr with bufs := s.rtr.bufs.erase b } } b) ∧
      (s.rtr.bufs.find? (fun x => x.from_ = p.val && x.dir.isNone) = some b) ∧ (pkeyPasses s p b.pkt = true) ∧
      (fateOf s b.from_ b.pkt = .toward d)) :=
  ⟨⟨rfl, by decide +kernel⟩,
   ⟨rfl, by decide +kernel⟩,
   ⟨rfl, by decide +kernel⟩,
   ⟨rfl, by decide +kernel⟩,
   ⟨rfl, by decide +kernel⟩,
   ⟨rfl, by decide +kernel⟩,
   ⟨rfl, by decide +kernel⟩,
   ⟨rfl, by decide +kernel⟩⟩

/-- States and operands that meet the hypotheses of `Obligations.RouterPackets` (RouterEgress). -/
theorem witness_RouterEgress :
    (let s : State := keyed { up with rtr := { up.rtr with inject := [{ flow := .control, pkt := pk 4 }] } };
      let o := { flow := .control, pkt := pk 4 }; let rest := []; (s.rtr.inject = o :: rest) ∧ (pkeyPasses s 12 o.pkt = true)) ∧
    (let s : State := { up with rtr := { up.rtr with inject := [{ flow := .control, pkt := pk 4 }] } };
      let o := { flow := .control, pkt := pk 4 }; let rest := []; (s.rtr.inject = o :: rest) ∧
      (pkeyPasses s 12 o.pkt = false)) ∧
    (let s : State := upG [egr false false, egr false true]; let p : Port := 11; let b := egr false true;
      (grantChoice s p = some b)) ∧
    (let s : State := upG [egr false false, egr true true]; let p : Port := 11; let b := egr true true;
      (grantChoice s p = some b)) ∧
    (let s : State := up; let p : Port := 11; (grantChoice s p = none)) ∧
    (let s : State := upG [egr false true]; let q := 11; let x := egr false true; (x ∈ s.rtr.bufs) ∧ (mayBegin s q x = true)) ∧
    (let s : State := upG [egr false false, egr true true]; let q := 11; let x := egr false false; (x ∈ s.rtr.bufs) ∧
      (mayBegin s q x = true)) ∧
    (let s : State := upB { tb with dir := some 2, lastEgress := some 11, downEnd := some up.now };
      let b := { tb with dir := some 2, lastEgress := some 11, downEnd := some up.now }; let q := 11;
      (s.rtr.bufs.find? (fun b => b.dir.isSome && b.egress.isNone && s.due b.downEnd) = some b) ∧ (b.lastEgress = some q)) ∧
    (let s : State := upB { tb with dir := some 2, downEnd := some up.now };
      let b := { tb with dir := some 2, downEnd := some up.now };
      (s.rtr.bufs.find? (fun b => b.dir.isSome && b.egress.isNone && s.due b.downEnd) = some b) ∧ (b.lastEgress = none)) ∧
    (let s : State := (upB (egr false true)).wr RTR_TMR.ENTRY_WAIT 1; let b := egr false true; let q := 11;
      (s.rtr.bufs.find? (fun b => waitedLong s b && !b.late && b.egress.isSome) = some b) ∧ (b.egress = some q)) :=
  ⟨by decide +kernel,
   by decide +kernel,
   by decide +kernel,
   by decide +kernel,
   by decide +kernel,
   by decide +kernel,
   by decide +kernel,
   by decide +kernel,
   by decide +kernel,
   by decide +kernel⟩

/-- States and operands that meet the hypotheses of `Obligations.RoutingEpochs`. -/
theorem witness_RoutingEpochs :
    (let s : State := ((up.wr RTR_EPOCH.OLD_FREE 1).wr (RTR_VER_CFG.VALID 1) 1).wr RTR_FLIP_TIME_HI.TIME_HI 1; (TablesOk s) ∧
      (s.fabricOpen = true) ∧ (s.on RTR_EPOCH.OLD_FREE = true) ∧ (s.on (RTR_VER_CFG.VALID (1 - s.epochBit)) = true) ∧
      (s.nowNs < flipTime s)) ∧
    (let s : State := ((up.wr RTR_EPOCH.OLD_FREE 1).wr (RTR_VER_CFG.VALID 1) 1); (s.fabricOpen = true) ∧ (s.power ≠ 1) ∧
      (s.on RTR_EPOCH.OLD_FREE = true) ∧ (s.on (RTR_VER_CFG.VALID (1 - s.epochBit)) = true) ∧ (flipTime s ≤ s.nowNs)) ∧
    (let s : State := up; (s.fabricOpen = true) ∧ (s.power ≠ 1) ∧
      ((s.on RTR_EPOCH.OLD_FREE = false ∨ s.on (RTR_VER_CFG.VALID (1 - s.epochBit)) = false))) ∧
    (let s : State := up.wr RTR_EPOCH.OLD_FREE 0; (s.fabricOpen = true) ∧ (s.power ≠ 1) ∧
      ((s.on RTR_EPOCH.OLD_FREE = false ∨ s.on (RTR_VER_CFG.VALID (1 - s.epochBit)) = false))) ∧
    (let s : State := up.wr RTR_EPOCH.ARMED 1; (s.on RTR_EPOCH.ARMED = true) ∧ (s.rtr.flipAt ≤ s.nowNs) ∧ (s.inTier2 = false)) ∧
    (let s : State := { up.wr RTR_EPOCH.ARMED 1 with rtr := { up.rtr with flipAt := 5, drained := true } };
      (s.on RTR_EPOCH.ARMED = true) ∧ (s.rtr.flipAt ≤ s.nowNs) ∧ (s.inTier2 = false)) ∧
    (let s : State := up; (TablesOk s) ∧ (s.fabricOpen = true)) ∧
    (let s : State := { up with rtr := { up.rtr with holdBit := some 1 } }; (TablesOk s) ∧ (s.fabricOpen = true)) ∧
    (let s : State := upT 2 .fill; (s.inTier2 = true)) ∧
    (let s : State := up.wr RTR_EPOCH.DRAINING 1; (TablesOk s) ∧ (s.fabricOpen = true)) ∧
    (let s : State := let a := upB { tb with pkt := { tb.pkt with epoch := true } };
        { a with rtr := { a.rtr with deadline := some 0 } };
      (s.due s.rtr.deadline = true) ∧ (s.inTier2 = false)) ∧
    (let s : State := up; let p : Port := 11; (TablesOk s) ∧
      (s.rtr.congFrom.get 0 p + ns (100 * s.rd RTR_CONG_CFG.PERIOD) ≤ s.now)) :=
  ⟨⟨tablesOk_of (by decide +kernel), by decide +kernel⟩,
   by decide +kernel,
   by decide +kernel,
   by decide +kernel,
   by decide +kernel,
   by decide +kernel,
   ⟨tablesOk_of (by decide +kernel), by decide +kernel⟩,
   ⟨tablesOk_of (by decide +kernel), by decide +kernel⟩,
   by decide +kernel,
   ⟨tablesOk_of (by decide +kernel), by decide +kernel⟩,
   by decide +kernel,
   ⟨tablesOk_of (by decide +kernel), by decide +kernel⟩⟩

/-- States and operands that meet the hypotheses of `Obligations.RoutingEpochs`. -/
theorem witness_RoutingEpochs_2 :
    (let s : State :=
        { (up.wr (RTR_CONG.LEVEL 11) 3).wr RTR_CONG_CFG.SHIFT 3 with rtr := { up.rtr with blocked := [(11, 100000)] }, links := [(11, { slots := 5, busySlots := 4 })] };
      let p : Port := 11; (TablesOk s) ∧ (s.rtr.congFrom.get 0 p + ns (100 * s.rd RTR_CONG_CFG.PERIOD) ≤ s.now)) :=
  ⟨tablesOk_of (by decide +kernel), by decide +kernel⟩

/-- States and operands that meet the hypotheses of `Obligations.Scheduling`. -/
theorem witness_Scheduling :
    (let s : State := { up with out := [⟨.control, pk 8, [], 0⟩, ⟨.response, pk 0x81, [], 0⟩] };
      let o := ⟨.response, pk 0x81, [], 0⟩; (TablesOk s) ∧ (s.out.find? (fun x => x.flow = .response) = some o) ∧
      ((beginEgress s [] o).isSome = true) ∧ (freeXbars s ≠ [])) ∧
    (let s : State := { up with out := [⟨.queue 5, pk 4, [], 0⟩, ⟨.control, pk 8, [], 0⟩] }; let o := ⟨.control, pk 8, [], 0⟩;
      (TablesOk s) ∧ (s.out.all (fun x => x.flow ≠ .response) = true) ∧ (s.out.find? (fun x => x.flow = .control) = some o) ∧
      ((beginEgress s [] o).isSome = true) ∧ (freeXbars s ≠ [])) ∧
    (let s : State := up; (s.out = []) ∧ (s.sch.flows = []) ∧ (s.sch.classes = [])) ∧
    (let s : State := { up with sch := { up.sch with window := 32000 } }; (s.now < ns (32 * (s.sch.window + 1)))) ∧
    (let s : State := { (up.wr (SCH_SHAPER.RATE 5) 7) with sch := { up.sch with rates := [(5, 3)], tokens := [(5, -100)] } };
      (TablesOk s) ∧ (ns (32 * (s.sch.window + 1)) ≤ s.now)) ∧
    (let s : State := { up.wr (SCH_SHAPER.RATE 5) 7 with sch := { up.sch with rates := [(5, 3)] } }; (TablesOk s) ∧
      (ns (32 * (s.sch.window + 1)) ≤ s.now)) ∧
    (let s : State := up; (TablesOk s) ∧ (s.fabricOpen = true)) ∧
    (let s : State := up; (TablesOk s) ∧ (s.fabricOpen = true)) ∧
    (let s : State := up; (TablesOk s) ∧ (s.fabricOpen = true)) :=
  ⟨⟨tablesOk_of (by decide +kernel), by decide +kernel⟩,
   ⟨tablesOk_of (by decide +kernel), by decide +kernel⟩,
   by decide +kernel,
   by decide +kernel,
   ⟨tablesOk_of (by decide +kernel), by decide +kernel⟩,
   ⟨tablesOk_of (by decide +kernel), by decide +kernel⟩,
   ⟨tablesOk_of (by decide +kernel), by decide +kernel⟩,
   ⟨tablesOk_of (by decide +kernel), by decide +kernel⟩,
   ⟨tablesOk_of (by decide +kernel), by decide +kernel⟩⟩

/-- States and operands that meet the hypotheses of `Obligations.RequestRows`. -/
theorem witness_RequestRows :
    (let s : State := up; let p := { pk 1 with crc := 0 }; let u : State := takeDelivered (drowseExit s) p; let op := 1;
      let i := streamOf p.src p.tc; (u = takeDelivered (drowseExit s) p) ∧ (i = streamOf p.src p.tc) ∧ (p.opcode = op) ∧
      (s.fabricOpen = true) ∧ (p.intact = false)) :=
  ⟨rfl, rfl, by decide +kernel⟩

/-- States and operands that meet the hypotheses of `Obligations.RequestRows`. -/
theorem witness_RequestRows_2 :
    (let s : State := up; let p := { pk0 2 with life := 100 }.seal; let u : State := takeDelivered (drowseExit s) p;
      let op := 2; let i := streamOf p.src p.tc; (u = takeDelivered (drowseExit s) p) ∧ (i = streamOf p.src p.tc) ∧
      (p.opcode = op) ∧ (s.fabricOpen = true) ∧ (p.intact = true) ∧ (u.rd XPT_CFG.PKT_LIFE < pktAge u p)) :=
  ⟨rfl, rfl, by decide +kernel⟩

/-- States and operands that meet the hypotheses of `Obligations.RequestRows`. -/
theorem witness_RequestRows_3 :
    (let s : State := up; let p := pk 3; let u : State := takeDelivered (drowseExit s) p; let op := 3;
      let i := streamOf p.src p.tc; (u = takeDelivered (drowseExit s) p) ∧ (i = streamOf p.src p.tc) ∧ (p.opcode = op) ∧
      (s.fabricOpen = true) ∧ (p.intact = true) ∧ (pktAge u p ≤ u.rd XPT_CFG.PKT_LIFE) ∧ ((u.peer i).rxState = 0)) :=
  ⟨rfl, rfl, by decide +kernel⟩

/-- States and operands that meet the hypotheses of `Obligations.RequestRows`. -/
theorem witness_RequestRows_4 :
    (let s : State := upP { rxState := 4 }; let p := pk 4; let u : State := takeDelivered (drowseExit s) p; let op := 4;
      let i := streamOf p.src p.tc; (u = takeDelivered (drowseExit s) p) ∧ (i = streamOf p.src p.tc) ∧ (p.opcode = op) ∧
      (s.fabricOpen = true) ∧ (p.intact = true) ∧ (pktAge u p ≤ u.rd XPT_CFG.PKT_LIFE) ∧ (1 < (u.peer i).rxState)) :=
  ⟨rfl, rfl, by decide +kernel⟩

/-- States and operands that meet the hypotheses of `Obligations.RequestRows`. -/
theorem witness_RequestRows_5 :
    (let s : State := upP { rxState := 1, rxStag := 8 }; let p := pk 9; let u : State := takeDelivered (drowseExit s) p;
      let op := 9; let i := streamOf p.src p.tc; (u = takeDelivered (drowseExit s) p) ∧ (i = streamOf p.src p.tc) ∧
      (p.opcode = op) ∧ (s.fabricOpen = true) ∧ (p.intact = true) ∧ (pktAge u p ≤ u.rd XPT_CFG.PKT_LIFE) ∧
      ((u.peer i).rxState = 1) ∧ (p.stag ≠ (u.peer i).rxStag)) :=
  ⟨rfl, rfl, by decide +kernel⟩

/-- States and operands that meet the hypotheses of `Obligations.RequestRows`. -/
theorem witness_RequestRows_6 :
    (let s : State := upP rx1; let p := { pk0 9 with seq := 512 }.seal; let u : State := takeDelivered (drowseExit s) p;
      let op := 9; let i := streamOf p.src p.tc; let d := (p.seq + 65536 - (u.peer i).rxBase) % 65536;
      (u = takeDelivered (drowseExit s) p) ∧ (i = streamOf p.src p.tc) ∧ (d = (p.seq + 65536 - (u.peer i).rxBase) % 65536) ∧
      (p.opcode = op) ∧ (s.fabricOpen = true) ∧ (p.intact = true) ∧ (pktAge u p ≤ u.rd XPT_CFG.PKT_LIFE) ∧
      ((u.peer i).rxState = 1) ∧ (p.stag = (u.peer i).rxStag) ∧ (512 ≤ d ∧ d < 65024)) :=
  ⟨rfl, rfl, rfl, by decide +kernel⟩

/-- States and operands that meet the hypotheses of `Obligations.RequestRows`. -/
theorem witness_RequestRows_7 :
    (let s : State := upP rx1; let p := { pk0 9 with seq := 65023 }.seal; let u : State := takeDelivered (drowseExit s) p;
      let op := 9; let i := streamOf p.src p.tc; let d := (p.seq + 65536 - (u.peer i).rxBase) % 65536;
      (u = takeDelivered (drowseExit s) p) ∧ (i = streamOf p.src p.tc) ∧ (d = (p.seq + 65536 - (u.peer i).rxBase) % 65536) ∧
      (p.opcode = op) ∧ (s.fabricOpen = true) ∧ (p.intact = true) ∧ (pktAge u p ≤ u.rd XPT_CFG.PKT_LIFE) ∧
      ((u.peer i).rxState = 1) ∧ (p.stag = (u.peer i).rxStag) ∧ (512 ≤ d ∧ d < 65024)) :=
  ⟨rfl, rfl, rfl, by decide +kernel⟩

/-- States and operands that meet the hypotheses of `Obligations.RequestRows`. -/
theorem witness_RequestRows_8 :
    (let s : State := let a := upP { rx1 with bmp := 1 }; { a with xpt := { a.xpt with recs := [(3, rec7 1 none)] } };
      let p := pk 1; let u : State := takeDelivered (drowseExit s) p; let op := 1; let i := streamOf p.src p.tc;
      let d := (p.seq + 65536 - (u.peer i).rxBase) % 65536; (u = takeDelivered (drowseExit s) p) ∧ (i = streamOf p.src p.tc) ∧
      (d = (p.seq + 65536 - (u.peer i).rxBase) % 65536) ∧ (p.opcode = op) ∧ (s.fabricOpen = true) ∧ (p.intact = true) ∧
      (pktAge u p ≤ u.rd XPT_CFG.PKT_LIFE) ∧ ((u.peer i).rxState = 1) ∧ (p.stag = (u.peer i).rxStag) ∧
      (65024 ≤ d ∨ (d < 512 ∧ bitOf (u.peer i).bmp d = true)) ∧ (stillBusy u i p = true)) :=
  ⟨rfl, rfl, rfl, by decide +kernel⟩

/-- States and operands that meet the hypotheses of `Obligations.RequestRows`. -/
theorem witness_RequestRows_9 :
    (let s : State := upP { rx1 with rxBase := 1 }; let p := pk 2; let u : State := takeDelivered (drowseExit s) p;
      let op := 2; let i := streamOf p.src p.tc; let d := (p.seq + 65536 - (u.peer i).rxBase) % 65536;
      (u = takeDelivered (drowseExit s) p) ∧ (i = streamOf p.src p.tc) ∧ (d = (p.seq + 65536 - (u.peer i).rxBase) % 65536) ∧
      (p.opcode = op) ∧ (s.fabricOpen = true) ∧ (p.intact = true) ∧ (pktAge u p ≤ u.rd XPT_CFG.PKT_LIFE) ∧
      ((u.peer i).rxState = 1) ∧ (p.stag = (u.peer i).rxStag) ∧ (65024 ≤ d ∨ (d < 512 ∧ bitOf (u.peer i).bmp d = true)) ∧
      (stillBusy u i p = false) ∧ (p.opcode = 2)) :=
  ⟨rfl, rfl, rfl, by decide +kernel⟩

/-- States and operands that meet the hypotheses of `Obligations.RequestRows`. -/
theorem witness_RequestRows_10 :
    (let s : State := upP { rx1 with rxBase := 1 }; let p := pk 1; let u : State := takeDelivered (drowseExit s) p;
      let op := 1; let i := streamOf p.src p.tc; let d := (p.seq + 65536 - (u.peer i).rxBase) % 65536;
      (u = takeDelivered (drowseExit s) p) ∧ (i = streamOf p.src p.tc) ∧ (d = (p.seq + 65536 - (u.peer i).rxBase) % 65536) ∧
      (p.opcode = op) ∧ (s.fabricOpen = true) ∧ (p.intact = true) ∧ (pktAge u p ≤ u.rd XPT_CFG.PKT_LIFE) ∧
      ((u.peer i).rxState = 1) ∧ (p.stag = (u.peer i).rxStag) ∧ (65024 ≤ d ∨ (d < 512 ∧ bitOf (u.peer i).bmp d = true)) ∧
      (stillBusy u i p = false) ∧ (p.opcode ≠ 2) ∧ (findRec u i p = none)) :=
  ⟨rfl, rfl, rfl, by decide +kernel⟩

/-- States and operands that meet the hypotheses of `Obligations.RequestRows`. -/
theorem witness_RequestRows_11 :
    (let s : State := let a := upP { rx1 with rxBase := 512 }; { a with xpt := { a.xpt with recs := [(3, rec7 3 (some 0))] } };
      let p := pk 3; let u : State := takeDelivered (drowseExit s) p; let op := 3; let i := streamOf p.src p.tc;
      let d := (p.seq + 65536 - (u.peer i).rxBase) % 65536; let n := 3; let r := rec7 3 (some 0);
      (u = takeDelivered (drowseExit s) p) ∧ (i = streamOf p.src p.tc) ∧ (d = (p.seq + 65536 - (u.peer i).rxBase) % 65536) ∧
      (p.opcode = op) ∧ (s.fabricOpen = true) ∧ (p.intact = true) ∧ (pktAge u p ≤ u.rd XPT_CFG.PKT_LIFE) ∧
      ((u.peer i).rxState = 1) ∧ (p.stag = (u.peer i).rxStag) ∧ (65024 ≤ d ∨ (d < 512 ∧ bitOf (u.peer i).bmp d = true)) ∧
      (stillBusy u i p = false) ∧ (p.opcode ≠ 2) ∧ (findRec u i p = some (n, r))) :=
  ⟨rfl, rfl, rfl, by decide +kernel⟩

/-- States and operands that meet the hypotheses of `Obligations.RequestRows`. -/
theorem witness_RequestRows_12 :
    (let s : State := let a := upP rx1;
        { a with xpt := { a.xpt with held := [(2, ⟨11, { pk0 1 with seq := 3, ord := true }.seal, 0⟩)] } };
      let p := { pk0 1 with seq := 3, ord := true }.seal; let u : State := takeDelivered (drowseExit s) p; let op := 1;
      let i := streamOf p.src p.tc; let d := (p.seq + 65536 - (u.peer i).rxBase) % 65536;
      (u = takeDelivered (drowseExit s) p) ∧ (i = streamOf p.src p.tc) ∧ (d = (p.seq + 65536 - (u.peer i).rxBase) % 65536) ∧
      (p.opcode = op) ∧ (s.fabricOpen = true) ∧ (p.intact = true) ∧ (pktAge u p ≤ u.rd XPT_CFG.PKT_LIFE) ∧
      ((u.peer i).rxState = 1) ∧ (p.stag = (u.peer i).rxStag) ∧ (d < 512) ∧ (bitOf (u.peer i).bmp d = false) ∧
      (isHeld (applyAcked u i p) i p = true)) :=
  ⟨rfl, rfl, rfl, by decide +kernel⟩

/-- States and operands that meet the hypotheses of `Obligations.RequestRows`. -/
theorem witness_RequestRows_13 :
    (let s : State := upP rx1; let p := { pk0 1 with seq := 511, ord := true }.seal;
      let u : State := takeDelivered (drowseExit s) p; let op := 1; let i := streamOf p.src p.tc;
      let d := (p.seq + 65536 - (u.peer i).rxBase) % 65536; let v := applyAcked u i p; (u = takeDelivered (drowseExit s) p) ∧
      (i = streamOf p.src p.tc) ∧ (d = (p.seq + 65536 - (u.peer i).rxBase) % 65536) ∧ (v = applyAcked u i p) ∧
      (p.opcode = op) ∧ (s.fabricOpen = true) ∧ (p.intact = true) ∧ (pktAge u p ≤ u.rd XPT_CFG.PKT_LIFE) ∧
      ((u.peer i).rxState = 1) ∧ (p.stag = (u.peer i).rxStag) ∧ (d < 512) ∧ (bitOf (u.peer i).bmp d = false) ∧
      (isHeld v i p = false) ∧ (p.ord = true) ∧ (ordEligible v i p = false) ∧ (v.xpt.held.length < 4096)) :=
  ⟨rfl, rfl, rfl, rfl, by decide +kernel⟩

/-- States and operands that meet the hypotheses of `Obligations.RequestRows`. -/
theorem witness_RequestRows_14 :
    (let s : State := winOk (upP { rx1 with bmp := 2, bmpIdx := some 0 }); let p := { pk0 2 with seq := 511 }.seal;
      let u : State := takeDelivered (drowseExit s) p; let op := 2; let i := streamOf p.src p.tc;
      let d := (p.seq + 65536 - (u.peer i).rxBase) % 65536; let v := applyAcked u i p; (u = takeDelivered (drowseExit s) p) ∧
      (i = streamOf p.src p.tc) ∧ (d = (p.seq + 65536 - (u.peer i).rxBase) % 65536) ∧ (v = applyAcked u i p) ∧
      (∃ w, markAccepted v i p.seq = some w) ∧ (p.opcode = op) ∧ (s.fabricOpen = true) ∧ (p.intact = true) ∧
      (pktAge u p ≤ u.rd XPT_CFG.PKT_LIFE) ∧ ((u.peer i).rxState = 1) ∧ (p.stag = (u.peer i).rxStag) ∧ (d < 512) ∧
      (bitOf (u.peer i).bmp d = false) ∧ (isHeld v i p = false) ∧ (p.ord = false ∨ ordEligible v i p = true) ∧
      (p.opcode = 2)) :=
  ⟨rfl, rfl, rfl, rfl, Option.isSome_iff_exists.1 (by decide +kernel), by decide +kernel⟩

/-- States and operands that meet the hypotheses of `Obligations.RequestRows`. -/
theorem witness_RequestRows_15 :
    (let s : State := winOk (upP { rx1 with bmp := 2, bmpIdx := some 0 }); let p := { pk0 1 with seq := 511 }.seal;
      let u : State := takeDelivered (drowseExit s) p; let op := 1; let i := streamOf p.src p.tc;
      let d := (p.seq + 65536 - (u.peer i).rxBase) % 65536; let v := applyAcked u i p; (u = takeDelivered (drowseExit s) p) ∧
      (i = streamOf p.src p.tc) ∧ (d = (p.seq + 65536 - (u.peer i).rxBase) % 65536) ∧ (v = applyAcked u i p) ∧
      (∃ w r, markAccepted v i p.seq = some w ∧ freeRec w = some r) ∧ (p.opcode = op) ∧ (s.fabricOpen = true) ∧
      (p.intact = true) ∧ (pktAge u p ≤ u.rd XPT_CFG.PKT_LIFE) ∧ ((u.peer i).rxState = 1) ∧ (p.stag = (u.peer i).rxStag) ∧
      (d < 512) ∧ (bitOf (u.peer i).bmp d = false) ∧ (isHeld v i p = false) ∧ (p.ord = false ∨ ordEligible v i p = true) ∧
      (p.opcode ≠ 2)) :=
  ⟨rfl, rfl, rfl, rfl, accept_ex (by decide +kernel), by decide +kernel⟩

/-- States and operands that meet the hypotheses of `Obligations.RequestRows`. -/
theorem witness_RequestRows_16 :
    (let s : State := winOk (upP rx1); let p := { pk0 4 with seq := 0, ord := true }.seal;
      let u : State := takeDelivered (drowseExit s) p; let op := 4; let i := streamOf p.src p.tc;
      let d := (p.seq + 65536 - (u.peer i).rxBase) % 65536; let v := applyAcked u i p; (u = takeDelivered (drowseExit s) p) ∧
      (i = streamOf p.src p.tc) ∧ (d = (p.seq + 65536 - (u.peer i).rxBase) % 65536) ∧ (v = applyAcked u i p) ∧
      (∃ w r, markAccepted v i p.seq = some w ∧ freeRec w = some r) ∧ (p.opcode = op) ∧ (s.fabricOpen = true) ∧
      (p.intact = true) ∧ (pktAge u p ≤ u.rd XPT_CFG.PKT_LIFE) ∧ ((u.peer i).rxState = 1) ∧ (p.stag = (u.peer i).rxStag) ∧
      (d < 512) ∧ (bitOf (u.peer i).bmp d = false) ∧ (isHeld v i p = false) ∧ (p.ord = false ∨ ordEligible v i p = true) ∧
      (p.opcode ≠ 2)) :=
  ⟨rfl, rfl, rfl, rfl, accept_ex (by decide +kernel), by decide +kernel⟩

/-- States and operands that meet the hypotheses of `Obligations.RequestEffects`. -/
theorem witness_RequestEffects :
    (let s : State := (up.wr (SYN_PAGE.PKEY 0) 6).wr (SYN_PAGE.REMOTE 0) 1; let p := pk 4; (p.opcode = 4) ∧
      (signalStatus s p.window p.pkey p.src = stOK)) ∧
    (let s : State := (up.wr (SYN_PAGE.PKEY 0) 6).wr (SYN_PAGE.REMOTE 0) 0; let p := pk 4;
      let st := signalStatus s p.window p.pkey p.src; (signalStatus s p.window p.pkey p.src = st) ∧ (p.opcode = 4) ∧
      (st ≠ stOK)) ∧
    (let s : State := (up.wr BDG_FENCE.SW 1); let p := pk 4; let st := signalStatus s p.window p.pkey p.src;
      (signalStatus s p.window p.pkey p.src = st) ∧ (p.opcode = 4) ∧ (st ≠ stOK)) ∧
    (let p := pk 9; (p.opcode = 9)) ∧
    (let s : State := (up.wr BDG_FENCE.SW 1); let p := pk 1; ((p.opcode = 1 ∨ p.opcode = 2 ∨ p.opcode = 3)) ∧ (s.fenced = true)) ∧
    (let s : State := up; let p := pk 1;
      let need := (if p.opcode = 1 then Need.wr else if p.opcode = 2 then Need.rd else Need.at_);
      let st := winCheck (s.win p.window) p.pkey need p.offset p.span;
      (need = (if p.opcode = 1 then Need.wr else if p.opcode = 2 then Need.rd else Need.at_)) ∧
      (winCheck (s.win p.window) p.pkey need p.offset p.span = st) ∧ ((p.opcode = 1 ∨ p.opcode = 2 ∨ p.opcode = 3)) ∧
      (s.fenced = false) ∧ (tier1On s 16 = false) ∧ (st ≠ stOK)) ∧
    (let s : State := winOk up; let p := { pk0 2 with offset := 4096 }.seal;
      let need := (if p.opcode = 1 then Need.wr else if p.opcode = 2 then Need.rd else Need.at_);
      let st := winCheck (s.win p.window) p.pkey need p.offset p.span;
      (need = (if p.opcode = 1 then Need.wr else if p.opcode = 2 then Need.rd else Need.at_)) ∧
      (winCheck (s.win p.window) p.pkey need p.offset p.span = st) ∧ ((p.opcode = 1 ∨ p.opcode = 2 ∨ p.opcode = 3)) ∧
      (s.fenced = false) ∧ (tier1On s 16 = false) ∧ (st ≠ stOK)) ∧
    (let s : State := winOk up; let p := { pk0 3 with fn := 10, w8 := true }.seal;
      let need := (if p.opcode = 1 then Need.wr else if p.opcode = 2 then Need.rd else Need.at_);
      let st := winCheck (s.win p.window) p.pkey need p.offset p.span;
      (need = (if p.opcode = 1 then Need.wr else if p.opcode = 2 then Need.rd else Need.at_)) ∧
      (winCheck (s.win p.window) p.pkey need p.offset p.span = st) ∧ ((p.opcode = 1 ∨ p.opcode = 2 ∨ p.opcode = 3)) ∧
      (s.fenced = false) ∧ (tier1On s 16 = false) ∧ (st = stOK) ∧ (p.opcode = 3) ∧ (atomicOk p.fn p.w8 = false)) ∧
    (let s : State := winOk up; let i := 11; let p := pk 1; let r := none;
      let need := (if p.opcode = 1 then Need.wr else if p.opcode = 2 then Need.rd else Need.at_);
      let st := winCheck (s.win p.window) p.pkey need p.offset p.span; let t : State := execute s i p r;
      (need = (if p.opcode = 1 then Need.wr else if p.opcode = 2 then Need.rd else Need.at_)) ∧
      (winCheck (s.win p.window) p.pkey need p.offset p.span = st) ∧ (t = execute s i p r) ∧
      ((p.opcode = 1 ∨ p.opcode = 2 ∨ p.opcode = 3)) ∧ (s.fenced = false) ∧ (tier1On s 16 = false) ∧ (st = stOK) ∧
      (p.opcode = 1) ∧ ((s.win p.window).chunked = false) ∧ (s.tgt.atoms = []) ∧
      (linesHeld s 0x01 + linesOf ((s.win p.window).base + p.offset) p.length ≤ 1024) ∧ (0 < p.length)) ∧
    (let s : State := winOk up; let i := 11; let p := { pk0 1 with offset := 4088 }.seal; let r := some 5;
      let need := (if p.opcode = 1 then Need.wr else if p.opcode = 2 then Need.rd else Need.at_);
      let st := winCheck (s.win p.window) p.pkey need p.offset p.span; let t : State := execute s i p r;
      (need = (if p.opcode = 1 then Need.wr else if p.opcode = 2 then Need.rd else Need.at_)) ∧
      (winCheck (s.win p.window) p.pkey need p.offset p.span = st) ∧ (t = execute s i p r) ∧
      ((p.opcode = 1 ∨ p.opcode = 2 ∨ p.opcode = 3)) ∧ (s.fenced = false) ∧ (tier1On s 16 = false) ∧ (st = stOK) ∧
      (p.opcode = 1) ∧ ((s.win p.window).chunked = false) ∧ (s.tgt.atoms = []) ∧
      (linesHeld s 0x01 + linesOf ((s.win p.window).base + p.offset) p.length ≤ 1024) ∧ (0 < p.length)) ∧
    (let s : State := winOk up; let i := 11; let p := { pk0 1 with offset := 4088 }.seal; let r := some 5;
      let need := (if p.opcode = 1 then Need.wr else if p.opcode = 2 then Need.rd else Need.at_);
      let st := winCheck (s.win p.window) p.pkey need p.offset p.span; let t : State := execute s i p r;
      (need = (if p.opcode = 1 then Need.wr else if p.opcode = 2 then Need.rd else Need.at_)) ∧
      (winCheck (s.win p.window) p.pkey need p.offset p.span = st) ∧ (t = execute s i p r) ∧
      ((p.opcode = 1 ∨ p.opcode = 2 ∨ p.opcode = 3)) ∧ (s.fenced = false) ∧ (tier1On s 16 = false) ∧ (st = stOK) ∧
      (p.opcode = 1) ∧ ((s.win p.window).chunked = false) ∧ (s.tgt.atoms = []) ∧
      (linesHeld s 0x01 + linesOf ((s.win p.window).base + p.offset) p.length ≤ 1024) ∧ (0 < p.length)) ∧
    (let s : State := winOk up; let i := 11; let p := { pk0 2 with offset := 4088 }.seal; let r := none;
      let need := (if p.opcode = 1 then Need.wr else if p.opcode = 2 then Need.rd else Need.at_);
      let st := winCheck (s.win p.window) p.pkey need p.offset p.span; let t : State := execute s i p r;
      (need = (if p.opcode = 1 then Need.wr else if p.opcode = 2 then Need.rd else Need.at_)) ∧
      (winCheck (s.win p.window) p.pkey need p.offset p.span = st) ∧ (t = execute s i p r) ∧
      ((p.opcode = 1 ∨ p.opcode = 2 ∨ p.opcode = 3)) ∧ (s.fenced = false) ∧ (tier1On s 16 = false) ∧ (st = stOK) ∧
      (p.opcode = 2) ∧ ((s.win p.window).chunked = false) ∧ (s.tgt.atoms = []) ∧
      (linesHeld s 0x02 + linesOf ((s.win p.window).base + p.offset) p.length ≤ 2048) ∧ (0 < p.length)) :=
  ⟨by decide +kernel,
   ⟨rfl, by decide +kernel⟩,
   ⟨rfl, by decide +kernel⟩,
   by decide +kernel,
   by decide +kernel,
   ⟨rfl, rfl, by decide +kernel⟩,
   ⟨rfl, rfl, by decide +kernel⟩,
   ⟨rfl, rfl, by decide +kernel⟩,
   ⟨rfl, rfl, rfl, by decide +kernel⟩,
   ⟨rfl, rfl, rfl, by decide +kernel⟩,
   ⟨rfl, rfl, rfl, by decide +kernel⟩,
   ⟨rfl, rfl, rfl, by decide +kernel⟩⟩

/-- States and operands that meet the hypotheses of `Obligations.Responses`. -/
theorem witness_Responses :
    (let s : State := up; let p := { pk 0x81 with crc := 0 }; let u : State := takeDelivered (drowseExit s) p; let op := 0x81;
      (u = takeDelivered (drowseExit s) p) ∧ (s.fabricOpen = true) ∧ (p.opcode = op) ∧ (p.intact = false)) ∧
    (let s : State := up; let p := { pk 0x8A with mark := 0 }; let u : State := takeDelivered (drowseExit s) p; let op := 0x8A;
      (u = takeDelivered (drowseExit s) p) ∧ (s.fabricOpen = true) ∧ (p.opcode = op) ∧ (p.intact = false)) ∧
    (let s : State := up; let p := pk 0x82; let u : State := takeDelivered (drowseExit s) p; let op := 0x82;
      (u = takeDelivered (drowseExit s) p) ∧ (s.fabricOpen = true) ∧ (p.opcode = op) ∧ (p.intact = true) ∧
      (liveEntry u p true = none)) ∧
    (let s : State := upE { ent 3 with state := 1 }; let p := pk 0x83; let u : State := takeDelivered (drowseExit s) p;
      let op := 0x83; (u = takeDelivered (drowseExit s) p) ∧ (s.fabricOpen = true) ∧ (p.opcode = op) ∧ (p.intact = true) ∧
      (liveEntry u p true = none)) ∧
    (let s : State := upE (ent 1); let p := rpk 0x81; let u : State := takeDelivered (drowseExit s) p; let e := ent 1;
      (u = takeDelivered (drowseExit s) p) ∧ (s.fabricOpen = true) ∧ (p.intact = true) ∧ (liveEntry u p true = some e) ∧
      (p.opcode = 0x81)) ∧
    (let s : State := upE (ent 1); let p := { rpk 0x81 with status := 3 }.seal;
      let u : State := takeDelivered (drowseExit s) p; let e := ent 1; (u = takeDelivered (drowseExit s) p) ∧
      (s.fabricOpen = true) ∧ (p.intact = true) ∧ (liveEntry u p true = some e) ∧ (p.opcode = 0x81)) ∧
    (let s : State := upE (ent 3); let p := rpk 0x83; let u : State := takeDelivered (drowseExit s) p; let e := ent 3;
      (u = takeDelivered (drowseExit s) p) ∧ (s.fabricOpen = true) ∧ (p.intact = true) ∧ (liveEntry u p true = some e) ∧
      (p.opcode = 0x83)) ∧
    (let s : State := upE (ent 2); let p := { rpk 0x82 with status := 3, length := 0, payload := [] }.seal;
      let u : State := takeDelivered (drowseExit s) p; let e := ent 2; ∃ o, (u = takeDelivered (drowseExit s) p) ∧
      (u.xop e.op = some o) ∧ (s.fabricOpen = true) ∧ (p.intact = true) ∧ (liveEntry u p true = some e) ∧ (p.opcode = 0x82) ∧
      (p.status ≠ stOK)) ∧
    (let s : State := upE (ent 2); let p := rpk 0x82; let u : State := takeDelivered (drowseExit s) p; let e := ent 2; ∃ o,
      (u = takeDelivered (drowseExit s) p) ∧ (u.xop e.op = some o) ∧ (s.fabricOpen = true) ∧ (p.intact = true) ∧
      (liveEntry u p true = some e) ∧ (p.opcode = 0x82) ∧ (p.status = stOK) ∧ (e.opcode = 2)) ∧
    (let s : State := upE (ent 2); let p := { rpk 0x8A with status := stFENCED }.seal;
      let u : State := takeDelivered (drowseExit s) p; let e := ent 2; (u = takeDelivered (drowseExit s) p) ∧
      (s.fabricOpen = true) ∧ (p.intact = true) ∧ (liveEntry u p true = some e) ∧ (p.opcode = 0x8A)) ∧
    (let s : State := upE (ent 2); let p := { rpk 0x8A with status := stPOISON }.seal;
      let u : State := takeDelivered (drowseExit s) p; let e := ent 2; (u = takeDelivered (drowseExit s) p) ∧
      (s.fabricOpen = true) ∧ (p.intact = true) ∧ (liveEntry u p true = some e) ∧ (p.opcode = 0x8A)) ∧
    (let s : State := up; let p := pk 0x8F; let u : State := takeDelivered (drowseExit s) p; let o := none;
      (u = takeDelivered (drowseExit s) p) ∧ (o = none) ∧ (s.fabricOpen = true) ∧ (p.intact = true) ∧ (p.opcode = 0x8F) ∧
      (o = (if p.seq = 0 then syncOf u p.stag else none)) ∧ (liveEntry u p false = none)) :=
  ⟨⟨rfl, by decide +kernel⟩,
   ⟨rfl, by decide +kernel⟩,
   ⟨rfl, by decide +kernel⟩,
   ⟨rfl, by decide +kernel⟩,
   ⟨rfl, by decide +kernel⟩,
   ⟨rfl, by decide +kernel⟩,
   ⟨rfl, by decide +kernel⟩,
   ⟨(Option.get ((takeDelivered (drowseExit (upE (ent 2) : State)) ({ rpk 0x82 with status := 3, length := 0, payload := [] }.seal) : State).xop (ent 2).op) (by decide +kernel)),
      rfl, (Option.some_get _).symm, by decide +kernel⟩,
   ⟨(Option.get ((takeDelivered (drowseExit (upE (ent 2) : State)) (rpk 0x82) : State).xop (ent 2).op) (by decide +kernel)),
      rfl, (Option.some_get _).symm, by decide +kernel⟩,
   ⟨rfl, by decide +kernel⟩,
   ⟨rfl, by decide +kernel⟩,
   ⟨rfl, rfl, by decide +kernel⟩⟩

/-- States and operands that meet the hypotheses of `Obligations.Responses`. -/
theorem witness_Responses_2 :
    (let s : State := upE (ent 2); let p := { rpk 0x8F with status := stPARTITION }.seal;
      let u : State := takeDelivered (drowseExit s) p; let o := none; let e := ent 2; (u = takeDelivered (drowseExit s) p) ∧
      (o = none) ∧ (s.fabricOpen = true) ∧ (p.intact = true) ∧ (p.opcode = 0x8F) ∧
      (o = (if p.seq = 0 then syncOf u p.stag else none)) ∧ (liveEntry u p false = some e) ∧ (p.status = stPARTITION)) ∧
    (let s : State := upE (ent 2); let p := { rpk 0x8F with status := stUNREACHABLE }.seal;
      let u : State := takeDelivered (drowseExit s) p; let o := none; let e := ent 2; (u = takeDelivered (drowseExit s) p) ∧
      (o = none) ∧ (s.fabricOpen = true) ∧ (p.intact = true) ∧ (p.opcode = 0x8F) ∧
      (o = (if p.seq = 0 then syncOf u p.stag else none)) ∧ (liveEntry u p false = some e) ∧ (p.status ≠ stPARTITION) ∧
      (e.attempt < u.rd XPT_CFG.ATTEMPTS)) ∧
    (let s : State := upE { ent 2 with attempt := up.rd XPT_CFG.ATTEMPTS };
      let p := { rpk 0x8F with status := stUNREACHABLE }.seal; let u : State := takeDelivered (drowseExit s) p; let o := none;
      let e := { ent 2 with attempt := up.rd XPT_CFG.ATTEMPTS }; (u = takeDelivered (drowseExit s) p) ∧ (o = none) ∧
      (s.fabricOpen = true) ∧ (p.intact = true) ∧ (p.opcode = 0x8F) ∧ (o = (if p.seq = 0 then syncOf u p.stag else none)) ∧
      (liveEntry u p false = some e) ∧ (p.status ≠ stPARTITION) ∧ (u.rd XPT_CFG.ATTEMPTS ≤ e.attempt)) ∧
    (let s : State := upP { txState := 1, syncStag := 7 }; let p := { pk0 0x8F with status := stPARTITION }.seal;
      let u : State := takeDelivered (drowseExit s) p; let o := (if p.seq = 0 then syncOf u p.stag else none); let i := 11;
      (u = takeDelivered (drowseExit s) p) ∧ (o = (if p.seq = 0 then syncOf u p.stag else none)) ∧ (s.fabricOpen = true) ∧
      (p.intact = true) ∧ (p.opcode = 0x8F) ∧ (o = some i) ∧ (p.status = stPARTITION)) ∧
    (let s : State := upP { txState := 1, syncStag := 7 }; let p := pk 0x88; let u : State := takeDelivered (drowseExit s) p;
      let e := u.peer (streamOf p.src p.tc); (u = takeDelivered (drowseExit s) p) ∧ (e = u.peer (streamOf p.src p.tc)) ∧
      (s.fabricOpen = true) ∧ (p.opcode = 0x88) ∧ (p.intact = true) ∧ (e.txState = 1 ∧ p.stag = e.syncStag)) ∧
    (let s : State := up; let p := pk 0x88; let u : State := takeDelivered (drowseExit s) p;
      let e := u.peer (streamOf p.src p.tc); (u = takeDelivered (drowseExit s) p) ∧ (e = u.peer (streamOf p.src p.tc)) ∧
      (s.fabricOpen = true) ∧ (p.opcode = 0x88) ∧ (p.intact = true) ∧ (e.txState ≠ 1 ∨ p.stag ≠ e.syncStag)) ∧
    (let s : State := upP { txState := 1, syncStag := 8 }; let p := pk 0x88; let u : State := takeDelivered (drowseExit s) p;
      let e := u.peer (streamOf p.src p.tc); (u = takeDelivered (drowseExit s) p) ∧ (e = u.peer (streamOf p.src p.tc)) ∧
      (s.fabricOpen = true) ∧ (p.opcode = 0x88) ∧ (p.intact = true) ∧ (e.txState ≠ 1 ∨ p.stag ≠ e.syncStag)) ∧
    (let s : State := up; let p := pk 8; let u : State := takeDelivered (drowseExit s) p;
      (u = takeDelivered (drowseExit s) p) ∧ (s.fabricOpen = true) ∧ (p.opcode = 0x08) ∧ (p.intact = true) ∧
      (pktAge u p ≤ u.rd XPT_CFG.PKT_LIFE)) ∧
    (let s : State := let a := upP { rxState := 4, rxStag := 6, rxBase := 5, bmp := 5 };
        { a with xpt := { a.xpt with recs := [(3, rec7 1 none), (4, { rec7 1 none with stream := 2 })] } };
      let p := pk 8; let u : State := takeDelivered (drowseExit s) p; (u = takeDelivered (drowseExit s) p) ∧
      (s.fabricOpen = true) ∧ (p.opcode = 0x08) ∧ (p.intact = true) ∧ (pktAge u p ≤ u.rd XPT_CFG.PKT_LIFE)) ∧
    (let s : State := upP { rxState := 1, rxStag := 7, rxBase := 5, bmp := 5 }; let p := pk 8;
      let u : State := takeDelivered (drowseExit s) p; (u = takeDelivered (drowseExit s) p) ∧ (s.fabricOpen = true) ∧
      (p.opcode = 0x08) ∧ (p.intact = true) ∧ (pktAge u p ≤ u.rd XPT_CFG.PKT_LIFE)) :=
  ⟨⟨rfl, rfl, by decide +kernel⟩,
   ⟨rfl, rfl, by decide +kernel⟩,
   ⟨rfl, rfl, by decide +kernel⟩,
   ⟨rfl, rfl, by decide +kernel⟩,
   ⟨rfl, rfl, by decide +kernel⟩,
   ⟨rfl, rfl, by decide +kernel⟩,
   ⟨rfl, rfl, by decide +kernel⟩,
   ⟨rfl, by decide +kernel⟩,
   ⟨rfl, by decide +kernel⟩,
   ⟨rfl, by decide +kernel⟩⟩

/-- States and operands that meet the hypotheses of `Obligations.TransportSteps` (InitiatorSteps). -/
theorem witness_InitiatorSteps :
    (let s : State := upE { ent 1 with state := 1 }; let i : Fin 2097152 := 11; let tag := 9;
      let e := { ent 1 with state := 1 }; ∃ o, (TablesOk s) ∧ (s.xop e.op = some o) ∧ ((s.peer i).txState ≠ 1) ∧
      ((s.peer i).txState ≠ 2) ∧ ((s.peer i).syncHold ≤ s.now) ∧ (s.xpt.oot = [(tag, e)]) ∧ (e.state = 1) ∧
      (streamOf e.peer e.tc = i)) ∧
    (let s : State := (upE { ent 1 with state := 1 }).wr XPT_STAG.NEXT 0xFFFFFF; let i : Fin 2097152 := 11; let tag := 9;
      let e := { ent 1 with state := 1 }; ∃ o, (TablesOk s) ∧ (s.xop e.op = some o) ∧ ((s.peer i).txState ≠ 1) ∧
      ((s.peer i).txState ≠ 2) ∧ ((s.peer i).syncHold ≤ s.now) ∧ (s.xpt.oot = [(tag, e)]) ∧ (e.state = 1) ∧
      (streamOf e.peer e.tc = i)) ∧
    (let s : State := upP { txState := 1, syncStag := 7, syncEnd := some 0, syncAttempt := 2 }; let i : Fin 2097152 := 11;
      ((s.peer i).txState = 1) ∧ (s.due (s.peer i).syncEnd = true) ∧ ((s.peer i).syncAttempt < s.rd XPT_CFG.ATTEMPTS)) ∧
    (let s : State := upP { txState := 1, syncStag := 7, syncEnd := some 0, syncAttempt := 200 }; let i : Fin 2097152 := 11;
      ((s.peer i).txState = 1) ∧ (s.due (s.peer i).syncEnd = true) ∧ (s.rd XPT_CFG.ATTEMPTS ≤ (s.peer i).syncAttempt)) ∧
    (let s : State := upE (ent 3); let n : Fin 2097152 := 9; let e := ent 3; (s.entry n = some e) ∧ (e.state = 2) ∧
      (s.due e.deadline = true) ∧ (e.attempt < s.rd XPT_CFG.ATTEMPTS) ∧ (e.opcode ≠ 1)) ∧
    (let s : State := upE (ent 1); let n : Fin 2097152 := 9; let e := ent 1; ∃ o, (s.xop e.op = some o) ∧
      (s.entry n = some e) ∧ (e.state = 2) ∧ (s.due e.deadline = true) ∧ (e.attempt < s.rd XPT_CFG.ATTEMPTS) ∧ (e.opcode = 1)) ∧
    (let s : State := upE { ent 1 with attempt := 100 }; let n : Fin 2097152 := 9; let e := { ent 1 with attempt := 100 };
      (s.entry n = some e) ∧ (e.state = 2) ∧ (s.due e.deadline = true) ∧ (s.rd XPT_CFG.ATTEMPTS ≤ e.attempt)) ∧
    (let s : State := up; let peer := 5; let t : State := peerUnreachable s peer; (TablesOk s) ∧ (t = peerUnreachable s peer) ∧
      (s.xpt.oot = []) ∧ (s.xpt.ops = [])) ∧
    (let s : State := upP { txState := 2 }; let peer := 5; let t : State := peerUnreachable s peer; (TablesOk s) ∧
      (t = peerUnreachable s peer) ∧ (s.xpt.oot = []) ∧ (s.xpt.ops = [])) ∧
    (let s : State := let a := upE { ent 3 with state := 1, ready := true, payload := List.replicate 16 2 };
        { a with xpt := { a.xpt with peers := [(11, { txState := 2, txNext := 65535, txStag := 7 })] } };
      let i : Fin 2097152 := 11; let n := 9; let e := { ent 3 with state := 1, ready := true, payload := List.replicate 16 2 };
      ∃ o, (TablesOk s) ∧ (s.xop e.op = some o) ∧ (s.xpt.oot = [(n, e)]) ∧ (e.state ≠ 2) ∧ (e.ready = true) ∧
      (streamOf e.peer e.tc = i) ∧ ((s.peer i).txState = 2) ∧ (seqRoom s i = true)) ∧
    (let s : State :=
        { up with xpt := { up.xpt with ops := [(4, { id := 4, opcode := 3, dest := 5, tc := 4, len := 1, payload := List.replicate 16 3 })] } };
      let n := 4; let o := { id := 4, opcode := 3, dest := 5, tc := 4, len := 1, payload := List.replicate 16 3 };
      (TablesOk s) ∧ (s.xop n = some o) ∧ (o.fail = none) ∧ (o.opcode = 3) ∧ (o.made = 0) ∧ (s.xpt.oot = []) ∧
      (ootRoom s o.ctx = true) ∧ (0 < o.len) ∧ ((s.peer (streamOf o.dest o.tc)).txState ≠ 2)) :=
  ⟨⟨(Option.get ((upE { ent 1 with state := 1 } : State).xop ({ ent 1 with state := 1 }).op) (by decide +kernel)),
      tablesOk_of (by decide +kernel), (Option.some_get _).symm, by decide +kernel⟩,
   ⟨(Option.get (((upE { ent 1 with state := 1 }).wr XPT_STAG.NEXT 0xFFFFFF : State).xop ({ ent 1 with state := 1 }).op) (by decide +kernel)),
      tablesOk_of (by decide +kernel), (Option.some_get _).symm, by decide +kernel⟩,
   by decide +kernel,
   by decide +kernel,
   by decide +kernel,
   ⟨(Option.get ((upE (ent 1) : State).xop (ent 1).op) (by decide +kernel)), (Option.some_get _).symm, by decide +kernel⟩,
   by decide +kernel,
   ⟨tablesOk_of (by decide +kernel), rfl, by decide +kernel⟩,
   ⟨tablesOk_of (by decide +kernel), rfl, by decide +kernel⟩,
   ⟨(Option.get ((let a := upE { ent 3 with state := 1, ready := true, payload := List.replicate 16 2 };
        { a with xpt := { a.xpt with peers := [(11, { txState := 2, txNext := 65535, txStag := 7 })] } } : State).xop ({ ent 3 with state := 1, ready := true, payload := List.replicate 16 2 }).op) (by decide +kernel)),
      tablesOk_of (by decide +kernel), (Option.some_get _).symm, by decide +kernel⟩,
   ⟨tablesOk_of (by decide +kernel), by decide +kernel⟩⟩

/-- States and operands that meet the hypotheses of `Obligations.TransportSteps` (TargetSteps). -/
theorem witness_TargetSteps :
    (let s : State := let a := upP rx1; { a with xpt := { a.xpt with held := [(4095, ⟨11, pk 1, 0⟩)] } };
      let h : Fin 4096 := 4095; let v := ⟨11, pk 1, 0⟩; (Tbl.find? s.xpt.held h = some v) ∧
      (ordEligible s v.stream v.pkt = true)) ∧
    (let s : State := let a := upP { rx1 with rxBase := 1 }; { a with xpt := { a.xpt with held := [(4095, ⟨11, pk 1, 0⟩)] } };
      let h : Fin 4096 := 4095; let v := ⟨11, pk 1, 0⟩; (Tbl.find? s.xpt.held h = some v) ∧
      (ordEligible s v.stream v.pkt = false)) ∧
    (let s : State := let a := upP { rx1 with rxBase := 1 };
        { a with xpt := { a.xpt with held := [(4095, ⟨11, pk 1, 0⟩)] }, time := { a.time with units := ns 100000000000 } };
      let h : Fin 4096 := 4095; let v := ⟨11, pk 1, 0⟩; (Tbl.find? s.xpt.held h = some v) ∧ (v.since + s.recAge ≤ s.now)) ∧
    (let s : State :=
        { up with xpt := { up.xpt with recs := [(32767, rec7 3 (some 0))] }, time := { up.time with units := ns 100000000000 } };
      let r : Fin 32768 := 32767; let v := rec7 3 (some 0); (Tbl.find? s.xpt.recs r = some v) ∧ (v.status.isSome = true) ∧
      (ns v.created + s.recAge ≤ s.now)) ∧
    (let id := 2;
      let s : State := let a := winOk up;
        { a with tgt := { a.tgt with ops := [(2, { id := 2, pkt := { pk0 2 with offset := 4088 }.seal, stream := 11 })] } };
      let o := { id := 2, pkt := { pk0 2 with offset := 4088 }.seal, stream := 11 }; (TablesOk s) ∧ (s.tgtOp id = some o) ∧
      (o.phase = .waiting) ∧ (o.pkt.opcode = 2) ∧ ((s.win o.pkt.window).chunked = false) ∧ (0 < o.pkt.length) ∧
      (s.tgt.atoms = []) ∧ (linesHeld s 0x02 + linesOf ((s.win o.pkt.window).base + o.pkt.offset) o.pkt.length ≤ 2048)) ∧
    (let id := 2;
      let s : State := let a := winOk up;
        { a with tgt := { a.tgt with ops := [(2, { id := 2, pkt := { pk0 2 with offset := 4088 }.seal, stream := 11 })] }, time := { up.time with units := ns 100000000000 } };
      let o := { id := 2, pkt := { pk0 2 with offset := 4088 }.seal, stream := 11 }; (s.tgtOp id = some o) ∧
      (o.phase = .waiting) ∧ (o.since + ns (100 * s.rd TGT_CFG.BUSY_BOUND) ≤ s.now)) ∧
    (let s : State := let a := winOk (up.wr BDG_TIME_STAT.VALID 1);
        { a with wins := { a.wins with tbl := [(7, { state := .valid, heatRd := 7, heatAt := 1, candCnt := 3 }), (8, { heatWr := 1 })] }, time := { up.time with units := ns 100000000000 } };
      let d := 2 ^ ((s.now - s.wins.heatNext) / ns (10000000 * s.rd TGT_CFG.HEAT_PERIOD) + 1);
      (d = 2 ^ ((s.now - s.wins.heatNext) / ns (10000000 * s.rd TGT_CFG.HEAT_PERIOD) + 1)) ∧
      (s.on BDG_TIME_STAT.VALID = true) ∧ (s.wins.heatNext ≤ s.now)) :=
  ⟨by decide +kernel,
   by decide +kernel,
   by decide +kernel,
   by decide +kernel,
   ⟨tablesOk_of (by decide +kernel), by decide +kernel⟩,
   by decide +kernel,
   ⟨rfl, by decide +kernel⟩⟩

/-- States and operands that meet the hypotheses of `Obligations.RegisterWrites`. -/
theorem witness_RegisterWrites :
    (let a := 0x999999; (findReg a = none)) ∧
    (let s : State := up; let a := 0x44; ∃ r, ∃ i, let new := 7; let t : State := regWrite s a new; (TablesOk s) ∧
      (findReg a = some (r, i)) ∧ (t = regWrite s a new)) ∧
    (let s : State := up; let a := 0x44; ∃ r, ∃ i, let new := 7; let t : State := regWrite s a new; let b := 0x48;
      (TablesOk s) ∧ (findReg a = some (r, i)) ∧ (t = regWrite s a new) ∧ (b ≠ a)) ∧
    (let s : State := up; let a := 0x0; ∃ r, ∃ i, let new := 7; let t : State := regWrite s a new; ∃ f, ∃ v, ∃ old, ∃ x,
      (TablesOk s) ∧ (findReg a = some (r, i)) ∧ (t = regWrite s a new) ∧ (f ∈ r.fields) ∧ (v = bitsOf new f.hi f.lo) ∧
      (old = bitsOf (s.reg a).toNat f.hi f.lo) ∧ (x = bitsOf (t.reg a).toNat f.hi f.lo) ∧ (f.ty = .ro ∨ f.ty = .wo)) ∧
    (let s : State := up; let a := 0x44; ∃ r, ∃ i, let new := 0xFFFFFFFF; let t : State := regWrite s a new;
      ∃ f, ∃ v, ∃ old, ∃ x, (TablesOk s) ∧ (findReg a = some (r, i)) ∧ (t = regWrite s a new) ∧ (f ∈ r.fields) ∧
      (v = bitsOf new f.hi f.lo) ∧ (old = bitsOf (s.reg a).toNat f.hi f.lo) ∧ (x = bitsOf (t.reg a).toNat f.hi f.lo) ∧
      (f.ty = .rw) ∧ ((f.ok = [] ∨ ∃ y ∈ f.ok, y.1 ≤ v ∧ v ≤ y.2))) ∧
    (let s : State := up; let a := 0x44; ∃ r, ∃ i, let new := 0xFFFFFFFF; let t : State := regWrite s a new; let j := 31;
      (TablesOk s) ∧ (findReg a = some (r, i)) ∧ (t = regWrite s a new) ∧ ((∀ f ∈ r.fields, j < f.lo ∨ f.hi < j))) ∧
    (let s : State := up; let a := 0x300000; ∃ r, ∃ i, let new := 0xFFFFFFFF; let t : State := regWrite s a new;
      ∃ f, ∃ v, ∃ old, ∃ x, (TablesOk s) ∧ (findReg a = some (r, i)) ∧ (t = regWrite s a new) ∧ (f ∈ r.fields) ∧
      (v = bitsOf new f.hi f.lo) ∧ (old = bitsOf (s.reg a).toNat f.hi f.lo) ∧ (x = bitsOf (t.reg a).toNat f.hi f.lo) ∧
      (f.ty = .rw) ∧ (f.ok ≠ []) ∧ ((∀ y ∈ f.ok, v < y.1 ∨ y.2 < v))) ∧
    (let s : State := up.setReg 0x60004 7#32; let a := 0x60004; ∃ r, ∃ i, let new := 2; let t : State := regWrite s a new;
      ∃ f, ∃ v, ∃ old, ∃ x, (TablesOk s) ∧ (findReg a = some (r, i)) ∧ (t = regWrite s a new) ∧ (f ∈ r.fields) ∧
      (v = bitsOf new f.hi f.lo) ∧ (old = bitsOf (s.reg a).toNat f.hi f.lo) ∧ (x = bitsOf (t.reg a).toNat f.hi f.lo) ∧
      (f.ty = .w1c)) ∧
    (let s : State := up.setReg 0x302800 0x0505007F#32; let a := 0x302800; ∃ r, ∃ i, let new := 0x00050000;
      let t : State := regWrite s a new; ∃ f, ∃ v, ∃ old, ∃ x, (TablesOk s) ∧ (findReg a = some (r, i)) ∧
      (t = regWrite s a new) ∧ (f ∈ r.fields) ∧ (v = bitsOf new f.hi f.lo) ∧ (old = bitsOf (s.reg a).toNat f.hi f.lo) ∧
      (x = bitsOf (t.reg a).toNat f.hi f.lo) ∧ (f.ty = .cnt)) :=
  ⟨by decide +kernel,
   ⟨((Option.get (findReg (0x44)) (by decide +kernel)).1), ((Option.get (findReg (0x44)) (by decide +kernel)).2),
      tablesOk_of (by decide +kernel), (Option.some_get (by decide +kernel)).symm, rfl⟩,
   ⟨((Option.get (findReg (0x44)) (by decide +kernel)).1), ((Option.get (findReg (0x44)) (by decide +kernel)).2),
      tablesOk_of (by decide +kernel), (Option.some_get (by decide +kernel)).symm, rfl, by decide +kernel⟩,
   ⟨((Option.get (findReg (0x0)) (by decide +kernel)).1), ((Option.get (findReg (0x0)) (by decide +kernel)).2),
      (Option.get ((Option.get (findReg (0x0)) (by decide +kernel)).1).fields.head? (by decide +kernel)),
      (bitsOf (7) (Option.get ((Option.get (findReg (0x0)) (by decide +kernel)).1).fields.head? (by decide +kernel)).hi (Option.get ((Option.get (findReg (0x0)) (by decide +kernel)).1).fields.head? (by decide +kernel)).lo),
      (bitsOf ((up : State).reg (0x0)).toNat (Option.get ((Option.get (findReg (0x0)) (by decide +kernel)).1).fields.head? (by decide +kernel)).hi (Option.get ((Option.get (findReg (0x0)) (by decide +kernel)).1).fields.head? (by decide +kernel)).lo),
      (bitsOf ((regWrite (up : State) (0x0) (7) : State).reg (0x0)).toNat (Option.get ((Option.get (findReg (0x0)) (by decide +kernel)).1).fields.head? (by decide +kernel)).hi (Option.get ((Option.get (findReg (0x0)) (by decide +kernel)).1).fields.head? (by decide +kernel)).lo),
      tablesOk_of (by decide +kernel), (Option.some_get (by decide +kernel)).symm,
      rfl, List.mem_of_head? (Option.some_get (by decide +kernel)).symm, rfl, rfl, rfl, by decide +kernel⟩,
   ⟨((Option.get (findReg (0x44)) (by decide +kernel)).1), ((Option.get (findReg (0x44)) (by decide +kernel)).2),
      (Option.get ((Option.get (findReg (0x44)) (by decide +kernel)).1).fields.head? (by decide +kernel)),
      (bitsOf (0xFFFFFFFF) (Option.get ((Option.get (findReg (0x44)) (by decide +kernel)).1).fields.head? (by decide +kernel)).hi (Option.get ((Option.get (findReg (0x44)) (by decide +kernel)).1).fields.head? (by decide +kernel)).lo),
      (bitsOf ((up : State).reg (0x44)).toNat (Option.get ((Option.get (findReg (0x44)) (by decide +kernel)).1).fields.head? (by decide +kernel)).hi (Option.get ((Option.get (findReg (0x44)) (by decide +kernel)).1).fields.head? (by decide +kernel)).lo),
      (bitsOf ((regWrite (up : State) (0x44) (0xFFFFFFFF) : State).reg (0x44)).toNat (Option.get ((Option.get (findReg (0x44)) (by decide +kernel)).1).fields.head? (by decide +kernel)).hi (Option.get ((Option.get (findReg (0x44)) (by decide +kernel)).1).fields.head? (by decide +kernel)).lo),
      tablesOk_of (by decide +kernel), (Option.some_get (by decide +kernel)).symm,
      rfl, List.mem_of_head? (Option.some_get (by decide +kernel)).symm, rfl, rfl, rfl, by decide +kernel⟩,
   ⟨((Option.get (findReg (0x44)) (by decide +kernel)).1), ((Option.get (findReg (0x44)) (by decide +kernel)).2),
      tablesOk_of (by decide +kernel), (Option.some_get (by decide +kernel)).symm, rfl, by decide +kernel⟩,
   ⟨((Option.get (findReg (0x300000)) (by decide +kernel)).1), ((Option.get (findReg (0x300000)) (by decide +kernel)).2),
      (Option.get (((Option.get (findReg (0x300000)) (by decide +kernel)).1).fields.find? fun f => f.ty =
        .rw ∧ f.ok ≠ [] ∧ f.ok.all fun y => y.2 < 2 ^ (f.hi - f.lo + 1) - 1) (by decide +kernel)),
      (bitsOf (0xFFFFFFFF) (Option.get (((Option.get (findReg (0x300000)) (by decide +kernel)).1).fields.find? fun f => f.ty =
        .rw ∧ f.ok ≠ [] ∧ f.ok.all fun y => y.2 < 2 ^ (f.hi - f.lo + 1) - 1) (by decide +kernel)).hi (Option.get (((Option.get (findReg (0x300000)) (by decide +kernel)).1).fields.find? fun f => f.ty =
        .rw ∧ f.ok ≠ [] ∧ f.ok.all fun y => y.2 < 2 ^ (f.hi - f.lo + 1) - 1) (by decide +kernel)).lo),
      (bitsOf ((up : State).reg (0x300000)).toNat (Option.get (((Option.get (findReg (0x300000)) (by decide +kernel)).1).fields.find? fun f => f.ty =
        .rw ∧ f.ok ≠ [] ∧ f.ok.all fun y => y.2 < 2 ^ (f.hi - f.lo + 1) - 1) (by decide +kernel)).hi (Option.get (((Option.get (findReg (0x300000)) (by decide +kernel)).1).fields.find? fun f => f.ty =
        .rw ∧ f.ok ≠ [] ∧ f.ok.all fun y => y.2 < 2 ^ (f.hi - f.lo + 1) - 1) (by decide +kernel)).lo),
      (bitsOf ((regWrite (up : State) (0x300000) (0xFFFFFFFF) : State).reg (0x300000)).toNat (Option.get (((Option.get (findReg (0x300000)) (by decide +kernel)).1).fields.find? fun f => f.ty =
        .rw ∧ f.ok ≠ [] ∧ f.ok.all fun y => y.2 < 2 ^ (f.hi - f.lo + 1) - 1) (by decide +kernel)).hi (Option.get (((Option.get (findReg (0x300000)) (by decide +kernel)).1).fields.find? fun f => f.ty =
        .rw ∧ f.ok ≠ [] ∧ f.ok.all fun y => y.2 < 2 ^ (f.hi - f.lo + 1) - 1) (by decide +kernel)).lo),
      tablesOk_of (by decide +kernel), (Option.some_get (by decide +kernel)).symm,
      rfl, List.mem_of_find?_eq_some (Option.some_get (by decide +kernel)).symm, rfl, rfl, rfl, by decide +kernel⟩,
   ⟨((Option.get (findReg (0x60004)) (by decide +kernel)).1), ((Option.get (findReg (0x60004)) (by decide +kernel)).2),
      (Option.get ((Option.get (findReg (0x60004)) (by decide +kernel)).1).fields.head? (by decide +kernel)),
      (bitsOf (2) (Option.get ((Option.get (findReg (0x60004)) (by decide +kernel)).1).fields.head? (by decide +kernel)).hi (Option.get ((Option.get (findReg (0x60004)) (by decide +kernel)).1).fields.head? (by decide +kernel)).lo),
      (bitsOf ((up.setReg 0x60004 7#32 : State).reg (0x60004)).toNat (Option.get ((Option.get (findReg (0x60004)) (by decide +kernel)).1).fields.head? (by decide +kernel)).hi (Option.get ((Option.get (findReg (0x60004)) (by decide +kernel)).1).fields.head? (by decide +kernel)).lo),
      (bitsOf ((regWrite (up.setReg 0x60004 7#32 : State) (0x60004) (2) : State).reg (0x60004)).toNat (Option.get ((Option.get (findReg (0x60004)) (by decide +kernel)).1).fields.head? (by decide +kernel)).hi (Option.get ((Option.get (findReg (0x60004)) (by decide +kernel)).1).fields.head? (by decide +kernel)).lo),
      tablesOk_of (by decide +kernel), (Option.some_get (by decide +kernel)).symm,
      rfl, List.mem_of_head? (Option.some_get (by decide +kernel)).symm, rfl, rfl, rfl, by decide +kernel⟩,
   ⟨((Option.get (findReg (0x302800)) (by decide +kernel)).1), ((Option.get (findReg (0x302800)) (by decide +kernel)).2),
      (Option.get ((Option.get (findReg (0x302800)) (by decide +kernel)).1).fields.head? (by decide +kernel)),
      (bitsOf (0x00050000) (Option.get ((Option.get (findReg (0x302800)) (by decide +kernel)).1).fields.head? (by decide +kernel)).hi (Option.get ((Option.get (findReg (0x302800)) (by decide +kernel)).1).fields.head? (by decide +kernel)).lo),
      (bitsOf ((up.setReg 0x302800 0x0505007F#32 : State).reg (0x302800)).toNat (Option.get ((Option.get (findReg (0x302800)) (by decide +kernel)).1).fields.head? (by decide +kernel)).hi (Option.get ((Option.get (findReg (0x302800)) (by decide +kernel)).1).fields.head? (by decide +kernel)).lo),
      (bitsOf ((regWrite (up.setReg 0x302800 0x0505007F#32 : State) (0x302800) (0x00050000) : State).reg (0x302800)).toNat (Option.get ((Option.get (findReg (0x302800)) (by decide +kernel)).1).fields.head? (by decide +kernel)).hi (Option.get ((Option.get (findReg (0x302800)) (by decide +kernel)).1).fields.head? (by decide +kernel)).lo),
      tablesOk_of (by decide +kernel), (Option.some_get (by decide +kernel)).symm,
      rfl, List.mem_of_head? (Option.some_get (by decide +kernel)).symm, rfl, rfl, rfl, by decide +kernel⟩⟩

/-- States and operands that meet the hypotheses of `Obligations.MartenIssue`. -/
theorem witness_MartenIssue :
    (let s : State := up; let k : Ctx := 35; (¬MayIssue s k)) ∧
    (let s : State := (mS (mw 2 1 2 3 0 0 0)).wr CSP_STATUS.FC_RUN 0; let k : Ctx := 35; (¬MayIssue s k)) ∧
    (let s : State := mSc 1 { mc with pc := 8 }; let k : Ctx := 35; (MayIssue s k) ∧ (inCode s k = false)) ∧
    (let s : State := let a := mS (mw 2 1 2 3 0 0 0); { a with mrt := { a.mrt with imemPoison := [1] } }; let k : Ctx := 35;
      (MayIssue s k) ∧ (inCode s k = true) ∧ (s.mrt.imemPoison.contains ((s.ctx k).pc / 4) = true)) ∧
    (let s : State := mSc (2 ^ 116 * 3) { mc with pendP := [3] }; let k : Ctx := 35; (MayIssue s k) ∧ (inCode s k = true) ∧
      (s.mrt.imemPoison.contains ((s.ctx k).pc / 4) = false) ∧
      ((s.ctx k).pendP.contains (iPg (s.instr k (s.ctx k).pc)) = true)) ∧
    (let k : Ctx := 35; let w := mw 2 1 2 3 0 0 0 + 2 ^ 119; let s : State := mS w; (AtWord s k w) ∧
      (guardOn (s.ctx k) w = false) ∧ (iOp w = 2 ∨ opcodeDefined (iOp w) = false)) ∧
    (let k : Ctx := 35; let w := mw 0xFF 1 2 3 0 0 0 + 2 ^ 119; let s : State := mS w; (AtWord s k w) ∧
      (guardOn (s.ctx k) w = false) ∧ (iOp w = 2 ∨ opcodeDefined (iOp w) = false)) ∧
    (let k : Ctx := 35; let w := mw 0x12 1 2 3 0 0 0; let s : State := mS w; (AtWord s k w) ∧ (guardOn (s.ctx k) w = true) ∧
      (opcodeDefined (iOp w) = false ∨ opcodeAbsent s (iOp w) = true)) ∧
    (let k : Ctx := 35; let w := mw 0x70 0 2 3 0 0 0; let s : State := { mS w with build := { up.build with fox := false } };
      (AtWord s k w) ∧ (guardOn (s.ctx k) w = true) ∧ (opcodeDefined (iOp w) = false ∨ opcodeAbsent s (iOp w) = true)) ∧
    (let k : Ctx := 35; let w := mw 0x3 1 2 3 0 0 0; let s : State := mS w; (AtWord s k w) ∧ (opcodeDefined (iOp w) = true) ∧
      (opcodeAbsent s (iOp w) = false) ∧ (iOp w ≠ 2)) ∧
    (let k : Ctx := 35; let w := mw 0x2 1 2 3 1 0 0; let s : State := mS w; (AtWord s k w) ∧ (iOp w = 2) ∧
      (opcodeAbsent s 2 = false) ∧ (guardOn (s.ctx k) w = true) ∧ ((formOf 2).ok w = false)) ∧
    (let k : Ctx := 35; let w := mw 0x2 1 2 3 0 0 0; let s : State := mSc w { mc with pendG := [3] }; (AtWord s k w) ∧
      (iOp w = 2) ∧ (opcodeAbsent s 2 = false) ∧ (guardOn (s.ctx k) w = true) ∧ ((formOf 2).ok w = true) ∧
      ((formOf 2).stalls (s.ctx k) w = true)) :=
  ⟨by simp only [MayIssue]; decide +kernel,
   by simp only [MayIssue]; decide +kernel,
   ⟨by simp only [MayIssue]; decide +kernel, by decide +kernel⟩,
   ⟨by simp only [MayIssue]; decide +kernel, by decide +kernel⟩,
   ⟨by simp only [MayIssue]; decide +kernel, by decide +kernel⟩,
   ⟨by simp only [AtWord, MayIssue]; decide +kernel, by decide +kernel⟩,
   ⟨by simp only [AtWord, MayIssue]; decide +kernel, by decide +kernel⟩,
   ⟨by simp only [AtWord, MayIssue]; decide +kernel, by decide +kernel⟩,
   ⟨by simp only [AtWord, MayIssue]; decide +kernel, by decide +kernel⟩,
   ⟨by simp only [AtWord, MayIssue]; decide +kernel, by decide +kernel⟩,
   ⟨by simp only [AtWord, MayIssue]; decide +kernel, by decide +kernel⟩,
   ⟨by simp only [AtWord, MayIssue]; decide +kernel, by decide +kernel⟩⟩

/-- States and operands that meet the hypotheses of `Obligations.MartenIssue` (MartenFetch). -/
theorem witness_MartenFetch :
    (let s : State := let a := mS 7; { a with mrt := { a.mrt with cached := [(8193, [1, 2, 3, 4])] } }; let k : Ctx := 35;
      let i : Nat := (s.ctx k).pc; let key : Nat := 8192 * (k / 32) + i / 4; let l := [1, 2, 3, 4]; (i = (s.ctx k).pc) ∧
      (key = 8192 * (k / 32) + i / 4) ∧ (s.mrt.cached.find? key = some l)) ∧
    (let s : State := mS 7; let k : Ctx := 35; let i : Nat := (s.ctx k).pc; let key : Nat := 8192 * (k / 32) + i / 4;
      (i = (s.ctx k).pc) ∧ (key = 8192 * (k / 32) + i / 4) ∧ (s.mrt.cached.find? key = none)) ∧
    (let k : Ctx := 35;
      let s : State := let a := mS 7;
        { a with mrt := { a.mrt with cached := (List.range 64).map fun i => (8200 + i, [1, 2, 3, 4]) } };
      let i : Nat := (s.ctx k).pc; let key : Nat := 8192 * (k / 32) + i / 4; (i = (s.ctx k).pc) ∧
      (key = 8192 * (k / 32) + i / 4) ∧ (s.mrt.cached.find? key = none)) ∧
    (let k : Ctx := 35; let j := 1;
      let s : State := let a := mS 7;
        { a with mrt := { a.mrt with cached := (List.range 64).map fun i => (8200 + i, [1, 2, 3, 4]) } };
      let i : Nat := (s.ctx k).pc; let key : Nat := 8192 * (k / 32) + i / 4; (i = (s.ctx k).pc) ∧
      (key = 8192 * (k / 32) + i / 4) ∧ (i < 32768) ∧ ((s.mrt.cached.map (·.1)).Pairwise (· < ·)) ∧
      (((s.mrt.cached.map (·.1)).filter (· / 8192 = j)).length ≤ 64)) :=
  ⟨⟨rfl, rfl, by decide +kernel⟩,
   ⟨rfl, rfl, by decide +kernel⟩,
   ⟨rfl, rfl, by decide +kernel⟩,
   ⟨rfl, rfl, by decide +kernel⟩⟩

/-- States and operands that meet the hypotheses of `Obligations.MartenScalar`. -/
theorem witness_MartenScalar :
    (let k : Ctx := 35; let w := mw 2 1 2 3 0 0 0; let s : State := mS w; let u : State := s.fetch k; let c := s.ctx k;
      let a := c.gr (iA w); let b := (if (iFn w).testBit 0 then iImm w else c.gr (iB w)); (u = s.fetch k) ∧ (c = s.ctx k) ∧
      (a = c.gr (iA w)) ∧ (b = (if (iFn w).testBit 0 then iImm w else c.gr (iB w))) ∧ (Issues 2 s k w)) ∧
    (let k : Ctx := 35; let w := mw 3 1 1 3 0 1 99 - 3 * 2 ^ 101; let s : State := mS w; let u : State := s.fetch k;
      let c := s.ctx k; let a := c.gr (iA w); let b := (if (iFn w).testBit 0 then iImm w else c.gr (iB w)); (u = s.fetch k) ∧
      (c = s.ctx k) ∧ (a = c.gr (iA w)) ∧ (b = (if (iFn w).testBit 0 then iImm w else c.gr (iB w))) ∧ (Issues 3 s k w)) ∧
    (let k : Ctx := 35; let w := mw 4 1 2 3 0 0 0; let s : State := mS w; let u : State := s.fetch k; let c := s.ctx k;
      let a := c.gr (iA w); let b := (if (iFn w).testBit 0 then iImm w else c.gr (iB w)); (u = s.fetch k) ∧ (c = s.ctx k) ∧
      (a = c.gr (iA w)) ∧ (b = (if (iFn w).testBit 0 then iImm w else c.gr (iB w))) ∧ (Issues 4 s k w)) ∧
    (let k : Ctx := 35; let w := mw 5 1 2 3 0 0 0; let s : State := mS w; let u : State := s.fetch k; let c := s.ctx k;
      let a := c.gr (iA w); let b := (if (iFn w).testBit 0 then iImm w else c.gr (iB w)); (u = s.fetch k) ∧ (c = s.ctx k) ∧
      (a = c.gr (iA w)) ∧ (b = (if (iFn w).testBit 0 then iImm w else c.gr (iB w))) ∧ (Issues 5 s k w)) ∧
    (let k : Ctx := 35; let w := mw 6 1 2 3 0 0 0; let s : State := mS w; let u : State := s.fetch k; let c := s.ctx k;
      let a := c.gr (iA w); let b := (if (iFn w).testBit 0 then iImm w else c.gr (iB w)); (u = s.fetch k) ∧ (c = s.ctx k) ∧
      (a = c.gr (iA w)) ∧ (b = (if (iFn w).testBit 0 then iImm w else c.gr (iB w))) ∧ (Issues 6 s k w)) ∧
    (let k : Ctx := 35; let w := mw 7 1 2 3 0 0 0; let s : State := mS w; let u : State := s.fetch k; let c := s.ctx k;
      let a := c.gr (iA w); let b := (if (iFn w).testBit 0 then iImm w else c.gr (iB w)); (u = s.fetch k) ∧ (c = s.ctx k) ∧
      (a = c.gr (iA w)) ∧ (b = (if (iFn w).testBit 0 then iImm w else c.gr (iB w))) ∧ (Issues 7 s k w)) ∧
    (let k : Ctx := 35; let w := mw 8 1 2 3 0 0 0; let s : State := mS w; let u : State := s.fetch k; let c := s.ctx k;
      let a := c.gr (iA w); let b := (if (iFn w).testBit 0 then iImm w else c.gr (iB w)); (u = s.fetch k) ∧ (c = s.ctx k) ∧
      (a = c.gr (iA w)) ∧ (b = (if (iFn w).testBit 0 then iImm w else c.gr (iB w))) ∧ (Issues 8 s k w)) ∧
    (let k : Ctx := 35; let w := mw 9 1 2 3 0 0 0; let s : State := mS w; let u : State := s.fetch k; let c := s.ctx k;
      let a := c.gr (iA w); let b := (if (iFn w).testBit 0 then iImm w else c.gr (iB w)); (u = s.fetch k) ∧ (c = s.ctx k) ∧
      (a = c.gr (iA w)) ∧ (b = (if (iFn w).testBit 0 then iImm w else c.gr (iB w))) ∧ (Issues 9 s k w)) ∧
    (let k : Ctx := 35; let w := mw 0xA 1 2 3 0 0 0; let s : State := mS w; let u : State := s.fetch k; let c := s.ctx k;
      let a := c.gr (iA w); let b := (if (iFn w).testBit 0 then iImm w else c.gr (iB w)); (u = s.fetch k) ∧ (c = s.ctx k) ∧
      (a = c.gr (iA w)) ∧ (b = (if (iFn w).testBit 0 then iImm w else c.gr (iB w))) ∧ (Issues 0xA s k w)) ∧
    (let k : Ctx := 35; let w := mw 0xB 1 2 3 0 0 0; let s : State := mS w; let u : State := s.fetch k; let c := s.ctx k;
      let a := c.gr (iA w); let b := (if (iFn w).testBit 0 then iImm w else c.gr (iB w)); (u = s.fetch k) ∧ (c = s.ctx k) ∧
      (a = c.gr (iA w)) ∧ (b = (if (iFn w).testBit 0 then iImm w else c.gr (iB w))) ∧ (Issues 0xB s k w)) ∧
    (let k : Ctx := 35; let w := mw 0xC 1 2 3 0 0 0; let s : State := mS w; let u : State := s.fetch k; let c := s.ctx k;
      let a := c.gr (iA w); let b := (if (iFn w).testBit 0 then iImm w else c.gr (iB w)); (u = s.fetch k) ∧ (c = s.ctx k) ∧
      (a = c.gr (iA w)) ∧ (b = (if (iFn w).testBit 0 then iImm w else c.gr (iB w))) ∧ (Issues 0xC s k w)) ∧
    (let k : Ctx := 35; let w := mw 0xD 1 2 3 0 0 0; let s : State := mS w; let u : State := s.fetch k; let c := s.ctx k;
      let a := c.gr (iA w); let b := (if (iFn w).testBit 0 then iImm w else c.gr (iB w)); (u = s.fetch k) ∧ (c = s.ctx k) ∧
      (a = c.gr (iA w)) ∧ (b = (if (iFn w).testBit 0 then iImm w else c.gr (iB w))) ∧ (Issues 0xD s k w)) :=
  ⟨⟨rfl, rfl, rfl, rfl, by simp only [Issues, MayIssue, AtWord]; decide +kernel⟩,
   ⟨rfl, rfl, rfl, rfl, by simp only [Issues, MayIssue, AtWord]; decide +kernel⟩,
   ⟨rfl, rfl, rfl, rfl, by simp only [Issues, MayIssue, AtWord]; decide +kernel⟩,
   ⟨rfl, rfl, rfl, rfl, by simp only [Issues, MayIssue, AtWord]; decide +kernel⟩,
   ⟨rfl, rfl, rfl, rfl, by simp only [Issues, MayIssue, AtWord]; decide +kernel⟩,
   ⟨rfl, rfl, rfl, rfl, by simp only [Issues, MayIssue, AtWord]; decide +kernel⟩,
   ⟨rfl, rfl, rfl, rfl, by simp only [Issues, MayIssue, AtWord]; decide +kernel⟩,
   ⟨rfl, rfl, rfl, rfl, by simp only [Issues, MayIssue, AtWord]; decide +kernel⟩,
   ⟨rfl, rfl, rfl, rfl, by simp only [Issues, MayIssue, AtWord]; decide +kernel⟩,
   ⟨rfl, rfl, rfl, rfl, by simp only [Issues, MayIssue, AtWord]; decide +kernel⟩,
   ⟨rfl, rfl, rfl, rfl, by simp only [Issues, MayIssue, AtWord]; decide +kernel⟩,
   ⟨rfl, rfl, rfl, rfl, by simp only [Issues, MayIssue, AtWord]; decide +kernel⟩⟩

/-- States and operands that meet the hypotheses of `Obligations.MartenScalar`. -/
theorem witness_MartenScalar_2 :
    (let k : Ctx := 35; let w := mw 0xE 1 2 3 0 0 0; let s : State := mS w; let u : State := s.fetch k; let c := s.ctx k;
      let a := c.gr (iA w); let b := (if (iFn w).testBit 0 then iImm w else c.gr (iB w)); (u = s.fetch k) ∧ (c = s.ctx k) ∧
      (a = c.gr (iA w)) ∧ (b = (if (iFn w).testBit 0 then iImm w else c.gr (iB w))) ∧ (Issues 0xE s k w)) ∧
    (let k : Ctx := 35; let w := mw 0xF 1 2 3 0 0 0; let s : State := mS w; let u : State := s.fetch k; let c := s.ctx k;
      let a := c.gr (iA w); let b := (if (iFn w).testBit 0 then iImm w else c.gr (iB w)); (u = s.fetch k) ∧ (c = s.ctx k) ∧
      (a = c.gr (iA w)) ∧ (b = (if (iFn w).testBit 0 then iImm w else c.gr (iB w))) ∧ (Issues 0xF s k w)) ∧
    (let k : Ctx := 35; let w := mw 0x11 1 2 3 1 0 0; let s : State := mS w; let u : State := s.fetch k; let c := s.ctx k;
      let a := c.gr (iA w); let b := (if (iFn w).testBit 0 then iImm w else c.gr (iB w)); (u = s.fetch k) ∧ (c = s.ctx k) ∧
      (a = c.gr (iA w)) ∧ (b = (if (iFn w).testBit 0 then iImm w else c.gr (iB w))) ∧ (Issues 0x11 s k w)) ∧
    (let k : Ctx := 35; let w := mw 0x11 1 2 3 2 0 0; let s : State := mS w; let u : State := s.fetch k; let c := s.ctx k;
      let a := c.gr (iA w); let b := (if (iFn w).testBit 0 then iImm w else c.gr (iB w)); (u = s.fetch k) ∧ (c = s.ctx k) ∧
      (a = c.gr (iA w)) ∧ (b = (if (iFn w).testBit 0 then iImm w else c.gr (iB w))) ∧ (Issues 0x11 s k w)) ∧
    (let k : Ctx := 35; let w := mw 0x1 31 0 0 0 0 0xFFFFFFFFFFFFFFFF; let s : State := mS w; let u : State := s.fetch k;
      let c := s.ctx k; let a := c.gr (iA w); let b := (if (iFn w).testBit 0 then iImm w else c.gr (iB w)); (u = s.fetch k) ∧
      (c = s.ctx k) ∧ (a = c.gr (iA w)) ∧ (b = (if (iFn w).testBit 0 then iImm w else c.gr (iB w))) ∧ (Issues 0x1 s k w)) ∧
    (let k : Ctx := 35; let w := mw 0x10 31 2 0 0 0 0; let s : State := mS w; let u : State := s.fetch k; let c := s.ctx k;
      let a := c.gr (iA w); let b := (if (iFn w).testBit 0 then iImm w else c.gr (iB w)); let n := 0; (u = s.fetch k) ∧
      (c = s.ctx k) ∧ (a = c.gr (iA w)) ∧ (b = (if (iFn w).testBit 0 then iImm w else c.gr (iB w))) ∧ (Issues 0x10 s k w) ∧
      (n ≤ 64) ∧ (a < 2 ^ (64 - n)) ∧ (n = 64 ∨ 2 ^ (63 - n) ≤ a)) ∧
    (let k : Ctx := 35; let w := mw 0x10 31 0 0 0 0 0; let s : State := mS w; let u : State := s.fetch k; let c := s.ctx k;
      let a := c.gr (iA w); let b := (if (iFn w).testBit 0 then iImm w else c.gr (iB w)); let n := 64; (u = s.fetch k) ∧
      (c = s.ctx k) ∧ (a = c.gr (iA w)) ∧ (b = (if (iFn w).testBit 0 then iImm w else c.gr (iB w))) ∧ (Issues 0x10 s k w) ∧
      (n ≤ 64) ∧ (a < 2 ^ (64 - n)) ∧ (n = 64 ∨ 2 ^ (63 - n) ≤ a)) ∧
    (let k : Ctx := 35; let w := mw 0x10 0 1 0 0 0 0; let s : State := mS w; let u : State := s.fetch k; let c := s.ctx k;
      let a := c.gr (iA w); let b := (if (iFn w).testBit 0 then iImm w else c.gr (iB w)); let n := 61; (u = s.fetch k) ∧
      (c = s.ctx k) ∧ (a = c.gr (iA w)) ∧ (b = (if (iFn w).testBit 0 then iImm w else c.gr (iB w))) ∧ (Issues 0x10 s k w) ∧
      (n ≤ 64) ∧ (a < 2 ^ (64 - n)) ∧ (n = 64 ∨ 2 ^ (63 - n) ≤ a)) ∧
    (let k : Ctx := 35; let w := mw 0x18 7 1 2 0 0xC 0; let s : State := mS w; let u : State := s.fetch k; let c := s.ctx k;
      let a := c.gr (iA w); let b := (if (iFn w).testBit 0 then iImm w else c.gr (iB w)); let cc := iFn w / 2 % 8;
      (u = s.fetch k) ∧ (c = s.ctx k) ∧ (a = c.gr (iA w)) ∧ (b = (if (iFn w).testBit 0 then iImm w else c.gr (iB w))) ∧
      (Issues 0x18 s k w) ∧ (cc = iFn w / 2 % 8) ∧ (6 ≤ cc)) ∧
    (let k : Ctx := 35; let w := mw 0x18 7 1 2 0 0x0 0; let s : State := mS w; let u : State := s.fetch k; let c := s.ctx k;
      let a := c.gr (iA w); let b := (if (iFn w).testBit 0 then iImm w else c.gr (iB w)); let cc := iFn w / 2 % 8;
      let r := (0, decide (a = b)); (u = s.fetch k) ∧ (c = s.ctx k) ∧ (a = c.gr (iA w)) ∧
      (b = (if (iFn w).testBit 0 then iImm w else c.gr (iB w))) ∧ (Issues 0x18 s k w) ∧ (cc = iFn w / 2 % 8) ∧
      (r ∈ [(0, decide (a = b)), (1, decide (a ≠ b)), (2, decide (a < b)), (3, decide (b ≤ a)), (4, decide (sint64 a < sint64 b)), (5, decide (sint64 b ≤ sint64 a))]) ∧
      (cc = r.1)) ∧
    (let k : Ctx := 35; let w := mw 0x18 7 1 2 0 0x2 0; let s : State := mS w; let u : State := s.fetch k; let c := s.ctx k;
      let a := c.gr (iA w); let b := (if (iFn w).testBit 0 then iImm w else c.gr (iB w)); let cc := iFn w / 2 % 8;
      let r := (1, decide (a ≠ b)); (u = s.fetch k) ∧ (c = s.ctx k) ∧ (a = c.gr (iA w)) ∧
      (b = (if (iFn w).testBit 0 then iImm w else c.gr (iB w))) ∧ (Issues 0x18 s k w) ∧ (cc = iFn w / 2 % 8) ∧
      (r ∈ [(0, decide (a = b)), (1, decide (a ≠ b)), (2, decide (a < b)), (3, decide (b ≤ a)), (4, decide (sint64 a < sint64 b)), (5, decide (sint64 b ≤ sint64 a))]) ∧
      (cc = r.1)) ∧
    (let k : Ctx := 35; let w := mw 0x18 7 1 2 0 0x4 0; let s : State := mS w; let u : State := s.fetch k; let c := s.ctx k;
      let a := c.gr (iA w); let b := (if (iFn w).testBit 0 then iImm w else c.gr (iB w)); let cc := iFn w / 2 % 8;
      let r := (2, decide (a < b)); (u = s.fetch k) ∧ (c = s.ctx k) ∧ (a = c.gr (iA w)) ∧
      (b = (if (iFn w).testBit 0 then iImm w else c.gr (iB w))) ∧ (Issues 0x18 s k w) ∧ (cc = iFn w / 2 % 8) ∧
      (r ∈ [(0, decide (a = b)), (1, decide (a ≠ b)), (2, decide (a < b)), (3, decide (b ≤ a)), (4, decide (sint64 a < sint64 b)), (5, decide (sint64 b ≤ sint64 a))]) ∧
      (cc = r.1)) :=
  ⟨⟨rfl, rfl, rfl, rfl, by simp only [Issues, MayIssue, AtWord]; decide +kernel⟩,
   ⟨rfl, rfl, rfl, rfl, by simp only [Issues, MayIssue, AtWord]; decide +kernel⟩,
   ⟨rfl, rfl, rfl, rfl, by simp only [Issues, MayIssue, AtWord]; decide +kernel⟩,
   ⟨rfl, rfl, rfl, rfl, by simp only [Issues, MayIssue, AtWord]; decide +kernel⟩,
   ⟨rfl, rfl, rfl, rfl, by simp only [Issues, MayIssue, AtWord]; decide +kernel⟩,
   ⟨rfl, rfl, rfl, rfl, by simp only [Issues, MayIssue, AtWord]; decide +kernel, by decide +kernel⟩,
   ⟨rfl, rfl, rfl, rfl, by simp only [Issues, MayIssue, AtWord]; decide +kernel, by decide +kernel⟩,
   ⟨rfl, rfl, rfl, rfl, by simp only [Issues, MayIssue, AtWord]; decide +kernel, by decide +kernel⟩,
   ⟨rfl, rfl, rfl, rfl, by simp only [Issues, MayIssue, AtWord]; decide +kernel, rfl, by decide +kernel⟩,
   ⟨rfl, rfl, rfl, rfl, by simp only [Issues, MayIssue, AtWord]; decide +kernel, rfl, by decide +kernel⟩,
   ⟨rfl, rfl, rfl, rfl, by simp only [Issues, MayIssue, AtWord]; decide +kernel, rfl, by decide +kernel⟩,
   ⟨rfl, rfl, rfl, rfl, by simp only [Issues, MayIssue, AtWord]; decide +kernel, rfl, by decide +kernel⟩⟩

/-- States and operands that meet the hypotheses of `Obligations.MartenScalar`. -/
theorem witness_MartenScalar_3 :
    (let k : Ctx := 35; let w := mw 0x18 7 1 0 0 0x7 7; let s : State := mS w; let u : State := s.fetch k; let c := s.ctx k;
      let a := c.gr (iA w); let b := (if (iFn w).testBit 0 then iImm w else c.gr (iB w)); let cc := iFn w / 2 % 8;
      let r := (3, decide (b ≤ a)); (u = s.fetch k) ∧ (c = s.ctx k) ∧ (a = c.gr (iA w)) ∧
      (b = (if (iFn w).testBit 0 then iImm w else c.gr (iB w))) ∧ (Issues 0x18 s k w) ∧ (cc = iFn w / 2 % 8) ∧
      (r ∈ [(0, decide (a = b)), (1, decide (a ≠ b)), (2, decide (a < b)), (3, decide (b ≤ a)), (4, decide (sint64 a < sint64 b)), (5, decide (sint64 b ≤ sint64 a))]) ∧
      (cc = r.1)) ∧
    (let k : Ctx := 35; let w := mw 0x18 7 1 2 0 0x8 0; let s : State := mS w; let u : State := s.fetch k; let c := s.ctx k;
      let a := c.gr (iA w); let b := (if (iFn w).testBit 0 then iImm w else c.gr (iB w)); let cc := iFn w / 2 % 8;
      let r := (4, decide (sint64 a < sint64 b)); (u = s.fetch k) ∧ (c = s.ctx k) ∧ (a = c.gr (iA w)) ∧
      (b = (if (iFn w).testBit 0 then iImm w else c.gr (iB w))) ∧ (Issues 0x18 s k w) ∧ (cc = iFn w / 2 % 8) ∧
      (r ∈ [(0, decide (a = b)), (1, decide (a ≠ b)), (2, decide (a < b)), (3, decide (b ≤ a)), (4, decide (sint64 a < sint64 b)), (5, decide (sint64 b ≤ sint64 a))]) ∧
      (cc = r.1)) ∧
    (let k : Ctx := 35; let w := mw 0x18 0 1 2 0 0xA 0; let s : State := mS w; let u : State := s.fetch k; let c := s.ctx k;
      let a := c.gr (iA w); let b := (if (iFn w).testBit 0 then iImm w else c.gr (iB w)); let cc := iFn w / 2 % 8;
      let r := (5, decide (sint64 b ≤ sint64 a)); (u = s.fetch k) ∧ (c = s.ctx k) ∧ (a = c.gr (iA w)) ∧
      (b = (if (iFn w).testBit 0 then iImm w else c.gr (iB w))) ∧ (Issues 0x18 s k w) ∧ (cc = iFn w / 2 % 8) ∧
      (r ∈ [(0, decide (a = b)), (1, decide (a ≠ b)), (2, decide (a < b)), (3, decide (b ≤ a)), (4, decide (sint64 a < sint64 b)), (5, decide (sint64 b ≤ sint64 a))]) ∧
      (cc = r.1)) ∧
    (let k : Ctx := 35; let w := mw 0x19 7 1 2 0 0x0 0; let s : State := mS w; let u : State := s.fetch k; let c := s.ctx k;
      let a := c.gr (iA w); let b := (if (iFn w).testBit 0 then iImm w else c.gr (iB w)); let p := c.pr (iA w);
      let q := c.pr (iB w); let r := (0, p && q); (u = s.fetch k) ∧ (c = s.ctx k) ∧ (a = c.gr (iA w)) ∧
      (b = (if (iFn w).testBit 0 then iImm w else c.gr (iB w))) ∧ (Issues 0x19 s k w) ∧ (p = c.pr (iA w)) ∧ (q = c.pr (iB w)) ∧
      (r ∈ [(0, p && q), (1, p || q), (2, p ^^ q), (3, p && !q)]) ∧ (iFn w / 2 % 4 = r.1)) ∧
    (let k : Ctx := 35; let w := mw 0x19 7 1 2 0 0x2 0; let s : State := mS w; let u : State := s.fetch k; let c := s.ctx k;
      let a := c.gr (iA w); let b := (if (iFn w).testBit 0 then iImm w else c.gr (iB w)); let p := c.pr (iA w);
      let q := c.pr (iB w); let r := (1, p || q); (u = s.fetch k) ∧ (c = s.ctx k) ∧ (a = c.gr (iA w)) ∧
      (b = (if (iFn w).testBit 0 then iImm w else c.gr (iB w))) ∧ (Issues 0x19 s k w) ∧ (p = c.pr (iA w)) ∧ (q = c.pr (iB w)) ∧
      (r ∈ [(0, p && q), (1, p || q), (2, p ^^ q), (3, p && !q)]) ∧ (iFn w / 2 % 4 = r.1)) ∧
    (let k : Ctx := 35; let w := mw 0x19 7 1 0 0 0x4 0; let s : State := mS w; let u : State := s.fetch k; let c := s.ctx k;
      let a := c.gr (iA w); let b := (if (iFn w).testBit 0 then iImm w else c.gr (iB w)); let p := c.pr (iA w);
      let q := c.pr (iB w); let r := (2, p ^^ q); (u = s.fetch k) ∧ (c = s.ctx k) ∧ (a = c.gr (iA w)) ∧
      (b = (if (iFn w).testBit 0 then iImm w else c.gr (iB w))) ∧ (Issues 0x19 s k w) ∧ (p = c.pr (iA w)) ∧ (q = c.pr (iB w)) ∧
      (r ∈ [(0, p && q), (1, p || q), (2, p ^^ q), (3, p && !q)]) ∧ (iFn w / 2 % 4 = r.1)) ∧
    (let k : Ctx := 35; let w := mw 0x19 1 1 0 0 0x6 0; let s : State := mS w; let u : State := s.fetch k; let c := s.ctx k;
      let a := c.gr (iA w); let b := (if (iFn w).testBit 0 then iImm w else c.gr (iB w)); let p := c.pr (iA w);
      let q := c.pr (iB w); let r := (3, p && !q); (u = s.fetch k) ∧ (c = s.ctx k) ∧ (a = c.gr (iA w)) ∧
      (b = (if (iFn w).testBit 0 then iImm w else c.gr (iB w))) ∧ (Issues 0x19 s k w) ∧ (p = c.pr (iA w)) ∧ (q = c.pr (iB w)) ∧
      (r ∈ [(0, p && q), (1, p || q), (2, p ^^ q), (3, p && !q)]) ∧ (iFn w / 2 % 4 = r.1)) :=
  ⟨⟨rfl, rfl, rfl, rfl, by simp only [Issues, MayIssue, AtWord]; decide +kernel, rfl, by decide +kernel⟩,
   ⟨rfl, rfl, rfl, rfl, by simp only [Issues, MayIssue, AtWord]; decide +kernel, rfl, by decide +kernel⟩,
   ⟨rfl, rfl, rfl, rfl, by simp only [Issues, MayIssue, AtWord]; decide +kernel, rfl, by decide +kernel⟩,
   ⟨rfl, rfl, rfl, rfl, by simp only [Issues, MayIssue, AtWord]; decide +kernel, rfl, rfl, by decide +kernel⟩,
   ⟨rfl, rfl, rfl, rfl, by simp only [Issues, MayIssue, AtWord]; decide +kernel, rfl, rfl, by decide +kernel⟩,
   ⟨rfl, rfl, rfl, rfl, by simp only [Issues, MayIssue, AtWord]; decide +kernel, rfl, rfl, by decide +kernel⟩,
   ⟨rfl, rfl, rfl, rfl, by simp only [Issues, MayIssue, AtWord]; decide +kernel, rfl, rfl, by decide +kernel⟩⟩

/-- States and operands that meet the hypotheses of `Obligations.MartenScalar` (MartenControl). -/
theorem witness_MartenControl :
    (let k : Ctx := 35; let w := 0; let s : State := mS w; let u : State := s.fetch k; let c := s.ctx k; (u = s.fetch k) ∧
      (c = s.ctx k) ∧ (Issues 0x00 s k w)) ∧
    (let k : Ctx := 35; let w := mw 0x20 0 0 0 0 0 0x7FFF; let s : State := mS w; let u : State := s.fetch k; let c := s.ctx k;
      (u = s.fetch k) ∧ (c = s.ctx k) ∧ (Issues 0x20 s k w)) ∧
    (let k : Ctx := 35; let w := mw 0x21 1 0 0 0 0 0x7FFF; let s : State := mS w; let u : State := s.fetch k; let c := s.ctx k;
      (u = s.fetch k) ∧ (c = s.ctx k) ∧ (Issues 0x21 s k w)) ∧
    (let k : Ctx := 35; let w := mw 0x22 0 2 0 0 0 0; let s : State := mS w; let u : State := s.fetch k; let c := s.ctx k;
      (u = s.fetch k) ∧ (c = s.ctx k) ∧ (Issues 0x22 s k w)) ∧
    (let k : Ctx := 35; let w := mw 0x23 0 0 0 0 0 0; let s : State := mS w; let u : State := s.fetch k; let c := s.ctx k;
      (u = s.fetch k) ∧ (c = s.ctx k) ∧ (Issues 0x23 s k w)) ∧
    (let k : Ctx := 35; let w := mw 0x24 0 0 0 0 0 0xFFFF; let s : State := mS w; let u : State := s.fetch k; let c := s.ctx k;
      (u = s.fetch k) ∧ (c = s.ctx k) ∧ (Issues 0x24 s k w)) ∧
    (let k : Ctx := 35; let w := mw 0x28 1 0 0 0 0 8; let s : State := mS w; let u : State := s.fetch k; let c := s.ctx k;
      (u = s.fetch k) ∧ (c = s.ctx k) ∧ (Issues 0x28 s k w) ∧ (7 < iImm w)) ∧
    (let k : Ctx := 35; let w := mw 0x28 1 0 0 0 0 0; let s : State := mS w; let u : State := s.fetch k; let c := s.ctx k;
      let r := (0, k.val); (u = s.fetch k) ∧ (c = s.ctx k) ∧ (Issues 0x28 s k w) ∧
      (r ∈ [(0, k.val), (1, k.val / 32), (2, s.rd NODE_ID.NODE), (3, s.nowNs), (4, s.rd (MRT_CTX_CFG1.PKEY k)), (5, c.fifo.length), (6, c.astat), (7, c.queued)]) ∧
      (iImm w = r.1)) ∧
    (let k : Ctx := 35; let w := mw 0x28 1 0 0 0 0 1; let s : State := mS w; let u : State := s.fetch k; let c := s.ctx k;
      let r := (1, k.val / 32); (u = s.fetch k) ∧ (c = s.ctx k) ∧ (Issues 0x28 s k w) ∧
      (r ∈ [(0, k.val), (1, k.val / 32), (2, s.rd NODE_ID.NODE), (3, s.nowNs), (4, s.rd (MRT_CTX_CFG1.PKEY k)), (5, c.fifo.length), (6, c.astat), (7, c.queued)]) ∧
      (iImm w = r.1)) ∧
    (let k : Ctx := 35; let w := mw 0x28 1 0 0 0 0 2; let s : State := mS w; let u : State := s.fetch k; let c := s.ctx k;
      let r := (2, s.rd NODE_ID.NODE); (u = s.fetch k) ∧ (c = s.ctx k) ∧ (Issues 0x28 s k w) ∧
      (r ∈ [(0, k.val), (1, k.val / 32), (2, s.rd NODE_ID.NODE), (3, s.nowNs), (4, s.rd (MRT_CTX_CFG1.PKEY k)), (5, c.fifo.length), (6, c.astat), (7, c.queued)]) ∧
      (iImm w = r.1)) ∧
    (let k : Ctx := 35; let w := mw 0x28 1 0 0 0 0 3; let s : State := mS w; let u : State := s.fetch k; let c := s.ctx k;
      let r := (3, s.nowNs); (u = s.fetch k) ∧ (c = s.ctx k) ∧ (Issues 0x28 s k w) ∧
      (r ∈ [(0, k.val), (1, k.val / 32), (2, s.rd NODE_ID.NODE), (3, s.nowNs), (4, s.rd (MRT_CTX_CFG1.PKEY k)), (5, c.fifo.length), (6, c.astat), (7, c.queued)]) ∧
      (iImm w = r.1)) ∧
    (let k : Ctx := 35; let w := mw 0x28 1 0 0 0 0 4; let s : State := mS w; let u : State := s.fetch k; let c := s.ctx k;
      let r := (4, s.rd (MRT_CTX_CFG1.PKEY k)); (u = s.fetch k) ∧ (c = s.ctx k) ∧ (Issues 0x28 s k w) ∧
      (r ∈ [(0, k.val), (1, k.val / 32), (2, s.rd NODE_ID.NODE), (3, s.nowNs), (4, s.rd (MRT_CTX_CFG1.PKEY k)), (5, c.fifo.length), (6, c.astat), (7, c.queued)]) ∧
      (iImm w = r.1)) :=
  ⟨⟨rfl, rfl, by simp only [Issues, MayIssue, AtWord]; decide +kernel⟩,
   ⟨rfl, rfl, by simp only [Issues, MayIssue, AtWord]; decide +kernel⟩,
   ⟨rfl, rfl, by simp only [Issues, MayIssue, AtWord]; decide +kernel⟩,
   ⟨rfl, rfl, by simp only [Issues, MayIssue, AtWord]; decide +kernel⟩,
   ⟨rfl, rfl, by simp only [Issues, MayIssue, AtWord]; decide +kernel⟩,
   ⟨rfl, rfl, by simp only [Issues, MayIssue, AtWord]; decide +kernel⟩,
   ⟨rfl, rfl, by simp only [Issues, MayIssue, AtWord]; decide +kernel, by decide +kernel⟩,
   ⟨rfl, rfl, by simp only [Issues, MayIssue, AtWord]; decide +kernel, by decide +kernel⟩,
   ⟨rfl, rfl, by simp only [Issues, MayIssue, AtWord]; decide +kernel, by decide +kernel⟩,
   ⟨rfl, rfl, by simp only [Issues, MayIssue, AtWord]; decide +kernel, by decide +kernel⟩,
   ⟨rfl, rfl, by simp only [Issues, MayIssue, AtWord]; decide +kernel, by decide +kernel⟩,
   ⟨rfl, rfl, by simp only [Issues, MayIssue, AtWord]; decide +kernel, by decide +kernel⟩⟩

/-- States and operands that meet the hypotheses of `Obligations.MartenScalar` (MartenControl). -/
theorem witness_MartenControl_2 :
    (let k : Ctx := 35; let w := mw 0x28 1 0 0 0 0 5; let s : State := mSc w { mc with fifo := [1, 2] };
      let u : State := s.fetch k; let c := s.ctx k; let r := (5, c.fifo.length); (u = s.fetch k) ∧ (c = s.ctx k) ∧
      (Issues 0x28 s k w) ∧
      (r ∈ [(0, k.val), (1, k.val / 32), (2, s.rd NODE_ID.NODE), (3, s.nowNs), (4, s.rd (MRT_CTX_CFG1.PKEY k)), (5, c.fifo.length), (6, c.astat), (7, c.queued)]) ∧
      (iImm w = r.1)) ∧
    (let k : Ctx := 35; let w := mw 0x28 1 0 0 0 0 6; let s : State := mSc w { mc with astat := 9 };
      let u : State := s.fetch k; let c := s.ctx k; let r := (6, c.astat); (u = s.fetch k) ∧ (c = s.ctx k) ∧
      (Issues 0x28 s k w) ∧
      (r ∈ [(0, k.val), (1, k.val / 32), (2, s.rd NODE_ID.NODE), (3, s.nowNs), (4, s.rd (MRT_CTX_CFG1.PKEY k)), (5, c.fifo.length), (6, c.astat), (7, c.queued)]) ∧
      (iImm w = r.1)) ∧
    (let k : Ctx := 35; let w := mw 0x28 1 0 0 0 0 7;
      let s : State := mSc w { mc with beq := [{ opcode := 0x44 }, { opcode := 0x30, left := true }] };
      let u : State := s.fetch k; let c := s.ctx k; let r := (7, c.queued); (u = s.fetch k) ∧ (c = s.ctx k) ∧
      (Issues 0x28 s k w) ∧
      (r ∈ [(0, k.val), (1, k.val / 32), (2, s.rd NODE_ID.NODE), (3, s.nowNs), (4, s.rd (MRT_CTX_CFG1.PKEY k)), (5, c.fifo.length), (6, c.astat), (7, c.queued)]) ∧
      (iImm w = r.1)) :=
  ⟨⟨rfl, rfl, by simp only [Issues, MayIssue, AtWord]; decide +kernel, by decide +kernel⟩,
   ⟨rfl, rfl, by simp only [Issues, MayIssue, AtWord]; decide +kernel, by decide +kernel⟩,
   ⟨rfl, rfl, by simp only [Issues, MayIssue, AtWord]; decide +kernel, by decide +kernel⟩⟩

/-- States and operands that meet the hypotheses of `Obligations.MartenSync`. -/
theorem witness_MartenSync :
    (let k : Ctx := 35; let w := mw 0x50 4 1 2 0 0 100; let s : State := (mS w).wr (SYN_PAGE.PKEY 0) 5;
      let u : State := s.fetch k; let c := s.ctx k; let o := (c.gr (iA w) + iImm w % 65536) % 65536; let b := c.gr (iB w);
      (u = s.fetch k) ∧ (c = s.ctx k) ∧ (o = (c.gr (iA w) + iImm w % 65536) % 65536) ∧ (b = c.gr (iB w)) ∧ (TablesOk s) ∧
      (Issues 0x50 s k w) ∧ (synMayUse s k o = false)) ∧
    (let k : Ctx := 35; let w := mw 0x52 4 1 0 0 0 100; let s : State := (mS w).wr (SYN_PAGE.PKEY 0) 5;
      let u : State := s.fetch k; let c := s.ctx k; let o := (c.gr (iA w) + iImm w % 65536) % 65536; let b := c.gr (iB w);
      (u = s.fetch k) ∧ (c = s.ctx k) ∧ (o = (c.gr (iA w) + iImm w % 65536) % 65536) ∧ (b = c.gr (iB w)) ∧ (TablesOk s) ∧
      (Issues 0x52 s k w) ∧ (synMayUse s k o = false)) ∧
    (let k : Ctx := 35; let w := mw 0x51 4 1 2 0 0 100; let s : State := mS w; let u : State := s.fetch k; let c := s.ctx k;
      let o := (c.gr (iA w) + iImm w % 65536) % 65536; let b := c.gr (iB w); (u = s.fetch k) ∧ (c = s.ctx k) ∧
      (o = (c.gr (iA w) + iImm w % 65536) % 65536) ∧ (b = c.gr (iB w)) ∧ (TablesOk s) ∧ (Issues 0x51 s k w) ∧
      (synMayUse s k o = true)) ∧
    (let k : Ctx := 35; let w := mw 0x50 4 1 2 0 0 100;
      let s : State := let a := mS w; { a with syn := { a.syn with objs := [(107, 5)] } }; let u : State := s.fetch k;
      let c := s.ctx k; let o := (c.gr (iA w) + iImm w % 65536) % 65536; let b := c.gr (iB w); (u = s.fetch k) ∧
      (c = s.ctx k) ∧ (o = (c.gr (iA w) + iImm w % 65536) % 65536) ∧ (b = c.gr (iB w)) ∧ (TablesOk s) ∧ (Issues 0x50 s k w) ∧
      (synMayUse s k o = true)) ∧
    (let k : Ctx := 35; let w := mw 0x50 4 1 2 0 0 100;
      let s : State := let a := mS w; { a with syn := { a.syn with poison := [107] } }; let u : State := s.fetch k;
      let c := s.ctx k; let o := (c.gr (iA w) + iImm w % 65536) % 65536; let b := c.gr (iB w); (u = s.fetch k) ∧
      (c = s.ctx k) ∧ (o = (c.gr (iA w) + iImm w % 65536) % 65536) ∧ (b = c.gr (iB w)) ∧ (TablesOk s) ∧ (Issues 0x50 s k w) ∧
      (synMayUse s k o = true)) ∧
    (let k : Ctx := 35; let w := mw 0x50 4 1 2 0 0 100;
      let s : State := let a := mS w; { a with syn := { a.syn with objs := [(107, 5)] } }; let u : State := s.fetch k;
      let c := s.ctx k; let o := (c.gr (iA w) + iImm w % 65536) % 65536; let b := c.gr (iB w); (u = s.fetch k) ∧
      (c = s.ctx k) ∧ (o = (c.gr (iA w) + iImm w % 65536) % 65536) ∧ (b = c.gr (iB w)) ∧ (TablesOk s) ∧ (Issues 0x50 s k w) ∧
      (synMayUse s k o = true)) ∧
    (let k : Ctx := 35; let w := mw 0x50 4 1 2 0 0 100;
      let s : State := let a := mS w; { a with syn := { a.syn with poison := [107] } }; let u : State := s.fetch k;
      let c := s.ctx k; let o := (c.gr (iA w) + iImm w % 65536) % 65536; let b := c.gr (iB w); (u = s.fetch k) ∧
      (c = s.ctx k) ∧ (o = (c.gr (iA w) + iImm w % 65536) % 65536) ∧ (b = c.gr (iB w)) ∧ (TablesOk s) ∧ (Issues 0x50 s k w) ∧
      (synMayUse s k o = true)) ∧
    (let k : Ctx := 35; let w := mw 0x51 4 1 2 0 0 100;
      let s : State := let a := mS w; { a with syn := { a.syn with poison := [107] } }; let u : State := s.fetch k;
      let c := s.ctx k; let o := (c.gr (iA w) + iImm w % 65536) % 65536; let b := c.gr (iB w); (u = s.fetch k) ∧
      (c = s.ctx k) ∧ (o = (c.gr (iA w) + iImm w % 65536) % 65536) ∧ (b = c.gr (iB w)) ∧ (TablesOk s) ∧ (Issues 0x51 s k w) ∧
      (synMayUse s k o = true)) ∧
    (let k : Ctx := 35; let w := mw 0x52 4 1 0 0 0 100;
      let s : State := let a := mS w; { a with syn := { a.syn with objs := [(107, 5)] } }; let u : State := s.fetch k;
      let c := s.ctx k; let o := (c.gr (iA w) + iImm w % 65536) % 65536; let b := c.gr (iB w); (u = s.fetch k) ∧
      (c = s.ctx k) ∧ (o = (c.gr (iA w) + iImm w % 65536) % 65536) ∧ (b = c.gr (iB w)) ∧ (TablesOk s) ∧ (Issues 0x52 s k w) ∧
      (synMayUse s k o = true) ∧ (s.objPoisoned o = false)) ∧
    (let k : Ctx := 35; let w := mw 0x53 4 1 2 0 3 100; let s : State := mS w; let u : State := s.fetch k; let c := s.ctx k;
      let o := (c.gr (iA w) + iImm w % 65536) % 65536; let v := c.gr (iB w);
      let h := (if iFn w = 0 then decide (v ≤ s.obj o) else if iFn w = 1 then decide (s.obj o = v) else decide (s.obj o ≠ v));
      (u = s.fetch k) ∧ (c = s.ctx k) ∧ (o = (c.gr (iA w) + iImm w % 65536) % 65536) ∧ (v = c.gr (iB w)) ∧
      (Issues 0x53 s k w) ∧
      (h = (if iFn w = 0 then decide (v ≤ s.obj o) else if iFn w = 1 then decide (s.obj o = v) else decide (s.obj o ≠ v))) ∧
      (iFn w = 3 ∨ synMayUse s k o = false)) ∧
    (let k : Ctx := 35; let w := mw 0x53 4 1 2 0 0 100; let s : State := (mS w).wr (SYN_PAGE.PKEY 0) 5;
      let u : State := s.fetch k; let c := s.ctx k; let o := (c.gr (iA w) + iImm w % 65536) % 65536; let v := c.gr (iB w);
      let h := (if iFn w = 0 then decide (v ≤ s.obj o) else if iFn w = 1 then decide (s.obj o = v) else decide (s.obj o ≠ v));
      (u = s.fetch k) ∧ (c = s.ctx k) ∧ (o = (c.gr (iA w) + iImm w % 65536) % 65536) ∧ (v = c.gr (iB w)) ∧
      (Issues 0x53 s k w) ∧
      (h = (if iFn w = 0 then decide (v ≤ s.obj o) else if iFn w = 1 then decide (s.obj o = v) else decide (s.obj o ≠ v))) ∧
      (iFn w = 3 ∨ synMayUse s k o = false)) ∧
    (let k : Ctx := 35; let w := mw 0x53 4 1 2 0 0 100;
      let s : State := let a := mS w; { a with syn := { a.syn with poison := [107] } }; let u : State := s.fetch k;
      let c := s.ctx k; let o := (c.gr (iA w) + iImm w % 65536) % 65536; let v := c.gr (iB w);
      let h := (if iFn w = 0 then decide (v ≤ s.obj o) else if iFn w = 1 then decide (s.obj o = v) else decide (s.obj o ≠ v));
      (u = s.fetch k) ∧ (c = s.ctx k) ∧ (o = (c.gr (iA w) + iImm w % 65536) % 65536) ∧ (v = c.gr (iB w)) ∧
      (Issues 0x53 s k w) ∧
      (h = (if iFn w = 0 then decide (v ≤ s.obj o) else if iFn w = 1 then decide (s.obj o = v) else decide (s.obj o ≠ v))) ∧
      (iFn w < 3) ∧ (synMayUse s k o = true) ∧ (s.objPoisoned o = true)) :=
  ⟨⟨rfl, rfl, rfl, rfl, tablesOk_of (by decide +kernel), by simp only [Issues, MayIssue, AtWord]; decide +kernel,
      by decide +kernel⟩,
   ⟨rfl, rfl, rfl, rfl, tablesOk_of (by decide +kernel), by simp only [Issues, MayIssue, AtWord]; decide +kernel,
      by decide +kernel⟩,
   ⟨rfl, rfl, rfl, rfl, tablesOk_of (by decide +kernel), by simp only [Issues, MayIssue, AtWord]; decide +kernel,
      by decide +kernel⟩,
   ⟨rfl, rfl, rfl, rfl, tablesOk_of (by decide +kernel), by simp only [Issues, MayIssue, AtWord]; decide +kernel,
      by decide +kernel⟩,
   ⟨rfl, rfl, rfl, rfl, tablesOk_of (by decide +kernel), by simp only [Issues, MayIssue, AtWord]; decide +kernel,
      by decide +kernel⟩,
   ⟨rfl, rfl, rfl, rfl, tablesOk_of (by decide +kernel), by simp only [Issues, MayIssue, AtWord]; decide +kernel,
      by decide +kernel⟩,
   ⟨rfl, rfl, rfl, rfl, tablesOk_of (by decide +kernel), by simp only [Issues, MayIssue, AtWord]; decide +kernel,
      by decide +kernel⟩,
   ⟨rfl, rfl, rfl, rfl, tablesOk_of (by decide +kernel), by simp only [Issues, MayIssue, AtWord]; decide +kernel,
      by decide +kernel⟩,
   ⟨rfl, rfl, rfl, rfl, tablesOk_of (by decide +kernel), by simp only [Issues, MayIssue, AtWord]; decide +kernel,
      by decide +kernel⟩,
   ⟨rfl, rfl, rfl, rfl, by simp only [Issues, MayIssue, AtWord]; decide +kernel, rfl, by decide +kernel⟩,
   ⟨rfl, rfl, rfl, rfl, by simp only [Issues, MayIssue, AtWord]; decide +kernel, rfl, by decide +kernel⟩,
   ⟨rfl, rfl, rfl, rfl, by simp only [Issues, MayIssue, AtWord]; decide +kernel, rfl, by decide +kernel⟩⟩

/-- States and operands that meet the hypotheses of `Obligations.MartenSync`. -/
theorem witness_MartenSync_2 :
    (let k : Ctx := 35; let w := mw 0x53 4 1 3 0 0 100;
      let s : State := let a := mS w; { a with syn := { a.syn with objs := [(107, 3)] } }; let u : State := s.fetch k;
      let c := s.ctx k; let o := (c.gr (iA w) + iImm w % 65536) % 65536; let v := c.gr (iB w);
      let h := (if iFn w = 0 then decide (v ≤ s.obj o) else if iFn w = 1 then decide (s.obj o = v) else decide (s.obj o ≠ v));
      (u = s.fetch k) ∧ (c = s.ctx k) ∧ (o = (c.gr (iA w) + iImm w % 65536) % 65536) ∧ (v = c.gr (iB w)) ∧
      (Issues 0x53 s k w) ∧
      (h = (if iFn w = 0 then decide (v ≤ s.obj o) else if iFn w = 1 then decide (s.obj o = v) else decide (s.obj o ≠ v))) ∧
      (iFn w < 3) ∧ (synMayUse s k o = true) ∧ (s.objPoisoned o = false) ∧ (h = true)) ∧
    (let k : Ctx := 35; let w := mw 0x53 4 1 3 0 2 100;
      let s : State := let a := mS w; { a with syn := { a.syn with objs := [(107, 4)] } }; let u : State := s.fetch k;
      let c := s.ctx k; let o := (c.gr (iA w) + iImm w % 65536) % 65536; let v := c.gr (iB w);
      let h := (if iFn w = 0 then decide (v ≤ s.obj o) else if iFn w = 1 then decide (s.obj o = v) else decide (s.obj o ≠ v));
      (u = s.fetch k) ∧ (c = s.ctx k) ∧ (o = (c.gr (iA w) + iImm w % 65536) % 65536) ∧ (v = c.gr (iB w)) ∧
      (Issues 0x53 s k w) ∧
      (h = (if iFn w = 0 then decide (v ≤ s.obj o) else if iFn w = 1 then decide (s.obj o = v) else decide (s.obj o ≠ v))) ∧
      (iFn w < 3) ∧ (synMayUse s k o = true) ∧ (s.objPoisoned o = false) ∧ (h = true)) ∧
    (let k : Ctx := 35; let w := mw 0x53 4 1 3 1 1 100;
      let s : State := let a := mS w; { a with syn := { a.syn with objs := [(107, 4)] } }; let u : State := s.fetch k;
      let c := s.ctx k; let o := (c.gr (iA w) + iImm w % 65536) % 65536; let v := c.gr (iB w);
      let h := (if iFn w = 0 then decide (v ≤ s.obj o) else if iFn w = 1 then decide (s.obj o = v) else decide (s.obj o ≠ v));
      (u = s.fetch k) ∧ (c = s.ctx k) ∧ (o = (c.gr (iA w) + iImm w % 65536) % 65536) ∧ (v = c.gr (iB w)) ∧
      (Issues 0x53 s k w) ∧
      (h = (if iFn w = 0 then decide (v ≤ s.obj o) else if iFn w = 1 then decide (s.obj o = v) else decide (s.obj o ≠ v))) ∧
      (iFn w < 3) ∧ (synMayUse s k o = true) ∧ (s.objPoisoned o = false) ∧ (h = false)) ∧
    (let k : Ctx := 35; let w := mw 0x53 4 1 3 0 0 100; let s : State := mS w; let u : State := s.fetch k; let c := s.ctx k;
      let o := (c.gr (iA w) + iImm w % 65536) % 65536; let v := c.gr (iB w);
      let h := (if iFn w = 0 then decide (v ≤ s.obj o) else if iFn w = 1 then decide (s.obj o = v) else decide (s.obj o ≠ v));
      (u = s.fetch k) ∧ (c = s.ctx k) ∧ (o = (c.gr (iA w) + iImm w % 65536) % 65536) ∧ (v = c.gr (iB w)) ∧
      (Issues 0x53 s k w) ∧
      (h = (if iFn w = 0 then decide (v ≤ s.obj o) else if iFn w = 1 then decide (s.obj o = v) else decide (s.obj o ≠ v))) ∧
      (iFn w < 3) ∧ (synMayUse s k o = true) ∧ (s.objPoisoned o = false) ∧ (h = false)) ∧
    (let k : Ctx := 35; let w := mw 0x54 4 0 0 0 0 0; let s : State := mS w; let c := s.ctx k; (c = s.ctx k) ∧
      (Issues 0x54 s k w) ∧ (TablesOk s) ∧ (c.fifo = [])) ∧
    (let k : Ctx := 35; let w := mw 0x54 4 0 0 0 0 0; let s : State := mSc w { mc with fifo := [9, 8] }; let c := s.ctx k;
      let tok := 9; let rest := [8]; (c = s.ctx k) ∧ (Issues 0x54 s k w) ∧ (TablesOk s) ∧ (c.fifo = tok :: rest)) ∧
    (let k : Ctx := 35; let w := mw 0x44 4 0 0 0 0 0;
      let s : State := mSc w { mc with beq := (List.range 16).map fun i => { id := i, opcode := 0x31 } }; let c := s.ctx k;
      (c = s.ctx k) ∧ (Issues 0x44 s k w) ∧ (16 ≤ c.queued)) ∧
    (let k : Ctx := 35; let w := mw 0x44 4 0 0 0 0 0;
      let s : State := mSc w { mc with beq := (List.range 15).map fun i => { id := i, opcode := 0x31 } }; let c := s.ctx k;
      (c = s.ctx k) ∧ (Issues 0x44 s k w) ∧ (c.queued < 16)) ∧
    (let s : State := mSc 1 { mc with state := .fencing, beq := [{ id := 1, opcode := 0x31 }, { id := 2, opcode := 0x44 }] };
      let k : Ctx := 35; let c := s.ctx k; (c = s.ctx k) ∧ (TablesOk s) ∧
      (c.state ≠ .fencing ∨ (∃ e ∈ c.beq, e.desc = none ∧ e.isFence = false))) ∧
    (let s : State := mSc 1 mc; let k : Ctx := 35; let c := s.ctx k; (c = s.ctx k) ∧ (TablesOk s) ∧
      (c.state ≠ .fencing ∨ (∃ e ∈ c.beq, e.desc = none ∧ e.isFence = false))) ∧
    (let s : State :=
        (mSc 1 { mc with state := .fencing, waitDst := 4, recCount := 3, recStatus := 5, lateCount := 2, beq := [{ id := 2, opcode := 0x44 }] }).wr (XPT_LATE.COUNT 35) 2;
      let k : Ctx := 35; let c := s.ctx k; (c = s.ctx k) ∧ (TablesOk s) ∧ (c.state = .fencing) ∧
      ((∀ e ∈ c.beq, e.desc ≠ none ∨ e.isFence = true))) ∧
    (let s : State := mSc 1 { mc with state := .fencing, waitDst := 4, recCount := 3, recStatus := 5, beq := [{ id := 1, opcode := 0x40, desc := some (5, 1) }, { id := 2, opcode := 0x44 }] };
      let k : Ctx := 35; let c := s.ctx k; (c = s.ctx k) ∧ (TablesOk s) ∧ (c.state = .fencing) ∧
      ((∀ e ∈ c.beq, e.desc ≠ none ∨ e.isFence = true))) :=
  ⟨⟨rfl, rfl, rfl, rfl, by simp only [Issues, MayIssue, AtWord]; decide +kernel, rfl, by decide +kernel⟩,
   ⟨rfl, rfl, rfl, rfl, by simp only [Issues, MayIssue, AtWord]; decide +kernel, rfl, by decide +kernel⟩,
   ⟨rfl, rfl, rfl, rfl, by simp only [Issues, MayIssue, AtWord]; decide +kernel, rfl, by decide +kernel⟩,
   ⟨rfl, rfl, rfl, rfl, by simp only [Issues, MayIssue, AtWord]; decide +kernel, rfl, by decide +kernel⟩,
   ⟨rfl, by simp only [Issues, MayIssue, AtWord]; decide +kernel, tablesOk_of (by decide +kernel), by decide +kernel⟩,
   ⟨rfl, by simp only [Issues, MayIssue, AtWord]; decide +kernel, tablesOk_of (by decide +kernel), by decide +kernel⟩,
   ⟨rfl, by simp only [Issues, MayIssue, AtWord]; decide +kernel, by decide +kernel⟩,
   ⟨rfl, by simp only [Issues, MayIssue, AtWord]; decide +kernel, by decide +kernel⟩,
   ⟨rfl, tablesOk_of (by decide +kernel), by decide +kernel⟩,
   ⟨rfl, tablesOk_of (by decide +kernel), by decide +kernel⟩,
   ⟨rfl, tablesOk_of (by decide +kernel), by decide +kernel⟩,
   ⟨rfl, tablesOk_of (by decide +kernel), by decide +kernel⟩⟩

/-- States and operands that meet the hypotheses of `Obligations.MartenSync`. -/
theorem witness_MartenSync_3 :
    (let s : State := mSc 1 { mc with state := .waitSync, waitDst := 4, waitEnd := some 5 }; let k : Ctx := 35;
      let c := s.ctx k; (c = s.ctx k) ∧ (c.state = .waitSync) ∧ (s.due c.waitEnd = true)) ∧
    (let s : State := mSc 1 { mc with state := .waitSync, waitDst := 4 }; let k : Ctx := 35; let c := s.ctx k; (c = s.ctx k) ∧
      (c.state ≠ .waitSync ∨ s.due c.waitEnd = false)) :=
  ⟨⟨rfl, by decide +kernel⟩,
   ⟨rfl, by decide +kernel⟩⟩

/-- States and operands that meet the hypotheses of `Obligations.MartenBackEndIssue`. -/
theorem witness_MartenBackEndIssue :
    (let k : Ctx := 35; let w := mw 0x30 4 1 0 0 6 8;
      let s : State := mSc w { mc with beq := (List.range 16).map fun i => { id := i, opcode := 0x31 } };
      let u : State := s.fetch k; let c := s.ctx k;
      let e :=
        ({ id := c.nextId, pc := c.pc, opcode := iOp w, va := c.gr (iA w), vb := c.gr (iB w), vc := c.gr (iC w), vc1 := c.gr ((iC w + 1) % 32), fn := iFn w, imm := iImm w } : BeEntry);
      (u = s.fetch k) ∧ (c = s.ctx k) ∧
      (e =
        ({ id := c.nextId, pc := c.pc, opcode := iOp w, va := c.gr (iA w), vb := c.gr (iB w), vc := c.gr (iC w), vc1 := c.gr ((iC w + 1) % 32), fn := iFn w, imm := iImm w } : BeEntry)) ∧
      (16 ≤ c.queued) ∧ (Issues 0x30 s k w)) ∧
    (let k : Ctx := 35; let w := mw 0x31 0 1 0 2 6 8; let s : State := mS w; let u : State := s.fetch k; let c := s.ctx k;
      let e :=
        ({ id := c.nextId, pc := c.pc, opcode := iOp w, va := c.gr (iA w), vb := c.gr (iB w), vc := c.gr (iC w), vc1 := c.gr ((iC w + 1) % 32), fn := iFn w, imm := iImm w } : BeEntry);
      (u = s.fetch k) ∧ (c = s.ctx k) ∧
      (e =
        ({ id := c.nextId, pc := c.pc, opcode := iOp w, va := c.gr (iA w), vb := c.gr (iB w), vc := c.gr (iC w), vc1 := c.gr ((iC w + 1) % 32), fn := iFn w, imm := iImm w } : BeEntry)) ∧
      (c.queued < 16) ∧ (Issues 0x31 s k w)) ∧
    (let k : Ctx := 35; let w := mw 0x39 0 0 1 2 6 (2^32*7); let s : State := mS w; let u : State := s.fetch k;
      let c := s.ctx k;
      let e :=
        ({ id := c.nextId, pc := c.pc, opcode := iOp w, va := c.gr (iA w), vb := c.gr (iB w), vc := c.gr (iC w), vc1 := c.gr ((iC w + 1) % 32), fn := iFn w, imm := iImm w } : BeEntry);
      (u = s.fetch k) ∧ (c = s.ctx k) ∧
      (e =
        ({ id := c.nextId, pc := c.pc, opcode := iOp w, va := c.gr (iA w), vb := c.gr (iB w), vc := c.gr (iC w), vc1 := c.gr ((iC w + 1) % 32), fn := iFn w, imm := iImm w } : BeEntry)) ∧
      (c.queued < 16) ∧ (Issues 0x39 s k w)) ∧
    (let k : Ctx := 35; let w := mw 0x30 4 1 0 0 6 8; let s : State := mS w; let u : State := s.fetch k; let c := s.ctx k;
      let e :=
        ({ id := c.nextId, pc := c.pc, opcode := iOp w, va := c.gr (iA w), vb := c.gr (iB w), vc := c.gr (iC w), vc1 := c.gr ((iC w + 1) % 32), fn := iFn w, imm := iImm w } : BeEntry);
      (u = s.fetch k) ∧ (c = s.ctx k) ∧
      (e =
        ({ id := c.nextId, pc := c.pc, opcode := iOp w, va := c.gr (iA w), vb := c.gr (iB w), vc := c.gr (iC w), vc1 := c.gr ((iC w + 1) % 32), fn := iFn w, imm := iImm w } : BeEntry)) ∧
      (c.queued < 16) ∧ (Issues 0x30 s k w)) ∧
    (let k : Ctx := 35; let w := mw 0x38 0 0 1 0 6 (2^32*7); let s : State := mS w; let u : State := s.fetch k;
      let c := s.ctx k;
      let e :=
        ({ id := c.nextId, pc := c.pc, opcode := iOp w, va := c.gr (iA w), vb := c.gr (iB w), vc := c.gr (iC w), vc1 := c.gr ((iC w + 1) % 32), fn := iFn w, imm := iImm w } : BeEntry);
      (u = s.fetch k) ∧ (c = s.ctx k) ∧
      (e =
        ({ id := c.nextId, pc := c.pc, opcode := iOp w, va := c.gr (iA w), vb := c.gr (iB w), vc := c.gr (iC w), vc1 := c.gr ((iC w + 1) % 32), fn := iFn w, imm := iImm w } : BeEntry)) ∧
      (c.queued < 16) ∧ (Issues 0x38 s k w)) ∧
    (let k : Ctx := 35; let w := mw 0x3A 0 1 2 3 9 (2^51); let s : State := (mS w).wr (SYN_PAGE.PKEY 0) 5;
      let u : State := s.fetch k; let c := s.ctx k;
      let e :=
        ({ id := c.nextId, pc := c.pc, opcode := iOp w, va := c.gr (iA w), vb := c.gr (iB w), vc := c.gr (iC w), vc1 := c.gr ((iC w + 1) % 32), fn := iFn w, imm := iImm w } : BeEntry);
      let cnt := bitOf (iImm w) 51; (u = s.fetch k) ∧ (c = s.ctx k) ∧
      (e =
        ({ id := c.nextId, pc := c.pc, opcode := iOp w, va := c.gr (iA w), vb := c.gr (iB w), vc := c.gr (iC w), vc1 := c.gr ((iC w + 1) % 32), fn := iFn w, imm := iImm w } : BeEntry)) ∧
      (Issues 0x3A s k w) ∧ (cnt = bitOf (iImm w) 51) ∧ (c.queued < 16) ∧ ((0x3A = 0x70 ∨ 0x3A = 0x71 → iImm w % 16 ≠ 0)) ∧
      ((0x3A = 0x72 → iImm w % 4096 < 256)) ∧ ((if cnt then synMayUse s k (iFn w) else decide (iFn w = 0)) = false)) ∧
    (let k : Ctx := 35; let w := mw 0x3B 0 1 2 3 9 0; let s : State := mS w; let u : State := s.fetch k; let c := s.ctx k;
      let e :=
        ({ id := c.nextId, pc := c.pc, opcode := iOp w, va := c.gr (iA w), vb := c.gr (iB w), vc := c.gr (iC w), vc1 := c.gr ((iC w + 1) % 32), fn := iFn w, imm := iImm w } : BeEntry);
      let cnt := bitOf (iImm w) 51; (u = s.fetch k) ∧ (c = s.ctx k) ∧
      (e =
        ({ id := c.nextId, pc := c.pc, opcode := iOp w, va := c.gr (iA w), vb := c.gr (iB w), vc := c.gr (iC w), vc1 := c.gr ((iC w + 1) % 32), fn := iFn w, imm := iImm w } : BeEntry)) ∧
      (Issues 0x3B s k w) ∧ (cnt = bitOf (iImm w) 51) ∧ (c.queued < 16) ∧ ((0x3B = 0x70 ∨ 0x3B = 0x71 → iImm w % 16 ≠ 0)) ∧
      ((0x3B = 0x72 → iImm w % 4096 < 256)) ∧ ((if cnt then synMayUse s k (iFn w) else decide (iFn w = 0)) = false)) ∧
    (let k : Ctx := 35; let w := mw 0x72 0 1 2 3 9 255; let s : State := mS w; let u : State := s.fetch k; let c := s.ctx k;
      let e :=
        ({ id := c.nextId, pc := c.pc, opcode := iOp w, va := c.gr (iA w), vb := c.gr (iB w), vc := c.gr (iC w), vc1 := c.gr ((iC w + 1) % 32), fn := iFn w, imm := iImm w } : BeEntry);
      let cnt := bitOf (iImm w) 12; (u = s.fetch k) ∧ (c = s.ctx k) ∧
      (e =
        ({ id := c.nextId, pc := c.pc, opcode := iOp w, va := c.gr (iA w), vb := c.gr (iB w), vc := c.gr (iC w), vc1 := c.gr ((iC w + 1) % 32), fn := iFn w, imm := iImm w } : BeEntry)) ∧
      (Issues 0x72 s k w) ∧ (cnt = bitOf (iImm w) 12) ∧ (c.queued < 16) ∧ ((0x72 = 0x70 ∨ 0x72 = 0x71 → iImm w % 16 ≠ 0)) ∧
      ((0x72 = 0x72 → iImm w % 4096 < 256)) ∧ ((if cnt then synMayUse s k (iFn w) else decide (iFn w = 0)) = false)) ∧
    (let k : Ctx := 35; let w := mw 0x3A 0 1 2 3 9 (2^51); let s : State := mS w; let u : State := s.fetch k; let c := s.ctx k;
      let e :=
        ({ id := c.nextId, pc := c.pc, opcode := iOp w, va := c.gr (iA w), vb := c.gr (iB w), vc := c.gr (iC w), vc1 := c.gr ((iC w + 1) % 32), fn := iFn w, imm := iImm w } : BeEntry);
      let cnt := bitOf (iImm w) 51; (u = s.fetch k) ∧ (c = s.ctx k) ∧
      (e =
        ({ id := c.nextId, pc := c.pc, opcode := iOp w, va := c.gr (iA w), vb := c.gr (iB w), vc := c.gr (iC w), vc1 := c.gr ((iC w + 1) % 32), fn := iFn w, imm := iImm w } : BeEntry)) ∧
      (Issues 0x3A s k w) ∧ (cnt = bitOf (iImm w) 51) ∧ (c.queued < 16) ∧ ((0x3A = 0x70 ∨ 0x3A = 0x71 → iImm w % 16 ≠ 0)) ∧
      ((0x3A = 0x72 → iImm w % 4096 < 256)) ∧ ((if cnt then synMayUse s k (iFn w) else decide (iFn w = 0)) = true)) ∧
    (let k : Ctx := 35; let w := mw 0x70 0 1 2 0 0 1; let s : State := mS w; let u : State := s.fetch k; let c := s.ctx k;
      let e :=
        ({ id := c.nextId, pc := c.pc, opcode := iOp w, va := c.gr (iA w), vb := c.gr (iB w), vc := c.gr (iC w), vc1 := c.gr ((iC w + 1) % 32), fn := iFn w, imm := iImm w } : BeEntry);
      let cnt := bitOf (iImm w) 51; (u = s.fetch k) ∧ (c = s.ctx k) ∧
      (e =
        ({ id := c.nextId, pc := c.pc, opcode := iOp w, va := c.gr (iA w), vb := c.gr (iB w), vc := c.gr (iC w), vc1 := c.gr ((iC w + 1) % 32), fn := iFn w, imm := iImm w } : BeEntry)) ∧
      (Issues 0x70 s k w) ∧ (cnt = bitOf (iImm w) 51) ∧ (c.queued < 16) ∧ ((0x70 = 0x70 ∨ 0x70 = 0x71 → iImm w % 16 ≠ 0)) ∧
      ((0x70 = 0x72 → iImm w % 4096 < 256)) ∧ ((if cnt then synMayUse s k (iFn w) else decide (iFn w = 0)) = true)) ∧
    (let k : Ctx := 35; let w := mw 0x71 0 0 0 0 9 (2^51 + 15); let s : State := mS w; let u : State := s.fetch k;
      let c := s.ctx k;
      let e :=
        ({ id := c.nextId, pc := c.pc, opcode := iOp w, va := c.gr (iA w), vb := c.gr (iB w), vc := c.gr (iC w), vc1 := c.gr ((iC w + 1) % 32), fn := iFn w, imm := iImm w } : BeEntry);
      let cnt := bitOf (iImm w) 51; (u = s.fetch k) ∧ (c = s.ctx k) ∧
      (e =
        ({ id := c.nextId, pc := c.pc, opcode := iOp w, va := c.gr (iA w), vb := c.gr (iB w), vc := c.gr (iC w), vc1 := c.gr ((iC w + 1) % 32), fn := iFn w, imm := iImm w } : BeEntry)) ∧
      (Issues 0x71 s k w) ∧ (cnt = bitOf (iImm w) 51) ∧ (c.queued < 16) ∧ ((0x71 = 0x70 ∨ 0x71 = 0x71 → iImm w % 16 ≠ 0)) ∧
      ((0x71 = 0x72 → iImm w % 4096 < 256)) ∧ ((if cnt then synMayUse s k (iFn w) else decide (iFn w = 0)) = true)) ∧
    (let k : Ctx := 35; let w := mw 0x72 0 1 2 3 0 255; let s : State := mS w; let u : State := s.fetch k; let c := s.ctx k;
      let e :=
        ({ id := c.nextId, pc := c.pc, opcode := iOp w, va := c.gr (iA w), vb := c.gr (iB w), vc := c.gr (iC w), vc1 := c.gr ((iC w + 1) % 32), fn := iFn w, imm := iImm w } : BeEntry);
      let cnt := bitOf (iImm w) 12; (u = s.fetch k) ∧ (c = s.ctx k) ∧
      (e =
        ({ id := c.nextId, pc := c.pc, opcode := iOp w, va := c.gr (iA w), vb := c.gr (iB w), vc := c.gr (iC w), vc1 := c.gr ((iC w + 1) % 32), fn := iFn w, imm := iImm w } : BeEntry)) ∧
      (Issues 0x72 s k w) ∧ (cnt = bitOf (iImm w) 12) ∧ (c.queued < 16) ∧ ((0x72 = 0x70 ∨ 0x72 = 0x71 → iImm w % 16 ≠ 0)) ∧
      ((0x72 = 0x72 → iImm w % 4096 < 256)) ∧ ((if cnt then synMayUse s k (iFn w) else decide (iFn w = 0)) = true)) :=
  ⟨⟨rfl, rfl, rfl, by decide +kernel, by simp only [Issues, MayIssue, AtWord]; decide +kernel⟩,
   ⟨rfl, rfl, rfl, by decide +kernel, by simp only [Issues, MayIssue, AtWord]; decide +kernel⟩,
   ⟨rfl, rfl, rfl, by decide +kernel, by simp only [Issues, MayIssue, AtWord]; decide +kernel⟩,
   ⟨rfl, rfl, rfl, by decide +kernel, by simp only [Issues, MayIssue, AtWord]; decide +kernel⟩,
   ⟨rfl, rfl, rfl, by decide +kernel, by simp only [Issues, MayIssue, AtWord]; decide +kernel⟩,
   ⟨rfl, rfl, rfl, by simp only [Issues, MayIssue, AtWord]; decide +kernel, rfl, by decide +kernel⟩,
   ⟨rfl, rfl, rfl, by simp only [Issues, MayIssue, AtWord]; decide +kernel, rfl, by decide +kernel⟩,
   ⟨rfl, rfl, rfl, by simp only [Issues, MayIssue, AtWord]; decide +kernel, rfl, by decide +kernel⟩,
   ⟨rfl, rfl, rfl, by simp only [Issues, MayIssue, AtWord]; decide +kernel, rfl, by decide +kernel⟩,
   ⟨rfl, rfl, rfl, by simp only [Issues, MayIssue, AtWord]; decide +kernel, rfl, by decide +kernel⟩,
   ⟨rfl, rfl, rfl, by simp only [Issues, MayIssue, AtWord]; decide +kernel, rfl, by decide +kernel⟩,
   ⟨rfl, rfl, rfl, by simp only [Issues, MayIssue, AtWord]; decide +kernel, rfl, by decide +kernel⟩⟩

/-- States and operands that meet the hypotheses of `Obligations.MartenBackEndIssue`. -/
theorem witness_MartenBackEndIssue_2 :
    (let k : Ctx := 35; let w := mw 0x70 0 1 2 0 0 16; let s : State := mS w; let u : State := s.fetch k; let c := s.ctx k;
      let e :=
        ({ id := c.nextId, pc := c.pc, opcode := iOp w, va := c.gr (iA w), vb := c.gr (iB w), vc := c.gr (iC w), vc1 := c.gr ((iC w + 1) % 32), fn := iFn w, imm := iImm w } : BeEntry);
      (u = s.fetch k) ∧ (c = s.ctx k) ∧
      (e =
        ({ id := c.nextId, pc := c.pc, opcode := iOp w, va := c.gr (iA w), vb := c.gr (iB w), vc := c.gr (iC w), vc1 := c.gr ((iC w + 1) % 32), fn := iFn w, imm := iImm w } : BeEntry)) ∧
      (Issues 0x70 s k w) ∧ (c.queued < 16) ∧ (iImm w % 16 = 0)) ∧
    (let k : Ctx := 35; let w := mw 0x71 0 0 0 0 0 0; let s : State := mS w; let u : State := s.fetch k; let c := s.ctx k;
      let e :=
        ({ id := c.nextId, pc := c.pc, opcode := iOp w, va := c.gr (iA w), vb := c.gr (iB w), vc := c.gr (iC w), vc1 := c.gr ((iC w + 1) % 32), fn := iFn w, imm := iImm w } : BeEntry);
      (u = s.fetch k) ∧ (c = s.ctx k) ∧
      (e =
        ({ id := c.nextId, pc := c.pc, opcode := iOp w, va := c.gr (iA w), vb := c.gr (iB w), vc := c.gr (iC w), vc1 := c.gr ((iC w + 1) % 32), fn := iFn w, imm := iImm w } : BeEntry)) ∧
      (Issues 0x71 s k w) ∧ (c.queued < 16) ∧ (iImm w % 16 = 0)) ∧
    (let k : Ctx := 35; let w := mw 0x72 0 1 2 3 0 256; let s : State := mS w; let u : State := s.fetch k; let c := s.ctx k;
      let e :=
        ({ id := c.nextId, pc := c.pc, opcode := iOp w, va := c.gr (iA w), vb := c.gr (iB w), vc := c.gr (iC w), vc1 := c.gr ((iC w + 1) % 32), fn := iFn w, imm := iImm w } : BeEntry);
      (u = s.fetch k) ∧ (c = s.ctx k) ∧
      (e =
        ({ id := c.nextId, pc := c.pc, opcode := iOp w, va := c.gr (iA w), vb := c.gr (iB w), vc := c.gr (iC w), vc1 := c.gr ((iC w + 1) % 32), fn := iFn w, imm := iImm w } : BeEntry)) ∧
      (Issues 0x72 s k w) ∧ (c.queued < 16) ∧ (256 ≤ iImm w % 4096)) ∧
    (let k : Ctx := 35; let w := mw 0x40 0 1 2 3 1 8; let s : State := mS w; let u : State := s.fetch k; let c := s.ctx k;
      let e :=
        ({ id := c.nextId, pc := c.pc, opcode := iOp w, va := c.gr (iA w), vb := c.gr (iB w), vc := c.gr (iC w), vc1 := c.gr ((iC w + 1) % 32), fn := iFn w, imm := iImm w } : BeEntry);
      let cnt := bitOf (iImm w) 51; (u = s.fetch k) ∧ (c = s.ctx k) ∧
      (e =
        ({ id := c.nextId, pc := c.pc, opcode := iOp w, va := c.gr (iA w), vb := c.gr (iB w), vc := c.gr (iC w), vc1 := c.gr ((iC w + 1) % 32), fn := iFn w, imm := iImm w } : BeEntry)) ∧
      (Issues 0x40 s k w) ∧ (cnt = bitOf (iImm w) 51) ∧ (c.queued < 16) ∧
      ((if cnt then synMayUse s k (iFn w) else decide (iFn w = 0)) = false)) ∧
    (let k : Ctx := 35; let w := mw 0x43 0 1 0 3 9 (2^51); let s : State := (mS w).wr (SYN_PAGE.PKEY 0) 5;
      let u : State := s.fetch k; let c := s.ctx k;
      let e :=
        ({ id := c.nextId, pc := c.pc, opcode := iOp w, va := c.gr (iA w), vb := c.gr (iB w), vc := c.gr (iC w), vc1 := c.gr ((iC w + 1) % 32), fn := iFn w, imm := iImm w } : BeEntry);
      let cnt := bitOf (iImm w) 51; (u = s.fetch k) ∧ (c = s.ctx k) ∧
      (e =
        ({ id := c.nextId, pc := c.pc, opcode := iOp w, va := c.gr (iA w), vb := c.gr (iB w), vc := c.gr (iC w), vc1 := c.gr ((iC w + 1) % 32), fn := iFn w, imm := iImm w } : BeEntry)) ∧
      (Issues 0x43 s k w) ∧ (cnt = bitOf (iImm w) 51) ∧ (c.queued < 16) ∧
      ((if cnt then synMayUse s k (iFn w) else decide (iFn w = 0)) = false)) ∧
    (let k : Ctx := 35; let w := mw 0x41 0 1 2 3 9 (2^51+2^52+8); let s : State := mS w; let u : State := s.fetch k;
      let c := s.ctx k;
      let e :=
        ({ id := c.nextId, pc := c.pc, opcode := iOp w, va := c.gr (iA w), vb := c.gr (iB w), vc := c.gr (iC w), vc1 := c.gr ((iC w + 1) % 32), fn := iFn w, imm := iImm w } : BeEntry);
      let cnt := bitOf (iImm w) 51; (u = s.fetch k) ∧ (c = s.ctx k) ∧
      (e =
        ({ id := c.nextId, pc := c.pc, opcode := iOp w, va := c.gr (iA w), vb := c.gr (iB w), vc := c.gr (iC w), vc1 := c.gr ((iC w + 1) % 32), fn := iFn w, imm := iImm w } : BeEntry)) ∧
      (Issues 0x41 s k w) ∧ (cnt = bitOf (iImm w) 51) ∧ (c.queued < 16) ∧
      ((if cnt then synMayUse s k (iFn w) else decide (iFn w = 0)) = true)) ∧
    (let k : Ctx := 35; let w := mw 0x43 0 1 0 3 0 0; let s : State := mS w; let u : State := s.fetch k; let c := s.ctx k;
      let e :=
        ({ id := c.nextId, pc := c.pc, opcode := iOp w, va := c.gr (iA w), vb := c.gr (iB w), vc := c.gr (iC w), vc1 := c.gr ((iC w + 1) % 32), fn := iFn w, imm := iImm w } : BeEntry);
      let cnt := bitOf (iImm w) 51; (u = s.fetch k) ∧ (c = s.ctx k) ∧
      (e =
        ({ id := c.nextId, pc := c.pc, opcode := iOp w, va := c.gr (iA w), vb := c.gr (iB w), vc := c.gr (iC w), vc1 := c.gr ((iC w + 1) % 32), fn := iFn w, imm := iImm w } : BeEntry)) ∧
      (Issues 0x43 s k w) ∧ (cnt = bitOf (iImm w) 51) ∧ (c.queued < 16) ∧
      ((if cnt then synMayUse s k (iFn w) else decide (iFn w = 0)) = true)) ∧
    (let k : Ctx := 35; let w := mw 0x42 4 1 2 31 0 (5 + 32); let s : State := mS w; let u : State := s.fetch k;
      let c := s.ctx k; let cnt := bitOf (iImm w) 51; let pd := iImm w / 256 % 8; let fn := iImm w % 32;
      let e :=
        ({ id := c.nextId, pc := c.pc, opcode := iOp w, va := c.gr (iA w), vb := c.gr (iB w), vc := c.gr (iC w), vc1 := c.gr ((iC w + 1) % 32), fn := iFn w, imm := iImm w } : BeEntry);
      (u = s.fetch k) ∧ (c = s.ctx k) ∧
      (e =
        ({ id := c.nextId, pc := c.pc, opcode := iOp w, va := c.gr (iA w), vb := c.gr (iB w), vc := c.gr (iC w), vc1 := c.gr ((iC w + 1) % 32), fn := iFn w, imm := iImm w } : BeEntry)) ∧
      (Issues 0x42 s k w) ∧ (cnt = bitOf (iImm w) 51) ∧ (pd = iImm w / 256 % 8) ∧ (fn = iImm w % 32) ∧ (c.queued < 16) ∧
      ((iC w = 31 ∧ fn = 5) ∨ atomicOk fn (bitOf (iImm w) 5) = false ∨ (if cnt then synMayUse s k (iFn w) else decide (iFn w =
        0)) = false)) ∧
    (let k : Ctx := 35; let w := mw 0x42 4 1 2 3 0 11; let s : State := mS w; let u : State := s.fetch k; let c := s.ctx k;
      let cnt := bitOf (iImm w) 51; let pd := iImm w / 256 % 8; let fn := iImm w % 32;
      let e :=
        ({ id := c.nextId, pc := c.pc, opcode := iOp w, va := c.gr (iA w), vb := c.gr (iB w), vc := c.gr (iC w), vc1 := c.gr ((iC w + 1) % 32), fn := iFn w, imm := iImm w } : BeEntry);
      (u = s.fetch k) ∧ (c = s.ctx k) ∧
      (e =
        ({ id := c.nextId, pc := c.pc, opcode := iOp w, va := c.gr (iA w), vb := c.gr (iB w), vc := c.gr (iC w), vc1 := c.gr ((iC w + 1) % 32), fn := iFn w, imm := iImm w } : BeEntry)) ∧
      (Issues 0x42 s k w) ∧ (cnt = bitOf (iImm w) 51) ∧ (pd = iImm w / 256 % 8) ∧ (fn = iImm w % 32) ∧ (c.queued < 16) ∧
      ((iC w = 31 ∧ fn = 5) ∨ atomicOk fn (bitOf (iImm w) 5) = false ∨ (if cnt then synMayUse s k (iFn w) else decide (iFn w =
        0)) = false)) ∧
    (let k : Ctx := 35; let w := mw 0x42 6 1 2 3 0 (5 + 32 + 256 * 6); let s : State := mSc w { mc with pendG := [4] };
      let u : State := s.fetch k; let c := s.ctx k; let cnt := bitOf (iImm w) 51; let pd := iImm w / 256 % 8;
      let fn := iImm w % 32;
      let e :=
        ({ id := c.nextId, pc := c.pc, opcode := iOp w, va := c.gr (iA w), vb := c.gr (iB w), vc := c.gr (iC w), vc1 := c.gr ((iC w + 1) % 32), fn := iFn w, imm := iImm w } : BeEntry);
      (u = s.fetch k) ∧ (c = s.ctx k) ∧
      (e =
        ({ id := c.nextId, pc := c.pc, opcode := iOp w, va := c.gr (iA w), vb := c.gr (iB w), vc := c.gr (iC w), vc1 := c.gr ((iC w + 1) % 32), fn := iFn w, imm := iImm w } : BeEntry)) ∧
      (Issues 0x42 s k w) ∧ (cnt = bitOf (iImm w) 51) ∧ (pd = iImm w / 256 % 8) ∧ (fn = iImm w % 32) ∧ (c.queued < 16) ∧
      (¬(iC w = 31 ∧ fn = 5)) ∧ (atomicOk fn (bitOf (iImm w) 5) = true) ∧
      ((if cnt then synMayUse s k (iFn w) else decide (iFn w = 0)) = true) ∧
      (c.pendG.contains (iC w + 1) = true ∨ c.pendP.contains pd = true)) ∧
    (let k : Ctx := 35; let w := mw 0x42 5 1 2 3 0 (5 + 32 + 256 * 6); let s : State := mSc w { mc with pendP := [6] };
      let u : State := s.fetch k; let c := s.ctx k; let cnt := bitOf (iImm w) 51; let pd := iImm w / 256 % 8;
      let fn := iImm w % 32;
      let e :=
        ({ id := c.nextId, pc := c.pc, opcode := iOp w, va := c.gr (iA w), vb := c.gr (iB w), vc := c.gr (iC w), vc1 := c.gr ((iC w + 1) % 32), fn := iFn w, imm := iImm w } : BeEntry);
      (u = s.fetch k) ∧ (c = s.ctx k) ∧
      (e =
        ({ id := c.nextId, pc := c.pc, opcode := iOp w, va := c.gr (iA w), vb := c.gr (iB w), vc := c.gr (iC w), vc1 := c.gr ((iC w + 1) % 32), fn := iFn w, imm := iImm w } : BeEntry)) ∧
      (Issues 0x42 s k w) ∧ (cnt = bitOf (iImm w) 51) ∧ (pd = iImm w / 256 % 8) ∧ (fn = iImm w % 32) ∧ (c.queued < 16) ∧
      (¬(iC w = 31 ∧ fn = 5)) ∧ (atomicOk fn (bitOf (iImm w) 5) = true) ∧
      ((if cnt then synMayUse s k (iFn w) else decide (iFn w = 0)) = true) ∧
      (c.pendG.contains (iC w + 1) = true ∨ c.pendP.contains pd = true)) ∧
    (let k : Ctx := 35; let w := mw 0x42 5 1 2 3 0 (5 + 32 + 256 * 6); let s : State := mS w; let u : State := s.fetch k;
      let c := s.ctx k; let cnt := bitOf (iImm w) 51; let pd := iImm w / 256 % 8; let fn := iImm w % 32;
      let e :=
        ({ id := c.nextId, pc := c.pc, opcode := iOp w, va := c.gr (iA w), vb := c.gr (iB w), vc := c.gr (iC w), vc1 := c.gr ((iC w + 1) % 32), fn := iFn w, imm := iImm w } : BeEntry);
      (u = s.fetch k) ∧ (c = s.ctx k) ∧
      (e =
        ({ id := c.nextId, pc := c.pc, opcode := iOp w, va := c.gr (iA w), vb := c.gr (iB w), vc := c.gr (iC w), vc1 := c.gr ((iC w + 1) % 32), fn := iFn w, imm := iImm w } : BeEntry)) ∧
      (Issues 0x42 s k w) ∧ (cnt = bitOf (iImm w) 51) ∧ (pd = iImm w / 256 % 8) ∧ (fn = iImm w % 32) ∧ (c.queued < 16) ∧
      (¬(iC w = 31 ∧ fn = 5)) ∧ (atomicOk fn (bitOf (iImm w) 5) = true) ∧
      ((if cnt then synMayUse s k (iFn w) else decide (iFn w = 0)) = true) ∧ (c.pendG.contains (iC w + 1) = false) ∧
      (c.pendP.contains pd = false)) :=
  ⟨⟨rfl, rfl, rfl, by simp only [Issues, MayIssue, AtWord]; decide +kernel, by decide +kernel⟩,
   ⟨rfl, rfl, rfl, by simp only [Issues, MayIssue, AtWord]; decide +kernel, by decide +kernel⟩,
   ⟨rfl, rfl, rfl, by simp only [Issues, MayIssue, AtWord]; decide +kernel, by decide +kernel⟩,
   ⟨rfl, rfl, rfl, by simp only [Issues, MayIssue, AtWord]; decide +kernel, rfl, by decide +kernel⟩,
   ⟨rfl, rfl, rfl, by simp only [Issues, MayIssue, AtWord]; decide +kernel, rfl, by decide +kernel⟩,
   ⟨rfl, rfl, rfl, by simp only [Issues, MayIssue, AtWord]; decide +kernel, rfl, by decide +kernel⟩,
   ⟨rfl, rfl, rfl, by simp only [Issues, MayIssue, AtWord]; decide +kernel, rfl, by decide +kernel⟩,
   ⟨rfl, rfl, rfl, by simp only [Issues, MayIssue, AtWord]; decide +kernel, rfl, rfl, rfl, by decide +kernel⟩,
   ⟨rfl, rfl, rfl, by simp only [Issues, MayIssue, AtWord]; decide +kernel, rfl, rfl, rfl, by decide +kernel⟩,
   ⟨rfl, rfl, rfl, by simp only [Issues, MayIssue, AtWord]; decide +kernel, rfl, rfl, rfl, by decide +kernel⟩,
   ⟨rfl, rfl, rfl, by simp only [Issues, MayIssue, AtWord]; decide +kernel, rfl, rfl, rfl, by decide +kernel⟩,
   ⟨rfl, rfl, rfl, by simp only [Issues, MayIssue, AtWord]; decide +kernel, rfl, rfl, rfl, by decide +kernel⟩⟩

/-- States and operands that meet the hypotheses of `Obligations.MartenBackEndIssue`. -/
theorem witness_MartenBackEndIssue_3 :
    (let k : Ctx := 35; let w := mw 0x42 0 1 2 3 9 (2 ^ 51 + 2 ^ 52 + 1 + 32); let s : State := mS w;
      let u : State := s.fetch k; let c := s.ctx k; let cnt := bitOf (iImm w) 51; let pd := iImm w / 256 % 8;
      let fn := iImm w % 32;
      let e :=
        ({ id := c.nextId, pc := c.pc, opcode := iOp w, va := c.gr (iA w), vb := c.gr (iB w), vc := c.gr (iC w), vc1 := c.gr ((iC w + 1) % 32), fn := iFn w, imm := iImm w } : BeEntry);
      (u = s.fetch k) ∧ (c = s.ctx k) ∧
      (e =
        ({ id := c.nextId, pc := c.pc, opcode := iOp w, va := c.gr (iA w), vb := c.gr (iB w), vc := c.gr (iC w), vc1 := c.gr ((iC w + 1) % 32), fn := iFn w, imm := iImm w } : BeEntry)) ∧
      (Issues 0x42 s k w) ∧ (cnt = bitOf (iImm w) 51) ∧ (pd = iImm w / 256 % 8) ∧ (fn = iImm w % 32) ∧ (c.queued < 16) ∧
      (¬(iC w = 31 ∧ fn = 5)) ∧ (atomicOk fn (bitOf (iImm w) 5) = true) ∧
      ((if cnt then synMayUse s k (iFn w) else decide (iFn w = 0)) = true) ∧ (c.pendG.contains (iC w + 1) = false) ∧
      (c.pendP.contains pd = false)) :=
  ⟨rfl, rfl, rfl, by simp only [Issues, MayIssue, AtWord]; decide +kernel, rfl, rfl, rfl, by decide +kernel⟩

/-- States and operands that meet the hypotheses of `Obligations.MartenBackEndIssue` (MartenCollectives). -/
theorem witness_MartenCollectives :
    (let k : Ctx := 35; let w := mw 0x60 4 1 2 3 9 0; let s : State := mS w; let c := s.ctx k; let g := iImm w % 4096;
      let n := (s.group g).issued; let cnt := bitOf (iImm w) 12; (Issues 0x60 s k w) ∧ (c = s.ctx k) ∧ (g = iImm w % 4096) ∧
      (n = (s.group g).issued) ∧ (cnt = bitOf (iImm w) 12) ∧ (TablesOk s) ∧
      ((if cnt then synMayUse s k (iFn w) else decide (iFn w = 0)) = false ∨ (0x60 = 0x66 ∧
      (bitsOf (iImm w) 22 16 = 0 ∨ 64 < bitsOf (iImm w) 22 16)))) ∧
    (let k : Ctx := 35; let w := mw 0x66 4 0 2 3 0 (65 * 2 ^ 16); let s : State := mS w; let c := s.ctx k;
      let g := iImm w % 4096; let n := (s.group g).issued; let cnt := bitOf (iImm w) 12; (Issues 0x66 s k w) ∧ (c = s.ctx k) ∧
      (g = iImm w % 4096) ∧ (n = (s.group g).issued) ∧ (cnt = bitOf (iImm w) 12) ∧ (TablesOk s) ∧
      ((if cnt then synMayUse s k (iFn w) else decide (iFn w = 0)) = false ∨ (0x66 = 0x66 ∧
      (bitsOf (iImm w) 22 16 = 0 ∨ 64 < bitsOf (iImm w) 22 16)))) ∧
    (let k : Ctx := 35; let w := mw 0x62 4 1 2 3 9 (0x1000 + 4095);
      let s : State := mSc w { mc with beq := (List.range 16).map fun i => { id := i, opcode := 0x31 } }; let c := s.ctx k;
      let g := iImm w % 4096; let n := (s.group g).issued; let cnt := bitOf (iImm w) 12; (Issues 0x62 s k w) ∧ (c = s.ctx k) ∧
      (g = iImm w % 4096) ∧ (n = (s.group g).issued) ∧ (cnt = bitOf (iImm w) 12) ∧ (TablesOk s) ∧
      ((if cnt then synMayUse s k (iFn w) else decide (iFn w = 0)) = true) ∧
      ((0x62 = 0x66 → 1 ≤ bitsOf (iImm w) 22 16 ∧ bitsOf (iImm w) 22 16 ≤ 64)) ∧ (16 ≤ c.queued)) ∧
    (let k : Ctx := 35; let w := mw 0x62 4 1 2 3 9 (0x1000 + 4095);
      let s : State := let a := mS w; { a with yar := { a.yar with groups := [(4095, { issued := 65535, state := 1 })] } };
      let c := s.ctx k; let g := iImm w % 4096; let n := (s.group g).issued; let cnt := bitOf (iImm w) 12;
      (Issues 0x62 s k w) ∧ (c = s.ctx k) ∧ (g = iImm w % 4096) ∧ (n = (s.group g).issued) ∧ (cnt = bitOf (iImm w) 12) ∧
      (TablesOk s) ∧ ((if cnt then synMayUse s k (iFn w) else decide (iFn w = 0)) = true) ∧
      ((0x62 = 0x66 → 1 ≤ bitsOf (iImm w) 22 16 ∧ bitsOf (iImm w) 22 16 ≤ 64)) ∧ (c.queued < 16)) ∧
    (let k : Ctx := 35; let w := mw 0x66 4 0 2 3 0 (64 * 2 ^ 16); let s : State := mS w; let c := s.ctx k;
      let g := iImm w % 4096; let n := (s.group g).issued; let cnt := bitOf (iImm w) 12; (Issues 0x66 s k w) ∧ (c = s.ctx k) ∧
      (g = iImm w % 4096) ∧ (n = (s.group g).issued) ∧ (cnt = bitOf (iImm w) 12) ∧ (TablesOk s) ∧
      ((if cnt then synMayUse s k (iFn w) else decide (iFn w = 0)) = true) ∧
      ((0x66 = 0x66 → 1 ≤ bitsOf (iImm w) 22 16 ∧ bitsOf (iImm w) 22 16 ≤ 64)) ∧ (c.queued < 16)) ∧
    (let k : Ctx := 35; let w := mw 0x64 0 1 2 3 0 0x2000; let s : State := mS w; let c := s.ctx k; let g := iImm w % 4096;
      let n := (s.group g).issued; let cnt := bitOf (iImm w) 12; (Issues 0x64 s k w) ∧ (c = s.ctx k) ∧ (g = iImm w % 4096) ∧
      (n = (s.group g).issued) ∧ (cnt = bitOf (iImm w) 12) ∧ (TablesOk s) ∧
      ((if cnt then synMayUse s k (iFn w) else decide (iFn w = 0)) = true) ∧
      ((0x64 = 0x66 → 1 ≤ bitsOf (iImm w) 22 16 ∧ bitsOf (iImm w) 22 16 ≤ 64)) ∧ (c.queued < 16)) ∧
    (let k : Ctx := 35; let w := mw 0x65 0 1 2 3 0 0; let s : State := mS w; let c := s.ctx k; let g := iImm w % 4096;
      let n := (s.group g).issued; let cnt := bitOf (iImm w) 12; (Issues 0x65 s k w) ∧ (c = s.ctx k) ∧ (g = iImm w % 4096) ∧
      (n = (s.group g).issued) ∧ (cnt = bitOf (iImm w) 12) ∧ (TablesOk s) ∧
      ((if cnt then synMayUse s k (iFn w) else decide (iFn w = 0)) = true) ∧
      ((0x65 = 0x66 → 1 ≤ bitsOf (iImm w) 22 16 ∧ bitsOf (iImm w) 22 16 ≤ 64)) ∧ (c.queued < 16)) ∧
    (let k : Ctx := 35; let w := mw 0x63 0 1 2 3 0 0; let s : State := mS w; let c := s.ctx k; let g := iImm w % 4096;
      let n := (s.group g).issued; let cnt := bitOf (iImm w) 12; (Issues 0x63 s k w) ∧ (c = s.ctx k) ∧ (g = iImm w % 4096) ∧
      (n = (s.group g).issued) ∧ (cnt = bitOf (iImm w) 12) ∧ (TablesOk s) ∧
      ((if cnt then synMayUse s k (iFn w) else decide (iFn w = 0)) = true) ∧
      ((0x63 = 0x66 → 1 ≤ bitsOf (iImm w) 22 16 ∧ bitsOf (iImm w) 22 16 ≤ 64)) ∧ (c.queued < 16)) ∧
    (let k : Ctx := 35; let w := mw 0x67 4 0 0 0 1 5; let s : State := mS w; let c := s.ctx k; let g := iImm w;
      let v := s.group g;
      let r :=
        (s.fetch k).setCtx k { c.setG (iD w) (if v.state = 0 then 0 else v.failSt + 2 ^ 16 * v.ended + 2 ^ 32 * (stepsOut s g % 65536)) with pc := (c.pc + 1) % 32768 };
      (Issues 0x67 s k w) ∧ (c = s.ctx k) ∧ (g = iImm w) ∧ (v = s.group g) ∧
      (r =
        (s.fetch k).setCtx k { c.setG (iD w) (if v.state = 0 then 0 else v.failSt + 2 ^ 16 * v.ended + 2 ^ 32 * (stepsOut s g % 65536)) with pc := (c.pc + 1) % 32768 }) ∧
      (bitOf (iFn w) 0 = false ∨ v.state = 0)) ∧
    (let k : Ctx := 35; let w := mw 0x67 4 0 0 0 0 5;
      let s : State := let a := mS w;
        { a with yar := { a.yar with groups := [(5, { issued := 9, ended := 4, failSt := 3, failStep := 2, state := 1 })] } };
      let c := s.ctx k; let g := iImm w; let v := s.group g;
      let r :=
        (s.fetch k).setCtx k { c.setG (iD w) (if v.state = 0 then 0 else v.failSt + 2 ^ 16 * v.ended + 2 ^ 32 * (stepsOut s g % 65536)) with pc := (c.pc + 1) % 32768 };
      (Issues 0x67 s k w) ∧ (c = s.ctx k) ∧ (g = iImm w) ∧ (v = s.group g) ∧
      (r =
        (s.fetch k).setCtx k { c.setG (iD w) (if v.state = 0 then 0 else v.failSt + 2 ^ 16 * v.ended + 2 ^ 32 * (stepsOut s g % 65536)) with pc := (c.pc + 1) % 32768 }) ∧
      (bitOf (iFn w) 0 = false ∨ v.state = 0)) ∧
    (let k : Ctx := 35; let w := mw 0x67 4 0 0 0 1 5;
      let s : State := let a := mS w;
        { a with yar := { a.yar with groups := [(5, { issued := 9, ended := 4, failSt := 3, failStep := 2, state := 1 })] } };
      let c := s.ctx k; let g := iImm w; let v := s.group g;
      let r :=
        (s.fetch k).setCtx k { c.setG (iD w) (if v.state = 0 then 0 else v.failSt + 2 ^ 16 * v.ended + 2 ^ 32 * (stepsOut s g % 65536)) with pc := (c.pc + 1) % 32768 };
      (Issues 0x67 s k w) ∧ (c = s.ctx k) ∧ (g = iImm w) ∧ (v = s.group g) ∧
      (r =
        (s.fetch k).setCtx k { c.setG (iD w) (if v.state = 0 then 0 else v.failSt + 2 ^ 16 * v.ended + 2 ^ 32 * (stepsOut s g % 65536)) with pc := (c.pc + 1) % 32768 }) ∧
      (bitOf (iFn w) 0 = true) ∧ (v.state ≠ 0)) :=
  ⟨⟨by simp only [Issues, MayIssue, AtWord]; decide +kernel, rfl, rfl, rfl, rfl, tablesOk_of (by decide +kernel),
      by decide +kernel⟩,
   ⟨by simp only [Issues, MayIssue, AtWord]; decide +kernel, rfl, rfl, rfl, rfl, tablesOk_of (by decide +kernel),
      by decide +kernel⟩,
   ⟨by simp only [Issues, MayIssue, AtWord]; decide +kernel, rfl, rfl, rfl, rfl, tablesOk_of (by decide +kernel),
      by decide +kernel⟩,
   ⟨by simp only [Issues, MayIssue, AtWord]; decide +kernel, rfl, rfl, rfl, rfl, tablesOk_of (by decide +kernel),
      by decide +kernel⟩,
   ⟨by simp only [Issues, MayIssue, AtWord]; decide +kernel, rfl, rfl, rfl, rfl, tablesOk_of (by decide +kernel),
      by decide +kernel⟩,
   ⟨by simp only [Issues, MayIssue, AtWord]; decide +kernel, rfl, rfl, rfl, rfl, tablesOk_of (by decide +kernel),
      by decide +kernel⟩,
   ⟨by simp only [Issues, MayIssue, AtWord]; decide +kernel, rfl, rfl, rfl, rfl, tablesOk_of (by decide +kernel),
      by decide +kernel⟩,
   ⟨by simp only [Issues, MayIssue, AtWord]; decide +kernel, rfl, rfl, rfl, rfl, tablesOk_of (by decide +kernel),
      by decide +kernel⟩,
   ⟨by simp only [Issues, MayIssue, AtWord]; decide +kernel, rfl, rfl, rfl, rfl, by decide +kernel⟩,
   ⟨by simp only [Issues, MayIssue, AtWord]; decide +kernel, rfl, rfl, rfl, rfl, by decide +kernel⟩,
   ⟨by simp only [Issues, MayIssue, AtWord]; decide +kernel, rfl, rfl, rfl, rfl, by decide +kernel⟩⟩

/-- States and operands that meet the hypotheses of `Obligations.StartChecks`. -/
theorem witness_StartChecks :
    (let s : State :=
        ((up.wr (MRT_CTX_CFG0.CODE_BASE 511) 32767).wr (MRT_CTX_CFG1.CODE_LEN 511) 1).wr (MRT_CTX_CFG0.ENTRY 511) 32767 |>.wr (MRT_CTX_CFG2.SCR_SIZE 511) 256 |>.wr (MRT_CTX_CFG2.SCR_BASE 511) 0;
      let u : State := drowseExit s; let k : Ctx := 511; let base := u.rd (MRT_CTX_CFG0.CODE_BASE k);
      let len := u.rd (MRT_CTX_CFG1.CODE_LEN k); let entry := u.rd (MRT_CTX_CFG0.ENTRY k); let ok := True; (u = drowseExit s) ∧
      (TablesOk s) ∧ (base = u.rd (MRT_CTX_CFG0.CODE_BASE k)) ∧ (len = u.rd (MRT_CTX_CFG1.CODE_LEN k)) ∧
      (entry = u.rd (MRT_CTX_CFG0.ENTRY k)) ∧ (s.fabricOpen = true) ∧
      ((ok ↔ (u.ctx k).state =
        .stopped ∧ len ≠ 0 ∧ base + len ≤ 32768 ∧ base ≤ entry ∧ entry < base + len ∧ u.rd (MRT_CTX_CFG2.SCR_BASE k) + u.rd (MRT_CTX_CFG2.SCR_SIZE k) ≤ 256)) ∧
      (ok)) ∧
    (let s : State := mS 1; let u : State := drowseExit s; let k : Ctx := 35; let base := u.rd (MRT_CTX_CFG0.CODE_BASE k);
      let len := u.rd (MRT_CTX_CFG1.CODE_LEN k); let entry := u.rd (MRT_CTX_CFG0.ENTRY k); let ok := False;
      (u = drowseExit s) ∧ (TablesOk s) ∧ (base = u.rd (MRT_CTX_CFG0.CODE_BASE k)) ∧ (len = u.rd (MRT_CTX_CFG1.CODE_LEN k)) ∧
      (entry = u.rd (MRT_CTX_CFG0.ENTRY k)) ∧ (s.fabricOpen = true) ∧
      ((ok ↔ (u.ctx k).state =
        .stopped ∧ len ≠ 0 ∧ base + len ≤ 32768 ∧ base ≤ entry ∧ entry < base + len ∧ u.rd (MRT_CTX_CFG2.SCR_BASE k) + u.rd (MRT_CTX_CFG2.SCR_SIZE k) ≤ 256)) ∧
      (¬ok)) ∧
    (let s : State := up; let u : State := drowseExit s; let k : Ctx := 5; let base := u.rd (MRT_CTX_CFG0.CODE_BASE k);
      let len := u.rd (MRT_CTX_CFG1.CODE_LEN k); let entry := u.rd (MRT_CTX_CFG0.ENTRY k); let ok := False;
      (u = drowseExit s) ∧ (TablesOk s) ∧ (base = u.rd (MRT_CTX_CFG0.CODE_BASE k)) ∧ (len = u.rd (MRT_CTX_CFG1.CODE_LEN k)) ∧
      (entry = u.rd (MRT_CTX_CFG0.ENTRY k)) ∧ (s.fabricOpen = true) ∧
      ((ok ↔ (u.ctx k).state =
        .stopped ∧ len ≠ 0 ∧ base + len ≤ 32768 ∧ base ≤ entry ∧ entry < base + len ∧ u.rd (MRT_CTX_CFG2.SCR_BASE k) + u.rd (MRT_CTX_CFG2.SCR_SIZE k) ≤ 256)) ∧
      (len = 0)) :=
  ⟨⟨rfl, tablesOk_of (by decide +kernel), rfl, rfl, rfl, by decide +kernel⟩,
   ⟨rfl, tablesOk_of (by decide +kernel), rfl, rfl, rfl, by decide +kernel⟩,
   ⟨rfl, tablesOk_of (by decide +kernel), rfl, rfl, rfl, by decide +kernel⟩⟩

/-- States and operands that meet the hypotheses of `Obligations.ContextCommands`. -/
theorem witness_ContextCommands :
    (let s : State := mSc 1 { mc with state := .fencing, beq := [{ id := 1, opcode := 0x31 }, { id := 2, opcode := 0x44 }] };
      let u : State := drowseExit s; let k : Ctx := 35; let c := u.ctx k; (u = drowseExit s) ∧ (c = u.ctx k) ∧ (TablesOk s) ∧
      (s.fabricOpen = true) ∧ (c.state = .ready ∨ c.state = .waitTrig ∨ c.state = .waitSync ∨ c.state = .fencing)) ∧
    (let s : State := mSc 1 { mc with state := .waitSync, waitObj := 6, waitEnd := some 7 }; let u : State := drowseExit s;
      let k : Ctx := 35; let c := u.ctx k; (u = drowseExit s) ∧ (c = u.ctx k) ∧ (TablesOk s) ∧ (s.fabricOpen = true) ∧
      (c.state = .ready ∨ c.state = .waitTrig ∨ c.state = .waitSync ∨ c.state = .fencing)) ∧
    (let s : State := mSc 1 { mc with state := .faulted }; let u : State := drowseExit s; let k : Ctx := 35; let c := u.ctx k;
      (u = drowseExit s) ∧ (c = u.ctx k) ∧ (TablesOk s) ∧ (s.fabricOpen = true) ∧
      (c.state = .stopped ∨ c.state = .stopping ∨ c.state = .faulted)) ∧
    (let s : State := mSc 1 { mc with state := .stopping, beq := [{ id := 1, left := true }] }; let k : Ctx := 35;
      ((s.ctx k).state = .stopping) ∧ ((∀ e ∈ (s.ctx k).beq, e.left = true))) ∧
    (let s : State := mSc 1 { mc with state := .stopping, beq := [{ id := 1 }] }; let k : Ctx := 35;
      ((s.ctx k).state ≠ .stopping ∨ (∃ e ∈ (s.ctx k).beq, e.left = false))) ∧
    (let s : State := up.wr MRT_ILOAD_CMD.BUSY 1; let u : State := drowseExit s; (u = drowseExit s) ∧ (s.fabricOpen = true) ∧
      (u.on MRT_ILOAD_CMD.BUSY = true)) ∧
    (let s : State := up.wr BDG_STATUS.FW_RESTART 1; let u : State := drowseExit s; (u = drowseExit s) ∧
      (s.fabricOpen = true) ∧ (u.on MRT_ILOAD_CMD.BUSY = false) ∧ (u.on BDG_STATUS.FW_RESTART = true)) ∧
    (let s : State := up; let u : State := drowseExit s; let i := u.rd MRT_ILOAD_RANGE.INDEX;
      let n := u.rd MRT_ILOAD_RANGE.COUNT; (u = drowseExit s) ∧ (TablesOk s) ∧ (i = u.rd MRT_ILOAD_RANGE.INDEX) ∧
      (n = u.rd MRT_ILOAD_RANGE.COUNT) ∧ (s.fabricOpen = true) ∧ (u.on BDG_STATUS.FW_RESTART = false) ∧
      (u.on MRT_ILOAD_CMD.BUSY = false) ∧ (n = 0 ∨ 32768 < i + n)) ∧
    (let s : State := (up.wr MRT_ILOAD_RANGE.INDEX 32767).wr MRT_ILOAD_RANGE.COUNT 2; let u : State := drowseExit s;
      let i := u.rd MRT_ILOAD_RANGE.INDEX; let n := u.rd MRT_ILOAD_RANGE.COUNT; (u = drowseExit s) ∧ (TablesOk s) ∧
      (i = u.rd MRT_ILOAD_RANGE.INDEX) ∧ (n = u.rd MRT_ILOAD_RANGE.COUNT) ∧ (s.fabricOpen = true) ∧
      (u.on BDG_STATUS.FW_RESTART = false) ∧ (u.on MRT_ILOAD_CMD.BUSY = false) ∧ (n = 0 ∨ 32768 < i + n)) ∧
    (let s : State := ((mS 1).wr MRT_ILOAD_RANGE.INDEX 4).wr MRT_ILOAD_RANGE.COUNT 2; let u : State := drowseExit s;
      let i := u.rd MRT_ILOAD_RANGE.INDEX; let n := u.rd MRT_ILOAD_RANGE.COUNT; (u = drowseExit s) ∧ (TablesOk s) ∧
      (i = u.rd MRT_ILOAD_RANGE.INDEX) ∧ (n = u.rd MRT_ILOAD_RANGE.COUNT) ∧ (s.fabricOpen = true) ∧
      (u.on BDG_STATUS.FW_RESTART = false) ∧ (u.on MRT_ILOAD_CMD.BUSY = false) ∧ (0 < n) ∧ (i + n ≤ 32768) ∧
      (iloadOverlaps u i n = true)) ∧
    (let s : State := (up.wr MRT_ILOAD_RANGE.INDEX 32766).wr MRT_ILOAD_RANGE.COUNT 2; let u : State := drowseExit s;
      let i := u.rd MRT_ILOAD_RANGE.INDEX; let n := u.rd MRT_ILOAD_RANGE.COUNT; (u = drowseExit s) ∧ (TablesOk s) ∧
      (i = u.rd MRT_ILOAD_RANGE.INDEX) ∧ (n = u.rd MRT_ILOAD_RANGE.COUNT) ∧ (s.fabricOpen = true) ∧
      (u.on BDG_STATUS.FW_RESTART = false) ∧ (u.on MRT_ILOAD_CMD.BUSY = false) ∧ (0 < n) ∧ (i + n ≤ 32768) ∧
      (iloadOverlaps u i n = false)) ∧
    (let s : State :=
        { up.wr MRT_ILOAD_CMD.BUSY 1 with mrt := { up.mrt with iload := some ⟨4, 1⟩ }, hmp := { up.hmp with returned := [{ k := .iload, write := false, len := 16, got := [⟨0, List.replicate 16 5, 0⟩], left := 0 }] } };
      let l := ⟨4, 1⟩; let x := { k := .iload, write := false, len := 16, got := [⟨0, List.replicate 16 5, 0⟩], left := 0 };
      (TablesOk s) ∧ (s.mrt.iload = some l) ∧ (s.hmp.returned.find? (fun x => x.k = .iload) = some x)) :=
  ⟨⟨rfl, rfl, tablesOk_of (by decide +kernel), by decide +kernel⟩,
   ⟨rfl, rfl, tablesOk_of (by decide +kernel), by decide +kernel⟩,
   ⟨rfl, rfl, tablesOk_of (by decide +kernel), by decide +kernel⟩,
   by decide +kernel,
   by decide +kernel,
   ⟨rfl, by decide +kernel⟩,
   ⟨rfl, by decide +kernel⟩,
   ⟨rfl, tablesOk_of (by decide +kernel), rfl, rfl, by decide +kernel⟩,
   ⟨rfl, tablesOk_of (by decide +kernel), rfl, rfl, by decide +kernel⟩,
   ⟨rfl, tablesOk_of (by decide +kernel), rfl, rfl, by decide +kernel⟩,
   ⟨rfl, tablesOk_of (by decide +kernel), rfl, rfl, by decide +kernel⟩,
   ⟨tablesOk_of (by decide +kernel), by decide +kernel⟩⟩

/-- States and operands that meet the hypotheses of `Obligations.ContextCommands`. -/
theorem witness_ContextCommands_2 :
    (let s : State :=
        { up.wr MRT_ILOAD_CMD.BUSY 1 with mrt := { up.mrt with iload := some ⟨4, 1⟩ }, hmp := { up.hmp with returned := [{ k := .iload, write := false, len := 16, got := [⟨0, List.replicate 16 5, 3⟩], left := 0 }] } };
      let l := ⟨4, 1⟩; let x := { k := .iload, write := false, len := 16, got := [⟨0, List.replicate 16 5, 3⟩], left := 0 };
      (TablesOk s) ∧ (s.mrt.iload = some l) ∧ (s.hmp.returned.find? (fun x => x.k = .iload) = some x)) :=
  ⟨tablesOk_of (by decide +kernel), by decide +kernel⟩

/-- States and operands that meet the hypotheses of `Obligations.ContextCommands` (ContextFaults). -/
theorem witness_ContextFaults :
    (let s : State := mSc 1 { mc with state := .fencing, pendG := [1,2], beq := [{ id := 1, opcode := 0x31 }, { id := 2, opcode := 0x44, started := true }, { id := 3, opcode := 0x42, started := true }] };
      let k : Ctx := 35; let cause := 5; let info := 70000; let t : State := ctxFault s k cause info; (TablesOk s) ∧
      ((s.ctx k).state ≠ .faulted) ∧ (t = ctxFault s k cause info)) ∧
    (let s : State := mS 1; let k : Ctx := 35; let cause := 5; let info := 70000; let t : State := ctxFault s k cause info;
      let j := 36; (TablesOk s) ∧ (t = ctxFault s k cause info) ∧ ((s.ctx k).state ≠ .faulted) ∧ (j ≠ k)) ∧
    (let s : State := mS 1; let k : Ctx := 35; let cause := 5; let info := 70000; let t : State := ctxFault s k cause info;
      (TablesOk s) ∧ ((s.ctx k).state ≠ .faulted) ∧ (t = ctxFault s k cause info)) :=
  ⟨⟨tablesOk_of (by decide +kernel), by decide +kernel, rfl⟩,
   ⟨tablesOk_of (by decide +kernel), rfl, by decide +kernel⟩,
   ⟨tablesOk_of (by decide +kernel), by decide +kernel, rfl⟩⟩

/-- States and operands that meet the hypotheses of `Obligations.BackEndEntries`. -/
theorem witness_BackEndEntries :
    (let s : State := mS 1; let k : Ctx := 35; (nextStart s k = none)) ∧
    (let s : State := mSc 1 { mc with beq := [{ id := 1, opcode := 0x31, started := true }] }; let k : Ctx := 35;
      ((∀ e ∈ (s.ctx k).beq, e.started = true) ∨ s.unitsRun = false ∨ s.ctxHeld k = true)) ∧
    (let s : State := (mSc 1 { mc with beq := [{ id := 1, opcode := 0x31, va := 1, fn := 2 }] }).wr (MRT_CTX_CFG2.SCR_SIZE 35) 1;
      let k : Ctx := 35; let e := { id := 1, opcode := 0x31, va := 1, fn := 2 }; let a := (e.va + e.imm) % 65536;
      let n := 2 ^ (e.fn / 2 % 4); let b := 65536 * (k / 32) + 256 * s.rd (MRT_CTX_CFG2.SCR_BASE k) + a; (TablesOk s) ∧
      (a = (e.va + e.imm) % 65536) ∧ (n = 2 ^ (e.fn / 2 % 4)) ∧
      (b = 65536 * (k / 32) + 256 * s.rd (MRT_CTX_CFG2.SCR_BASE k) + a) ∧ (nextStart s k = some e) ∧
      (e.opcode = 0x30 ∨ e.opcode = 0x31) ∧ (256 * s.rd (MRT_CTX_CFG2.SCR_SIZE k) < a + n ∨ a % n ≠ 0)) ∧
    (let s : State :=
        (mSc 1 { mc with beq := [{ id := 1, opcode := 0x30, va := 252, fn := 6 }] }).wr (MRT_CTX_CFG2.SCR_SIZE 35) 1;
      let k : Ctx := 35; let e := { id := 1, opcode := 0x30, va := 252, fn := 6 }; let a := (e.va + e.imm) % 65536;
      let n := 2 ^ (e.fn / 2 % 4); let b := 65536 * (k / 32) + 256 * s.rd (MRT_CTX_CFG2.SCR_BASE k) + a; (TablesOk s) ∧
      (a = (e.va + e.imm) % 65536) ∧ (n = 2 ^ (e.fn / 2 % 4)) ∧
      (b = 65536 * (k / 32) + 256 * s.rd (MRT_CTX_CFG2.SCR_BASE k) + a) ∧ (nextStart s k = some e) ∧
      (e.opcode = 0x30 ∨ e.opcode = 0x31) ∧ (256 * s.rd (MRT_CTX_CFG2.SCR_SIZE k) < a + n ∨ a % n ≠ 0)) ∧
    (let k : Ctx := 35; let e := { id := 1, opcode := 0x30, va := 248, fn := 6 }; let a := (e.va + e.imm) % 65536;
      let s : State := let a :=
        (mSc 1 { mc with beq := [{ id := 1, opcode := 0x30, va := 248, fn := 6 }] }).wr (MRT_CTX_CFG2.SCR_SIZE 35) 1;
        { a with mrt := { a.mrt with scratchPoison := [(65536 + 248) / 8] } };
      let n := 2 ^ (e.fn / 2 % 4); let b := 65536 * (k / 32) + 256 * s.rd (MRT_CTX_CFG2.SCR_BASE k) + a; (TablesOk s) ∧
      (a = (e.va + e.imm) % 65536) ∧ (n = 2 ^ (e.fn / 2 % 4)) ∧
      (b = 65536 * (k / 32) + 256 * s.rd (MRT_CTX_CFG2.SCR_BASE k) + a) ∧ (nextStart s k = some e) ∧
      (e.opcode = 0x30 ∨ e.opcode = 0x31) ∧ (a + n ≤ 256 * s.rd (MRT_CTX_CFG2.SCR_SIZE k)) ∧ (a % n = 0) ∧ (e.opcode = 0x30) ∧
      (scrPoisoned s b n = true)) ∧
    (let k : Ctx := 35; let e := { id := 1, opcode := 0x30, va := 248, fn := 6 }; let a := (e.va + e.imm) % 65536;
      let s : State := let a :=
        (mSc 1 { mc with beq := [{ id := 1, opcode := 0x30, va := 248, fn := 6 }] }).wr (MRT_CTX_CFG2.SCR_SIZE 35) 1;
        { a with mrt := { a.mrt with scratch := [(65536 + 249, 9)] } };
      let n := 2 ^ (e.fn / 2 % 4); let b := 65536 * (k / 32) + 256 * s.rd (MRT_CTX_CFG2.SCR_BASE k) + a; (TablesOk s) ∧
      (a = (e.va + e.imm) % 65536) ∧ (n = 2 ^ (e.fn / 2 % 4)) ∧
      (b = 65536 * (k / 32) + 256 * s.rd (MRT_CTX_CFG2.SCR_BASE k) + a) ∧ (nextStart s k = some e) ∧
      (e.opcode = 0x30 ∨ e.opcode = 0x31) ∧ (a + n ≤ 256 * s.rd (MRT_CTX_CFG2.SCR_SIZE k)) ∧ (a % n = 0) ∧ (e.opcode = 0x30) ∧
      (scrPoisoned s b n = false)) ∧
    (let s : State :=
        (mSc 1 { mc with beq := [{ id := 1, opcode := 0x31, va := 248, fn := 6, vc := 0x123456789 }] }).wr (MRT_CTX_CFG2.SCR_SIZE 35) 1;
      let k : Ctx := 35; let e := { id := 1, opcode := 0x31, va := 248, fn := 6, vc := 0x123456789 };
      let a := (e.va + e.imm) % 65536; let n := 2 ^ (e.fn / 2 % 4);
      let b := 65536 * (k / 32) + 256 * s.rd (MRT_CTX_CFG2.SCR_BASE k) + a; (TablesOk s) ∧ (a = (e.va + e.imm) % 65536) ∧
      (n = 2 ^ (e.fn / 2 % 4)) ∧ (b = 65536 * (k / 32) + 256 * s.rd (MRT_CTX_CFG2.SCR_BASE k) + a) ∧ (nextStart s k = some e) ∧
      (e.opcode = 0x30 ∨ e.opcode = 0x31) ∧ (a + n ≤ 256 * s.rd (MRT_CTX_CFG2.SCR_SIZE k)) ∧ (a % n = 0) ∧ (e.opcode = 0x31)) ∧
    (let s : State := (mSc 1 { mc with beq := [{ id := 1, opcode := 0x40, imm := 8 }] }).wr BDG_FENCE.SW 1; let k : Ctx := 35;
      let e := { id := 1, opcode := 0x40, imm := 8 }; let a := (e.va + e.imm) % 65536; let n := 2 ^ (e.fn / 2 % 4);
      let b := 65536 * (k / 32) + 256 * s.rd (MRT_CTX_CFG2.SCR_BASE k) + a; (TablesOk s) ∧ (a = (e.va + e.imm) % 65536) ∧
      (n = 2 ^ (e.fn / 2 % 4)) ∧ (b = 65536 * (k / 32) + 256 * s.rd (MRT_CTX_CFG2.SCR_BASE k) + a) ∧ (nextStart s k = some e) ∧
      (0x40 ≤ e.opcode) ∧ (e.opcode ≤ 0x43) ∧ (s.fenced = true)) ∧
    (let s : State := (mSc 1 { mc with beq := [{ id := 1, opcode := 0x41, cnt := some 3 }] }); let k : Ctx := 35;
      let e := { id := 1, opcode := 0x41, cnt := some 3 }; let a := (e.va + e.imm) % 65536; let n := 2 ^ (e.fn / 2 % 4);
      let b := 65536 * (k / 32) + 256 * s.rd (MRT_CTX_CFG2.SCR_BASE k) + a; (TablesOk s) ∧ (a = (e.va + e.imm) % 65536) ∧
      (n = 2 ^ (e.fn / 2 % 4)) ∧ (b = 65536 * (k / 32) + 256 * s.rd (MRT_CTX_CFG2.SCR_BASE k) + a) ∧ (nextStart s k = some e) ∧
      (e.opcode = 0x40 ∨ e.opcode = 0x41) ∧ (s.fenced = false) ∧ (e.desc = none) ∧ (e.imm % 2 ^ 32 = 0)) ∧
    (let s : State := (mSc 1 { mc with beq := [{ id := 1, opcode := 0x3A, cnt := some 3 }] }); let k : Ctx := 35;
      let e := { id := 1, opcode := 0x3A, cnt := some 3 }; let a := (e.va + e.imm) % 65536; let n := 2 ^ (e.fn / 2 % 4);
      let b := 65536 * (k / 32) + 256 * s.rd (MRT_CTX_CFG2.SCR_BASE k) + a; (TablesOk s) ∧ (a = (e.va + e.imm) % 65536) ∧
      (n = 2 ^ (e.fn / 2 % 4)) ∧ (b = 65536 * (k / 32) + 256 * s.rd (MRT_CTX_CFG2.SCR_BASE k) + a) ∧ (nextStart s k = some e) ∧
      (e.opcode = 0x3A ∨ e.opcode = 0x3B) ∧ (e.va = 0)) ∧
    (let s : State :=
        (mSc 1 { mc with beq := [{ id := 1, opcode := 0x42, va := 5, vb := 6, vc := 7, vc1 := 8, imm := 5 + 32 }] });
      let k : Ctx := 35; let e := { id := 1, opcode := 0x42, va := 5, vb := 6, vc := 7, vc1 := 8, imm := 5 + 32 };
      let a := (e.va + e.imm) % 65536; let n := 2 ^ (e.fn / 2 % 4);
      let b := 65536 * (k / 32) + 256 * s.rd (MRT_CTX_CFG2.SCR_BASE k) + a; (TablesOk s) ∧ (a = (e.va + e.imm) % 65536) ∧
      (n = 2 ^ (e.fn / 2 % 4)) ∧ (b = 65536 * (k / 32) + 256 * s.rd (MRT_CTX_CFG2.SCR_BASE k) + a) ∧ (nextStart s k = some e) ∧
      (e.opcode = 0x42) ∧ (e.desc = none) ∧ (s.fenced = false)) ∧
    (let s : State := (mSc 1 { mc with beq := [{ id := 1, opcode := 0x43, va := 7 * 65536 + 5 }] }); let k : Ctx := 35;
      let e := { id := 1, opcode := 0x43, va := 7 * 65536 + 5 }; let a := (e.va + e.imm) % 65536; let n := 2 ^ (e.fn / 2 % 4);
      let b := 65536 * (k / 32) + 256 * s.rd (MRT_CTX_CFG2.SCR_BASE k) + a; (TablesOk s) ∧ (a = (e.va + e.imm) % 65536) ∧
      (n = 2 ^ (e.fn / 2 % 4)) ∧ (b = 65536 * (k / 32) + 256 * s.rd (MRT_CTX_CFG2.SCR_BASE k) + a) ∧ (nextStart s k = some e) ∧
      (e.opcode = 0x43) ∧ (e.desc = none) ∧ (s.fenced = false) ∧ (bitsOf e.va 35 16 ≠ s.node)) :=
  ⟨by decide +kernel,
   by decide +kernel,
   ⟨tablesOk_of (by decide +kernel), rfl, rfl, rfl, by decide +kernel⟩,
   ⟨tablesOk_of (by decide +kernel), rfl, rfl, rfl, by decide +kernel⟩,
   ⟨tablesOk_of (by decide +kernel), rfl, rfl, rfl, by decide +kernel⟩,
   ⟨tablesOk_of (by decide +kernel), rfl, rfl, rfl, by decide +kernel⟩,
   ⟨tablesOk_of (by decide +kernel), rfl, rfl, rfl, by decide +kernel⟩,
   ⟨tablesOk_of (by decide +kernel), rfl, rfl, rfl, by decide +kernel⟩,
   ⟨tablesOk_of (by decide +kernel), rfl, rfl, rfl, by decide +kernel⟩,
   ⟨tablesOk_of (by decide +kernel), rfl, rfl, rfl, by decide +kernel⟩,
   ⟨tablesOk_of (by decide +kernel), rfl, rfl, rfl, by decide +kernel⟩,
   ⟨tablesOk_of (by decide +kernel), rfl, rfl, rfl, by decide +kernel⟩⟩

/-- States and operands that meet the hypotheses of `Obligations.BackEndEntries`. -/
theorem witness_BackEndEntries_2 :
    (let k : Ctx := 35; let id := 1;
      let s : State :=
        (mSc 1 { mc with pendG := [4], beq := [{ id := 1, opcode := 0x30, d := 4, started := true, result := some 99 }] });
      let e := { id := 1, opcode := 0x30, d := 4, started := true, result := some 99 }; let v := 99; let c := s.ctx k;
      (c = s.ctx k) ∧ (TablesOk s) ∧ (c.beq.find? (fun e => e.id = id) = some e) ∧ (e.started = true) ∧ (e.opcode = 0x30) ∧
      (e.muted = false) ∧ (e.result = some v)) ∧
    (let k : Ctx := 35; let id := 1;
      let s : State := (mSc 1 { mc with pendG := [4], beq := [{ id := 1, opcode := 0x30, d := 4 }] });
      let e := { id := 1, opcode := 0x30, d := 4 }; ((s.ctx k).beq.find? (fun e => e.id = id) = some e) ∧
      (e.started = false)) :=
  ⟨⟨rfl, tablesOk_of (by decide +kernel), by decide +kernel⟩,
   by decide +kernel⟩

/-- States and operands that meet the hypotheses of `Obligations.WindowCommands`. -/
theorem witness_WindowCommands :
    (let s : State := ((up.wr TGT_WARG0.WINDOW 65535).wr TGT_WARG4.PKEY 5).wr TGT_WARG3.BOUND_LO 7; (TablesOk s) ∧
      (s.fabricOpen = true) ∧ (s.on BDG_STATUS.FW_RESTART = false) ∧ (s.on TGT_WCMD.BUSY = false) ∧
      (s.on TGT_WARG5.KIND = false) ∧ (createStatus s (argWindow s) (argWin s) = stOK)) ∧
    (let s : State := up; (TablesOk s) ∧ (s.fabricOpen = true) ∧ (s.on BDG_STATUS.FW_RESTART = false) ∧
      (s.on TGT_WCMD.BUSY = false) ∧ (createStatus s (argWindow s) (argWin s) ≠ stOK)) ∧
    (let s : State := up.wr TGT_CFG.MGMT_ONLY 1; (s.on TGT_CFG.MGMT_ONLY = true)) ∧
    (let s : State := up.wr BDG_STATUS.FW_RESTART 1; (TablesOk s) ∧ (s.fabricOpen = true) ∧ (s.on BDG_STATUS.FW_RESTART = true)) ∧
    (let s : State := let a := up.wr TGT_OVF_SIZE.PAGES 1;
        { a with wins := { a.wins with creating := some (65535, { state := .valid, chunked := true, chunkLog2 := 16, bound := 16 * 65536, pkey := 5 }), lists := [(3, (0, 30))] }, hmp := { a.hmp with returned := [xf .chunkSource (natLE 8 65536 ++ List.replicate 120 0) 0] } };
      let w := 65535; let v := { state := .valid, chunked := true, chunkLog2 := 16, bound := 16 * 65536, pkey := 5 };
      let x := xf .chunkSource (natLE 8 65536 ++ List.replicate 120 0) 0; let n := (v.chunks + 14) / 15; (TablesOk s) ∧
      (n = (v.chunks + 14) / 15) ∧ (s.wins.creating = some (w, v)) ∧
      (s.hmp.returned.find? (fun x => x.k = .chunkSource) = some x) ∧ (x.status = stOK) ∧
      ((List.range v.chunks).all (fun i => leAt x.data (8 * i) 8 % 2 ^ v.chunkLog2 = 0) = true) ∧
      ((List.range (ovfLines s + 1 - n)).any (fun a => linesFree s a n) = true) ∧ (s.rd TGT_OVF_SERIAL.SERIAL ≠ 0xFFFFFFFF)) ∧
    (let s : State := let a := up.wr TGT_OVF_SIZE.PAGES 1;
        { a with wins := { a.wins with creating := some (65535, { state := .valid, chunked := true, chunkLog2 := 16, bound := 16 * 65536, pkey := 5 }), lists := [(3, (0, 31))] }, hmp := { a.hmp with returned := [xf .chunkSource (natLE 8 65536 ++ List.replicate 120 0) 0] } };
      let w := 65535; let v := { state := .valid, chunked := true, chunkLog2 := 16, bound := 16 * 65536, pkey := 5 };
      let x := xf .chunkSource (natLE 8 65536 ++ List.replicate 120 0) 0; let n := (v.chunks + 14) / 15; (TablesOk s) ∧
      (n = (v.chunks + 14) / 15) ∧ (s.wins.creating = some (w, v)) ∧
      (s.hmp.returned.find? (fun x => x.k = .chunkSource) = some x) ∧ (x.status = stOK) ∧
      ((List.range v.chunks).all (fun i => leAt x.data (8 * i) 8 % 2 ^ v.chunkLog2 = 0) = true) ∧
      ((List.range (ovfLines s + 1 - n)).any (fun a => linesFree s a n) = false ∨ s.rd TGT_OVF_SERIAL.SERIAL = 0xFFFFFFFF)) ∧
    (let s : State := let a := up.wr TGT_WCMD.BUSY 1;
        { a with wins := { a.wins with creating := some (65535, { state := .valid, chunked := true, chunkLog2 := 16, bound := 16 * 65536, pkey := 5 }) }, hmp := { a.hmp with returned := [xf .chunkSource [] 4] } };
      let w := 65535; let v := { state := .valid, chunked := true, chunkLog2 := 16, bound := 16 * 65536, pkey := 5 };
      let x := xf .chunkSource [] 4; (TablesOk s) ∧ (s.wins.creating = some (w, v)) ∧
      (s.hmp.returned.find? (fun x => x.k = .chunkSource) = some x) ∧ (x.status ≠ stOK)) ∧
    (let s : State := let a := up.wr TGT_WCMD.BUSY 1;
        { a with wins := { a.wins with creating := some (65535, { state := .valid, chunked := true, chunkLog2 := 16, bound := 16 * 65536, pkey := 5 }) }, hmp := { a.hmp with returned := [xf .chunkSource [] 1] } };
      let w := 65535; let v := { state := .valid, chunked := true, chunkLog2 := 16, bound := 16 * 65536, pkey := 5 };
      let x := xf .chunkSource [] 1; (TablesOk s) ∧ (s.wins.creating = some (w, v)) ∧
      (s.hmp.returned.find? (fun x => x.k = .chunkSource) = some x) ∧ (x.status ≠ stOK)) ∧
    (let s : State := let a := up.wr TGT_WCMD.BUSY 1;
        { a with wins := { a.wins with creating := some (65535, { state := .valid, chunked := true, chunkLog2 := 16, bound := 16 * 65536, pkey := 5 }) }, hmp := { a.hmp with returned := [xf .chunkSource (natLE 8 65537 ++ List.replicate 120 0) 0] } };
      let w := 65535; let v := { state := .valid, chunked := true, chunkLog2 := 16, bound := 16 * 65536, pkey := 5 };
      let x := xf .chunkSource (natLE 8 65537 ++ List.replicate 120 0) 0; (TablesOk s) ∧ (s.wins.creating = some (w, v)) ∧
      (s.hmp.returned.find? (fun x => x.k = .chunkSource) = some x) ∧ (x.status = stOK) ∧
      ((List.range v.chunks).all (fun i => leAt x.data (8 * i) 8 % 2 ^ v.chunkLog2 = 0) = false)) ∧
    (let s : State := let a := up.wr TGT_WARG3.BOUND_LO 5;
        { a with wins := { a.wins with tbl := [(0, { state := .valid, bound := 5, rd := true })] } };
      let v := s.win (argWindow s); let a := argWin s; (TablesOk s) ∧ (v = s.win (argWindow s)) ∧ (a = argWin s) ∧
      (s.fabricOpen = true) ∧ (s.on BDG_STATUS.FW_RESTART = false) ∧ (s.on TGT_WCMD.BUSY = false) ∧ (v.state = .valid) ∧
      (a.bound ≤ v.bound) ∧ ((a.rd = true → v.rd = true)) ∧ ((a.wr = true → v.wr = true)) ∧ ((a.at_ = true → v.at_ = true))) ∧
    (let s : State := let a := up.wr TGT_WARG3.BOUND_LO 5;
        { a with wins := { a.wins with tbl := [(0, { state := .valid, bound := 4, rd := true })] } };
      let v := s.win (argWindow s); let a := argWin s; (TablesOk s) ∧ (v = s.win (argWindow s)) ∧ (a = argWin s) ∧
      (s.fabricOpen = true) ∧ (s.on BDG_STATUS.FW_RESTART = false) ∧ (s.on TGT_WCMD.BUSY = false) ∧ (v.state = .valid) ∧
      ((v.bound < a.bound ∨ (a.rd = true ∧ v.rd = false) ∨ (a.wr = true ∧ v.wr = false) ∨ (a.at_ = true ∧ v.at_ = false)))) ∧
    (let s : State := let a := up.wr TGT_WARG0.COUNT_M1 1;
        { a with wins := { a.wins with tbl := [(1, { state := .valid, bound := 4, rd := true }), (2, { state := .valid, bound := 4, rd := true })] } };
      (TablesOk s) ∧ (s.fabricOpen = true) ∧ (s.on BDG_STATUS.FW_RESTART = false) ∧ (s.on TGT_WCMD.BUSY = false) ∧
      (argWindow s + s.rd TGT_WARG0.COUNT_M1 + 1 ≤ 65536)) :=
  ⟨⟨tablesOk_of (by decide +kernel), by decide +kernel⟩,
   ⟨tablesOk_of (by decide +kernel), by decide +kernel⟩,
   by decide +kernel,
   ⟨tablesOk_of (by decide +kernel), by decide +kernel⟩,
   ⟨tablesOk_of (by decide +kernel), rfl, by decide +kernel⟩,
   ⟨tablesOk_of (by decide +kernel), rfl, by decide +kernel⟩,
   ⟨tablesOk_of (by decide +kernel), by decide +kernel⟩,
   ⟨tablesOk_of (by decide +kernel), by decide +kernel⟩,
   ⟨tablesOk_of (by decide +kernel), by decide +kernel⟩,
   ⟨tablesOk_of (by decide +kernel), rfl, rfl, by decide +kernel⟩,
   ⟨tablesOk_of (by decide +kernel), rfl, rfl, by decide +kernel⟩,
   ⟨tablesOk_of (by decide +kernel), by decide +kernel⟩⟩

/-- States and operands that meet the hypotheses of `Obligations.WindowCommands`. -/
theorem witness_WindowCommands_2 :
    (let s : State := (up.wr TGT_WARG0.COUNT_M1 65535); (TablesOk s) ∧ (s.fabricOpen = true) ∧
      (s.on BDG_STATUS.FW_RESTART = false) ∧ (s.on TGT_WCMD.BUSY = false) ∧
      (argWindow s + s.rd TGT_WARG0.COUNT_M1 + 1 ≤ 65536)) ∧
    (let s : State := let a := (up.wr TGT_WWAIT.PENDING (2^19-1)).wr TGT_WCMD.BUSY 1;
        { a with wins := { a.wins with cmd := some ⟨true, 1, 1⟩, tbl := [(1, { state := .revoking, bound := 4, rd := true })] } };
      let e : Fin 19 := 18; (s.wins.cmd.isSome = true) ∧ (bitOf (s.rd TGT_WWAIT.PENDING) e = true) ∧
      (revokeClear (revokeAct s e) e = true) ∧ (2 ^ e.val < (revokeAct s e).rd TGT_WWAIT.PENDING)) ∧
    (let s : State := let a := (up.wr TGT_WWAIT.PENDING (2^18)).wr TGT_WCMD.BUSY 1;
        { a with wins := { a.wins with cmd := some ⟨true, 1, 1⟩, tbl := [(1, { state := .revoking, bound := 4, rd := true })] } };
      let e : Fin 19 := 18; (s.wins.cmd.isSome = true) ∧ (bitOf (s.rd TGT_WWAIT.PENDING) e = true) ∧
      (revokeClear (revokeAct s e) e = true) ∧ ((revokeAct s e).rd TGT_WWAIT.PENDING = 2 ^ e.val)) ∧
    (let s : State := let a := up.wr TGT_WCMD.BUSY 1;
        { a with wins := { a.wins with cmd := some ⟨true, 1, 1⟩, tbl := [(1, { state := .revoking, bound := 4, rd := true, gen := 9 })] } };
      let c := ⟨true, 1, 1⟩; let t : State := windowCmdEnd s; let w := 1; (TablesOk s) ∧ (t = windowCmdEnd s) ∧
      (s.wins.cmd = some c) ∧ (c.revoke = true) ∧ (c.first ≤ w) ∧ (w < c.first + c.count)) ∧
    (let s : State := let a := up.wr TGT_WCMD.BUSY 1;
        { a with wins := { a.wins with cmd := some ⟨true, 1, 1⟩, tbl := [(1, { state := .revoking, bound := 4, rd := true, gen := 9 })] } };
      let c := ⟨true, 1, 1⟩; let t : State := windowCmdEnd s; (TablesOk s) ∧ (t = windowCmdEnd s) ∧ (s.wins.cmd = some c) ∧
      (c.revoke = true)) ∧
    (let s : State :=
        { up with wins := { up.wins with tbl := [(1, { state := .valid, chunked := true, chunkLog2 := 16, serial := 3, bound := 400000, rd := true, gen := 9 })] }, hmp := { up.hmp with returned := [xf (.chunkLine 1 0 3) (List.replicate 128 0) 4] } };
      let w : WinNum := 1; let line := 0; let x := xf (.chunkLine 1 0 3) (List.replicate 128 0) 4;
      let u : State := (takeChunkLine { s with hmp := { s.hmp with returned := s.hmp.returned.erase x } } w line x).1;
      let st := (takeChunkLine { s with hmp := { s.hmp with returned := s.hmp.returned.erase x } } w line x).2;
      let s2 := targetFill w line st u; let s3 := (waiters s2 (w.val, line)).foldl (entryFill (w.val, line) st) s2;
      (takeChunkLine { s with hmp := { s.hmp with returned := s.hmp.returned.erase x } } w line x = (u, st)) ∧
      (s2 = targetFill w line st u) ∧ (s3 = (waiters s2 (w.val, line)).foldl (entryFill (w.val, line) st) s2) ∧
      ((s.win w).chunked = true) ∧ (s.hmp.returned.find? (fun x => x.k = .chunkLine w line (s.win w).serial) = some x) ∧
      ((s2.win w).state = .valid)) ∧
    (let s : State := { up with hmp := { up.hmp with returned := [xf (.chunkLine 1 0 3) (List.replicate 128 0) 0] } };
      let w : WinNum := 1; let line := 0; let serial := 3; let x := xf (.chunkLine 1 0 3) (List.replicate 128 0) 0;
      ((s.win w).chunked = false) ∧ (s.hmp.returned = [x]) ∧ (x.k = .chunkLine w line serial)) ∧
    (let s : State :=
        { up with wins := { up.wins with tbl := [(1, { state := .valid, chunked := true, chunkLog2 := 16, serial := 3, bound := 400000, rd := true, gen := 9 })] } };
      let w := 1; let line := 0; let x := xf (.chunkLine 1 0 3) (List.replicate 128 0) 0;
      let t : State := (takeChunkLine s w line x).1; (TablesOk s) ∧ (t = (takeChunkLine s w line x).1) ∧
      ((s.win w).state = .valid) ∧ (x.status = stOK) ∧ (leAt x.data 120 8 ≠ spillTag s w line x.data)) ∧
    (let s : State :=
        { up with wins := { up.wins with tbl := [(1, { state := .revoking, chunked := true, chunkLog2 := 16, serial := 3, bound := 400000, rd := true, gen := 9 })] } };
      let w := 1; let x := xf (.chunkLine 1 0 3) (List.replicate 128 0) 3;
      ((s.win w).state = .valid ∨ (s.win w).state = .revoking) ∧ (x.status ≠ stOK)) ∧
    (let s : State :=
        { up with wins := { up.wins with tbl := [(1, { state := .invalid, chunked := true, chunkLog2 := 16, serial := 3, bound := 400000, rd := true, gen := 9 })] } };
      let w := 1; ((s.win w).state = .free ∨ (s.win w).state = .invalid)) :=
  ⟨⟨tablesOk_of (by decide +kernel), by decide +kernel⟩,
   by decide +kernel,
   by decide +kernel,
   ⟨tablesOk_of (by decide +kernel), rfl, by decide +kernel⟩,
   ⟨tablesOk_of (by decide +kernel), rfl, by decide +kernel⟩,
   ⟨rfl, rfl, rfl, by decide +kernel⟩,
   by decide +kernel,
   ⟨tablesOk_of (by decide +kernel), rfl, by decide +kernel⟩,
   by decide +kernel,
   by decide +kernel⟩

/-- States and operands that meet the hypotheses of `Obligations.LaneTraining`. -/
theorem witness_LaneTraining :
    (let s : State := up; let p : Port := 11; (TablesOk s) ∧ (s.fabricOpen = true) ∧ (s.portPresent p = true) ∧
      (s.laneState p = 0)) ∧
    (let s : State := up.wr (LAN_PORT_CFG.TEST 11) 4; let p : Port := 11; (TablesOk s) ∧ (s.fabricOpen = true) ∧
      (s.portPresent p = true) ∧ (s.laneState p = 0)) ∧
    (let s : State := { up with build := { up.build with ports := 4 } }; let p : Port := 11; (TablesOk s) ∧
      (s.fabricOpen = true) ∧ (s.portPresent p = false)) ∧
    (let s : State := up.wr (LAN_PORT_STATUS.STATE 11) 10; let p : Port := 11; (TablesOk s) ∧ (s.fabricOpen = true) ∧
      (s.portPresent p = true) ∧ (s.laneState p = 10)) ∧
    (let s : State := jt up; let p : Port := 11; let c : BitVec 3 := 4; (TablesOk s) ∧ (s.publicSegments = true) ∧
      (s.portPresent p = true) ∧ (s.laneState p = 0) ∧ (1 ≤ c.toNat) ∧ (c.toNat ≤ 4)) ∧
    (let s : State := up; (TablesOk s) ∧ (s.publicSegments = false)) ∧
    (let s : State := ln 11 6 3 { txWidth := 8 }; let p : Port := 11; (TablesOk s) ∧ (s.fabricOpen = true) ∧
      (s.portPresent p = true)) ∧
    (let s : State := ln 11 6 3 { txWidth := 8 }; let p : Port := 11; (TablesOk s) ∧ (s.fabricOpen = true) ∧
      (s.portPresent p = true) ∧ (s.laneState p ≠ 9)) ∧
    (let s : State := lpo 11 1 { timer := some (up.now + 1) }; let p : Port := 11; (TablesOk s) ∧ (s.laneState p = 1) ∧
      (s.due (s.lanePort p).timer = false)) ∧
    (let s : State := lpo 11 1 { timer := some up.now }; let p : Port := 11; (TablesOk s) ∧ (s.laneState p = 1) ∧
      (s.due (s.lanePort p).timer = true) ∧ (s.rd (LAN_PORT_STATUS.ATTEMPTS p) < (s.lanePort p).retries)) ∧
    (let s : State := (lpo 11 1 { timer := some up.now }).wr (LNK_STATUS.STATE 11) 1; let p : Port := 11; (TablesOk s) ∧
      (s.laneState p = 1) ∧ (s.due (s.lanePort p).timer = true) ∧
      (s.rd (LAN_PORT_STATUS.ATTEMPTS p) < (s.lanePort p).retries)) ∧
    (let s : State := (lpo 11 1 { timer := some up.now }).wr (LAN_PORT_STATUS.ATTEMPTS 11) 3; let p : Port := 11;
      (TablesOk s) ∧ (s.laneState p = 1) ∧ (s.due (s.lanePort p).timer = true) ∧
      ((s.lanePort p).retries ≤ s.rd (LAN_PORT_STATUS.ATTEMPTS p))) :=
  ⟨⟨tablesOk_of (by decide +kernel), by decide +kernel⟩,
   ⟨tablesOk_of (by decide +kernel), by decide +kernel⟩,
   ⟨tablesOk_of (by decide +kernel), by decide +kernel⟩,
   ⟨tablesOk_of (by decide +kernel), by decide +kernel⟩,
   ⟨tablesOk_of (by decide +kernel), by decide +kernel⟩,
   ⟨tablesOk_of (by decide +kernel), by decide +kernel⟩,
   ⟨tablesOk_of (by decide +kernel), by decide +kernel⟩,
   ⟨tablesOk_of (by decide +kernel), by decide +kernel⟩,
   ⟨tablesOk_of (by decide +kernel), by decide +kernel⟩,
   ⟨tablesOk_of (by decide +kernel), by decide +kernel⟩,
   ⟨tablesOk_of (by decide +kernel), by decide +kernel⟩,
   ⟨tablesOk_of (by decide +kernel), by decide +kernel⟩⟩

/-- States and operands that meet the hypotheses of `Obligations.LaneTraining`. -/
theorem witness_LaneTraining_2 :
    (let s : State := lpo 11 2 {}; let p : Port := 11; let mask : BitVec 8 := 3; (TablesOk s) ∧ (s.laneState p = 2) ∧
      (2 ≤ popcount8 (mask.toNat % 2 ^ s.laneCount))) ∧
    (let s : State := lpo 11 2 {}; let p : Port := 11; let mask : BitVec 8 := 1; (TablesOk s) ∧ (s.laneState p = 2) ∧
      (popcount8 (mask.toNat % 2 ^ s.laneCount) < 2)) ∧
    (let s : State := lpo 11 3 { timer := some 0, cfg := 0x03200000 }; let p : Port := 11; let ofs := ([0, 0, -21] : List Int);
      (TablesOk s) ∧ (s.laneState p = 3) ∧ (s.due (s.lanePort p).timer = true) ∧
      ((((List.range s.laneCount).filter fun i => !(s.lane (8 * p + i)).excluded).any fun i => 10 * (s.lanePort p).offsetPpm < (ofs.getD i 0).natAbs) =
        true)) ∧
    (let s : State := lpo 11 3 { timer := some 0, cfg := 0x03200000 }; let p : Port := 11; let ofs := ([20] : List Int);
      (TablesOk s) ∧ (s.laneState p = 3) ∧ (s.due (s.lanePort p).timer = true) ∧
      ((((List.range s.laneCount).filter fun i => !(s.lane (8 * p + i)).excluded).any fun i => 10 * (s.lanePort p).offsetPpm < (ofs.getD i 0).natAbs) =
        false)) ∧
    (let s : State := let a := lpo 11 4 { timer := some (up.now + 1), farAligned := true, far := some (9, 3, 7) };
      (lanesOf a 11).foldl (fun t k => (t.setLane k { t.lane k with aligned := true }).wr (LAN_LANE_STATUS.LOGICAL k) (k % 8)) a;
      let p : Port := 11; let f := (9, 3, 7); (TablesOk s) ∧ (s.laneState p = 4) ∧ (s.due (s.lanePort p).timer = false) ∧
      (alignedAll s (lanesOf s p) = true) ∧ ((s.lanePort p).farAligned = true) ∧ ((s.lanePort p).far = some f)) ∧
    (let s : State := lpo 11 4 { timer := some 0 }; let p : Port := 11; (TablesOk s) ∧ (s.laneState p = 4) ∧
      ((s.due (s.lanePort p).timer || (s.lanePort p).skewBad) = true)) ∧
    (let s : State := lpo 11 4 { timer := some (up.now + 1), skewBad := true }; let p : Port := 11; (TablesOk s) ∧
      (s.laneState p = 4) ∧ ((s.due (s.lanePort p).timer || (s.lanePort p).skewBad) = true)) ∧
    (let s : State :=
        let a := lpo 11 5 { timer := some (up.now + 1), farMask := some 0x3F, farCount := some 0, zeroSent := true, far := some (9, 3, 7) };
      (lanesOf a 11).foldl (fun t k => (t.setLane k { t.lane k with aligned := true }).wr (LAN_LANE_STATUS.LOGICAL k) (k % 8)) a;
      let p : Port := 11; (TablesOk s) ∧ (exchReady s p = true)) ∧
    (let s : State := up; let p : Port := 11; (TablesOk s) ∧ (exchReady s p = false)) ∧
    (let s : State := ln 11 5 0 { probes := 1 }; let p : Port := 11; let w := 4; let cur := 2; let l := true; let sd := 9;
      let t : State := laneActive s p w cur l sd; (TablesOk s) ∧ (t = laneActive s p w cur l sd)) ∧
    (let s : State := ln 11 5 0 { probes := 1 }; let p : Port := 11; let w := 8; let cur := 8; let l := true; let sd := 9;
      let t : State := laneActive s p w cur l sd; (TablesOk s) ∧ (t = laneActive s p w cur l sd)) ∧
    (let s : State := ln 11 5 0 { probes := 1 }; let p : Port := 11; let w := 4; let cur := 2; let l := true; let sd := 9;
      let t : State := laneActive s p w cur l sd; (TablesOk s) ∧ (t = laneActive s p w cur l sd) ∧ (w < s.laneCount)) :=
  ⟨⟨tablesOk_of (by decide +kernel), by decide +kernel⟩,
   ⟨tablesOk_of (by decide +kernel), by decide +kernel⟩,
   ⟨tablesOk_of (by decide +kernel), by decide +kernel⟩,
   ⟨tablesOk_of (by decide +kernel), by decide +kernel⟩,
   ⟨tablesOk_of (by decide +kernel), by decide +kernel⟩,
   ⟨tablesOk_of (by decide +kernel), by decide +kernel⟩,
   ⟨tablesOk_of (by decide +kernel), by decide +kernel⟩,
   ⟨tablesOk_of (by decide +kernel), by decide +kernel⟩,
   ⟨tablesOk_of (by decide +kernel), by decide +kernel⟩,
   ⟨tablesOk_of (by decide +kernel), rfl⟩,
   ⟨tablesOk_of (by decide +kernel), rfl⟩,
   ⟨tablesOk_of (by decide +kernel), rfl, by decide +kernel⟩⟩

/-- States and operands that meet the hypotheses of `Obligations.LaneTraining`. -/
theorem witness_LaneTraining_3 :
    (let s : State := lpo 11 5 { farMask := some 0 }; let p : Port := 11; (TablesOk s) ∧ (s.laneState p = 5) ∧
      ((s.lanePort p).farMask.isSome = true) ∧ (agreedWidth s p < 2)) ∧
    (let s : State := let a := lpo 11 5 {}; setLp a 11 { far := some (ownTriple a 11) }; let p : Port := 11; (TablesOk s) ∧
      (s.laneState p = 5) ∧ ((s.lanePort p).farMask = none) ∧ ((s.lanePort p).far = some (ownTriple s p)) ∧
      (s.on (LAN_PORT_CFG.LOOPBACK_OK p) = false)) ∧
    (let s : State := lpo 11 5 { timer := some 0 }; let p : Port := 11; (TablesOk s) ∧ (s.laneState p = 5) ∧
      ((s.lanePort p).farMask = none) ∧ ((s.lanePort p).far = none) ∧ (s.due (s.lanePort p).timer = true)) ∧
    (let s : State := lpo 11 5 { far := some (9, 3, 7) }; let p : Port := 11; let f := (9, 3, 7); (TablesOk s) ∧
      ((s.lanePort p).far = some f) ∧ (ownTriple s p ≠ f)) :=
  ⟨⟨tablesOk_of (by decide +kernel), by decide +kernel⟩,
   ⟨tablesOk_of (by decide +kernel), by decide +kernel⟩,
   ⟨tablesOk_of (by decide +kernel), by decide +kernel⟩,
   ⟨tablesOk_of (by decide +kernel), by decide +kernel⟩⟩

/-- States and operands that meet the hypotheses of `Obligations.LaneEvents`. -/
theorem witness_LaneEvents :
    (let s : State := lpo 11 5 {}; let p : Port := 11;
      let f := (⟨3, 7, ctlFrame (lpo 4 5 { seed := 99 }) 4 3 0x1E⟩ : CtlFrame); let frames : List CtlFrame := [f]; ∃ inv, ∃ x,
      (TablesOk s) ∧ (frames = [f]) ∧ (s.laneState p = 5) ∧ (readCtl f.bytes 0x1E = some (inv, x))) ∧
    (let s : State := lpo 11 5 { far := some (1, 2, 3) }; let p : Port := 11;
      let f := (⟨3, 7, ctlFrame (lpo 4 5 { seed := 99 }) 4 3 0x1E⟩ : CtlFrame); let frames : List CtlFrame := [f]; ∃ inv, ∃ x,
      (TablesOk s) ∧ (frames = [f]) ∧ (s.laneState p = 5) ∧ (readCtl f.bytes 0x1E = some (inv, x))) ∧
    (let s : State := lpo 11 5 { farMask := some 3, count := 2, zeroSent := true }; let p : Port := 11;
      let f := (⟨3, 7, ctlFrame (lpo 4 5 { seed := 99, count := 4 }) 4 3 0x2D⟩ : CtlFrame); let frames : List CtlFrame := [f];
      ∃ inv, ∃ x, (TablesOk s) ∧ (frames = [f]) ∧ (s.laneState p = 5) ∧ (readCtl f.bytes 0x2D = some (inv, x))) ∧
    (let s : State := lpo 11 6 {}; let p : Port := 11; (TablesOk s) ∧ (s.laneState p ≠ 4) ∧ (s.laneState p ≠ 5)) ∧
    (let s : State := (lpo 11 8 {}).wr (LAN_LANE_STATUS.IN_USE 91) 1; let p : Port := 11; (TablesOk s) ∧ (6 ≤ s.laneState p) ∧
      (s.laneState p ≤ 8)) ∧
    (let s : State := (lpo 11 6 {}).wr (LAN_LANE_STATUS.IN_USE 91) 1; let p : Port := 11; (TablesOk s) ∧ (6 ≤ s.laneState p) ∧
      (s.laneState p ≤ 8)) ∧
    (let s : State := lpo 11 6 {}; let k : Lane := 95; let fill : BitVec 5 := -10; (TablesOk s) ∧ (s.laneState (k / 8) = 6) ∧
      (fill.toInt.natAbs ≤ 10)) ∧
    (let s : State := ln 11 6 3 { probes := 1 }; let k : Lane := 95; let fill : BitVec 5 := -11; (TablesOk s) ∧
      (s.laneState (k / 8) = 6) ∧ (10 < fill.toInt.natAbs)) ∧
    (let s : State := (ln 11 6 3 { probes := 1 }).wr (LAN_LANE_STATUS.IN_USE 95) 1; let k : Lane := 95;
      let fill : BitVec 5 := 11; (TablesOk s) ∧ (s.laneState (k / 8) = 6) ∧ (10 < fill.toInt.natAbs)) ∧
    (let s : State := (ln 11 6 3 { probes := 1 }).wr (LAN_LANE_STATUS.IN_USE 95) 1; let k : Lane := 95; (TablesOk s) ∧
      (s.laneState (k / 8) = 6)) ∧
    (let s : State := up; let k : Lane := 95; (TablesOk s) ∧ (s.laneState (k / 8) ≠ 6)) ∧
    (let s : State := (ln 11 6 3 { nakFrom := some 6 }).wr (LAN_LANE_STATUS.IN_USE 95) 1; let k : Lane := 95;
      let t : State := laneLockLost s k; (TablesOk s) ∧ (t = laneLockLost s k) ∧ (s.on (LAN_LANE_STATUS.IN_USE k) = true) ∧
      (s.linkState (k / 8) ≠ 0) ∧ (s.linkState (k / 8) ≠ 7) ∧ ((s.link (k / 8)).frozen = none)) :=
  ⟨⟨((Option.get (readCtl ((⟨3, 7, ctlFrame (lpo 4 5 { seed := 99 }) 4 3 0x1E⟩ : CtlFrame)).bytes 0x1E) (by decide +kernel)).1),
      ((Option.get (readCtl ((⟨3, 7,
        ctlFrame (lpo 4 5 { seed := 99 }) 4 3 0x1E⟩ : CtlFrame)).bytes 0x1E) (by decide +kernel)).2),
      tablesOk_of (by decide +kernel), rfl, by decide +kernel⟩,
   ⟨((Option.get (readCtl ((⟨3, 7, ctlFrame (lpo 4 5 { seed := 99 }) 4 3 0x1E⟩ : CtlFrame)).bytes 0x1E) (by decide +kernel)).1),
      ((Option.get (readCtl ((⟨3, 7,
        ctlFrame (lpo 4 5 { seed := 99 }) 4 3 0x1E⟩ : CtlFrame)).bytes 0x1E) (by decide +kernel)).2),
      tablesOk_of (by decide +kernel), rfl, by decide +kernel⟩,
   ⟨((Option.get (readCtl ((⟨3, 7,
        ctlFrame (lpo 4 5 { seed := 99, count := 4 }) 4 3 0x2D⟩ : CtlFrame)).bytes 0x2D) (by decide +kernel)).1),
      ((Option.get (readCtl ((⟨3, 7,
        ctlFrame (lpo 4 5 { seed := 99, count := 4 }) 4 3 0x2D⟩ : CtlFrame)).bytes 0x2D) (by decide +kernel)).2),
      tablesOk_of (by decide +kernel), rfl, by decide +kernel⟩,
   ⟨tablesOk_of (by decide +kernel), by decide +kernel⟩,
   ⟨tablesOk_of (by decide +kernel), by decide +kernel⟩,
   ⟨tablesOk_of (by decide +kernel), by decide +kernel⟩,
   ⟨tablesOk_of (by decide +kernel), by decide +kernel⟩,
   ⟨tablesOk_of (by decide +kernel), by decide +kernel⟩,
   ⟨tablesOk_of (by decide +kernel), by decide +kernel⟩,
   ⟨tablesOk_of (by decide +kernel), by decide +kernel⟩,
   ⟨tablesOk_of (by decide +kernel), by decide +kernel⟩,
   ⟨tablesOk_of (by decide +kernel), rfl, by decide +kernel⟩⟩

/-- States and operands that meet the hypotheses of `Obligations.LaneEvents`. -/
theorem witness_LaneEvents_2 :
    (let s : State := (ln 11 6 7 { probes := 1 }).setLane 95 { lockLost := true }; let k : Lane := 95; (TablesOk s) ∧
      (s.linkState (k / 8) = 7)) ∧
    (let s : State :=
        ((ln 11 6 3 { frozen := some 7, nakFrom := some 3 }).wr (LAN_LANE_STATUS.IN_USE 95) 1).setLane 95 { lockLost := true };
      let k : Lane := 95; let u : State := s.setLane k { s.lane k with lockLost := false }; (TablesOk s) ∧
      (u = s.setLane k { s.lane k with lockLost := false }) ∧ (s.linkState (k / 8) ≠ 7) ∧
      (((lanesOf u (k / 8)).any fun j => (u.lane j).lockLost && u.on (LAN_LANE_STATUS.IN_USE j)) = false)) ∧
    (let s : State := lpo 11 6 {}; let k : Lane := 95; (TablesOk s) ∧ (s.on (LAN_LANE_STATUS.IN_USE k) = false)) ∧
    (let s : State := late ((lpo 11 6 {}).wr (LAN_LANE_STATUS.IN_USE 95) 1); let k : Lane := 95; (TablesOk s) ∧
      (s.laneState (k / 8) = 6) ∧ (s.on (LAN_LANE_STATUS.IN_USE k) = true) ∧
      ((s.lane k).lastStep + ns (100000 * s.rd LAN_ADAPT_CFG.PERIOD) ≤ s.now)) ∧
    (let s : State := let a := ((lpo 11 6 {}).wr (LAN_LANE_STATUS.IN_USE 95) 1).wr OWL_HEALTH_CFG.ENABLE 1;
      (a.wr OWL_HEALTH_CFG.MIN_WIDTH 8); let k : Lane := 95; (TablesOk s) ∧ (s.on OWL_HEALTH_CFG.ENABLE = true) ∧
      (s.on OWL_STATUS.BUSY = false) ∧ (owlLaneOk s k = true) ∧ ((s.lane k).scanAt = none)) ∧
    (let s : State := up; (TablesOk s) ∧ (s.fabricOpen = true) ∧ (s.on OWL_STATUS.BUSY = false)) ∧
    (let s : State := ((lpo 11 6 {}).wr (LAN_LANE_STATUS.IN_USE 95) 1); (TablesOk s) ∧ (s.fabricOpen = true) ∧
      (s.on OWL_STATUS.BUSY = false)) ∧
    (let s : State := late ((up.wr OWL_STATUS.DONE 1).wr OWL_STATUS.REFUSED 1); (TablesOk s) ∧ (s.fabricOpen = true) ∧
      (s.on OWL_STATUS.BUSY = false)) ∧
    (let s : State := jt up; (TablesOk s) ∧ (s.publicSegments = true)) ∧
    (let s : State := jt (up.wr OWL_STATUS.BUSY 1); (TablesOk s) ∧ (s.publicSegments = true)) ∧
    (let s : State := up; (s.publicSegments = false)) ∧
    (let s : State := let a := ((((lpo 11 6 {}).wr (LAN_LANE_STATUS.IN_USE 95) 1).wr OWL_STATUS.BUSY 1).wr OWL_CTRL.LANE 95);
        { a with lanes := { a.lanes with owlEnd := some 0 } };
      (TablesOk s) ∧ (s.on OWL_STATUS.BUSY = true) ∧ (owlLaneOk s (s.rd OWL_CTRL.LANE) = true) ∧
      (s.due s.lanes.owlEnd = true)) :=
  ⟨⟨tablesOk_of (by decide +kernel), by decide +kernel⟩,
   ⟨tablesOk_of (by decide +kernel), rfl, by decide +kernel⟩,
   ⟨tablesOk_of (by decide +kernel), by decide +kernel⟩,
   ⟨tablesOk_of (by decide +kernel), by decide +kernel⟩,
   ⟨tablesOk_of (by decide +kernel), by decide +kernel⟩,
   ⟨tablesOk_of (by decide +kernel), by decide +kernel⟩,
   ⟨tablesOk_of (by decide +kernel), by decide +kernel⟩,
   ⟨tablesOk_of (by decide +kernel), by decide +kernel⟩,
   ⟨tablesOk_of (by decide +kernel), by decide +kernel⟩,
   ⟨tablesOk_of (by decide +kernel), by decide +kernel⟩,
   by decide +kernel,
   ⟨tablesOk_of (by decide +kernel), by decide +kernel⟩⟩

/-- States and operands that meet the hypotheses of `Obligations.LaneEvents`. -/
theorem witness_LaneEvents_3 :
    (let s : State := let a := ((((lpo 11 0 {})).wr OWL_STATUS.BUSY 1).wr OWL_CTRL.LANE 95);
        { a with lanes := { a.lanes with owlEnd := some (up.now+1) } };
      (TablesOk s) ∧ (s.on OWL_STATUS.BUSY = true) ∧ (owlLaneOk s (s.rd OWL_CTRL.LANE) = false)) :=
  ⟨tablesOk_of (by decide +kernel), by decide +kernel⟩

/-- States and operands that meet the hypotheses of `Obligations.LinkData`. -/
theorem witness_LinkData :
    (let s : State := lpo 11 5 { count := 3 }; let p : Port := 11; let l := s.link p; (TablesOk s) ∧ (l = s.link p) ∧
      (s.on CSP_STATUS.FC_RUN = true) ∧ (s.safe = false) ∧ (s.portPresent p = true) ∧ (s.laneState p ≠ 6)) :=
  ⟨tablesOk_of (by decide +kernel), rfl, by decide +kernel⟩

/-- States and operands that meet the hypotheses of `Obligations.LinkData`. -/
theorem witness_LinkData_2 :
    (let s : State := up.wr CSP_STATUS.FC_RUN 0; let p : Port := 11; let l := s.link p; (TablesOk s) ∧ (l = s.link p) ∧
      (s.on CSP_STATUS.FC_RUN = false ∨ s.safe = true)) :=
  ⟨tablesOk_of (by decide +kernel), rfl, by decide +kernel⟩

/-- States and operands that meet the hypotheses of `Obligations.LinkData`. -/
theorem witness_LinkData_3 :
    (let s : State := trained 11 { probes := 1 } 3; let p : Port := 11; let l := s.link p; (TablesOk s) ∧ (l = s.link p) ∧
      (s.on CSP_STATUS.FC_RUN = true) ∧ (s.safe = false) ∧ (s.portPresent p = true) ∧ (s.laneState p = 6) ∧
      (s.linkState p ≠ 0) ∧ (l.txWidth ≠ 0) ∧ (chooseSlot s p = .idle)) :=
  ⟨tablesOk_of (by decide +kernel), rfl, by decide +kernel⟩

/-- States and operands that meet the hypotheses of `Obligations.LinkData`. -/
theorem witness_LinkData_4 :
    (let s : State := trained 11 { probes := 1, replayAt := some 0, replay := [⟨0, 1, 0, false, 0, 2, [], false⟩, ⟨1, 1, 0, false, 0, 2, [], false⟩] } 3;
      let p : Port := 11; let l := s.link p; let f := (⟨0, 1, 0, false, 0, 2, [], false⟩ : SentFlit); (TablesOk s) ∧
      (l = s.link p) ∧ (s.on CSP_STATUS.FC_RUN = true) ∧ (s.safe = false) ∧ (s.portPresent p = true) ∧ (s.laneState p = 6) ∧
      (s.linkState p ≠ 0) ∧ (l.txWidth ≠ 0) ∧ (chooseSlot s p = .again f) ∧ (f.marked = false)) :=
  ⟨tablesOk_of (by decide +kernel), rfl, by decide +kernel⟩

/-- States and operands that meet the hypotheses of `Obligations.LinkData`. -/
theorem witness_LinkData_5 :
    (let s : State := trained 11 { probes := 1, replayAt := some 0, replay := [⟨0, 1, 0, false, 0, 2, [], true⟩] } 3;
      let p : Port := 11; let l := s.link p; let f := (⟨0, 1, 0, false, 0, 2, [], true⟩ : SentFlit); (TablesOk s) ∧
      (l = s.link p) ∧ (s.on CSP_STATUS.FC_RUN = true) ∧ (s.safe = false) ∧ (s.portPresent p = true) ∧ (s.laneState p = 6) ∧
      (s.linkState p ≠ 0) ∧ (l.txWidth ≠ 0) ∧ (chooseSlot s p = .again f) ∧ (f.marked = true)) :=
  ⟨tablesOk_of (by decide +kernel), rfl, by decide +kernel⟩

/-- States and operands that meet the hypotheses of `Obligations.LinkData`. -/
theorem witness_LinkData_6 :
    (let s : State := trained 11 { probes := 1, txWords := [(true, 5#64), (false, 6#64)] } 3; let p : Port := 11;
      let l := s.link p; let words := [(true, 5#64), (false, 6#64)]; (TablesOk s) ∧ (l = s.link p) ∧
      (s.on CSP_STATUS.FC_RUN = true) ∧ (s.safe = false) ∧ (s.portPresent p = true) ∧ (s.laneState p = 6) ∧
      (s.linkState p ≠ 0) ∧ (l.txWidth ≠ 0) ∧ (chooseSlot s p = .data none words) ∧ (s.sealed p = false)) :=
  ⟨tablesOk_of (by decide +kernel), rfl, by decide +kernel⟩

/-- States and operands that meet the hypotheses of `Obligations.LinkData`. -/
theorem witness_LinkData_7 :
    (let s : State := trained 11 { resuming := true, txWords := [(true, 5#64), (false, 6#64)] } 3; let p : Port := 11;
      let l := s.link p; (TablesOk s) ∧ (l = s.link p) ∧ (l.resuming = true ∨ l.waking = true)) :=
  ⟨tablesOk_of (by decide +kernel), rfl, by decide +kernel⟩

/-- States and operands that meet the hypotheses of `Obligations.LinkData`. -/
theorem witness_LinkData_8 :
    (let s : State := trained 11 { probes := 1, replayAt := some 0, replay := [⟨0, 1, 0, false, 0, 2, [], true⟩] } 3;
      let p : Port := 11; let l := s.link p; let a := 0; (TablesOk s) ∧ (l = s.link p) ∧ (l.resuming = false) ∧
      (l.waking = false) ∧ (l.replayAt = some a)) :=
  ⟨tablesOk_of (by decide +kernel), rfl, by decide +kernel⟩

set_option maxRecDepth 1000000 in
/-- States and operands that meet the hypotheses of `Obligations.LinkData`. -/
theorem witness_LinkData_9 :
    (let s : State := trained 11 { probes := 1 } 3; let p : Port := 11; let l := s.link p;
      let levels := List.replicate 8 ((List.range 136).map fun i => 3 * (i % 2));
      let s1 := (rxAllLanes 1 (List.zip (rxLanes s p) (levels ++ List.replicate l.rxWidth [])) s).1;
      let bytes := (rxAllLanes 1 (List.zip (rxLanes s p) (levels ++ List.replicate l.rxWidth [])) s).2.1; let bad := false;
      let word := (List.range 264).map (fun j => (bytes.getD (j % l.rxWidth) []).getD (j / l.rxWidth) 0); (TablesOk s) ∧
      (l = s.link p) ∧
      (rxAllLanes (8 / l.rxWidth) (List.zip (rxLanes s p) (levels ++ List.replicate l.rxWidth [])) s = (s1, bytes, bad)) ∧
      (word = (List.range 264).map (fun j => (bytes.getD (j % l.rxWidth) []).getD (j / l.rxWidth) 0)) ∧ (s.laneState p = 6) ∧
      (s.linkState p ≠ 0) ∧ (l.rxWidth ≠ 0) ∧ ((rxLanes s p).length = l.rxWidth) ∧
      ((bad = true ∨ (rsDecode word).find? (fun c => leAt c.1 252 4 = crc32c (c.1.take 252)) = none))) :=
  ⟨tablesOk_of (by decide +kernel), rfl, Prod.ext rfl (Prod.ext rfl (by decide +kernel)), rfl, by decide +kernel⟩

set_option maxRecDepth 1000000 in
/-- States and operands that meet the hypotheses of `Obligations.LinkData`. -/
theorem witness_LinkData_10 :
    (let s : State := trained 11 { probes := 1 } 3; let p : Port := 11; let l := s.link p; let levels := wireLevels;
      let s1 := (rxAllLanes 1 (List.zip (rxLanes s p) (levels ++ List.replicate l.rxWidth [])) s).1;
      let bytes := (rxAllLanes 1 (List.zip (rxLanes s p) (levels ++ List.replicate l.rxWidth [])) s).2.1;
      let s2 := s1.setLink p { s1.link p with rxFrames := ((s1.link p).rxFrames + 8 / l.rxWidth) % 2 ^ 32 };
      let word := (List.range 264).map (fun j => (bytes.getD (j % l.rxWidth) []).getD (j / l.rxWidth) 0); (TablesOk s) ∧
      (l = s.link p) ∧
      (rxAllLanes (8 / l.rxWidth) (List.zip (rxLanes s p) (levels ++ List.replicate l.rxWidth [])) s = (s1, bytes, false)) ∧
      (s2 = s1.setLink p { s1.link p with rxFrames := ((s1.link p).rxFrames + 8 / l.rxWidth) % 2 ^ 32 }) ∧
      (word = (List.range 264).map (fun j => (bytes.getD (j % l.rxWidth) []).getD (j / l.rxWidth) 0)) ∧ (∃ flit js,
      (rsDecode word).find? (fun c => leAt c.1 252 4 = crc32c (c.1.take 252)) = some (flit, js)) ∧ (s.laneState p = 6) ∧
      (s.linkState p ≠ 0) ∧ (l.rxWidth ≠ 0) ∧ ((rxLanes s p).length = l.rxWidth) ∧ ((s2.link p).resuming = false)) :=
  ⟨tablesOk_of (by decide +kernel), rfl, Prod.ext rfl (Prod.ext rfl (by decide +kernel)), rfl,
      rfl, pair_ex (by decide +kernel), by decide +kernel⟩

set_option maxRecDepth 1000000 in
/-- States and operands that meet the hypotheses of `Obligations.LinkData`. -/
theorem witness_LinkData_11 :
    (let s : State := trained 11 { probes := 1 } 3; let p : Port := 11; let l := s.link p;
      let levels := wireLevels.set 3 ((wireLevels.getD 3 []).set 9 ((wireLevels.getD 3 []).getD 9 0 ^^^ 1));
      let s1 := (rxAllLanes 1 (List.zip (rxLanes s p) (levels ++ List.replicate l.rxWidth [])) s).1;
      let bytes := (rxAllLanes 1 (List.zip (rxLanes s p) (levels ++ List.replicate l.rxWidth [])) s).2.1;
      let s2 := s1.setLink p { s1.link p with rxFrames := ((s1.link p).rxFrames + 8 / l.rxWidth) % 2 ^ 32 };
      let word := (List.range 264).map (fun j => (bytes.getD (j % l.rxWidth) []).getD (j / l.rxWidth) 0); (TablesOk s) ∧
      (l = s.link p) ∧
      (rxAllLanes (8 / l.rxWidth) (List.zip (rxLanes s p) (levels ++ List.replicate l.rxWidth [])) s = (s1, bytes, false)) ∧
      (s2 = s1.setLink p { s1.link p with rxFrames := ((s1.link p).rxFrames + 8 / l.rxWidth) % 2 ^ 32 }) ∧
      (word = (List.range 264).map (fun j => (bytes.getD (j % l.rxWidth) []).getD (j / l.rxWidth) 0)) ∧ (∃ flit js,
      (rsDecode word).find? (fun c => leAt c.1 252 4 = crc32c (c.1.take 252)) = some (flit, js)) ∧ (s.laneState p = 6) ∧
      (s.linkState p ≠ 0) ∧ (l.rxWidth ≠ 0) ∧ ((rxLanes s p).length = l.rxWidth) ∧ ((s2.link p).resuming = false)) :=
  ⟨tablesOk_of (by decide +kernel), rfl, Prod.ext rfl (Prod.ext rfl (by decide +kernel)), rfl,
      rfl, pair_ex (by decide +kernel), by decide +kernel⟩

/-- States and operands that meet the hypotheses of `Obligations.LinkData`. -/
theorem witness_LinkData_12 :
    (let s : State := ln 11 6 3 { probes := 1 }; let p : Port := 11; let l := s.link p; (TablesOk s) ∧ (l = s.link p) ∧
      (l.nakPending = false)) :=
  ⟨tablesOk_of (by decide +kernel), rfl, by decide +kernel⟩

/-- States and operands that meet the hypotheses of `Obligations.LinkData`. -/
theorem witness_LinkData_13 :
    (let s : State := ln 11 6 3 { nakPending := true }; let p : Port := 11; let l := s.link p; (TablesOk s) ∧ (l = s.link p) ∧
      (l.nakPending = true)) :=
  ⟨tablesOk_of (by decide +kernel), rfl, by decide +kernel⟩

/-- States and operands that meet the hypotheses of `Obligations.LinkData`. -/
theorem witness_LinkData_14 :
    (let s : State := late (ln 11 6 3 { nakPending := true, nakFrom := some 0 }); let p : Port := 11; let l := s.link p;
      (TablesOk s) ∧ (l = s.link p) ∧ (l.nakPending = true) ∧ (l.frozen = none) ∧
      (s.ran l.nakFrom (100 * s.rd (LNK_TMR0.NAK_TMO p)) = true)) :=
  ⟨tablesOk_of (by decide +kernel), rfl, by decide +kernel⟩

/-- States and operands that meet the hypotheses of `Obligations.LinkData`. -/
theorem witness_LinkData_15 :
    (let s : State := ln 11 6 3 { replayFrom := some 0, replay := [⟨0, 1, 0, false, 0, 2, [], false⟩] }; let p : Port := 11;
      let l := s.link p; (TablesOk s) ∧ (l = s.link p) ∧ (l.replay ≠ []) ∧ (l.frozen = none) ∧ (l.resuming = false) ∧
      (s.ran l.replayFrom (100 * s.rd (LNK_TMR0.REPLAY_TMO p)) = true) ∧ (s.linkState p ≠ 0)) :=
  ⟨tablesOk_of (by decide +kernel), rfl, by decide +kernel⟩

/-- States and operands that meet the hypotheses of `Obligations.LinkData`. -/
theorem witness_LinkData_16 :
    (let s : State := late (ln 11 6 3 { lockFrom := some 0 }); let p : Port := 11; let l := s.link p; (TablesOk s) ∧
      (l = s.link p) ∧ (s.linkState p ≠ 7) ∧ (s.ran l.lockFrom (100000 * s.rd (LNK_TMR0.LOCK_TMO p)) = true)) :=
  ⟨tablesOk_of (by decide +kernel), rfl, by decide +kernel⟩

/-- States and operands that meet the hypotheses of `Obligations.LinkData`. -/
theorem witness_LinkData_17 :
    (let s : State := late (ln 11 3 7 { retrainFrom := some (0, 7) }); let p : Port := 11; let l := s.link p; let t0 := 0;
      let rest := 7; (TablesOk s) ∧ (l = s.link p) ∧ (s.linkState p = 7) ∧ (l.retrainFrom = some (t0, rest)) ∧
      (s.ran (some t0) (100000 * s.rd (LNK_TMR0.LOCK_TMO p) + rest) = true)) :=
  ⟨tablesOk_of (by decide +kernel), rfl, by decide +kernel⟩

/-- States and operands that meet the hypotheses of `Obligations.LinkData`. -/
theorem witness_LinkData_18 :
    (let s : State := ln 11 6 1 { capEnd := some 0 }; let p : Port := 11; let l := s.link p; (TablesOk s) ∧ (l = s.link p) ∧
      (s.linkState p = 1) ∧ (s.due l.capEnd = true)) :=
  ⟨tablesOk_of (by decide +kernel), rfl, by decide +kernel⟩

/-- States and operands that meet the hypotheses of `Obligations.LinkData`. -/
theorem witness_LinkData_19 :
    (let s : State := ln 11 6 3 { capEnd := some 0 }; let p : Port := 11; let l := s.link p; let c := 2; let r := true;
      let t : State := linkDown s p (some c) r; (TablesOk s) ∧ (l = s.link p) ∧ (s.linkState p ≠ 0) ∧
      (t = linkDown s p (some c) r)) :=
  ⟨tablesOk_of (by decide +kernel), rfl, by decide +kernel, rfl⟩

/-- States and operands that meet the hypotheses of `Obligations.LinkData`. -/
theorem witness_LinkData_20 :
    (let s : State := (ln 11 6 3 { capEnd := some 0 }).wr (LNK_ERR.DOWN 11) 255; let p : Port := 11; let l := s.link p;
      let c := 2; let r := false; let t : State := linkDown s p (some c) r; (TablesOk s) ∧ (l = s.link p) ∧
      (s.linkState p ≠ 0) ∧ (t = linkDown s p (some c) r)) :=
  ⟨tablesOk_of (by decide +kernel), rfl, by decide +kernel, rfl⟩

/-- States and operands that meet the hypotheses of `Obligations.LinkControl`. -/
theorem witness_LinkControl :
    (let s : State := ln 11 6 3 { probes := 1 }; let p : Port := 11; let m := lmsg 1 (natLE 8 5);
      let u : State := (takeLinkMsg s p m).1; let at_ := (takeLinkMsg s p m).2; (TablesOk s) ∧ (takeLinkMsg s p m = (u, at_)) ∧
      (isLinkMsg m 1 = true) ∧ (s.linkState p ≠ 0) ∧ ((u.link p).resuming = false)) ∧
    (let s : State := ln 11 6 1 { probes := 1, echoes := 6 }; let p : Port := 11;
      let m := lmsg 2 (natLE 8 5 ++ natLE 8 100 ++ natLE 4 3); let u : State := (takeLinkMsg s p m).1;
      let at_ := (takeLinkMsg s p m).2; let l := u.link p; let rtt := at_ / 160000000 - leAt m 2 8 - leAt m 18 4;
      let ofs := (leAt m 10 8 : Int) + (rtt / 2 : Nat) - (at_ / 160000000 : Nat);
      let better := (match l.bestRtt with | some b => decide (rtt < b) | none => true);
      let l1 :=
        { l with echoes := l.echoes + 1, bestRtt := if better then some rtt else l.bestRtt, bestOfs := if better then ofs else l.bestOfs };
      (TablesOk s) ∧ (takeLinkMsg s p m = (u, at_)) ∧ (l = u.link p) ∧ (rtt = at_ / 160000000 - leAt m 2 8 - leAt m 18 4) ∧
      (ofs = (leAt m 10 8 : Int) + (rtt / 2 : Nat) - (at_ / 160000000 : Nat)) ∧
      (better = (match l.bestRtt with | some b => decide (rtt < b) | none => true)) ∧
      (l1 =
        { l with echoes := l.echoes + 1, bestRtt := if better then some rtt else l.bestRtt, bestOfs := if better then ofs else l.bestOfs }) ∧
      (isLinkMsg m 2 = true) ∧ (s.linkState p = 1) ∧ ((s.link p).capSent = false) ∧ (l.echoes < 7)) ∧
    (let s : State := ln 11 6 1 { probes := 1, echoes := 7, bestRtt := some 9 }; let p : Port := 11;
      let m := lmsg 2 (natLE 8 5 ++ natLE 8 100 ++ natLE 4 3); let u : State := (takeLinkMsg s p m).1;
      let at_ := (takeLinkMsg s p m).2; let l := u.link p; let rtt := at_ / 160000000 - leAt m 2 8 - leAt m 18 4;
      let ofs := (leAt m 10 8 : Int) + (rtt / 2 : Nat) - (at_ / 160000000 : Nat);
      let better := (match l.bestRtt with | some b => decide (rtt < b) | none => true);
      let l1 :=
        { l with echoes := l.echoes + 1, bestRtt := if better then some rtt else l.bestRtt, bestOfs := if better then ofs else l.bestOfs };
      (TablesOk s) ∧ (takeLinkMsg s p m = (u, at_)) ∧ (l = u.link p) ∧ (rtt = at_ / 160000000 - leAt m 2 8 - leAt m 18 4) ∧
      (ofs = (leAt m 10 8 : Int) + (rtt / 2 : Nat) - (at_ / 160000000 : Nat)) ∧
      (better = (match l.bestRtt with | some b => decide (rtt < b) | none => true)) ∧
      (l1 =
        { l with echoes := l.echoes + 1, bestRtt := if better then some rtt else l.bestRtt, bestOfs := if better then ofs else l.bestOfs }) ∧
      (isLinkMsg m 2 = true) ∧ (s.linkState p = 1) ∧ ((s.link p).capSent = false) ∧ (7 ≤ l.echoes)) ∧
    (let s : State := ln 11 6 1 { capSent := true }; let p : Port := 11; let m := (lmsg 3 []);
      let u : State := (takeLinkMsg s p m).1; let at_ := (takeLinkMsg s p m).2; let x := enterExchange u p;
      let v := (if u.linkState p = 2 then (if (x.link p).ownGen = (u.link p).ownGen then x else sendCap x p) else u);
      let w := putVcRun (v.setLink p { v.link p with farCap := some m }) p; (TablesOk s) ∧ (takeLinkMsg s p m = (u, at_)) ∧
      (x = enterExchange u p) ∧
      (v = (if u.linkState p = 2 then (if (x.link p).ownGen = (u.link p).ownGen then x else sendCap x p) else u)) ∧
      (w = putVcRun (v.setLink p { v.link p with farCap := some m }) p) ∧ (isLinkMsg m 3 = true) ∧ (s.linkState p ≠ 0) ∧
      ((u.link p).resuming = false) ∧ ((w.link p).capSent = true)) ∧
    (let s : State := ln 11 6 2 { capSent := true }; let p : Port := 11; let m := (lmsg 3 []);
      let u : State := (takeLinkMsg s p m).1; let at_ := (takeLinkMsg s p m).2; let x := enterExchange u p;
      let v := (if u.linkState p = 2 then (if (x.link p).ownGen = (u.link p).ownGen then x else sendCap x p) else u);
      let w := putVcRun (v.setLink p { v.link p with farCap := some m }) p; (TablesOk s) ∧ (takeLinkMsg s p m = (u, at_)) ∧
      (x = enterExchange u p) ∧
      (v = (if u.linkState p = 2 then (if (x.link p).ownGen = (u.link p).ownGen then x else sendCap x p) else u)) ∧
      (w = putVcRun (v.setLink p { v.link p with farCap := some m }) p) ∧ (isLinkMsg m 3 = true) ∧ (s.linkState p ≠ 0) ∧
      ((u.link p).resuming = false) ∧ ((w.link p).capSent = true)) ∧
    (let s : State := ln 11 6 1 { probes := 1 }; let p : Port := 11; let m := (lmsg 3 []);
      let u : State := (takeLinkMsg s p m).1; let at_ := (takeLinkMsg s p m).2; let x := enterExchange u p;
      let v := (if u.linkState p = 2 then (if (x.link p).ownGen = (u.link p).ownGen then x else sendCap x p) else u);
      let w := putVcRun (v.setLink p { v.link p with farCap := some m }) p; (TablesOk s) ∧ (takeLinkMsg s p m = (u, at_)) ∧
      (x = enterExchange u p) ∧
      (v = (if u.linkState p = 2 then (if (x.link p).ownGen = (u.link p).ownGen then x else sendCap x p) else u)) ∧
      (w = putVcRun (v.setLink p { v.link p with farCap := some m }) p) ∧ (isLinkMsg m 3 = true) ∧ (s.linkState p ≠ 0) ∧
      ((u.link p).resuming = false) ∧ ((w.link p).capSent = false)) ∧
    (let s : State := ln 11 6 3 { resuming := true }; let p : Port := 11; let m := lmsg 1 (natLE 8 5);
      let u : State := (takeLinkMsg s p m).1; let at_ := (takeLinkMsg s p m).2; (TablesOk s) ∧ (takeLinkMsg s p m = (u, at_)) ∧
      (s.linkState p ≠ 0) ∧ ((u.link p).resuming = true) ∧ (isLinkMsg m 1 = true)) ∧
    (let s : State := ln 11 6 3 { resuming := true }; let p : Port := 11; let m := (lmsg 3 []);
      let u : State := (takeLinkMsg s p m).1; let at_ := (takeLinkMsg s p m).2; (TablesOk s) ∧ (takeLinkMsg s p m = (u, at_)) ∧
      (s.linkState p ≠ 0) ∧ ((u.link p).resuming = true) ∧ (isLinkMsg m 3 = true)) ∧
    (let s : State := ln 11 6 1 { ownVerdict := some (0, 0), farCap := some (lmsg 3 []) }; let p : Port := 11;
      let m := lmsg 4 (natLE 2 0 ++ natLE 1 0); let u : State := (takeLinkMsg s p m).1; let at_ := (takeLinkMsg s p m).2;
      (TablesOk s) ∧ (takeLinkMsg s p m = (u, at_)) ∧ (isLinkMsg m 4 = true) ∧ (s.linkState p ≠ 0)) ∧
    (let s : State := ln 11 6 1 { ownVerdict := some (0, 0), farVerdict := some (0, 0), farCap := some (lmsg 3 []) };
      let p : Port := 11; let m := []; let u : State := (takeLinkMsg s p m).1; let at_ := (takeLinkMsg s p m).2; (TablesOk s) ∧
      (takeLinkMsg s p m = (u, at_)) ∧ (s.linkState p = 1) ∧
      ((∃ a b, currentVerdicts (s.link p) = (some a, some b) ∧ a = 0 ∧ b = 0))) ∧
    (let s : State := ln 11 6 1 { ownVerdict := some (1024, 0), farVerdict := some (0, 0), farCap := some (lmsg 3 []) };
      let p : Port := 11; let m := []; let u : State := (takeLinkMsg s p m).1; let at_ := (takeLinkMsg s p m).2;
      let c := (currentVerdicts (s.link p)).1.getD 0 ||| (currentVerdicts (s.link p)).2.getD 0; (TablesOk s) ∧
      (takeLinkMsg s p m = (u, at_)) ∧ (c = (currentVerdicts (s.link p)).1.getD 0 ||| (currentVerdicts (s.link p)).2.getD 0) ∧
      (s.linkState p = 1 ∨ s.linkState p = 3) ∧ (c ≠ 0) ∧ (c < 2 ^ 11)) ∧
    (let s : State := ln 11 6 2 { probes := 1 }; let p : Port := 11; let m := []; let u : State := (takeLinkMsg s p m).1;
      let at_ := (takeLinkMsg s p m).2; (TablesOk s) ∧ (takeLinkMsg s p m = (u, at_)) ∧ (s.fabricOpen = true) ∧
      (s.linkState p = 2)) :=
  ⟨⟨tablesOk_of (by decide +kernel), rfl, by decide +kernel⟩,
   ⟨tablesOk_of (by decide +kernel), rfl, rfl, rfl, rfl, rfl, rfl, by decide +kernel⟩,
   ⟨tablesOk_of (by decide +kernel), rfl, rfl, rfl, rfl, rfl, rfl, by decide +kernel⟩,
   ⟨tablesOk_of (by decide +kernel), rfl, rfl, rfl, rfl, by decide +kernel⟩,
   ⟨tablesOk_of (by decide +kernel), rfl, rfl, rfl, rfl, by decide +kernel⟩,
   ⟨tablesOk_of (by decide +kernel), rfl, rfl, rfl, rfl, by decide +kernel⟩,
   ⟨tablesOk_of (by decide +kernel), rfl, by decide +kernel⟩,
   ⟨tablesOk_of (by decide +kernel), rfl, by decide +kernel⟩,
   ⟨tablesOk_of (by decide +kernel), rfl, by decide +kernel⟩,
   ⟨tablesOk_of (by decide +kernel), rfl, by decide +kernel, ⟨0, 0, by decide +kernel⟩⟩,
   ⟨tablesOk_of (by decide +kernel), rfl, rfl, by decide +kernel⟩,
   ⟨tablesOk_of (by decide +kernel), rfl, by decide +kernel⟩⟩

/-- States and operands that meet the hypotheses of `Obligations.LinkControl`. -/
theorem witness_LinkControl_2 :
    (let s : State := ln 11 6 3 { probes := 1 }; let p : Port := 11; let m := []; let u : State := (takeLinkMsg s p m).1;
      let at_ := (takeLinkMsg s p m).2; (TablesOk s) ∧ (takeLinkMsg s p m = (u, at_)) ∧ (s.fabricOpen = true) ∧
      (s.linkState p ≠ 2)) ∧
    (let s : State := ln 11 7 5 { probes := 1, replay := [⟨0, 1, 0, false, 0, 2, [], false⟩] }; let p : Port := 11;
      let m := []; let u : State := (takeLinkMsg s p m).1; let at_ := (takeLinkMsg s p m).2; (TablesOk s) ∧
      (takeLinkMsg s p m = (u, at_)) ∧ (s.fabricOpen = true) ∧ (s.linkState p ≠ 0) ∧ (s.linkState p ≠ 7) ∧
      (6 ≤ s.laneState p) ∧ (s.laneState p ≤ 8)) ∧
    (let s : State := ln 11 5 5 { probes := 1 }; let p : Port := 11; let m := []; let u : State := (takeLinkMsg s p m).1;
      let at_ := (takeLinkMsg s p m).2; (TablesOk s) ∧ (takeLinkMsg s p m = (u, at_)) ∧ (s.fabricOpen = true) ∧
      (s.laneState p < 6)) :=
  ⟨⟨tablesOk_of (by decide +kernel), rfl, by decide +kernel⟩,
   ⟨tablesOk_of (by decide +kernel), rfl, by decide +kernel⟩,
   ⟨tablesOk_of (by decide +kernel), rfl, by decide +kernel⟩⟩

/-- States and operands that meet the hypotheses of `Obligations.LinkSleepWidth`. -/
theorem witness_LinkSleepWidth :
    (let s : State := ln 11 6 3 { probes := 1 }; let p : Port := 11; let l := s.link p; (TablesOk s) ∧ (l = s.link p) ∧
      (s.fabricOpen = true) ∧ (s.linkState p = 3)) ∧
    (let s : State := ln 11 6 3 { probes := 1 }; let p : Port := 11; let l := s.link p; (TablesOk s) ∧ (l = s.link p) ∧
      (s.fabricOpen = true) ∧ (s.linkState p = 3)) ∧
    (let s : State := ln 11 6 4 { probes := 1 }; let p : Port := 11; let l := s.link p; (TablesOk s) ∧ (l = s.link p) ∧
      (s.fabricOpen = true) ∧ (s.linkState p ≠ 3)) ∧
    (let s : State := (ln 11 6 3 { probes := 1 }).wr (LNK_CTRL.NO_SLEEP 11) 1; let p : Port := 11; let l := s.link p;
      let m := lmsg 0x10 (natLE 1 2); let u : State := (takeLinkMsg s p m).1; let deep := leAt m 2 1;
      let at_ := (takeLinkMsg s p m).2; (TablesOk s) ∧ (l = s.link p) ∧ (takeLinkMsg s p m = (u, at_)) ∧ (deep = leAt m 2 1) ∧
      (isLinkMsg m 0x10 = true) ∧ (s.linkState p ≠ 0) ∧ (s.on (LNK_CTRL.NO_SLEEP p) = true)) ∧
    (let s : State := (ln 11 6 3 { probes := 1 }).wr (SEA_LINK0.STATE 11) 3; let p : Port := 11; let l := s.link p;
      let m := lmsg 0x10 (natLE 1 2); let u : State := (takeLinkMsg s p m).1; let deep := leAt m 2 1;
      let at_ := (takeLinkMsg s p m).2; (TablesOk s) ∧ (l = s.link p) ∧ (takeLinkMsg s p m = (u, at_)) ∧ (deep = leAt m 2 1) ∧
      (isLinkMsg m 0x10 = true) ∧ (s.linkState p ≠ 0) ∧ (s.on (LNK_CTRL.NO_SLEEP p) = false) ∧ (rekeying s p = true)) ∧
    (let s : State := (ln 11 6 3 { probes := 1 }); let p : Port := 11; let l := s.link p; let m := lmsg 0x10 (natLE 1 2);
      let u : State := (takeLinkMsg s p m).1; let deep := leAt m 2 1; let at_ := (takeLinkMsg s p m).2; (TablesOk s) ∧
      (l = s.link p) ∧ (takeLinkMsg s p m = (u, at_)) ∧ (deep = leAt m 2 1) ∧ (isLinkMsg m 0x10 = true) ∧ (s.linkState p ≠ 0) ∧
      (s.on (LNK_CTRL.NO_SLEEP p) = false) ∧ (rekeying s p = false) ∧ (s.linkState p = 3)) ∧
    (let s : State := (ln 11 6 4 { sleepReq := some 1 }); let p : Port := 11; let l := s.link p;
      let m := lmsg 0x10 (natLE 1 2); let u : State := (takeLinkMsg s p m).1; let deep := leAt m 2 1;
      let at_ := (takeLinkMsg s p m).2; let own := 1; (TablesOk s) ∧ (l = s.link p) ∧ (takeLinkMsg s p m = (u, at_)) ∧
      (deep = leAt m 2 1) ∧ (isLinkMsg m 0x10 = true) ∧ (s.linkState p ≠ 0) ∧ (s.on (LNK_CTRL.NO_SLEEP p) = false) ∧
      (rekeying s p = false) ∧ (s.linkState p = 4) ∧ ((u.link p).sleepReq = some own)) ∧
    (let s : State := (ln 11 6 4 { sleepReq := some 1 }); let p : Port := 11; let l := s.link p;
      let m := lmsg 0x11 (natLE 1 2); let u : State := (takeLinkMsg s p m).1; let at_ := (takeLinkMsg s p m).2; (TablesOk s) ∧
      (l = s.link p) ∧ (takeLinkMsg s p m = (u, at_)) ∧ (isLinkMsg m 0x11 = true) ∧ (s.linkState p = 4) ∧
      ((u.link p).sleepReq.isSome = true)) ∧
    (let s : State := (ln 11 6 4 { sleepReq := some 1 }); let p : Port := 11; let l := s.link p;
      let m := lmsg 0x12 (natLE 1 2); let u : State := (takeLinkMsg s p m).1; let at_ := (takeLinkMsg s p m).2; (TablesOk s) ∧
      (l = s.link p) ∧ (takeLinkMsg s p m = (u, at_)) ∧ (isLinkMsg m 0x12 = true) ∧ (s.linkState p = 4) ∧
      (l.sleepReq.isSome = true)) ∧
    (let s : State := (ln 11 6 4 { sleepReq := some 1 }); let p : Port := 11; let l := s.link p;
      let m := lmsg 0x13 (natLE 1 2); let u : State := (takeLinkMsg s p m).1; let at_ := (takeLinkMsg s p m).2; (TablesOk s) ∧
      (l = s.link p) ∧ (takeLinkMsg s p m = (u, at_)) ∧ (isLinkMsg m 0x13 = true) ∧ (s.linkState p = 4)) ∧
    (let s : State := (ln 11 6 3 { probes := 1 }); let p : Port := 11; let l := s.link p; let m := lmsg 0x13 (natLE 1 2);
      let u : State := (takeLinkMsg s p m).1; let at_ := (takeLinkMsg s p m).2; (TablesOk s) ∧ (l = s.link p) ∧
      (takeLinkMsg s p m = (u, at_)) ∧ (isLinkMsg m 0x13 = true) ∧ (s.linkState p ≠ 4)) ∧
    (let s : State := ln 11 6 4 { sleepReq := some 1, sleepEnd := some 0 }; let p : Port := 11; let l := s.link p;
      (TablesOk s) ∧ (l = s.link p) ∧ (s.linkState p = 4) ∧ (l.sleepReq.isSome = true) ∧ (l.sleepAcked = none) ∧
      (s.due l.sleepEnd = true)) :=
  ⟨⟨tablesOk_of (by decide +kernel), rfl, by decide +kernel⟩,
   ⟨tablesOk_of (by decide +kernel), rfl, by decide +kernel⟩,
   ⟨tablesOk_of (by decide +kernel), rfl, by decide +kernel⟩,
   ⟨tablesOk_of (by decide +kernel), rfl, rfl, rfl, by decide +kernel⟩,
   ⟨tablesOk_of (by decide +kernel), rfl, rfl, rfl, by decide +kernel⟩,
   ⟨tablesOk_of (by decide +kernel), rfl, rfl, rfl, by decide +kernel⟩,
   ⟨tablesOk_of (by decide +kernel), rfl, rfl, rfl, by decide +kernel⟩,
   ⟨tablesOk_of (by decide +kernel), rfl, rfl, by decide +kernel⟩,
   ⟨tablesOk_of (by decide +kernel), rfl, rfl, by decide +kernel⟩,
   ⟨tablesOk_of (by decide +kernel), rfl, rfl, by decide +kernel⟩,
   ⟨tablesOk_of (by decide +kernel), rfl, rfl, by decide +kernel⟩,
   ⟨tablesOk_of (by decide +kernel), rfl, by decide +kernel⟩⟩

/-- States and operands that meet the hypotheses of `Obligations.LinkSleepWidth`. -/
theorem witness_LinkSleepWidth_2 :
    (let s : State := ln 11 6 4 { sleepReq := some 1, sleepAcked := some 2 }; let p : Port := 11; let l := s.link p;
      let way := 2; (TablesOk s) ∧ (l = s.link p) ∧ (TablesOk s) ∧ (l.sleepAcked = some way) ∧ (s.linkState p = 4) ∧
      (drained s p = true)) ∧
    (let s : State := ln 11 6 4 { sleepReq := some 1, sleepAcked := some 1 }; let p : Port := 11; let l := s.link p;
      let way := 1; (TablesOk s) ∧ (l = s.link p) ∧ (TablesOk s) ∧ (l.sleepAcked = some way) ∧ (s.linkState p = 4) ∧
      (drained s p = true)) ∧
    (let s : State := ln 11 6 4 { sleepReq := some 1 }; let p : Port := 11; let l := s.link p; (TablesOk s) ∧ (l = s.link p) ∧
      (s.linkState p = 4)) ∧
    (let s : State := ln 11 7 5 { probes := 1 }; let p : Port := 11; let l := s.link p; (TablesOk s) ∧ (l = s.link p) ∧
      (asleep s p = true) ∧ (s.power ≠ 2) ∧ (s.csp.entering ≠ some 2)) ∧
    (let s : State := (ln 11 7 5 { probes := 1 }).wr CSP_CFG.WAKE_SLOTS 1; let p : Port := 11; let l := s.link p;
      (TablesOk s) ∧ (l = s.link p) ∧ (asleep s p = true) ∧ (s.csp.slots < min (s.rd CSP_CFG.WAKE_SLOTS) (sleepers s).length)) ∧
    (let s : State := { (ln 11 7 5 { probes := 1 }).wr CSP_CFG.WAKE_SLOTS 1 with csp := { up.csp with slots := 1 } };
      let p : Port := 11; let l := s.link p; (TablesOk s) ∧ (l = s.link p) ∧ (asleep s p = true) ∧
      (min (s.rd CSP_CFG.WAKE_SLOTS) (sleepers s).length ≤ s.csp.slots) ∧ (s.csp.waking.contains p.val = false)) ∧
    (let s : State := ln 11 8 6 { probes := 1 }; let p : Port := 11; let l := s.link p; (TablesOk s) ∧ (l = s.link p) ∧
      (s.linkState p = 6) ∧ (s.laneState p = 8) ∧ ((s.lanePort p).timer = none)) ∧
    (let s : State := setLp (ln 11 7 5 { probes := 1 }) 11 { timer := some 7 }; let p : Port := 11; let l := s.link p;
      (TablesOk s) ∧ (l = s.link p) ∧ (s.laneState p = 7) ∧ (wakeGranted s p = true) ∧ ((s.lanePort p).timer.isSome = true)) ∧
    (let s : State := ln 11 7 5 { probes := 1 }; let p : Port := 11; let l := s.link p; (TablesOk s) ∧ (l = s.link p) ∧
      (s.laneState p = 7) ∧ ((s.lanePort p).timer = none ∨ wakeGranted s p = false)) ∧
    (let s : State := setLp (used11 (ln 11 8 6 { probes := 1 })) 11 { timer := some (up.now + 1) }; let p : Port := 11;
      let l := s.link p; let live := []; let ts1 : List CtlFrame := (tsF 0x1E); let ts2 : List CtlFrame := (tsF 0x2D);
      let v := shortTrained s p live (ts1.map fun f => (f.lane, f.ui, f.bytes)) (ts2.map fun f => (f.lane, f.ui, f.bytes));
      (TablesOk s) ∧ (l = s.link p) ∧
      (v = shortTrained s p live (ts1.map fun f => (f.lane, f.ui, f.bytes)) (ts2.map fun f => (f.lane, f.ui, f.bytes))) ∧
      (s.laneState p = 8) ∧ (wakeGranted s p = true) ∧ (shortReady v p = true)) ∧
    (let s : State := setLp (ln 11 8 6 { probes := 1 }) 11 { timer := some (up.now + 1) }; let p : Port := 11;
      let l := s.link p; let live := []; let ts1 : List CtlFrame := []; let ts2 : List CtlFrame := [];
      let v := shortTrained s p live (ts1.map fun f => (f.lane, f.ui, f.bytes)) (ts2.map fun f => (f.lane, f.ui, f.bytes));
      (TablesOk s) ∧ (l = s.link p) ∧
      (v = shortTrained s p live (ts1.map fun f => (f.lane, f.ui, f.bytes)) (ts2.map fun f => (f.lane, f.ui, f.bytes))) ∧
      (s.laneState p = 8) ∧ (wakeGranted s p = true) ∧ (shortReady v p = false)) ∧
    (let s : State := ln 11 6 6 { txNext := 8, rxExpect := 9 }; let p : Port := 11; let l := s.link p; (TablesOk s) ∧
      (l = s.link p) ∧ (s.linkState p = 5 ∨ s.linkState p = 6)) :=
  ⟨⟨tablesOk_of (by decide +kernel), rfl, tablesOk_of (by decide +kernel), by decide +kernel⟩,
   ⟨tablesOk_of (by decide +kernel), rfl, tablesOk_of (by decide +kernel), by decide +kernel⟩,
   ⟨tablesOk_of (by decide +kernel), rfl, by decide +kernel⟩,
   ⟨tablesOk_of (by decide +kernel), rfl, by decide +kernel⟩,
   ⟨tablesOk_of (by decide +kernel), rfl, by decide +kernel⟩,
   ⟨tablesOk_of (by decide +kernel), rfl, by decide +kernel⟩,
   ⟨tablesOk_of (by decide +kernel), rfl, by decide +kernel⟩,
   ⟨tablesOk_of (by decide +kernel), rfl, by decide +kernel⟩,
   ⟨tablesOk_of (by decide +kernel), rfl, by decide +kernel⟩,
   ⟨tablesOk_of (by decide +kernel), rfl, rfl, by decide +kernel⟩,
   ⟨tablesOk_of (by decide +kernel), rfl, rfl, by decide +kernel⟩,
   ⟨tablesOk_of (by decide +kernel), rfl, by decide +kernel⟩⟩

/-- States and operands that meet the hypotheses of `Obligations.LinkSleepWidth`. -/
theorem witness_LinkSleepWidth_3 :
    (let s : State := ln 11 6 6 { waking := true, wakeIdle := true, wakeMatch := true }; let p : Port := 11; let l := s.link p;
      (TablesOk s) ∧ (l = s.link p) ∧ (l.waking = true) ∧ (l.wakeIdle = true) ∧ (l.wakeMatch = true)) ∧
    (let s : State := ln 11 6 6 { waking := true, wakeIdle := true }; let p : Port := 11; let l := s.link p; (TablesOk s) ∧
      (l = s.link p) ∧ (l.waking = true) ∧ (l.wakeIdle = false ∨ l.wakeMatch = false)) ∧
    (let s : State := setLp (ln 11 8 6 { probes := 1 }) 11 { timer := some 1 }; let p : Port := 11; let l := s.link p;
      (TablesOk s) ∧ (l = s.link p) ∧ (s.laneState p = 8) ∧ (s.due (s.lanePort p).timer = true)) ∧
    (let s : State := (ln 11 6 3 { probes := 1 }).wr (LAN_PORT_STATUS.WIDTH_MAX 11) 2; let p : Port := 11; let l := s.link p;
      let m := lmsg 0x18 (natLE 1 8); let u : State := (takeLinkMsg s p m).1; let at_ := (takeLinkMsg s p m).2;
      let w := leAt m 2 1; (TablesOk s) ∧ (l = s.link p) ∧ (takeLinkMsg s p m = (u, at_)) ∧ (w = leAt m 2 1) ∧
      (isLinkMsg m 0x18 = true) ∧ (widthOfCode (s.rd (LAN_PORT_STATUS.WIDTH_MAX p)) < w)) ∧
    (let s : State := (ln 11 6 4 { probes := 1 }).wr (LAN_PORT_STATUS.WIDTH_MAX 11) 2; let p : Port := 11; let l := s.link p;
      let m := lmsg 0x18 (natLE 1 4); let u : State := (takeLinkMsg s p m).1; let at_ := (takeLinkMsg s p m).2;
      let w := leAt m 2 1; (TablesOk s) ∧ (l = s.link p) ∧ (takeLinkMsg s p m = (u, at_)) ∧ (w = leAt m 2 1) ∧
      (isLinkMsg m 0x18 = true) ∧ (w ≤ widthOfCode (s.rd (LAN_PORT_STATUS.WIDTH_MAX p))) ∧ ([2, 4, 8].contains w = true) ∧
      (s.linkState p ≠ 3 ∨ rekeying s p = true)) ∧
    (let s : State := (ln 11 6 3 { probes := 1 }).wr (LAN_PORT_STATUS.WIDTH_MAX 11) 2; let p : Port := 11; let l := s.link p;
      let m := lmsg 0x18 (natLE 1 4 ++ [0] ++ natLE 4 70000); let u : State := (takeLinkMsg s p m).1;
      let at_ := (takeLinkMsg s p m).2; let w := leAt m 2 1; (TablesOk s) ∧ (l = s.link p) ∧ (takeLinkMsg s p m = (u, at_)) ∧
      (w = leAt m 2 1) ∧ (isLinkMsg m 0x18 = true) ∧ (w ≤ widthOfCode (s.rd (LAN_PORT_STATUS.WIDTH_MAX p))) ∧
      ([2, 4, 8].contains w = true) ∧ (s.linkState p = 3) ∧ (rekeying s p = false) ∧ ((u.link p).widthReq = none)) ∧
    (let s : State := (ln 11 6 3 { widthReq := some (4, some 9) }).wr (LAN_PORT_STATUS.WIDTH_MAX 11) 2; let p : Port := 11;
      let l := s.link p; let m := lmsg 0x19 (natLE 1 4 ++ [0] ++ natLE 4 70000); let u : State := (takeLinkMsg s p m).1;
      let at_ := (takeLinkMsg s p m).2; let w := leAt m 2 1; let i := 9; (TablesOk s) ∧ (l = s.link p) ∧
      (takeLinkMsg s p m = (u, at_)) ∧ (w = leAt m 2 1) ∧ (isLinkMsg m 0x19 = true) ∧
      ((u.link p).widthReq = some (w, some i))) ∧
    (let s : State := (ln 11 6 3 { widthReq := some (4, some 9) }).wr (LAN_PORT_STATUS.WIDTH_MAX 11) 2; let p : Port := 11;
      let l := s.link p; let m := lmsg 0x1A (natLE 1 4 ++ [0] ++ natLE 4 70000); let u : State := (takeLinkMsg s p m).1;
      let at_ := (takeLinkMsg s p m).2; let w := leAt m 2 1; (TablesOk s) ∧ (l = s.link p) ∧ (takeLinkMsg s p m = (u, at_)) ∧
      (w = leAt m 2 1) ∧ (isLinkMsg m 0x1A = true)) ∧
    (let s : State := trained 11 { probes := 1 } 3; let p : Port := 11; let l := s.link p; let w := 4; let type := 0x18;
      (TablesOk s) ∧ (l = s.link p) ∧ (w < 256) ∧ (type = 0x18 ∨ type = 0x19)) ∧
    (let s : State := let a := trained 11 { probes := 1 } 3;
        a.setLink 11 { a.link 11 with txFrames := 0xFFFFFFFF, txWidth := 2 };
      let p : Port := 11; let l := s.link p; let w := 8; let type := 0x19; (TablesOk s) ∧ (l = s.link p) ∧ (w < 256) ∧
      (type = 0x18 ∨ type = 0x19)) ∧
    (let s : State := trained 11 { txFrames := 100, txWidthAt := some (4, 100), rxWidthAt := some (4, 200) } 3;
      let p : Port := 11; let l := s.link p; let w := 4; let i := 100; (TablesOk s) ∧ (l = s.link p) ∧
      (l.txWidthAt = some (w, i)) ∧ (indexReached l.txFrames i = true)) ∧
    (let s : State := trained 11 { rxFrames := 100, txWidthAt := some (4, 100), rxWidthAt := some (4, 100) } 3;
      let p : Port := 11; let l := s.link p; let w := 4; let i := 100; (TablesOk s) ∧ (l = s.link p) ∧
      (l.rxWidthAt = some (w, i)) ∧ (indexReached l.rxFrames i = true)) :=
  ⟨⟨tablesOk_of (by decide +kernel), rfl, by decide +kernel⟩,
   ⟨tablesOk_of (by decide +kernel), rfl, by decide +kernel⟩,
   ⟨tablesOk_of (by decide +kernel), rfl, by decide +kernel⟩,
   ⟨tablesOk_of (by decide +kernel), rfl, rfl, rfl, by decide +kernel⟩,
   ⟨tablesOk_of (by decide +kernel), rfl, rfl, rfl, by decide +kernel⟩,
   ⟨tablesOk_of (by decide +kernel), rfl, rfl, rfl, by decide +kernel⟩,
   ⟨tablesOk_of (by decide +kernel), rfl, rfl, rfl, by decide +kernel⟩,
   ⟨tablesOk_of (by decide +kernel), rfl, rfl, rfl, by decide +kernel⟩,
   ⟨tablesOk_of (by decide +kernel), rfl, by decide +kernel⟩,
   ⟨tablesOk_of (by decide +kernel), rfl, by decide +kernel⟩,
   ⟨tablesOk_of (by decide +kernel), rfl, by decide +kernel⟩,
   ⟨tablesOk_of (by decide +kernel), rfl, by decide +kernel⟩⟩

/-- States and operands that meet the hypotheses of `Obligations.LinkSleepWidth`. -/
theorem witness_LinkSleepWidth_4 :
    (let s : State := trained 11 { rxFrames := 100, txWidthAt := some (4, 100), oldWidth := some 4 } 3; let p : Port := 11;
      let l := s.link p; let w := l.oldWidth.getD l.txWidth; (TablesOk s) ∧ (l = s.link p) ∧
      (l.txWidthAt.isSome = true ∨ l.rxWidthAt.isSome = true) ∧ (w = l.oldWidth.getD l.txWidth)) :=
  ⟨tablesOk_of (by decide +kernel), rfl, by decide +kernel, rfl⟩

/-- States and operands that meet the hypotheses of `Obligations.LinkSealing` (SealRekey). -/
theorem witness_SealRekey :
    (let s : State := (((ln 11 6 3 { probes := 1 }).wr (SEA_LINK0.STATE 11) 2).wr SEA_STATUS.RNG_OK 1); let p : Port := 11;
      let k := s.sealLink p; (TablesOk s) ∧ (k = s.sealLink p) ∧ (s.fabricOpen = true) ∧ (s.rd (SEA_LINK0.STATE p) = 2) ∧
      (keysBusy s p = false) ∧ (s.on SEA_STATUS.RNG_OK = true)) ∧
    (let s : State := late ((ln 11 6 3 { probes := 1 }).wr (SEA_LINK0.STATE 11) 2 |>.wr SEA_LINK_CFG.REKEY_S 1 |>.wr SEA_STATUS.RNG_OK 1);
      let p : Port := 11; let k := s.sealLink p; (TablesOk s) ∧ (k = s.sealLink p) ∧
      (k.installed + ns (10 ^ 9 * s.rd SEA_LINK_CFG.REKEY_S) ≤ s.now) ∧ (s.rd (SEA_LINK0.STATE p) = 2) ∧
      (keysBusy s p = false) ∧ (s.on SEA_STATUS.RNG_OK = true)) ∧
    (let s : State := (((ln 11 6 3 { txKeys := [(0, {}), (1, {})] }).wr (SEA_LINK0.STATE 11) 2).wr SEA_STATUS.RNG_OK 1);
      let p : Port := 11; let k := s.sealLink p; (TablesOk s) ∧ (k = s.sealLink p) ∧ (s.fabricOpen = true) ∧
      (s.rd (SEA_LINK0.STATE p) = 2) ∧ (keysBusy s p = true)) ∧
    (let s : State := ((ln 11 6 3 { probes := 1 }).wr (SEA_LINK0.STATE 11) 2).wr SEA_STATUS.RNG_OK 0; let p : Port := 11;
      let k := s.sealLink p; (TablesOk s) ∧ (k = s.sealLink p) ∧ (s.fabricOpen = true) ∧ (s.rd (SEA_LINK0.STATE p) = 2) ∧
      (keysBusy s p = false) ∧ (s.on SEA_STATUS.RNG_OK = false)) ∧
    (let s : State :=
        ((ln 11 6 3 { probes := 1 }).wr SEA_STATUS.RNG_OK 1).setSealLink 11 { rekey := 1, retryEnd := some 5, tries := 2 };
      let p : Port := 11; let k := s.sealLink p; (TablesOk s) ∧ (k = s.sealLink p) ∧ (k.rekey = 1) ∧
      (s.due k.retryEnd = true) ∧ (k.tries < 3)) ∧
    (let s : State :=
        ((ln 11 6 3 { probes := 1 }).wr SEA_STATUS.RNG_OK 0).setSealLink 11 { rekey := 1, retryEnd := some 5, tries := 2 };
      let p : Port := 11; let k := s.sealLink p; (TablesOk s) ∧ (k = s.sealLink p) ∧ (k.rekey = 1) ∧
      (s.due k.retryEnd = true) ∧ (k.tries < 3)) ∧
    (let s : State := (ln 11 6 3 { probes := 1 }).setSealLink 11 { rekey := 1, retryEnd := some 5, tries := 3 };
      let p : Port := 11; let k := s.sealLink p; (TablesOk s) ∧ (k = s.sealLink p) ∧ (k.rekey = 1) ∧
      (s.due k.retryEnd = true) ∧ (3 ≤ k.tries)) ∧
    (let s : State := up; let p : Port := 11; let k := s.sealLink p; (TablesOk s) ∧ (k = s.sealLink p)) ∧
    (let s : State := up; let p : Port := 11; let k := s.sealLink p; (TablesOk s) ∧ (k = s.sealLink p) ∧
      (s.fabricOpen = true) ∧ (s.sea.aliasKey = 0)) ∧
    (let s : State := { up with sea := { up.sea with aliasKey := 5 } }; let p : Port := 11; let k := s.sealLink p;
      (TablesOk s) ∧ (k = s.sealLink p) ∧ (s.fabricOpen = true) ∧ (s.sea.aliasKey ≠ 0)) ∧
    (let s : State := up; let p : Port := 11; let k := s.sealLink p; (TablesOk s) ∧ (k = s.sealLink p)) :=
  ⟨⟨tablesOk_of (by decide +kernel), rfl, by decide +kernel⟩,
   ⟨tablesOk_of (by decide +kernel), rfl, by decide +kernel⟩,
   ⟨tablesOk_of (by decide +kernel), rfl, by decide +kernel⟩,
   ⟨tablesOk_of (by decide +kernel), rfl, by decide +kernel⟩,
   ⟨tablesOk_of (by decide +kernel), rfl, by decide +kernel⟩,
   ⟨tablesOk_of (by decide +kernel), rfl, by decide +kernel⟩,
   ⟨tablesOk_of (by decide +kernel), rfl, by decide +kernel⟩,
   ⟨tablesOk_of (by decide +kernel), rfl⟩,
   ⟨tablesOk_of (by decide +kernel), rfl, by decide +kernel⟩,
   ⟨tablesOk_of (by decide +kernel), rfl, by decide +kernel⟩,
   ⟨tablesOk_of (by decide +kernel), rfl⟩⟩

/-- States and operands that meet the hypotheses of `Obligations.LinkSealing` (SealExchange). -/
theorem witness_SealExchange :
    (let s : State := withAnchor (sgx { running := true }); let p : Port := 11;
      let m := bypassMsg 1 0x20 3 (natLE 2 9 ++ List.replicate 32 8 ++ List.replicate 8 3);
      let u : State := (takeLinkMsg s p m).1; let at_ := (takeLinkMsg s p m).2; let k := u.sealLink p; ∃ a, (TablesOk s) ∧
      (takeLinkMsg s p m = (u, at_)) ∧ (k = u.sealLink p) ∧ (u.sea.fuses.anchor = some a) ∧ (s.linkState p ≠ 0) ∧
      (isLinkMsg m 0x20 = true) ∧ (k.running = true) ∧ (a.take 8 = (m.drop 36).take 8)) ∧
    (let s : State := withAnchor (sgx { running := true }); let p : Port := 11;
      let m := bypassMsg 1 0x20 3 (natLE 2 9 ++ List.replicate 32 8 ++ List.replicate 8 4);
      let u : State := (takeLinkMsg s p m).1; let at_ := (takeLinkMsg s p m).2; let k := u.sealLink p; ∃ a, (TablesOk s) ∧
      (takeLinkMsg s p m = (u, at_)) ∧ (k = u.sealLink p) ∧ (u.sea.fuses.anchor = some a) ∧ (s.linkState p ≠ 0) ∧
      (isLinkMsg m 0x20 = true) ∧ (k.running = true) ∧ (a.take 8 ≠ (m.drop 36).take 8)) ∧
    (let s : State := withAnchor (sgx { egen := 9, running := true }); let p : Port := 11; let m := fm 0x21 9 1 5 [];
      let u : State := (takeLinkMsg s p m).1; let at_ := (takeLinkMsg s p m).2; let k := u.sealLink p;
      let v := (takeFrag u p 0x21 m).1; (TablesOk s) ∧ (takeLinkMsg s p m = (u, at_)) ∧ (k = u.sealLink p) ∧
      (takeFrag u p 0x21 m = (v, none)) ∧ (s.linkState p ≠ 0) ∧ (isLinkMsg m 0x21 = true) ∧ (k.running = true)) ∧
    (let s : State := withAnchor (sgx { egen := 9, running := true }); let p : Port := 11; let m := fm 0x21 9 0 1 [7];
      let u : State := (takeLinkMsg s p m).1; let at_ := (takeLinkMsg s p m).2; let k := u.sealLink p;
      let v := (takeFrag u p 0x21 m).1; ∃ d, (TablesOk s) ∧ (takeLinkMsg s p m = (u, at_)) ∧ (k = u.sealLink p) ∧
      (takeFrag u p 0x21 m = (v, some d)) ∧ (s.linkState p ≠ 0) ∧ (isLinkMsg m 0x21 = true) ∧ (k.running = true) ∧
      (credOk v p d = false)) ∧
    (let s : State := withAnchor (sgx { egen := 9, running := true }); let p : Port := 11; let m := fm 0x22 9 0 1 [7];
      let u : State := (takeLinkMsg s p m).1; let at_ := (takeLinkMsg s p m).2; let k := u.sealLink p;
      let v := (takeFrag u p 0x22 m).1; ∃ d, (TablesOk s) ∧ (takeLinkMsg s p m = (u, at_)) ∧ (k = u.sealLink p) ∧
      (takeFrag u p 0x22 m = (v, some d)) ∧ (s.linkState p ≠ 0) ∧ (isLinkMsg m 0x22 = true) ∧ (k.running = true) ∧
      ((v.sealLink p).farAlias = [])) ∧
    (let s : State := withAnchor (sgx { egen := 9, running := true, farAlias := pubOf 13 }); let p : Port := 11;
      let m := fm 0x22 9 0 1 [7]; let u : State := (takeLinkMsg s p m).1; let at_ := (takeLinkMsg s p m).2;
      let k := u.sealLink p; let v := (takeFrag u p 0x22 m).1;
      ∃ d, ∃ c, let nn := nonces (u.leader p) (v.sealLink p).nonce (v.sealLink p).farNonce; (TablesOk s) ∧
      (takeLinkMsg s p m = (u, at_)) ∧ (k = u.sealLink p) ∧ (takeFrag u p 0x22 m = (v, some d)) ∧
      ((v.link p).farCap = some c) ∧ (nn = nonces (u.leader p) (v.sealLink p).nonce (v.sealLink p).farNonce) ∧
      (s.linkState p ≠ 0) ∧ (isLinkMsg m 0x22 = true) ∧ (k.running = true) ∧
      (ecVerify (v.sealLink p).farAlias (ascii "KEX" ++ nn ++ natLE 4 (leAt c 8 3 % 2 ^ 20) ++ natLE 1 (leAt c 11 1 % 16) ++
        d.take 96) ((d.drop 96).take 96) = false)) ∧
    (let s : State := withAnchor (sgx { egen := 9, running := true, derived := some [[1],[2],[3],[4],[5]] });
      let p : Port := 11; let m := fm 0x23 9 0 1 [7]; let u : State := (takeLinkMsg s p m).1; let at_ := (takeLinkMsg s p m).2;
      let k := u.sealLink p; ∃ keys, (TablesOk s) ∧ (takeLinkMsg s p m = (u, at_)) ∧ (k = u.sealLink p) ∧
      (k.derived = some keys) ∧ (s.linkState p ≠ 0) ∧ (isLinkMsg m 0x23 = true) ∧ (k.running = true) ∧ (leAt m 2 1 = k.egen) ∧
      ((m.drop 4).take 16 ≠ confirmation keys (if u.leader p then 1 else 0))) ∧
    (let s : State := withAnchor (sgx { egen := 9, running := true, derived := some [[1],[2],[3],[4],[5]] });
      let p : Port := 11; let m := bypassMsg 1 0x23 1 (natLE 2 9 ++ confirmation [[1],[2],[3],[4],[5]] 0);
      let u : State := (takeLinkMsg s p m).1; let at_ := (takeLinkMsg s p m).2; let k := u.sealLink p; ∃ keys, ∃ s2, ∃ s3,
      (TablesOk s) ∧ (takeLinkMsg s p m = (u, at_)) ∧ (k = u.sealLink p) ∧ (k.derived = some keys) ∧
      (s2 = (installKeys u p 0 keys).setSealLink p { k with running := false, derived := none, installed := u.now }) ∧
      (s3 = ((((s2.wr (SEA_LINK0.STATE p) 2).wr (SEA_LINK0.KGEN p) 0).wr (SEA_LINK0.TX_PH p) 0).wr (SEA_LINK0.RX_PH p) 0)) ∧
      (s.linkState p ≠ 0) ∧ (isLinkMsg m 0x23 = true) ∧ (k.running = true) ∧ (leAt m 2 1 = k.egen) ∧
      ((m.drop 4).take 16 = confirmation keys (if u.leader p then 1 else 0))) ∧
    (let s : State := withAnchor (sgx { egen := 9, running := true, derived := some [[1],[2],[3],[4],[5]] });
      let p : Port := 11; let m := bypassMsg 1 0x26 1 (natLE 1 9 ++ natLE 1 3); let u : State := (takeLinkMsg s p m).1;
      let at_ := (takeLinkMsg s p m).2; let k := u.sealLink p; (TablesOk s) ∧ (takeLinkMsg s p m = (u, at_)) ∧
      (k = u.sealLink p) ∧ (s.linkState p ≠ 0) ∧ (isLinkMsg m 0x26 = true) ∧ (k.running = true) ∧ (leAt m 2 1 = k.egen)) ∧
    (let s : State := withAnchor (sgx { egen := 9, running := true, derived := some [[1],[2],[3],[4],[5]] });
      let p : Port := 11; let m := []; let u : State := (takeLinkMsg s p m).1; let at_ := (takeLinkMsg s p m).2;
      let k := u.sealLink p; (TablesOk s) ∧ (takeLinkMsg s p m = (u, at_)) ∧ (k = u.sealLink p) ∧ (s.linkState p ≠ 0)) ∧
    (let s : State := let a := ((sgx { egen := 9 }).wr (SEA_LINK0.STATE 11) 2);
        a.setLink 11 { a.link 11 with txKeys := [(0, {}), (1, {})] };
      let p : Port := 11; let m := fm 0x24 9 0 1 [7]; let u : State := (takeLinkMsg s p m).1; let at_ := (takeLinkMsg s p m).2;
      let k := u.sealLink p; let v := (takeFrag u p 0x24 m).1; ∃ d, (TablesOk s) ∧ (takeLinkMsg s p m = (u, at_)) ∧
      (k = u.sealLink p) ∧ (takeFrag u p 0x24 m = (v, some d)) ∧ (s.linkState p ≠ 0) ∧ (isLinkMsg m 0x24 = true) ∧
      (2 ≤ u.rd (SEA_LINK0.STATE p)) ∧ ((v.sealLink p).rekey ≠ 1 ∨ u.rd (LAN_PORT_FAR.FAR_NODE p) ≤ u.node) ∧
      (keysBusy v p = true) ∧ (nextUnused (v.sealLink p) = false)) ∧
    (let s : State := ((sgx { egen := 9 }).wr (SEA_LINK0.STATE 11) 2); let p : Port := 11; let m := fm 0x24 9 0 1 [7];
      let u : State := (takeLinkMsg s p m).1; let at_ := (takeLinkMsg s p m).2; let k := u.sealLink p;
      let v := (takeFrag u p 0x24 m).1; ∃ d, (TablesOk s) ∧ (takeLinkMsg s p m = (u, at_)) ∧ (k = u.sealLink p) ∧
      (takeFrag u p 0x24 m = (v, some d)) ∧ (s.linkState p ≠ 0) ∧ (isLinkMsg m 0x24 = true) ∧ (2 ≤ u.rd (SEA_LINK0.STATE p)) ∧
      ((v.sealLink p).rekey ≠ 1 ∨ u.rd (LAN_PORT_FAR.FAR_NODE p) ≤ u.node) ∧
      (keysBusy v p = false ∨ nextUnused (v.sealLink p) = true) ∧ (rekeySigOk v p d = false)) :=
  ⟨⟨(Option.get (((takeLinkMsg (withAnchor (sgx { running := true }) : State) (11 : Port) (bypassMsg 1 0x20 3 (natLE 2 9 ++
        List.replicate 32 8 ++ List.replicate 8 3))).1 : State).sea.fuses.anchor) (by decide +kernel)),
      tablesOk_of (by decide +kernel), rfl, rfl, (Option.some_get _).symm, by decide +kernel⟩,
   ⟨(Option.get (((takeLinkMsg (withAnchor (sgx { running := true }) : State) (11 : Port) (bypassMsg 1 0x20 3 (natLE 2 9 ++
        List.replicate 32 8 ++ List.replicate 8 4))).1 : State).sea.fuses.anchor) (by decide +kernel)),
      tablesOk_of (by decide +kernel), rfl, rfl, (Option.some_get _).symm, by decide +kernel⟩,
   ⟨tablesOk_of (by decide +kernel), rfl, rfl, rfl, by decide +kernel⟩,
   ⟨(Option.get (takeFrag ((takeLinkMsg (withAnchor (sgx { egen := 9, running := true }) : State) (11 : Port) (fm 0x21 9 0 1 [7])).1 : State) (11 : Port) 0x21 (fm 0x21 9 0 1 [7])).2 (by decide +kernel)),
      tablesOk_of (by decide +kernel), rfl, rfl, Prod.ext rfl (Option.some_get _).symm, by decide +kernel⟩,
   ⟨(Option.get (takeFrag ((takeLinkMsg (withAnchor (sgx { egen := 9, running := true }) : State) (11 : Port) (fm 0x22 9 0 1 [7])).1 : State) (11 : Port) 0x22 (fm 0x22 9 0 1 [7])).2 (by decide +kernel)),
      tablesOk_of (by decide +kernel), rfl, rfl, Prod.ext rfl (Option.some_get _).symm, by decide +kernel⟩,
   ⟨(Option.get (takeFrag ((takeLinkMsg (withAnchor (sgx { egen := 9, running := true, farAlias := pubOf 13 }) : State) (11 : Port) (fm 0x22 9 0 1 [7])).1 : State) (11 : Port) 0x22 (fm 0x22 9 0 1 [7])).2 (by decide +kernel)),
      (Option.get ((((takeFrag ((takeLinkMsg (withAnchor (sgx { egen := 9, running := true, farAlias := pubOf 13 }) : State) (11 : Port) (fm 0x22 9 0 1 [7])).1 : State) (11 : Port) 0x22 (fm 0x22 9 0 1 [7])).1).link (11 : Port)).farCap) (by decide +kernel)),
      tablesOk_of (by decide +kernel), rfl, rfl, Prod.ext rfl (Option.some_get _).symm, (Option.some_get _).symm, rfl,
      by decide +kernel⟩,
   ⟨(Option.get ((((takeLinkMsg (withAnchor (sgx { egen := 9, running := true, derived := some [[1],[2],[3],[4],[5]] }) : State) (11 : Port) (fm 0x23 9 0 1 [7])).1 : State).sealLink (11 : Port)).derived) (by decide +kernel)),
      tablesOk_of (by decide +kernel), rfl, rfl, (Option.some_get _).symm, by decide +kernel⟩,
   ⟨(Option.get ((((takeLinkMsg (withAnchor (sgx { egen := 9, running := true, derived := some [[1],[2],[3],[4],[5]] }) : State) (11 : Port) (bypassMsg 1 0x23 1 (natLE 2 9 ++
        confirmation [[1],[2],[3],[4],[5]] 0))).1 : State).sealLink (11 : Port)).derived) (by decide +kernel)),
      ((installKeys ((takeLinkMsg (withAnchor (sgx { egen := 9, running := true, derived := some [[1],[2],[3],[4],[5]] }) : State) (11 : Port) (bypassMsg 1 0x23 1 (natLE 2 9 ++
        confirmation [[1],[2],[3],[4],[5]] 0))).1 : State) (11 : Port) 0 (Option.get ((((takeLinkMsg (withAnchor (sgx { egen := 9, running := true, derived := some [[1],[2],[3],[4],[5]] }) : State) (11 : Port) (bypassMsg 1 0x23 1 (natLE 2 9 ++
        confirmation [[1],[2],[3],[4],[5]] 0))).1 : State).sealLink (11 : Port)).derived) (by decide +kernel))).setSealLink (11 : Port) { (((takeLinkMsg (withAnchor (sgx { egen := 9, running := true, derived := some [[1],[2],[3],[4],[5]] }) : State) (11 : Port) (bypassMsg 1 0x23 1 (natLE 2 9 ++ confirmation [[1],[2],[3],[4],[5]] 0))).1 : State).sealLink (11 : Port)) with running := false, derived := none, installed := ((takeLinkMsg (withAnchor (sgx { egen := 9, running := true, derived := some [[1],[2],[3],[4],[5]] }) : State) (11 : Port) (bypassMsg 1 0x23 1 (natLE 2 9 ++ confirmation [[1],[2],[3],[4],[5]] 0))).1 : State).now }),
      (((((((installKeys ((takeLinkMsg (withAnchor (sgx { egen := 9, running := true, derived := some [[1],[2],[3],[4],[5]] }) : State) (11 : Port) (bypassMsg 1 0x23 1 (natLE 2 9 ++
        confirmation [[1],[2],[3],[4],[5]] 0))).1 : State) (11 : Port) 0 (Option.get ((((takeLinkMsg (withAnchor (sgx { egen := 9, running := true, derived := some [[1],[2],[3],[4],[5]] }) : State) (11 : Port) (bypassMsg 1 0x23 1 (natLE 2 9 ++
        confirmation [[1],[2],[3],[4],[5]] 0))).1 : State).sealLink (11 : Port)).derived) (by decide +kernel))).setSealLink (11 : Port) { (((takeLinkMsg (withAnchor (sgx { egen := 9, running := true, derived := some [[1],[2],[3],[4],[5]] }) : State) (11 : Port) (bypassMsg 1 0x23 1 (natLE 2 9 ++ confirmation [[1],[2],[3],[4],[5]] 0))).1 : State).sealLink (11 : Port)) with running := false, derived := none, installed := ((takeLinkMsg (withAnchor (sgx { egen := 9, running := true, derived := some [[1],[2],[3],[4],[5]] }) : State) (11 : Port) (bypassMsg 1 0x23 1 (natLE 2 9 ++ confirmation [[1],[2],[3],[4],[5]] 0))).1 : State).now }).wr (SEA_LINK0.STATE (11 : Port)) 2).wr (SEA_LINK0.KGEN (11 : Port)) 0).wr (SEA_LINK0.TX_PH (11 : Port)) 0).wr (SEA_LINK0.RX_PH (11 : Port)) 0)),
      tablesOk_of (by decide +kernel), rfl, rfl, (Option.some_get _).symm, rfl, rfl, by decide +kernel⟩,
   ⟨tablesOk_of (by decide +kernel), rfl, rfl, by decide +kernel⟩,
   ⟨tablesOk_of (by decide +kernel), rfl, rfl, by decide +kernel⟩,
   ⟨(Option.get (takeFrag ((takeLinkMsg (let a := ((sgx { egen := 9 }).wr (SEA_LINK0.STATE 11) 2);
        a.setLink 11 { a.link 11 with txKeys := [(0, {}), (1, {})] } : State) (11 : Port) (fm 0x24 9 0 1 [7])).1 : State) (11 : Port) 0x24 (fm 0x24 9 0 1 [7])).2 (by decide +kernel)),
      tablesOk_of (by decide +kernel), rfl, rfl, Prod.ext rfl (Option.some_get _).symm, by decide +kernel⟩,
   ⟨(Option.get (takeFrag ((takeLinkMsg (((sgx { egen := 9 }).wr (SEA_LINK0.STATE 11) 2) : State) (11 : Port) (fm 0x24 9 0 1 [7])).1 : State) (11 : Port) 0x24 (fm 0x24 9 0 1 [7])).2 (by decide +kernel)),
      tablesOk_of (by decide +kernel), rfl, rfl, Prod.ext rfl (Option.some_get _).symm, by decide +kernel⟩⟩

/-- States and operands that meet the hypotheses of `Obligations.LinkSealing` (SealExchange). -/
theorem witness_SealExchange_2 :
    (let s : State := ((sgx { egen := 9, rekey := 1 }).wr (SEA_LINK0.STATE 11) 3); let p : Port := 11;
      let m := fm 0x25 9 0 1 [7]; let u : State := (takeLinkMsg s p m).1; let at_ := (takeLinkMsg s p m).2;
      let k := u.sealLink p; let v := (takeFrag u p 0x25 m).1; ∃ d, (TablesOk s) ∧ (takeLinkMsg s p m = (u, at_)) ∧
      (k = u.sealLink p) ∧ (takeFrag u p 0x25 m = (v, some d)) ∧ (s.linkState p ≠ 0) ∧ (isLinkMsg m 0x25 = true) ∧
      ((v.sealLink p).rekey = 1) ∧ (rekeySigOk v p d = false)) :=
  ⟨(Option.get (takeFrag ((takeLinkMsg (((sgx { egen := 9, rekey := 1 }).wr (SEA_LINK0.STATE 11) 3) : State) (11 : Port) (fm 0x25 9 0 1 [7])).1 : State) (11 : Port) 0x25 (fm 0x25 9 0 1 [7])).2 (by decide +kernel)),
      tablesOk_of (by decide +kernel), rfl, rfl, Prod.ext rfl (Option.some_get _).symm, by decide +kernel⟩

/-- States and operands that meet the hypotheses of `Obligations.CollectivePackets`. -/
theorem witness_CollectivePackets :
    (let s : State := up; let p := rdy 12 0 0 0; let u : State := takeDelivered (drowseExit s) p; let op := 0x20; let i := 11;
      (u = takeDelivered (drowseExit s) p) ∧ (p.opcode = op) ∧ (s.fabricOpen = true) ∧ (i = streamOf p.src p.tc) ∧
      (p.intact = false)) :=
  ⟨rfl, by decide +kernel⟩

/-- States and operands that meet the hypotheses of `Obligations.CollectivePackets`. -/
theorem witness_CollectivePackets_2 :
    (let s : State := up; let p := (rdy 12 0 0 0).seal; let u : State := takeDelivered (drowseExit s) p; let op := 0x20;
      let i := 11; (u = takeDelivered (drowseExit s) p) ∧ (p.opcode = op) ∧ (s.fabricOpen = true) ∧ (i = streamOf p.src p.tc) ∧
      (p.intact = true) ∧ (pktAge u p ≤ u.rd XPT_CFG.PKT_LIFE) ∧ ((u.peer i).rxState = 0)) :=
  ⟨rfl, by decide +kernel⟩

/-- States and operands that meet the hypotheses of `Obligations.CollectivePackets`. -/
theorem witness_CollectivePackets_3 :
    (let s : State := upP { rxState := 3 }; let p := (cpk 0x21 0 (List.replicate 16 0)).seal;
      let u : State := takeDelivered (drowseExit s) p; let op := 0x21; let i := 11; (u = takeDelivered (drowseExit s) p) ∧
      (p.opcode = op) ∧ (s.fabricOpen = true) ∧ (i = streamOf p.src p.tc) ∧ (p.intact = true) ∧
      (pktAge u p ≤ u.rd XPT_CFG.PKT_LIFE) ∧ ((u.peer i).rxState ≠ 0) ∧ ((u.peer i).rxState ≠ 1)) :=
  ⟨rfl, by decide +kernel⟩

/-- States and operands that meet the hypotheses of `Obligations.CollectivePackets`. -/
theorem witness_CollectivePackets_4 :
    (let s : State := upP { rxState := 1, rxStag := 8 }; let p := (cpk 0x22 0 (List.replicate 16 0)).seal;
      let u : State := takeDelivered (drowseExit s) p; let op := 0x22; let i := 11; (u = takeDelivered (drowseExit s) p) ∧
      (p.opcode = op) ∧ (s.fabricOpen = true) ∧ (i = streamOf p.src p.tc) ∧ (p.intact = true) ∧
      (pktAge u p ≤ u.rd XPT_CFG.PKT_LIFE) ∧ ((u.peer i).rxState = 1) ∧ (p.stag ≠ (u.peer i).rxStag)) :=
  ⟨rfl, by decide +kernel⟩

/-- States and operands that meet the hypotheses of `Obligations.CollectivePackets`. -/
theorem witness_CollectivePackets_5 :
    (let s : State := upP rx1; let p := ({ cpk 0x23 0 (List.replicate 24 0) with seq := 600 }).seal;
      let u : State := takeDelivered (drowseExit s) p; let op := 0x23; let i := 11;
      let d := (p.seq + 65536 - (u.peer i).rxBase) % 65536; (u = takeDelivered (drowseExit s) p) ∧
      (d = (p.seq + 65536 - (u.peer i).rxBase) % 65536) ∧ (p.opcode = op) ∧ (s.fabricOpen = true) ∧ (i = streamOf p.src p.tc) ∧
      (p.intact = true) ∧ (pktAge u p ≤ u.rd XPT_CFG.PKT_LIFE) ∧ ((u.peer i).rxState = 1) ∧ (p.stag = (u.peer i).rxStag) ∧
      (512 ≤ d ∧ d < 65024)) :=
  ⟨rfl, rfl, by decide +kernel⟩

/-- States and operands that meet the hypotheses of `Obligations.CollectivePackets`. -/
theorem witness_CollectivePackets_6 :
    (let s : State := upP rx1; let p := (rdy 12 0 0 0).seal; let u : State := takeDelivered (drowseExit s) p; let op := 0x20;
      let i := 11; let d := (p.seq + 65536 - (u.peer i).rxBase) % 65536; let v := applyAcked u i p;
      (u = takeDelivered (drowseExit s) p) ∧ (d = (p.seq + 65536 - (u.peer i).rxBase) % 65536) ∧ (v = applyAcked u i p) ∧
      (∃ w r, markAccepted v i p.seq = some w ∧ freeRec w = some r) ∧ (p.opcode = op) ∧ (s.fabricOpen = true) ∧
      (i = streamOf p.src p.tc) ∧ (p.intact = true) ∧ (pktAge u p ≤ u.rd XPT_CFG.PKT_LIFE) ∧ ((u.peer i).rxState = 1) ∧
      (p.stag = (u.peer i).rxStag) ∧ (d < 512) ∧ (bitOf (u.peer i).bmp d = false)) :=
  ⟨rfl, rfl, rfl, accept_ex (by decide +kernel), by decide +kernel⟩

/-- States and operands that meet the hypotheses of `Obligations.CollectivePackets`. -/
theorem witness_CollectivePackets_7 :
    (let s : State := upP rx1; let p := ({ cpk 0x24 0 (List.replicate 24 0) with seq := 0 }).seal;
      let u : State := takeDelivered (drowseExit s) p; let op := 0x24; let i := 11;
      let d := (p.seq + 65536 - (u.peer i).rxBase) % 65536; let v := applyAcked u i p; (u = takeDelivered (drowseExit s) p) ∧
      (d = (p.seq + 65536 - (u.peer i).rxBase) % 65536) ∧ (v = applyAcked u i p) ∧
      (∃ w r, markAccepted v i p.seq = some w ∧ freeRec w = some r) ∧ (p.opcode = op) ∧ (s.fabricOpen = true) ∧
      (i = streamOf p.src p.tc) ∧ (p.intact = true) ∧ (pktAge u p ≤ u.rd XPT_CFG.PKT_LIFE) ∧ ((u.peer i).rxState = 1) ∧
      (p.stag = (u.peer i).rxStag) ∧ (d < 512) ∧ (bitOf (u.peer i).bmp d = false)) :=
  ⟨rfl, rfl, rfl, accept_ex (by decide +kernel), by decide +kernel⟩

/-- States and operands that meet the hypotheses of `Obligations.CollectivePackets`. -/
theorem witness_CollectivePackets_8 :
    (let s : State := upP rx1; let p := ({ cpk 0x26 0 (List.replicate 32 0) with seq := 0 }).seal;
      let u : State := takeDelivered (drowseExit s) p; let op := 0x26; let i := 11;
      let d := (p.seq + 65536 - (u.peer i).rxBase) % 65536; let v := applyAcked u i p; (u = takeDelivered (drowseExit s) p) ∧
      (d = (p.seq + 65536 - (u.peer i).rxBase) % 65536) ∧ (v = applyAcked u i p) ∧
      (∃ w r, markAccepted v i p.seq = some w ∧ freeRec w = some r) ∧ (p.opcode = op) ∧ (s.fabricOpen = true) ∧
      (i = streamOf p.src p.tc) ∧ (p.intact = true) ∧ (pktAge u p ≤ u.rd XPT_CFG.PKT_LIFE) ∧ ((u.peer i).rxState = 1) ∧
      (p.stag = (u.peer i).rxStag) ∧ (d < 512) ∧ (bitOf (u.peer i).bmp d = false)) :=
  ⟨rfl, rfl, rfl, accept_ex (by decide +kernel), by decide +kernel⟩

/-- States and operands that meet the hypotheses of `Obligations.CollectivePackets`. -/
theorem witness_CollectivePackets_9 :
    (let s : State := upP rx1; let p := ({ cpk 0x25 0 (List.replicate 16 0) with seq := 0 }).seal;
      let u : State := takeDelivered (drowseExit s) p; let op := 0x25; let i := 11;
      let d := (p.seq + 65536 - (u.peer i).rxBase) % 65536; let v := applyAcked u i p; (u = takeDelivered (drowseExit s) p) ∧
      (d = (p.seq + 65536 - (u.peer i).rxBase) % 65536) ∧ (v = applyAcked u i p) ∧
      (∃ w r, markAccepted v i p.seq = some w ∧ freeRec w = some r) ∧ (p.opcode = op) ∧ (s.fabricOpen = true) ∧
      (i = streamOf p.src p.tc) ∧ (p.intact = true) ∧ (pktAge u p ≤ u.rd XPT_CFG.PKT_LIFE) ∧ ((u.peer i).rxState = 1) ∧
      (p.stag = (u.peer i).rxStag) ∧ (d < 512) ∧ (bitOf (u.peer i).bmp d = false)) :=
  ⟨rfl, rfl, rfl, accept_ex (by decide +kernel), by decide +kernel⟩

/-- States and operands that meet the hypotheses of `Obligations.CollectiveDecisions`. -/
theorem witness_CollectiveDecisions :
    (let s : State := up; let p := rdy 12 0 0 0; let g := p.window % 4096; let n := p.offset % 65536; let w := s.group g;
      let st := stVERSION; (g = p.window % 4096) ∧ (n = p.offset % 65536) ∧ (w = s.group g) ∧ (0x20 ≤ p.opcode) ∧
      (p.opcode ≤ 0x26) ∧
      ((s.fenced = true ∧ st = stFENCED) ∨ (s.fenced = false ∧ w.state = 0 ∧ st = stVERSION) ∨ (s.fenced =
        false ∧ p.opcode ≠ 0x21 ∧ p.opcode ≠ 0x22 ∧ leAt p.payload 0 4 ≠ w.tag ∧ st = stVERSION))) ∧
    (let s : State := { up with pins := { up.pins with testFence := true } }; let p := rdy 12 0 0 0; let g := p.window % 4096;
      let n := p.offset % 65536; let w := s.group g; let st := stFENCED; (g = p.window % 4096) ∧ (n = p.offset % 65536) ∧
      (w = s.group g) ∧ (0x20 ≤ p.opcode) ∧ (p.opcode ≤ 0x26) ∧
      ((s.fenced = true ∧ st = stFENCED) ∨ (s.fenced = false ∧ w.state = 0 ∧ st = stVERSION) ∨ (s.fenced =
        false ∧ p.opcode ≠ 0x21 ∧ p.opcode ≠ 0x22 ∧ leAt p.payload 0 4 ≠ w.tag ∧ st = stVERSION))) ∧
    (let s : State := upY grp {}; let p := cpk 0x20 12 (List.replicate 24 0); let g := p.window % 4096;
      let n := p.offset % 65536; let w := s.group g; let st := stVERSION; (g = p.window % 4096) ∧ (n = p.offset % 65536) ∧
      (w = s.group g) ∧ (0x20 ≤ p.opcode) ∧ (p.opcode ≤ 0x26) ∧
      ((s.fenced = true ∧ st = stFENCED) ∨ (s.fenced = false ∧ w.state = 0 ∧ st = stVERSION) ∨ (s.fenced =
        false ∧ p.opcode ≠ 0x21 ∧ p.opcode ≠ 0x22 ∧ leAt p.payload 0 4 ≠ w.tag ∧ st = stVERSION))) ∧
    (let s : State := upY grp {}; let p := ({ rdy 12 0 0 0 with pkey := 7 } : Pkt); let g := p.window % 4096;
      let n := p.offset % 65536; let w := s.group g; (g = p.window % 4096) ∧ (n = p.offset % 65536) ∧ (w = s.group g) ∧
      (0x20 ≤ p.opcode) ∧ (p.opcode ≤ 0x26) ∧ (s.fenced = false) ∧ (w.state ≠ 0) ∧
      ((p.opcode ≠ 0x21 → p.opcode ≠ 0x22 → leAt p.payload 0 4 = w.tag)) ∧ (p.pkey ≠ w.pkey)) ∧
    (let s : State := upY grp {}; let p := ({ cpk 0x21 12 [] with pkey := 7 } : Pkt); let g := p.window % 4096;
      let n := p.offset % 65536; let w := s.group g; (g = p.window % 4096) ∧ (n = p.offset % 65536) ∧ (w = s.group g) ∧
      (0x20 ≤ p.opcode) ∧ (p.opcode ≤ 0x26) ∧ (s.fenced = false) ∧ (w.state ≠ 0) ∧
      ((p.opcode ≠ 0x21 → p.opcode ≠ 0x22 → leAt p.payload 0 4 = w.tag)) ∧ (p.pkey ≠ w.pkey)) ∧
    (let s : State := upY { grp with state := 2 } {}; let p := rdy 12 0 0 0; let g := p.window % 4096;
      let n := p.offset % 65536; let w := s.group g; (g = p.window % 4096) ∧ (n = p.offset % 65536) ∧ (w = s.group g) ∧
      (0x20 ≤ p.opcode) ∧ (p.opcode ≤ 0x26) ∧ (s.fenced = false) ∧ (w.state ≠ 0) ∧
      ((p.opcode ≠ 0x21 → p.opcode ≠ 0x22 → leAt p.payload 0 4 = w.tag)) ∧ (p.pkey = w.pkey) ∧ (w.state = 2) ∧
      (p.opcode ≠ 0x25) ∧ (p.opcode ≠ 0x26)) ∧
    (let s : State := upY { grp with state := 3 } {}; let p := rdy 12 0 0 0; let g := p.window % 4096;
      let n := p.offset % 65536; let w := s.group g; (g = p.window % 4096) ∧ (n = p.offset % 65536) ∧ (w = s.group g) ∧
      (0x20 ≤ p.opcode) ∧ (p.opcode ≤ 0x26) ∧ (s.fenced = false) ∧ (w.state ≠ 0) ∧
      ((p.opcode ≠ 0x21 → p.opcode ≠ 0x22 → leAt p.payload 0 4 = w.tag)) ∧ (p.pkey = w.pkey) ∧ (w.state = 3) ∧
      (p.opcode ≠ 0x25)) ∧
    (let s : State := upY { grp with endedSt := [(9, some 4)] } {}; let p := rdy 9 0 0 0; let g := p.window % 4096;
      let n := p.offset % 65536; let w := s.group g; let st := 4; (g = p.window % 4096) ∧ (n = p.offset % 65536) ∧
      (w = s.group g) ∧ (0x20 ≤ p.opcode) ∧ (p.opcode ≤ 0x26) ∧ (s.fenced = false) ∧ (w.state ≠ 0) ∧
      ((p.opcode ≠ 0x21 → p.opcode ≠ 0x22 → leAt p.payload 0 4 = w.tag)) ∧ (p.pkey = w.pkey) ∧ (w.state = 1) ∧
      (p.opcode ≠ 0x25) ∧ (endedWith s g n = some st)) ∧
    (let s : State := upY grp {}; let p := rdy 12 8 0 0; let g := p.window % 4096; let n := p.offset % 65536;
      let w := s.group g; (g = p.window % 4096) ∧ (n = p.offset % 65536) ∧ (w = s.group g) ∧ (0x20 ≤ p.opcode) ∧
      (p.opcode ≤ 0x26) ∧ (collRefused s p = none) ∧ (p.opcode = 0x20) ∧ (findStep s g n = none) ∧
      ((∀ o, findSto s g n = some o → o.be = none)) ∧ (s.yar.grants.length < 16384)) ∧
    (let p := rdy 12 8 0 0; let g := p.window % 4096;
      let s : State := upY grp { stoats := [{ g := 9, step := 12, be := some (35, 4) }] }; let n := p.offset % 65536;
      let w := s.group g; let o := ({ g := 9, step := 12, be := some (35, 4) } : StoOp); (g = p.window % 4096) ∧
      (n = p.offset % 65536) ∧ (w = s.group g) ∧ (0x20 ≤ p.opcode) ∧ (p.opcode ≤ 0x26) ∧ (collRefused s p = none) ∧
      (p.opcode = 0x20) ∧ (findStep s g n = none) ∧ (findSto s g n = some o) ∧ (o.be.isSome = true)) ∧
    (let s : State := upY grp { steps := [(4, yst 3 4096 4096 0)] }; let p := ({ rdy 12 8 0 0 with fn := 1 } : Pkt);
      let g := p.window % 4096; let n := p.offset % 65536; let w := s.group g; let y := 4; let v := yst 3 4096 4096 0;
      (g = p.window % 4096) ∧ (n = p.offset % 65536) ∧ (w = s.group g) ∧ (0x20 ≤ p.opcode) ∧ (p.opcode ≤ 0x26) ∧
      (collRefused s p = none) ∧ (p.opcode = 0x20) ∧ (findStep s g n = some (y, v)) ∧
      (v.phase ≠ p.fn ∨ v.ga ≠ leAt p.payload 8 8 ∨ v.gc ≠ leAt p.payload 16 8)) ∧
    (let s : State := upY grp { steps := [(4, yst 3 4096 4096 0)] }; let p := ({ rdy 12 4096 0 0 with fn := 3 } : Pkt);
      let g := p.window % 4096; let n := p.offset % 65536; let w := s.group g; let y := 4; let v := yst 3 4096 4096 0;
      (g = p.window % 4096) ∧ (n = p.offset % 65536) ∧ (w = s.group g) ∧ (0x20 ≤ p.opcode) ∧ (p.opcode ≤ 0x26) ∧
      (collRefused s p = none) ∧ (p.opcode = 0x20) ∧ (findStep s g n = some (y, v)) ∧ (v.phase = p.fn) ∧
      (v.ga = leAt p.payload 8 8) ∧ (v.gc = leAt p.payload 16 8) ∧ (bitsOf p.offset 24 16 < segCount v.len)) :=
  ⟨⟨rfl, rfl, rfl, by decide +kernel⟩,
   ⟨rfl, rfl, rfl, by decide +kernel⟩,
   ⟨rfl, rfl, rfl, by decide +kernel⟩,
   ⟨rfl, rfl, rfl, by decide +kernel⟩,
   ⟨rfl, rfl, rfl, by decide +kernel⟩,
   ⟨rfl, rfl, rfl, by decide +kernel⟩,
   ⟨rfl, rfl, rfl, by decide +kernel⟩,
   ⟨rfl, rfl, rfl, by decide +kernel⟩,
   ⟨rfl, rfl, rfl, by decide +kernel⟩,
   ⟨rfl, rfl, rfl, by decide +kernel⟩,
   ⟨rfl, rfl, rfl, by decide +kernel⟩,
   ⟨rfl, rfl, rfl, by decide +kernel⟩⟩

/-- States and operands that meet the hypotheses of `Obligations.CollectiveDecisions`. -/
theorem witness_CollectiveDecisions_2 :
    (let s : State := upY grp {}; let p := cpk 0x21 12 [1,2,3,4]; let g := p.window % 4096; let n := p.offset % 65536;
      let w := s.group g; (g = p.window % 4096) ∧ (n = p.offset % 65536) ∧ (w = s.group g) ∧ (0x20 ≤ p.opcode) ∧
      (p.opcode ≤ 0x26) ∧ (collRefused s p = none) ∧ (p.opcode = 0x21 ∨ p.opcode = 0x22) ∧ (findStep s g n = none)) ∧
    (let s : State := upY grp { steps := [(4, { yst 3 4096 4096 0 with segs := [(0, { kids := [⟨1, true, false, 0, [], [], []⟩] })] })] };
      let p := cpk 0x21 (collOff 12 0 0 0 false false) (List.replicate 16 0); let g := p.window % 4096;
      let n := p.offset % 65536; let w := s.group g; let y := 4;
      let v := ({ yst 3 4096 4096 0 with segs := [(0, { kids := [⟨1, true, false, 0, [], [], []⟩] })] } : YStep);
      let k := bitsOf p.offset 24 16; let q := v.seg k; let m := min 65536 (redBytes w v k - 65536 * q.slice);
      let c := (⟨1, true, false, 0, [], [], []⟩ : SliceIn); (g = p.window % 4096) ∧ (n = p.offset % 65536) ∧ (w = s.group g) ∧
      (k = bitsOf p.offset 24 16) ∧ (q = v.seg k) ∧ (m = min 65536 (redBytes w v k - 65536 * q.slice)) ∧ (0x20 ≤ p.opcode) ∧
      (p.opcode ≤ 0x26) ∧ (collRefused s p = none) ∧ (p.opcode = 0x21) ∧ (findStep s g n = some (y, v)) ∧ (v.g = g) ∧
      (q.kids.find? (fun c => w.nbNode c.nb = p.src) = some c) ∧ (c.granted = true) ∧ (c.complete = false) ∧
      (q.passing = false) ∧ (bitsOf p.offset 28 25 = q.slice) ∧ (bitsOf p.offset 44 29 + p.payload.length ≤ m) ∧
      (c.declared + p.payload.length < m)) ∧
    (let s : State := upY grp { steps := [(4, { yst 3 4096 4096 0 with segs := [(0, { gin := some ⟨1, true, false, 0, [], [], []⟩ })] })] };
      let p := cpk 0x22 (collOff 12 0 0 0 true false) (List.replicate 16 0); let g := p.window % 4096;
      let n := p.offset % 65536; let w := s.group g; let y := 4;
      let v := ({ yst 3 4096 4096 0 with segs := [(0, { gin := some ⟨1, true, false, 0, [], [], []⟩ })] } : YStep);
      let k := bitsOf p.offset 24 16; let q := v.seg k; let m := min 65536 (outLen w v k - 65536 * q.gslice);
      let c := (⟨1, true, false, 0, [], [], []⟩ : SliceIn); (g = p.window % 4096) ∧ (n = p.offset % 65536) ∧ (w = s.group g) ∧
      (k = bitsOf p.offset 24 16) ∧ (q = v.seg k) ∧ (m = min 65536 (outLen w v k - 65536 * q.gslice)) ∧ (0x20 ≤ p.opcode) ∧
      (p.opcode ≤ 0x26) ∧ (collRefused s p = none) ∧ (p.opcode = 0x22) ∧ (bitOf p.offset 46 = false) ∧
      (findStep s g n = some (y, v)) ∧ (v.g = g) ∧ (s.ystep y = some v) ∧ (q.gin = some c) ∧ (w.nbNode c.nb = p.src) ∧
      (c.complete = false) ∧ (bitsOf p.offset 28 25 = q.gslice) ∧ (bitsOf p.offset 44 29 + p.payload.length ≤ m) ∧
      (c.declared + p.payload.length < m)) ∧
    (let p := cpk 0x23 12 (natLE 8 0xABCD ++ List.replicate 16 0); let g := p.window % 4096;
      let s : State := upY grp { early := List.replicate 256 { g := 1, step := 1 } }; let n := p.offset % 65536;
      let w := s.group g; (g = p.window % 4096) ∧ (n = p.offset % 65536) ∧ (w = s.group g) ∧ (0x20 ≤ p.opcode) ∧
      (p.opcode ≤ 0x26) ∧ (collRefused s p = none) ∧ (p.opcode = 0x23 ∨ p.opcode = 0x24) ∧ (findStep s g n = none) ∧
      ((∀ e ∈ s.yar.early, ¬(e.g = g ∧ e.step = n))) ∧ (256 ≤ s.yar.early.length)) ∧
    (let s : State := upY grp { steps := [(4, yst 5 4096 4096 0)] };
      let p := cpk 0x23 12 (natLE 8 0xABCD ++ List.replicate 16 0); let r := some 5; let g := p.window % 4096;
      let n := p.offset % 65536; let w := s.group g; let y := (4, yst 5 4096 4096 0);
      let t : State :=
        ({ s with tgt := { s.tgt with next := s.tgt.next + 1 } } : State).putIn s.tgt.next { pkt := p, recIdx := r };
      (g = p.window % 4096) ∧ (n = p.offset % 65536) ∧ (w = s.group g) ∧
      (t = ({ s with tgt := { s.tgt with next := s.tgt.next + 1 } } : State).putIn s.tgt.next { pkt := p, recIdx := r }) ∧
      (0x20 ≤ p.opcode) ∧ (p.opcode ≤ 0x26) ∧ (collRefused s p = none) ∧ (findStep s g n = some y) ∧ (p.opcode = 0x23)) ∧
    (let s : State := upY grp { steps := [(4, yst 6 4096 4096 0)] };
      let p := cpk 0x24 12 (natLE 8 0xABCD ++ List.replicate 16 0); let r := some 5; let g := p.window % 4096;
      let n := p.offset % 65536; let w := s.group g; let y := (4, yst 6 4096 4096 0);
      let t : State :=
        ({ s with tgt := { s.tgt with next := s.tgt.next + 1 } } : State).putIn s.tgt.next { pkt := p, recIdx := r };
      (g = p.window % 4096) ∧ (n = p.offset % 65536) ∧ (w = s.group g) ∧
      (t = ({ s with tgt := { s.tgt with next := s.tgt.next + 1 } } : State).putIn s.tgt.next { pkt := p, recIdx := r }) ∧
      (0x20 ≤ p.opcode) ∧ (p.opcode ≤ 0x26) ∧ (collRefused s p = none) ∧ (findStep s g n = some y) ∧ (p.opcode = 0x24)) ∧
    (let s : State := upY { grp with fwd := [12] } {}; let p := cpk 0x25 12 (natLE 4 0xABCD ++ natLE 2 12 ++ [3, 0]);
      let g := p.window % 4096; let n := p.offset % 65536; let w := s.group g; let u : State := s.bump YAR_CERR.FAIL_RX 1;
      let st := leAt p.payload 6 1; (g = p.window % 4096) ∧ (n = p.offset % 65536) ∧ (w = s.group g) ∧
      (u = s.bump YAR_CERR.FAIL_RX 1) ∧ (st = leAt p.payload 6 1) ∧ (0x20 ≤ p.opcode) ∧ (p.opcode ≤ 0x26) ∧
      (collRefused s p = none) ∧ (p.opcode = 0x25) ∧ (w.fwd.contains (leAt p.payload 4 2) = true) ∧
      (findStep s g (leAt p.payload 4 2) = none) ∧ (findSto s g (leAt p.payload 4 2) = none) ∧
      ((∀ x ∈ waitingSteps s g, x.2.step ≠ leAt p.payload 4 2)) ∧ (endedWith s g (leAt p.payload 4 2) = none) ∧
      ((∀ x ∈ w.kept, x.1 ≠ leAt p.payload 4 2)) ∧ (w.kept.length < 8)) ∧
    (let s : State := upY { grp with fwd := [12] } { steps := [(4, yst 3 4096 4096 0)] };
      let p := cpk 0x25 12 (natLE 4 0xABCD ++ natLE 2 12 ++ [3, 0]); let g := p.window % 4096; let n := p.offset % 65536;
      let w := s.group g; let u : State := s.bump YAR_CERR.FAIL_RX 1; let st := leAt p.payload 6 1; let y := 4;
      let v := yst 3 4096 4096 0; (g = p.window % 4096) ∧ (n = p.offset % 65536) ∧ (w = s.group g) ∧
      (u = s.bump YAR_CERR.FAIL_RX 1) ∧ (st = leAt p.payload 6 1) ∧ (0x20 ≤ p.opcode) ∧ (p.opcode ≤ 0x26) ∧
      (collRefused s p = none) ∧ (p.opcode = 0x25) ∧ (w.fwd.contains (leAt p.payload 4 2) = true) ∧
      (findStep s g (leAt p.payload 4 2) = some (y, v))) ∧
    (let s : State := upY grp {};
      let p := cpk 0x26 12 (natLE 4 0xABCD ++ natLE 4 5 ++ natLE 2 12 ++ [3, 0,0,0,0,0] ++ natLE 8 7);
      let g := p.window % 4096; let n := p.offset % 65536; let w := s.group g; (g = p.window % 4096) ∧ (n = p.offset % 65536) ∧
      (w = s.group g) ∧ (0x20 ≤ p.opcode) ∧ (p.opcode ≤ 0x26) ∧ (collRefused s p = none) ∧ (p.opcode = 0x26)) ∧
    (let s : State := upY { grp with state := 2 } {};
      let p := cpk 0x26 12 (natLE 4 0xABCD ++ natLE 4 5 ++ natLE 2 12 ++ [3, 0,0,0,0,0] ++ natLE 8 7);
      let g := p.window % 4096; let n := p.offset % 65536; let w := s.group g; (g = p.window % 4096) ∧ (n = p.offset % 65536) ∧
      (w = s.group g) ∧ (0x20 ≤ p.opcode) ∧ (p.opcode ≤ 0x26) ∧ (collRefused s p = none) ∧ (p.opcode = 0x26)) :=
  ⟨⟨rfl, rfl, rfl, by decide +kernel⟩,
   ⟨rfl, rfl, rfl, rfl, rfl, rfl, by decide +kernel⟩,
   ⟨rfl, rfl, rfl, rfl, rfl, rfl, by decide +kernel⟩,
   ⟨rfl, rfl, rfl, by decide +kernel⟩,
   ⟨rfl, rfl, rfl, rfl, by decide +kernel⟩,
   ⟨rfl, rfl, rfl, rfl, by decide +kernel⟩,
   ⟨rfl, rfl, rfl, rfl, rfl, by decide +kernel⟩,
   ⟨rfl, rfl, rfl, rfl, rfl, by decide +kernel⟩,
   ⟨rfl, rfl, rfl, by decide +kernel⟩,
   ⟨rfl, rfl, rfl, by decide +kernel⟩⟩

/-- States and operands that meet the hypotheses of `Obligations.GroupAdmission`. -/
theorem witness_GroupAdmission :
    (let k := 35; let id := 4;
      let s : State := let a := mSc 0 { mc with beq := [{ id := 4, opcode := 0x66, imm := 9, step := 12 }] };
        { a with yar := { runWait := [(35, 4)] } };
      let rest := []; let e := ({ id := 4, opcode := 0x66, imm := 9, step := 12 } : BeEntry);
      let u : State := { s with yar := { s.yar with runWait := rest } };
      (u = { s with yar := { s.yar with runWait := rest } }) ∧ (s.yar.runWait = (k, id) :: rest) ∧
      ((s.ctx k).beq.find? (fun e => e.id = id) = some e) ∧ (groupRunning s (e.imm % 4096) = true ∨ groupsRunning s < 1024) ∧
      (e.opcode = 0x66)) ∧
    (let k := 35; let id := 4;
      let s : State := let a := mSc 0 { mc with beq := [{ id := 4, opcode := 0x60, imm := 9, step := 12 }] };
        { a with yar := { runWait := [(35, 4)], groups := [(9, grp)] } };
      let rest := []; let e := ({ id := 4, opcode := 0x60, imm := 9, step := 12 } : BeEntry);
      let u : State := { s with yar := { s.yar with runWait := rest } };
      (u = { s with yar := { s.yar with runWait := rest } }) ∧ (s.yar.runWait = (k, id) :: rest) ∧
      ((s.ctx k).beq.find? (fun e => e.id = id) = some e) ∧ (groupRunning s (e.imm % 4096) = true ∨ groupsRunning s < 1024) ∧
      (e.opcode ≠ 0x66)) ∧
    (let s : State :=
        { up with yar := { stoWait := [(35, 4)], stoats := (List.range 8).map fun i => { g := i, step := 3, be := some (35, 7) } } };
      let k := 35; let id := 4; let rest := []; (s.yar.stoWait = (k, id) :: rest) ∧ (8 ≤ stoOutstanding s)) ∧
    (let k := 35; let id := 4;
      let s : State := let a := mSc 0 { mc with beq := [{ id := 4, opcode := 0x66, imm := 9, step := 12 }] };
        { a with yar := { stoWait := [(35, 4)], groups := [(9, grp)] } };
      let rest := []; (s.yar.stoWait = (k, id) :: rest) ∧ (stoOutstanding s < 8)) ∧
    (let s : State := up; (s.yar.runWait = [])) ∧
    (let s : State := up; (s.yar.stoWait = [])) ∧
    (let k := 35; let id := 4; let s : State := mSc 0 { mc with beq := [{ id := 4, opcode := 0x60, imm := 9, step := 12 }] };
      let e := ({ id := 4, opcode := 0x60, imm := 9, step := 12 } : BeEntry); let w := s.group (e.imm % 4096);
      (w = s.group (e.imm % 4096)) ∧ ((s.ctx k).beq.find? (fun e => e.id = id) = some e) ∧ (w.state = 0)) ∧
    (let k := 35; let id := 4;
      let s : State := let a := mSc 0 { mc with beq := [{ id := 4, opcode := 0x60, imm := 9, step := 12 }] };
        { a with pins := { a.pins with testFence := true }, yar := { groups := [(9, { grp with state := 2 })] } };
      let e := ({ id := 4, opcode := 0x60, imm := 9, step := 12 } : BeEntry); let w := s.group (e.imm % 4096);
      (w = s.group (e.imm % 4096)) ∧ ((s.ctx k).beq.find? (fun e => e.id = id) = some e) ∧ (w.state ≠ 0) ∧ (s.fenced = true)) ∧
    (let k := 35; let id := 4;
      let s : State := let a := mSc 0 { mc with beq := [{ id := 4, opcode := 0x60, imm := 9, step := 12 }] };
        { a with yar := { groups := [(9, { grp with state := 2 })] } };
      let e := ({ id := 4, opcode := 0x60, imm := 9, step := 12 } : BeEntry); let w := s.group (e.imm % 4096);
      (w = s.group (e.imm % 4096)) ∧ ((s.ctx k).beq.find? (fun e => e.id = id) = some e) ∧ (w.state = 2) ∧ (s.fenced = false)) ∧
    (let k := 35; let id := 4;
      let s : State := let a := mSc 0 { mc with beq := [{ id := 4, opcode := 0x60, imm := 9, step := 12 }] };
        { a with yar := { groups := [(9, { grp with state := 3 })] } };
      let e := ({ id := 4, opcode := 0x60, imm := 9, step := 12 } : BeEntry); let w := s.group (e.imm % 4096);
      (w = s.group (e.imm % 4096)) ∧ ((s.ctx k).beq.find? (fun e => e.id = id) = some e) ∧ (w.state = 3) ∧ (s.fenced = false)) ∧
    (let k := 35; let id := 4;
      let s : State := let a := mSc 0 { mc with beq := [{ id := 4, opcode := 0x60, imm := 9, step := 12 }] };
        { a with yar := { groups := [(9, { grp with kept := [(12, 7)] })] } };
      let e := ({ id := 4, opcode := 0x60, imm := 9, step := 12 } : BeEntry); let w := s.group (e.imm % 4096);
      let x := (12, 7); (w = s.group (e.imm % 4096)) ∧ ((s.ctx k).beq.find? (fun e => e.id = id) = some e) ∧ (w.state = 1) ∧
      (s.fenced = false) ∧ (w.kept.find? (fun x => x.1 = e.step) = some x)) ∧
    (let k := 35; let id := 4;
      let s : State := let a := mSc 0 { mc with beq := [{ id := 4, opcode := 0x60, imm := 9, step := 12 }] };
        { a with yar := { groups := [(9, { grp with kept := [(13, 7)] })] } };
      let e := ({ id := 4, opcode := 0x60, imm := 9, step := 12 } : BeEntry); let w := s.group (e.imm % 4096);
      (w = s.group (e.imm % 4096)) ∧ ((s.ctx k).beq.find? (fun e => e.id = id) = some e) ∧ (w.state = 1) ∧ (s.fenced = false) ∧
      ((∀ x ∈ w.kept, x.1 ≠ e.step))) :=
  ⟨⟨rfl, by decide +kernel⟩,
   ⟨rfl, by decide +kernel⟩,
   by decide +kernel,
   by decide +kernel,
   by decide +kernel,
   by decide +kernel,
   ⟨rfl, by decide +kernel⟩,
   ⟨rfl, by decide +kernel⟩,
   ⟨rfl, by decide +kernel⟩,
   ⟨rfl, by decide +kernel⟩,
   ⟨rfl, by decide +kernel⟩,
   ⟨rfl, by decide +kernel⟩⟩

/-- States and operands that meet the hypotheses of `Obligations.GroupAdmission`. -/
theorem witness_GroupAdmission_2 :
    (let k := 35; let id := 4;
      let s : State := let a := mSc 0 { mc with beq := [{ id := 4, opcode := 0x60, imm := 9, step := 12 }] };
        { a with yar := { groups := [(9, { grp with image := gimg 0 0 0 0 0 })] } };
      let e := ({ id := 4, opcode := 0x60, imm := 9, step := 12 } : BeEntry); let w := s.group (e.imm % 4096);
      (w = s.group (e.imm % 4096)) ∧ ((s.ctx k).beq.find? (fun e => e.id = id) = some e) ∧ (w.state = 1) ∧ (s.fenced = false) ∧
      ((∀ x ∈ w.kept, x.1 ≠ e.step))) ∧
    (let s : State := { up with yar := { retries := [⟨up.now + 1, 4, {}⟩] } }; ((∀ r ∈ s.yar.retries, s.now < r.due))) ∧
    (let s : State :=
        { up with yar := { retries := [⟨up.now + 1, 4, {}⟩, ⟨up.now, 4, { opcode := 0x20, dest := 5, len := 24 }⟩] } };
      let r := (⟨up.now, 4, { opcode := 0x20, dest := 5, len := 24 }⟩ : CollRetry);
      (s.yar.retries.find? (fun r => r.due ≤ s.now) = some r)) :=
  ⟨⟨rfl, by decide +kernel⟩,
   by decide +kernel,
   by decide +kernel⟩

/-- States and operands that meet the hypotheses of `Obligations.GroupAdmission` (GroupAborts). -/
theorem witness_GroupAborts :
    (let s : State := upY { grp with abort := some ⟨5, 3, 1, 1⟩ } {}; let g := 9; let r : AbortRec := ⟨5, 3, 1, 1⟩;
      let v := s.group g; let a := (⟨5, 3, 1, 1⟩ : AbortRec); (v = s.group g) ∧ (v.abort = some a) ∧
      (a.time < r.time ∨ (a.time = r.time ∧ a.origin ≤ r.origin))) ∧
    (let s : State := upY { grp with abort := some ⟨4, 7, 1, 1⟩ } {}; let g := 9; let r : AbortRec := ⟨5, 3, 1, 1⟩;
      let v := s.group g; let a := (⟨4, 7, 1, 1⟩ : AbortRec); (v = s.group g) ∧ (v.abort = some a) ∧
      (a.time < r.time ∨ (a.time = r.time ∧ a.origin ≤ r.origin))) ∧
    (let s : State := upY grp {}; let g := 9; let r : AbortRec := ⟨5, 3, 1, 1⟩; let skip := (none : Option Nat);
      let v := s.group g; let t : State := abortGroup s g r skip; (v = s.group g) ∧ (t = abortGroup s g r skip) ∧
      ((∀ a, v.abort = some a → r.time < a.time ∨ (r.time = a.time ∧ r.origin < a.origin))) ∧
      ((∀ e ∈ s.yar.steps, e.2.g ≠ g)) ∧ (waitingSteps s g = []) ∧ ((∀ o ∈ s.yar.stoats, ¬(o.g = g ∧ o.be.isSome = true)))) ∧
    (let s : State := upY grp {}; let g := 9; let v := s.group g; let g' : Grp := 9; (v = s.group g) ∧ (g'.val = g) ∧
      (v.priv = false ∨ v.abortTmo = 0 ∨ v.state ≠ 1)) ∧
    (let s : State := late (upY { grp with image := ((gimg 8 0xFFFF 0 0 0).take 44) ++ natLE 4 10 ++ (gimg 8 0xFFFF 0 0 0).drop 48 } { steps := [(4, { yst 3 64 0 0 with since := 0 })] });
      let g := 9; let v := s.group g; let g' : Grp := 9; let y := 4; let x := ({ yst 3 64 0 0 with since := 0 } : YStep);
      (v = s.group g) ∧ (g'.val = g) ∧ (v.priv = true) ∧ (v.abortTmo ≠ 0) ∧ (v.state = 1) ∧
      (List.find? (fun e : Nat × YStep => e.2.g = g && decide (e.2.since + ns (1000 * v.abortTmo) ≤ s.now)) s.yar.steps =
        some (y, x))) ∧
    (let s : State := let a := mSc 0 { mc with beq := [{ id := 4, opcode := 0x60, imm := 9, step := 12 }] };
        late { a with yar := { groups := [(9, { grp with image := ((gimg 8 0xFFFF 0 0 0).take 44) ++ natLE 4 10 ++ (gimg 8 0xFFFF 0 0 0).drop 48 })] } };
      let g := 9; let v := s.group g; let g' : Grp := 9;
      let x := ((35, { id := 4, opcode := 0x60, imm := 9, step := 12 }) : Nat × BeEntry); (v = s.group g) ∧ (g'.val = g) ∧
      (v.priv = true) ∧ (v.abortTmo ≠ 0) ∧ (v.state = 1) ∧ ((∀ e ∈ s.yar.steps, e.2.g ≠ g)) ∧ ((∀ o ∈ s.yar.stoats, o.g ≠ g)) ∧
      ((waitingSteps s g).find? (fun x => decide (x.2.since + ns (1000 * v.abortTmo) ≤ s.now)) = some x)) ∧
    (let s : State := let a := mSc 0 { mc with beq := [{ id := 4, opcode := 0x60, imm := 9, step := 12 }] };
        late { a with yar := { groups := [(9, grp)] } };
      let g := 9; let v := s.group g; let n := 12; let st := 4;
      let x := ((35, { id := 4, opcode := 0x60, imm := 9, step := 12 }) : Nat × BeEntry); let y := entryOut st false s x;
      (v = s.group g) ∧ ((waitingSteps s g).find? (fun x => x.2.step = n) = some x) ∧ (y = entryOut st false s x)) ∧
    (let s : State := upY grp {}; let g := 9; let v := s.group g; let n := 12; (v = s.group g) ∧
      ((∀ x ∈ waitingSteps s g, x.2.step ≠ n)) ∧ (endedWith s g n = none)) ∧
    (let s : State := upY { grp with endedSt := [(9, some 0)] } {}; let g := 9; let v := s.group g; let n := 9;
      (v = s.group g) ∧ ((∀ x ∈ waitingSteps s g, x.2.step ≠ n)) ∧ (endedWith s g n ≠ none)) ∧
    (let s : State := upY { grp with kept := [(1,1),(2,2)] } {}; let g := 9; let v := s.group g; let n := 12; (v = s.group g) ∧
      ((∀ x ∈ v.kept, x.1 ≠ n)) ∧ (v.kept.length < 8)) ∧
    (let s : State := upY { grp with kept := List.replicate 8 (1,1) } {}; let g := 9; let v := s.group g; let n := 12;
      (v = s.group g) ∧ ((∀ x ∈ v.kept, x.1 ≠ n)) ∧ (8 ≤ v.kept.length)) :=
  ⟨⟨rfl, by decide +kernel⟩,
   ⟨rfl, by decide +kernel⟩,
   ⟨rfl, rfl, by decide +kernel⟩,
   ⟨rfl, by decide +kernel⟩,
   ⟨rfl, by decide +kernel⟩,
   ⟨rfl, by decide +kernel⟩,
   ⟨rfl, by decide +kernel, rfl⟩,
   ⟨rfl, by decide +kernel⟩,
   ⟨rfl, by decide +kernel⟩,
   ⟨rfl, by decide +kernel⟩,
   ⟨rfl, by decide +kernel⟩⟩

/-- States and operands that meet the hypotheses of `Obligations.GroupCommands`. -/
theorem witness_GroupCommands :
    (let s : State := upY grp {}; let u : State := drowseExit s; let g : Grp := 9; let v := u.group g; (u = drowseExit s) ∧
      (TablesOk s) ∧ (v = u.group g) ∧ (s.fabricOpen = true) ∧ (u.on YAR_GCMD.BUSY = false) ∧
      (u.on BDG_STATUS.FW_RESTART = false) ∧ (u.initDone = true) ∧ (v.state ≠ 0)) ∧
    (let s : State := up; let u : State := drowseExit s; let g : Grp := 9; let v := u.group g; (u = drowseExit s) ∧
      (TablesOk s) ∧ (v = u.group g) ∧ (s.fabricOpen = true) ∧ (u.on YAR_GCMD.BUSY = false) ∧
      (u.on BDG_STATUS.FW_RESTART = false) ∧ (u.initDone = true) ∧ (v.state = 0)) ∧
    (let s : State := let a := mSc 1 { mc with beq := [{ id := 4, opcode := 0x60, imm := 9, step := 12 }] };
        late { a with yar := { groups := [(9, grp)] } };
      let u : State := drowseExit s; let g : Grp := 9; let v := u.group g; (u = drowseExit s) ∧ (TablesOk s) ∧
      (v = u.group g) ∧ (s.fabricOpen = true) ∧ (u.on YAR_GCMD.BUSY = false) ∧ (u.on BDG_STATUS.FW_RESTART = false) ∧
      (u.initDone = true) ∧ (stepsOut u g ≠ 0)) ∧
    (let s : State :=
        { up with yar := { groups := [(9, grp), (10, grp)], grants := [⟨9, 1, 1, 1, 1, 1, 1, 1, false⟩, ⟨8, 1, 1, 1, 1, 1, 1, 1, false⟩] } };
      let u : State := drowseExit s; let g : Grp := 9; let v := u.group g; (u = drowseExit s) ∧ (TablesOk s) ∧
      (v = u.group g) ∧ (s.fabricOpen = true) ∧ (u.on YAR_GCMD.BUSY = false) ∧ (u.on BDG_STATUS.FW_RESTART = false) ∧
      (u.initDone = true) ∧ (stepsOut u g = 0)) ∧
    (let s : State := upY { grp with image := gimg 8 0xFFFF 0 0 0 } {}; let u : State := drowseExit s; let g : Grp := 9;
      let v := u.group g; (u = drowseExit s) ∧ (TablesOk s) ∧ (v = u.group g) ∧ (s.fabricOpen = true) ∧
      (u.on YAR_GCMD.BUSY = false) ∧ (u.on BDG_STATUS.FW_RESTART = false) ∧ (u.initDone = true) ∧ (v.priv = true)) ∧
    (let s : State := upY grp {}; let u : State := drowseExit s; let g : Grp := 9; let v := u.group g; let b := true;
      let n := (u.yar.steps.filter fun e => e.2.g = g.val).map (·.2.step) ++ (u.yar.stoats.filter fun o => o.g =
        g.val && o.be.isSome).map (·.step) ++ (waitingSteps u g).map (·.2.step);
      let w := endAll (u.wr YAR_GCMD.GROUP g) g stTIMEOUT; (u = drowseExit s) ∧ (TablesOk s) ∧ (v = u.group g) ∧
      (w = endAll (u.wr YAR_GCMD.GROUP g) g stTIMEOUT) ∧
      (n = (u.yar.steps.filter fun e => e.2.g = g.val).map (·.2.step) ++ (u.yar.stoats.filter fun o => o.g =
        g.val && o.be.isSome).map (·.step) ++ (waitingSteps u g).map (·.2.step)) ∧
      (s.fabricOpen = true) ∧ (u.on YAR_GCMD.BUSY = false) ∧ (u.on BDG_STATUS.FW_RESTART = false) ∧ (u.initDone = true) ∧
      (b = false ∨ v.priv = false) ∧ (n = [])) ∧
    (let s : State := upY { grp with image := gimg 8 0xFFFF 0 0 0 } {}; let u : State := drowseExit s; let g : Grp := 9;
      let v := u.group g; let b := false;
      let n := (u.yar.steps.filter fun e => e.2.g = g.val).map (·.2.step) ++ (u.yar.stoats.filter fun o => o.g =
        g.val && o.be.isSome).map (·.step) ++ (waitingSteps u g).map (·.2.step);
      let w := endAll (u.wr YAR_GCMD.GROUP g) g stTIMEOUT; (u = drowseExit s) ∧ (TablesOk s) ∧ (v = u.group g) ∧
      (w = endAll (u.wr YAR_GCMD.GROUP g) g stTIMEOUT) ∧
      (n = (u.yar.steps.filter fun e => e.2.g = g.val).map (·.2.step) ++ (u.yar.stoats.filter fun o => o.g =
        g.val && o.be.isSome).map (·.step) ++ (waitingSteps u g).map (·.2.step)) ∧
      (s.fabricOpen = true) ∧ (u.on YAR_GCMD.BUSY = false) ∧ (u.on BDG_STATUS.FW_RESTART = false) ∧ (u.initDone = true) ∧
      (b = false ∨ v.priv = false) ∧ (n = [])) ∧
    (let s : State := upY { grp with image := gimg 8 0xFFFF 0 0 0 } { steps := [(4, yst 3 64 0 0)] };
      let u : State := drowseExit s; let g : Grp := 9; let v := u.group g; let b := false;
      let n := (u.yar.steps.filter fun e => e.2.g = g.val).map (·.2.step) ++ (u.yar.stoats.filter fun o => o.g =
        g.val && o.be.isSome).map (·.step) ++ (waitingSteps u g).map (·.2.step);
      let w := endAll (u.wr YAR_GCMD.GROUP g) g stTIMEOUT; let x := 12; let rest := []; (u = drowseExit s) ∧ (TablesOk s) ∧
      (v = u.group g) ∧ (w = endAll (u.wr YAR_GCMD.GROUP g) g stTIMEOUT) ∧
      (n = (u.yar.steps.filter fun e => e.2.g = g.val).map (·.2.step) ++ (u.yar.stoats.filter fun o => o.g =
        g.val && o.be.isSome).map (·.step) ++ (waitingSteps u g).map (·.2.step)) ∧
      (s.fabricOpen = true) ∧ (u.on YAR_GCMD.BUSY = false) ∧ (u.on BDG_STATUS.FW_RESTART = false) ∧ (u.initDone = true) ∧
      (b = false ∨ v.priv = false) ∧ (n = x :: rest)) ∧
    (let s : State := up.wr YAR_GCMD.BUSY 1; let u : State := drowseExit s; (u = drowseExit s) ∧ (s.fabricOpen = true) ∧
      (u.on YAR_GCMD.BUSY = true)) ∧
    (let s : State := up.wr BDG_STATUS.FW_RESTART 1; let u : State := drowseExit s; let v := u.wr YAR_GCMD.STATUS stBUSY;
      (u = drowseExit s) ∧ (v = u.wr YAR_GCMD.STATUS stBUSY) ∧ (s.fabricOpen = true) ∧ (u.on YAR_GCMD.BUSY = false) ∧
      (u.on BDG_STATUS.FW_RESTART = true)) ∧
    (let s : State :=
        { up with hmp := { up.hmp with returned := [xf .groupImage [] 2] }, yar := { creating := some { g := 9, priv := false } } };
      let c := ({ g := 9, priv := false } : GroupCreate); let x := xf .groupImage [] 2; (TablesOk s) ∧
      (s.yar.creating = some c) ∧ (s.hmp.returned.find? (fun x => x.k = .groupImage || x.k = .groupList) = some x) ∧
      (x.status ≠ stOK)) ∧
    (let s : State :=
        { up with hmp := { up.hmp with returned := [xf .groupImage (List.replicate 128 0) 0] }, yar := { creating := some { g := 9, priv := false } } };
      let c := ({ g := 9, priv := false } : GroupCreate); let x := xf .groupImage (List.replicate 128 0) 0;
      let st := imageStatus s false { image := List.replicate 128 0 }; (TablesOk s) ∧ (s.yar.creating = some c) ∧
      (s.hmp.returned.find? (fun x => x.k = .groupImage || x.k = .groupList) = some x) ∧ (x.status = stOK) ∧ (c.image = none) ∧
      (imageStatus s c.priv { image := x.data } = st) ∧ (st ≠ stOK)) :=
  ⟨⟨rfl, tablesOk_of (by decide +kernel), rfl, by decide +kernel⟩,
   ⟨rfl, tablesOk_of (by decide +kernel), rfl, by decide +kernel⟩,
   ⟨rfl, tablesOk_of (by decide +kernel), rfl, by decide +kernel⟩,
   ⟨rfl, tablesOk_of (by decide +kernel), rfl, by decide +kernel⟩,
   ⟨rfl, tablesOk_of (by decide +kernel), rfl, by decide +kernel⟩,
   ⟨rfl, tablesOk_of (by decide +kernel), rfl, rfl, rfl, by decide +kernel⟩,
   ⟨rfl, tablesOk_of (by decide +kernel), rfl, rfl, rfl, by decide +kernel⟩,
   ⟨rfl, tablesOk_of (by decide +kernel), rfl, rfl, rfl, by decide +kernel⟩,
   ⟨rfl, by decide +kernel⟩,
   ⟨rfl, rfl, by decide +kernel⟩,
   ⟨tablesOk_of (by decide +kernel), by decide +kernel⟩,
   ⟨tablesOk_of (by decide +kernel), by decide +kernel⟩⟩

/-- States and operands that meet the hypotheses of `Obligations.GroupCommands`. -/
theorem witness_GroupCommands_2 :
    (let s : State :=
        { up with hmp := { up.hmp with returned := [xf .groupImage (List.replicate 126 0 ++ [1, 0]) 0] }, yar := { creating := some { g := 9, priv := false } } };
      let c := ({ g := 9, priv := false } : GroupCreate); let x := xf .groupImage (List.replicate 126 0 ++ [1,0]) 0;
      let st := imageStatus s false { image := (List.replicate 126 0 ++ [1,0]) }; (TablesOk s) ∧ (s.yar.creating = some c) ∧
      (s.hmp.returned.find? (fun x => x.k = .groupImage || x.k = .groupList) = some x) ∧ (x.status = stOK) ∧ (c.image = none) ∧
      (imageStatus s c.priv { image := x.data } = st) ∧ (st ≠ stOK)) ∧
    (let s : State :=
        { up with hmp := { up.hmp with returned := [xf .groupList [1,2,3,4] 0] }, yar := { creating := some { g := 9, priv := false, image := some (gimg 0 0xFFFF 0 0 0) } } };
      let c := ({ g := 9, priv := false, image := some (gimg 0 0xFFFF 0 0 0) } : GroupCreate);
      let x := xf .groupList [1,2,3,4] 0; let im := gimg 0 0xFFFF 0 0 0; (TablesOk s) ∧ (s.yar.creating = some c) ∧
      (s.hmp.returned.find? (fun x => x.k = .groupImage || x.k = .groupList) = some x) ∧ (x.status = stOK) ∧
      (c.image = some im) ∧ (leNat x.data ≠ s.node)) ∧
    (let s : State :=
        { up with hmp := { up.hmp with returned := [xf .groupList (natLE 4 0xFFFFF) 0] }, yar := { creating := some { g := 9, priv := false, image := some (gimg 0 0xFFFF 0 0 0) } } };
      let c := ({ g := 9, priv := false, image := some (gimg 0 0xFFFF 0 0 0) } : GroupCreate);
      let x := xf .groupList (natLE 4 0xFFFFF) 0; let im := gimg 0 0xFFFF 0 0 0; (TablesOk s) ∧ (s.yar.creating = some c) ∧
      (s.hmp.returned.find? (fun x => x.k = .groupImage || x.k = .groupList) = some x) ∧ (x.status = stOK) ∧
      (c.image = some im) ∧ (leNat x.data = s.node)) :=
  ⟨⟨tablesOk_of (by decide +kernel), by decide +kernel⟩,
   ⟨tablesOk_of (by decide +kernel), by decide +kernel⟩,
   ⟨tablesOk_of (by decide +kernel), by decide +kernel⟩⟩

/-- States and operands that meet the hypotheses of `Obligations.StoatMessages`. -/
theorem witness_StoatMessages :
    (let s : State := upS []; let p : Port := 11; let m := smsg 1 12 0 1 8 0 7; let u : State := takeBypass (drowseExit s) p m;
      let g := leAt m 2 2 % 4096; let step := leAt m 4 2; let w := u.group g; (u = takeBypass (drowseExit s) p m) ∧
      (g = leAt m 2 2 % 4096) ∧ (step = leAt m 4 2) ∧ (w = u.group g) ∧ (s.fabricOpen = true) ∧ (m.length = 96) ∧
      (leAt m 0 1 = 2) ∧ (stoPortOk w p = false) ∧ (leAt m 1 1 = 1)) ∧
    (let s : State := upS []; let p : Port := 11; let m := smsg 2 12 0 1 8 0 7; let u : State := takeBypass (drowseExit s) p m;
      let g := leAt m 2 2 % 4096; let step := leAt m 4 2; let w := u.group g; (u = takeBypass (drowseExit s) p m) ∧
      (g = leAt m 2 2 % 4096) ∧ (step = leAt m 4 2) ∧ (w = u.group g) ∧ (s.fabricOpen = true) ∧ (m.length = 96) ∧
      (leAt m 0 1 = 2) ∧ (stoPortOk w p = false) ∧ (leAt m 1 1 = 2)) ∧
    (let p : Port := 3; let m := smsg 1 12 0 1 8 0 7; let g := leAt m 2 2 % 4096; let step := leAt m 4 2;
      let s : State := upS (List.replicate 128 { g := 8, step := 1 }); let u : State := takeBypass (drowseExit s) p m;
      let w := u.group g; let dim := leAt m 6 1 % 8; let len := leAt m 8 1; let val := (m.drop 16).take len;
      (u = takeBypass (drowseExit s) p m) ∧ (g = leAt m 2 2 % 4096) ∧ (step = leAt m 4 2) ∧ (w = u.group g) ∧
      (dim = leAt m 6 1 % 8) ∧ (len = leAt m 8 1) ∧ (val = (m.drop 16).take len) ∧ (s.fabricOpen = true) ∧ (m.length = 96) ∧
      (leAt m 0 1 = 2) ∧ (stoPortOk w p = true) ∧ (leAt m 1 1 = 1) ∧ (leAt m 6 1 % 8 < w.dims) ∧ (leAt m 7 1 ≠ 0) ∧
      (endedWith u g step = none) ∧ (leAt m 10 1 = w.stoOp) ∧ (findSto u g step = none) ∧ (128 ≤ u.yar.stoats.length)) ∧
    (let s : State := upS []; let p : Port := 3; let m := smsg 1 12 0 1 8 0 7; let u : State := takeBypass (drowseExit s) p m;
      let g := leAt m 2 2 % 4096; let step := leAt m 4 2; let w := u.group g; let dim := leAt m 6 1 % 8; let len := leAt m 8 1;
      let val := (m.drop 16).take len; (u = takeBypass (drowseExit s) p m) ∧ (g = leAt m 2 2 % 4096) ∧ (step = leAt m 4 2) ∧
      (w = u.group g) ∧ (dim = leAt m 6 1 % 8) ∧ (len = leAt m 8 1) ∧ (val = (m.drop 16).take len) ∧ (s.fabricOpen = true) ∧
      (m.length = 96) ∧ (leAt m 0 1 = 2) ∧ (stoPortOk w p = true) ∧ (leAt m 1 1 = 1) ∧ (leAt m 6 1 % 8 < w.dims) ∧
      (leAt m 7 1 ≠ 0) ∧ (endedWith u g step = none) ∧ (leAt m 10 1 = w.stoOp) ∧ (findSto u g step = none) ∧
      (u.yar.stoats.length < 128)) ∧
    (let p : Port := 3; let m := smsg 1 12 0 1 8 0 7; let g := leAt m 2 2 % 4096; let step := leAt m 4 2;
      let dim := leAt m 6 1 % 8; let len := leAt m 8 1; let s : State := upS [{ g := 9, step := 12, len := 8 }];
      let u : State := takeBypass (drowseExit s) p m; let w := u.group g; let val := (m.drop 16).take len;
      let o := ({ g := 9, step := 12, len := 8 } : StoOp); let got := o.got.put dim (o.got.get [] dim ++ [val]);
      (u = takeBypass (drowseExit s) p m) ∧ (g = leAt m 2 2 % 4096) ∧ (step = leAt m 4 2) ∧ (w = u.group g) ∧
      (dim = leAt m 6 1 % 8) ∧ (len = leAt m 8 1) ∧ (val = (m.drop 16).take len) ∧
      (got = o.got.put dim (o.got.get [] dim ++ [val])) ∧ (s.fabricOpen = true) ∧ (m.length = 96) ∧ (leAt m 0 1 = 2) ∧
      (stoPortOk w p = true) ∧ (leAt m 1 1 = 1) ∧ (leAt m 6 1 % 8 < w.dims) ∧ (leAt m 7 1 ≠ 0) ∧ (endedWith u g step = none) ∧
      (leAt m 10 1 = w.stoOp) ∧ (findSto u g step = some o) ∧ (o.len = len) ∧ (o.be = none)) ∧
    (let p : Port := 3; let m := smsg 1 12 8 1 8 0 7; let g := leAt m 2 2 % 4096; let step := leAt m 4 2;
      let dim := leAt m 6 1 % 8; let len := leAt m 8 1;
      let s : State := upS [{ g := 9, step := 12, len := 8, be := some (35, 4) }];
      let u : State := takeBypass (drowseExit s) p m; let w := u.group g; let val := (m.drop 16).take len;
      let o := ({ g := 9, step := 12, len := 8, be := some (35, 4) } : StoOp);
      let got := o.got.put dim (o.got.get [] dim ++ [val]); let b := (35, 4); let side := 2 * dim + (1 - leAt m 6 1 / 8 % 2);
      (u = takeBypass (drowseExit s) p m) ∧ (g = leAt m 2 2 % 4096) ∧ (step = leAt m 4 2) ∧ (w = u.group g) ∧
      (dim = leAt m 6 1 % 8) ∧ (len = leAt m 8 1) ∧ (val = (m.drop 16).take len) ∧
      (got = o.got.put dim (o.got.get [] dim ++ [val])) ∧ (side = 2 * dim + (1 - leAt m 6 1 / 8 % 2)) ∧ (s.fabricOpen = true) ∧
      (m.length = 96) ∧ (leAt m 0 1 = 2) ∧ (stoPortOk w p = true) ∧ (leAt m 1 1 = 1) ∧ (leAt m 6 1 % 8 < w.dims) ∧
      (leAt m 7 1 ≠ 0) ∧ (endedWith u g step = none) ∧ (leAt m 10 1 = w.stoOp) ∧ (findSto u g step = some o) ∧ (o.len = len) ∧
      (o.be = some b)) ∧
    (let p : Port := 3; let m := smsg 1 12 0 1 8 0 7; let g := leAt m 2 2 % 4096; let step := leAt m 4 2;
      let dim := leAt m 6 1 % 8; let len := leAt m 8 1; let s : State := upS [{ g := 9, step := 12, len := 16 }];
      let u : State := takeBypass (drowseExit s) p m; let w := u.group g; let val := (m.drop 16).take len;
      let o := ({ g := 9, step := 12, len := 16 } : StoOp); (u = takeBypass (drowseExit s) p m) ∧ (g = leAt m 2 2 % 4096) ∧
      (step = leAt m 4 2) ∧ (w = u.group g) ∧ (dim = leAt m 6 1 % 8) ∧ (len = leAt m 8 1) ∧ (val = (m.drop 16).take len) ∧
      (s.fabricOpen = true) ∧ (m.length = 96) ∧ (leAt m 0 1 = 2) ∧ (stoPortOk w p = true) ∧ (leAt m 1 1 = 1) ∧
      (leAt m 6 1 % 8 < w.dims) ∧ (leAt m 7 1 ≠ 0) ∧ (endedWith u g step = none) ∧ (leAt m 10 1 = w.stoOp) ∧
      (findSto u g step = some o) ∧ (o.len ≠ len) ∧ (o.be = none)) ∧
    (let p : Port := 4; let m := smsg 2 12 0 1 8 4 7; let g := leAt m 2 2 % 4096; let step := leAt m 4 2;
      let s : State := upY { grpA with fwd := [12] } { stoats := [{ g := 9, step := 12, len := 16, be := some (35, 4) }] };
      let u : State := takeBypass (drowseExit s) p m; let w := u.group g; let v := u.bump YAR_CERR.FAIL_RX 1;
      let st := leAt m 9 1; let o := ({ g := 9, step := 12, len := 16, be := some (35, 4) } : StoOp);
      (u = takeBypass (drowseExit s) p m) ∧ (g = leAt m 2 2 % 4096) ∧ (step = leAt m 4 2) ∧ (w = u.group g) ∧
      (v = u.bump YAR_CERR.FAIL_RX 1) ∧ (st = leAt m 9 1) ∧ (s.fabricOpen = true) ∧ (m.length = 96) ∧ (leAt m 0 1 = 2) ∧
      (stoPortOk w p = true) ∧ (leAt m 1 1 = 2) ∧ (w.fwd.contains step = true) ∧ (findSto u g step = some o) ∧
      (o.be.isSome = true)) ∧
    (let p : Port := 4; let m := smsg 2 12 0 1 8 4 7; let g := leAt m 2 2 % 4096; let step := leAt m 4 2;
      let s : State := upY { grpA with fwd := [12] } { stoats := [{ g := 9, step := 12, len := 16 }] };
      let u : State := takeBypass (drowseExit s) p m; let w := u.group g; let v := u.bump YAR_CERR.FAIL_RX 1;
      let st := leAt m 9 1; let o := ({ g := 9, step := 12, len := 16 } : StoOp); (u = takeBypass (drowseExit s) p m) ∧
      (g = leAt m 2 2 % 4096) ∧ (step = leAt m 4 2) ∧ (w = u.group g) ∧ (v = u.bump YAR_CERR.FAIL_RX 1) ∧ (st = leAt m 9 1) ∧
      (s.fabricOpen = true) ∧ (m.length = 96) ∧ (leAt m 0 1 = 2) ∧ (stoPortOk w p = true) ∧ (leAt m 1 1 = 2) ∧
      (w.fwd.contains step = true) ∧ (findSto u g step = some o) ∧ (o.be = none)) ∧
    (let s : State := upY { grpA with fwd := [12] } {}; let p : Port := 4; let m := smsg 2 12 0 1 8 4 7;
      let u : State := takeBypass (drowseExit s) p m; let g := leAt m 2 2 % 4096; let step := leAt m 4 2; let w := u.group g;
      let v := u.bump YAR_CERR.FAIL_RX 1; let st := leAt m 9 1; (u = takeBypass (drowseExit s) p m) ∧ (g = leAt m 2 2 % 4096) ∧
      (step = leAt m 4 2) ∧ (w = u.group g) ∧ (v = u.bump YAR_CERR.FAIL_RX 1) ∧ (st = leAt m 9 1) ∧ (s.fabricOpen = true) ∧
      (m.length = 96) ∧ (leAt m 0 1 = 2) ∧ (stoPortOk w p = true) ∧ (leAt m 1 1 = 2) ∧ (w.fwd.contains step = true) ∧
      (findSto u g step = none)) :=
  ⟨⟨rfl, rfl, rfl, rfl, by decide +kernel⟩,
   ⟨rfl, rfl, rfl, rfl, by decide +kernel⟩,
   ⟨rfl, rfl, rfl, rfl, rfl, rfl, rfl, by decide +kernel⟩,
   ⟨rfl, rfl, rfl, rfl, rfl, rfl, rfl, by decide +kernel⟩,
   ⟨rfl, rfl, rfl, rfl, rfl, rfl, rfl, rfl, by decide +kernel⟩,
   ⟨rfl, rfl, rfl, rfl, rfl, rfl, rfl, rfl, rfl, by decide +kernel⟩,
   ⟨rfl, rfl, rfl, rfl, rfl, rfl, rfl, by decide +kernel⟩,
   ⟨rfl, rfl, rfl, rfl, rfl, rfl, by decide +kernel⟩,
   ⟨rfl, rfl, rfl, rfl, rfl, rfl, by decide +kernel⟩,
   ⟨rfl, rfl, rfl, rfl, rfl, rfl, by decide +kernel⟩⟩

/-- States and operands that meet the hypotheses of `Obligations.StageRecords`. -/
theorem witness_StageRecords :
    (let s : State := up; let u : State := drowseExit s; (s.fabricOpen = true) ∧ (u = drowseExit s) ∧ (TablesOk s)) ∧
    (let s : State := up; let u : State := drowseExit s; (s.fabricOpen = true) ∧ (u = drowseExit s) ∧ (TablesOk s)) ∧
    (let s : State := up; (s.yar.upds = [])) ∧
    (let s : State := upY grp { upds := [⟨4, 0, true, [], none, none, 0, none⟩], steps := [(4, yst 4 64 0 0)] };
      let x := (⟨4, 0, true, [], none, none, 0, none⟩ : UpdJob); let rest := []; let v := yst 4 64 0 0; let w := s.group v.g;
      let so := (updRanges w v x.seg).1.1; let sn := (updRanges w v x.seg).1.2; let wo := (updRanges w v x.seg).2.1;
      let wn := (updRanges w v x.seg).2.2; (w = s.group v.g) ∧ (s.yar.upds = x :: rest) ∧ (s.ystep x.y = some v) ∧
      (updRanges w v x.seg = ((so, sn), (wo, wn))) ∧ (x.running = true ∨ v.ending.isSome = true)) ∧
    (let s : State := upY grp { upds := [⟨4, 0, false, [], none, none, 0, none⟩], steps := [(4, { yst 4 64 0 0 with upd := [2] })] };
      let x := (⟨4, 0, false, [], none, none, 0, none⟩ : UpdJob); let rest := [];
      let v := ({ yst 4 64 0 0 with upd := [2] } : YStep); let w := s.group v.g; let so := (updRanges w v x.seg).1.1;
      let sn := (updRanges w v x.seg).1.2; let wo := (updRanges w v x.seg).2.1; let wn := (updRanges w v x.seg).2.2;
      (w = s.group v.g) ∧ (s.yar.upds = x :: rest) ∧ (s.ystep x.y = some v) ∧ (updRanges w v x.seg = ((so, sn), (wo, wn))) ∧
      (x.running = false) ∧ (v.ending = none) ∧ (0 < sn) ∧
      ((s.win (updWin v.upd)).bound < so + sn ∨ (s.win (updWin v.upd)).crosses so sn = true)) ∧
    (let s : State := upY grp { upds := [⟨4, 0, false, [], none, none, 0, none⟩], steps := [(4, { yst 4 64 0 0 with upd := [0] })] };
      let x := (⟨4, 0, false, [], none, none, 0, none⟩ : UpdJob); let rest := [];
      let v := ({ yst 4 64 0 0 with upd := [0] } : YStep); let w := s.group v.g; let so := (updRanges w v x.seg).1.1;
      let sn := (updRanges w v x.seg).1.2; let wo := (updRanges w v x.seg).2.1; let wn := (updRanges w v x.seg).2.2;
      (w = s.group v.g) ∧ (s.yar.upds = x :: rest) ∧ (s.ystep x.y = some v) ∧ (updRanges w v x.seg = ((so, sn), (wo, wn))) ∧
      (x.running = false) ∧ (v.ending = none) ∧ (sn = 0) ∧ (updMaster v.upd = false)) :=
  ⟨⟨by decide +kernel, rfl, tablesOk_of (by decide +kernel)⟩,
   ⟨by decide +kernel, rfl, tablesOk_of (by decide +kernel)⟩,
   by decide +kernel,
   ⟨rfl, by decide +kernel⟩,
   ⟨rfl, by decide +kernel⟩,
   ⟨rfl, by decide +kernel⟩⟩

/-- States and operands that meet the hypotheses of `Obligations.Foxglove`. -/
theorem witness_Foxglove :
    (let s : State := upF { queue := [fxe .load 1 0 8192] }; let e := fxe .load 1 0 8192; let rest := [];
      (s.fox.queue = e :: rest) ∧ (s.fox.island ≠ 2 ∨ s.unitsRun = false ∨ foxFree s e = false)) ∧
    (let s : State := upF { island := 2, queue := [fxe .load 1 0 8192], markers := [fxe .commit 3 0 0] };
      let e := fxe .load 1 0 8192; let rest := []; (s.fox.queue = e :: rest) ∧
      (s.fox.island ≠ 2 ∨ s.unitsRun = false ∨ foxFree s e = false)) ∧
    (let s : State := upF { island := 2, queue := [fxe .commit 1 0 0], weights := [(7, 3), (65536*4 + 5, 2)], poison := [3, 67, 18] };
      let e := fxe .commit 1 0 0; let rest := []; (s.fox.queue = e :: rest) ∧ (s.fox.island = 2) ∧ (s.unitsRun = true) ∧
      (e.kind = .commit) ∧ (e.tiles &&& foxLoading s = 0)) ∧
    (let s : State := upF { island := 2, queue := [fxe .load 1 0 0] }; let e := fxe .load 1 0 0; let rest := [];
      (s.fox.queue = e :: rest) ∧ (s.fox.island = 2) ∧ (s.unitsRun = true) ∧ (e.kind = .load) ∧ (foxFree s e = true) ∧
      (foxMissing s e = []) ∧ (e.len = 0)) ∧
    (let s : State := let a := (up.wr (MRT_CTX_CFG1.PKEY 35) 6);
        { a with fox := { island := 2, queue := [fxe .load 1 0 8192] }, wins := { a.wins with tbl := [(0, { state := .valid, base := 4096, bound := 409600, wr := true, rd := true, at_ := true, pkey := 6 })] } };
      let e := fxe .load 1 0 8192; let rest := []; (s.fox.queue = e :: rest) ∧ (s.fox.island = 2) ∧ (s.unitsRun = true) ∧
      (e.kind = .load) ∧ (foxFree s e = true) ∧ (foxMissing s e = []) ∧ (e.len ≠ 0) ∧
      (e.len % (8192 * (tilesOf e.tiles).length) = 0) ∧ (e.slot + e.len / (8192 * (tilesOf e.tiles).length) ≤ 16) ∧
      (localCheck (s.win e.win) (s.ctxPkey e.ctx) .rd e.off e.len = stOK)) ∧
    (let s : State := upF { island := 2, queue := [fxe .pass 1 0 8192] }; let e := fxe .pass 1 0 8192; let rest := [];
      let st := stINTERNAL; (s.fox.queue = e :: rest) ∧ (s.fox.island = 2) ∧ (s.unitsRun = true) ∧ (e.kind = .pass) ∧
      (foxFree s e = true) ∧ (foxMissing s e = []) ∧ (passStatus s e.cfg e.ctx e.len = st) ∧ (st ≠ stOK) ∧ (st ≠ stRIGHTS)) ∧
    (let s : State := upF { island := 2, queue := [{ fxe .pass 1 0 8192 with cfg := [0x00010000, 64, 0, 0, 0, 0, 0, 64, 64, 1] }] };
      let e := ({ fxe .pass 1 0 8192 with cfg := [0x00010000, 64, 0, 0, 0, 0, 0, 64, 64, 1] } : FoxEntry); let rest := [];
      (s.fox.queue = e :: rest) ∧ (s.fox.island = 2) ∧ (s.unitsRun = true) ∧ (e.kind = .pass) ∧ (foxFree s e = true) ∧
      (foxMissing s e = []) ∧ (passStatus s e.cfg e.ctx e.len = stRIGHTS)) ∧
    (let s : State := let a := mSc 1 { mc with beq := [{ id := 4, opcode := 0x71, started := true }] };
        { a with fox := { markers := [fxe .commit 1 0 0] } };
      let e := fxe .commit 1 0 0; let rest := []; (s.fox.markers = e :: rest) ∧ (e.kind = .commit) ∧ (e.stag = [])) ∧
    (let s : State := up; (s.fox.markers = [])) ∧
    (let s : State := upF { island := 1, weights := [(7, 3)] }; (s.fox.island = 1)) ∧
    (let s : State := upF { island := 2, weights := [(7, 3)] }; (s.fox.island ≠ 1)) ∧
    (let s : State := (late (upF { island := 2, weights := [(7, 3)] })).wr FOX_CFG.IDLE_OFF 1; let n := s.rd FOX_CFG.IDLE_OFF;
      (n = s.rd FOX_CFG.IDLE_OFF) ∧ (s.fox.island = 2) ∧ (foxNeeded s = false) ∧ (n ≠ 0) ∧
      (s.fox.idleSince + ns (100000 * n) ≤ s.now)) :=
  ⟨by decide +kernel,
   by decide +kernel,
   by decide +kernel,
   by decide +kernel,
   by decide +kernel,
   by decide +kernel,
   by decide +kernel,
   by decide +kernel,
   by decide +kernel,
   by decide +kernel,
   by decide +kernel,
   ⟨rfl, by decide +kernel⟩⟩

/-- States and operands that meet the hypotheses of `Obligations.Foxglove`. -/
theorem witness_Foxglove_2 :
    (let s : State := ((upF { island := 2, weights := [(7, 3)], idleSince := up.now })).wr FOX_CFG.IDLE_OFF 1;
      let n := s.rd FOX_CFG.IDLE_OFF; (n = s.rd FOX_CFG.IDLE_OFF) ∧
      (s.fox.island ≠ 2 ∨ foxNeeded s = true ∨ n = 0 ∨ s.now < s.fox.idleSince + ns (100000 * n))) :=
  ⟨rfl, by decide +kernel⟩

/-- States and operands that meet the hypotheses of `Obligations.SessionCommands`. -/
theorem witness_SessionCommands :
    (let s : State := upC up; let via : Fin 16 := 11; let m := amm 0x15 0 []; let u : State := takeInbox s via m;
      (u = takeInbox s via m) ∧ (ammType m ≠ 0x14)) ∧
    (let s : State := (upC up).wr BDG_STATUS.FW_RESTART 1; let via : Fin 16 := 11; let m := cmdM 6 [1];
      let u : State := takeInbox s via m; (u = takeInbox s via m) ∧ (ammType m = 0x14) ∧ (fwUp s = false)) ∧
    (let s : State := let a := upC up; { a with bdg := { a.bdg with rspWait := some ⟨3, [], 3, 1, 8, false⟩ } };
      let via : Fin 16 := 11; let m := cmdM 6 [1]; let u : State := takeInbox s via m; (u = takeInbox s via m) ∧
      (ammType m = 0x14) ∧ (fwUp s = true) ∧ (s.bdg.rspWait.isSome = true)) ∧
    (let s : State := up; let via : Fin 16 := 11; let m := cmdM 6 [1]; let u : State := takeInbox s via m;
      (u = takeInbox s via m) ∧ (ammType m = 0x14) ∧ (fwUp s = true) ∧ (s.bdg.rspWait = none) ∧
      (openCmd u (ammAad m) (ammBody m) = none)) ∧
    (let s : State := upC up; let via : Fin 16 := 11; let m := cmdM 60 [1]; let u : State := takeInbox s via m;
      let v := ({ sess with slot := 0 } : Session); let c := 5; let text := cmdText 60 ([1]); let n := leAt text 0 2;
      (u = takeInbox s via m) ∧ (openCmd u (ammAad m) (ammBody m) = some (v, c, text)) ∧ (n = leAt text 0 2) ∧
      (ammType m = 0x14) ∧ (fwUp s = true) ∧ (s.bdg.rspWait = none) ∧ (n = 0 ∨ 22 < n)) ∧
    (let s : State := upC up; let via : Fin 16 := 11; let m := cmdM 7 [1]; let u : State := takeInbox s via m;
      let v := ({ sess with slot := 0 } : Session); let c := 5; let text := cmdText 7 ([1]); let n := leAt text 0 2;
      (u = takeInbox s via m) ∧ (openCmd u (ammAad m) (ammBody m) = some (v, c, text)) ∧ (n = leAt text 0 2) ∧
      (ammType m = 0x14) ∧ (fwUp s = true) ∧ (s.bdg.rspWait = none) ∧ (1 ≤ n) ∧ (n ≤ 22) ∧ (n ≠ 6)) :=
  ⟨⟨rfl, by decide +kernel⟩,
   ⟨rfl, by decide +kernel⟩,
   ⟨rfl, by decide +kernel⟩,
   ⟨rfl, by decide +kernel⟩,
   ⟨rfl, openCmd_cmd _ _ _ (by decide +kernel) _ (by decide +kernel), rfl, by decide +kernel⟩,
   ⟨rfl, openCmd_cmd _ _ _ (by decide +kernel) _ (by decide +kernel), rfl, by decide +kernel⟩⟩

/-- States and operands that meet the hypotheses of `Obligations.SessionCommands` (SessionAuthentication). -/
theorem witness_SessionAuthentication :
    (let s : State := up; let body := natLE 4 3; let n := leAt body 0 4; let c := leAt body 4 8; (n = leAt body 0 4) ∧
      (c = leAt body 4 8) ∧ (findSession s n = none)) ∧
    (let s : State := upC up; let body := natLE 4 3; let n := leAt body 0 4; let c := leAt body 4 8; let v := sess;
      (n = leAt body 0 4) ∧ (c = leAt body 4 8) ∧ (findSession s n = some v) ∧
      (v.last.all (· < c) = false ∨ 2 ^ 63 ≤ c ∨ body.length < 28)) ∧
    (let s : State := upC up; let aad := ammAad (cmdM 6 [1]); let body := ammBody (cmdM 6 [1]); let n := leAt body 0 4;
      let c := leAt body 4 8; let v := sess; let iv := natLE 4 n ++ natLE 8 c;
      let text := (body.drop 12).take (body.length - 28); (n = leAt body 0 4) ∧ (c = leAt body 4 8) ∧
      (iv = natLE 4 n ++ natLE 8 c) ∧ (text = (body.drop 12).take (body.length - 28)) ∧ (findSession s n = some v) ∧
      (v.last.all (· < c) = true) ∧ (c < 2 ^ 63) ∧ (28 ≤ body.length) ∧
      (gcmTag v.key iv aad text = body.drop (body.length - 16))) ∧
    (let s : State := upC up; let aad := []; let body := ammBody (cmdM 6 [1]); let n := leAt body 0 4; let c := leAt body 4 8;
      let v := sess; let iv := natLE 4 n ++ natLE 8 c; let text := (body.drop 12).take (body.length - 28);
      (n = leAt body 0 4) ∧ (c = leAt body 4 8) ∧ (iv = natLE 4 n ++ natLE 8 c) ∧
      (text = (body.drop 12).take (body.length - 28)) ∧ (findSession s n = some v) ∧ (v.last.all (· < c) = true) ∧
      (c < 2 ^ 63) ∧ (28 ≤ body.length) ∧ (gcmTag v.key iv aad text ≠ body.drop (body.length - 16))) :=
  ⟨⟨rfl, rfl, by decide +kernel⟩,
   ⟨rfl, rfl, by decide +kernel⟩,
   ⟨rfl, rfl, rfl, rfl, by decide +kernel⟩,
   ⟨rfl, rfl, rfl, rfl, by decide +kernel⟩⟩

/-- States and operands that meet the hypotheses of `Obligations.SessionFabric`. -/
theorem witness_SessionFabric :
    (let s : State := upC up; let via : Fin 16 := 11; let m := cmdM 1 [1]; let v := ({ sess with slot := 0 } : Session);
      let c := 5; let x := opened s via 1 ([1]); let a := ([1]); (Opens s via m 1 v c x a) ∧ (a.length < 11)) ∧
    (let s : State := upC up; let via : Fin 16 := 11; let m := cmdM 1 [1,2,3,0,4,5,6,7,8,9,1,0];
      let v := ({ sess with slot := 0 } : Session); let c := 5; let x := opened s via 1 ([1,2,3,0,4,5,6,7,8,9,1,0]);
      let a := ([1,2,3,0,4,5,6,7,8,9,1,0]); (Opens s via m 1 v c x a) ∧ (11 ≤ a.length)) ∧
    (let s : State := upC up; let via : Fin 16 := 11; let m := cmdM 2 [1,2,0]; let v := ({ sess with slot := 0 } : Session);
      let c := 5; let x := opened s via 2 ([1,2,0]); let a := ([1,2,0]); let first := leAt a 0 1; let n := leAt a 1 2;
      (Opens s via m 2 v c x a) ∧ (first = leAt a 0 1) ∧ (n = leAt a 1 2) ∧ (256 < first + n ∨ a.length < 3 + 4 * n)) ∧
    (let s : State := (upC up).wr CSP_STATUS.FC_RUN 0; let via : Fin 16 := 11; let m := cmdM 2 [1,1,0,7,7,7,7];
      let v := ({ sess with slot := 0 } : Session); let c := 5; let x := opened s via 2 ([1,1,0,7,7,7,7]);
      let a := ([1,1,0,7,7,7,7]); let first := leAt a 0 1; let n := leAt a 1 2; (Opens s via m 2 v c x a) ∧
      (first = leAt a 0 1) ∧ (n = leAt a 1 2) ∧ (first + n ≤ 256) ∧ (3 + 4 * n ≤ a.length) ∧ (x.fabricOpen = false)) ∧
    (let s : State := upC up; let via : Fin 16 := 11; let m := cmdM 2 [1,1,0,7,7,7,7];
      let v := ({ sess with slot := 0 } : Session); let c := 5; let x := opened s via 2 ([1,1,0,7,7,7,7]);
      let a := ([1,1,0,7,7,7,7]); let first := leAt a 0 1; let n := leAt a 1 2; (Opens s via m 2 v c x a) ∧
      (first = leAt a 0 1) ∧ (n = leAt a 1 2) ∧ (first + n ≤ 256) ∧ (3 + 4 * n ≤ a.length) ∧ (x.fabricOpen = true)) ∧
    (let s : State := upC up; let via : Fin 16 := 11; let m := cmdM 3 [2,1,0,0,0,7,7,7,7];
      let v := ({ sess with slot := 0 } : Session); let c := 5; let x := opened s via 3 ([2,1,0,0,0,7,7,7,7]);
      let a := ([2,1,0,0,0,7,7,7,7]); let ver := leAt a 0 1; let off := leAt a 1 4; let n := (a.length - 5) / 4;
      let u : State := drowseExit x; (Opens s via m 3 v c x a) ∧ (ver = leAt a 0 1) ∧ (off = leAt a 1 4) ∧
      (n = (a.length - 5) / 4) ∧ (u = drowseExit x) ∧ (1 < ver ∨ a.length < 5 ∨ 960 < n ∨ 16384 < off + n)) ∧
    (let s : State := upC up; let via : Fin 16 := 11; let m := cmdM 3 [0,1,0,0,0,7,7,7,7];
      let v := ({ sess with slot := 0 } : Session); let c := 5; let x := opened s via 3 ([0,1,0,0,0,7,7,7,7]);
      let a := ([0,1,0,0,0,7,7,7,7]); let ver := leAt a 0 1; let off := leAt a 1 4; let n := (a.length - 5) / 4;
      let u : State := drowseExit x; (Opens s via m 3 v c x a) ∧ (ver = leAt a 0 1) ∧ (off = leAt a 1 4) ∧
      (n = (a.length - 5) / 4) ∧ (u = drowseExit x) ∧ (ver ≤ 1) ∧ (5 ≤ a.length) ∧ (n ≤ 960) ∧ (off + n ≤ 16384) ∧
      (x.fabricOpen = true) ∧ (tableLocked u ver = true) ∧ ((∃ i < n, wordSpoiled u ver (off + i) = false))) ∧
    (let s : State := (upC up).wr RTR_EPOCH.OLD_FREE 1; let via : Fin 16 := 11; let m := cmdM 3 [1,1,0,0,0,7,7,7,7];
      let v := ({ sess with slot := 0 } : Session); let c := 5; let x := opened s via 3 ([1,1,0,0,0,7,7,7,7]);
      let a := ([1,1,0,0,0,7,7,7,7]); let ver := leAt a 0 1; let off := leAt a 1 4; let n := (a.length - 5) / 4;
      let u : State := drowseExit x; (Opens s via m 3 v c x a) ∧ (ver = leAt a 0 1) ∧ (off = leAt a 1 4) ∧
      (n = (a.length - 5) / 4) ∧ (u = drowseExit x) ∧ (ver ≤ 1) ∧ (5 ≤ a.length) ∧ (n ≤ 960) ∧ (off + n ≤ 16384) ∧
      (x.fabricOpen = true) ∧ (tableLocked u ver = false)) ∧
    (let s : State := upC up; let via : Fin 16 := 11; let m := cmdM 4 [1,0,0,0,5,0,0,0,6,0,0,0,0,1];
      let v := ({ sess with slot := 0 } : Session); let c := 5; let x := opened s via 4 ([1,0,0,0,5,0,0,0,6,0,0,0,0,1]);
      let a := ([1,0,0,0,5,0,0,0,6,0,0,0,0,1]); let u : State := drowseExit x; let ver := 1 - u.epochBit;
      (Opens s via m 4 v c x a) ∧ (u = drowseExit x) ∧ (ver = 1 - u.epochBit) ∧ (14 ≤ a.length) ∧ (x.fabricOpen = true) ∧
      (leAt a 12 1 % 2 = 0)) ∧
    (let s : State := upC up; let via : Fin 16 := 11; let m := cmdM 4 [1,0]; let v := ({ sess with slot := 0 } : Session);
      let c := 5; let x := opened s via 4 ([1,0]); let a := ([1,0]); (Opens s via m 4 v c x a) ∧ (a.length < 14)) ∧
    (let s : State := (upC up).wr RTR_EPOCH.OLD_FREE 0; let via : Fin 16 := 11; let m := cmdM 5 [1,0];
      let v := ({ sess with slot := 0 } : Session); let c := 5; let x := opened s via 5 ([1,0]); let a := ([1,0]);
      let u : State := drowseExit x; let e := leAt a 0 2; (Opens s via m 5 v c x a) ∧ (u = drowseExit x) ∧ (e = leAt a 0 2) ∧
      (x.fabricOpen = true) ∧ (u.on RTR_EPOCH.OLD_FREE = false ∨ u.on RTR_EPOCH.ARMED = true)) ∧
    (let s : State := (upC up).wr RTR_EPOCH.OLD_FREE 1; let via : Fin 16 := 11; let m := cmdM 5 [2,0];
      let v := ({ sess with slot := 0 } : Session); let c := 5; let x := opened s via 5 ([2,0]); let a := ([2,0]);
      let u : State := drowseExit x; let e := leAt a 0 2; (Opens s via m 5 v c x a) ∧ (u = drowseExit x) ∧ (e = leAt a 0 2) ∧
      (x.fabricOpen = true) ∧ (u.on RTR_EPOCH.OLD_FREE = true) ∧ (u.on RTR_EPOCH.ARMED = false) ∧ (e % 2 = u.epochBit)) :=
  ⟨⟨opens_cmd _ _ _ _ _ (by decide +kernel) (by decide +kernel) (by decide +kernel) (by decide +kernel) (by decide +kernel) (by decide +kernel),
      by decide +kernel⟩,
   ⟨opens_cmd _ _ _ _ _ (by decide +kernel) (by decide +kernel) (by decide +kernel) (by decide +kernel) (by decide +kernel) (by decide +kernel),
      by decide +kernel⟩,
   ⟨opens_cmd _ _ _ _ _ (by decide +kernel) (by decide +kernel) (by decide +kernel) (by decide +kernel) (by decide +kernel) (by decide +kernel),
      rfl, rfl, by decide +kernel⟩,
   ⟨opens_cmd _ _ _ _ _ (by decide +kernel) (by decide +kernel) (by decide +kernel) (by decide +kernel) (by decide +kernel) (by decide +kernel),
      rfl, rfl, by decide +kernel⟩,
   ⟨opens_cmd _ _ _ _ _ (by decide +kernel) (by decide +kernel) (by decide +kernel) (by decide +kernel) (by decide +kernel) (by decide +kernel),
      rfl, rfl, by decide +kernel⟩,
   ⟨opens_cmd _ _ _ _ _ (by decide +kernel) (by decide +kernel) (by decide +kernel) (by decide +kernel) (by decide +kernel) (by decide +kernel),
      rfl, rfl, rfl, rfl, by decide +kernel⟩,
   ⟨opens_cmd _ _ _ _ _ (by decide +kernel) (by decide +kernel) (by decide +kernel) (by decide +kernel) (by decide +kernel) (by decide +kernel),
      rfl, rfl, rfl, rfl, by decide +kernel⟩,
   ⟨opens_cmd _ _ _ _ _ (by decide +kernel) (by decide +kernel) (by decide +kernel) (by decide +kernel) (by decide +kernel) (by decide +kernel),
      rfl, rfl, rfl, rfl, by decide +kernel⟩,
   ⟨opens_cmd _ _ _ _ _ (by decide +kernel) (by decide +kernel) (by decide +kernel) (by decide +kernel) (by decide +kernel) (by decide +kernel),
      rfl, rfl, by decide +kernel⟩,
   ⟨opens_cmd _ _ _ _ _ (by decide +kernel) (by decide +kernel) (by decide +kernel) (by decide +kernel) (by decide +kernel) (by decide +kernel),
      by decide +kernel⟩,
   ⟨opens_cmd _ _ _ _ _ (by decide +kernel) (by decide +kernel) (by decide +kernel) (by decide +kernel) (by decide +kernel) (by decide +kernel),
      rfl, rfl, by decide +kernel⟩,
   ⟨opens_cmd _ _ _ _ _ (by decide +kernel) (by decide +kernel) (by decide +kernel) (by decide +kernel) (by decide +kernel) (by decide +kernel),
      rfl, rfl, by decide +kernel⟩⟩

/-- States and operands that meet the hypotheses of `Obligations.SessionFabric`. -/
theorem witness_SessionFabric_2 :
    (let s : State := (upC up).wr RTR_EPOCH.OLD_FREE 1; let via : Fin 16 := 11; let m := cmdM 5 [3,0];
      let v := ({ sess with slot := 0 } : Session); let c := 5; let x := opened s via 5 ([3,0]); let a := ([3,0]);
      let u : State := drowseExit x; let e := leAt a 0 2; (Opens s via m 5 v c x a) ∧ (u = drowseExit x) ∧ (e = leAt a 0 2) ∧
      (x.fabricOpen = true) ∧ (u.on RTR_EPOCH.OLD_FREE = true) ∧ (u.on RTR_EPOCH.ARMED = false) ∧ (e % 2 ≠ u.epochBit) ∧
      (u.on (RTR_VER_CFG.VALID (e % 2)) = false)) ∧
    (let s : State := upC up; let via : Fin 16 := 11; let m := cmdM 6 [1]; let v := ({ sess with slot := 0 } : Session);
      let c := 5; let x := opened s via 6 ([1]); let a := ([1]); let b := leAt a 0 1 % 2; (Opens s via m 6 v c x a) ∧
      (x.fabricOpen = true) ∧ (b = leAt a 0 1 % 2)) ∧
    (let s : State := upC up; let via : Fin 16 := 11; let m := cmdM 7 [1]; let v := ({ sess with slot := 0 } : Session);
      let c := 5; let x := opened s via 7 ([1]); let a := ([1]); (Opens s via m 7 v c x a) ∧ (a.length < 24)) ∧
    (let s : State := upC up; let via : Fin 16 := 11; let m := cmdM 7 (List.replicate 24 0);
      let v := ({ sess with slot := 0 } : Session); let c := 5; let x := opened s via 7 ((List.replicate 24 0));
      let a := ((List.replicate 24 0)); let u : State := drowseExit x;
      let w := (List.range 6).foldl (fun t i => t.setReg (0x1A0010 + 4 * i) (BitVec.ofNat 32 (leAt a (4 * i) 4))) u;
      let d := argWin w; let t : State := createWindow u (argWindow w) d; (Opens s via m 7 v c x a) ∧ (u = drowseExit x) ∧
      (w = (List.range 6).foldl (fun t i => t.setReg (0x1A0010 + 4 * i) (BitVec.ofNat 32 (leAt a (4 * i) 4))) u) ∧
      (d = argWin w) ∧ (t = createWindow u (argWindow w) d) ∧ (x.fabricOpen = true) ∧ (24 ≤ a.length) ∧
      (u.on TGT_WCMD.BUSY = false) ∧ (t.on TGT_WCMD.BUSY = false)) ∧
    (let s : State := upC up; let via : Fin 16 := 11; let m := cmdM 8 (List.replicate 24 0);
      let v := ({ sess with slot := 0 } : Session); let c := 5; let x := opened s via 8 ((List.replicate 24 0));
      let a := ((List.replicate 24 0)); let g := leAt a 0 2; let im := (a.drop 2).take 128; let u : State := drowseExit x;
      (Opens s via m 8 v c x a) ∧ (g = leAt a 0 2) ∧ (im = (a.drop 2).take 128) ∧ (u = drowseExit x) ∧
      (a.length < 130 ∨ 4095 < g)) ∧
    (let s : State := upC (upY grp {}); let via : Fin 16 := 11; let m := cmdM 8 (natLE 2 9 ++ List.replicate 128 0);
      let v := ({ sess with slot := 0 } : Session); let c := 5; let x := opened s via 8 ((natLE 2 9 ++ List.replicate 128 0));
      let a := ((natLE 2 9 ++ List.replicate 128 0)); let g := leAt a 0 2; let im := (a.drop 2).take 128;
      let u : State := drowseExit x; (Opens s via m 8 v c x a) ∧ (g = leAt a 0 2) ∧ (im = (a.drop 2).take 128) ∧
      (u = drowseExit x) ∧ (130 ≤ a.length) ∧ (g ≤ 4095) ∧ (x.fabricOpen = true) ∧ (u.on YAR_GCMD.BUSY = false) ∧
      (u.initDone = true) ∧ ((u.group g).state ≠ 0)) ∧
    (let s : State := upC (winOk up); let via : Fin 16 := 11; let m := cmdM 8 (natLE 2 8 ++ okImg);
      let v := ({ sess with slot := 0 } : Session); let c := 5; let x := opened s via 8 ((natLE 2 8 ++ okImg));
      let a := ((natLE 2 8 ++ okImg)); let g := leAt a 0 2; let im := (a.drop 2).take 128; let u : State := drowseExit x;
      let t : State := readOwnEntry ((u.wr YAR_GCMD.GROUP g).wr YAR_GCMD.BUSY 1) { g := g, priv := true } { image := im };
      (Opens s via m 8 v c x a) ∧ (g = leAt a 0 2) ∧ (im = (a.drop 2).take 128) ∧ (u = drowseExit x) ∧
      (t = readOwnEntry ((u.wr YAR_GCMD.GROUP g).wr YAR_GCMD.BUSY 1) { g := g, priv := true } { image := im }) ∧
      (130 ≤ a.length) ∧ (g ≤ 4095) ∧ (x.fabricOpen = true) ∧ (u.on YAR_GCMD.BUSY = false) ∧ (u.initDone = true) ∧
      ((u.group g).state = 0) ∧ (imageStatus u true { image := im } = stOK)) ∧
    (let s : State := upC up; let via : Fin 16 := 11; let m := cmdM 9 [1,8,1,0]; let v := ({ sess with slot := 0 } : Session);
      let c := 5; let x := opened s via 9 ([1,8,1,0]); let a := ([1,8,1,0]); (Opens s via m 9 v c x a) ∧
      (x.fabricOpen = true)) :=
  ⟨⟨opens_cmd _ _ _ _ _ (by decide +kernel) (by decide +kernel) (by decide +kernel) (by decide +kernel) (by decide +kernel) (by decide +kernel),
      rfl, rfl, by decide +kernel⟩,
   ⟨opens_cmd _ _ _ _ _ (by decide +kernel) (by decide +kernel) (by decide +kernel) (by decide +kernel) (by decide +kernel) (by decide +kernel),
      by decide +kernel, rfl⟩,
   ⟨opens_cmd _ _ _ _ _ (by decide +kernel) (by decide +kernel) (by decide +kernel) (by decide +kernel) (by decide +kernel) (by decide +kernel),
      by decide +kernel⟩,
   ⟨opens_cmd _ _ _ _ _ (by decide +kernel) (by decide +kernel) (by decide +kernel) (by decide +kernel) (by decide +kernel) (by decide +kernel),
      rfl, rfl, rfl, rfl, by decide +kernel⟩,
   ⟨opens_cmd _ _ _ _ _ (by decide +kernel) (by decide +kernel) (by decide +kernel) (by decide +kernel) (by decide +kernel) (by decide +kernel),
      rfl, rfl, rfl, by decide +kernel⟩,
   ⟨opens_cmd _ _ _ _ _ (by decide +kernel) (by decide +kernel) (by decide +kernel) (by decide +kernel) (by decide +kernel) (by decide +kernel),
      rfl, rfl, rfl, by decide +kernel⟩,
   ⟨opens_cmd _ _ _ _ _ (by decide +kernel) (by decide +kernel) (by decide +kernel) (by decide +kernel) (by decide +kernel) (by decide +kernel),
      rfl, rfl, rfl, rfl, by decide +kernel⟩,
   ⟨opens_cmd _ _ _ _ _ (by decide +kernel) (by decide +kernel) (by decide +kernel) (by decide +kernel) (by decide +kernel) (by decide +kernel),
      by decide +kernel⟩⟩

/-- States and operands that meet the hypotheses of `Obligations.SessionDevice`. -/
theorem witness_SessionDevice :
    (let s : State := upC up; let via : Fin 16 := 11; let m := cmdM 10 [1]; let v := ({ sess with slot := 0 } : Session);
      let c := 5; let x := opened s via 10 ([1]); let a := ([1]); (Opens s via m 10 v c x a) ∧ (a.length < 452)) ∧
    (let s : State := upC up; let via : Fin 16 := 11; let m := cmdM 10 (List.replicate 452 4);
      let v := ({ sess with slot := 0 } : Session); let c := 5; let x := opened s via 10 ((List.replicate 452 4));
      let a := ((List.replicate 452 4)); (Opens s via m 10 v c x a) ∧ (452 ≤ a.length)) ∧
    (let s : State := upC up; let via : Fin 16 := 11; let m := cmdM 11 []; let v := ({ sess with slot := 0 } : Session);
      let c := 5; let x := opened s via 11 ([]); let a := ([]); (Opens s via m 11 v c x a)) ∧
    (let s : State := upC up; let via : Fin 16 := 11; let m := cmdM 12 []; let v := ({ sess with slot := 0 } : Session);
      let c := 5; let x := opened s via 12 ([]); let a := ([]); (Opens s via m 12 v c x a)) ∧
    (let s : State := upC up; let via : Fin 16 := 11; let m := cmdM 13 [65]; let v := ({ sess with slot := 0 } : Session);
      let c := 5; let x := opened s via 13 ([65]); let a := ([65]); let n := leAt a 0 1; (Opens s via m 13 v c x a) ∧
      (n = leAt a 0 1) ∧ (x.sea.fwSvn < n ∨ 64 < n)) ∧
    (let via : Fin 16 := 11; let m := cmdM 13 [4]; let v := ({ sess with slot := 0 } : Session); let c := 5; let a := ([4]);
      let s : State := let a := upC up; { a with sea := { a.sea with fwSvn := 5 } }; let x := opened s via 13 ([4]);
      let n := leAt a 0 1; (Opens s via m 13 v c x a) ∧ (n = leAt a 0 1) ∧ (n ≤ x.sea.fwSvn) ∧ (n ≤ 64)) ∧
    (let s : State := upC up; let via : Fin 16 := 11; let m := cmdM 14 [0]; let v := ({ sess with slot := 0 } : Session);
      let c := 5; let x := opened s via 14 ([0]); let a := ([0]); let n := leAt a 0 1; (Opens s via m 14 v c x a) ∧
      (n = leAt a 0 1) ∧ (n = v.slot)) ∧
    (let via : Fin 16 := 11; let m := cmdM 14 [0]; let v := ({ sess with slot := 1 } : Session); let c := 5; let a := ([0]);
      let s : State := let a := upC up; { a with sea := { a.sea with sessions := [{ sess with slot := 1 }] } };
      let x := opened s via 14 ([0]); let n := leAt a 0 1; (Opens s via m 14 v c x a) ∧ (n = leAt a 0 1) ∧ (n ≠ v.slot) ∧
      (n = 0)) ∧
    (let s : State := upC up; let via : Fin 16 := 11; let m := cmdM 14 [1]; let v := ({ sess with slot := 0 } : Session);
      let c := 5; let x := opened s via 14 ([1]); let a := ([1]); let n := leAt a 0 1; (Opens s via m 14 v c x a) ∧
      (n = leAt a 0 1) ∧ (n ≠ v.slot) ∧ (n = 1)) ∧
    (let s : State := upC up; let via : Fin 16 := 11; let m := cmdM 15 [2,0,0,0,0];
      let v := ({ sess with slot := 0 } : Session); let c := 5; let x := opened s via 15 ([2,0,0,0,0]); let a := ([2,0,0,0,0]);
      let k := leAt a 0 1; let off := leAt a 1 4; let d := a.drop 5; (Opens s via m 15 v c x a) ∧ (k = leAt a 0 1) ∧
      (off = leAt a 1 4) ∧ (d = a.drop 5) ∧ (1 < k ∨ a.length < 5 ∨ 3968 < d.length ∨ 524288 < off + d.length)) ∧
    (let via : Fin 16 := 11; let m := cmdM 15 [1,0,0,0,0,7]; let v := ({ sess with slot := 0 } : Session); let c := 5;
      let a := ([1,0,0,0,0,7]); let s : State := let a := upC up; { a with burrow := { a.burrow with dirty := [0] } };
      let x := opened s via 15 ([1,0,0,0,0,7]); let k := leAt a 0 1; let off := leAt a 1 4; let d := a.drop 5;
      (Opens s via m 15 v c x a) ∧ (k = leAt a 0 1) ∧ (off = leAt a 1 4) ∧ (d = a.drop 5) ∧ (k ≤ 1) ∧ (5 ≤ a.length) ∧
      (d.length ≤ 3968) ∧ (off + d.length ≤ 524288) ∧ (x.burrow.dirty.contains (1 - k) = true)) ∧
    (let via : Fin 16 := 11; let m := cmdM 15 [1,0,0,0,0,7]; let v := ({ sess with slot := 0 } : Session); let c := 5;
      let a := ([1,0,0,0,0,7]); let s : State := let a := upC up; { a with burrow := { a.burrow with dirty := [1] } };
      let x := opened s via 15 ([1,0,0,0,0,7]); let k := leAt a 0 1; let off := leAt a 1 4; let d := a.drop 5;
      let t : State := flashWrite x (524288 * k + off) d; (Opens s via m 15 v c x a) ∧ (k = leAt a 0 1) ∧ (off = leAt a 1 4) ∧
      (d = a.drop 5) ∧ (t = flashWrite x (524288 * k + off) d) ∧ (k ≤ 1) ∧ (5 ≤ a.length) ∧ (d.length ≤ 3968) ∧
      (off + d.length ≤ 524288) ∧ (x.burrow.dirty.contains (1 - k) = false)) :=
  ⟨⟨opens_cmd _ _ _ _ _ (by decide +kernel) (by decide +kernel) (by decide +kernel) (by decide +kernel) (by decide +kernel) (by decide +kernel),
      by decide +kernel⟩,
   ⟨opens_cmd _ _ _ _ _ (by decide +kernel) (by decide +kernel) (by decide +kernel) (by decide +kernel) (by decide +kernel) (by decide +kernel),
      by decide +kernel⟩,
   opens_cmd _ _ _ _ _ (by decide +kernel) (by decide +kernel) (by decide +kernel) (by decide +kernel) (by decide +kernel) (by decide +kernel),
   opens_cmd _ _ _ _ _ (by decide +kernel) (by decide +kernel) (by decide +kernel) (by decide +kernel) (by decide +kernel) (by decide +kernel),
   ⟨opens_cmd _ _ _ _ _ (by decide +kernel) (by decide +kernel) (by decide +kernel) (by decide +kernel) (by decide +kernel) (by decide +kernel),
      rfl, by decide +kernel⟩,
   ⟨opens_cmd _ _ _ _ _ (by decide +kernel) (by decide +kernel) (by decide +kernel) (by decide +kernel) (by decide +kernel) (by decide +kernel),
      rfl, by decide +kernel⟩,
   ⟨opens_cmd _ _ _ _ _ (by decide +kernel) (by decide +kernel) (by decide +kernel) (by decide +kernel) (by decide +kernel) (by decide +kernel),
      rfl, by decide +kernel⟩,
   ⟨opens_cmd _ _ _ _ _ (by decide +kernel) (by decide +kernel) (by decide +kernel) (by decide +kernel) (by decide +kernel) (by decide +kernel),
      rfl, by decide +kernel⟩,
   ⟨opens_cmd _ _ _ _ _ (by decide +kernel) (by decide +kernel) (by decide +kernel) (by decide +kernel) (by decide +kernel) (by decide +kernel),
      rfl, by decide +kernel⟩,
   ⟨opens_cmd _ _ _ _ _ (by decide +kernel) (by decide +kernel) (by decide +kernel) (by decide +kernel) (by decide +kernel) (by decide +kernel),
      rfl, rfl, rfl, by decide +kernel⟩,
   ⟨opens_cmd _ _ _ _ _ (by decide +kernel) (by decide +kernel) (by decide +kernel) (by decide +kernel) (by decide +kernel) (by decide +kernel),
      rfl, rfl, rfl, by decide +kernel⟩,
   ⟨opens_cmd _ _ _ _ _ (by decide +kernel) (by decide +kernel) (by decide +kernel) (by decide +kernel) (by decide +kernel) (by decide +kernel),
      rfl, rfl, rfl, rfl, by decide +kernel⟩⟩

/-- States and operands that meet the hypotheses of `Obligations.SessionDevice`. -/
theorem witness_SessionDevice_2 :
    (let s : State := upC up; let via : Fin 16 := 11; let m := cmdM 16 [1]; let v := ({ sess with slot := 0 } : Session);
      let c := 5; let x := opened s via 16 ([1]); let a := ([1]); let k := leAt a 0 1; (Opens s via m 16 v c x a) ∧
      (k = leAt a 0 1) ∧ (1 < k ∨ imageOk x (imageCopy x k) = false)) ∧
    (let s : State := upC up; let via : Fin 16 := 11; let m := cmdM 16 [2]; let v := ({ sess with slot := 0 } : Session);
      let c := 5; let x := opened s via 16 ([2]); let a := ([2]); let k := leAt a 0 1; (Opens s via m 16 v c x a) ∧
      (k = leAt a 0 1) ∧ (1 < k ∨ imageOk x (imageCopy x k) = false)) ∧
    (let s : State := upC up; let via : Fin 16 := 11; let m := cmdM 17 [1,0,0x44,0,0,0];
      let v := ({ sess with slot := 0 } : Session); let c := 5; let x := opened s via 17 ([1,0,0x44,0,0,0]);
      let a := ([1,0,0x44,0,0,0]); let t : State := (readWord x .amm (leAt a 2 4 / 4 * 4)).1;
      let w := (readWord x .amm (leAt a 2 4 / 4 * 4)).2.1; let st := (readWord x .amm (leAt a 2 4 / 4 * 4)).2.2;
      (Opens s via m 17 v c x a) ∧ (readWord x .amm (leAt a 2 4 / 4 * 4) = (t, w, st)) ∧ (leAt a 0 2 = 1) ∧ (6 ≤ a.length)) ∧
    (let s : State := upC up; let via : Fin 16 := 11; let m := cmdM 18 [1,0,0x44,0,0,0,1,2,3,4];
      let v := ({ sess with slot := 0 } : Session); let c := 5; let x := opened s via 18 ([1,0,0x44,0,0,0,1,2,3,4]);
      let a := ([1,0,0x44,0,0,0,1,2,3,4]); let t : State := (writeAperture x .amm (leAt a 2 4 / 4 * 4) (leAt a 6 4)).1;
      let st := (writeAperture x .amm (leAt a 2 4 / 4 * 4) (leAt a 6 4)).2; (Opens s via m 18 v c x a) ∧
      (writeAperture x .amm (leAt a 2 4 / 4 * 4) (leAt a 6 4) = (t, st)) ∧ (leAt a 0 2 = 1) ∧ (10 ≤ a.length)) ∧
    (let via : Fin 16 := 11; let m := cmdM 19 [0,0,0,128,1,2,3,4,0,0,0,0]; let v := ({ sess with slot := 0 } : Session);
      let c := 5; let a := ([0,0,0,128,1,2,3,4,0,0,0,0]);
      let s : State := let a := upC up; { a with time := { a.time with ref := true } };
      let x := opened s via 19 ([0,0,0,128,1,2,3,4,0,0,0,0]); let t : State := regWrite x BDG_TIME_CFG.ROOT.addr (leAt a 0 4);
      (Opens s via m 19 v c x a) ∧ (t = regWrite x BDG_TIME_CFG.ROOT.addr (leAt a 0 4)) ∧ (12 ≤ a.length) ∧
      (t.on BDG_TIME_CFG.ROOT = true) ∧ (t.time.ref = true)) ∧
    (let s : State := upC up; let via : Fin 16 := 11; let m := cmdM 19 [0,0,0,0,1,2,3,4,0,0,0,0];
      let v := ({ sess with slot := 0 } : Session); let c := 5; let x := opened s via 19 ([0,0,0,0,1,2,3,4,0,0,0,0]);
      let a := ([0,0,0,0,1,2,3,4,0,0,0,0]); let t : State := regWrite x BDG_TIME_CFG.ROOT.addr (leAt a 0 4);
      (Opens s via m 19 v c x a) ∧ (t = regWrite x BDG_TIME_CFG.ROOT.addr (leAt a 0 4)) ∧ (12 ≤ a.length) ∧
      (t.on BDG_TIME_CFG.ROOT = false)) ∧
    (let s : State := upC up; let via : Fin 16 := 11; let m := cmdM 20 [5,0,0,1,7,0,8,0,1];
      let v := ({ sess with slot := 0 } : Session); let c := 5; let x := opened s via 20 ([5,0,0,1,7,0,8,0,1]);
      let a := ([5,0,0,1,7,0,8,0,1]); let t : State := (x.wr BDG_GROVE.STEWARD 1).wr BDG_GROVE.GROVE_ID (leAt a 0 2);
      (Opens s via m 20 v c x a) ∧ (t = (x.wr BDG_GROVE.STEWARD 1).wr BDG_GROVE.GROVE_ID (leAt a 0 2)) ∧ (9 ≤ a.length) ∧
      (leAt a 2 2 ≤ 512) ∧ (leAt a 8 1 % 2 = 1)) ∧
    (let s : State := upC up; let via : Fin 16 := 11; let m := cmdM 20 [5,0,0,1,7,0,8,0,0];
      let v := ({ sess with slot := 0 } : Session); let c := 5; let x := opened s via 20 ([5,0,0,1,7,0,8,0,0]);
      let a := ([5,0,0,1,7,0,8,0,0]); (Opens s via m 20 v c x a) ∧ (9 ≤ a.length) ∧ (leAt a 2 2 ≤ 512) ∧ (leAt a 8 1 % 2 = 0)) ∧
    (let s : State := upC up; let via : Fin 16 := 11; let m := cmdM 21 [0,0]; let v := ({ sess with slot := 0 } : Session);
      let c := 5; let x := opened s via 21 ([0,0]); let a := ([0,0]); let n := (a.length - 2) / 24;
      (Opens s via m 21 v c x a) ∧ (n = (a.length - 2) / 24) ∧
      (x.on BDG_GROVE.STEWARD = false ∨ 128 < n ∨ 512 < leAt a 0 2 + n)) ∧
    (let s : State := (upC up).wr BDG_GROVE.STEWARD 1; let via : Fin 16 := 11; let m := cmdM 21 ([3,0] ++ List.replicate 24 6);
      let v := ({ sess with slot := 0 } : Session); let c := 5; let x := opened s via 21 (([3,0] ++ List.replicate 24 6));
      let a := (([3,0] ++ List.replicate 24 6)); let n := (a.length - 2) / 24;
      let e : GroveEntry := { node := leAt a 2 4 % 2 ^ 20, route := (a.drop 6).take 16, n := leAt a 22 1, last := x.nowNs };
      (Opens s via m 21 v c x a) ∧ (n = (a.length - 2) / 24) ∧
      (e = { node := leAt a 2 4 % 2 ^ 20, route := (a.drop 6).take 16, n := leAt a 22 1, last := x.nowNs }) ∧
      (x.on BDG_GROVE.STEWARD = true) ∧ (n = 1) ∧ (leAt a 0 2 < 512)) ∧
    (let s : State := (upC up); let via : Fin 16 := 11; let m := cmdM 22 ([3,0] ++ List.replicate 24 6);
      let v := ({ sess with slot := 0 } : Session); let c := 5; let x := opened s via 22 (([3,0] ++ List.replicate 24 6));
      let a := (([3,0] ++ List.replicate 24 6)); (Opens s via m 22 v c x a) ∧ (25 ≤ a.length) ∧ (leAt a 22 1 ≤ 32)) :=
  ⟨⟨opens_cmd _ _ _ _ _ (by decide +kernel) (by decide +kernel) (by decide +kernel) (by decide +kernel) (by decide +kernel) (by decide +kernel),
      rfl, by decide +kernel⟩,
   ⟨opens_cmd _ _ _ _ _ (by decide +kernel) (by decide +kernel) (by decide +kernel) (by decide +kernel) (by decide +kernel) (by decide +kernel),
      rfl, by decide +kernel⟩,
   ⟨opens_cmd _ _ _ _ _ (by decide +kernel) (by decide +kernel) (by decide +kernel) (by decide +kernel) (by decide +kernel) (by decide +kernel),
      rfl, by decide +kernel⟩,
   ⟨opens_cmd _ _ _ _ _ (by decide +kernel) (by decide +kernel) (by decide +kernel) (by decide +kernel) (by decide +kernel) (by decide +kernel),
      rfl, by decide +kernel⟩,
   ⟨opens_cmd _ _ _ _ _ (by decide +kernel) (by decide +kernel) (by decide +kernel) (by decide +kernel) (by decide +kernel) (by decide +kernel),
      rfl, by decide +kernel⟩,
   ⟨opens_cmd _ _ _ _ _ (by decide +kernel) (by decide +kernel) (by decide +kernel) (by decide +kernel) (by decide +kernel) (by decide +kernel),
      rfl, by decide +kernel⟩,
   ⟨opens_cmd _ _ _ _ _ (by decide +kernel) (by decide +kernel) (by decide +kernel) (by decide +kernel) (by decide +kernel) (by decide +kernel),
      rfl, by decide +kernel⟩,
   ⟨opens_cmd _ _ _ _ _ (by decide +kernel) (by decide +kernel) (by decide +kernel) (by decide +kernel) (by decide +kernel) (by decide +kernel),
      by decide +kernel⟩,
   ⟨opens_cmd _ _ _ _ _ (by decide +kernel) (by decide +kernel) (by decide +kernel) (by decide +kernel) (by decide +kernel) (by decide +kernel),
      rfl, by decide +kernel⟩,
   ⟨opens_cmd _ _ _ _ _ (by decide +kernel) (by decide +kernel) (by decide +kernel) (by decide +kernel) (by decide +kernel) (by decide +kernel),
      rfl, rfl, by decide +kernel⟩,
   ⟨opens_cmd _ _ _ _ _ (by decide +kernel) (by decide +kernel) (by decide +kernel) (by decide +kernel) (by decide +kernel) (by decide +kernel),
      by decide +kernel⟩⟩

/-- States and operands that meet the hypotheses of `Obligations.ManagementMessages`. -/
theorem witness_ManagementMessages :
    (let s : State := ln 11 6 3 { probes := 1 }; let p : Port := 11; let m := frag 1 5 0 (List.replicate 88 2);
      let u : State := takeBypass s p m; let id := leAt m 2 2; let idx := leAt m 4 2; let d := (m.drop 8).take 88;
      (u = takeBypass s p m) ∧ (id = leAt m 2 2) ∧ (idx = leAt m 4 2) ∧ (d = (m.drop 8).take 88) ∧ (leAt m 0 1 = 3) ∧
      (s.linkState p ≠ 0) ∧ (leAt m 1 1 = 1) ∧ (idx = 0) ∧ (u.bdg.parts.find? p = none)) :=
  ⟨rfl, rfl, rfl, rfl, by decide +kernel⟩

/-- States and operands that meet the hypotheses of `Obligations.ManagementMessages`. -/
theorem witness_ManagementMessages_2 :
    (let s : State := ln 11 6 3 { probes := 1 }; let p : Port := 11; let m := frag 2 5 0 (List.replicate 88 2);
      let u : State := takeBypass s p m; let id := leAt m 2 2; let idx := leAt m 4 2; let d := (m.drop 8).take 88;
      (u = takeBypass s p m) ∧ (id = leAt m 2 2) ∧ (idx = leAt m 4 2) ∧ (d = (m.drop 8).take 88) ∧ (leAt m 0 1 = 3) ∧
      (s.linkState p ≠ 0) ∧ (leAt m 1 1 = 2) ∧ (idx = 0) ∧ (u.bdg.parts.find? p = none)) :=
  ⟨rfl, rfl, rfl, rfl, by decide +kernel⟩

/-- States and operands that meet the hypotheses of `Obligations.ManagementMessages`. -/
theorem witness_ManagementMessages_3 :
    (let s : State := ln 11 6 3 { probes := 1 }; let p : Port := 11; let m := frag 2 5 1 (List.replicate 88 2);
      let u : State := takeBypass s p m; let id := leAt m 2 2; let idx := leAt m 4 2; let d := (m.drop 8).take 88;
      (u = takeBypass s p m) ∧ (id = leAt m 2 2) ∧ (idx = leAt m 4 2) ∧ (d = (m.drop 8).take 88) ∧ (leAt m 0 1 = 3) ∧
      (s.linkState p ≠ 0) ∧ (leAt m 1 1 = 1 ∨ leAt m 1 1 = 2) ∧ (idx ≠ 0) ∧ (u.bdg.parts.find? p = none)) :=
  ⟨rfl, rfl, rfl, rfl, by decide +kernel⟩

/-- States and operands that meet the hypotheses of `Obligations.ManagementMessages`. -/
theorem witness_ManagementMessages_4 :
    (let s : State := prt (ln 11 6 3 { probes := 1 }) ⟨4, 1, [1]⟩; let p : Port := 11;
      let m := frag 1 5 0 (List.replicate 88 2); let u : State := takeBypass s p m; let id := leAt m 2 2;
      let idx := leAt m 4 2; let d := (m.drop 8).take 88; let v := (⟨4, 1, [1]⟩ : AmmPart);
      let b := ({ u.bump BDG_AMM_ERR.BROKEN 1 with bdg := { u.bdg with parts := u.bdg.parts.drop p } } : State);
      (u = takeBypass s p m) ∧ (id = leAt m 2 2) ∧ (idx = leAt m 4 2) ∧ (d = (m.drop 8).take 88) ∧ (leAt m 0 1 = 3) ∧
      (s.linkState p ≠ 0) ∧ (u.bdg.parts.find? p = some v) ∧ (idx = 0) ∧
      (b = { u.bump BDG_AMM_ERR.BROKEN 1 with bdg := { u.bdg with parts := u.bdg.parts.drop p } }) ∧ (leAt m 1 1 = 1)) :=
  ⟨rfl, rfl, rfl, rfl, by decide +kernel⟩

/-- States and operands that meet the hypotheses of `Obligations.ManagementMessages`. -/
theorem witness_ManagementMessages_5 :
    (let s : State := prt (ln 11 6 3 { probes := 1 }) ⟨4, 1, [1]⟩; let p : Port := 11;
      let m := frag 2 5 0 (List.replicate 88 2); let u : State := takeBypass s p m; let id := leAt m 2 2;
      let idx := leAt m 4 2; let d := (m.drop 8).take 88; let v := (⟨4, 1, [1]⟩ : AmmPart);
      let b := ({ u.bump BDG_AMM_ERR.BROKEN 1 with bdg := { u.bdg with parts := u.bdg.parts.drop p } } : State);
      (u = takeBypass s p m) ∧ (id = leAt m 2 2) ∧ (idx = leAt m 4 2) ∧ (d = (m.drop 8).take 88) ∧ (leAt m 0 1 = 3) ∧
      (s.linkState p ≠ 0) ∧ (u.bdg.parts.find? p = some v) ∧ (idx = 0) ∧
      (b = { u.bump BDG_AMM_ERR.BROKEN 1 with bdg := { u.bdg with parts := u.bdg.parts.drop p } }) ∧ (leAt m 1 1 = 2)) :=
  ⟨rfl, rfl, rfl, rfl, by decide +kernel⟩

/-- States and operands that meet the hypotheses of `Obligations.ManagementMessages`. -/
theorem witness_ManagementMessages_6 :
    (let s : State := ln 11 6 3 { probes := 1 }; let p : Port := 11; let m := frag 3 5 0 (List.replicate 88 2);
      let u : State := takeBypass s p m; let id := leAt m 2 2; let idx := leAt m 4 2; let d := (m.drop 8).take 88;
      (u = takeBypass s p m) ∧ (id = leAt m 2 2) ∧ (idx = leAt m 4 2) ∧ (d = (m.drop 8).take 88) ∧ (leAt m 0 1 = 3) ∧
      (s.linkState p ≠ 0) ∧ (leAt m 1 1 ≠ 1) ∧ (leAt m 1 1 ≠ 2) ∧ (u.bdg.parts.find? p = none)) :=
  ⟨rfl, rfl, rfl, rfl, by decide +kernel⟩

/-- States and operands that meet the hypotheses of `Obligations.ManagementMessages`. -/
theorem witness_ManagementMessages_7 :
    (let s : State := prt (ln 11 6 3 { probes := 1 }) ⟨5, 1, [1]⟩; let p : Port := 11;
      let m := frag 3 5 2 (List.replicate 88 2); let u : State := takeBypass s p m; let id := leAt m 2 2;
      let idx := leAt m 4 2; let d := (m.drop 8).take 88; let v := (⟨5, 1, [1]⟩ : AmmPart); (u = takeBypass s p m) ∧
      (id = leAt m 2 2) ∧ (idx = leAt m 4 2) ∧ (d = (m.drop 8).take 88) ∧ (leAt m 0 1 = 3) ∧ (s.linkState p ≠ 0) ∧
      (u.bdg.parts.find? p = some v) ∧ (leAt m 1 1 = 3 ∨ leAt m 1 1 = 4) ∧ (v.msgId ≠ id ∨ v.next ≠ idx ∨ 47 ≤ idx)) :=
  ⟨rfl, rfl, rfl, rfl, by decide +kernel⟩

/-- States and operands that meet the hypotheses of `Obligations.ManagementMessages`. -/
theorem witness_ManagementMessages_8 :
    (let s : State := prt (ln 11 6 3 { probes := 1 }) ⟨5, 46, [1]⟩; let p : Port := 11;
      let m := frag 3 5 46 (List.replicate 88 2); let u : State := takeBypass s p m; let id := leAt m 2 2;
      let idx := leAt m 4 2; let d := (m.drop 8).take 88; let v := (⟨5, 46, [1]⟩ : AmmPart); (u = takeBypass s p m) ∧
      (id = leAt m 2 2) ∧ (idx = leAt m 4 2) ∧ (d = (m.drop 8).take 88) ∧ (leAt m 0 1 = 3) ∧ (s.linkState p ≠ 0) ∧
      (u.bdg.parts.find? p = some v) ∧ (leAt m 1 1 = 3 ∨ leAt m 1 1 = 4) ∧ (v.msgId = id) ∧ (v.next = idx) ∧ (idx < 47) ∧
      (leAt m 1 1 = 3)) :=
  ⟨rfl, rfl, rfl, rfl, by decide +kernel⟩

/-- States and operands that meet the hypotheses of `Obligations.ManagementMessages`. -/
theorem witness_ManagementMessages_9 :
    (let s : State := prt (ln 11 6 3 { probes := 1 }) ⟨5, 1, [1]⟩; let p : Port := 11;
      let m := frag 4 5 1 (List.replicate 88 2); let u : State := takeBypass s p m; let id := leAt m 2 2;
      let idx := leAt m 4 2; let d := (m.drop 8).take 88; let v := (⟨5, 1, [1]⟩ : AmmPart); (u = takeBypass s p m) ∧
      (id = leAt m 2 2) ∧ (idx = leAt m 4 2) ∧ (d = (m.drop 8).take 88) ∧ (leAt m 0 1 = 3) ∧ (s.linkState p ≠ 0) ∧
      (u.bdg.parts.find? p = some v) ∧ (leAt m 1 1 = 3 ∨ leAt m 1 1 = 4) ∧ (v.msgId = id) ∧ (v.next = idx) ∧ (idx < 47) ∧
      (leAt m 1 1 = 4)) :=
  ⟨rfl, rfl, rfl, rfl, by decide +kernel⟩

/-- States and operands that meet the hypotheses of `Obligations.ManagementMessages`. -/
theorem witness_ManagementMessages_10 :
    (let s : State := up; let via : Fin 16 := 11; let m := amm 0x17 0 []; let u : State := takeInbox s via m;
      (u = takeInbox s via m) ∧ (ammType m ≠ 0x18)) :=
  ⟨rfl, by decide +kernel⟩

/-- States and operands that meet the hypotheses of `Obligations.ManagementMessages`. -/
theorem witness_ManagementMessages_11 :
    (let s : State := up.wr BDG_STATUS.FW_RESTART 1; let via : Fin 16 := 11; let m := amm 0x18 0 [];
      let u : State := takeInbox s via m; (u = takeInbox s via m) ∧ (ammType m = 0x18) ∧ (fwUp s = false)) :=
  ⟨rfl, by decide +kernel⟩

/-- States and operands that meet the hypotheses of `Obligations.ManagementMessages`. -/
theorem witness_ManagementMessages_12 :
    (let s : State := up; let via : Fin 16 := 11; let m := amm 0x10 0 []; let u : State := takeInbox s via m;
      (u = takeInbox s via m) ∧ (fwUp s = true) ∧ (ammType m = 0x10) ∧ (u.sea.aliasKey = 0 ∨ u.on SEA_STATUS.RNG_OK = false)) :=
  ⟨rfl, by decide +kernel⟩

/-- States and operands that meet the hypotheses of `Obligations.ManagementMessages`. -/
theorem witness_ManagementMessages_13 :
    (let s : State := { up.wr SEA_STATUS.RNG_OK 1 with sea := { up.sea with aliasKey := 13 } }; let via : Fin 16 := 11;
      let m := amm 0x10 0 []; let u : State := takeInbox s via m; (u = takeInbox s via m) ∧ (fwUp s = true) ∧
      (ammType m = 0x10) ∧ (u.sea.aliasKey ≠ 0) ∧ (u.on SEA_STATUS.RNG_OK = true)) :=
  ⟨rfl, by decide +kernel⟩

/-- States and operands that meet the hypotheses of `Obligations.ManagementMessages`. -/
theorem witness_ManagementMessages_14 :
    (let s : State := up.wr SEA_STATUS.RNG_OK 1; let via : Fin 16 := 11; let m := amm 0x12 0 (List.replicate 320 0);
      let u : State := takeInbox s via m; let b := ammBody m;
      let t : State := (openSession u (b.take 96) ((b.drop 96).take 32) ((b.drop 128).take 96) ((b.drop 224).take 96)).1;
      let r := (openSession u (b.take 96) ((b.drop 96).take 32) ((b.drop 128).take 96) ((b.drop 224).take 96)).2;
      (u = takeInbox s via m) ∧ (b = ammBody m) ∧
      (openSession u (b.take 96) ((b.drop 96).take 32) ((b.drop 128).take 96) ((b.drop 224).take 96) = (t, r)) ∧
      (fwUp s = true) ∧ (ammType m = 0x12) ∧ (r = none) ∧ (u.on SEA_STATUS.RNG_OK = true)) :=
  ⟨rfl, rfl, rfl, by decide +kernel⟩

/-- States and operands that meet the hypotheses of `Obligations.ManagementMessages`. -/
theorem witness_ManagementMessages_15 :
    (let s : State := up; let via : Fin 16 := 11; let m := amm 0x19 0 (List.replicate 48 0);
      let u : State := takeInbox s via m; (u = takeInbox s via m) ∧ (fwUp s = true) ∧ (ammType m = 0x19) ∧
      (u.sea.aliasKey = 0)) :=
  ⟨rfl, by decide +kernel⟩

/-- States and operands that meet the hypotheses of `Obligations.ManagementMessages`. -/
theorem witness_ManagementMessages_16 :
    (let s : State := { up.wr SEA_STATUS.RNG_OK 1 with sea := { up.sea with aliasKey := 13 } }; let via : Fin 16 := 11;
      let m := amm 0x19 0 (List.replicate 48 0); let u : State := takeInbox s via m;
      let t : State := (makeReport u ((ammBody m).take 48)).2; let r := (makeReport u ((ammBody m).take 48)).1;
      (u = takeInbox s via m) ∧ (makeReport u ((ammBody m).take 48) = (r, t)) ∧ (fwUp s = true) ∧ (ammType m = 0x19) ∧
      (u.sea.aliasKey ≠ 0)) :=
  ⟨rfl, rfl, by decide +kernel⟩

/-- States and operands that meet the hypotheses of `Obligations.ManagementMessages`. -/
theorem witness_ManagementMessages_17 :
    (let s : State := up; let via : Fin 16 := 11; let m := amm 0x18 0 (List.replicate 124 0);
      let u : State := takeInbox s via m; (u = takeInbox s via m) ∧ (fwUp s = true) ∧ (ammType m = 0x18) ∧
      (u.on BDG_GROVE.STEWARD = false) ∧ (u.on BDG_GROVE.MEMBER = false)) :=
  ⟨rfl, by decide +kernel⟩

/-- States and operands that meet the hypotheses of `Obligations.ManagementMessages`. -/
theorem witness_ManagementMessages_18 :
    (let s : State := up.wr BDG_GROVE.MEMBER 1; let via : Fin 16 := 11; let m := amm 0x18 0 (List.replicate 124 0);
      let u : State := takeInbox s via m; (u = takeInbox s via m) ∧ (fwUp s = true) ∧ (ammType m = 0x18) ∧
      (u.bdg.flooded.contains (leAt (ammBody m) 12 8) = true ∨ (via.val ≠ 15 ∧ bitOf (ammFlags m) 1 = false))) :=
  ⟨rfl, by decide +kernel⟩

/-- States and operands that meet the hypotheses of `Obligations.ManagementMessages`. -/
theorem witness_ManagementMessages_19 :
    (let s : State := up; let via : Fin 16 := 11; let m := amm 0x20 0 (List.replicate 124 0);
      let u : State := takeInbox s via m; (u = takeInbox s via m) ∧ (fwUp s = true) ∧ (ammType m = 0x20) ∧
      (u.on BDG_GROVE.STEWARD = false)) :=
  ⟨rfl, by decide +kernel⟩

/-- States and operands that meet the hypotheses of `Obligations.ManagementMessages`. -/
theorem witness_ManagementMessages_20 :
    (let s : State := { up.wr BDG_GROVE.STEWARD 1 with bdg := { up.bdg with grove := [(3, { node := 9 })] } };
      let via : Fin 16 := 11; let m := amm 0x20 0 (List.replicate 124 0); let u : State := takeInbox s via m;
      let b := (ammBody m).take 32; (u = takeInbox s via m) ∧ (b = (ammBody m).take 32) ∧ (fwUp s = true) ∧
      (ammType m = 0x20) ∧ (u.on BDG_GROVE.STEWARD = true)) :=
  ⟨rfl, rfl, by decide +kernel⟩

/-- States and operands that meet the hypotheses of `Obligations.ManagementMessages`. -/
theorem witness_ManagementMessages_21 :
    (let s : State := up; let via : Fin 16 := 11; let m := amm 0x21 0 (natLE 4 3); let u : State := takeInbox s via m;
      let later := (u.bdg.healthSeq + 2 ^ 32 - leAt (ammBody m) 0 4) % 2 ^ 32; (u = takeInbox s via m) ∧
      (later = (u.bdg.healthSeq + 2 ^ 32 - leAt (ammBody m) 0 4) % 2 ^ 32) ∧ (fwUp s = true) ∧ (ammType m = 0x21) ∧
      (u.bdg.unacked ≤ later)) :=
  ⟨rfl, rfl, by decide +kernel⟩

/-- States and operands that meet the hypotheses of `Obligations.ManagementMessages`. -/
theorem witness_ManagementMessages_22 :
    (let s : State := { up.wr BDG_GROVE.STEWARD_LOST 1 with bdg := { up.bdg with healthSeq := 4, unacked := 3 } };
      let via : Fin 16 := 11; let m := amm 0x21 0 (natLE 4 3); let u : State := takeInbox s via m;
      let later := (u.bdg.healthSeq + 2 ^ 32 - leAt (ammBody m) 0 4) % 2 ^ 32; (u = takeInbox s via m) ∧
      (later = (u.bdg.healthSeq + 2 ^ 32 - leAt (ammBody m) 0 4) % 2 ^ 32) ∧ (fwUp s = true) ∧ (ammType m = 0x21) ∧
      (later < u.bdg.unacked)) :=
  ⟨rfl, rfl, by decide +kernel⟩

/-- States and operands that meet the hypotheses of `Obligations.ManagementMessages`. -/
theorem witness_ManagementMessages_23 :
    (let s : State := { up.wr BDG_GROVE.STEWARD 1 with bdg := { up.bdg with grove := [(3, { node := 9 })] } };
      let via : Fin 16 := 11; let m := amm 0x22 0 (List.replicate 124 0); let u : State := takeInbox s via m;
      (u = takeInbox s via m) ∧ (fwUp s = true) ∧ (ammType m = 0x22) ∧ (u.on BDG_GROVE.STEWARD = true)) :=
  ⟨rfl, by decide +kernel⟩

/-- States and operands that meet the hypotheses of `Obligations.FirmwarePeriods`. -/
theorem witness_FirmwarePeriods :
    (let s : State := up; (memberSends s = false)) :=
  by decide +kernel

/-- States and operands that meet the hypotheses of `Obligations.FirmwarePeriods`. -/
theorem witness_FirmwarePeriods_2 :
    (let s : State := let a := mem up; { a with bdg := { a.bdg with told := healthEvents a } };
      (s.now < s.bdg.lastHealth + ns (1000000 * s.bdg.healthPeriod)) ∧ (s.bdg.told = healthEvents s)) :=
  by decide +kernel

/-- States and operands that meet the hypotheses of `Obligations.FirmwarePeriods`. -/
theorem witness_FirmwarePeriods_3 :
    (let s : State := late (let a := mem up; { a with bdg := { a.bdg with told := healthEvents a } });
      let q := (s.bdg.healthSeq + 1) % 2 ^ 32; let t : State := ammOwn s 0x20 (s.rd BDG_GROVE2.STEWARD_NODE) (healthBody s q);
      (q = (s.bdg.healthSeq + 1) % 2 ^ 32) ∧ (t = ammOwn s 0x20 (s.rd BDG_GROVE2.STEWARD_NODE) (healthBody s q)) ∧
      (memberSends s = true) ∧ (s.bdg.lastHealth + ns (1000000 * s.bdg.healthPeriod) ≤ s.now ∨ s.bdg.told ≠ healthEvents s) ∧
      (s.bdg.unacked < 2)) :=
  ⟨rfl, rfl, by decide +kernel⟩

/-- States and operands that meet the hypotheses of `Obligations.FirmwarePeriods`. -/
theorem witness_FirmwarePeriods_4 :
    (let s : State := mem up; let q := (s.bdg.healthSeq + 1) % 2 ^ 32;
      let t : State := ammOwn s 0x20 (s.rd BDG_GROVE2.STEWARD_NODE) (healthBody s q); (q = (s.bdg.healthSeq + 1) % 2 ^ 32) ∧
      (t = ammOwn s 0x20 (s.rd BDG_GROVE2.STEWARD_NODE) (healthBody s q)) ∧ (memberSends s = true) ∧
      (s.bdg.lastHealth + ns (1000000 * s.bdg.healthPeriod) ≤ s.now ∨ s.bdg.told ≠ healthEvents s) ∧ (s.bdg.unacked < 2)) :=
  ⟨rfl, rfl, by decide +kernel⟩

/-- States and operands that meet the hypotheses of `Obligations.FirmwarePeriods`. -/
theorem witness_FirmwarePeriods_5 :
    (let s : State := let a := mem up; { a with bdg := { a.bdg with unacked := 2 } }; (TablesOk s) ∧ (memberSends s = true) ∧
      (s.bdg.lastHealth + ns (1000000 * s.bdg.healthPeriod) ≤ s.now ∨ s.bdg.told ≠ healthEvents s) ∧ (2 ≤ s.bdg.unacked)) :=
  ⟨tablesOk_of (by decide +kernel), by decide +kernel⟩

/-- States and operands that meet the hypotheses of `Obligations.FirmwarePeriods`. -/
theorem witness_FirmwarePeriods_6 :
    (let s : State := late (mem up);
      let t : State := ammOwn s 0x22 (s.rd BDG_GROVE2.STEWARD_NODE) (natLE 8 s.stampNs ++ portMap s);
      (t = ammOwn s 0x22 (s.rd BDG_GROVE2.STEWARD_NODE) (natLE 8 s.stampNs ++ portMap s)) ∧ (memberSends s = true) ∧
      (s.bdg.lastCong + ns (1000000 * s.bdg.congPeriod) ≤ s.now)) :=
  ⟨rfl, by decide +kernel⟩

/-- States and operands that meet the hypotheses of `Obligations.FirmwarePeriods`. -/
theorem witness_FirmwarePeriods_7 :
    (let s : State := { up with bdg := { up.bdg with grove := [(3, { node := 9, silent := true })] } }; let i : Fin 512 := 3;
      let e := ({ node := 9, silent := true } : GroveEntry); (s.bdg.grove.find? i = some e) ∧
      (e.silent = true ∨ s.nowNs < e.last + 3000000 * s.bdg.healthPeriod)) :=
  by decide +kernel

/-- States and operands that meet the hypotheses of `Obligations.FirmwarePeriods`. -/
theorem witness_FirmwarePeriods_8 :
    (let s : State := late ({ up.wr BDG_GROVE.STEWARD 1 with bdg := { up.bdg with grove := [(3, { node := 9 })] } });
      let i : Fin 512 := 3; let e := ({ node := 9 } : GroveEntry); (s.bdg.grove.find? i = some e) ∧
      (s.on BDG_GROVE.STEWARD = true) ∧ (fwUp s = true) ∧ (e.silent = false) ∧
      (e.last + 3000000 * s.bdg.healthPeriod ≤ s.nowNs)) :=
  by decide +kernel

/-- States and operands that meet the hypotheses of `Obligations.FirmwarePeriods`. -/
theorem witness_FirmwarePeriods_9 :
    (let s : State :=
        (((late (ln 11 6 3 { farCap := some (lmsg 3 []) })).wr BDG_TIME_CFG.PARENT_PORT 11).wr BDG_TIME_STAT.VALID 1).wr (LNK_TMR1.TIME_TOL 11) 1;
      let ofs := 3; let p := s.rd BDG_TIME_CFG.PARENT_PORT;
      let u : State := putOffset { s.wr BDG_TIME_STAT.PARENT_LOST 0 with bdg := { s.bdg with lastSync := s.now, missed := 0 } } ofs;
      (p = s.rd BDG_TIME_CFG.PARENT_PORT) ∧
      (u = putOffset { s.wr BDG_TIME_STAT.PARENT_LOST 0 with bdg := { s.bdg with lastSync := s.now, missed := 0 } } ofs) ∧
      (s.on BDG_TIME_CFG.ROOT = false) ∧ (p < 12) ∧ (fwUp s = true) ∧
      (s.bdg.lastSync + ns (1000000 * s.rd BDG_TIME_CFG.SYNC_PERIOD) ≤ s.now) ∧ (s.linkState p = 3 ∨ s.linkState p = 2) ∧
      (s.timeValid = true) ∧ (ofs.natAbs ≤ 1600 * s.rd (LNK_TMR1.TIME_TOL p))) :=
  ⟨rfl, rfl, by decide +kernel⟩

/-- States and operands that meet the hypotheses of `Obligations.FirmwarePeriods`. -/
theorem witness_FirmwarePeriods_10 :
    (let s : State :=
        (((late (ln 11 6 3 { farCap := some (lmsg 3 []) })).wr BDG_TIME_CFG.PARENT_PORT 11).wr BDG_TIME_STAT.VALID 1).wr (LNK_TMR1.TIME_TOL 11) 1;
      let ofs := (-3000); let p := s.rd BDG_TIME_CFG.PARENT_PORT;
      let u : State := putOffset { s.wr BDG_TIME_STAT.PARENT_LOST 0 with bdg := { s.bdg with lastSync := s.now, missed := 0 } } ofs;
      (p = s.rd BDG_TIME_CFG.PARENT_PORT) ∧
      (u = putOffset { s.wr BDG_TIME_STAT.PARENT_LOST 0 with bdg := { s.bdg with lastSync := s.now, missed := 0 } } ofs) ∧
      (s.on BDG_TIME_CFG.ROOT = false) ∧ (p < 12) ∧ (fwUp s = true) ∧
      (s.bdg.lastSync + ns (1000000 * s.rd BDG_TIME_CFG.SYNC_PERIOD) ≤ s.now) ∧ (s.linkState p = 3 ∨ s.linkState p = 2) ∧
      (s.timeValid = true) ∧ (1600 * s.rd (LNK_TMR1.TIME_TOL p) < ofs.natAbs)) :=
  ⟨rfl, rfl, by decide +kernel⟩

/-- States and operands that meet the hypotheses of `Obligations.FirmwarePeriods`. -/
theorem witness_FirmwarePeriods_11 :
    (let s : State :=
        (((late (ln 11 6 3 { farCap := some (lmsg 3 [0,2]) })).wr BDG_TIME_CFG.PARENT_PORT 11).wr BDG_TIME_STAT.VALID 0);
      let ofs := 3; let p := s.rd BDG_TIME_CFG.PARENT_PORT;
      let u : State := putOffset { s.wr BDG_TIME_STAT.PARENT_LOST 0 with bdg := { s.bdg with lastSync := s.now, missed := 0 } } ofs;
      (p = s.rd BDG_TIME_CFG.PARENT_PORT) ∧
      (u = putOffset { s.wr BDG_TIME_STAT.PARENT_LOST 0 with bdg := { s.bdg with lastSync := s.now, missed := 0 } } ofs) ∧
      (s.on BDG_TIME_CFG.ROOT = false) ∧ (p < 12) ∧ (fwUp s = true) ∧
      (s.bdg.lastSync + ns (1000000 * s.rd BDG_TIME_CFG.SYNC_PERIOD) ≤ s.now) ∧ (s.linkState p = 3 ∨ s.linkState p = 2) ∧
      (s.timeValid = false) ∧ (parentValid s p = true)) :=
  ⟨rfl, rfl, by decide +kernel⟩

/-- States and operands that meet the hypotheses of `Obligations.FirmwarePeriods`. -/
theorem witness_FirmwarePeriods_12 :
    (let s : State :=
        (((late (ln 11 6 3 { farCap := some (lmsg 3 []) })).wr BDG_TIME_CFG.PARENT_PORT 11).wr BDG_TIME_STAT.VALID 0);
      let ofs := 3; let p := s.rd BDG_TIME_CFG.PARENT_PORT;
      let u : State := putOffset { s.wr BDG_TIME_STAT.PARENT_LOST 0 with bdg := { s.bdg with lastSync := s.now, missed := 0 } } ofs;
      (p = s.rd BDG_TIME_CFG.PARENT_PORT) ∧
      (u = putOffset { s.wr BDG_TIME_STAT.PARENT_LOST 0 with bdg := { s.bdg with lastSync := s.now, missed := 0 } } ofs) ∧
      (s.on BDG_TIME_CFG.ROOT = false) ∧ (p < 12) ∧ (fwUp s = true) ∧
      (s.bdg.lastSync + ns (1000000 * s.rd BDG_TIME_CFG.SYNC_PERIOD) ≤ s.now) ∧ (s.linkState p = 3 ∨ s.linkState p = 2) ∧
      (s.timeValid = false) ∧ (parentValid s p = false)) :=
  ⟨rfl, rfl, by decide +kernel⟩

/-- States and operands that meet the hypotheses of `Obligations.FirmwarePeriods`. -/
theorem witness_FirmwarePeriods_13 :
    (let s : State := up.wr BDG_TIME_CFG.ROOT 1;
      (s.on BDG_TIME_CFG.ROOT = true ∨ s.now < s.bdg.lastSync + ns (1000000 * s.rd BDG_TIME_CFG.SYNC_PERIOD))) :=
  by decide +kernel

/-- States and operands that meet the hypotheses of `Obligations.FirmwarePeriods`. -/
theorem witness_FirmwarePeriods_14 :
    (let s : State := up.wr BDG_LOG_CFG.EN 1; (s.on BDG_LOG_CFG.EN = true)) :=
  by decide +kernel

/-- States and operands that meet the hypotheses of `Obligations.FirmwarePeriods`. -/
theorem witness_FirmwarePeriods_15 :
    (let s : State := up.wr BDG_LOG_CFG.EN 0; (TablesOk s) ∧ (s.on BDG_LOG_CFG.EN = false)) :=
  ⟨tablesOk_of (by decide +kernel), by decide +kernel⟩

/-- States and operands that meet the hypotheses of `Obligations.FirmwarePeriods`. -/
theorem witness_FirmwarePeriods_16 :
    (let s : State := up.wr BDG_LOG_CFG.EN 0; (TablesOk s)) :=
  tablesOk_of (by decide +kernel)

/-- States and operands that meet the hypotheses of `Obligations.FirmwarePeriods`. -/
theorem witness_FirmwarePeriods_17 :
    (let s : State := up.wr BDG_TIME_STAT.VALID 0; (s.timeValid = false ∨ fwUp s = false)) :=
  by decide +kernel

/-- States and operands that meet the hypotheses of `Obligations.FirmwarePeriods`. -/
theorem witness_FirmwarePeriods_18 :
    (let s : State := { up.wr BDG_TIME_STAT.VALID 1 with burrow := { up.burrow with refreshed := [up.nowNs, up.nowNs, 0, 0] } };
      let k : Fin 5 := 1; (s.timeValid = true) ∧ (fwUp s = true) ∧ (k.val < 4) ∧
      (s.nowNs < s.burrow.refreshed.getD k 0 + 730 * 86400000000000)) :=
  by decide +kernel

/-- States and operands that meet the hypotheses of `Obligations.FirmwarePeriods`. -/
theorem witness_FirmwarePeriods_19 :
    (let s : State := cfgS { up.wr BDG_TIME_STAT.VALID 1 |>.wr BDG_BURROW.OPEN 0 |>.wr BDG_LOG_CFG.EN 0 with time := { up.time with units := ns (1000 * 86400000000000) } };
      let k : Fin 5 := 2; (s.timeValid = true) ∧ (fwUp s = true) ∧ (k.val < 4) ∧
      (s.burrow.refreshed.getD k 0 + 730 * 86400000000000 ≤ s.nowNs) ∧ (s.burrow.dirty.contains (otherCopy k) = false) ∧
      (copyGood s (otherCopy k) = true) ∧ (s.on BDG_BURROW.OPEN = false) ∧ (s.on BDG_LOG_CFG.EN = false)) :=
  by decide +kernel

/-- States and operands that meet the hypotheses of `Obligations.FirmwarePeriods`. -/
theorem witness_FirmwarePeriods_20 :
    (let s : State := up; (s.burrow.checking = [])) :=
  by decide +kernel

/-- States and operands that meet the hypotheses of `Obligations.FirmwarePeriods`. -/
theorem witness_FirmwarePeriods_21 :
    (let s : State := { up with burrow := { up.burrow with checking := [Sum.inl 3] } }; let x := Sum.inl 3; let rest := [];
      let u : State := { s with burrow := { s.burrow with checking := rest } }; (s.burrow.checking = x :: rest) ∧
      (u = { s with burrow := { s.burrow with checking := rest } })) :=
  ⟨by decide +kernel, rfl⟩

/-- States and operands that meet the hypotheses of `Obligations.FirmwarePeriods`. -/
theorem witness_FirmwarePeriods_22 :
    (let s : State := { up with burrow := { up.burrow with checking := [Sum.inl 3] } }; let x := Sum.inl 3; let rest := [];
      let u : State := { s with burrow := { s.burrow with checking := rest } }; let i := 3;
      (u = { s with burrow := { s.burrow with checking := rest } }) ∧ (s.burrow.checking = x :: rest) ∧ (x = Sum.inl i) ∧
      (i ≠ (markBad u i).burrow.cur)) :=
  ⟨rfl, by decide +kernel⟩

end Sys2Proof.Tests
end

section
namespace Sys2Proof
variable {s t u : Machine.State} {l : List Component}

/-- A state is the same as itself. -/
theorem SameBut.refl (l : List Component) (s : Machine.State) : SameBut l s s := fun p _ => by cases p <;> rfl

theorem SameBut.trans (h : SameBut l s t) (g : SameBut l t u) : SameBut l s u := fun p hp => by
  have h1 := h p hp
  have h2 := g p hp
  cases p <;> exact h2.trans h1

theorem SameBut.mono {l' : List Component} (h : SameBut l s t) (hl : l ⊆ l') : SameBut l' s t :=
  fun p hp => h p fun hm => hp (hl hm)

theorem SameBut.foldl {α : Type} {f : Machine.State → α → Machine.State} (hf : ∀ t x, SameBut l t (f t x)) (xs : List α)
    (s : Machine.State) : SameBut l s (xs.foldl f s) := by
  induction xs generalizing s with
  | nil => exact SameBut.refl l s
  | cons x xs ih => exact (hf s x).trans (ih _)

/-- A value other than the unlisted one is read back from any table. -/
theorem Tbl.get_set_of_ne {α : Type} [DecidableEq α] {d v : α} (e : α) (t : Tbl α) (a : Nat) (h : v ≠ d) :
    Tbl.get e (t.set d a v) a = v := by
  rw [Tbl.set, if_neg h, Tbl.get_put_self]

end Sys2Proof

namespace Sys2Proof.Machine
variable {s : State}

/-! ### Bytes and numbers -/

@[simp] theorem length_natLE (n v : Nat) : (natLE n v).length = n := by
  induction n generalizing v with
  | zero => rfl
  | succ n ih => simp [natLE, ih]

theorem leNat_natLE (n v : Nat) : leNat (natLE n v) = v % 256 ^ n := by
  induction n generalizing v with
  | zero => simp [natLE, leNat, Nat.mod_one]
  | succ n ih =>
    rw [natLE, leNat, ih, BitVec.toNat_ofNat, Nat.pow_succ' (m := 256), Nat.mod_mul (a := 256)]

theorem leAt_append_left {x y : List Byte} {o n : Nat} (h : o + n ≤ x.length) : leAt (x ++ y) o n = leAt x o n := by
  unfold leAt
  rw [List.drop_append_of_le_length (by omega), List.take_append_of_le_length (by simp; omega)]

theorem leAt_append_right {x y : List Byte} {o n : Nat} (h : x.length ≤ o) : leAt (x ++ y) o n = leAt y (o - x.length) n := by
  unfold leAt
  rw [List.drop_append, List.drop_of_length_le h, List.nil_append]

@[simp] theorem leAt_natLE (n v : Nat) : leAt (natLE n v) 0 n = v % 256 ^ n := by
  rw [leAt, List.drop_zero, List.take_of_length_le (by simp), leNat_natLE]

/-! ### Updates of synchronisation objects -/

theorem sameBut_fireTrig (s : State) (t v : Nat) : SameBut [.syn] s (fireTrig s t v) := by
  intro p hp
  cases p <;> simp_all [Component.same, fireTrig]

/-- An update of an object reaches the store, the contexts that wait, and what a path has staged. -/
theorem sameBut_synPut (s : State) (o v : Nat) : SameBut [.syn, .ctxs, .acc] s (synPut s o v) := by
  refine SameBut.trans (t := wakeWaits _ o (v % 2 ^ 64)) ?_ (SameBut.foldl (fun t i => ?_) _ _)
  · intro p hp
    cases p <;> simp_all [Component.same, wakeWaits]
  · split
    · exact (sameBut_fireTrig t i _).mono (by simp)
    · exact SameBut.refl _ t

theorem sameBut_synAdd (s : State) (o n : Nat) : SameBut [.syn, .ctxs, .acc] s (synAdd s o n) := by
  unfold synAdd
  split
  · exact SameBut.refl _ s
  · exact sameBut_synPut s o _

theorem sameBut_applyCnt (s : State) (o : Option Nat) : SameBut [.syn, .ctxs, .acc] s (applyCnt s o) := by
  cases o with
  | none => exact SameBut.refl _ s
  | some obj => exact sameBut_synAdd s obj 1

/-! ### Host memory requests -/

theorem sameBut_hmpIssueAll (w : Bool) (src id : Nat) (data : List Byte) (parts : List (Nat × Nat)) (off : Nat) (s : State) :
    SameBut [.hmp] s (hmpIssueAll w src id data parts off s) := by
  induction parts generalizing off s with
  | nil => exact SameBut.refl _ s
  | cons x xs ih =>
    refine SameBut.trans ?_ (ih _ _)
    intro p hp
    cases p <;> simp_all [Component.same, hmpIssue]

theorem sameBut_hmpStart (s : State) (w : Bool) (src : Nat) (ext : List (Nat × Nat)) (data : List Byte) (k : Purpose) :
    SameBut [.hmp] s (hmpStart s w src ext data k) := by
  refine SameBut.trans ?_ (sameBut_hmpIssueAll _ _ _ _ _ _ _)
  intro p hp
  cases p <;> simp_all [Component.same]

/-! ### The end of Drowse -/

theorem sameBut_drowseExit (s : State) : SameBut [.regs, .csp] s (drowseExit s) := by
  intro p hp
  unfold drowseExit
  split
  · cases p <;> simp_all [Component.same]
  · exact SameBut.refl _ s p hp

@[simp] theorem drowseExit_mrt (s : State) : (drowseExit s).mrt = s.mrt := sameBut_drowseExit s .mrt (by decide)

/-- The end of Drowse writes the power state's register alone. -/
theorem drowseExit_reg (h : TablesOk s) {a : Nat} (ha : a ≠ CSP_STATUS.STATE.addr) : (drowseExit s).reg a = s.reg a := by
  rcases drowseExit_cases s with e | ⟨-, e⟩
  · rw [e]
  · rw [e]; exact State.reg_wr_ne s _ _ a h.regs ha

theorem drowseExit_rd (h : TablesOk s) (f : Fld) (hf : f.addr ≠ CSP_STATUS.STATE.addr) : (drowseExit s).rd f = s.rd f := by
  unfold State.rd; rw [drowseExit_reg h hf]

theorem drowseExit_fenced (h : TablesOk s) : (drowseExit s).fenced = s.fenced := by
  unfold State.fenced; rw [drowseExit_reg h (by decide), drowseExit_pins]

@[simp] theorem drowseExit_queue (s : State) (q : Nat) : (drowseExit s).queue q = s.queue q := by unfold State.queue; simp


end Sys2Proof.Machine
end

section
namespace Sys2Proof.Machine
variable {s : State}

/-! ### Completions -/

@[simp] theorem queue_report (s : State) (a b c d q : Nat) : (report s a b c d).queue q = s.queue q := rfl

theorem queue_setQueue_of_wf (h : Tbl.wf (fun _ => ({} : Queue)) s.queues = true) (q : Nat) (v : Queue) :
    (s.setQueue q v).queue q = v := Tbl.get_set_self (fun _ => ({} : Queue)) q v h

/-- An entry is written where the ring has room and nothing is held before it (R104, R118). -/
theorem qComplete_write {q : Nat} {c : Cpl} (hb : bitOf c.flags 0 = true) (ho : (s.queue q).state = .opened)
    (hn : (s.queue q).noEntries = false) (hf : (s.queue q).full = false) (hh : (s.queue q).held = []) :
    qComplete s q c = writeCpl s q c := by
  simp [qComplete, hb, ho, hn, hf, hh]

/-- The queue of which an entry is being written (R25, R115). -/
theorem writeCpl_queue (h : TablesOk s) (q : Nat) (c : Cpl) : (writeCpl s q c).queue q = { s.queue q with
    cplTail := if (s.queue q).cplTail + 1 = (s.queue q).size then 0 else (s.queue q).cplTail + 1
    phase := if (s.queue q).cplTail + 1 = (s.queue q).size then !(s.queue q).phase else (s.queue q).phase
    unconsumed := (s.queue q).unconsumed ++ [bitOf c.flags 3 && !(c.imm && c.status = stVERSION)]
    writing := (s.queue q).writing + 1 } := by
  have hq : (writeCpl s q c).queues = _ := sameBut_hmpStart _ _ _ _ _ _ .queues (by decide)
  rw [State.queue, hq]
  exact queue_setQueue_self h q _

/-- While the ring is full, or completions wait, the completion waits behind them (R118). -/
theorem qComplete_hold {q : Nat} {c : Cpl} (hb : bitOf c.flags 0 = true) (ho : (s.queue q).state = .opened)
    (hn : (s.queue q).noEntries = false) (hf : (s.queue q).full = true) :
    qComplete s q c = s.setQueue q { s.queue q with held := (s.queue q).held ++ [c] } := by
  simp [qComplete, hb, ho, hn, hf]

/-- Without FLAGS.CPL, or in ERROR, only the CNT add is made (R100, R119). -/
theorem qComplete_noEntry {q : Nat} {c : Cpl} (h : (bitOf c.flags 0 = false ∧ c.imm = false) ∨ (s.queue q).state = .error) :
    qComplete s q c = applyCnt s (cplCnt s (s.queue q) c) := by
  rcases h with ⟨hb, hi⟩ | h
  · simp [qComplete, hb, hi]
  · simp [qComplete, h]

@[simp] theorem length_cplBytes (q : Nat) (c : Cpl) (ph : Bool) (f : Nat) : (cplBytes q c ph f).length = 32 := by
  simp [cplBytes]

theorem cplBytes_fields (q : Nat) (c : Cpl) (ph : Bool) (f : Nat) :
    leAt (cplBytes q c ph f) 0 4 = c.userTag % 2 ^ 32 ∧ leAt (cplBytes q c ph f) 4 2 = q % 2 ^ 16 ∧
      leAt (cplBytes q c ph f) 6 1 = c.status % 256 ∧ leAt (cplBytes q c ph f) 8 4 = c.index % 2 ^ 32 ∧
      leAt (cplBytes q c ph f) 24 8 = f % 2 ^ 64 := by
  unfold cplBytes
  simp [leAt_append_left, leAt_append_right]

/-- The write of an entry has failed: the CNT add stands, the queue is in ERROR and F2 names it (R92, R119). -/
theorem cplWritten_failed (h : TablesOk s) {q : Nat} (o : Option Nat) (hn : (s.queue q).noEntries = false)
    (hh : (s.queue q).held = []) : ((cplWritten s q o false).queue q).state = .error ∧
      (cplWritten s q o false).hhg.waiting = s.hhg.waiting ++ [⟨0x11, 2, 0x03, q, false⟩] := by
  let v : Queue := { s.queue q with writing := (s.queue q).writing - 1 }
  let s1 := applyCnt (s.setQueue q v) o
  have hf : SameBut [.syn, .ctxs, .acc] (s.setQueue q v) s1 := sameBut_applyCnt _ o
  have hqs : s1.queues = (s.setQueue q v).queues := hf .queues (by decide)
  have hv : s1.queue q = v := by rw [State.queue, hqs]; exact queue_setQueue_self h q v
  have ht : cplWritten s q o false = report (s1.setQueue q { v with state := .error, held := [] }) 0x11 2 0x03 q := by
    show queueError s1 q = _
    simp [queueError, hv, v, hn, hh]
  constructor
  · have hwf : Tbl.wf (fun _ => ({} : Queue)) s1.queues = true := hqs ▸ (tablesOk_setQueue h q v).queues
    rw [ht, queue_report, queue_setQueue_of_wf hwf]
  · rw [ht, report_waiting, State.setQueue_hhg, show s1.hhg = s.hhg from hf .hhg (by decide)]


/-! ### Pushed descriptors -/

theorem exec_oppPush_open (h : s.fabricOpen = true) (q : QNum) (b : List Byte) :
    exec (.oppPush q b) s = .next (oppPush (drowseExit s) q b) :=
  congrArg _ (viaFabric_open s _ h)

/-- What joins a queue's waiting descriptors: the queue, the count of descriptors, and nothing else. -/
theorem joinWaiting_queue (h : TablesOk s) (q : Nat) (d : Desc) :
    (joinWaiting s q d).queue q = { s.queue q with waiting := (s.queue q).waiting ++ [{ d with seq := s.mrt.descSeq }] } :=
  queue_setQueue_self h q _

theorem joinWaiting_queue_ne (h : TablesOk s) (q : Nat) (d : Desc) {j : Nat} (hj : j ≠ q) :
    (joinWaiting s q d).queue j = s.queue j :=
  queue_setQueue_ne h q j _ hj

@[simp] theorem joinWaiting_mrt (s : State) (q : Nat) (d : Desc) :
    (joinWaiting s q d).mrt = { s.mrt with descSeq := s.mrt.descSeq + 1 } := rfl

theorem sameBut_setQueue (s : State) (q : Nat) (v : Queue) : SameBut [.queues] s (s.setQueue q v) := by
  intro p hp
  cases p <;> simp_all [Component.same]

theorem sameBut_joinWaiting (s : State) (q : Nat) (d : Desc) : SameBut [.queues, .mrt] s (joinWaiting s q d) := by
  intro p hp
  cases p <;> simp_all [Component.same, joinWaiting]

/-- OPP_READY is low: nothing is taken (R100). -/
theorem oppPush_notReady {q : Nat} {b : List Byte} (h : s.oppReady = false) : oppPush s q b = s := by
  simp [oppPush, h]

/-- A queue that is not open for pushes, or whose FIFO and ring are both full, discards (R100). -/
theorem oppPush_closed {q : Nat} {b : List Byte} (h : s.oppReady = true)
    (hc : (s.queue q).state ≠ .opened ∨ (s.queue q).push = false) : oppPush s q b = s.bump OPP_ERR.DISCARD_CNT 1 := by
  rcases hc with hc | hc <;> simp [oppPush, h, hc]

section
variable {q : Nat} {b : List Byte} {v : Queue} {d : Desc} {s1 : State}

theorem oppPush_full (h : s.oppReady = true) (ho : (s.queue q).state = .opened) (hp : (s.queue q).push = true)
    (hf : (s.queue q).full = true) (hu : 64 ≤ (s.queue q).fifoUse) : oppPush s q b = s.bump OPP_ERR.DISCARD_CNT 1 := by
  simp [oppPush, h, ho, hp, hf, hu]

/-- A queue open for pushes has room in its FIFO or its ring. -/
theorem not_full_and_fifo {v : Queue} (hr : v.full = false ∨ v.fifoUse < 64) : ¬(v.full = true ∧ 64 ≤ v.fifoUse) :=
  fun ⟨hf, hu⟩ => hr.elim (fun h => by simp [h] at hf) fun h => by omega

variable (h : s.oppReady = true) (hv : v = s.queue q) (ho : v.state = .opened) (hp : v.push = true)
  (hr : v.full = false ∨ v.fifoUse < 64) (hd : d = descOf b v.accepted)
  (h1 : s1 = s.setQueue q { v with accepted := (v.accepted + 1) % 2 ^ 32 })
include h hv ho hp hr hd h1

/-- The fence comes first (R29). -/
theorem oppPush_fenced (hf : s.fenced = true) : oppPush s q b = qComplete s1 q (d.cplOf stFENCED 0 0 true) := by
  subst hv hd h1
  simp [oppPush, h, ho, hp, not_full_and_fifo hr, hf]

/-- Then the quota (R22). -/
theorem oppPush_quota (hf : s.fenced = false) (hq : 64 ≤ v.fifoUse) :
    oppPush s q b = qComplete (s1.bump OPP_ERR.QUOTA_CNT 1) q (d.cplOf stQUOTA 0 0 true) := by
  subst hv hd h1
  have hfull : (s.queue q).full = false := hr.resolve_right (Nat.not_lt.2 hq)
  simp [oppPush, h, ho, hp, hfull, hf, hq]

omit hr in
/-- Then the form (R102). -/
theorem oppPush_malformed (hf : s.fenced = false) (hq : v.fifoUse < 64) {st : Nat} (hm : d.malformed = some st) :
    oppPush s q b = qComplete s1 q (d.cplOf st 0 0 true) := by
  subst hv hd h1
  simp [oppPush, h, ho, hp, hf, Nat.not_le.2 hq, hm]

omit hr in
/-- A descriptor that passes them waits in the FIFO. -/
theorem oppPush_joins (hf : s.fenced = false) (hq : v.fifoUse < 64) (hm : d.malformed = none) :
    oppPush s q b = joinWaiting s1 q d := by
  subst hv hd h1
  simp [oppPush, h, ho, hp, hf, Nat.not_le.2 hq, hm]

end
end Sys2Proof.Machine
end

section
namespace Sys2Proof.Proofs
open Sys2Proof.Machine

/-- Settles O22: the cases of R100 in order, then what each kind of completion writes. -/
theorem pushesAndCompletions : Obligations.PushesAndCompletions := by
  refine ⟨?_, ?_, ?_, ?_, ?_, ?_⟩
  · intro s u q b v d s1 hs hopen hu hv hd h1
    have hf : u.fenced = s.fenced := by rw [hu, drowseExit_fenced hs]
    have hok : TablesOk u := hu ▸ tablesOk_drowseExit hs
    rw [exec_oppPush_open hopen, ← hu, ← hf]
    refine ⟨fun h => by rw [oppPush_notReady h], fun h => ⟨fun hc => by rw [oppPush_closed h (hv ▸ hc)], fun ho hp =>
      ⟨fun hfull huse => ?_, fun hr => ⟨fun hf1 => ?_, fun hf0 hq => ?_, fun st hf0 hq hm => ?_, fun hm hf0 hq => ?_⟩⟩⟩⟩
    · subst hv; rw [oppPush_full h ho hp hfull huse]
    · rw [oppPush_fenced h hv ho hp hr hd h1 hf1]
    · rw [oppPush_quota h hv ho hp hr hd h1 hf0 hq]
    · rw [oppPush_malformed h hv ho hp hd h1 hf0 hq hm]
    · have hok1 : TablesOk s1 := h1 ▸ tablesOk_setQueue hok q _
      have hq1 : s1.queue q = { v with accepted := (v.accepted + 1) % 2 ^ 32 } := h1 ▸ queue_setQueue_self hok q _
      have hm1 : s1.mrt = s.mrt := by simp [h1, hu]
      refine ⟨joinWaiting s1 q d, ?_, ?_, ?_, fun q' hq' => ?_, ?_⟩
      · rw [exec_oppPush_open hopen, ← hu, oppPush_joins h hv ho hp hd h1 hf0 hq hm]
      · rw [joinWaiting_queue hok1, hq1, hm1]
      · rw [joinWaiting_mrt, hm1]
      · rw [joinWaiting_queue_ne hok1 q d hq', h1, queue_setQueue_ne hok q q' _ hq', hu, drowseExit_queue]
      · have hsu : SameBut [.queues, .regs, .csp, .mrt] s u := hu ▸ (sameBut_drowseExit s).mono (by simp)
        have hu1 : SameBut [.queues, .regs, .csp, .mrt] u s1 := h1 ▸ (sameBut_setQueue u q _).mono (by simp)
        exact (hsu.trans hu1).trans ((sameBut_joinWaiting s1 q d).mono (by simp))
  · rintro s q c v hs rfl hb ho hn hf hh t rfl
    rw [qComplete_write hb ho hn hf hh, writeCpl_queue hs]
    refine ⟨rfl, rfl, by simp, rfl, rfl⟩
  · rintro s q c v rfl hb ho hn hf
    exact qComplete_hold hb ho hn hf
  · exact fun s q c h => qComplete_noEntry h
  · exact fun q c ph f => ⟨length_cplBytes q c ph f, cplBytes_fields q c ph f⟩
  · rintro s q o hs hn hh t rfl
    exact cplWritten_failed hs o hn hh

end Sys2Proof.Proofs
end

section
namespace Sys2Proof.Machine
variable {s u : State} {p : Pkt}

/-! ### Responses at the initiator -/

/-- A malformed response counts BAD (R264). -/
theorem takeResponse_bad {peer : Bool} {use : State → OotEntry → State} (h : p.intact = false) :
    takeResponse u p peer use = u.bump XPT_ERR2.BAD 1 := by
  simp [takeResponse, h]

/-- One that names no entry in flight counts STRAY (R282). -/
theorem takeResponse_stray {peer : Bool} {use : State → OotEntry → State} (h : p.intact = true) (hl : liveEntry u p peer = none) :
    takeResponse u p peer use = u.bump XPT_ERR.STRAY 1 := by
  simp [takeResponse, h, hl]

/-- Another acts on the entry that it names (R282). -/
theorem takeResponse_live {peer : Bool} {use : State → OotEntry → State} {e : OotEntry} (h : p.intact = true)
    (hl : liveEntry u p peer = some e) : takeResponse u p peer use = use u e := by
  simp [takeResponse, h, hl]

section
variable (ho : s.fabricOpen = true) (hu : u = takeDelivered (drowseExit s) p)
include ho hu

/-- A packet's command runs on the block awake, the packet taken from the router, where its row is the packet's. -/
theorem viaFabric_row {op : Nat} (hp : p.opcode = op) (f : State → Pkt → State) :
    viaFabric s (fun s => if p.opcode = op then f (takeDelivered s p) p else s) = f u p := by
  rw [viaFabric_open s _ ho, if_pos hp, hu]

theorem exec_ack (hp : p.opcode = 0x81) : exec (.ack p) s = .next (ackArrives u p) :=
  congrArg _ (viaFabric_row ho hu hp ackArrives)

theorem exec_data (hp : p.opcode = 0x82) : exec (.data p) s = .next (dataArrives u p) :=
  congrArg _ (viaFabric_row ho hu hp dataArrives)

theorem exec_result (hp : p.opcode = 0x83) : exec (.result p) s = .next (resultArrives u p) :=
  congrArg _ (viaFabric_row ho hu hp resultArrives)

theorem exec_resync (hp : p.opcode = 0x8A) : exec (.resync p) s = .next (resyncArrives u p) :=
  congrArg _ (viaFabric_row ho hu hp resyncArrives)

theorem exec_routerNak (hp : p.opcode = 0x8F) : exec (.routerNak p) s = .next (routerNakArrives u p) :=
  congrArg _ (viaFabric_row ho hu hp routerNakArrives)

theorem exec_syncAck (hp : p.opcode = 0x88) : exec (.syncAck p) s = .next (syncAck u p) :=
  congrArg _ (viaFabric_row ho hu hp syncAck)

theorem exec_sync (hp : p.opcode = 0x08) : exec (.sync p) s = .next (receiveSync u p) :=
  congrArg _ (viaFabric_row ho hu hp receiveSync)

/-- The four commands of responses share the check of R264 and R282, each with its own use of the entry. -/
theorem exec_response {c : Pkt → Instr} {op : Nat}
    (hc : (c, op) ∈ [(Instr.ack, 0x81), (Instr.data, 0x82), (Instr.result, 0x83), (Instr.resync, 0x8A)]) (hp : p.opcode = op) :
    ∃ use, exec (c p) s = .next (takeResponse u p true use) := by
  simp only [List.mem_cons, Prod.mk.injEq, List.not_mem_nil, or_false] at hc
  rcases hc with ⟨rfl, rfl⟩ | ⟨rfl, rfl⟩ | ⟨rfl, rfl⟩ | ⟨rfl, rfl⟩
  · exact ⟨_, exec_ack ho hu hp⟩
  · exact ⟨_, exec_data ho hu hp⟩
  · exact ⟨_, exec_result ho hu hp⟩
  · exact ⟨_, exec_resync ho hu hp⟩

end

/-- DATA with OK for a GET is written through the local translation (R282). -/
theorem dataArrives_ok {e : OotEntry} {o : XOp} (h : p.intact = true) (hl : liveEntry u p true = some e)
    (hx : u.xop e.op = some o) (hs : p.status = stOK) (he : e.opcode = 2) : dataArrives u p =
      hmpScatter ((u.putEntry p.tag { e with writing := true, deadline := none }).putXop { o with accessed := true }) 0
        (cutExt o.ext e.poff e.len) (p.payload.take e.len) (.getData p.tag e.len) := by
  rw [dataArrives, takeResponse_live h hl]
  simp [hx, hs, he]

/-- DATA with another status ends its packet (R282). -/
theorem dataArrives_refused {e : OotEntry} {o : XOp} (h : p.intact = true) (hl : liveEntry u p true = some e)
    (hx : u.xop e.op = some o) (hs : p.status ≠ stOK) : dataArrives u p = packetEnd u p.tag p.status 0 := by
  rw [dataArrives, takeResponse_live h hl]
  simp [hx, hs]

section
variable (h : p.intact = true)
include h

/-- A ROUTER_NAK of a packet in flight (R24, R282). -/
theorem routerNakArrives_stray (ho : (if p.seq = 0 then syncOf u p.stag else none) = none) (hl : liveEntry u p false = none) :
    routerNakArrives u p = u.bump XPT_ERR.STRAY 1 := by
  simp [routerNakArrives, h, ho, hl]

theorem routerNakArrives_partition {e : OotEntry} (ho : (if p.seq = 0 then syncOf u p.stag else none) = none)
    (hl : liveEntry u p false = some e) (hs : p.status = stPARTITION) :
    routerNakArrives u p = packetEnd u p.tag stPARTITION 0 := by
  simp [routerNakArrives, h, ho, hl, hs]

theorem routerNakArrives_unreachable {e : OotEntry} (ho : (if p.seq = 0 then syncOf u p.stag else none) = none)
    (hl : liveEntry u p false = some e) (hs : p.status ≠ stPARTITION) : routerNakArrives u p =
      if u.rd XPT_CFG.ATTEMPTS ≤ e.attempt then peerUnreachable (u.bump XPT_ERR3.RNAK_UNREACH 1) e.peer
      else u.bump XPT_ERR3.RNAK_UNREACH 1 := by
  simp [routerNakArrives, h, ho, hl, hs]

/-- A ROUTER_NAK of a pending SYNC, refused for its key (R269). -/
theorem routerNakArrives_sync {i : Nat} (ho : (if p.seq = 0 then syncOf u p.stag else none) = some i)
    (hs : p.status = stPARTITION) : routerNakArrives u p = syncRefused u i := by
  simp [routerNakArrives, h, ho, hs]

end

/-! ### The handshake (R269, R270) -/

/-- The STAG of the pending SYNC opens the stream. -/
theorem syncAck_opens (h : p.intact = true) (hs : (u.peer (streamOf p.src p.tc)).txState = 1 ∧
    p.stag = (u.peer (streamOf p.src p.tc)).syncStag) : syncAck u p = pumpStream (u.setPeer (streamOf p.src p.tc)
      { u.peer (streamOf p.src p.tc) with
        txState := 2, txStag := p.stag, txNext := 0, begun := [], syncEnd := none, syncAttempt := 0 }) (streamOf p.src p.tc) := by
  rw [syncAck, if_neg (by simp [h]), if_pos hs]

theorem syncAck_stray (h : p.intact = true) (hs : (u.peer (streamOf p.src p.tc)).txState ≠ 1 ∨
    p.stag ≠ (u.peer (streamOf p.src p.tc)).syncStag) : syncAck u p = u.bump XPT_ERR.STRAY 1 := by
  rw [syncAck, if_neg (by simp [h]), if_neg (by tauto)]

/-- A SYNC of the numbering that stands is answered again. -/
theorem receiveSync_again (h : p.intact = true) (ha : pktAge u p ≤ u.rd XPT_CFG.PKT_LIFE)
    (hr : (u.peer (streamOf p.src p.tc)).rxState = 1 ∧ p.stag = (u.peer (streamOf p.src p.tc)).rxStag) :
    receiveSync u p = respondTo u p 0x88 stOK [] := by
  simp [receiveSync, h, Nat.not_lt.2 ha, hr.1, ← hr.2]

/-- The block with the receiving half of stream `i` begun again under `stag`: no record and no held packet of the stream is
left (R270). -/
def restartRx (s : State) (i stag : Nat) : State :=
  let s1 := dropRecs s fun r => r.stream = i
  ({ s1 with xpt := { s1.xpt with held := s1.xpt.held.filter fun h => h.2.stream ≠ i } } : State).setPeer i
    { s.peer i with rxStag := stag, rxBase := 0, rxState := 1, bmp := 0, bmpIdx := none }

theorem restartRx_peer (s : State) (i stag : Nat) : (restartRx s i stag).peer i =
    { s.peer i with rxStag := stag, rxBase := 0, rxState := 1, bmp := 0, bmpIdx := none } :=
  Tbl.get_set_of_ne _ _ _ fun h => Nat.one_ne_zero (congrArg Peer.rxState h)

theorem restartRx_recs (s : State) (i stag : Nat) : ∀ x ∈ (restartRx s i stag).xpt.recs, x.2.stream ≠ i := fun x hx => by
  have := (List.mem_filter.1 hx).2
  simpa using this

/-- A SYNC with a new STAG restarts the receiving half. -/
theorem receiveSync_new (h : p.intact = true) (ha : pktAge u p ≤ u.rd XPT_CFG.PKT_LIFE)
    (hr : ¬((u.peer (streamOf p.src p.tc)).rxState = 1 ∧ p.stag = (u.peer (streamOf p.src p.tc)).rxStag)) :
    receiveSync u p = respondTo (restartRx u (streamOf p.src p.tc) p.stag) p 0x88 stOK [] := by
  rw [receiveSync, if_neg (by simp [h]), if_neg (Nat.not_lt.2 ha), if_neg hr]
  rfl

/-- The response joins what is to be sent, in the name of the request it answers (R263). -/
theorem respondTo_out (s : State) (q : Pkt) (op st : Nat) (b : List Byte) : ∃ o, (respondTo s q op st b).out = s.out ++ [o] ∧
    o.pkt.opcode = op ∧ o.pkt.status = st ∧ o.pkt.stag = q.stag ∧ o.pkt.dest = q.src :=
  ⟨_, rfl, rfl, rfl, rfl, rfl⟩

@[simp] theorem respondTo_xpt (s : State) (q : Pkt) (op st : Nat) (b : List Byte) : (respondTo s q op st b).xpt = s.xpt := rfl

end Sys2Proof.Machine

namespace Sys2Proof.Proofs
open Sys2Proof.Machine

/-- Settles O37: each response's own lemma, and the two cases of R270 for SYNC. -/
theorem responses : Obligations.Responses := by
  intro s p u ho hu
  refine ⟨fun c op hc hp => ?_, fun e h hl => ⟨fun hp => ?_, fun hp => ?_, fun hp o hx => ⟨fun hs => ?_, fun hs he => ?_⟩,
    fun hp => ?_⟩, ?_, fun hp h e he => ⟨fun hs => ?_, fun hs => ?_⟩, fun hp h ha => ?_⟩
  · obtain ⟨use, hr⟩ := exec_response ho hu hc hp
    exact ⟨fun h => by rw [hr, takeResponse_bad h], fun h hl => by rw [hr, takeResponse_stray h hl]⟩
  · rw [exec_ack ho hu hp, ackArrives, takeResponse_live h hl]
  · rw [exec_result ho hu hp, resultArrives, takeResponse_live h hl]
  · rw [exec_data ho hu hp, dataArrives_refused h hl hx hs]
  · rw [exec_data ho hu hp, dataArrives_ok h hl hx hs he]
  · rw [exec_resync ho hu hp, resyncArrives, takeResponse_live h hl]
  · intro h hp o hsync
    rw [exec_routerNak ho hu hp]
    refine ⟨fun hn hl => ?_, fun hn e hl => ⟨fun hs => ?_, fun hs ha => ?_, fun hs ha => ?_⟩, fun i hi hs => ?_⟩
    · rw [routerNakArrives_stray h (hsync ▸ hn) hl]
    · rw [routerNakArrives_partition h (hsync ▸ hn) hl hs]
    · rw [routerNakArrives_unreachable h (hsync ▸ hn) hl hs, if_neg (Nat.not_le.2 ha)]
    · rw [routerNakArrives_unreachable h (hsync ▸ hn) hl hs, if_pos ha]
    · rw [routerNakArrives_sync h (hsync ▸ hi) hs]
  · subst he; rw [exec_syncAck ho hu hp, syncAck_opens h hs]
  · subst he; rw [exec_syncAck ho hu hp, syncAck_stray h hs]
  · have hx : u.xpt = s.xpt := by rw [hu]; exact drowseExit_xpt s
    have hpeer : ∀ i, u.peer i = s.peer i := fun i => by rw [State.peer, hx]; rfl
    have hout : u.out = s.out := by rw [hu]; exact drowseExit_out s
    by_cases hr : (u.peer (streamOf p.src p.tc)).rxState = 1 ∧ p.stag = (u.peer (streamOf p.src p.tc)).rxStag
    · refine ⟨_, exec_sync ho hu hp, ?_⟩
      rw [receiveSync_again h ha hr]
      refine ⟨hout ▸ respondTo_out u p 0x88 stOK [], hr.1, hr.2.symm, fun hne => absurd (hpeer _ ▸ hr.2) hne⟩
    · refine ⟨_, exec_sync ho hu hp, ?_⟩
      rw [receiveSync_new h ha hr]
      have hq := restartRx_peer u (streamOf p.src p.tc) p.stag
      refine ⟨hout ▸ respondTo_out (restartRx u _ p.stag) p 0x88 stOK [], ?_, ?_, fun _ => ⟨?_, ?_, ?_⟩⟩
      · exact congrArg Peer.rxState hq
      · exact congrArg Peer.rxStag hq
      · exact congrArg Peer.rxBase hq
      · exact congrArg Peer.bmp hq
      · exact restartRx_recs u _ p.stag

end Sys2Proof.Proofs
end

section
namespace Sys2Proof

/-- Canonical tables that read the same at every key are equal. -/
theorem Tbl.eq_of_get {α : Type} [DecidableEq α] {d : Nat → α} {lo : Nat} {t u : Tbl α} (ht : Tbl.wfFrom d lo t = true)
    (hu : Tbl.wfFrom d lo u = true) (h : ∀ a, Tbl.get (d a) t a = Tbl.get (d a) u a) : t = u := by
  induction t generalizing lo u with
  | nil =>
    cases u with
    | nil => rfl
    | cons e u =>
      obtain ⟨k, w⟩ := e
      exact absurd (by simpa [Tbl.get] using (h k).symm) ((Tbl.wfFrom_cons d lo k w u).1 hu).2.1
  | cons e t ih =>
    obtain ⟨k, v⟩ := e
    obtain ⟨hk, hv, ht'⟩ := (Tbl.wfFrom_cons d lo k v t).1 ht
    cases u with
    | nil => exact absurd (by simpa [Tbl.get] using h k) hv
    | cons e u =>
      obtain ⟨j, w⟩ := e
      obtain ⟨hj, hw, hu'⟩ := (Tbl.wfFrom_cons d lo j w u).1 hu
      rcases Nat.lt_trichotomy k j with hkj | rfl | hkj
      · exact absurd (by simpa [Tbl.get, hkj] using h k) hv
      · have hvw : v = w := by simpa [Tbl.get] using h k
        have htu : t = u := ih ht' hu' fun a => by
          rcases Nat.lt_trichotomy a k with hak | rfl | hak
          · rw [Tbl.get_below d _ ht' (by omega), Tbl.get_below d _ hu' (by omega)]
          · rw [Tbl.get_below d _ ht' (by omega), Tbl.get_below d _ hu' (by omega)]
          · simpa [Tbl.get, Nat.not_lt.2 hak.le, hak.ne'] using h a
        rw [hvw, htu]
      · exact absurd (by simpa [Tbl.get, hkj] using (h j).symm) hw

/-- Of two writes of one key the later one stands. -/
theorem Tbl.set_set {α : Type} [DecidableEq α] (d : Nat → α) {t : Tbl α} (a : Nat) (v w : α) (h : Tbl.wf d t = true) :
    (t.set (d a) a v).set (d a) a w = t.set (d a) a w := by
  have h1 := Tbl.wf_set d a v h
  refine Tbl.eq_of_get (Tbl.wf_set d a w h1) (Tbl.wf_set d a w h) fun b => ?_
  by_cases hb : b = a
  · rw [hb, Tbl.get_set_self d a w h1, Tbl.get_set_self d a w h]
  · rw [Tbl.get_set_ne d a b w _ h1 hb, Tbl.get_set_ne d a b v _ h hb, Tbl.get_set_ne d a b w _ h hb]

end Sys2Proof

namespace Sys2Proof.Machine
variable {s : State}

/-! ### Entries of the back end -/

@[simp] theorem unitsRun_setQueue (s : State) (q : Nat) (v : Queue) : (s.setQueue q v).unitsRun = s.unitsRun := rfl
@[simp] theorem unitsRun_setCtx (s : State) (k : Nat) (c : Ctxt) : (s.setCtx k c).unitsRun = s.unitsRun := rfl
@[simp] theorem ctxHeld_setQueue (s : State) (q : Nat) (v : Queue) (k : Nat) : (s.setQueue q v).ctxHeld k = s.ctxHeld k := rfl
@[simp] theorem ctxHeld_setCtx (s : State) (j : Nat) (c : Ctxt) (k : Nat) : (s.setCtx j c).ctxHeld k = s.ctxHeld k := rfl
@[simp] theorem ctx_setQueue (s : State) (q : Nat) (v : Queue) (k : Nat) : (s.setQueue q v).ctx k = s.ctx k := rfl

theorem setQueue_setQueue (h : TablesOk s) (q : Nat) (v w : Queue) : (s.setQueue q v).setQueue q w = s.setQueue q w := by
  have := Tbl.set_set (fun _ => ({} : Queue)) q v w h.queues
  simp only [State.setQueue, this]

theorem setCtx_setCtx (h : TablesOk s) (k : Nat) (c d : Ctxt) : (s.setCtx k c).setCtx k d = s.setCtx k d := by
  have := Tbl.set_set (fun _ => ({} : Ctxt)) k c d h.ctxs
  simp only [State.setCtx, this]

/-- No entry of the context starts where none waits, or nothing may run (R327). -/
theorem nextStart_none {k : Nat} (h : (∀ e ∈ (s.ctx k).beq, e.started = true) ∨ s.unitsRun = false ∨ s.ctxHeld k = true) :
    nextStart s k = none := by
  cases hf : (s.ctx k).beq.find? (fun e => !e.started) with
  | none => simp [nextStart, hf]
  | some e =>
    have hns : e.started = false := by simpa using List.find?_some hf
    rcases h with h | h | h
    · exact absurd (h e (List.mem_of_find?_eq_some hf)) (by simp [hns])
    · simp [nextStart, hf, h]
    · simp [nextStart, hf, h]

/-- The only entry of a context, if it accesses no local window, starts where the units run (R327). -/
theorem nextStart_only {k : Nat} {e : BeEntry} (hb : (s.ctx k).beq = [e]) (hs : e.started = false) (ho : 0x40 ≤ e.opcode)
    (hu : s.unitsRun = true) (hh : s.ctxHeld k = false) : nextStart s k = some e := by
  simp [nextStart, hb, hs, hu, hh, scratchWaits, show ¬e.opcode ≤ 0x3B by omega]

/-- BACKEND_ENTRY_START runs the entry that is next (R327). -/
theorem exec_backendEntryStart (k : Ctx) {e : BeEntry} (h : nextStart s k = some e) :
    exec (.backendEntryStart k) s = .next (runEntry s k e) := by
  show Host.Outcome.next (entryStart s k) = _
  rw [entryStart, h]

/-- Remote operations by their opcodes (R339). -/
theorem runEntry_remote {k : Nat} {e : BeEntry} (h : 0x40 ≤ e.opcode) (h' : e.opcode ≤ 0x43) : runEntry s k e = remoteStart s k e := by
  rw [runEntry, if_neg (by omega), if_neg (by omega), if_neg (by omega), if_pos (by omega)]

theorem runEntry_scratch {k : Nat} {e : BeEntry} (h : e.opcode = 0x30 ∨ e.opcode = 0x31) : runEntry s k e = scratchStart s k e :=
  if_pos h

theorem runEntry_fence {k : Nat} {e : BeEntry} (h : e.opcode = 0x44) :
    runEntry s k e = updEntry s k e.id fun x => { x with started := true } := by
  rw [runEntry, if_neg (by omega), if_pos h]

theorem runEntry_local {k : Nat} {e : BeEntry} (h : 0x38 ≤ e.opcode) (h' : e.opcode ≤ 0x3B) : runEntry s k e = localStart s k e := by
  rw [runEntry, if_neg (by omega), if_neg (by omega), if_pos (by omega)]

/-- The whole range of a plain window is resolved at once: one piece at its base (R304). -/
theorem resolveEntry_plain {k : Nat} {e : BeEntry} {w off n : Nat} (hp : (s.win w).chunked = false) (hx : e.ext = []) (hn : 0 < n) :
    resolveEntry s k e w off n =
      (updEntry s k e.id fun _ => { e with started := true, ext := [((s.win w).base + off, n)], lines := [] },
        { e with started := true, ext := [((s.win w).base + off, n)], lines := [] }, true) := by
  have hpc : piecesOf s w off n = [(off, n)] := by simp [piecesOf, chunkPieces, hp, hn.ne']
  simp [resolveEntry, hx, hpc, resolvePieces, resolve, hp]

/-! ### Remote operations start (R22, R29, R339, R367) -/

section
variable {k : Nat} {e : BeEntry}

theorem remoteStart_fenced (h : s.fenced = true) : remoteStart s k e = entryEnd s k e.id stFENCED 0 0 := by
  simp [remoteStart, h]

variable (h : s.fenced = false)
include h

/-- A SIGNAL to the block's own node is applied here (R367). -/
theorem remoteStart_signalHere (ho : (remoteOf s e).opcode = 4) (hd : (remoteOf s e).dest = s.node) :
    remoteStart s k e = entryEnd (applySignal s (remoteOf s e).win (s.ctxPkey k) s.node (remoteOf s e).op0).1 k e.id
      (signalStatus s (remoteOf s e).win (s.ctxPkey k) s.node) 0 0 := by
  simp [remoteStart, h, ho, hd, applySignal]

theorem remoteStart_signalAway (ho : (remoteOf s e).opcode = 4) (hd : (remoteOf s e).dest ≠ s.node) :
    remoteStart s k e = sendRemote s k e (remoteOf s e) (natLE 8 (remoteOf s e).op0) := by
  simp [remoteStart, h, ho, hd]

theorem remoteStart_atomic (ho : (remoteOf s e).opcode = 3) :
    remoteStart s k e = sendRemote s k e (remoteOf s e) (natLE 8 (remoteOf s e).op0 ++ natLE 8 (remoteOf s e).op1) := by
  simp [remoteStart, h, ho]

variable (ho : (remoteOf s e).opcode = 1 ∨ (remoteOf s e).opcode = 2)
include ho

/-- A PUT or GET of no bytes ends at once (R22). -/
theorem remoteStart_noBytes (hl : (remoteOf s e).len = 0) : remoteStart s k e = entryEnd s k e.id stOK 0 0 := by
  rcases ho with ho | ho <;> simp [remoteStart, h, ho, hl]

variable (hl : 0 < (remoteOf s e).len) (hx : e.ext = [])
include hl hx

/-- One that its local window refuses ends with the window's status, which is counted (R309). -/
theorem remoteStart_refused {st : Nat} (hc : st = localCheck (s.win (remoteOf s e).lwin) (s.ctxPkey k)
      (if (remoteOf s e).opcode = 1 then .rd else .wr) (remoteOf s e).loff (remoteOf s e).len) (hs : st ≠ stOK) :
    remoteStart s k e = entryEnd (countTgtErr s st) k e.id st 0 0 := by
  subst hc
  rcases ho with ho | ho <;> simp [ho] at hs <;> simp [remoteStart, h, ho, hl.ne', hx, hs]

/-- One that its plain local window admits is translated whole and sent (R22, R304). -/
theorem remoteStart_sent (hc : localCheck (s.win (remoteOf s e).lwin) (s.ctxPkey k)
      (if (remoteOf s e).opcode = 1 then .rd else .wr) (remoteOf s e).loff (remoteOf s e).len = stOK)
    (hp : (s.win (remoteOf s e).lwin).chunked = false) {e1 : BeEntry} (he1 : e1 = { e with
      started := true, ext := [((s.win (remoteOf s e).lwin).base + (remoteOf s e).loff, (remoteOf s e).len)], lines := [] }) :
    remoteStart s k e = sendRemote (updEntry s k e.id fun _ => e1) k e1 (remoteOf s e) [] := by
  have hr := resolveEntry_plain (k := k) (off := (remoteOf s e).loff) hp hx hl
  rcases ho with ho | ho <;> simp [ho] at hc <;> simp [remoteStart, h, ho, hl.ne', hc, hr, he1]

end

/-! ### A queue's descriptor starts (R102, R118, R328, R360) -/

/-- A context takes a descriptor that is at the head of its queue while the units run and nothing holds the context. -/
theorem descHead_runs {q op : Nat} {d : Desc} (h : descHead s q op = some d) :
    s.unitsRun = true ∧ s.ctxHeld (s.queue q).context = false := by
  unfold descHead at h
  cases hw : (s.queue q).waiting with
  | nil => simp [hw] at h
  | cons x xs =>
    simp only [hw] at h
    split at h
    · rename_i hc
      simp only [Bool.and_eq_true, Bool.not_eq_true'] at hc
      tauto
    · cases h

section
variable {q op : Nat} {d : Desc} {run : State → Nat → Nat → State}

theorem descStart_refused (h : descHead s q op = some d) (hc : d.wantsCnt = true)
    (hm : synMayUse s (s.queue q).context d.sync = false) : descStart s q op run =
      qComplete (s.setQueue q { s.queue q with waiting := (s.queue q).waiting.drop 1 }) q
        (({ d with flags := d.flags - 2 } : Desc).cplOf stRIGHTS 0 0 false) := by
  simp [descStart, h, hc, hm]

/-- The state in which a context has taken descriptor `d` of queue `q`: it stands among the queue's started ones, and as
entry `e` at the end of the context's back-end queue (R328). -/
def taken (s : State) (q : Nat) (d : Desc) (e : BeEntry) : State :=
  let v := s.queue q
  let c := s.ctx v.context
  (s.setQueue q { v with waiting := v.waiting.drop 1, started := v.started ++ [d] }).setCtx v.context
    { c with beq := c.beq ++ [e], nextId := c.nextId + 1 }

/-- The back-end entry of a descriptor (R328). -/
def descEntry (s : State) (q op : Nat) (d : Desc) : BeEntry :=
  { id := (s.ctx (s.queue q).context).nextId, opcode := if op = 5 then 0x44 else op + 0x3F, desc := some (q, d.index), order := d.ordered }

theorem descStart_taken (hs : TablesOk s) (h : descHead s q op = some d)
    (hc : d.wantsCnt = false ∨ synMayUse s (s.queue q).context d.sync = true) : descStart s q op run =
      run (taken s q d (descEntry s q op d)) (s.queue q).context (s.ctx (s.queue q).context).nextId := by
  have hn : ¬(d.wantsCnt = true ∧ synMayUse s (s.queue q).context d.sync = false) := fun ⟨h1, h2⟩ =>
    hc.elim (by simp [h1]) (by simp [h2])
  simp [descStart, h, hn, queue_setQueue_self hs, setQueue_setQueue hs, taken, descEntry]

theorem taken_ctx (hs : TablesOk s) (e : BeEntry) : (taken s q d e).ctx (s.queue q).context =
    { s.ctx (s.queue q).context with beq := (s.ctx (s.queue q).context).beq ++ [e], nextId := (s.ctx (s.queue q).context).nextId + 1 } :=
  ctx_setCtx_self (tablesOk_setQueue hs q _) _ _

/-- A descriptor that finds the back end empty starts at once (R327). -/
theorem startIfNext_taken (hs : TablesOk s) (h : descHead s q op = some d) (h0 : op ≠ 0)
    (hb : (s.ctx (s.queue q).context).beq = []) :
    startIfNext (taken s q d (descEntry s q op d)) (s.queue q).context (s.ctx (s.queue q).context).nextId =
      runEntry (taken s q d (descEntry s q op d)) (s.queue q).context (descEntry s q op d) := by
  obtain ⟨hu, hh⟩ := descHead_runs h
  have hop : 0x40 ≤ (descEntry s q op d).opcode := by
    show 0x40 ≤ (if op = 5 then 0x44 else op + 0x3F)
    split <;> omega
  have hn := nextStart_only (s := taken s q d (descEntry s q op d)) (k := (s.queue q).context)
    (by rw [taken_ctx hs, hb]; rfl) rfl hop hu hh
  rw [startIfNext, hn]
  exact if_pos rfl

end

end Sys2Proof.Machine
end

section
namespace Sys2Proof.Machine
variable {s : State} {q op : Nat} {d : Desc}

/-- A descriptor of a remote operation that finds the back end empty starts at once. -/
theorem startIfNext_remote (hs : TablesOk s) (h : descHead s q op = some d) (h1 : 1 ≤ op) (h4 : op ≤ 4)
    (hb : (s.ctx (s.queue q).context).beq = []) :
    startIfNext (taken s q d (descEntry s q op d)) (s.queue q).context (s.ctx (s.queue q).context).nextId =
      remoteStart (taken s q d (descEntry s q op d)) (s.queue q).context (descEntry s q op d) := by
  have ho : (descEntry s q op d).opcode = op + 0x3F := if_neg (by omega)
  rw [startIfNext_taken hs h (by omega) hb, runEntry_remote (by omega) (by omega)]

/-- A FENCE that finds the back end empty is marked started (R328). -/
theorem startIfNext_fence (hs : TablesOk s) (h : descHead s q 5 = some d) (hb : (s.ctx (s.queue q).context).beq = []) :
    ((startIfNext (taken s q d (descEntry s q 5 d)) (s.queue q).context (s.ctx (s.queue q).context).nextId).ctx
      (s.queue q).context).beq = [{ descEntry s q 5 d with started := true }] := by
  have hwf : TablesOk (taken s q d (descEntry s q 5 d)) := tablesOk_setCtx (tablesOk_setQueue hs q _) _ _ (ctx_wf hs _)
  rw [startIfNext_taken hs h (by decide) hb, runEntry_fence rfl, updEntry, ctx_setCtx_self hwf, taken_ctx hs, hb]
  simp

end Sys2Proof.Machine

namespace Sys2Proof.Proofs
open Sys2Proof.Machine

/-- The descriptor commands, each with the operation of its descriptors. -/
theorem exec_descriptor {cmd : QNum → Instr} {op : Nat} (h : (cmd, op) ∈ [(Instr.descNop, 0), (Instr.descPut, 1),
      (Instr.descGet, 2), (Instr.descAtomic, 3), (Instr.descSignal, 4), (Instr.descFence, 5)]) (q : QNum) (s : State) :
    op ≤ 5 ∧ exec (cmd q) s =
      .next (descStart s q op (if op = 0 then fun t k id => entryEnd t k id stOK 0 0 else startIfNext)) := by
  simp only [List.mem_cons, Prod.mk.injEq, List.not_mem_nil, or_false] at h
  rcases h with ⟨rfl, rfl⟩ | ⟨rfl, rfl⟩ | ⟨rfl, rfl⟩ | ⟨rfl, rfl⟩ | ⟨rfl, rfl⟩ | ⟨rfl, rfl⟩ <;> exact ⟨by decide, rfl⟩

/-- Settles O24: a descriptor is taken as an entry at the end of its context's back end, which runs at once when nothing
stands before it; the rest are the branches of a remote operation's start. -/
theorem descriptorStarts : Obligations.DescriptorStarts := by
  unfold Obligations.DescriptorStarts
  refine ⟨?_, ?_⟩
  · rintro s q op d v c e u cmd hcmd hd rfl hs rfl
    obtain ⟨h5, hex⟩ := exec_descriptor hcmd q s
    refine ⟨fun hw hm => ?_, ?_⟩
    · rw [hex, descStart_refused hd hw hm]
    · rintro hok rfl rfl
      have hrun := hex.trans (congrArg _ (descStart_taken hs hd hok))
      refine ⟨?_, fun h0 => ?_, fun h0 hn5 hb => ?_, ?_⟩
      · rintro rfl
        exact hrun
      · rw [if_neg h0] at hrun
        exact hrun
      · rw [if_neg h0] at hrun
        exact hrun.trans (congrArg _ (startIfNext_remote hs hd (by omega) (by omega) hb))
      · rintro rfl hb
        exact ⟨_, hrun, startIfNext_fence hs hd hb⟩
  · rintro s k e r rfl
    refine ⟨remoteStart_fenced, fun h => ⟨remoteStart_signalHere h, remoteStart_signalAway h, remoteStart_atomic h,
      fun ho => ⟨remoteStart_noBytes h ho, fun hl hx st hst => ⟨fun hne => remoteStart_refused h ho hl hx hst hne, ?_⟩⟩⟩⟩
    rintro rfl hp e1 he1
    exact remoteStart_sent h ho hl hx hst.symm hp he1

end Sys2Proof.Proofs
end

section
namespace Sys2Proof.Machine

/-! ### Bytes of a number -/

theorem leNat_map_range (f : Nat → Byte) (n : Nat) :
    leNat ((List.range n).map f) = ((List.range n).map fun i => (f i).toNat * 2 ^ (8 * i)).sum := by
  induction n generalizing f with
  | zero => rfl
  | succ n ih =>
    have hpow : ∀ i, 2 ^ (8 * (i + 1)) = 256 * 2 ^ (8 * i) := fun i => by rw [Nat.mul_succ, Nat.pow_add]; omega
    rw [List.range_succ_eq_map, List.map_cons, List.map_cons, List.map_map, List.map_map, leNat, List.sum_cons, Nat.mul_zero,
      Nat.pow_zero, Nat.mul_one]
    congr 1
    rw [show f ∘ Nat.succ = fun i => f (i + 1) from rfl, ih fun i => f (i + 1), ← List.sum_map_mul_left]
    congr 1
    refine List.map_congr_left fun i _ => ?_
    show 256 * ((f (i + 1)).toNat * 2 ^ (8 * i)) = (f (i + 1)).toNat * 2 ^ (8 * (i + 1))
    rw [hpow, Nat.mul_left_comm]

/-! ### Scratch (R331, R337) -/

section
variable {s : State} {k : Nat} {e : BeEntry}

theorem scrWrite_cons (s : State) (a : Nat) (x : Byte) (b : List Byte) :
    scrWrite s a (x :: b) = scrWrite (scrWrite s a [x]) (a + 1) b := rfl

/-- Scratch outside the bytes written is unchanged. -/
theorem scr_scrWrite_of_out (hs : TablesOk s) {a x : Nat} (b : List Byte) (h : x < a ∨ a + b.length ≤ x) :
    (scrWrite s a b).scr x = s.scr x := by
  induction b generalizing s a with
  | nil => rfl
  | cons y b ih =>
    rw [List.length_cons] at h
    rw [scrWrite_cons, ih (tablesOk_scrWrite hs a [y]) (by omega)]
    exact Tbl.get_set_ne (fun _ => (0 : Byte)) a x y _ hs.scratch (by omega)

/-- The bytes of a number are written in its little-endian order (R8). -/
theorem scr_scrWrite_natLE (hs : TablesOk s) (a n v : Nat) {i : Nat} (hi : i < n) :
    ((scrWrite s a (natLE n v)).scr (a + i)).toNat = v / 2 ^ (8 * i) % 256 := by
  induction n generalizing s a v i with
  | zero => omega
  | succ n ih =>
    have hs' := tablesOk_scrWrite hs a [BitVec.ofNat 8 v]
    rw [natLE, scrWrite_cons]
    cases i with
    | zero =>
      rw [scr_scrWrite_of_out hs' _ (Or.inl (by omega))]
      show (Tbl.get 0 (Tbl.set 0 s.mrt.scratch a (BitVec.ofNat 8 v)) a).toNat = _
      rw [Tbl.get_set_self (fun _ => (0 : Byte)) a _ hs.scratch, BitVec.toNat_ofNat, Nat.mul_zero, Nat.pow_zero, Nat.div_one]
    | succ i =>
      rw [show a + (i + 1) = a + 1 + i by omega, ih hs' (a + 1) (v / 256) (by omega), Nat.div_div_eq_div_mul,
        show 256 * 2 ^ (8 * i) = 2 ^ (8 * (i + 1)) by rw [Nat.mul_succ, Nat.pow_add]; omega]

theorem sameBut_scrWrite (s : State) (a : Nat) (b : List Byte) : SameBut [.mrt] s (scrWrite s a b) := by
  induction b generalizing s a with
  | nil => exact SameBut.refl _ s
  | cons x b ih =>
    refine SameBut.trans (fun p hp => ?_) (ih _ _)
    cases p <;> simp_all [Component.same]

theorem sameBut_setCtx (s : State) (k : Nat) (c : Ctxt) : SameBut [.ctxs] s (s.setCtx k c) := by
  intro p hp
  cases p <;> simp_all [Component.same]

theorem sameBut_updEntry (s : State) (k id : Nat) (f : BeEntry → BeEntry) : SameBut [.ctxs] s (updEntry s k id f) :=
  sameBut_setCtx s k _

theorem beq_updEntry (hs : TablesOk s) (k id : Nat) (f : BeEntry → BeEntry) :
    ((updEntry s k id f).ctx k).beq = (s.ctx k).beq.map fun x => if x.id = id then f x else x := by
  rw [updEntry, ctx_setCtx_self hs]

theorem scratchAddr_bad {a n : Nat} (h : 256 * s.rd (MRT_CTX_CFG2.SCR_SIZE k) < a + n ∨ a % n ≠ 0) :
    scratchAddr s k a n n = none :=
  if_neg fun ⟨h1, h2⟩ => h.elim (by omega) (· h2)

theorem scratchAddr_good {a n : Nat} (h : a + n ≤ 256 * s.rd (MRT_CTX_CFG2.SCR_SIZE k)) (ha : a % n = 0) :
    scratchAddr s k a n n = some (65536 * (k / 32) + 256 * s.rd (MRT_CTX_CFG2.SCR_BASE k) + a) := by
  rw [scratchAddr, if_pos ⟨by omega, ha⟩, Nat.mul_comm (s.rd _) 256]

/-- LDS and STS beyond the scratch, or not aligned, fault (R331). -/
theorem scratchStart_bad {a : Nat} (ha : a = (e.va + e.imm) % 65536)
    (h : 256 * s.rd (MRT_CTX_CFG2.SCR_SIZE k) < a + e.width ∨ a % e.width ≠ 0) :
    scratchStart s k e = entryFault s k e.id 5 a := by
  subst ha
  simp only [scratchStart, scratchAddr_bad h]

section
variable {b : Nat} (h : scratchAddr s k ((e.va + e.imm) % 65536) e.width e.width = some b)
include h

theorem scratchStart_poisoned (ho : e.opcode = 0x30) (hp : scrPoisoned s b e.width = true) :
    scratchStart s k e = entryFault s k e.id 5 stPOISON := by
  simp only [scratchStart, h, if_pos ho, if_pos hp]

theorem scratchStart_load (ho : e.opcode = 0x30) (hp : scrPoisoned s b e.width = false) :
    scratchStart s k e = updEntry s k e.id fun x =>
      { x with started := true, result := some (leNat (scrRead s b e.width)) } := by
  simp [scratchStart, h, ho, hp]

theorem scratchStart_store (ho : e.opcode = 0x31) :
    scratchStart s k e = updEntry (scrWrite s b (natLE e.width e.vc)) k e.id fun x =>
      { x with started := true, result := some 0 } := by
  simp [scratchStart, h, ho]

end

/-! ### Instructions without a descriptor, and copies of length 0 -/

theorem remoteOf_instr (hd : e.desc = none) : remoteOf s e = remoteOfInstr e := by
  simp [remoteOf, descOfEntry, hd]

/-- A copy of length 0 does nothing (R338). -/
theorem localStart_copy_empty (ho : e.opcode = 0x3A ∨ e.opcode = 0x3B) (hv : e.va = 0) : localStart s k e = dropEntry s k e.id := by
  simp [localStart, ho, hv]

/-! ### The end of an entry (R326) -/

theorem entryDone_waits {id : Nat} (h : (s.ctx k).beq.find? (fun e => e.id = id) = some e) (hn : e.started = false) :
    entryDone s k id = s := by
  simp [entryDone, h, hn]

/-- The place of an entry of LDS is freed together with its pending register. -/
theorem dropEntry_scratch {id : Nat} (h : (s.ctx k).beq.find? (fun e => e.id = id) = some e) (hm : e.muted = false)
    (ho : e.opcode = 0x30) : dropEntry s k id = s.setCtx k { s.ctx k with
      beq := (s.ctx k).beq.filter (fun x => x.id ≠ id), pendG := (s.ctx k).pendG.erase e.d } := by
  simp [dropEntry, h, hm, ho]

@[simp] theorem beq_setG (c : Ctxt) (d v : Nat) : (c.setG d v).beq = c.beq := by unfold Ctxt.setG; split <;> rfl
@[simp] theorem pendG_setG (c : Ctxt) (d v : Nat) : (c.setG d v).pendG = c.pendG := by unfold Ctxt.setG; split <;> rfl
@[simp] theorem pc_setG (c : Ctxt) (d v : Nat) : (c.setG d v).pc = c.pc := by unfold Ctxt.setG; split <;> rfl

/-- LDS writes its register and frees its place. -/
theorem entryDone_load (hs : TablesOk s) {id v : Nat} (h : (s.ctx k).beq.find? (fun e => e.id = id) = some e)
    (hst : e.started = true) (ho : e.opcode = 0x30) (hm : e.muted = false) (hr : e.result = some v) :
    entryDone s k id = s.setCtx k { (s.ctx k).setG e.d v with
      beq := (s.ctx k).beq.filter (fun x => x.id ≠ id), pendG := (s.ctx k).pendG.erase e.d } := by
  have hself := ctx_setCtx_self hs k ((s.ctx k).setG e.d v)
  have hfind : ((s.setCtx k ((s.ctx k).setG e.d v)).ctx k).beq.find? (fun e => e.id = id) = some e := by
    rw [hself, beq_setG, h]
  have hdone : entryDone s k id = dropEntry (s.setCtx k ((s.ctx k).setG e.d v)) k id := by
    simp [entryDone, h, hst, ho, hm, hr, BeEntry.isFence]
  rw [hdone, dropEntry_scratch hfind hm ho, hself, setCtx_setCtx hs, beq_setG, pendG_setG]

end

end Sys2Proof.Machine

namespace Sys2Proof.Proofs
open Sys2Proof.Machine

/-- Settles O34: BACKEND_ENTRY_START runs the entry that is next, by its opcode; BACKEND_ENTRY_DONE ends a started one. -/
theorem backEndEntries : Obligations.BackEndEntries := by
  unfold Obligations.BackEndEntries
  refine ⟨fun s k h => ?_, fun s k h => nextStart_none h, ?_, ?_, fun s k id e h hn => ?_⟩
  · show Host.Outcome.next (entryStart s k) = _
    rw [entryStart, h]
  · rintro s k e a n b hn hs ha hw rfl
    have hex := exec_backendEntryStart k hn
    obtain rfl : n = e.width := hw.trans (by simp [BeEntry.width, bitsOf])
    have hscr : e.opcode = 0x30 ∨ e.opcode = 0x31 → exec (.backendEntryStart k) s = .next (scratchStart s k e) :=
      fun ho => hex.trans (congrArg _ (runEntry_scratch ho))
    have hrem : 0x40 ≤ e.opcode → e.opcode ≤ 0x43 → exec (.backendEntryStart k) s = .next (remoteStart s k e) :=
      fun h1 h2 => hex.trans (congrArg _ (runEntry_remote h1 h2))
    refine ⟨fun ho hb => ?_, fun ho hlen hal => ?_, fun h1 h2 hf => ?_, fun ho hf hd hl => ?_, fun ho hv => ?_,
      fun ho hd hf => ?_, fun ho hd hf hdst => ?_⟩
    · rw [hscr ho, scratchStart_bad ha hb]
    · have hadr := scratchAddr_good (k := k) hlen hal
      rw [ha] at hadr
      rw [ha]
      refine ⟨fun ho30 hp => ?_, fun ho30 hp => ⟨_, hscr ho, ?_, ?_⟩, fun ho31 => ⟨_, hscr ho, ?_, ?_, ?_⟩⟩
      · rw [hscr ho, scratchStart_poisoned hadr ho30 hp]
      · rw [scratchStart_load hadr ho30 hp]
        exact sameBut_updEntry _ _ _ _
      · rw [scratchStart_load hadr ho30 hp, beq_updEntry hs, scrRead, leNat_map_range]
      · rw [scratchStart_store hadr ho31]
        exact ((sameBut_scrWrite _ _ _).mono (by simp)).trans ((sameBut_updEntry _ _ _ _).mono (by simp))
      · rw [scratchStart_store hadr ho31]
        exact fun i hi => scr_scrWrite_natLE hs _ _ _ hi
      · rw [scratchStart_store hadr ho31]
        exact fun x hx => scr_scrWrite_of_out hs _ (by rwa [length_natLE])
    · rw [hrem h1 h2, remoteStart_fenced hf]
    · have hr : (remoteOf s e).opcode = e.opcode - 0x3F ∧ (remoteOf s e).len = 0 := by
        rw [remoteOf_instr hd]
        exact ⟨rfl, hl⟩
      rw [hrem (by omega) (by omega), remoteStart_noBytes hf (by omega) hr.2]
    · rw [hex, runEntry_local (by omega) (by omega), localStart_copy_empty ho hv]
    · have hr : (remoteOf s e).opcode = 3 := by rw [remoteOf_instr hd, remoteOfInstr, ho]
      rw [hrem (by omega) (by omega), remoteStart_atomic hf hr, remoteOf_instr hd]
      rfl
    · have hr : (remoteOf s e).opcode = 4 := by rw [remoteOf_instr hd, remoteOfInstr, ho]
      rw [hrem (by omega) (by omega), remoteStart_signalAway hf hr (by rw [remoteOf_instr hd]; exact hdst), remoteOf_instr hd]
      rfl
  · rintro s k id e v c rfl hs h hst ho hm hr
    have hwf := (ctx_wf hs k).1
    refine ⟨_, congrArg Host.Outcome.next (entryDone_load hs h hst ho hm hr), fun hd => ?_, ?_, ?_, ?_, sameBut_setCtx _ _ _⟩
    · rw [ctx_setCtx_self hs]
      exact (gr_setG_self e.d v hwf).trans (if_neg hd)
    · rw [ctx_setCtx_self hs]
    · rw [ctx_setCtx_self hs]
    · rw [ctx_setCtx_self hs]
      exact pc_setG _ _ _
  · exact congrArg _ (entryDone_waits h hn)

end Sys2Proof.Proofs
end

section
namespace Sys2Proof.Machine
variable {s : State} {a : Nat}

/-! ### Accesses of the aperture by MRP and the sideband (R128 to R130) -/

/-- What a write by MRP answers is its status (R129). -/
theorem portWrite_mrp (h : s.pins.porst = false) (a : Nat) (w : Word) : portWrite s false a w =
    mrpAnswer (writeAperture s .mrp (mrpAddr a) w.toNat).1 0 (writeAperture s .mrp (mrpAddr a) w.toNat).2 := by
  simp [portWrite, h]

theorem portRead_mrp (h : s.pins.porst = false) (a : Nat) : portRead s false a =
    mrpAnswer (readWord s .mrp (mrpAddr a)).1 (readWord s .mrp (mrpAddr a)).2.1 (readWord s .mrp (mrpAddr a)).2.2 := by
  simp [portRead, h]

theorem portWrite_sideband_odd (h : s.pins.porst = false) (ha : a % 4 ≠ 0) (w : Word) :
    portWrite s true a w = s.bump SB_ERR.BADOP 1 := by
  simp [portWrite, sbWrite, sbFrame, badOp, h, ha]

/-- A one-word frame writes its word (R652). -/
theorem portWrite_sideband (h : s.pins.porst = false) (ha : a % 4 = 0) (w : Word) :
    portWrite s true a w = (writeAperture s .sideband a w.toNat).1 := by
  simp [portWrite, sbWrite, sbFrame, sbExtra, h, ha]

theorem sameBut_mrpAnswer (s : State) (w : Word) (st : Nat) : SameBut [.acc] s (mrpAnswer s w st) := by
  intro p hp
  cases p <;> simp_all [Component.same, mrpAnswer]

theorem sameBut_setLatch (s : State) (p : Path) (l : Latch) : SameBut [.acc] s (s.setLatch p l) := by
  intro c hc
  cases p <;> cases c <;> simp_all [Component.same, State.setLatch]

/-- A region that does not answer takes no write, and gives its status (R21). -/
theorem writeAperture_closed (p : Path) (w : Nat) (h : regionStatus s a ≠ stOK) :
    SameBut [.acc] s (writeAperture s p a w).1 ∧ (writeAperture s p a w).2 = regionStatus s a := by
  simp only [writeAperture, if_pos h]
  exact ⟨sameBut_setLatch s p _, trivial⟩

/-- A region that does not answer reads zero, and gives its status (R21). -/
theorem readWord_closed (p : Path) (h : regionStatus s a ≠ stOK) :
    SameBut [.acc] s (readWord s p a).1 ∧ (readWord s p a).2 = (0, regionStatus s a) := by
  simp only [readWord, if_pos h]
  exact ⟨sameBut_setLatch s p _, trivial⟩

/-- The always-on regions always answer. -/
theorem regionStatus_alwaysOn (s : State) (h : a < 0x40000) : regionStatus s a = stOK := by
  have h1 : ¬0x1000000 ≤ a := by omega
  have h2 : ¬0x380000 ≤ a := by omega
  have h3 : ¬0x420000 ≤ a := by omega
  have h4 : ¬0xE40000 ≤ a := by omega
  have h5 : ¬0xFC8000 ≤ a := by omega
  have h6 : ¬0x40000 ≤ a := by omega
  simp [regionStatus, within, h1, h2, h3, h4, h5, h6]

/-! ### The interrupt mask (R59) -/

/-- IRQ_LINE_MASK has one field, which takes any value (R9, R59). -/
theorem findReg_irqMask : findReg 0x44 = some (⟨0x44, 0, 1, 0, 1, [⟨15, 0, .rw, [], false, fun _ => 32768⟩]⟩, 0) := rfl

theorem writeRefused_irqMask (s : State) (w : Nat) : writeRefused s 0x44 w = false := by
  have hf : writeForbidden s 0x44 w = false := by simp [writeForbidden, findReg_irqMask, RegField.forbids]
  simp [writeRefused, hf, blockAt, within, TGT_WCMD.CMD, YAR_GCMD.CMD]

theorem writeRegion_irqMask (s : State) (p : Path) (w : Nat) :
    writeRegion s p 0x44 w = s.setReg 0x44 (putBits (s.reg 0x44) 15 0 (bitsOf w 15 0)) := by
  have habs : regAbsent s 0x44 = false := by simp [regAbsent, indexIn]
  have hreg : writeAlwaysOn s 0x44 w = regWrite s 0x44 w := by
    simp [writeAlwaysOn, within, CSP_CMD.TARGET, CSP_LOCAL_LEVEL.LEVEL, HHG_PEND.PEND, BDG_TIER_CMD.TIER, BDG_FENCE.SW,
      BDG_HB_CFG.HOST_EN, BDG_HOST_HB.VALUE, BDG_CAP_CFG.HOLD, BDG_LOG_BASE_LO.BASE_LO, BDG_LOG_BASE_HI.BASE_HI,
      BDG_LOG_CFG.EN, BDG_LOG_PTR.TAIL]
  rw [writeRegion, habs, hreg, regWrite, findReg_irqMask]
  rfl

theorem writeAperture_irqMask (hs : TablesOk s) (w : Nat) :
    (writeAperture s .mrp 0x44 w).2 = stOK ∧ (writeAperture s .mrp 0x44 w).1.rd IRQ_LINE_MASK.ENABLE = w % 2 ^ 16 := by
  have hst := regionStatus_alwaysOn s (a := 0x44) (by omega)
  simp only [writeAperture, hst, writeRefused_irqMask, writeRegion_irqMask]
  refine ⟨rfl, ?_⟩
  show bitsOf ((s.setReg 0x44 (putBits (s.reg 0x44) 15 0 (bitsOf w 15 0))).reg 0x44).toNat 15 0 = _
  rw [State.reg_setReg_self _ _ _ hs.regs, bitsOf_putBits_self _ _ _ _ (by decide) (by decide)]
  simp [bitsOf]

/-! ### The latch of fabric time (R646) -/

theorem putBits_word (w : Word) (v : Nat) : putBits w 31 0 v = BitVec.ofNat 32 v := by
  have h := w.isLt
  apply BitVec.eq_of_toNat_eq
  simp only [putBits, bitsOf, BitVec.toNat_ofNat]
  omega

theorem readReg_ftimeLo (s : State) : readReg s 0x30128 = BitVec.ofNat 32 s.nowNs := by
  have hl : liveA s 0x30128 = [(BDG_FTIME_LO.TIME_LO, s.nowNs)] := rfl
  rw [readReg, if_pos (by omega), hl]
  exact putBits_word _ _

theorem regionWord_ftimeLo (s : State) (l : Latch) : regionWord s l 0x30128 = (BitVec.ofNat 32 s.nowNs, stOK) := by
  have habs : regAbsent s 0x30128 = false := by simp [regAbsent, indexIn]
  simp [regionWord, habs, within, XPT_RBSEL.VIEW, readReg_ftimeLo]

/-- A read of the low half of fabric time latches the high half. -/
theorem readWord_ftimeLo (s : State) : (readWord s .mrp 0x30128).2 = (BitVec.ofNat 32 s.nowNs, stOK) ∧
    (readWord s .mrp 0x30128).1.acc.mrp.ftime = some (wordAt s.nowNs 1) := by
  have hst := regionStatus_alwaysOn s (a := 0x30128) (by omega)
  simp only [readWord, hst, regionWord_ftimeLo]
  exact ⟨rfl, rfl⟩

end Sys2Proof.Machine

namespace Sys2Proof.Proofs
open Sys2Proof.Machine

/-- Settles O18: an access by MRP answers what `writeAperture` and `readWord` give; the rest are single registers. -/
theorem apertureAccess : Obligations.ApertureAccess := by
  unfold Obligations.ApertureAccess
  intro s h
  refine ⟨fun a w => ⟨_, congrArg Host.Outcome.next (portWrite_mrp h _ w), rfl, rfl⟩, fun a w hc => ?_, fun a w ha => ?_,
    fun a w ha => ?_, fun w hs => ?_, fun o _ => ?_, fun o high w _ => ?_, ?_, fun a => ?_, fun a w => ?_⟩
  · obtain ⟨hsame, hst⟩ := writeAperture_closed .mrp w.toNat hc
    refine ⟨_, congrArg Host.Outcome.next (portWrite_mrp h _ w), ?_, hsame.trans (sameBut_mrpAnswer _ _ _)⟩
    exact congrArg (· % 16) hst
  · exact congrArg Host.Outcome.next (portWrite_sideband_odd h ha w)
  · exact congrArg Host.Outcome.next (portWrite_sideband h ha w)
  · obtain ⟨hst, hrd⟩ := writeAperture_irqMask hs w.toNat
    exact ⟨_, congrArg Host.Outcome.next (portWrite_mrp h _ w), congrArg (· % 16) hst, hrd⟩
  · have hal : mrpAddr (0x200000 + 8 * o.val) = 0x200000 + 8 * o.val := by unfold mrpAddr; omega
    refine ⟨_, congrArg Host.Outcome.next (portRead_mrp h _), ?_, ?_⟩ <;> rw [hal] <;> rfl
  · have hal : mrpAddr (0x200000 + 8 * o.val + 4 * b2n high) = 0x200000 + 8 * o.val + 4 * b2n high := by
      unfold mrpAddr; omega
    refine ⟨_, congrArg Host.Outcome.next (portWrite_mrp h _ w), ?_, ?_⟩
    · rfl
    · rw [hal]; rfl
  · obtain ⟨hw, hl⟩ := readWord_ftimeLo s
    refine ⟨_, congrArg Host.Outcome.next (portRead_mrp h _), congrArg Prod.fst hw, ?_, hl⟩
    exact congrArg (fun x => x.2 % 16) hw
  · refine ⟨_, congrArg Host.Outcome.next (portRead_mrp h _), rfl, rfl, fun hc => ?_⟩
    obtain ⟨hsame, hw⟩ := readWord_closed .mrp hc
    exact ⟨congrArg Prod.fst hw, congrArg (fun x => x.2 % 16) hw, hsame.trans (sameBut_mrpAnswer _ _ _)⟩
  · refine ⟨_, rfl, ?_⟩
    have hm : mrpTimeout s false a.toNat w = report (mrpAnswer s.useFree 0 stBUSY) 0x12 2 0x03 (a.toNat / 4) := by
      simp [mrpTimeout, h]
    rw [hm]
    exact ⟨rfl, rfl, rfl⟩

end Sys2Proof.Proofs
end

section
namespace Sys2Proof.Machine

/-! ### States of links and lanes (R163, R216) -/

section
variable {s : State} {p v : Nat}

theorem linkState_setLinkState (h : Tbl.wf resetWord s.regs = true) (hv : v < 16) : (setLinkState s p v).linkState p = v :=
  (State.rd_wr_self s (LNK_STATUS.STATE p) v h (show 0 ≤ 3 + 1 by decide) (show 3 < 32 by decide)).trans (Nat.mod_eq_of_lt hv)

theorem linkState_setLaneState (h : Tbl.wf resetWord s.regs = true) (hp : p < 12) (q : Nat) :
    (setLaneState s p v).linkState q = s.linkState q :=
  State.rd_wr_ne s _ _ _ h (show 0x80004 + 0x10000 * q ≠ 0x50104 + 0x10 * p by omega)

theorem laneState_setLinkState (h : Tbl.wf resetWord s.regs = true) (hp : p < 12) (q : Nat) :
    (setLinkState s q v).laneState p = s.laneState p :=
  State.rd_wr_ne s _ _ _ h (show 0x50104 + 0x10 * p ≠ 0x80004 + 0x10000 * q by omega)

theorem resetWord_lanPortStatus : ∀ p : Fin 12, resetWord (0x50104 + 0x10 * p.val) = 0 := by decide

/-- A lane state other than Off is read back from any register file, for a port resets to Off. -/
theorem laneState_setLaneState (p : Fin 12) (hv : v < 16) (h0 : v ≠ 0) : (setLaneState s p v).laneState p = v := by
  have hb := bitsOf_putBits_self (s.reg (0x50104 + 0x10 * p.val)) 3 0 v (by decide) (by decide)
  have hne : putBits (s.reg (0x50104 + 0x10 * p.val)) 3 0 v ≠ resetWord (0x50104 + 0x10 * p.val) := by
    intro he
    rw [he, resetWord_lanPortStatus] at hb
    simp [bitsOf] at hb
    omega
  show bitsOf ((s.setReg (0x50104 + 0x10 * p.val) (putBits (s.reg (0x50104 + 0x10 * p.val)) 3 0 v)).reg
    (0x50104 + 0x10 * p.val)).toNat 3 0 = v
  rw [State.reg, State.setReg, Tbl.get_set_of_ne _ _ _ hne, hb]
  exact Nat.mod_eq_of_lt hv

/-- Steps that keep the register file canonical and a field as it is do so in a row. -/
theorem rd_foldl {α : Type} {f : State → α → State} (g : Fld) (xs : List α)
    (hf : ∀ t, ∀ x ∈ xs, Tbl.wf resetWord t.regs = true → Tbl.wf resetWord (f t x).regs = true ∧ (f t x).rd g = t.rd g)
    (h : Tbl.wf resetWord s.regs = true) : (xs.foldl f s).rd g = s.rd g := by
  induction xs generalizing s with
  | nil => rfl
  | cons x xs ih =>
    obtain ⟨hw, hr⟩ := hf s x List.mem_cons_self h
    exact (ih (fun t y hy => hf t y (List.mem_cons_of_mem _ hy)) hw).trans hr

@[simp] theorem linkState_setLink (s : State) (q : Nat) (v : LinkPort) (p : Nat) : (s.setLink q v).linkState p = s.linkState p := rfl
@[simp] theorem laneState_setLink (s : State) (q : Nat) (v : LinkPort) (p : Nat) : (s.setLink q v).laneState p = s.laneState p := rfl
@[simp] theorem linkState_sendLink (s : State) (q type blen : Nat) (body : List Byte) (p : Nat) :
    (sendLink s q type blen body).linkState p = s.linkState p := rfl
@[simp] theorem link_setLinkState (s : State) (q v p : Nat) : (setLinkState s q v).link p = s.link p := rfl
@[simp] theorem links_setLinkState (s : State) (q v : Nat) : (setLinkState s q v).links = s.links := rfl

theorem link_setLink (h : Tbl.wf (fun _ => ({} : LinkPort)) s.links = true) (v : LinkPort) : (s.setLink p v).link p = v :=
  Tbl.get_set_self (fun _ => ({} : LinkPort)) p v h

theorem wf_links_setLink (h : Tbl.wf (fun _ => ({} : LinkPort)) s.links = true) (v : LinkPort) :
    Tbl.wf (fun _ => ({} : LinkPort)) (s.setLink p v).links = true :=
  Tbl.wf_set (fun _ => ({} : LinkPort)) p v h

theorem link_sendLink (h : Tbl.wf (fun _ => ({} : LinkPort)) s.links = true) (type blen : Nat) (body : List Byte) :
    (sendLink s p type blen body).link p =
      { s.link p with bpLink := (s.link p).bpLink ++ [bypassMsg 1 type blen body] } :=
  link_setLink h _

theorem wf_links_sendLink (h : Tbl.wf (fun _ => ({} : LinkPort)) s.links = true) (type blen : Nat) (body : List Byte) :
    Tbl.wf (fun _ => ({} : LinkPort)) (sendLink s p type blen body).links = true :=
  wf_links_setLink h _

theorem wf_links_takeLinkMsg (h : Tbl.wf (fun _ => ({} : LinkPort)) s.links = true) (m : List Byte) :
    Tbl.wf (fun _ => ({} : LinkPort)) (takeLinkMsg s p m).1.links = true := by
  unfold takeLinkMsg
  dsimp only
  split
  · exact wf_links_setLink h _
  · exact h

@[simp] theorem drowseExit_link (s : State) (p : Nat) : (drowseExit s).link p = s.link p := by
  unfold State.link; rw [sameBut_drowseExit s .links (by decide)]

theorem drowseExit_linkState (hs : TablesOk s) (p : Nat) : (drowseExit s).linkState p = s.linkState p :=
  drowseExit_rd hs _ (show 0x80004 + 0x10000 * p ≠ 0x1000C by omega)

@[simp] theorem drowseExit_after (s : State) (n : Nat) : (drowseExit s).after n = s.after n := by
  simp [State.after, State.now]

end

/-! ### The sleep handshake (R205, R206, R209) -/

section
variable {s u : State} {p at_ : Nat} {m : List Byte}

theorem sleepCmd_refused (h : s.linkState p ≠ 3) (target : Nat) : sleepCmd s p target = s := if_pos h

/-- What LINK_SLEEP_CMD does to an UP link. -/
theorem sleepCmd_up (hs : TablesOk s) (h : s.linkState p = 3) (target : Nat) :
    (sleepCmd s p target).linkState p = 4 ∧ (sleepCmd s p target).link p = { s.link p with
      bpLink := (s.link p).bpLink ++ [bypassMsg 1 0x10 1 (natLE 1 target)]
      sleepReq := some target, sleepAcked := none, responding := none, ackSent := false
      sleepEnd := some (s.after (100 * s.rd (LNK_TMR1.SLEEP_TMO p))) } := by
  have hl : Tbl.wf (fun _ => ({} : LinkPort)) (setLinkState s p 4).links = true := hs.links
  rw [sleepCmd, if_neg (not_not.2 h)]
  dsimp only
  rw [link_setLink (wf_links_sendLink hl _ _ _), link_sendLink hl, linkState_setLink, linkState_sendLink,
    linkState_setLinkState hs.regs (by omega), link_setLinkState]
  exact ⟨rfl, rfl⟩

section
variable (hm : isLinkMsg m 0x10 = true) (ht : takeLinkMsg s p m = (u, at_))
include hm ht

theorem takeSleepReq_noSleep (h0 : s.linkState p ≠ 0) (hn : s.on (LNK_CTRL.NO_SLEEP p) = true) : takeSleepReq s p m = sendLink u p 0x12 1 [1] := by
  simp [takeSleepReq, hm, h0, ht, hn]

variable (hn : s.on (LNK_CTRL.NO_SLEEP p) = false)
include hn

theorem takeSleepReq_rekeying (h0 : s.linkState p ≠ 0) (hr : rekeying s p = true) : takeSleepReq s p m = sendLink u p 0x12 1 [2] := by
  simp [takeSleepReq, hm, h0, ht, hn, hr]

variable (hr : rekeying s p = false)
include hr

theorem takeSleepReq_up (h3 : s.linkState p = 3) : takeSleepReq s p m = sleepAckNow ((setLinkState u p 4).setLink p
    { u.link p with responding := some (leAt m 2 1), ackSent := false }) p := by
  simp [takeSleepReq, hm, ht, hn, hr, h3]

theorem takeSleepReq_crossing {own : Nat} (h4 : s.linkState p = 4) (ho : (u.link p).sleepReq = some own) :
    takeSleepReq s p m = u.setLink p { u.link p with sleepAcked := some (max own (leAt m 2 1)) } := by
  simp [takeSleepReq, hm, ht, hn, hr, h4, ho]

end

section
variable (ht : takeLinkMsg s p m = (u, at_))
include ht

theorem takeSleepAck_drain (hm : isLinkMsg m 0x11 = true) (h4 : s.linkState p = 4) (hr : (u.link p).sleepReq.isSome = true) :
    takeSleepAck s p m = u.setLink p { u.link p with sleepAcked := some (leAt m 2 1), sleepEnd := none } := by
  simp [takeSleepAck, hm, ht, h4, hr]

theorem sleepRefused_drain (hm : isLinkMsg m 0x12 = true) (h4 : s.linkState p = 4) (hr : (s.link p).sleepReq.isSome = true) :
    sleepRefused s p m = if s.csp.entering.isSome then abortEntry (sleepCancel u p) else sleepCancel u p := by
  simp [sleepRefused, takeSleepNak, hm, ht, h4, hr]

theorem takeWake_drain (hm : isLinkMsg m 0x13 = true) (h4 : s.linkState p = 4) : takeWake s p m = sleepCancel u p := by
  simp [takeWake, hm, ht, h4]

theorem takeWake_other (hm : isLinkMsg m 0x13 = true) (h4 : s.linkState p ≠ 4) : takeWake s p m = u := by
  simp [takeWake, hm, ht, h4]

end

theorem sleepTmo_due (h4 : s.linkState p = 4) (hr : (s.link p).sleepReq.isSome = true) (ha : (s.link p).sleepAcked = none)
    (hd : s.due (s.link p).sleepEnd = true) : sleepTmo s p = (sleepCancel s p).bump (LNK_ERR.SLEEP_FAIL p) 1 := by
  simp [sleepTmo, h4, hr, ha, hd]

/-- The lane side of a sleep leaves the link's state and reaches the lane state of its depth. -/
theorem laneSleep_linkState (h : Tbl.wf resetWord s.regs = true) (hp : p < 12) (deep : Bool) :
    (laneSleep s p deep).linkState p = s.linkState p := by
  unfold laneSleep
  split
  · exact linkState_setLaneState h hp p
  · rfl

theorem laneSleep_laneState (p : Port) (h : s.laneState p = 6) (deep : Bool) :
    (laneSleep s p deep).laneState p = if deep then 8 else 7 := by
  rw [laneSleep, if_pos h]
  cases deep <;> exact laneState_setLaneState p (by decide) (by decide)

theorem laneSleep_links (s : State) (p : Nat) (deep : Bool) : (laneSleep s p deep).links = s.links := by
  unfold laneSleep
  split <;> rfl

theorem drainDone_agreed {way : Nat} (ha : (s.link p).sleepAcked = some way) (h4 : s.linkState p = 4)
    (hd : drained s p = true) : drainDone s p =
      (laneSleep (setLinkState s p (if way = 2 then 6 else 5)) p (way = 2)).setLink p { s.link p with
        waking := false, sleepReq := none, sleepAcked := none, responding := none, ackSent := false, sleepEnd := none } := by
  simp [drainDone, ha, h4, hd]

end

/-! ### Wakes and exits (R154, R155, R206, R207, R546) -/

section
variable {s : State} {p : Nat}

theorem linkWake_drain (h : s.linkState p = 4) : linkWake s p = sendLink (sleepCancel s p) p 0x13 1 [] := by
  simp [linkWake, h]

theorem asleep_drain (h : s.linkState p = 4) : asleep s p = false := by
  simp [asleep, h]

theorem portWake_awake (h : asleep s p = false) (far : Bool) : portWake s p far = linkWake s p := by
  simp [portWake, wakePort, h]

/-- A wake by the far end starts the exit at once, outside Nap. -/
theorem portWake_far (h : asleep s p = true) (h2 : s.power ≠ 2) (he : s.csp.entering ≠ some 2) : portWake s p true =
    linkWake { s with csp := { s.csp with waking := s.csp.waking.erase p, slots := s.csp.slots + 1, unpaid :=
      (s.csp.unpaid || !decide (s.csp.slots < min (s.rd CSP_CFG.WAKE_SLOTS) (sleepers s).length)) } } p := by
  have hw : portWake s p true = wakePort s p true := by simp [portWake, h2, he]
  rw [hw, wakePort, h]
  rfl

theorem portWake_near (s : State) (p : Nat) : portWake s p false = wakePort s p false := rfl

section
variable (h : asleep s p = true)
include h

theorem portWake_slot (hs : s.csp.slots < min (s.rd CSP_CFG.WAKE_SLOTS) (sleepers s).length) :
    portWake s p false = linkWake { s with csp := { s.csp with slots := s.csp.slots + 1 } } p := by
  rw [portWake_near, wakePort, h]
  exact if_pos hs

theorem portWake_waits (hs : min (s.rd CSP_CFG.WAKE_SLOTS) (sleepers s).length ≤ s.csp.slots)
    (hw : s.csp.waking.contains p = false) :
    portWake s p false = { s with csp := { s.csp with waking := s.csp.waking ++ [p] } } := by
  rw [portWake_near, wakePort, h]
  exact (if_neg (Nat.not_lt.2 hs)).trans (if_neg (by rw [hw]; exact Bool.false_ne_true))

end

/-- A Dormouse that wakes has 40 µs (R155). -/
theorem linkWake_dormouse (h6 : s.linkState p = 6) (h8 : s.laneState p = 8) (ht : (s.lanePort p).timer = none) :
    (linkWake s p).lanePort p = { s.lanePort p with timer := some (s.after 40000) } := by
  have hw : linkWake s p = laneTimer s p 40000 := by simp [linkWake, h6, h8, ht]
  rw [hw]
  have hne : { s.lanePort p with timer := some (s.after 40000) } ≠ ({} : LanePort) := fun he =>
    Option.some_ne_none _ (congrArg LanePort.timer he)
  exact Tbl.get_set_of_ne _ _ p hne

theorem dozeExit_started (h7 : s.laneState p = 7) (ht : (s.lanePort p).timer.isSome = true) :
    dozeExit s p = linkActive (laneDozeExit s p) p := if_pos ⟨h7, ht⟩

theorem dozeExit_unstarted (ht : (s.lanePort p).timer = none) : dozeExit s p = s := by
  simp [dozeExit, ht]

/-- The lane side of a Doze exit ends in ACTIVE: what it does to the lanes leaves the port's own register alone. -/
theorem laneDozeExit_laneState (h : Tbl.wf resetWord s.regs = true) (p : Port) : (laneDozeExit s p).laneState p = 6 := by
  rw [State.laneState, laneDozeExit, rd_foldl]
  · exact laneState_setLaneState (v := 6) p (by decide) (by decide)
  · intro t k _ ht
    have ha : 0x50104 + 0x10 * p.val ≠ 0x53000 + 0x4 * k := by omega
    exact ⟨State.wf_wr _ _ _ ht, State.rd_wr_ne _ _ _ _ ht ha⟩
  · exact State.wf_wr _ _ _ h

theorem laneState_report (s : State) (a b c d p : Nat) : (report s a b c d).laneState p = s.laneState p := rfl

theorem laneState_setLaneState_reported (s : State) (p : Port) (c : Prop) [Decidable c] (a b d e : Nat) :
    (if c then report (setLaneState s p 6) a b d e else setLaneState s p 6).laneState p = 6 := by
  have h : (setLaneState s p 6).laneState p = 6 := laneState_setLaneState p (by decide) (by decide)
  split
  · rw [laneState_report, h]
  · exact h

theorem laneActive_laneState (p : Port) (w cur : Nat) (leader : Bool) (seed : Nat) :
    (laneActive s p w cur leader seed).laneState p = 6 := laneState_setLaneState_reported _ p _ _ _ _ _

theorem shortTraining_ready {live : List Word} {ts1 ts2 : List (Nat × Nat × List Byte)} (h8 : s.laneState p = 8)
    (hr : shortReady (shortTrained s p live ts1 ts2) p = true) :
    shortTraining s p live ts1 ts2 = linkActive (laneShortTraining (shortTrained s p live ts1 ts2) p) p := by
  simp [shortTraining, h8, hr]

theorem shortTraining_fails {live : List Word} {ts1 ts2 : List (Nat × Nat × List Byte)}
    (hr : shortReady (shortTrained s p live ts1 ts2) p = false) : shortTraining s p live ts1 ts2 = s := by
  simp [shortTraining, hr]

/-- Timers that run on again change the two times that stood still, and no more of the link. -/
theorem thaw_link (h : Tbl.wf (fun _ => ({} : LinkPort)) s.links = true) :
    Tbl.wf (fun _ => ({} : LinkPort)) (thaw s p).links = true ∧ ((thaw s p).link p).txNext = (s.link p).txNext ∧
      ((thaw s p).link p).rxExpect = (s.link p).rxExpect ∧ (thaw s p).linkState p = s.linkState p := by
  unfold thaw
  dsimp only
  split
  · exact ⟨h, rfl, rfl, rfl⟩
  · rw [link_setLink h]
    exact ⟨wf_links_setLink h _, rfl, rfl, rfl⟩

/-- A link whose lanes are ACTIVE again after a sleep waits in its state, with its sequence state (R207). -/
theorem linkActive_asleep (h : Tbl.wf (fun _ => ({} : LinkPort)) s.links = true) (ha : s.linkState p = 5 ∨ s.linkState p = 6) :
    (linkActive s p).linkState p = s.linkState p ∧ ((linkActive s p).link p).waking = true ∧
      ((linkActive s p).link p).txNext = (s.link p).txNext ∧ ((linkActive s p).link p).rxExpect = (s.link p).rxExpect := by
  obtain ⟨hw, htx, hrx, hst⟩ := thaw_link (p := p) h
  rcases ha with ha | ha <;>
    simp only [linkActive, ha, linkState_setLink, link_setLink (wf_links_setLink hw _), link_setLink hw, hst, htx, hrx] <;>
    trivial

theorem wakeUp_ready (hw : (s.link p).waking = true) (hi : (s.link p).wakeIdle = true) (hm : (s.link p).wakeMatch = true) :
    wakeUp s p = capRefresh (repoint ((setLinkState s p 3).setLink p
      { s.link p with waking := false, wakeIdle := false, wakeMatch := false })) p := by
  simp [wakeUp, hw, hi, hm]

theorem wakeUp_waits (h : (s.link p).wakeIdle = false ∨ (s.link p).wakeMatch = false) : wakeUp s p = s := by
  rcases h with h | h <;> simp [wakeUp, h]

theorem sameBut_wr (s : State) (f : Fld) (v : Nat) : SameBut [.regs] s (s.wr f v) := by
  intro c hc
  cases c <;> simp_all [Component.same]

theorem sameBut_setLanePort (s : State) (p : Nat) (v : LanePort) : SameBut [.lanes] s (s.setLanePort p v) := by
  intro c hc
  cases c <;> simp_all [Component.same]

theorem sameBut_putWire (s : State) (p : Nat) (w : List (Nat × List TxFrame)) : SameBut [.lanes] s (s.putWire p w) := by
  intro c hc
  cases c <;> simp_all [Component.same, State.putWire]

/-- A new attempt changes registers and what the lanes do. -/
theorem sameBut_enterDetect (s : State) (p : Nat) : SameBut [.regs, .lanes] s (enterDetect s p) := by
  have hregs : [Component.regs] ⊆ [.regs, .lanes] := by decide
  have hlanes : [Component.lanes] ⊆ [.regs, .lanes] := by decide
  have hidle : SameBut [.regs] s (lanesIdle s p) := SameBut.foldl (fun t k => sameBut_wr t _ _) _ _
  have hbegin : SameBut [.regs, .lanes] (lanesIdle s p) (beginAttempt (lanesIdle s p) p) :=
    ((sameBut_wr _ _ _).mono hregs).trans ((sameBut_setLanePort _ _ _).mono hlanes)
  exact (hidle.mono hregs).trans (hbegin.trans (((sameBut_wr _ _ _).mono hregs).trans ((sameBut_putWire _ _ _).mono hlanes)))

theorem laneState_sendAll (s : State) (p : Nat) (f : Nat → List TxFrame) (q : Nat) :
    (sendAll s p f).laneState q = s.laneState q := rfl

theorem enterDetect_laneState (p : Port) : (enterDetect s p).laneState p = 2 := by
  rw [enterDetect, laneState_sendAll, laneState_setLaneState p (by decide) (by decide)]

theorem shortTrainTmo_due (h8 : s.laneState p = 8) (hd : s.due (s.lanePort p).timer = true) :
    shortTrainTmo s p = report (enterDetect s p) 0x0C 1 0x10 p := by
  cases ht : (s.lanePort p).timer with
  | none => rw [ht] at hd; cases hd
  | some t => rw [ht] at hd; simp [shortTrainTmo, h8, ht, hd]

end

/-! ### Width changes (R30, R208, R209) -/

section
variable {s u : State} {p at_ w : Nat} {m : List Byte}

section
variable (ht : takeLinkMsg s p m = (u, at_)) (hw : w = leAt m 2 1)
include ht hw

section
variable (hm : isLinkMsg m 0x18 = true)
include hm

theorem takeWidthReq_tooWide (h : widthOfCode (s.rd (LAN_PORT_STATUS.WIDTH_MAX p)) < w) :
    takeWidthReq s p m = sendLink u p 0x1A 1 [1] := by
  subst hw
  simp [takeWidthReq, hm, ht, h]

variable (hmax : w ≤ widthOfCode (s.rd (LAN_PORT_STATUS.WIDTH_MAX p))) (hc : [2, 4, 8].contains w = true)
include hmax hc

theorem takeWidthReq_busy (h : s.linkState p ≠ 3 ∨ rekeying s p = true) : takeWidthReq s p m = sendLink u p 0x1A 1 [2] := by
  subst hw
  have hok : ¬(widthOfCode (s.rd (LAN_PORT_STATUS.WIDTH_MAX p)) < leAt m 2 1 ∨ (!([2, 4, 8].contains (leAt m 2 1))) = true) := by
    rw [hc]; simpa using hmax
  simp only [takeWidthReq, hm, ht]
  exact (if_neg hok).trans (if_pos h)

/-- A request that this end accepts: the far index stands, and the answer will carry this end's own. -/
theorem takeWidthReq_accepts (h3 : s.linkState p = 3) (hr : rekeying s p = false) (hn : (u.link p).widthReq = none) :
    takeWidthReq s p m = (sendLink u p 0x19 1 (natLE 1 w)).setLink p
      { (sendLink u p 0x19 1 (natLE 1 w)).link p with widthReq := none, rxWidthAt := some (w, leAt m 4 4) } := by
  subst hw
  have hok : ¬(widthOfCode (s.rd (LAN_PORT_STATUS.WIDTH_MAX p)) < leAt m 2 1 ∨ (!([2, 4, 8].contains (leAt m 2 1))) = true) := by
    rw [hc]; simpa using hmax
  have hgo : ¬(s.linkState p ≠ 3 ∨ rekeying s p = true) := by simp [h3, hr]
  simp only [takeWidthReq, hm, ht, hn]
  exact (if_neg hok).trans (if_neg hgo)

end

theorem takeWidthAck_agreed {i : Nat} (hm : isLinkMsg m 0x19 = true) (hq : (u.link p).widthReq = some (w, some i)) :
    takeWidthAck s p m = u.setLink p
      { u.link p with widthReq := none, txWidthAt := some (w, i), rxWidthAt := some (w, leAt m 4 4) } := by
  subst hw
  simp [takeWidthAck, hm, ht, hq]

end

theorem takeWidthNak_takes (ht : takeLinkMsg s p m = (u, at_)) (hm : isLinkMsg m 0x1A = true) :
    takeWidthNak s p m = u.setLink p { u.link p with widthReq := none } := by
  simp [takeWidthNak, hm, ht]

/-- A width message as it is queued: its class, its type, its width, and room for the index. -/
theorem widthMsg_eq (type w : Nat) : bypassMsg 1 type 1 (natLE 1 w) =
    [BitVec.ofNat 8 1, BitVec.ofNat 8 type, BitVec.ofNat 8 w, 0] ++ (List.replicate 4 0 ++ List.replicate 24 0) := rfl

theorem widthMsg_width (type : Nat) (hw : w < 256) : leAt (bypassMsg 1 type 1 (natLE 1 w)) 2 1 = w := by
  rw [widthMsg_eq]
  simp [leAt, leNat, Nat.mod_eq_of_lt hw]

/-- Its index is filled in as it goes out. -/
theorem stampMsg_width {type : Nat} (hw : w < 256) (ht : type = 0x18 ∨ type = 0x19) :
    leAt (stampMsg s p (bypassMsg 1 type 1 (natLE 1 w))) 4 4 = widthIndex s p w := by
  have hmsg : (isLinkMsg (bypassMsg 1 type 1 (natLE 1 w)) 0x18 || isLinkMsg (bypassMsg 1 type 1 (natLE 1 w)) 0x19) = true := by
    rcases ht with rfl | rfl <;> rfl
  have hlt : widthIndex s p w < 256 ^ 4 := Nat.mod_lt _ (by decide)
  have hlen : ((bypassMsg 1 type 1 (natLE 1 w)).take 4).length = 4 := by rw [widthMsg_eq]; rfl
  rw [stampMsg, if_pos hmsg, widthMsg_width type hw, List.append_assoc, leAt_append_right (by omega), hlen,
    leAt_append_left (by simp), Nat.sub_self, leAt_natLE, Nat.mod_eq_of_lt hlt]

theorem widthSwitch_tx {i : Nat} (ha : (s.link p).txWidthAt = some (w, i)) (hi : indexReached (s.link p).txFrames i = true)
    (live : List Word) : widthSwitch s p true none live =
      ((switchFrames s p w).setLink p { s.link p with txWidthAt := none, txWidth := w, oldWidth :=
        (if (s.link p).rxWidthAt.isSome then some (s.link p).txWidth else none) }).wr (LAN_PORT_STATUS.WIDTH p) (widthCode w) := by
  simp [widthSwitch, ha, hi]

theorem widthSwitch_rx {i : Nat} (ha : (s.link p).rxWidthAt = some (w, i)) (hi : indexReached (s.link p).rxFrames i = true)
    (live : List Word) : widthSwitch s p false none live =
      switchLanes (s.setLink p { s.link p with rxWidthAt := none, rxWidth := w, oldWidth :=
        (if (s.link p).txWidthAt.isSome then some (s.link p).rxWidth else none) }) p w live := by
  simp [widthSwitch, ha, hi]

/-- A returning lane that fails is excluded, and the width stays. -/
theorem widthSwitch_failed (ha : (s.link p).txWidthAt.isSome = true ∨ (s.link p).rxWidthAt.isSome = true)
    (hw : w = (s.link p).oldWidth.getD (s.link p).txWidth) (tx : Bool) (i : Nat) (live : List Word) :
    widthSwitch s p tx (some i) live = useLanes (((s.setLane (8 * p + i) { s.lane (8 * p + i) with excluded := true }).setLink p
      { s.link p with txWidthAt := none, rxWidthAt := none, oldWidth := none, txWidth := w, rxWidth := w }).wr
        (LAN_PORT_STATUS.WIDTH p) (widthCode w)) p w := by
  subst hw
  have hgo : ¬((s.link p).txWidthAt.isNone = true ∧ (s.link p).rxWidthAt.isNone = true) := fun ⟨h1, h2⟩ => by
    rcases ha with ha | ha <;> simp_all
  simp only [widthSwitch, if_neg hgo]

end

end Sys2Proof.Machine
end

section
namespace Sys2Proof.Proofs
open Sys2Proof.Machine

/-- Settles O47: each command is the step of the link or its lanes that its case names; the register file says in which
states they are afterwards. -/
theorem linkSleepWidth : Obligations.LinkSleepWidth := by
  unfold Obligations.LinkSleepWidth
  rintro s p l hs rfl
  have hp : p.val < 12 := p.isLt
  have hwf := hs.regs
  have hlk := hs.links
  refine ⟨fun deep ho h3 => ?cmd, fun deep ho h3 => ?cmdOther, fun m u deep at_ hm h0 ht hd => ?req,
    fun m u at_ ht => ?answers, fun h4 hr ha hd => ?tmo, fun way _ ha h4 hd => ?drain, fun far h4 => ?wakeDrain,
    fun ha h2 he => ?wakeFar, fun ha hsl => ?wakeSlot, fun ha hsl hw => ?wakeWaits, fun h6 h8 ht => ?dormouse,
    fun h7 hg ht => ?dozeExit, fun h7 hg => ?dozeNone, fun live ts1 ts2 v h8 hg hv => ?short, fun ha => ?active,
    fun hw hi hm => ?up, fun hw h => ?upWaits, fun h8 hd => ?shortTmo, fun m u at_ w ht hw => ?width,
    fun w type hw ht => ?stamp, fun w i ha hi live => ?tx, fun w i ha hi live => ?rx, fun tx i live w ha hw => ?failed⟩
  case cmd =>
    have hs' := tablesOk_drowseExit hs
    obtain ⟨hst, hl⟩ := sleepCmd_up hs' ((drowseExit_linkState hs p).trans h3) (if deep then 2 else 1)
    have htmo : (drowseExit s).rd (LNK_TMR1.SLEEP_TMO p) = s.rd (LNK_TMR1.SLEEP_TMO p) :=
      drowseExit_rd hs _ (show 0x8000C + 0x10000 * p.val ≠ 0x1000C by omega)
    rw [drowseExit_link, drowseExit_after, htmo] at hl
    refine ⟨_, congrArg Host.Outcome.next (viaFabric_open s _ ho), hst, ?_, ?_, ?_⟩ <;> rw [hl]
  case cmdOther =>
    refine congrArg Host.Outcome.next ((viaFabric_open s _ ho).trans (sleepCmd_refused ?_ _))
    rwa [drowseExit_linkState hs]
  case req =>
    subst hd
    exact ⟨fun hn => congrArg Host.Outcome.next (takeSleepReq_noSleep hm ht h0 hn),
      fun hn hr => congrArg Host.Outcome.next (takeSleepReq_rekeying hm ht hn h0 hr),
      fun hn hr => ⟨fun h3 => congrArg Host.Outcome.next (takeSleepReq_up hm ht hn hr h3),
        fun own h4 hown => congrArg Host.Outcome.next (takeSleepReq_crossing hm ht hn hr h4 hown)⟩⟩
  case answers =>
    exact ⟨fun hm h4 hr => congrArg Host.Outcome.next (takeSleepAck_drain ht hm h4 hr),
      fun hm h4 hr => congrArg Host.Outcome.next (sleepRefused_drain ht hm h4 hr),
      fun hm h4 => congrArg Host.Outcome.next (takeWake_drain ht hm h4),
      fun hm h4 => congrArg Host.Outcome.next (takeWake_other ht hm h4)⟩
  case tmo => exact congrArg Host.Outcome.next (sleepTmo_due h4 hr ha hd)
  case drain =>
    have hwf' : Tbl.wf resetWord (setLinkState s p (if way = 2 then 6 else 5)).regs = true := State.wf_wr _ _ _ hwf
    have hlk' : Tbl.wf (fun _ => ({} : LinkPort))
        (laneSleep (setLinkState s p (if way = 2 then 6 else 5)) p (way = 2)).links = true := by
      rw [laneSleep_links]; exact hlk
    refine ⟨_, congrArg Host.Outcome.next (drainDone_agreed ha h4 hd), ?_, ?_, fun h6 => ?_⟩
    · rw [linkState_setLink, laneSleep_linkState hwf' hp, linkState_setLinkState hwf (by split <;> omega)]
    · rw [link_setLink hlk']
    · rw [laneState_setLink, laneSleep_laneState p ((laneState_setLinkState hwf hp p).trans h6)]
      simp
  case wakeDrain =>
    exact congrArg Host.Outcome.next ((portWake_awake (asleep_drain h4) far).trans (linkWake_drain h4))
  case wakeFar => exact congrArg Host.Outcome.next (portWake_far ha h2 he)
  case wakeSlot => exact congrArg Host.Outcome.next (portWake_slot ha hsl)
  case wakeWaits => exact congrArg Host.Outcome.next (portWake_waits ha hsl hw)
  case dormouse => exact linkWake_dormouse h6 h8 ht
  case dozeExit =>
    exact ⟨congrArg Host.Outcome.next ((if_pos hg).trans (dozeExit_started h7 ht)), laneDozeExit_laneState hwf p⟩
  case dozeNone =>
    refine congrArg Host.Outcome.next ?_
    split
    · exact dozeExit_unstarted (hg.resolve_right (by simp_all))
    · rfl
  case short =>
    subst hv
    exact ⟨fun hr => ⟨congrArg Host.Outcome.next ((if_pos hg).trans (shortTraining_ready h8 hr)),
        laneActive_laneState p _ _ _ _⟩,
      fun hr => congrArg Host.Outcome.next ((if_pos hg).trans (shortTraining_fails hr))⟩
  case active => exact linkActive_asleep hlk ha
  case up => exact wakeUp_ready hw hi hm
  case upWaits => exact wakeUp_waits h
  case shortTmo =>
    have hhhg := sameBut_enterDetect s p .hhg (by decide)
    refine ⟨_, congrArg Host.Outcome.next (shortTrainTmo_due h8 hd), ?_, ?_⟩
    · rw [laneState_report, enterDetect_laneState]
    · exact congrArg (fun x : Hhg => x.waiting ++ [⟨0x0C, 1, 0x10, p, false⟩]) hhhg
  case width =>
    refine ⟨fun hm h => congrArg Host.Outcome.next (takeWidthReq_tooWide ht hw hm h), fun hm hmax hc =>
      ⟨fun h => congrArg Host.Outcome.next (takeWidthReq_busy ht hw hm hmax hc h), fun h3 hr hn => ?_⟩,
      fun i hm hq => congrArg Host.Outcome.next (takeWidthAck_agreed ht hw hm hq),
      fun hm => congrArg Host.Outcome.next (takeWidthNak_takes ht hm)⟩
    have hlu : Tbl.wf (fun _ => ({} : LinkPort)) u.links = true := by
      have h := wf_links_takeLinkMsg (p := p) hlk m
      rwa [ht] at h
    refine ⟨_, congrArg Host.Outcome.next (takeWidthReq_accepts ht hw hm hmax hc h3 hr hn), ?_, ?_, ?_⟩ <;>
      rw [link_setLink (wf_links_sendLink hlu _ _ _)]
    rw [link_sendLink hlu]
  case stamp => exact stampMsg_width hw ht
  case tx => exact congrArg (fun t => Host.Outcome.next (resvScale (parkLanes s t p))) (widthSwitch_tx ha hi live)
  case rx => exact congrArg (fun t => Host.Outcome.next (resvScale (parkLanes s t p))) (widthSwitch_rx ha hi live)
  case failed => exact congrArg (fun t => Host.Outcome.next (resvScale (parkLanes s t p))) (widthSwitch_failed ha hw tx i live)

end Sys2Proof.Proofs
end

section
namespace Sys2Proof.Machine

/-! ### Fabric time is changed by `refclkTime` alone

What a step of any unit leaves as it is; each equation follows from those of the functions that the definition calls.
Where a definition names intermediate states, its proof goes through `State.bump_time`, `State.wr_time` and `ite_time` by
name: a definitional comparison of such states would evaluate them. -/

theorem ite_time {c : Prop} [Decidable c] {a b s : State} (ha : a.time = s.time) (hb : b.time = s.time) :
    (if c then a else b).time = s.time := by
  split
  · exact ha
  · exact hb

/-- Steps that leave time as it is do so in a row. -/
@[simp] theorem foldl_time {α : Type} {f : State → α → State} (hf : ∀ t x, (f t x).time = t.time) (xs : List α) (s : State) :
    (xs.foldl f s).time = s.time := by
  induction xs generalizing s with
  | nil => rfl
  | cons x xs ih => exact (ih _).trans (hf s x)

/-- The same of steps that carry a result with the state. -/
theorem foldl_fst_time {α β : Type} {f : State × β → α → State × β} (hf : ∀ t x, (f t x).1.time = t.1.time) (xs : List α)
    (a : State × β) : (xs.foldl f a).1.time = a.1.time := by
  induction xs generalizing a with
  | nil => rfl
  | cons x xs ih => exact (ih _).trans (hf a x)

@[simp] theorem watchEngines_time (s : State) : (watchEngines s).time = s.time := by
  simp [watchEngines]

/-! #### Messages, the log and session commands -/

@[simp] theorem toSideband_time (s : State) (m : List Byte) : (toSideband s m).time = s.time := by
  unfold toSideband
  split <;> rfl

@[simp] theorem ammDeliver_time (s : State) (via : Nat) (m : List Byte) : (ammDeliver s via m).time = s.time := by
  simp [ammDeliver, apply_ite State.time]

@[simp] theorem ammOut_time (s : State) (p : Nat) (m : List Byte) : (ammOut s p m).1.time = s.time := by
  unfold ammOut
  dsimp only
  repeat' split
  all_goals simp

@[simp] theorem ammSend_time (s : State) (type flags id dst : Nat) (route : List Nat) (body : List Byte) :
    (ammSend s type flags id dst route body).time = s.time := by
  unfold ammSend
  split
  · simp
  · split
    all_goals
      rename_i hout
      simpa using (congrArg (fun x : State × Option Nat => x.1.time) hout).symm

@[simp] theorem ammReply_time (s : State) (via : Nat) (m : List Byte) (type : Nat) (body : List Byte) :
    (ammReply s via m type body).time = s.time := by
  simp [ammReply]

@[simp] theorem cmdRsp_time (s : State) (via : Nat) (m : List Byte) (v : Session) (c op st : Nat) (result : List Byte) :
    (cmdRsp s via m v c op st result).time = s.time := by
  simp [cmdRsp]

@[simp] theorem logDrop_time (s : State) (n : Nat) : (logDrop s n).time = s.time := by
  unfold logDrop
  split <;> rfl

@[simp] theorem hmpIssue_time (s : State) (r : HmpReq) : (hmpIssue s r).time = s.time := rfl

@[simp] theorem hmpIssueAll_time (write : Bool) (src id : Nat) (data : List Byte) (parts : List (Nat × Nat)) (off : Nat)
    (s : State) : (hmpIssueAll write src id data parts off s).time = s.time :=
  sameBut_hmpIssueAll write src id data parts off s .time (by decide)

@[simp] theorem hmpStart_time (s : State) (write : Bool) (src : Nat) (ext : List (Nat × Nat)) (data : List Byte)
    (k : Purpose) : (hmpStart s write src ext data k).time = s.time := by
  simp [hmpStart]

@[simp] theorem hmpWrite_time (s : State) (src a : Nat) (data : List Byte) (k : Purpose) :
    (hmpWrite s src a data k).time = s.time := by
  simp [hmpWrite]

@[simp] theorem logPump_time (s : State) : (logPump s).time = s.time := by
  unfold logPump
  dsimp only
  split <;> simp [apply_ite State.time]

@[simp] theorem logEvent_time (s : State) (point level : Nat) (args : List Nat) :
    (logEvent s point level args).time = s.time := by
  simp [logEvent, apply_ite State.time]

@[simp] theorem cmdDone_time (s : State) (via : Nat) (m : List Byte) (v : Session) (c op st : Nat) (result : List Byte) :
    (cmdDone s via m v c op st result).time = s.time := by
  simp [cmdDone]

@[simp] theorem mgmtDone_time (s : State) : (mgmtDone s).time = s.time := by
  unfold mgmtDone
  dsimp only
  repeat' split
  all_goals simp

/-! #### Transport, collectives and their entries, which a fence can end -/

@[simp] theorem hmpFreeQuarantine_time (s : State) : (hmpFreeQuarantine s).time = s.time := rfl

@[simp] theorem newOp_time (s : State) (o : XOp) : (newOp s o).1.time = s.time := rfl

@[simp] theorem emit_time (s : State) (f : Flow) (p : Pkt) : (emit s f p).time = s.time := rfl

@[simp] theorem transmit_time (s : State) (t : Nat) (e : OotEntry) : (transmit s t e).time = s.time := by
  unfold transmit
  split <;> rfl

@[simp] theorem tryBegin_time (s : State) (t : Nat) : (tryBegin s t).time = s.time := by
  unfold tryBegin
  dsimp only
  split <;> simp [apply_ite State.time]

@[simp] theorem pumpStream_time (s : State) (i : Nat) : (pumpStream s i).time = s.time := by
  simp [pumpStream]

@[simp] theorem hmpGather_time (s : State) (src : Nat) (ext : List (Nat × Nat)) (k : Purpose) :
    (hmpGather s src ext k).time = s.time := by
  simp [hmpGather]

@[simp] theorem takeEntry_time (s : State) (o : XOp) : (takeEntry s o).time = s.time := by
  have hput : ∀ o t e, ((s.useFree.putXop o).putEntry t e).time = s.time := fun o t e => by
    rw [State.putEntry_time, State.putXop_time, State.useFree_time]
  unfold takeEntry
  split
  · rfl
  · exact ite_time ((hmpGather_time _ _ _ _).trans (hput _ _ _)) (hput _ _ _)

@[simp] theorem launch_time (n : Nat) (s : State) (i : Nat) : (launch n s i).time = s.time := by
  induction n generalizing s with
  | zero => rfl
  | succ n ih =>
    unfold launch
    split
    · rfl
    · simp [apply_ite State.time, ih]

@[simp] theorem startOp_time (s : State) (o : XOp) : (startOp s o).time = s.time := by
  simp [startOp]

@[simp] theorem sendColl_time (s : State) (y g dest opcode phase off : Nat) (payload : List Byte) :
    (sendColl s y g dest opcode phase off payload).time = s.time := by
  simp [sendColl]

@[simp] theorem sendCount_time (s : State) (y : Nat) (v : YStep) (node kind value : Nat) :
    (sendCount s y v node kind value).time = s.time := by
  simp [sendCount]

@[simp] theorem dropStaging_time (s : State) (l : List Nat) : (dropStaging s l).time = s.time := rfl

@[simp] theorem dropStepOps_time (s : State) (y : Nat) : (dropStepOps s y).time = s.time := rfl

@[simp] theorem groupEnded_time (s : State) (g step st : Nat) (lag : Option (Nat × Nat × Nat)) :
    (groupEnded s g step st lag).time = s.time := rfl

@[simp] theorem cxEnded_time (s : State) (g step st : Nat) (body : List Byte) :
    (cxEnded s g step st body).time = s.time := rfl

@[simp] theorem sendFails_time (s : State) (g step st origin : Nat) (skip : Option Nat) :
    (sendFails s g step st origin skip).time = s.time := by
  simp [sendFails]

@[simp] theorem dropEntry_time (s : State) (k id : Nat) : (dropEntry s k id).time = s.time := by
  unfold dropEntry
  dsimp only
  split <;> simp [apply_ite State.time]

@[simp] theorem wakeWaits_time (s : State) (o v : Nat) : (wakeWaits s o v).time = s.time := rfl

@[simp] theorem fireTrig_time (s : State) (t v : Nat) : (fireTrig s t v).time = s.time := rfl

@[simp] theorem synPut_time (s : State) (o v : Nat) : (synPut s o v).time = s.time := by
  simp [synPut, apply_ite State.time]

@[simp] theorem synAdd_time (s : State) (o n : Nat) : (synAdd s o n).time = s.time := by
  unfold synAdd
  split <;> simp

@[simp] theorem applyCnt_time (s : State) (o : Option Nat) : (applyCnt s o).time = s.time := by
  unfold applyCnt
  split <;> simp

@[simp] theorem stepEntryDone_time (s : State) (k id : Nat) : (stepEntryDone s k id).time = s.time := by
  unfold stepEntryDone
  split <;> simp

@[simp] theorem finishStep_time (s : State) (y st : Nat) (sf : Bool) : (finishStep s y st sf).time = s.time := by
  unfold finishStep
  dsimp only
  split <;> simp [apply_ite State.time]

@[simp] theorem markEnding_time (s : State) (y st : Nat) (sf : Bool) : (markEnding s y st sf).time = s.time := by
  unfold markEnding
  dsimp only
  split <;> simp [apply_ite State.time]

@[simp] theorem sendStoat_time (s : State) (g i : Nat) (m : List Byte) : (sendStoat s g i m).time = s.time := rfl

@[simp] theorem sendSFails_time (s : State) (g step st len : Nat) (skip : Option Nat) :
    (sendSFails s g step st len skip).time = s.time := foldl_time (fun t i => sendStoat_time t g i _) _ s

@[simp] theorem finishSto_time (s : State) (g step st : Nat) (sf : Bool) : (finishSto s g step st sf).time = s.time := by
  unfold finishSto
  dsimp only
  repeat' split
  all_goals simp

@[simp] theorem dropEarly_time (s : State) (g step : Nat) : (dropEarly s g step).time = s.time := rfl

@[simp] theorem entryOut_time (st : Nat) (sf : Bool) (s : State) (x : Nat × BeEntry) :
    (entryOut st sf s x).time = s.time := by
  simp [entryOut, apply_ite State.time]

@[simp] theorem endAll_time (s : State) (g st : Nat) : (endAll s g st).time = s.time := by
  simp [endAll]

@[simp] theorem sendAborts_time (s : State) (g : Nat) (r : AbortRec) (skip : Option Nat) :
    (sendAborts s g r skip).time = s.time := by
  simp [sendAborts]

@[simp] theorem abortGroup_time (s : State) (g : Nat) (r : AbortRec) (skip : Option Nat) :
    (abortGroup s g r skip).time = s.time := by
  simp [abortGroup, apply_ite State.time]

@[simp] theorem abortIfPriv_time (s : State) (g step st : Nat) : (abortIfPriv s g step st).time = s.time := by
  simp [abortIfPriv, apply_ite State.time]

@[simp] theorem endStep_time (s : State) (y st : Nat) (sf : Bool) : (endStep s y st sf).time = s.time := by
  unfold endStep
  split <;> simp

@[simp] theorem exchangeCheck_time (s : State) (y : Nat) : (exchangeCheck s y).time = s.time := by
  unfold exchangeCheck
  dsimp only
  split <;> simp [apply_ite State.time]

@[simp] theorem hmpScatter_time (s : State) (src : Nat) (ext : List (Nat × Nat)) (data : List Byte) (k : Purpose) :
    (hmpScatter s src ext data k).time = s.time := by
  simp [hmpScatter]

@[simp] theorem stepWrite_time (s : State) (y : Nat) (ext : List (Nat × Nat)) (data : List Byte) (k : Purpose) :
    (stepWrite s y ext data k).time = s.time := by
  unfold stepWrite
  dsimp only
  split <;> simp [apply_ite State.time]

@[simp] theorem selfWrite_time (s : State) (y : Nat) (ext : List (Nat × Nat)) (b : List Byte) :
    (selfWrite s y ext b).time = s.time := by
  unfold selfWrite
  split
  · rfl
  · simp [apply_ite State.time]

@[simp] theorem cxPlaces_time (s : State) (y : Nat) : (cxPlaces s y).time = s.time := by
  unfold cxPlaces
  dsimp only
  repeat' split
  all_goals simp

@[simp] theorem cxSend_time (s : State) (y : Nat) : (cxSend s y).time = s.time := by
  unfold cxSend
  dsimp only
  repeat' split
  all_goals simp

@[simp] theorem hmpRead_time (s : State) (src a n : Nat) (k : Purpose) : (hmpRead s src a n k).time = s.time := by
  simp [hmpRead]

@[simp] theorem fillLine_time (s : State) (w line : Nat) : (fillLine s w line).time = s.time := by
  simp [fillLine, apply_ite State.time]

@[simp] theorem a2aPackets_time (s : State) (y : Nat) (v : YStep) (node at_ : Nat) (b : List Byte) :
    (a2aPackets s y v node at_ b).1.time = s.time := by
  simp [a2aPackets]

@[simp] theorem a2aSend_time (s : State) (y : Nat) : (a2aSend s y).time = s.time := by
  unfold a2aSend
  split
  · rfl
  · split
    · dsimp only
      refine ite_time rfl (ite_time (endStep_time _ _ _ _) (ite_time (endStep_time _ _ _ _) (ite_time ?_ ?_)))
      · have hfill := foldl_time (f := fun t (l : Nat × Nat) => fillLine t l.1 l.2) fun t l => fillLine_time t l.1 l.2
        exact (hfill _ _).trans (State.putStep_time _ _ _)
      · have hsent : ∀ (f : State × Nat → Nat → State × Nat), (∀ a j, (f a j).1.time = a.1.time) →
            ∀ js : List Nat, (js.foldl f (s, 0)).1.time = s.time := fun f hf js => foldl_fst_time hf js (s, 0)
        split
        · exact hsent _ (fun _ _ => by rw [a2aPackets_time]) _
        · rw [exchangeCheck_time, selfWrite_time, State.putStep_time]
          exact hsent _ (fun _ _ => by rw [a2aPackets_time]) _
    · rfl

@[simp] theorem stepRead_time (s : State) (y src : Nat) (ext : List (Nat × Nat)) (k : Purpose) :
    (stepRead s y src ext k).time = s.time := by
  unfold stepRead
  split <;> simp

@[simp] theorem a2aTable_time (s : State) (y : Nat) : (a2aTable s y).time = s.time := by
  unfold a2aTable
  split
  · rfl
  · split
    · rfl
    · split
      · rfl
      · simp [apply_ite State.time]

@[simp] theorem exchangeRun_time (s : State) (y : Nat) : (exchangeRun s y).time = s.time := by
  simp [exchangeRun]

@[simp] theorem settle_time (s : State) : (settle s).time = s.time := by
  simp [settle]

@[simp] theorem failSto_time (s : State) (g step st : Nat) (sf : Bool) : (failSto s g step st sf).time = s.time := by
  simp [failSto]

@[simp] theorem endEverywhere_time (s : State) (st : Nat) : (endEverywhere s st).time = s.time := by
  simp [endEverywhere]

@[simp] theorem fenceSteps_time (s : State) : (fenceSteps s).time = s.time := by
  simp [fenceSteps]

@[simp] theorem writeCpl_time (s : State) (q : Nat) (c : Cpl) : (writeCpl s q c).time = s.time := by
  simp [writeCpl]

@[simp] theorem qComplete_time (s : State) (q : Nat) (c : Cpl) : (qComplete s q c).time = s.time := by
  simp [qComplete, apply_ite State.time]

@[simp] theorem descDone_time (s : State) (q index status bytes result : Nat) :
    (descDone s q index status bytes result).time = s.time := by
  unfold descDone
  dsimp only
  split <;> simp

@[simp] theorem recordFail_time (s : State) (k st : Nat) : (recordFail s k st).time = s.time := rfl

@[simp] theorem failEntry_time (s : State) (k id st : Nat) : (failEntry s k id st).time = s.time := by
  unfold failEntry
  split <;> rfl

@[simp] theorem entryEnd_time (s : State) (k id st bytes result : Nat) :
    (entryEnd s k id st bytes result).time = s.time := by
  unfold entryEnd
  dsimp only
  repeat' split
  all_goals simp

@[simp] theorem actionFails_time (s : State) (t st : Nat) : (actionFails s t st).time = s.time := by
  unfold actionFails
  dsimp only
  rw [report_time, State.wr_time, synAdd_time, recordFail_time]

@[simp] theorem setSeg_time (s : State) (y k : Nat) (g : Seg) : (setSeg s y k g).time = s.time := by
  unfold setSeg
  split <;> rfl

@[simp] theorem sendReady_time (s : State) (y : Nat) (v : YStep) (node k slice : Nat) (half : Bool) :
    (sendReady s y v node k slice half).time = s.time := by
  simp [sendReady]

@[simp] theorem grantKids_time (s : State) (y k : Nat) : (grantKids s y k).time = s.time := by
  unfold grantKids
  split <;> simp

@[simp] theorem stepCheck_time (s : State) (y : Nat) : (stepCheck s y).time = s.time := by
  unfold stepCheck
  split
  · rfl
  · simp [apply_ite State.time]

@[simp] theorem sendSlice_time (s : State) (y : Nat) (v : YStep) (nb k slice : Nat) (half : Bool) (data : List Byte)
    (sat : List (Nat × Nat)) : (sendSlice s y v nb k slice half data sat).1.time = s.time := by
  simp [sendSlice]

@[simp] theorem gatherRun_time (fuel : Nat) (s : State) (y k : Nat) : (gatherRun fuel s y k).time = s.time := by
  induction fuel generalizing s with
  | zero => rfl
  | succ fuel ih =>
    have hsent : ∀ (f : State × Nat → Nat → State × Nat), (∀ a c, (f a c).1.time = a.1.time) →
        ∀ cs : List Nat, (cs.foldl f (s, 0)).1.time = s.time := fun f hf cs => foldl_fst_time hf cs (s, 0)
    unfold gatherRun
    split
    · rfl
    · dsimp only
      refine ite_time rfl ?_
      split
      · rfl
      · refine ite_time ?_ (ite_time ?_ ?_)
        · rw [setSeg_time]
          exact hsent _ (fun _ _ => by rw [sendSlice_time]) _
        · rw [stepCheck_time, setSeg_time, setSeg_time]
          exact hsent _ (fun _ _ => by rw [sendSlice_time]) _
        · split
          · rw [ih, setSeg_time, setSeg_time]
            exact hsent _ (fun _ _ => by rw [sendSlice_time]) _
          · rw [sendReady_time, setSeg_time, setSeg_time]
            exact hsent _ (fun _ _ => by rw [sendSlice_time]) _

@[simp] theorem gatherStart_time (s : State) (y k : Nat) : (gatherStart s y k).time = s.time := by
  unfold gatherStart
  dsimp only
  repeat' split
  all_goals simp

@[simp] theorem stagePut_time (s : State) (y : Nat) (l : List Nat) (data : List Byte) (k : Purpose) :
    (stagePut s y l data k).time = s.time := by
  unfold stagePut
  split <;> simp

@[simp] theorem reduceRun_time (fuel : Nat) (s : State) (y k : Nat) : (reduceRun fuel s y k).time = s.time := by
  induction fuel generalizing s with
  | zero => rfl
  | succ fuel ih =>
    generalize hu : reduceRun (fuel + 1) s y k = u
    unfold reduceRun at hu
    split at hu
    · rw [← hu]
    · dsimp only at hu
      rw [← hu]
      refine ite_time rfl (ite_time (ite_time rfl ?passed)
        (ite_time rfl (ite_time (ite_time rfl ?spill) (ite_time ?bad ?sum))))
      case passed =>
        refine ite_time ?_ (ite_time ?_ ?_)
        · rw [ih, grantKids_time, setSeg_time]
        · rw [stepCheck_time, setSeg_time, setSeg_time]
        · rw [gatherStart_time, setSeg_time]
      case spill => rw [stagePut_time, setSeg_time]
      case bad => rw [endStep_time, State.bump_time]
      case sum =>
        refine ite_time ?owner (ite_time rfl ?part)
        case owner =>
          have hbump : ∀ a b, ((s.bump YAR_ACNT0.OUT_OVF a).bump YAR_ACNT0.NAN b).time = s.time := fun a b => by
            rw [State.bump_time, State.bump_time]
          have hupd : ∀ (u : State) x, ({ u with yar := x } : State).time = u.time := fun _ _ => rfl
          refine ite_time ((hupd _ _).trans ((setSeg_time _ _ _ _).trans ?_))
            (ite_time ((ih _).trans ((setSeg_time _ _ _ _).trans ?_))
            ((stepWrite_time _ _ _ _ _).trans ((setSeg_time _ _ _ _).trans ?_)))
          all_goals
            split
            · exact (State.putStep_time _ _ _).trans (hbump _ _)
            · exact hbump _ _
        case part =>
          split
          · rfl
          · split
            · exact sendSlice_time _ _ _ _ _ _ _ _ _
            · rw [setSeg_time]
              exact sendSlice_time _ _ _ _ _ _ _ _ _

@[simp] theorem collEnd_time (s : State) (y : Nat) (o : XOp) (st : Nat) : (collEnd s y o st).time = s.time := by
  unfold collEnd
  split
  · rfl
  split
  · rfl
  split
  · rfl
  split
  · extract_lets k q
    split
    · rw [reduceRun_time, setSeg_time]
    · rw [gatherRun_time, setSeg_time]
    · rfl
    · rw [settle_time, exchangeCheck_time, State.putStep_time]
  split
  · extract_lets s1
    show s1.time = s.time
    exact ite_time (State.bump_time _ _ _) (State.bump_time _ _ _)
  · rw [settle_time, endStep_time]

@[simp] theorem opEnd_time (s : State) (o : XOp) (st : Nat) : (opEnd s o st).time = s.time := by
  unfold opEnd
  split
  · simp
  · simp [apply_ite State.time]
  · simp [apply_ite State.time]
  · simp

@[simp] theorem opCheck_time (s : State) (i : Nat) : (opCheck s i).time = s.time := by
  unfold opCheck
  split
  · rfl
  · simp [apply_ite State.time]

@[simp] theorem abandonTag_time (s : State) (t : Nat) : (abandonTag s t).time = s.time := rfl

@[simp] theorem dropUnsent_time (s : State) (i : Nat) : (dropUnsent s i).time = s.time := by
  have hdrop : ∀ (l : List (Nat × OotEntry)) (t : State),
      (l.foldl (fun t e => abandonTag (t.dropEntry e.1) e.1) t).time = t.time := foldl_time fun t e => by simp
  unfold dropUnsent
  dsimp only
  split
  · exact hdrop _ s
  · exact hdrop _ s

@[simp] theorem failOp_time (s : State) (i st : Nat) : (failOp s i st).time = s.time := by
  unfold failOp
  split <;> simp

@[simp] theorem fenceXpt_time (s : State) : (fenceXpt s).time = s.time := by
  simp [fenceXpt]

@[simp] theorem afterFence_time (was : Bool) (s : State) : (afterFence was s).time = s.time := by
  unfold afterFence
  split <;> simp

@[simp] theorem setFence_time (s : State) (f : Fld) (on : Bool) : (setFence s f on).time = s.time := by
  simp [setFence]

@[simp] theorem leaveSafe_time (s : State) : (leaveSafe s).time = s.time := by
  unfold leaveSafe
  split <;> simp

/-! #### The end of a tier and its records -/

@[simp] theorem trgUpdate_time (s : State) : (trgUpdate s).time = s.time := by
  unfold trgUpdate
  exact ite_time rfl (ite_time rfl rfl)

@[simp] theorem soloSlot_time (s : State) (k : Nat) (rest : List Nat) : (soloSlot s k rest).time = s.time := rfl

@[simp] theorem hhgAck_time (s : State) (w : Nat) : (hhgAck s w).time = s.time := rfl

@[simp] theorem beginReplay_time (s : State) : (beginReplay s).time = s.time := by
  unfold beginReplay
  split
  · rfl
  · refine ite_time rfl ?_
    rw [soloSlot_time, State.wr_time, hhgAck_time]

@[simp] theorem putStamps_time (s : State) (a b : Nat) : (putStamps s a b).time = s.time := by
  rw [putStamps, State.wr_time, State.wr_time, State.wr_time, State.wr_time]

@[simp] theorem openSector_time (s : State) : (openSector s).time = s.time := by
  unfold openSector
  dsimp only
  rw [State.wr_time]

@[simp] theorem burrowPut_time (s : State) (t : Nat) (body : List Byte) : (burrowPut s t body).time = s.time := by
  have hput : ∀ (u : State) b, ({ u with burrow := b } : State).time = u.time := fun _ _ => rfl
  have hopen : ∀ b, (openSector { s with burrow := b }).time = s.time := fun b => (openSector_time _).trans (hput s b)
  generalize hu : burrowPut s t body = u
  unfold burrowPut at hu
  dsimp only at hu
  rw [← hu]
  refine ite_time rfl (ite_time (State.bump_time _ _ _) (ite_time (hput _ _)
    (ite_time ((State.bump_time _ _ _).trans (hput _ _)) ((hput _ _).trans ?_))))
  exact ite_time ((hput _ _).trans (hopen _)) (hopen _)

@[simp] theorem serviceRecord_time (s : State) (event : Nat) : (serviceRecord s event).time = s.time := by
  simp [serviceRecord]

/-! #### Link control -/

@[simp] theorem renewCap_time (s : State) (p : Nat) : (renewCap s p).time = s.time := by
  simp [renewCap, apply_ite State.time]

@[simp] theorem randBytes_time (s : State) (n : Nat) : (randBytes s n).2.time = s.time := rfl

@[simp] theorem setLinkState_time (s : State) (p v : Nat) : (setLinkState s p v).time = s.time := rfl

@[simp] theorem cleanCheck_time (s : State) : (cleanCheck s).time = s.time := by
  unfold cleanCheck
  exact ite_time (by rw [State.wr_time, State.wr_time]) rfl

@[simp] theorem repoint_time (s : State) : (repoint s).time = s.time := rfl

@[simp] theorem enterQuarantine_time (s : State) (p causes : Nat) : (enterQuarantine s p causes).time = s.time := by
  simp [enterQuarantine]

@[simp] theorem putVcRun_time (s : State) (p : Nat) : (putVcRun s p).time = s.time := by
  unfold putVcRun
  dsimp only
  split
  · rw [State.wr_time]
  · rfl

@[simp] theorem enterUp_time (s : State) (p : Nat) : (enterUp s p).time = s.time := by
  unfold enterUp
  dsimp only
  rw [repoint_time, State.setLink_time, State.wr_time, putVcRun_time, State.wr_time, setLinkState_time]

@[simp] theorem evaluate_time (s : State) (p : Nat) : (evaluate s p).time = s.time := by
  simp [evaluate, apply_ite State.time]

@[simp] theorem sendLink_time (s : State) (p type blen : Nat) (body : List Byte) :
    (sendLink s p type blen body).time = s.time := rfl

@[simp] theorem sendVerdict_time (s : State) (p cause : Nat) : (sendVerdict s p cause).time = s.time := by
  unfold sendVerdict
  dsimp only
  rw [sendLink_time, State.setLink_time]

@[simp] theorem sealVerdict_time (s : State) (p : Nat) : (sealVerdict s p).time = s.time := by
  simp [sealVerdict]

@[simp] theorem sealFail_time (s : State) (p cause : Nat) : (sealFail s p cause).time = s.time := by
  simp [sealFail]

@[simp] theorem sealStart_time (s : State) (p : Nat) : (sealStart s p).time = s.time := by
  unfold sealStart
  dsimp only
  refine ite_time ?_ ?_
  · rw [sealFail_time, State.wr_time, State.wr_time, State.setSealLink_time, randBytes_time]
  · rw [sendLink_time, State.wr_time, State.wr_time, State.setSealLink_time, randBytes_time]

@[simp] theorem judge_time (s : State) (p : Nat) : (judge s p).time = s.time := by
  unfold judge
  dsimp only
  split
  · rfl
  · refine ite_time (ite_time ?_ ?_) ?_
    · rw [State.wr_time, State.wr_time]
    · rw [sealStart_time, State.wr_time, State.wr_time]
    · rw [evaluate_time, sendVerdict_time, State.wr_time, State.wr_time]

@[simp] theorem sendCap_time (s : State) (p : Nat) : (sendCap s p).time = s.time := by
  unfold sendCap
  dsimp only
  rw [sendLink_time, State.setLink_time]

@[simp] theorem latchExchange_time (s : State) (p : Nat) : (latchExchange s p).time = s.time := by
  simp [latchExchange]

@[simp] theorem enterExchange_time (s : State) (p : Nat) : (enterExchange s p).time = s.time := by
  simp [enterExchange]

@[simp] theorem capRefresh_time (s : State) (p : Nat) : (capRefresh s p).time = s.time := by
  simp [capRefresh, apply_ite State.time]

@[simp] theorem capRefreshAll_time (s : State) : (capRefreshAll s).time = s.time := by
  simp [capRefreshAll]

/-! #### Tiers -/

@[simp] theorem removeFromService_time (s : State) : (removeFromService s).time = s.time := by
  rw [removeFromService, serviceRecord_time, report_time, capRefreshAll_time, setFence_time, State.wr_time]

@[simp] theorem judgeReset_time (s : State) (t : Nat) : (judgeReset s t).time = s.time := by
  simp [judgeReset, apply_ite State.time]

@[simp] theorem countReset_time (s : State) (r : TierRun) : (countReset s r).time = s.time := by
  unfold countReset
  dsimp only
  repeat' split
  all_goals simp

@[simp] theorem tierComplete_time (s : State) (r : TierRun) : (tierComplete s r).time = s.time := by
  have hfree : ∀ (t : State) (q : Bool) (c : Prop) [Decidable c], t.time = s.time →
      (if c then hmpFreeQuarantine { t with hmp := { t.hmp with quiesce := q } } else t).time = s.time := fun t q c _ h =>
    ite_time ((hmpFreeQuarantine_time _).trans h) h
  have hend : (((s.wr BDG_STATUS.TIER 0).wr BDG_STATUS.CAP_HOLD 0).wr BDG_TIER_CMD.BUSY 0).time = s.time := by
    rw [State.wr_time, State.wr_time, State.wr_time]
  unfold tierComplete
  dsimp only
  rw [beginReplay_time, logPump_time, countReset_time, logEvent_time, trgUpdate_time, setFence_time, setFence_time]
  refine ite_time ((leaveSafe_time _).trans ?_) (ite_time ?_ ?_)
  · dsimp only
    rw [State.wrapAdd_time]
    exact hfree _ _ _ hend
  · rw [State.wrapAdd_time]
    exact hfree _ _ _ hend
  · exact hfree _ _ _ hend

@[simp] theorem gatherRelease_time (s : State) : (gatherRelease s).time = s.time := by
  simp [gatherRelease]

@[simp] theorem targetClear_time (s : State) : (targetClear s).time = s.time := rfl

@[simp] theorem foxOff_time (s : State) : (foxOff s).time = s.time := rfl

@[simp] theorem foxPower_time (s : State) : (foxPower s).time = s.time := by
  unfold foxPower
  split <;> rfl

@[simp] theorem engineClear_time (s : State) (e : Nat) : (engineClear s e).time = s.time := by
  simp [engineClear, apply_ite State.time]

@[simp] theorem tierStep_time (s : State) : (tierStep s).time = s.time := by
  unfold tierStep
  split
  · simp [apply_ite State.time]
  · rfl

/-! #### Entries into Nap and Hibernate, links and lanes -/

@[simp] theorem abortEntry_time (s : State) : (abortEntry s).time = s.time := by
  unfold abortEntry
  refine ite_time rfl ?_
  dsimp only
  rw [State.wr_time, State.bump_time, State.wr_time, State.wr_time, State.wr_time]

@[simp] theorem widthRequest_time (s : State) (p w : Nat) : (widthRequest s p w).time = s.time := by
  unfold widthRequest
  refine ite_time rfl ?_
  dsimp only
  rw [State.setLink_time, sendLink_time]

@[simp] theorem sleepCmd_time (s : State) (p target : Nat) : (sleepCmd s p target).time = s.time := by
  unfold sleepCmd
  refine ite_time rfl ?_
  dsimp only
  rw [State.setLink_time, sendLink_time, setLinkState_time]

@[simp] theorem sendToSleep_time (s : State) (p target : Nat) : (sendToSleep s p target).time = s.time := by
  unfold sendToSleep
  split <;> simp

@[simp] theorem sleepCancel_time (s : State) (p : Nat) : (sleepCancel s p).time = s.time := by
  simp [sleepCancel]

@[simp] theorem laneTimer_time (s : State) (p n : Nat) : (laneTimer s p n).time = s.time := rfl

@[simp] theorem linkWake_time (s : State) (p : Nat) : (linkWake s p).time = s.time := by
  unfold linkWake
  split
  · simp
  · simp [apply_ite State.time]
  · simp [apply_ite State.time]
  · rfl

@[simp] theorem napPorts_time (s : State) : (napPorts s).time = s.time := by
  simp [napPorts, apply_ite State.time]

@[simp] theorem lanesIdle_time (s : State) (p : Nat) : (lanesIdle s p).time = s.time :=
  foldl_time (f := fun t k => t.wr (LAN_LANE_STATUS.IN_USE k) 0) (fun t _ => State.wr_time t _ _) _ s

@[simp] theorem setLaneState_time (s : State) (p v : Nat) : (setLaneState s p v).time = s.time := rfl

@[simp] theorem State.putWire_time (s : State) (p : Nat) (w : List (Nat × List TxFrame)) :
    (s.putWire p w).time = s.time := rfl

@[simp] theorem sendAll_time (s : State) (p : Nat) (f : Nat → List TxFrame) : (sendAll s p f).time = s.time := rfl

@[simp] theorem lanesOff_time (s : State) (p : Nat) : (lanesOff s p).time = s.time := by
  simp [lanesOff]

@[simp] theorem dropKeys_time (s : State) (p : Nat) : (dropKeys s p).time = s.time := rfl

@[simp] theorem beginAttempt_time (s : State) (p : Nat) : (beginAttempt s p).time = s.time := by
  rw [beginAttempt, State.setLanePort_time, State.bump_time]

@[simp] theorem enterDetect_time (s : State) (p : Nat) : (enterDetect s p).time = s.time := by
  rw [enterDetect, sendAll_time, setLaneState_time, beginAttempt_time, lanesIdle_time]

@[simp] theorem laneRetrain_time (s : State) (p : Nat) : (laneRetrain s p).time = s.time := by
  unfold laneRetrain
  split <;> simp

@[simp] theorem linkDown_time (s : State) (p : Nat) (cause : Option Nat) (retrain : Bool) :
    (linkDown s p cause retrain).time = s.time := by
  have hdown : ∀ (t : State) (v : LinkPort), t.time = s.time →
      (dropKeys (t.setLink p v) p).time = s.time := fun t v h => by
    rw [dropKeys_time, State.setLink_time, h]
  have hclear : ((((setLinkState s p 0).wr (LNK_STATUS.SEALED p) 0).wr (LNK_STATUS.VC_RUN p) 0).wr
      (LNK_STATUS.QCAUSE p) 0).time = s.time := by
    rw [State.wr_time, State.wr_time, State.wr_time, setLinkState_time]
  unfold linkDown
  refine ite_time rfl ?_
  dsimp only
  rw [cleanCheck_time, repoint_time]
  cases cause with
  | none =>
    refine ite_time ((laneRetrain_time _ _).trans ?_) ?_
    all_goals exact ite_time ((State.bump_time _ _ _).trans (hdown _ _ hclear)) (hdown _ _ hclear)
  | some c =>
    refine ite_time ((laneRetrain_time _ _).trans ((report_time _ _ _ _ _).trans ?_)) ((report_time _ _ _ _ _).trans ?_)
    all_goals exact ite_time ((State.bump_time _ _ _).trans (hdown _ _ hclear)) (hdown _ _ hclear)

@[simp] theorem hibernatePorts_time (s : State) : (hibernatePorts s).time = s.time := by
  simp [hibernatePorts, apply_ite State.time]

@[simp] theorem entryWatch_time (s : State) : (entryWatch s).time = s.time := by
  simp [entryWatch, apply_ite State.time]

/-! #### Watches and counts of a REFCLK cycle -/

@[simp] theorem drowseWatch_time (s : State) : (drowseWatch s).time = s.time := by
  unfold drowseWatch
  split <;> simp

@[simp] theorem foxWatch_time (s : State) : (foxWatch s).time = s.time := by
  unfold foxWatch
  split <;> rfl

@[simp] theorem wakePort_time (s : State) (p : Nat) (far : Bool) : (wakePort s p far).time = s.time := by
  simp [wakePort, apply_ite State.time]

@[simp] theorem wakeWaiting_time (s : State) : (wakeWaiting s).time = s.time := by
  simp [wakeWaiting, apply_ite State.time]

@[simp] theorem portBusy_time (s : State) (p : Nat) : (portBusy s p).time = s.time := rfl

@[simp] theorem sampleIdle_time (s : State) : (sampleIdle s).time = s.time := by
  simp [sampleIdle, apply_ite State.time]

@[simp] theorem blockedCount_time (s : State) (n p : Nat) : (blockedCount s n p).time = s.time := by
  unfold blockedCount
  split <;> rfl

@[simp] theorem heldCount_time (s : State) (n p : Nat) : (heldCount s n p).time = s.time := by
  unfold heldCount
  split <;> rfl

@[simp] theorem stallCount_time (s : State) (n c : Nat) : (stallCount s n c).time = s.time := by
  simp [stallCount, apply_ite State.time]

@[simp] theorem fcCounts_time (s : State) : (fcCounts s).time = s.time := by
  unfold fcCounts
  split <;> simp

end Sys2Proof.Machine
end

section
namespace Sys2Proof.Machine
variable {s : State}

/-- No command is without a meaning. -/
theorem exec_answers (c : Instr) (s : State) : ∃ t, exec c s = .next t := by
  cases c <;> exact ⟨_, rfl⟩

theorem step_answers (s : State) : ∃ t, step s = .next t := by
  cases h : s.pending with
  | nil => exact ⟨_, step_idle s h⟩
  | cons c rest =>
    rw [step_front s c rest h]
    exact exec_answers c _

/-- While PORST_n is low or REFCLK is lost no cycle passes (R17, R41). -/
theorem tick_stopped (h : s.pins.porst = true ∨ s.time.ref = false) : tick s = s := if_pos (by simpa using h)

/-- A REFCLK cycle counts once: of all that it lets happen, fabric time's own step alone changes time (R18). -/
theorem tick_refclks (hp : s.pins.porst = false) (hr : s.time.ref = true) :
    (tick s).time.refclks = s.time.refclks + 1 := by
  have hrun : tick s = watchEngines (mgmtDone (tierStep (entryWatch (drowseWatch (foxWatch (wakeWaiting
      (sampleIdle (refclkTime (fcCounts s))))))))) := if_neg (by simp [hp, hr])
  rw [hrun, watchEngines_time, mgmtDone_time, tierStep_time, entryWatch_time, drowseWatch_time, foxWatch_time,
    wakeWaiting_time, sampleIdle_time]
  show (fcCounts s).time.refclks + 1 = _
  rw [fcCounts_time]

end Sys2Proof.Machine

namespace Sys2Proof.Proofs
open Sys2Proof.Machine

/-- Settles O2: each command's meaning is a next state, and an idle step is a REFCLK cycle. -/
theorem stepAlwaysAnswers : Obligations.StepAlwaysAnswers := by
  unfold Obligations.StepAlwaysAnswers
  refine ⟨exec_answers, step_answers, step_idle, fun s h hp => ?_, fun s h hp hr => ?_⟩
  · rw [step_idle s h, tick_stopped hp]
  · exact ⟨tick s, step_idle s h, tick_refclks hp hr⟩

end Sys2Proof.Proofs
end

section
namespace Sys2Proof.Machine

/-! ### A field that reads a value -/

/-- In a canonical register file, field `g` reads `v`. -/
def Reads (g : Fld) (v : Nat) (t : State) : Prop := Tbl.wf resetWord t.regs = true ∧ t.rd g = v

section
variable {t u : State} {g : Fld} {v : Nat}

theorem reads_same (h : Reads g v t) (hr : u.regs = t.regs) : Reads g v u := by
  simpa only [Reads, State.rd, State.reg, hr] using h

theorem reads_wr {f : Fld} {x : Nat} (hf : g.addr ≠ f.addr) (h : Reads g v t) : Reads g v (t.wr f x) :=
  ⟨State.wf_wr t f x h.1, (State.rd_wr_ne t f g x h.1 hf).trans h.2⟩

/-- A write of another field of the same word. -/
theorem reads_wr_disjoint {f : Fld} {x : Nat} (h : Reads g v t) (ha : g.addr = f.addr) (hd : g.hi < f.lo ∨ f.hi < g.lo)
    (hl : f.lo ≤ f.hi + 1) (hh : f.hi < 32) : Reads g v (t.wr f x) :=
  ⟨State.wf_wr t f x h.1, (State.rd_wr_disjoint t f g x h.1 hl hh ha hd).trans h.2⟩

theorem reads_ite {c : Prop} [Decidable c] (ht : Reads g v t) (hu : Reads g v u) : Reads g v (if c then t else u) := by
  split
  · exact ht
  · exact hu

theorem reads_foldl {α : Type} {f : State → α → State} {xs : List α}
    (hf : ∀ u, ∀ x ∈ xs, Reads g v u → Reads g v (f u x)) (h : Reads g v t) : Reads g v (xs.foldl f t) := by
  induction xs generalizing t with
  | nil => exact h
  | cons x xs ih =>
    exact ih (fun u y hy => hf u y (List.mem_cons_of_mem _ hy)) (hf t x List.mem_cons_self h)

end

/-! ### What a running tier, the pins and the power state hold, as the work of other units ends -/

/-- The registers in which a tier finds the state of its fill and the length of its hold (R596, R625). -/
def steadyRegs : List Nat := [HHG_INIT.BUSY.addr, BDG_CAP_CFG.HOLD.addr]

/-- The pins, the power state, the tier in progress, the boot, the heartbeat's timer and the quiesce of the HMP are in `t`
what they are in `s`, and so are `steadyRegs`, in a register file that stays canonical. -/
structure Steady (s t : State) : Prop where
  pins : t.pins = s.pins
  csp : t.csp = s.csp
  tier : t.bdg.tier = s.bdg.tier
  boot : t.bdg.boot = s.bdg.boot
  hbEnd : t.bdg.hbEnd = s.bdg.hbEnd
  quiesce : t.hmp.quiesce = s.hmp.quiesce
  regs : Tbl.wf resetWord s.regs = true →
    Tbl.wf resetWord t.regs = true ∧ ∀ a ∈ steadyRegs, t.reg a = s.reg a

section
variable {s t u : State}

theorem Steady.refl (s : State) : Steady s s := ⟨rfl, rfl, rfl, rfl, rfl, rfl, fun h => ⟨h, fun _ _ => rfl⟩⟩

/-- A change of anything else. -/
theorem Steady.same (h : Steady s t) (he : (u.pins, u.csp, u.bdg.tier, u.bdg.boot, u.bdg.hbEnd, u.hmp.quiesce, u.regs) =
    (t.pins, t.csp, t.bdg.tier, t.bdg.boot, t.bdg.hbEnd, t.hmp.quiesce, t.regs)) : Steady s u := by
  simp only [Prod.mk.injEq] at he
  obtain ⟨hp, hc, ht, hb, hh, hq, hr⟩ := he
  exact ⟨hp.trans h.pins, hc.trans h.csp, ht.trans h.tier, hb.trans h.boot, hh.trans h.hbEnd, hq.trans h.quiesce,
    fun hw => by simpa only [State.reg, hr] using h.regs hw⟩

theorem Steady.trans (h : Steady s t) (g : Steady t u) : Steady s u :=
  ⟨g.pins.trans h.pins, g.csp.trans h.csp, g.tier.trans h.tier, g.boot.trans h.boot, g.hbEnd.trans h.hbEnd,
    g.quiesce.trans h.quiesce, fun hw =>
      have ⟨hw', hr⟩ := h.regs hw
      have ⟨hw'', hr'⟩ := g.regs hw'
      ⟨hw'', fun a ha => (hr' a ha).trans (hr a ha)⟩⟩

/-- A field of those registers reads the same. -/
theorem Steady.reads (h : Steady s t) {f : Fld} {v : Nat} (hs : Reads f v s) (hf : f.addr ∈ steadyRegs) :
    Reads f v t := by
  obtain ⟨hw, hr⟩ := h.regs hs.1
  refine ⟨hw, Eq.trans ?_ hs.2⟩
  unfold State.rd
  rw [hr _ hf]

theorem steady_ite {c : Prop} [Decidable c] (ht : Steady s t) (hu : Steady s u) : Steady s (if c then t else u) := by
  split
  · exact ht
  · exact hu

theorem steady_foldl {α : Type} {f : State → α → State} {xs : List α} (hf : ∀ u x, Steady s u → Steady s (f u x))
    (h : Steady s t) : Steady s (xs.foldl f t) := by
  induction xs generalizing t with
  | nil => exact h
  | cons x xs ih => exact ih (hf t x h)

/-- The same of steps that carry a result with the state. -/
theorem steady_foldl_fst {α β : Type} {f : State × β → α → State × β} {xs : List α} {a : State × β}
    (hf : ∀ u x, Steady s u.1 → Steady s (f u x).1) (h : Steady s a.1) : Steady s (xs.foldl f a).1 := by
  induction xs generalizing a with
  | nil => exact h
  | cons x xs ih => exact ih (hf a x h)

theorem steady_wr {f : Fld} {v : Nat} (hf : f.addr ∉ steadyRegs) (h : Steady s t) : Steady s (t.wr f v) :=
  { h with regs := fun hw =>
      have ⟨hw', hr⟩ := h.regs hw
      ⟨State.wf_wr t f v hw', fun a ha => (State.reg_wr_ne t f v a hw' fun he => hf (he ▸ ha)).trans (hr a ha)⟩ }

theorem steady_bump {f : Fld} {n : Nat} (hf : f.addr ∉ steadyRegs) (h : Steady s t) : Steady s (t.bump f n) :=
  steady_wr hf h

/-- The registers of the fabric and of Seal are others. -/
theorem not_steadyReg_of_le {a : Nat} (h : 0x40000 ≤ a) : a ∉ steadyRegs := by
  simp [steadyRegs, HHG_INIT.BUSY, BDG_CAP_CFG.HOLD]
  omega

/-- A register of one of several ports, lanes or links. -/
theorem steady_wr_port {b i hi lo v : Nat} (hb : 0x40000 ≤ b) (h : Steady s t) : Steady s (t.wr ⟨b + i, hi, lo⟩ v) :=
  steady_wr (not_steadyReg_of_le (Nat.le_add_right_of_le hb)) h

theorem steady_report {a b c d : Nat} (h : Steady s t) : Steady s (report t a b c d) := h.same rfl

end
end Sys2Proof.Machine
end

section
namespace Sys2Proof.Machine

/-! #### The end of an entry, of a step and of an operation of transport, which a fence brings about -/

section
variable {s t : State}

theorem steady_yar {y : Yarrow} (h : Steady s t) : Steady s { t with yar := y } := h.same rfl

theorem steady_setCtx {k : Nat} {c : Ctxt} (h : Steady s t) : Steady s (t.setCtx k c) := h.same rfl

theorem steady_putXop {o : XOp} (h : Steady s t) : Steady s (t.putXop o) := h.same rfl

theorem steady_putStep {y : Nat} {v : YStep} (h : Steady s t) : Steady s (t.putStep y v) := h.same rfl

theorem steady_hmpIssueAll {w : Bool} {src id : Nat} {data : List Byte} {parts : List (Nat × Nat)} {off : Nat}
    (h : Steady s t) : Steady s (hmpIssueAll w src id data parts off t) := by
  induction parts generalizing off t with
  | nil => exact h
  | cons x xs ih => exact ih (h.same rfl)

theorem steady_hmpStart {w : Bool} {src : Nat} {ext : List (Nat × Nat)} {data : List Byte} {k : Purpose}
    (h : Steady s t) : Steady s (hmpStart t w src ext data k) := steady_hmpIssueAll (h.same rfl)

theorem steady_recordFail {k st : Nat} (h : Steady s t) : Steady s (recordFail t k st) := h.same rfl

theorem steady_synPut {o v : Nat} (h : Steady s t) : Steady s (synPut t o v) :=
  steady_foldl (fun _ _ hu => steady_ite (hu.same rfl) hu) (h.same rfl)

theorem steady_synAdd {o n : Nat} (h : Steady s t) : Steady s (synAdd t o n) := steady_ite h (steady_synPut h)

theorem steady_applyCnt {o : Option Nat} (h : Steady s t) : Steady s (applyCnt t o) := by
  cases o with
  | none => exact h
  | some obj => exact steady_synAdd h

theorem steady_actionFails {i st : Nat} (h : Steady s t) : Steady s (actionFails t i st) :=
  steady_report (steady_wr (by decide) (steady_synAdd (steady_recordFail h)))

theorem steady_dropEntry {k id : Nat} (h : Steady s t) : Steady s (dropEntry t k id) := by
  unfold dropEntry
  dsimp only
  split
  · exact h
  · exact steady_ite (h.same rfl) (h.same rfl)

theorem steady_failEntry {k id st : Nat} (h : Steady s t) : Steady s (failEntry t k id st) :=
  steady_ite h (steady_recordFail h)

theorem steady_fillLine {w line : Nat} (h : Steady s t) : Steady s (fillLine t w line) :=
  steady_ite h (steady_hmpStart (steady_wr (by decide) (h.same rfl)))

theorem steady_writeCpl {q : Nat} {c : Cpl} (h : Steady s t) : Steady s (writeCpl t q c) := steady_hmpStart (h.same rfl)

theorem steady_qComplete {q : Nat} {c : Cpl} (h : Steady s t) : Steady s (qComplete t q c) :=
  steady_ite (steady_applyCnt h) (steady_ite (h.same rfl) (steady_writeCpl h))

theorem steady_descDone {q index status bytes result : Nat} (h : Steady s t) :
    Steady s (descDone t q index status bytes result) := by
  unfold descDone
  dsimp only
  split
  · exact h
  · exact steady_qComplete (h.same rfl)

/-! Operations of transport. -/

theorem steady_emit {f : Flow} {p : Pkt} (h : Steady s t) : Steady s (emit t f p) := h.same rfl

theorem steady_takeEntry {o : XOp} (h : Steady s t) : Steady s (takeEntry t o) := by
  unfold takeEntry
  split
  · exact h
  · exact steady_ite (steady_hmpStart (h.same rfl)) (h.same rfl)

theorem steady_transmit {i : Nat} {e : OotEntry} (h : Steady s t) : Steady s (transmit t i e) := by
  unfold transmit
  split
  · exact h
  · exact steady_emit (h.same rfl)

theorem steady_tryBegin {i : Nat} (h : Steady s t) : Steady s (tryBegin t i) := by
  unfold tryBegin
  split
  · exact h
  · exact steady_ite h (steady_transmit (h.same rfl))

theorem steady_pumpStream {i : Nat} (h : Steady s t) : Steady s (pumpStream t i) :=
  steady_foldl (fun _ _ hu => steady_tryBegin hu) h

theorem steady_launch {n i : Nat} (h : Steady s t) : Steady s (launch n t i) := by
  induction n generalizing t with
  | zero => exact h
  | succ n ih =>
    unfold launch
    split
    · exact h
    · exact steady_ite (steady_pumpStream h) (ih (steady_takeEntry h))

theorem steady_startOp {o : XOp} (h : Steady s t) : Steady s (startOp t o) := steady_launch (t := (newOp t o).1) (h.same rfl)

theorem steady_sendColl {y g dest opcode phase off : Nat} {payload : List Byte} (h : Steady s t) :
    Steady s (sendColl t y g dest opcode phase off payload) := steady_startOp h

theorem steady_sendCount {y : Nat} {v : YStep} {node kind value : Nat} (h : Steady s t) :
    Steady s (sendCount t y v node kind value) := steady_sendColl h

theorem steady_sendReady {y : Nat} {v : YStep} {node k slice : Nat} {half : Bool} (h : Steady s t) :
    Steady s (sendReady t y v node k slice half) := steady_sendColl h

theorem steady_sendFails {g step st origin : Nat} {skip : Option Nat} (h : Steady s t) :
    Steady s (sendFails t g step st origin skip) := steady_foldl (fun _ _ hu => steady_sendColl hu) h

theorem steady_sendAborts {g : Nat} {r : AbortRec} {skip : Option Nat} (h : Steady s t) :
    Steady s (sendAborts t g r skip) := steady_foldl (fun _ _ hu => steady_sendColl hu) h

theorem steady_sendSFails {g step st len : Nat} {skip : Option Nat} (h : Steady s t) :
    Steady s (sendSFails t g step st len skip) := steady_foldl (fun _ _ hu => hu.same rfl) h

/-! Steps of collectives. -/

theorem steady_groupEnded {g step st : Nat} {lag : Option (Nat × Nat × Nat)} (h : Steady s t) :
    Steady s (groupEnded t g step st lag) := h.same rfl

theorem steady_cxEnded {g step st : Nat} {body : List Byte} (h : Steady s t) : Steady s (cxEnded t g step st body) :=
  h.same rfl

theorem steady_dropStepOps {y : Nat} (h : Steady s t) : Steady s (dropStepOps t y) := h.same rfl

theorem steady_stepEntryDone {k id : Nat} (h : Steady s t) : Steady s (stepEntryDone t k id) := by
  unfold stepEntryDone
  split
  · exact h
  · exact steady_dropEntry (steady_applyCnt h)

theorem steady_finishStep {y st : Nat} {sf : Bool} (h : Steady s t) : Steady s (finishStep t y st sf) := by
  unfold finishStep
  split
  · exact h
  · rename_i v _
    have hended : Steady s (groupEnded (dropStaging (dropStepOps { t with yar := { t.yar with
        steps := t.yar.steps.drop y } } y) v.stag) v.g v.step st v.lag) :=
      steady_groupEnded (steady_yar (steady_dropStepOps (h.same rfl)))
    have hcx := steady_ite (c := v.phase = 6) (steady_cxEnded (g := v.g) (step := v.step) (st := st)
      (body := v.body.getD []) hended) hended
    exact steady_stepEntryDone (steady_ite (steady_sendFails hcx) hcx)

theorem steady_markEnding {y st : Nat} {sf : Bool} (h : Steady s t) : Steady s (markEnding t y st sf) := by
  unfold markEnding
  split
  · exact h
  · exact steady_ite h (steady_ite (steady_finishStep (h.same rfl)) (steady_dropStepOps (h.same rfl)))

theorem steady_finishSto {g step st : Nat} {sf : Bool} (h : Steady s t) : Steady s (finishSto t g step st sf) := by
  unfold finishSto
  split
  · exact h
  split
  · exact h
  · exact steady_stepEntryDone (steady_ite (steady_sendSFails (steady_groupEnded (h.same rfl))) (steady_groupEnded (h.same rfl)))

theorem steady_entryOut {st : Nat} {sf : Bool} {x : Nat × BeEntry} (h : Steady s t) : Steady s (entryOut st sf t x) := by
  have hended : Steady s (groupEnded (dropEarly t (x.2.imm % 4096) x.2.step) (x.2.imm % 4096) x.2.step st none) :=
    steady_groupEnded (h.same rfl)
  refine steady_stepEntryDone (steady_ite ?_ (steady_ite (steady_sendSFails ?_) (steady_sendFails ?_)))
  all_goals exact steady_ite (steady_cxEnded hended) (steady_yar hended)

theorem steady_endAll {g st : Nat} (h : Steady s t) : Steady s (endAll t g st) :=
  steady_foldl (fun _ _ hu => steady_entryOut hu) (steady_foldl (fun _ _ hu => steady_finishSto hu)
    (steady_foldl (fun _ _ hu => steady_markEnding hu) h))

theorem steady_abortGroup {g : Nat} {r : AbortRec} {skip : Option Nat} (h : Steady s t) :
    Steady s (abortGroup t g r skip) := steady_ite h (steady_endAll (steady_sendAborts (h.same rfl)))

theorem steady_abortIfPriv {g step st : Nat} (h : Steady s t) : Steady s (abortIfPriv t g step st) :=
  steady_ite (steady_abortGroup h) h

theorem steady_endStep {y st : Nat} {sf : Bool} (h : Steady s t) : Steady s (endStep t y st sf) := by
  unfold endStep
  split
  · exact h
  · exact steady_abortIfPriv (steady_markEnding h)

theorem steady_failSto {g step st : Nat} {sf : Bool} (h : Steady s t) : Steady s (failSto t g step st sf) :=
  steady_abortIfPriv (steady_finishSto h)

theorem steady_endEverywhere {st : Nat} (h : Steady s t) : Steady s (endEverywhere t st) :=
  steady_foldl (fun _ _ hu => steady_foldl (fun _ _ hv => steady_abortIfPriv (steady_entryOut hv)) hu)
    (steady_foldl (fun _ _ hu => steady_failSto hu) (steady_foldl (fun _ _ hu => steady_endStep hu) h))

/-! Exchanges: COUNT and A2A. -/

theorem steady_stepRead {y src : Nat} {ext : List (Nat × Nat)} {k : Purpose} (h : Steady s t) :
    Steady s (stepRead t y src ext k) := by
  unfold stepRead
  split
  · exact h
  · exact steady_hmpStart (h.same rfl)

theorem steady_stepWrite {y : Nat} {ext : List (Nat × Nat)} {data : List Byte} {k : Purpose} (h : Steady s t) :
    Steady s (stepWrite t y ext data k) := by
  unfold stepWrite
  split
  · exact h
  · exact steady_ite (h.same rfl) (steady_hmpStart (h.same rfl))

theorem steady_exchangeCheck {y : Nat} (h : Steady s t) : Steady s (exchangeCheck t y) := by
  unfold exchangeCheck
  split
  · exact h
  · exact steady_ite h (steady_endStep h)

theorem steady_selfWrite {y : Nat} {ext : List (Nat × Nat)} {b : List Byte} (h : Steady s t) :
    Steady s (selfWrite t y ext b) := by
  unfold selfWrite
  split
  · exact h
  · exact steady_ite h (steady_stepWrite (h.same rfl))

theorem steady_cxPlaces {y : Nat} (h : Steady s t) : Steady s (cxPlaces t y) := by
  unfold cxPlaces
  split
  · exact h
  dsimp only
  split
  · exact h
  refine steady_ite h ?_
  split
  · exact steady_foldl (fun _ _ hu => steady_sendCount hu) h
  · exact steady_selfWrite (steady_putStep (steady_foldl (fun _ _ hu => steady_sendCount hu) h))

theorem steady_cxSend {y : Nat} (h : Steady s t) : Steady s (cxSend t y) := by
  unfold cxSend
  split
  · exact h
  split
  · refine steady_ite h ?_
    dsimp only
    split
    · exact steady_foldl (fun _ _ hu => steady_sendCount hu) h
    · exact steady_exchangeCheck (steady_cxPlaces (steady_putStep (steady_foldl (fun _ _ hu => steady_sendCount hu) h)))
  · exact h

theorem steady_a2aPackets {y : Nat} {v : YStep} {node at_ : Nat} {b : List Byte} (h : Steady s t) :
    Steady s (a2aPackets t y v node at_ b).1 := steady_foldl (fun _ _ hu => steady_sendColl hu) h

theorem steady_a2aSend {y : Nat} (h : Steady s t) : Steady s (a2aSend t y) := by
  unfold a2aSend
  split
  · exact h
  split
  · refine steady_ite h (steady_ite (steady_endStep h) (steady_ite (steady_endStep h) (steady_ite
      (steady_foldl (fun _ _ hu => steady_fillLine hu) (h.same rfl)) ?_)))
    dsimp only
    split
    · exact steady_foldl_fst (fun _ _ hu => steady_a2aPackets hu) h
    · exact steady_exchangeCheck (steady_selfWrite (steady_putStep (steady_foldl_fst (fun _ _ hu => steady_a2aPackets hu) h)))
  · exact h

theorem steady_a2aTable {y : Nat} (h : Steady s t) : Steady s (a2aTable t y) := by
  unfold a2aTable
  split
  · exact h
  split
  · exact h
  split
  · exact h
  · exact steady_ite h (steady_ite (steady_endStep h) (steady_stepRead (h.same rfl)))

theorem steady_settle (h : Steady s t) : Steady s (settle t) :=
  steady_foldl (fun _ _ hu => steady_cxSend (steady_a2aSend (steady_a2aTable hu))) h

/-! Slices of reductions and gathers. -/

theorem steady_setSeg {y k : Nat} {g : Seg} (h : Steady s t) : Steady s (setSeg t y k g) := by
  unfold setSeg
  split
  · exact h
  · exact h.same rfl

theorem steady_grantKids {y k : Nat} (h : Steady s t) : Steady s (grantKids t y k) := by
  unfold grantKids
  split
  · exact h
  · exact steady_foldl (fun _ _ hu => steady_sendReady hu) (steady_setSeg h)

theorem steady_stepCheck {y : Nat} (h : Steady s t) : Steady s (stepCheck t y) := by
  unfold stepCheck
  split
  · exact h
  · exact steady_ite (steady_endStep h) h

theorem steady_sendSlice {y : Nat} {v : YStep} {nb k slice : Nat} {half : Bool} {data : List Byte}
    {sat : List (Nat × Nat)} (h : Steady s t) : Steady s (sendSlice t y v nb k slice half data sat).1 :=
  steady_foldl (fun _ _ hu => steady_sendColl hu) h

theorem steady_gatherRun {fuel y k : Nat} (h : Steady s t) : Steady s (gatherRun fuel t y k) := by
  induction fuel generalizing t with
  | zero => exact h
  | succ fuel ih =>
    have hsent : ∀ (f : State × Nat → Nat → State × Nat) (cs : List Nat), (∀ a c, Steady s a.1 → Steady s (f a c).1) →
        Steady s (cs.foldl f (t, 0)).1 := fun f cs hf => steady_foldl_fst hf h
    unfold gatherRun
    split
    · exact h
    refine steady_ite h ?_
    dsimp only
    split
    · exact h
    refine steady_ite ?_ (steady_ite ?_ ?_)
    · exact steady_setSeg (hsent _ _ fun _ _ ha => steady_sendSlice ha)
    · exact steady_stepCheck (steady_setSeg (steady_setSeg (hsent _ _ fun _ _ ha => steady_sendSlice ha)))
    · split
      · exact ih (steady_setSeg (steady_setSeg (hsent _ _ fun _ _ ha => steady_sendSlice ha)))
      · exact steady_sendReady (steady_setSeg (steady_setSeg (hsent _ _ fun _ _ ha => steady_sendSlice ha)))

theorem steady_gatherStart {y k : Nat} (h : Steady s t) : Steady s (gatherStart t y k) := by
  unfold gatherStart
  split
  · exact h
  dsimp only
  split
  · exact steady_gatherRun (steady_setSeg h)
  · exact steady_sendReady (steady_setSeg h)

theorem steady_stagePut {y : Nat} {l : List Nat} {data : List Byte} {k : Purpose} (h : Steady s t) :
    Steady s (stagePut t y l data k) := by
  unfold stagePut
  split
  · exact h
  · exact steady_hmpStart (h.same rfl)

theorem steady_reduceRun {fuel y k : Nat} (h : Steady s t) : Steady s (reduceRun fuel t y k) := by
  induction fuel generalizing t with
  | zero => exact h
  | succ fuel ih =>
    unfold reduceRun
    split
    · exact h
    dsimp only
    refine steady_ite h (steady_ite (steady_ite h ?passed) (steady_ite h (steady_ite (steady_ite h ?spill) (steady_ite ?bad
      (steady_ite ?owner (steady_ite h ?part))))))
    case passed =>
      exact steady_ite (ih (steady_grantKids (steady_setSeg h))) (steady_ite (steady_stepCheck (steady_setSeg (steady_setSeg h)))
        (steady_gatherStart (steady_setSeg h)))
    case spill => exact steady_stagePut (steady_setSeg h)
    case bad => exact steady_endStep (steady_bump (by decide) h)
    case owner =>
      refine steady_ite (steady_yar (steady_setSeg ?_)) (steady_ite (ih (steady_setSeg ?_)) (steady_stepWrite (steady_setSeg ?_)))
      all_goals
        split
        · exact steady_putStep (steady_bump (by decide) (steady_bump (by decide) h))
        · exact steady_bump (by decide) (steady_bump (by decide) h)
    case part =>
      split
      · exact h
      · split
        · exact steady_sendSlice h
        · exact steady_setSeg (steady_sendSlice h)

/-! The end of an operation, and a fence. -/

theorem steady_collEnd {y : Nat} {o : XOp} {st : Nat} (h : Steady s t) : Steady s (collEnd t y o st) := by
  unfold collEnd
  refine steady_ite h ?_
  split
  · exact h
  refine steady_ite h (steady_ite ?done (steady_ite ?counted (steady_settle (steady_endStep h))))
  case counted => exact steady_yar (steady_ite (steady_bump (by decide) h) (steady_bump (by decide) h))
  case done =>
    dsimp only
    split
    · exact steady_reduceRun (steady_setSeg h)
    · exact steady_gatherRun (steady_setSeg h)
    · exact h
    · exact steady_settle (steady_exchangeCheck (h.same rfl))

theorem steady_entryEnd {k id st bytes result : Nat} (h : Steady s t) : Steady s (entryEnd t k id st bytes result) := by
  unfold entryEnd
  split
  · exact h
  split
  · exact steady_descDone (steady_dropEntry h)
  · have hfail := steady_ite (c := st = stOK) h (steady_failEntry (k := k) (id := id) (st := st) h)
    exact steady_applyCnt (steady_dropEntry (steady_ite (steady_setCtx hfail) hfail))

theorem steady_opEnd {o : XOp} {st : Nat} (h : Steady s t) : Steady s (opEnd t o st) := by
  unfold opEnd
  split
  · exact steady_entryEnd h
  · exact steady_ite h (steady_actionFails h)
  · exact steady_ite (steady_report (steady_bump (by decide) h)) h
  · exact steady_collEnd h

theorem steady_opCheck {i : Nat} (h : Steady s t) : Steady s (opCheck t i) := by
  unfold opCheck
  split
  · exact h
  · exact steady_ite (steady_opEnd (h.same rfl)) h

theorem steady_dropUnsent {i : Nat} (h : Steady s t) : Steady s (dropUnsent t i) := by
  have hdrop : ∀ l : List (Nat × OotEntry), Steady s (l.foldl (fun u e => abandonTag (u.dropEntry e.1) e.1) t) := fun l =>
    steady_foldl (fun _ _ hu => hu.same rfl) h
  unfold dropUnsent
  dsimp only
  split
  · exact hdrop _
  · exact steady_putXop (hdrop _)

theorem steady_failOp {i st : Nat} (h : Steady s t) : Steady s (failOp t i st) := by
  unfold failOp
  split
  · exact h
  · exact steady_opCheck (steady_dropUnsent (h.same rfl))

theorem steady_afterFence {was : Bool} (h : Steady s t) : Steady s (afterFence was t) :=
  steady_ite (steady_settle (steady_endEverywhere (steady_foldl (fun _ _ hu => steady_failOp hu) h))) h

theorem steady_setFence {f : Fld} {on : Bool} (hf : f.addr ∉ steadyRegs) (h : Steady s t) :
    Steady s (setFence t f on) := steady_afterFence (steady_wr hf h)

end
end Sys2Proof.Machine
end

section
namespace Sys2Proof.Machine

/-! #### The event log, the journal, the records of resets, and links -/

section
variable {s t : State}

theorem steady_logDrop {n : Nat} (h : Steady s t) : Steady s (logDrop t n) :=
  steady_ite h (Steady.same (t := t.bump BDG_LOG_CFG.LOST n) (steady_bump (by decide) h) rfl)

theorem steady_logPump (h : Steady s t) : Steady s (logPump t) := by
  unfold logPump
  split
  · exact h
  · exact steady_ite h (steady_ite (steady_logDrop (h.same rfl)) (steady_hmpStart (h.same rfl)))

theorem steady_logEvent {point level : Nat} {args : List Nat} (h : Steady s t) :
    Steady s (logEvent t point level args) :=
  steady_ite h (steady_ite (h.same rfl) (steady_ite (steady_logDrop (h.same rfl)) (steady_logPump (h.same rfl))))

theorem steady_burrow {b : Burrow} (h : Steady s t) : Steady s { t with burrow := b } := h.same rfl

theorem steady_openSector (h : Steady s t) : Steady s (openSector t) := steady_wr (by decide) (steady_burrow h)

theorem steady_burrowPut {n : Nat} {body : List Byte} (h : Steady s t) : Steady s (burrowPut t n body) :=
  steady_ite h (steady_ite (steady_bump (by decide) h) (steady_ite (steady_burrow (steady_burrow h)) (steady_ite
    (steady_bump (by decide) (steady_burrow h)) (steady_burrow (steady_ite (steady_burrow (steady_openSector (steady_burrow h)))
      (steady_openSector (steady_burrow h)))))))

theorem steady_serviceRecord {event : Nat} (h : Steady s t) : Steady s (serviceRecord t event) := steady_burrowPut h

theorem steady_putStamps {a b : Nat} (h : Steady s t) : Steady s (putStamps t a b) :=
  steady_wr (by decide) (steady_wr (by decide) (steady_wr (by decide) (steady_wr (by decide) h)))

/-! Links. -/

theorem steady_setLink {p : Nat} {v : LinkPort} (h : Steady s t) : Steady s (t.setLink p v) := h.same rfl

theorem steady_repoint (h : Steady s t) : Steady s (repoint t) := h.same rfl

theorem steady_cleanCheck (h : Steady s t) : Steady s (cleanCheck t) :=
  steady_ite (steady_wr (by decide) (steady_wr (by decide) h)) h

theorem steady_setLinkState {p v : Nat} (h : Steady s t) : Steady s (setLinkState t p v) :=
  steady_wr_port (by decide) h

theorem steady_sendLink {p type blen : Nat} {body : List Byte} (h : Steady s t) :
    Steady s (sendLink t p type blen body) := steady_setLink h

theorem steady_renewCap {p : Nat} (h : Steady s t) : Steady s (renewCap t p) := steady_ite h (steady_setLink h)

theorem steady_sendCap {p : Nat} (h : Steady s t) : Steady s (sendCap t p) := steady_sendLink (steady_setLink h)

theorem steady_putVcRun {p : Nat} (h : Steady s t) : Steady s (putVcRun t p) := by
  unfold putVcRun
  dsimp only
  split
  · exact steady_wr_port (by decide) h
  · exact h

theorem steady_latchExchange {p : Nat} (h : Steady s t) : Steady s (latchExchange t p) :=
  steady_putVcRun (steady_setLink (steady_setLink h))

theorem steady_enterExchange {p : Nat} (h : Steady s t) : Steady s (enterExchange t p) :=
  steady_setLink (steady_setLinkState (steady_latchExchange h))

theorem steady_enterUp {p : Nat} (h : Steady s t) : Steady s (enterUp t p) :=
  steady_repoint (steady_setLink (steady_wr_port (by decide) (steady_putVcRun
    (steady_wr_port (by decide) (steady_setLinkState h)))))

theorem steady_enterQuarantine {p causes : Nat} (h : Steady s t) : Steady s (enterQuarantine t p causes) :=
  steady_repoint (steady_report (steady_cleanCheck (steady_setLink (steady_setLinkState
    (steady_wr_port (by decide) h)))))

theorem steady_evaluate {p : Nat} (h : Steady s t) : Steady s (evaluate t p) :=
  steady_ite (steady_wr_port (by decide) h) (steady_ite h (steady_ite (steady_enterQuarantine h)
    (steady_ite (steady_enterUp h) h)))

theorem steady_sendVerdict {p cause : Nat} (h : Steady s t) : Steady s (sendVerdict t p cause) :=
  steady_sendLink (steady_setLink h)

theorem steady_sealFail {p cause : Nat} (h : Steady s t) : Steady s (sealFail t p cause) :=
  steady_evaluate (steady_sendVerdict (steady_sendLink (steady_wr_port (by decide) (steady_wr_port (by decide) (h.same rfl)))))

theorem steady_sealStart {p : Nat} (h : Steady s t) : Steady s (sealStart t p) := by
  have hrun : ∀ k, Steady s ((((randBytes t 32).2.setSealLink p k).wr (SEA_LINK0.STATE p) 1).wr (SEA_LINK0.KGEN p) 0) :=
    fun _ => steady_wr_port (by decide) (steady_wr_port (by decide) (h.same rfl))
  exact steady_ite (steady_sealFail (hrun _)) (steady_sendLink (hrun _))

theorem steady_judge {p : Nat} (h : Steady s t) : Steady s (judge t p) := by
  unfold judge
  dsimp only
  split
  · exact h
  · have hfar : ∀ a b, Steady s ((t.wr (LAN_PORT_FAR.FAR_NODE p) a).wr (LAN_PORT_FAR.FAR_PORT p) b) := fun _ _ =>
      steady_wr_port (by decide) (steady_wr_port (by decide) h)
    exact steady_ite (steady_ite (hfar _ _) (steady_sealStart (hfar _ _)))
      (steady_evaluate (steady_sendVerdict (hfar _ _)))

theorem steady_capRefresh {p : Nat} (h : Steady s t) : Steady s (capRefresh t p) :=
  steady_ite h (steady_judge (steady_sendCap (steady_ite (steady_enterExchange (steady_renewCap h)) (steady_renewCap h))))

theorem steady_capRefreshAll (h : Steady s t) : Steady s (capRefreshAll t) :=
  steady_foldl (fun _ _ hu => steady_capRefresh hu) h

/-! Counted resets, captures and replay. -/

theorem steady_removeFromService (h : Steady s t) : Steady s (removeFromService t) :=
  steady_serviceRecord (steady_report (steady_capRefreshAll (steady_setFence (by decide) (steady_wr (by decide) h))))

theorem steady_judgeReset {n : Nat} (h : Steady s t) : Steady s (judgeReset t n) := by
  have hput : ∀ c : Bool, Steady s (if c then t else putStamps t (stampAt t 2) n) := fun c =>
    steady_ite h (steady_putStamps h)
  exact steady_ite (steady_removeFromService (steady_burrowPut (hput _))) (steady_burrowPut (hput _))

theorem steady_countReset {r : TierRun} (h : Steady s t) : Steady s (countReset t r) := by
  refine steady_ite h ?_
  dsimp only
  split
  · exact steady_judgeReset (steady_bump (by decide) h)
  · exact Steady.same (t := t.bump BDG_STATUS.RESETS 1) (steady_bump (by decide) h) rfl

theorem suspectSet_not_steadyReg (j : Nat) : (BDG_SUSPECT_SET.SUSPECT j).addr ∉ steadyRegs := by
  simp [steadyRegs, HHG_INIT.BUSY, BDG_CAP_CFG.HOLD, BDG_SUSPECT_SET.SUSPECT]
  omega

theorem steady_fault {f : Nat × Nat} {c : Bool} (h : Steady s t) :
    Steady s { t with bdg := { t.bdg with fault := f, captured := c } } := h.same rfl

theorem steady_hhg {v : Hhg} (h : Steady s t) : Steady s { t with hhg := v } := h.same rfl

theorem steady_hhgAck {w : Nat} (h : Steady s t) : Steady s (hhgAck t w) := steady_hhg (steady_wr (by decide) h)

theorem steady_soloSlot {k : Nat} {rest : List Nat} (h : Steady s t) : Steady s (soloSlot t k rest) := h.same rfl

theorem steady_capture {r : FaultRec} {engine : Option Nat} (h : Steady s t) : Steady s (capture t r engine) :=
  steady_logEvent (steady_burrowPut (steady_fault
    (steady_foldl (fun _ j hu => steady_wr (suspectSet_not_steadyReg j) hu) h)))

theorem steady_tierCapture {r : TierRun} (h : Steady s t) : Steady s (tierCapture t r) :=
  steady_ite (Steady.same (t := capture t (lastRecord t) (some r.engine)) (steady_capture h) rfl)
    (steady_logEvent (steady_burrowPut h))

theorem steady_beginReplay (h : Steady s t) : Steady s (beginReplay t) := by
  unfold beginReplay
  split
  · exact h
  · exact steady_ite (h.same rfl) (steady_soloSlot (steady_wr (by decide) (steady_hhgAck (h.same rfl))))

end
end Sys2Proof.Machine
end

section
namespace Sys2Proof.Machine

/-! #### Lanes and ports that are taken down or switched on, and the board's configuration -/

section
variable {s t : State} {p : Nat}

theorem steady_sendAll {f : Nat → List TxFrame} (h : Steady s t) : Steady s (sendAll t p f) := h.same rfl

theorem steady_setLanePort {v : LanePort} (h : Steady s t) : Steady s (t.setLanePort p v) := h.same rfl

theorem steady_setLaneState {v : Nat} (h : Steady s t) : Steady s (setLaneState t p v) := steady_wr_port (by decide) h

theorem steady_lanesIdle (h : Steady s t) : Steady s (lanesIdle t p) :=
  steady_foldl (fun _ _ hu => steady_wr_port (by decide) hu) h

theorem steady_beginAttempt (h : Steady s t) : Steady s (beginAttempt t p) := steady_setLanePort (steady_wr_port (by decide) h)

theorem steady_lanesOff (h : Steady s t) : Steady s (lanesOff t p) :=
  steady_sendAll (steady_setLanePort (steady_wr_port (by decide) (steady_wr_port (by decide) (steady_lanesIdle (steady_setLaneState
    (steady_wr_port (by decide) h))))))

theorem steady_laneRetrain (h : Steady s t) : Steady s (laneRetrain t p) :=
  steady_ite (steady_sendAll (steady_setLaneState (steady_beginAttempt (steady_lanesIdle h)))) h

theorem steady_dropKeys (h : Steady s t) : Steady s (dropKeys t p) := steady_setLink (steady_wr_port (by decide) (h.same rfl))

theorem steady_linkDown {cause : Option Nat} {retrain : Bool} (h : Steady s t) :
    Steady s (linkDown t p cause retrain) := by
  have hclear : ∀ v, Steady s (dropKeys (((((setLinkState t p 0).wr (LNK_STATUS.SEALED p) 0).wr (LNK_STATUS.VC_RUN p) 0).wr
      (LNK_STATUS.QCAUSE p) 0).setLink p v) p) := fun _ =>
    steady_dropKeys (steady_setLink (steady_wr_port (by decide) (steady_wr_port (by decide) (steady_wr_port (by decide)
      (steady_setLinkState h)))))
  have hcount : ∀ (c : Bool) {u : State}, Steady s u → Steady s (if c then u.bump (LNK_ERR.DOWN p) 1 else u) :=
    fun _ _ hu => steady_ite (steady_wr_port (by decide) hu) hu
  refine steady_ite h (steady_cleanCheck (steady_repoint ?_))
  cases cause with
  | none => exact steady_ite (steady_laneRetrain (hcount _ (hclear _))) (hcount _ (hclear _))
  | some c => exact steady_ite (steady_laneRetrain (steady_report (hcount _ (hclear _)))) (steady_report (hcount _ (hclear _)))

theorem steady_testErrors {errs : List Nat} (h : Steady s t) : Steady s (testErrors t p errs) :=
  steady_foldl (fun _ _ hu => steady_wr_port (by decide) hu) h

theorem steady_mapLanes {f : LaneIo → LaneIo} (h : Steady s t) : Steady s (mapLanes t p f) :=
  steady_foldl (fun _ _ hu => hu.same rfl) h

theorem steady_portOn {errs : List Nat} (h : Steady s t) : Steady s (portOn t p errs) := by
  have hoff : Steady s (((t.wr (LAN_PORT_CFG.OFF p) 0).wr (LAN_PORT_STATUS.ATTEMPTS p) 0).wr
      (LAN_PORT_STATUS.FAIL_CAUSE p) 0) := steady_wr_port (by decide) (steady_wr_port (by decide) (steady_wr_port (by decide) h))
  exact steady_ite h (steady_ite (steady_testErrors h) (steady_ite h (steady_ite
    (steady_sendAll (steady_testErrors (steady_wr_port (by decide) (steady_setLaneState hoff))))
    (steady_setLanePort (steady_setLaneState (steady_beginAttempt (steady_mapLanes hoff)))))))

theorem steady_portsUp (h : Steady s t) : Steady s (portsUp t) :=
  steady_repoint (steady_foldl (fun _ _ hu => steady_portOn hu) h)

theorem steady_regWrite {b i w : Nat} (hb : 0x40000 ≤ b) (h : Steady s t) : Steady s (regWrite t (b + i) w) := by
  unfold regWrite
  split
  · exact ⟨h.pins, h.csp, h.tier, h.boot, h.hbEnd, h.quiesce, fun hw =>
      have ⟨hw', hr⟩ := h.regs hw
      ⟨State.wf_setReg t (b + i) _ hw', fun a ha =>
        (State.reg_setReg_ne t (b + i) a _ hw' fun he =>
          not_steadyReg_of_le (Nat.le_add_right_of_le hb) (he ▸ ha)).trans (hr a ha)⟩⟩
  · exact h

theorem steady_boardRecord {r : Nat × List Byte} (h : Steady s t) : Steady s (boardRecord t r) := by
  unfold boardRecord
  dsimp only
  split
  · exact steady_wr (by decide) h
  · exact steady_foldl (fun _ _ hu => steady_regWrite (by decide) (steady_regWrite (by decide) hu)) h
  · exact steady_foldl (fun _ _ hu => steady_regWrite (by decide) hu) h
  · exact steady_foldl (fun _ _ hu => steady_wr_port (by decide) (steady_wr_port (by decide) hu)) h
  · exact steady_wr (by decide) (steady_foldl (fun _ _ hu => steady_foldl (fun _ _ hv =>
      steady_regWrite (Nat.le_add_right_of_le (by decide)) hv) hu) h)
  · exact steady_foldl (fun _ _ hu => steady_wr_port (by decide) hu) h
  · exact steady_foldl (fun _ _ hu => steady_wr_port (by decide) hu) h
  · exact h

theorem steady_writeBoard (h : Steady s t) : Steady s (writeBoard t) :=
  steady_foldl (fun _ _ hu => steady_boardRecord hu) h

theorem steady_dropStoats (h : Steady s t) : Steady s (dropStoats t p) :=
  steady_foldl (fun _ _ hu => steady_ite (hu.same rfl) hu) h

theorem steady_releaseBuf {b : RtPkt} (h : Steady s t) : Steady s (releaseBuf t b) :=
  steady_ite h (steady_ite h (h.same rfl))

end
end Sys2Proof.Machine
end

section
namespace Sys2Proof
variable {α : Type}

/-- A read of a table that lists the values of `f` in turn. -/
theorem Tbl.get_map_range' (d : α) (f : Nat → α) (n : Nat) {a i : Nat} (hl : a ≤ i) (hu : i < a + n) :
    Tbl.get d ((List.range' a n).map fun j => (j, f j)) i = f i := by
  induction n generalizing a with
  | zero => omega
  | succ n ih =>
    rw [List.range'_succ, List.map_cons, Tbl.get, if_neg (Nat.not_lt.2 hl)]
    split
    · rw [‹i = a›]
    · exact ih (by omega) (by omega)

end Sys2Proof

namespace Sys2Proof.Machine

/-! ### The end of a tier (R603 step 7, R605, R617) -/

section
variable {s t : State} {r : TierRun}

/-- TRG_READY is all that its update changes. -/
theorem trgUpdate_eq (s : State) : ∃ b, trgUpdate s = { s with pins := { s.pins with trgReady := b } } := by
  unfold trgUpdate
  dsimp only
  split
  · exact ⟨false, rfl⟩
  · split
    · exact ⟨_, rfl⟩
    · exact ⟨s.pins.trgReady, rfl⟩

@[simp] theorem trgUpdate_bdg (s : State) : (trgUpdate s).bdg = s.bdg := by
  obtain ⟨b, hb⟩ := trgUpdate_eq s
  rw [hb]

@[simp] theorem trgUpdate_fcValid (s : State) : (trgUpdate s).pins.fcValid = s.pins.fcValid := by
  obtain ⟨b, hb⟩ := trgUpdate_eq s
  rw [hb]

theorem leaveSafe_tier (s : State) : (leaveSafe s).bdg.tier = s.bdg.tier := by
  unfold leaveSafe
  split
  · rfl
  · exact (steady_setFence (by decide) (Steady.refl _)).tier

theorem leaveSafe_fcValid (s : State) : (leaveSafe s).pins.fcValid = s.pins.fcValid := by
  unfold leaveSafe
  split
  · rfl
  · exact (congrArg Pins.fcValid (steady_setFence (by decide) (Steady.refl _)).pins).trans rfl

/-- What a tier that completes leaves, before the records of its end: no tier, and after a Tier 3 FC_VALID high. -/
theorem tierComplete_steady (s : State) (r : TierRun) : ∃ u, u.bdg.tier = none ∧
    (r.n = 3 → u.pins.fcValid = !s.pins.testFence) ∧ Steady (trgUpdate u) (tierComplete s r) := by
  have hrec : ∀ u n, Steady (trgUpdate u) (beginReplay (logPump (countReset (logEvent (trgUpdate u) 0x2002 1
      [r.n, stOK, n]) r))) := fun u n =>
    steady_beginReplay (steady_logPump (steady_countReset (steady_logEvent (Steady.refl _))))
  have hfence : ∀ u, Steady u (setFence (setFence u BDG_FENCE.TIER s.pins.testFence) BDG_FENCE.FW false) := fun u =>
    steady_setFence (by decide) (steady_setFence (by decide) (Steady.refl u))
  unfold tierComplete
  dsimp only
  refine ⟨_, ?_, fun h3 => ?_, hrec _ _⟩
  · simp only [(hfence _).tier, apply_ite State.bdg, apply_ite Badger.tier, leaveSafe_tier, State.wrapAdd_bdg, hmpFreeQuarantine,
      ite_self]
  · simp only [(hfence _).pins, if_pos h3, leaveSafe_fcValid, apply_ite State.pins, hmpFreeQuarantine, State.wr_pins, ite_self]

theorem tierComplete_tier (s : State) (r : TierRun) : (tierComplete s r).bdg.tier = none := by
  obtain ⟨u, hu, -, hs⟩ := tierComplete_steady s r
  rw [hs.tier, trgUpdate_bdg, hu]

theorem tierComplete_fcValid (h : r.n = 3) : (tierComplete s r).pins.fcValid = !s.pins.testFence := by
  obtain ⟨u, -, hu, hs⟩ := tierComplete_steady s r
  rw [hs.pins, trgUpdate_fcValid, hu h]

/-! ### The fabric is cleared and filled (R584, R603, R680) -/

theorem sameBut_withSch (s : State) (x : Sched) : SameBut [.sch] s { s with sch := x } := by
  intro c hc
  cases c <;> simp_all [Component.same]

theorem sameBut_withOut (s : State) (x : List OutPkt) : SameBut [.out] s { s with out := x } := by
  intro c hc
  cases c <;> simp_all [Component.same]

theorem sameBut_schedReset (s : State) : SameBut [.sch, .out] s (schedReset s) := by
  have htok : SameBut [.sch] s ((List.range 64).foldl (fun t i => setTokens t i (burstOf t i)) s) :=
    SameBut.foldl (fun t _ => sameBut_withSch t _) _ _
  unfold schedReset
  generalize (List.range 64).foldl (fun t i => setTokens t i (burstOf t i)) s = u at htok ⊢
  have hout : SameBut [.sch, .out] s { u with out := [] } := (htok.mono (by simp)).trans ((sameBut_withOut u []).mono (by simp))
  exact hout.trans ((sameBut_withSch _ _).mono (by simp))

theorem sameBut_cleanCheck (s : State) : SameBut [.regs] s (cleanCheck s) := by
  unfold cleanCheck
  split
  · exact (sameBut_wr s _ _).trans (sameBut_wr _ _ _)
  · exact SameBut.refl _ s

@[simp] theorem schedReset_pins (s : State) : (schedReset s).pins = s.pins := sameBut_schedReset s .pins (by decide)
@[simp] theorem schedReset_bdg (s : State) : (schedReset s).bdg = s.bdg := sameBut_schedReset s .bdg (by decide)
@[simp] theorem schedReset_ctxs (s : State) : (schedReset s).ctxs = s.ctxs := sameBut_schedReset s .ctxs (by decide)
@[simp] theorem schedReset_xpt (s : State) : (schedReset s).xpt = s.xpt := sameBut_schedReset s .xpt (by decide)
@[simp] theorem schedReset_yar (s : State) : (schedReset s).yar = s.yar := sameBut_schedReset s .yar (by decide)
@[simp] theorem schedReset_queues (s : State) : (schedReset s).queues = s.queues :=
  sameBut_schedReset s .queues (by decide)

@[simp] theorem cleanCheck_pins (s : State) : (cleanCheck s).pins = s.pins := sameBut_cleanCheck s .pins (by decide)
@[simp] theorem cleanCheck_bdg (s : State) : (cleanCheck s).bdg = s.bdg := sameBut_cleanCheck s .bdg (by decide)
@[simp] theorem cleanCheck_ctxs (s : State) : (cleanCheck s).ctxs = s.ctxs := sameBut_cleanCheck s .ctxs (by decide)
@[simp] theorem cleanCheck_xpt (s : State) : (cleanCheck s).xpt = s.xpt := sameBut_cleanCheck s .xpt (by decide)
@[simp] theorem cleanCheck_yar (s : State) : (cleanCheck s).yar = s.yar := sameBut_cleanCheck s .yar (by decide)
@[simp] theorem cleanCheck_queues (s : State) : (cleanCheck s).queues = s.queues :=
  sameBut_cleanCheck s .queues (by decide)

@[simp] theorem clearFabric_pins (ev : Nat) (s : State) : (clearFabric ev s).pins = s.pins := by
  simp [clearFabric, keepRegs, apply_ite State.pins]

@[simp] theorem clearFabric_tier (ev : Nat) (s : State) : (clearFabric ev s).bdg.tier = s.bdg.tier := by
  simp [clearFabric, keepRegs, apply_ite State.bdg]

@[simp] theorem clearFabric_ctxs (ev : Nat) (s : State) : (clearFabric ev s).ctxs = [] := by
  simp [clearFabric, apply_ite State.ctxs]

@[simp] theorem clearFabric_xpt (ev : Nat) (s : State) : (clearFabric ev s).xpt = {} := by
  simp [clearFabric, apply_ite State.xpt]

@[simp] theorem clearFabric_yar (ev : Nat) (s : State) : (clearFabric ev s).yar = {} := by
  simp [clearFabric, apply_ite State.yar]

/-- Every queue is closed by the reset (R132). -/
theorem clearFabric_queue (ev : Nat) (s : State) {q : Nat} (hq : q < 4096) :
    ((clearFabric ev s).queue q).state = .closedByReset := by
  have hl : (clearFabric ev s).queues = (List.range' 0 4096).map fun j => (j, resetQueue (ev ≠ 3) (s.queue j)) := by
    simp [clearFabric, apply_ite State.queues, List.range_eq_range']
  rw [State.queue, hl, Tbl.get_map_range' _ (fun j => resetQueue (ev ≠ 3) (s.queue j)) _ (Nat.zero_le q) (by omega)]
  unfold resetQueue
  split <;> rfl

end
end Sys2Proof.Machine
end

section
namespace Sys2Proof.Machine

/-! ### A link that goes DOWN (R163, R216, R604) -/

section
variable {t : State} {p v : Nat}

/-- A write of another field of the link's status word. -/
theorem reads_wr_lnkStatus {hi lo x : Nat} (hf : 3 < lo ∧ lo ≤ hi + 1 ∧ hi < 32) (h : Reads (LNK_STATUS.STATE p) v t) :
    Reads (LNK_STATUS.STATE p) v (t.wr ⟨0x80004 + 0x10000 * p, hi, lo⟩ x) :=
  reads_wr_disjoint h rfl (Or.inl hf.1) hf.2.1 hf.2.2

theorem laneCount_le (s : State) : s.laneCount ≤ 8 := by
  unfold State.laneCount
  split <;> decide

theorem linkState_enterDetect (hp : p < 12) (h : Reads (LNK_STATUS.STATE p) v t) :
    Reads (LNK_STATUS.STATE p) v (enterDetect t p) := by
  have hne : 0x80004 + 0x10000 * p ≠ 0x50104 + 0x10 * p := by omega
  have hidle : Reads (LNK_STATUS.STATE p) v (lanesIdle t p) := reads_foldl (fun u k hk hu => by
    obtain ⟨i, hi, rfl⟩ := List.mem_map.1 hk
    have hlt : i < 8 := Nat.lt_of_lt_of_le (List.mem_range.1 hi) (laneCount_le t)
    have hlane : 0x80004 + 0x10000 * p ≠ 0x53000 + 0x4 * (8 * p + i) := by omega
    exact reads_wr hlane hu) h
  have hbegin : Reads (LNK_STATUS.STATE p) v (beginAttempt (lanesIdle t p) p) :=
    reads_same (reads_wr (f := LAN_PORT_STATUS.ATTEMPTS p) hne hidle) rfl
  exact reads_same (reads_wr (f := LAN_PORT_STATUS.STATE p) hne hbegin) rfl

theorem linkState_dropKeys (h : Reads (LNK_STATUS.STATE p) v t) : Reads (LNK_STATUS.STATE p) v (dropKeys t p) := by
  have hne : 0x80004 + 0x10000 * p ≠ 0x40100 + 0x8 * p := by omega
  exact reads_same (reads_wr (f := SEA_LINK0.STATE p) hne (reads_same h rfl)) rfl

theorem linkState_cleanCheck (hp : p < 12) (h : Reads (LNK_STATUS.STATE p) v t) :
    Reads (LNK_STATUS.STATE p) v (cleanCheck t) := by
  have hne : 0x80004 + 0x10000 * p ≠ 0x140004 := by omega
  exact reads_ite (reads_wr (f := RTR_EPOCH.DRAINING) hne (reads_wr (f := RTR_EPOCH.OLD_FREE) hne h)) h

theorem reads_setLink {g : Fld} {q : Nat} {l : LinkPort} (h : Reads g v t) : Reads g v (t.setLink q l) := reads_same h rfl

theorem reads_repoint {g : Fld} (h : Reads g v t) : Reads g v (repoint t) := reads_same h rfl

/-- A link that goes DOWN without a fault is DOWN. -/
theorem linkDown_linkState (h : Tbl.wf resetWord t.regs = true) (hp : p < 12) (retrain : Bool) :
    (linkDown t p none retrain).linkState p = 0 := by
  unfold linkDown
  split
  · assumption
  refine (linkState_cleanCheck hp (reads_repoint ?_)).2
  have hdown : Reads (LNK_STATUS.STATE p) 0 (setLinkState t p 0) :=
    ⟨State.wf_wr t _ _ h, linkState_setLinkState h (by decide)⟩
  have hclear : Reads (LNK_STATUS.STATE p) 0 ((((setLinkState t p 0).wr (LNK_STATUS.SEALED p) 0).wr
      (LNK_STATUS.VC_RUN p) 0).wr (LNK_STATUS.QCAUSE p) 0) :=
    reads_wr_lnkStatus (by decide) (reads_wr_lnkStatus (by decide) (reads_wr_lnkStatus (by decide) hdown))
  have hkeys := fun l => linkState_dropKeys (reads_setLink (q := p) (l := l) hclear)
  have hne : 0x80004 + 0x10000 * p ≠ 0x80020 + 0x10000 * p := by omega
  have hcount : ∀ (c : Bool) {u : State}, Reads (LNK_STATUS.STATE p) 0 u →
      Reads (LNK_STATUS.STATE p) 0 (if c then u.bump (LNK_ERR.DOWN p) 1 else u) :=
    fun _ _ hu => reads_ite (reads_wr hne hu) hu
  exact reads_ite (reads_ite (linkState_enterDetect hp (hcount _ (hkeys _))) (hcount _ (hkeys _))) (hcount _ (hkeys _))

end

/-! ### The steps of a tier in progress (R52, R584, R597, R603 to R605, R614) -/

section
variable {s : State} {r : TierRun}

theorem portsDown_steady (s : State) : Steady { s with pins := { s.pins with fcValid := false } } (portsDown s) :=
  steady_foldl (fun _ _ hu => steady_ite (steady_lanesOff (steady_linkDown hu)) hu) (Steady.refl _)

/-- The ports go down without a pin's changing but FC_VALID. -/
theorem portsDown_pins (s : State) : (portsDown s).pins = { s.pins with fcValid := false } := (portsDown_steady s).pins

theorem quiesceEnd_tier3 (hq : s.hmp.quiesce = true) (hd : s.quiesceDone = true) (ht : s.bdg.tier = some r) (hn : r.n = 3)
    (hr : r.step = .quiesce) : quiesceEnd s = tier3Fill (portsDown s) r := by
  simp [quiesceEnd, hq, hd, ht, hn, hr]

theorem tier3Fill_held (h : s.pins.hrst = true) : tier3Fill s r = setRun s { r with step := .hrst } := by
  simp [tier3Fill, h]

theorem tier3Fill_starts (h : s.pins.hrst = false) (hf : s.on CSP_STATUS.FC_RUN = true) :
    tier3Fill s r = startFill 3 (setRun s { r with step := .fill }) := by
  simp [tier3Fill, h, hf]

@[simp] theorem setRun_bdg (s : State) (r : TierRun) : (setRun s r).bdg = { s.bdg with tier := some r } := by
  rw [setRun, State.wr_bdg, State.wr_bdg]

@[simp] theorem setRun_pins (s : State) (r : TierRun) : (setRun s r).pins = s.pins := by
  rw [setRun, State.wr_pins, State.wr_pins]

theorem quiesceEnd_testFence (hq : s.hmp.quiesce = true) (hd : s.quiesceDone = true) (ht : s.bdg.tier = none)
    (hf : s.pins.testFence = true) : quiesceEnd s = { s with pins := { s.pins with fcValid := false } } := by
  simp [quiesceEnd, hq, hd, ht, hf]

theorem quiesceEnd_tier2 (hq : s.hmp.quiesce = true) (hd : s.quiesceDone = true) (ht : s.bdg.tier = some r) (hn : r.n = 2)
    (hr : r.step = .quiesce) (hm : r.mark = none) :
    quiesceEnd s = setRun s { r with mark := some (s.after 1000000) } := by
  simp [quiesceEnd, hq, hd, ht, hn, hr, hm]

theorem linksDrained_fills (ht : s.bdg.tier = some r) (hn : r.n = 2) (hr : r.step = .quiesce) (hd : s.quiesceDone = true)
    (hl : (List.range 12).all (linkDrained s) = true) : linksDrained s =
      startFill 2 (setRun { s with links := s.links.mapAll {} fun _ l => dropUnbegun l } { r with step := .fill }) := by
  unfold linksDrained
  rw [ht]
  exact if_pos (by rw [hl, hd]; simp [hn, hr])

theorem sameBut_trgUpdate (s : State) : SameBut [.pins] s (trgUpdate s) := by
  obtain ⟨b, hb⟩ := trgUpdate_eq s
  rw [hb]
  intro c hc
  cases c <;> simp_all [Component.same]

theorem sameBut_withPins (s : State) (x : Pins) : SameBut [.pins] s { s with pins := x } := by
  intro c hc
  cases c <;> simp_all [Component.same]

theorem sameBut_withHhg (s : State) (x : Hhg) : SameBut [.hhg] s { s with hhg := x } := by
  intro c hc
  cases c <;> simp_all [Component.same]

theorem sameBut_fillStarts (ev : Nat) (s : State) : SameBut [.regs, .hhg] s (fillStarts ev s) :=
  (((sameBut_wr s _ _).trans (sameBut_wr _ _ _)).mono (by simp)).trans ((sameBut_withHhg _ _).mono (by simp))

@[simp] theorem trgUpdate_rd (s : State) (f : Fld) : (trgUpdate s).rd f = s.rd f := by
  unfold State.rd State.reg; rw [show (trgUpdate s).regs = s.regs from sameBut_trgUpdate s .regs (by decide)]

@[simp] theorem trgUpdate_hhg (s : State) : (trgUpdate s).hhg = s.hhg := sameBut_trgUpdate s .hhg (by decide)

/-- The fill of a Tier 2 is that of a cleared fabric, and the scrubber is at its first word. -/
theorem startFill_tier2 (s : State) :
    SameBut [.regs, .hhg, .pins] (clearFabric 2 s) (startFill 2 s) ∧ (startFill 2 s).hhg.scrubPos = 0 := by
  unfold startFill
  dsimp only
  rw [if_neg (by decide)]
  constructor
  · exact ((sameBut_fillStarts 2 (clearFabric 2 s)).mono (by simp)).trans
      (((sameBut_withPins _ _).trans (sameBut_trgUpdate _)).mono (by simp))
  · rw [trgUpdate_hhg]
    rfl

theorem linkDrainTmo_down (ht : s.bdg.tier = some r) (hn : r.n = 2) (hr : r.step = .quiesce) (hd : s.due r.mark = true)
    {p : Nat} (hl : linkDrained s p = false) : linkDrainTmo s p = linkDown s p none true := by
  simp [linkDrainTmo, ht, hn, hr, hd, hl]

theorem tier3Done_completes (ht : s.bdg.tier = some r) (hn : r.n = 3) (hr : r.step = .train)
    (hs : ((List.range 12).filter fun p => s.portPresent p && s.rd (LAN_PORT_CFG.OFF p) = 0).all
      (portSettled s (r.mark.getD 0)) = true) : tier3Done s = tierComplete s r := by
  unfold tier3Done
  rw [ht]
  exact if_pos (by rw [hs]; simp [hn, hr])

theorem holdEnd_tier2 (ht : s.bdg.tier = some r) (hn : r.n = 2) (hr : r.step = .hold) :
    holdEnd s = runTier2 (s.wr BDG_STATUS.CAP_HOLD 0) r := by
  simp [holdEnd, ht, hn, hr]

theorem captureHoldTmo_due (ht : s.bdg.tier = some r) (hd : s.due r.mark = true) : captureHoldTmo s = holdEnd s := by
  simp [captureHoldTmo, ht, hd]

/-- A quiesce of the HMP changes the HMP alone, which quiesces. -/
theorem hmpQuiesce_eq (s : State) : ∃ m, hmpQuiesce s = { s with hmp := m } ∧ m.quiesce = true := by
  unfold hmpQuiesce
  split
  · exact ⟨s.hmp, rfl, ‹_›⟩
  · exact ⟨_, rfl, rfl⟩

@[simp] theorem hmpQuiesce_quiesce (s : State) : (hmpQuiesce s).hmp.quiesce = true := by
  obtain ⟨m, he, hm⟩ := hmpQuiesce_eq s
  rw [he, hm]

@[simp] theorem hmpQuiesce_bdg (s : State) : (hmpQuiesce s).bdg = s.bdg := by
  obtain ⟨m, he, -⟩ := hmpQuiesce_eq s
  rw [he]

@[simp] theorem hmpQuiesce_pins (s : State) : (hmpQuiesce s).pins = s.pins := by
  obtain ⟨m, he, -⟩ := hmpQuiesce_eq s
  rw [he]

/-- From the end of step 2 of a Tier 2: the HMP quiesces with the packets of the router gone (R603, R604). -/
theorem runTier2_steady (s : State) (r : TierRun) : ∃ u, Steady (setRun s { r with step := .quiesce, mark := none }) u ∧
    runTier2 s r = hmpQuiesce { u with rtr := { u.rtr with bufs := [], inject := [], deliver := [] }, out := [] } := by
  have hbufs := steady_foldl (f := releaseBuf) (xs := (setRun s { r with step := .quiesce, mark := none }).rtr.bufs)
    (fun _ _ hu => steady_releaseBuf hu) (Steady.refl (setRun s { r with step := .quiesce, mark := none }))
  have hstoats := steady_foldl (f := dropStoats) (xs := List.range 12) (fun _ _ hu => steady_dropStoats hu) hbufs
  exact ⟨_, hstoats, rfl⟩

theorem runTier2_tier (s : State) (r : TierRun) :
    (runTier2 s r).bdg.tier = some { r with step := .quiesce, mark := none } ∧ (runTier2 s r).hmp.quiesce = true := by
  obtain ⟨u, hu, he⟩ := runTier2_steady s r
  rw [he, hmpQuiesce_bdg]
  exact ⟨hu.tier, hmpQuiesce_quiesce _⟩

/-- HHG_INIT of a fill that has ended (R584). -/
theorem fillEnded_reads {s1 : State} (h1 : s1 = (s.wr HHG_INIT.BUSY 0).wr HHG_INIT.DONE 0x7FFF)
    (h : Tbl.wf resetWord s.regs = true) : Reads HHG_INIT.BUSY 0 s1 ∧ Reads HHG_INIT.DONE 0x7FFF s1 := by
  have hb := State.wf_wr s HHG_INIT.BUSY 0 h
  subst h1
  refine ⟨reads_wr_disjoint ⟨hb, ?_⟩ rfl (by decide) (by decide) (by decide), State.wf_wr _ _ _ hb, ?_⟩
  · exact State.rd_wr_self _ _ _ h (by decide) (by decide)
  · exact State.rd_wr_self _ _ _ hb (by decide) (by decide)

/-- The boot is done, and HHG_INIT as it was, once the board's configuration has been written and its ports are on. -/
theorem boardUp_reads {u : State} (hu : u = trgUpdate (portsUp (writeBoard { s with bdg := { s.bdg with boot := .done } })))
    {f : Fld} {v : Nat} (h : Reads f v s) (hf : f.addr ∈ steadyRegs) : u.bdg.boot = .done ∧ u.rd f = v := by
  have hup := steady_portsUp (steady_writeBoard (Steady.refl { s with bdg := { s.bdg with boot := .done } }))
  rw [hu, trgUpdate_bdg, trgUpdate_rd, hup.boot]
  exact ⟨rfl, (hup.reads (reads_same h rfl) hf).2⟩

theorem fillDone_bringup {s1 : State} (h1 : s1 = (s.wr HHG_INIT.BUSY 0).wr HHG_INIT.DONE 0x7FFF)
    (hb : s.on HHG_INIT.BUSY = true) (hf : s.hhg.fillBad = false) (ht : s.bdg.tier = none) (hu : s.bdg.boot = .bringup) :
    fillDone s = trgUpdate (portsUp (writeBoard { s1 with bdg := { s1.bdg with boot := .done } })) := by
  unfold fillDone
  rw [if_neg (by simp [hb, hf]), ht, ← h1]
  exact if_pos hu

theorem fillDone_tier2 (hb : s.on HHG_INIT.BUSY = true) (hf : s.hhg.fillBad = false) (ht : s.bdg.tier = some r)
    (hn : r.n = 2) (hr : r.step = .fill) :
    fillDone s = tierComplete ((s.wr HHG_INIT.BUSY 0).wr HHG_INIT.DONE 0x7FFF) r := by
  simp [fillDone, hb, hf, ht, hn, hr]

theorem fillTmo_due (hb : s.on HHG_INIT.BUSY = true) (hd : s.hhg.fillStart + ns 200000 ≤ s.now) (g : Nat) :
    (fillTmo s g).hhg.fillBad = true ∧ (fillTmo s g).hhg.waiting = s.hhg.waiting ++ [⟨0x1A, 3, 0x01, g, false⟩] := by
  simp [fillTmo, hb, Nat.not_lt.2 hd, report]

end
end Sys2Proof.Machine
end

section
namespace Sys2Proof.Proofs
open Sys2Proof.Machine

/-- Settles O13: each step is that of the tier in progress; the tier itself, the pins and the registers of its fill outlive
what the links, the board and a fence do meanwhile (`Steady`). -/
theorem tierSteps : Obligations.TierSteps := by
  refine ⟨?_, ?_, ?_, ?_, ?_, ?_, ?_, ?_, ?_, ?_, ?_⟩
  · intro s r hq hd ht hn hr hh
    refine ⟨_, congrArg Host.Outcome.next ((quiesceEnd_tier3 hq hd ht hn hr).trans (tier3Fill_held ?_)), ?_, ?_⟩
    · rw [portsDown_pins, hh]
    · rw [setRun_pins, portsDown_pins]
    · rw [setRun_bdg]; rfl
  · intro s hq hd ht hf
    exact congrArg Host.Outcome.next (quiesceEnd_testFence hq hd ht hf)
  · intro s r hq hd ht hn hr hm
    exact ⟨_, congrArg Host.Outcome.next (quiesceEnd_tier2 hq hd ht hn hr hm), rfl⟩
  · intro s r ht hn hr hd hl
    refine ⟨_, congrArg Host.Outcome.next (linksDrained_fills ht hn hr hd hl), ?_⟩
    generalize hu : setRun { s with links := s.links.mapAll {} fun _ l => dropUnbegun l } { r with step := .fill } = u
    have hrun : u.bdg.tier = some { r with step := .fill } := by rw [← hu]; rfl
    obtain ⟨hsame, hscrub⟩ := startFill_tier2 u
    refine ⟨?_, ?_, ?_, ?_, hscrub, fun q hq => ?_⟩
    · rw [hsame .bdg (by decide), clearFabric_tier, hrun]; rfl
    · rw [hsame .ctxs (by decide), clearFabric_ctxs]
    · rw [hsame .xpt (by decide), clearFabric_xpt]
    · rw [hsame .yar (by decide), clearFabric_yar]
    · rw [State.queue, hsame .queues (by decide)]
      exact clearFabric_queue 2 u hq
  · intro s p r hs ht hn hr hd hl
    exact ⟨_, congrArg Host.Outcome.next (linkDrainTmo_down ht hn hr hd hl), linkDown_linkState hs.regs p.isLt true⟩
  · intro s r ht hn hr hp
    exact ⟨_, congrArg Host.Outcome.next (tier3Done_completes ht hn hr hp), tierComplete_tier s r, tierComplete_fcValid hn⟩
  · intro s r ht hn hr hd
    obtain ⟨htier, hq⟩ := runTier2_tier (s.wr BDG_STATUS.CAP_HOLD 0) r
    refine ⟨_, congrArg Host.Outcome.next ((captureHoldTmo_due ht hd).trans (holdEnd_tier2 ht hn hr)), ?_, hq⟩
    rw [htier, Option.map_some, hn]
  · intro s r ht hn hr
    obtain ⟨htier, hq⟩ := runTier2_tier (s.wr BDG_STATUS.CAP_HOLD 0) r
    refine ⟨_, congrArg Host.Outcome.next (holdEnd_tier2 ht hn hr), ?_, hq⟩
    rw [htier, Option.map_some, hn]
  · intro s hs hb hf ht hu
    have hdone := fillDone_bringup rfl hb hf ht hu
    obtain ⟨hbusy, hall⟩ := fillEnded_reads rfl hs.regs
    obtain ⟨hboot, hbusy'⟩ := boardUp_reads hdone hbusy (by decide)
    obtain ⟨-, hall'⟩ := boardUp_reads hdone hall (by decide)
    exact ⟨_, rfl, hboot, hbusy', hall'⟩
  · intro s r hb hf ht hn hr
    exact ⟨_, congrArg Host.Outcome.next (fillDone_tier2 hb hf ht hn hr), tierComplete_tier _ r⟩
  · intro s g hb hd
    exact ⟨_, rfl, fillTmo_due hb hd g⟩

end Sys2Proof.Proofs
end

section
namespace Sys2Proof.Machine

/-! ### The monitors of clock, supplies and PLL (R41, R42, R44, R49, R62, R579) -/

section
variable {s : State}

theorem refLoss_running (hp : s.pins.porst = false) (hr : s.time.ref = true) : refLoss s =
    report (capRefreshAll (({ s with time := { s.time with ref := false } } : State).wr BDG_TIME_STAT.VALID 0)) 0x08 4 0x01 0 :=
  if_neg (by simp [hp, hr])

/-- REFCLK that returns runs, and fabric time goes on from where it stood; a SAFE block waits for quiet besides. -/
theorem refReturn_time (h : s.time.ref = false) : (refReturn s).time = { s.time with ref := true } := by
  unfold refReturn
  rw [if_neg (by simp [h])]
  exact ite_time (s := { s with time := { s.time with ref := true } }) rfl rfl

/-- A rail is watched: a fabric rail always, a lane rail while some port is on. -/
theorem supplyFault_watched {rail : Nat} (hp : s.pins.porst = false)
    (hw : rail < 2 ∨ ∃ p ∈ portsOf s, s.laneState p ≠ 0) : supplyFault s rail = report s 0x09 4 (rail + 1) 0 := by
  refine if_neg ?_
  rw [hp]
  rcases hw with hr | ⟨p, hmem, hon⟩
  · simp [Nat.not_le.2 hr]
  · have hany : ((portsOf s).all fun p => s.laneState p = 0) = false :=
      List.all_eq_false.2 ⟨p, hmem, by simpa using hon⟩
    simp [hany]

/-- The third failure in a row is an F4. -/
theorem pllTmo_due (hd : s.due s.csp.pllEnd = true) : (pllTmo s).csp.pllEnd = some (s.after 100000) ∧
    (pllTmo s).csp.pllFails = min 3 (s.csp.pllFails + 1) ∧ (pllTmo s).hhg.waiting = s.hhg.waiting ++
      [⟨0x0B, if 2 ≤ s.csp.pllFails then 4 else 3, 0x01, min 3 (s.csp.pllFails + 1), false⟩] := by
  have hthird : min 3 (s.csp.pllFails + 1) = 3 ↔ 2 ≤ s.csp.pllFails := by omega
  unfold pllTmo
  rw [if_neg (by simp [hd])]
  refine ⟨rfl, rfl, ?_⟩
  simp only [report_waiting, hthird]

/-- A lock outside a tier, a bring-up and an exit from Hibernate: fc runs, and FC_VALID says so. -/
theorem pllLock_running {e : Nat} {s1 : State}
    (h1 : s1 = { s.wr CSP_STATUS.FC_RUN 1 with csp := { s.csp with pllEnd := none, pllFails := 0 } })
    (he : s.csp.pllEnd = some e) (hd : s.now < e) (ht : s.bdg.tier = none) (hb : s.bdg.boot = .done)
    (hl : s.csp.leaving ≠ some 3) : pllLock s = trgUpdate { s1 with pins := { s1.pins with fcValid := true } } := by
  have hdue : s.due (some e) = false := by simp [State.due, hd]
  have hboot : s.bdg.boot ≠ .bringup := by simp [hb]
  unfold pllLock
  rw [he, if_neg (by simp [hdue]), ht, ← h1]
  exact (if_neg hboot).trans (if_neg hl)

theorem fltToggle_edge (hp : s.pins.porst = false) (hf : s.pins.fltStopped = false) (hd : s.pins.fltLast + 32 ≤ s.acs) :
    fltToggle s = { s with pins := { s.pins with fltAlive := !s.pins.fltAlive, fltLast := s.acs } } :=
  if_neg (by simp [hp, hf, hd])

end
end Sys2Proof.Machine

namespace Sys2Proof.Proofs
open Sys2Proof.Machine

/-- Settles O10: each monitor's own lemma; after a lock, TRG_READY is all that is settled besides. -/
theorem pinMonitors : Obligations.PinMonitors := by
  refine ⟨fun s hp hr => ?_, fun s hr => ?_, fun s rail hp hw => ?_, fun s hd => ?_, fun s e he hd ht hb hl => ?_,
    fun s hp hf hd => ?_⟩
  · exact congrArg Host.Outcome.next (refLoss_running hp hr)
  · refine ⟨_, rfl, ?_, ?_⟩ <;> rw [refReturn_time hr]
  · exact congrArg Host.Outcome.next (supplyFault_watched hp hw)
  · exact ⟨_, rfl, pllTmo_due hd⟩
  · refine ⟨_, congrArg Host.Outcome.next (pllLock_running rfl he hd ht hb hl), ?_, ?_, ?_⟩
    · rw [trgUpdate_fcValid]
    all_goals rw [show (trgUpdate _).csp = _ from sameBut_trgUpdate _ .csp (by decide)]
  · exact congrArg Host.Outcome.next (fltToggle_edge hp hf hd)

end Sys2Proof.Proofs
end

section
namespace Sys2Proof
variable {s t u : Machine.State} {l l' : List Component}

theorem sameBut_ite {c : Prop} [Decidable c] (ht : SameBut l s t) (hu : SameBut l s u) : SameBut l s (if c then t else u) := by
  split
  · exact ht
  · exact hu

/-- A step that changes fewer components. -/
theorem SameBut.step (h : SameBut l s t) (hl : l' ⊆ l) (g : SameBut l' t u) : SameBut l s u := h.trans (g.mono hl)

end Sys2Proof

namespace Sys2Proof.Machine

/-! ### A tier begins (R600 to R605, R614) -/

section
variable {s : State} {r : TierRun}

theorem reads_drowseExit {f : Fld} {v : Nat} (hf : f.addr ≠ CSP_STATUS.STATE.addr) (h : Reads f v s) :
    Reads f v (drowseExit s) :=
  reads_ite (reads_same (reads_wr hf h) rfl) h

theorem reads_setRun {f : Fld} {v : Nat} (hf : f.addr ≠ BDG_STATUS.TIER.addr ∧ f.addr ≠ BDG_TIER_CMD.BUSY.addr)
    (h : Reads f v s) : Reads f v (setRun s r) :=
  reads_wr hf.2 (reads_wr hf.1 (reads_same h rfl))

/-- The tier that begins has the number, the engine and the capture of its request; a Tier 1 is not counted. -/
theorem beginTier_run (s : State) (n e : Nat) (c k x : Bool) : ∃ r : TierRun,
    r.n = n ∧ r.engine = e ∧ r.capture = c ∧ (n = 1 → r.counted = false) ∧
    beginTier s n e c k x =
      let s1 := logEvent (setRun s r) 0x2001 2 [n, e, b2n c]
      if n = 1 then holdOr s1 r runTier1
      else if n = 2 then
        holdOr (setFence { s1 with pins := { s1.pins with trgReady := false } } BDG_FENCE.TIER true) r runTier2
      else if c then runTier3 (tierCapture s1 r) r else runTier3 s1 r := by
  unfold beginTier
  cases hs : s.bdg.tier with
  | none => exact ⟨_, rfl, rfl, rfl, fun h => by simp [h], rfl⟩
  | some o =>
    by_cases ho : (decide (2 ≤ o.n) && decide (2 ≤ n)) = true
    · simp only [ho, if_true]
      refine ⟨_, rfl, rfl, rfl, fun h => ?_, rfl⟩
      simp [h] at ho
    · simp only [ho]
      exact ⟨_, rfl, rfl, rfl, fun h => by simp [h], rfl⟩

/-- A Tier 1 logs its begin, and holds or resets the engine. -/
theorem beginTier_one (s : State) (e : Nat) (c k x : Bool) : ∃ r : TierRun,
    r.n = 1 ∧ r.engine = e ∧ r.capture = c ∧ r.counted = false ∧
    beginTier s 1 e c k x = holdOr (logEvent (setRun s r) 0x2001 2 [1, e, b2n c]) r runTier1 := by
  obtain ⟨r, hn, he, hc, hk, hb⟩ := beginTier_run s 1 e c k x
  exact ⟨r, hn, he, hc, hk rfl, hb.trans (if_pos rfl)⟩

/-- A Tier 2 takes TRG_READY and fences the block, and holds or quiesces. -/
theorem beginTier_two (s : State) (e : Nat) (c k x : Bool) : ∃ (r : TierRun) (u : State),
    r.n = 2 ∧ r.capture = c ∧ Steady (setRun s r) u ∧
    beginTier s 2 e c k x =
      holdOr (setFence { u with pins := { u.pins with trgReady := false } } BDG_FENCE.TIER true) r runTier2 := by
  obtain ⟨r, hn, -, hc, -, hb⟩ := beginTier_run s 2 e c k x
  exact ⟨r, _, hn, hc, steady_logEvent (Steady.refl _), (hb.trans (if_neg (by decide))).trans (if_pos rfl)⟩

/-- A Tier 3 waits in no hold. -/
theorem beginTier_three (s : State) (e : Nat) (c k x : Bool) : ∃ (r : TierRun) (u : State),
    r.n = 3 ∧ Steady (setRun s r) u ∧ beginTier s 3 e c k x = runTier3 u r := by
  obtain ⟨r, hn, -, -, -, hb⟩ := beginTier_run s 3 e c k x
  have hlog := steady_logEvent (point := 0x2001) (level := 2) (args := [3, e, b2n c]) (Steady.refl (setRun s r))
  have hb' := (hb.trans (if_neg (by decide))).trans (if_neg (by decide))
  cases c with
  | false => exact ⟨r, _, hn, hlog, hb'.trans (if_neg (by decide))⟩
  | true => exact ⟨r, _, hn, steady_tierCapture hlog, hb'.trans (if_pos rfl)⟩

theorem holdOr_go (go : State → TierRun → State) (hc : r.capture = false) : holdOr s r go = go s r := by
  simp [holdOr, hc]

/-- A capture with a HOLD holds the tier (R614). -/
theorem holdOr_holds (go : State → TierRun → State) (hc : r.capture = true) (hh : s.rd BDG_CAP_CFG.HOLD ≠ 0) :
    ∃ m, (holdOr s r go).bdg.tier = some { r with step := .hold, mark := m } := by
  unfold holdOr
  rw [if_neg (by simp [hc]), if_neg hh, (steady_setFence (by decide) (Steady.refl _)).tier, State.wr_bdg, setRun_bdg]
  exact ⟨_, rfl⟩

/-- A Tier 3 disarms the heartbeat, takes TRG_READY, quiesces the HMP and fences the block (R605). -/
theorem runTier3_eq (s : State) (r : TierRun) : ∃ u : State,
    u.bdg = { s.bdg with tier := some { r with step := .quiesce, mark := none } } ∧ u.pins = s.pins ∧
    runTier3 s r = setFence (hmpQuiesce { u with
      bdg := { u.bdg with hbEnd := none }, pins := { u.pins with trgReady := false } }) BDG_FENCE.TIER true := by
  have hrun := setRun_bdg ((s.wr BDG_HB_CFG.HOST_EN 0).wr BDG_STATUS.CAP_HOLD 0) { r with step := .quiesce, mark := none }
  have hpins := setRun_pins ((s.wr BDG_HB_CFG.HOST_EN 0).wr BDG_STATUS.CAP_HOLD 0) { r with step := .quiesce, mark := none }
  refine ⟨_, ?_, ?_, rfl⟩
  · rw [apply_ite State.bdg, State.wr_bdg, ite_self, hrun, State.wr_bdg, State.wr_bdg]
  · rw [apply_ite State.pins, State.wr_pins, ite_self, hpins, State.wr_pins, State.wr_pins]

theorem runTier3_begins (s : State) (r : TierRun) : (runTier3 s r).bdg.tier = some { r with step := .quiesce, mark := none } ∧
    (runTier3 s r).bdg.hbEnd = none ∧ (runTier3 s r).hmp.quiesce = true ∧
    (runTier3 s r).pins = { s.pins with trgReady := false } := by
  obtain ⟨u, hb, hp, he⟩ := runTier3_eq s r
  have hfence := fun t => steady_setFence (by decide) (f := BDG_FENCE.TIER) (on := true) (Steady.refl t)
  rw [he, (hfence _).tier, (hfence _).hbEnd, (hfence _).quiesce, (hfence _).pins, hmpQuiesce_bdg, hmpQuiesce_pins, hb, hp]
  exact ⟨rfl, rfl, hmpQuiesce_quiesce _, rfl⟩

/-- What a Tier 3 leaves as it begins, whatever ran before it. -/
theorem beginTier_three_quiesces (s : State) (e : Nat) (c k x : Bool) :
    (beginTier s 3 e c k x).bdg.tier.map (fun r => (r.n, r.step)) = some (3, .quiesce) ∧
    (beginTier s 3 e c k x).bdg.hbEnd = none ∧ (beginTier s 3 e c k x).hmp.quiesce = true ∧
    (beginTier s 3 e c k x).pins = { s.pins with trgReady := false } := by
  obtain ⟨r, u, hn, hu, he⟩ := beginTier_three s e c k x
  obtain ⟨htier, hhb, hq, hpins⟩ := runTier3_begins u r
  rw [he, htier, hpins, hu.pins, setRun_pins, Option.map_some, hn]
  exact ⟨rfl, hhb, hq, rfl⟩

/-! The request of a tier. -/

theorem tierCommand_refused {n e st : Nat} {c : Bool} (hr : tierRefused s n e = some st)
    (hf : n = 2 → s.hhg.fillBad = false) : tierCommand s n e c =
      ((s.wr BDG_TIER_CMD.ENGINE e).wr BDG_TIER_CMD.CAPTURE (b2n c)).wr BDG_TIER_CMD.STATUS st := by
  have hagain : (decide (n = 2) && s.hhg.fillBad) = false := by
    by_cases hn : n = 2 <;> simp [hn, hf]
  unfold tierCommand
  dsimp only
  rw [hagain, hr]
  exact if_neg (by simp)

/-- The request that is accepted begins the tier in a block out of Drowse. -/
theorem tierCommand_begins {n e : Nat} {c : Bool} {s1 : State}
    (h1 : s1 = ((s.wr BDG_TIER_CMD.ENGINE e).wr BDG_TIER_CMD.CAPTURE (b2n c)).wr BDG_TIER_CMD.STATUS stOK)
    (hr : tierRefused s n e = none) (hf : n = 2 → s.hhg.fillBad = false) (hn : n ≠ 3) :
    tierCommand s n e c = beginTier (drowseExit s1) n e c true false := by
  have hagain : (decide (n = 2) && s.hhg.fillBad) = false := by
    by_cases hn : n = 2 <;> simp [hn, hf]
  unfold tierCommand
  dsimp only
  rw [hagain, hr, ← h1]
  exact (if_neg (by simp)).trans (if_neg hn)

theorem tierCommand_three {e : Nat} {c : Bool} {s1 : State}
    (h1 : s1 = ((s.wr BDG_TIER_CMD.ENGINE e).wr BDG_TIER_CMD.CAPTURE (b2n c)).wr BDG_TIER_CMD.STATUS stOK)
    (hr : tierRefused s 3 e = none) : tierCommand s 3 e c = tier3Or s1 c true false := by
  have hagain : (decide (3 = 2) && s.hhg.fillBad) = false := by simp
  unfold tierCommand
  dsimp only
  rw [hagain, hr, ← h1]
  exact (if_neg (by simp)).trans (if_pos rfl)

/-- The request's registers are not those that another field reads. -/
theorem reads_tierCmd {e : Nat} {c : Bool} {f : Fld} {v st : Nat} (hf : f.addr ≠ BDG_TIER_CMD.ENGINE.addr)
    (h : Reads f v s) :
    Reads f v (((s.wr BDG_TIER_CMD.ENGINE e).wr BDG_TIER_CMD.CAPTURE (b2n c)).wr BDG_TIER_CMD.STATUS st) :=
  reads_wr hf (reads_wr hf (reads_wr hf h))

theorem sameBut_withCsp (s : State) (x : Cowslip) : SameBut [.csp] s { s with csp := x } := by
  intro c hc
  cases c <;> simp_all [Component.same]

theorem sameBut_abortEntry (s : State) : SameBut [.regs, .csp] s (abortEntry s) := by
  have hregs : SameBut [.regs, .csp] s ((((s.wr CSP_STATUS.STATE 0).wr CSP_CMD.BUSY 0).wr CSP_CMD.STATUS stBUSY).bump
      CSP_EVT.NAP_ABORT 1) :=
    ((((SameBut.refl _ s).step (by simp) (sameBut_wr _ _ _)).step (by simp) (sameBut_wr _ _ _)).step (by simp)
      (sameBut_wr _ _ _)).step (by simp) (sameBut_wr _ _ _)
  exact sameBut_ite (SameBut.refl _ s) ((hregs.step (by simp) (sameBut_wr _ CSP_EVT_PEND.ENTRY_ABORT 1)).step (by simp)
    (sameBut_withCsp _ _))

/-- Awake, a Tier 3 begins at once. -/
theorem tier3Or_awake {c k x : Bool} (hp : s.power ≤ 1) :
    ∃ u : State, u.pins = s.pins ∧ tier3Or s c k x = beginTier u 3 0 c k x := by
  refine ⟨abortEntry (drowseExit s), (sameBut_abortEntry _ .pins (by decide)).trans (drowseExit_pins s), if_neg ?_⟩
  have hawake : ¬ 2 ≤ s.power := by omega
  simp [hawake]

/-- Nap and Hibernate are left through the lock of the PLL (R154, R155). -/
theorem wakeBlock_asleep (hp : s.power = 2 ∨ s.power = 3) :
    (wakeBlock s).csp = { s.csp with leaving := some s.power, pllEnd := some (s.after 100000) } := by
  have hne : s.power ≠ 4 := by omega
  have hasleep : (decide (s.power = 2) || decide (s.power = 3)) = true := by simpa using hp
  unfold wakeBlock
  rw [if_neg hne, if_pos hasleep]
  dsimp only
  rw [State.wr_csp, State.wr_csp]

/-- In Nap and Hibernate a Tier 3 waits for the wake (R53). -/
theorem tier3Or_asleep {c k x : Bool} (hp : s.power = 2 ∨ s.power = 3) :
    (tier3Or s c k x).csp.tier3After = some (c, k, x) ∧ (tier3Or s c k x).csp.leaving = some s.power := by
  have hasleep : (decide (2 ≤ s.power) && decide (s.power ≠ 4)) = true := by
    rcases hp with hp | hp <;> simp [hp]
  have hwake := wakeBlock_asleep (s := { s with csp := { s.csp with tier3After := some (c, k, x) } }) hp
  unfold tier3Or
  rw [if_pos hasleep, hwake]
  exact ⟨rfl, rfl⟩

end
end Sys2Proof.Machine
end

section
namespace Sys2Proof
variable {s t u : Machine.State} {l l' : List Component}

/-- Both states write the same context. -/
theorem SameBut.setCtx (h : SameBut l s t) (k : Nat) (c : Machine.Ctxt) : SameBut l (s.setCtx k c) (t.setCtx k c) := by
  intro p hp
  have he := h p hp
  cases p
  case ctxs => exact congrArg (fun x => Tbl.set {} x k c) he
  all_goals exact he

end Sys2Proof
namespace Sys2Proof.Machine

/-! ### What the records of a tier and a fence that does not close leave unchanged -/

section
variable {s : State} {r : TierRun}

theorem sameBut_withBdg (s : State) (x : Badger) : SameBut [.bdg] s { s with bdg := x } := by
  intro c hc
  cases c <;> simp_all [Component.same]

theorem sameBut_logDrop (s : State) (n : Nat) : SameBut [.regs, .bdg] s (logDrop s n) :=
  sameBut_ite (SameBut.refl _ s) (((SameBut.refl _ s).step (by simp) (sameBut_wr s _ _)).step (by simp) (sameBut_withBdg _ _))

theorem sameBut_logPump (s : State) : SameBut [.regs, .bdg, .hmp] s (logPump s) := by
  have h := SameBut.refl [.regs, .bdg, .hmp] s
  unfold logPump
  split
  · exact h
  · exact sameBut_ite h (sameBut_ite ((h.step (by simp) (sameBut_withBdg s _)).step (by simp) (sameBut_logDrop _ _))
      ((h.step (by simp) (sameBut_withBdg s _)).step (by simp) (sameBut_hmpStart _ _ _ _ _ _)))

theorem sameBut_logEvent (s : State) (point level : Nat) (args : List Nat) :
    SameBut [.regs, .bdg, .hmp] s (logEvent s point level args) :=
  have h := SameBut.refl [.regs, .bdg, .hmp] s
  sameBut_ite h (sameBut_ite (h.step (by simp) (sameBut_withBdg s _)) (sameBut_ite
    ((h.step (by simp) (sameBut_withBdg s _)).step (by simp) (sameBut_logDrop _ _))
    ((h.step (by simp) (sameBut_withBdg s _)).step (by simp) (sameBut_logPump _))))

theorem sameBut_hhgAck (s : State) (w : Nat) : SameBut [.regs, .hhg] s (hhgAck s w) :=
  ((SameBut.refl _ s).step (by simp) (sameBut_wr s _ _)).step (by simp) (sameBut_withHhg _ _)

theorem sameBut_beginReplay (s : State) : SameBut [.regs, .bdg, .hhg] s (beginReplay s) := by
  have h := SameBut.refl [.regs, .bdg, .hhg] s
  unfold beginReplay
  split
  · exact h
  · have hseen := h.step (by simp) (sameBut_withBdg s { s.bdg with captured := false })
    have hack := (hseen.step (by simp) (sameBut_hhgAck _ 8)).step (by simp) (sameBut_wr _ BDG_SUSPECT.STATE 1)
    exact sameBut_ite hseen (hack.step (by simp) (sameBut_withBdg _ _))

theorem sameBut_setRun (s : State) (r : TierRun) : SameBut [.regs, .bdg] s (setRun s r) :=
  (((SameBut.refl _ s).step (by simp) (sameBut_withBdg s _)).step (by simp) (sameBut_wr _ _ _)).step (by simp) (sameBut_wr _ _ _)

/-- A field that is cleared sets no bit. -/
theorem putBits_zero_and {w m : Word} {hi lo : Nat} (hl : lo ≤ hi + 1) (hh : hi < 32) (h : w &&& m = 0) :
    putBits w hi lo 0 &&& m = 0 := by
  ext j hj
  have hw : (w &&& m).getLsbD j = false := by simp [h]
  have hbit : (putBits w hi lo 0).getLsbD j = if lo ≤ j ∧ j ≤ hi then false else w.getLsbD j := by
    simpa [BitVec.getLsbD] using putBits_testBit w hi lo 0 j hl hh
  simp only [← BitVec.getLsbD_eq_getElem, BitVec.getLsbD_and] at hw ⊢
  rw [hbit]
  split
  · simp
  · simpa using hw

/-- A source that opens, and one that closes a block that the test port fences, close nothing. -/
theorem setFence_settled {f : Fld} {on : Bool} (ha : f.addr = BDG_FENCE.SW.addr) (hb : f.lo ≤ f.hi + 1 ∧ f.hi < 32)
    (h : Tbl.wf resetWord s.regs = true) (hf : on = true → s.pins.testFence = true) :
    setFence s f on = s.wr f (b2n on) := by
  refine if_neg ?_
  cases ht : s.pins.testFence with
  | true => simp [State.fenced, ht]
  | false =>
    have hoff : on = false := by
      cases on with
      | false => rfl
      | true => exact absurd (hf rfl) (by simp [ht])
    have hreg : (s.wr f (b2n on)).reg BDG_FENCE.SW.addr = putBits (s.reg BDG_FENCE.SW.addr) f.hi f.lo 0 := by
      rw [← ha, hoff]
      exact State.reg_setReg_self s _ _ h
    by_cases hopen : s.reg BDG_FENCE.SW.addr &&& 0x3F#32 = 0
    · simp [State.fenced, hreg, putBits_zero_and hb.1 hb.2 hopen, ht]
    · have hwas : s.fenced = true := by simpa [State.fenced, ht] using hopen
      simp [hwas]

theorem tierFences_ctxs {on : Bool} (h : Tbl.wf resetWord s.regs = true) (hf : on = true → s.pins.testFence = true) :
    (setFence (setFence s BDG_FENCE.TIER on) BDG_FENCE.FW false).ctxs = s.ctxs := by
  rw [setFence_settled (f := BDG_FENCE.TIER) rfl (by decide) h hf,
    setFence_settled (f := BDG_FENCE.FW) rfl (by decide) (State.wf_wr _ _ _ h) (by simp), State.wr_ctxs, State.wr_ctxs]

theorem tierComplete_one {s1 : State} (h1 : s1 = ((s.wr BDG_STATUS.TIER 0).wr BDG_STATUS.CAP_HOLD 0).wr BDG_TIER_CMD.BUSY 0)
    (hn : r.n = 1) : ∃ n, tierComplete s r = beginReplay (logPump (countReset (logEvent (trgUpdate (setFence (setFence
      { s1 with bdg := { s1.bdg with tier := none } } BDG_FENCE.TIER s.pins.testFence) BDG_FENCE.FW false))
      0x2002 1 [r.n, stOK, n]) r)) := by
  unfold tierComplete
  dsimp only
  rw [if_neg (by omega), if_neg (by omega), if_neg (by omega), ← h1]
  exact ⟨_, rfl⟩

/-- The records of the end of an uncounted tier leave the contexts as they are. -/
theorem tierEnd_ctxs (hc : r.counted = false) (args : List Nat) :
    (beginReplay (logPump (countReset (logEvent (trgUpdate s) 0x2002 1 args) r))).ctxs = s.ctxs := by
  have hcount : ∀ t, countReset t r = t := fun t => if_pos (by simp [hc])
  have hlog : SameBut [.regs, .bdg, .hmp, .hhg, .pins] s (logEvent (trgUpdate s) 0x2002 1 args) :=
    ((SameBut.refl _ s).step (by simp) (sameBut_trgUpdate s)).step (by simp) (sameBut_logEvent _ _ _ _)
  have hend := (hlog.step (by simp) (sameBut_logPump _)).step (by simp) (sameBut_beginReplay _)
  rw [hcount]
  exact hend .ctxs (by decide)

/-- The end of an uncounted Tier 1 leaves the contexts as they are. -/
theorem tierComplete_one_ctxs (h : Tbl.wf resetWord s.regs = true) (hn : r.n = 1) (hc : r.counted = false) :
    (tierComplete s r).ctxs = s.ctxs := by
  have hw := State.wf_wr _ BDG_TIER_CMD.BUSY 0 (State.wf_wr _ BDG_STATUS.CAP_HOLD 0 (State.wf_wr s BDG_STATUS.TIER 0 h))
  generalize h1 : ((s.wr BDG_STATUS.TIER 0).wr BDG_STATUS.CAP_HOLD 0).wr BDG_TIER_CMD.BUSY 0 = s1 at hw
  have hs : SameBut [.regs] s s1 := h1 ▸ ((sameBut_wr s _ _).trans (sameBut_wr _ _ _)).trans (sameBut_wr _ _ _)
  obtain ⟨n, he⟩ := tierComplete_one h1.symm hn
  rw [he, tierEnd_ctxs hc, tierFences_ctxs]
  · exact hs .ctxs (by decide)
  · exact hw
  · intro ht
    rw [← ht]
    exact congrArg Pins.testFence (hs .pins (by decide))

/-! ### A Tier 0, and the Tier 1 of a Marten core (R601, R602) -/

/-- A context as its Tier 0 leaves it: the registers cleared, the entries that have started muted. -/
def tier0Ctx (s : State) (k : Nat) : Ctxt :=
  { pc := s.rd (MRT_CTX_CFG0.ENTRY k), cmdErr := (s.ctx k).cmdErr
    beq := ((s.ctx k).beq.filter fun e => e.started && !e.isFence).map fun e => { e with muted := true }
    nextId := (s.ctx k).nextId, astat := (s.ctx k).astat }

theorem tier0Ctx_started (s : State) (k : Nat) : ((tier0Ctx s k).beq.all fun e => e.started) = true := by
  simp only [tier0Ctx, List.all_map, List.all_filter]
  refine List.all_eq_true.2 fun e _ => ?_
  cases he : e.started <;> simp [he]

theorem sameBut_startFetch (s : State) (q : Nat) : SameBut [.queues, .hmp] s (startFetch s q) :=
  sameBut_ite (SameBut.refl _ s)
    (((SameBut.refl _ s).step (by simp) (sameBut_setQueue s _ _)).step (by simp) (sameBut_hmpStart _ _ _ _ _ _))

theorem sameBut_withYar (s : State) (x : Yarrow) : SameBut [.yar] s { s with yar := x } := by
  intro c hc
  cases c <;> simp_all [Component.same]

theorem sameBut_withQueues (s : State) (x : Tbl Queue) : SameBut [.queues] s { s with queues := x } := by
  intro c hc
  cases c <;> simp_all [Component.same]

/-- Beside its context a Tier 0 touches queues, Yarrow's waiting lists and counters. -/
theorem sameBut_tier0 (s : State) (k : Nat) : ∃ c, SameBut [.regs, .queues, .yar, .hmp, .pins]
    ((s.setCtx k c).setCtx k (tier0Ctx s k)) (tier0 s k) := by
  have hfetch : ∀ (u : State) q, SameBut [.queues, .hmp] u (if (u.queue q).context = k then startFetch u q else u) :=
    fun u q => sameBut_ite (sameBut_startFetch u q) (SameBut.refl _ u)
  have hlists : ∀ x y, SameBut [.regs, .queues, .yar, .hmp, .pins] s { s with queues := x, yar := y } := fun x y =>
    ((SameBut.refl _ s).step (by simp) (sameBut_withQueues s x)).step (by simp) (sameBut_withYar _ y)
  have hlate := fun x y => ((hlists x y).step (by simp) (sameBut_wr _ (XPT_LATE.COUNT k) 0)).step (by simp)
    (sameBut_wr _ (XPT_LATE.STATUS k) 0)
  have hctx := fun x y => ((hlate x y).setCtx k { s.ctx k with lateCount := 0 }).setCtx k (tier0Ctx s k)
  exact ⟨_, (((hctx _ _).step (by simp) (SameBut.foldl hfetch _ _)).step (by simp) (sameBut_wr _ _ _)).step (by simp)
    (sameBut_trgUpdate _)⟩

theorem tier0_ctx (h : Tbl.wf (fun _ => ({} : Ctxt)) s.ctxs = true) (k : Nat) : (tier0 s k).ctx k = tier0Ctx s k := by
  obtain ⟨c, hc⟩ := sameBut_tier0 s k
  rw [State.ctx, hc .ctxs (by decide)]
  exact Tbl.get_set_self (fun _ => ({} : Ctxt)) k _ (Tbl.wf_set (fun _ => ({} : Ctxt)) k c h)

theorem tier0_ctx_ne (h : Tbl.wf (fun _ => ({} : Ctxt)) s.ctxs = true) {k j : Nat} (hj : j ≠ k) :
    (tier0 s k).ctx j = s.ctx j := by
  obtain ⟨c, hc⟩ := sameBut_tier0 s k
  rw [State.ctx, hc .ctxs (by decide)]
  exact (Tbl.get_set_ne (fun _ => ({} : Ctxt)) k j _ _ (Tbl.wf_set (fun _ => ({} : Ctxt)) k c h) hj).trans
    (Tbl.get_set_ne (fun _ => ({} : Ctxt)) k j c _ h hj)

theorem wf_clearLate (h : Tbl.wf resetWord s.regs = true) (k : Nat) : Tbl.wf resetWord (clearLate s k).regs = true := by
  have hw := State.wf_wr _ (XPT_LATE.STATUS k) 0 (State.wf_wr s (XPT_LATE.COUNT k) 0 h)
  unfold clearLate
  generalize (s.wr (XPT_LATE.COUNT k) 0).wr (XPT_LATE.STATUS k) 0 = u at hw
  exact hw

theorem wf_setCtx {k : Nat} {c : Ctxt} (h : Tbl.wf resetWord s.regs = true) :
    Tbl.wf resetWord (s.setCtx k c).regs = true := h

theorem wf_tier0 (h : Tbl.wf resetWord s.regs = true) (k : Nat) : Tbl.wf resetWord (tier0 s k).regs = true := by
  have hfetch : ∀ (u : State) q, SameBut [.queues, .hmp] u (if (u.queue q).context = k then startFetch u q else u) :=
    fun u q => sameBut_ite (sameBut_startFetch u q) (SameBut.refl _ u)
  have hregs : ∀ (l : List Nat) (u : State),
      (l.foldl (fun t q => if (t.queue q).context = k then startFetch t q else t) u).regs = u.regs := fun l u =>
    SameBut.foldl hfetch l u .regs (by decide)
  unfold tier0
  dsimp only
  rw [show ∀ u, (trgUpdate u).regs = u.regs from fun u => sameBut_trgUpdate u .regs (by decide)]
  refine State.wf_bump _ _ _ ?_
  rw [hregs]
  exact wf_setCtx (wf_clearLate (s := { s with queues := _, yar := _ }) h k)

/-- A tier runs in a block whose registers and contexts are in their canonical form. -/
structure Runs (r : TierRun) (s : State) : Prop where
  regs : Tbl.wf resetWord s.regs = true
  ctxs : Tbl.wf (fun _ => ({} : Ctxt)) s.ctxs = true
  tier : s.bdg.tier = some r

theorem runs_tier0 (h : Runs r s) (k : Nat) : Runs r (tier0 s k) := by
  obtain ⟨c, hc⟩ := sameBut_tier0 s k
  refine ⟨wf_tier0 h.regs k, ?_, ?_⟩
  · rw [hc .ctxs (by decide)]
    exact Tbl.wf_set (fun _ => ({} : Ctxt)) k _ (Tbl.wf_set (fun _ => ({} : Ctxt)) k c h.ctxs)
  · rw [hc .bdg (by decide)]
    exact h.tier

/-- Contexts that have had a Tier 0 are stopped, and those that were stopped remain so. -/
theorem tier0s_stopped (e : Nat) (l : List Nat) (h : Runs r s) :
    Runs r (l.foldl (fun t i => tier0 t (32 * e + i)) s) ∧
    ∀ j, ((∃ i ∈ l, j = 32 * e + i) ∨ (s.ctx j).state = .stopped) →
      ((l.foldl (fun t i => tier0 t (32 * e + i)) s).ctx j).state = .stopped := by
  induction l generalizing s with
  | nil => exact ⟨h, fun j hj => hj.resolve_left (by simp)⟩
  | cons i l ih =>
    obtain ⟨hruns, hstop⟩ := ih (runs_tier0 h (32 * e + i))
    refine ⟨hruns, fun j hj => hstop j ?_⟩
    by_cases hji : j = 32 * e + i
    · right
      rw [hji, tier0_ctx h.ctxs]
      rfl
    · rw [tier0_ctx_ne h.ctxs hji]
      refine hj.imp_left fun ⟨i', hmem, heq⟩ => ⟨i', ?_, heq⟩
      exact (List.mem_cons.1 hmem).resolve_left fun hi => hji (hi ▸ heq)

/-- The Tier 1 of a Marten core stops its contexts. -/
theorem engineReset_marten {e : Nat} (he : e < 16) (h : Runs r s) : Runs r (engineReset s e) ∧
    ∀ i < 32, ((engineReset s e).ctx (32 * e + i)).state = .stopped := by
  have hreset := tier0s_stopped (s := { s with mrt := { s.mrt with cached := s.mrt.cached.filter fun x => x.1 / 8192 ≠ e } })
    e (List.range 32) ⟨h.regs, h.ctxs, h.tier⟩
  rw [show engineReset s e = _ from if_pos he]
  exact ⟨hreset.1, fun i hi => hreset.2 _ (Or.inl ⟨i, List.mem_range.2 hi, rfl⟩)⟩

/-- A Marten core is quiet and clear as soon as its contexts are reset. -/
theorem tierStep_marten (ht : s.bdg.tier = some r) (hs : r.step = .engine) (he : r.engine < 16) :
    tierStep s = tierComplete s r := by
  have hquiet : engineQuiet s r.engine = true := by
    unfold engineQuiet
    rw [if_neg (by omega), if_neg (by omega), if_neg (by omega)]
  have hclear : engineClear s r.engine = s := by
    unfold engineClear
    rw [if_neg (by omega), if_neg (by omega), if_neg (by omega)]
  simp [tierStep, ht, hs, hquiet, hclear]

theorem runTier1_marten (hw : Tbl.wf resetWord s.regs = true) (hx : Tbl.wf (fun _ => ({} : Ctxt)) s.ctxs = true)
    (hn : r.n = 1) (hc : r.counted = false) (he : r.engine < 16) :
    (runTier1 s r).bdg.tier = none ∧ ∀ i < 32, ((runTier1 s r).ctx (32 * r.engine + i)).state = .stopped := by
  have hrun : Runs { r with step := .engine, mark := none } (setRun s { r with step := .engine, mark := none }) := by
    refine ⟨State.wf_wr _ _ _ (State.wf_wr _ _ _ hw), ?_, by rw [setRun_bdg]⟩
    rw [sameBut_setRun s _ .ctxs (by decide)]
    exact hx
  obtain ⟨hreset, hstop⟩ := engineReset_marten he hrun
  rw [runTier1, tierStep_marten hreset.tier rfl he]
  refine ⟨tierComplete_tier _ _, fun i hi => ?_⟩
  rw [State.ctx, tierComplete_one_ctxs (r := { r with step := .engine, mark := none }) hreset.regs hn hc]
  exact hstop i hi

end
end Sys2Proof.Machine
end

section
namespace Sys2Proof.Machine

/-! ### Requests of tiers (R600 to R605, R614) -/

section
variable {s : State} {v : Nat}

/-- A Tier 1 that captures is held while HOLD is not 0. -/
theorem beginTier_one_holds (h : Reads BDG_CAP_CFG.HOLD v s) (hv : v ≠ 0) (e : Nat) (k x : Bool) :
    (beginTier s 1 e true k x).bdg.tier.map (fun r => (r.n, r.step, r.engine)) = some (1, .hold, e) := by
  obtain ⟨r, hn, he, hc, -, hb⟩ := beginTier_one s e true k x
  have hhold := (steady_logEvent (point := 0x2001) (level := 2) (args := [1, e, b2n true])
    (Steady.refl (setRun s r))).reads (reads_setRun (by decide) h) (by decide)
  obtain ⟨m, hm⟩ := holdOr_holds runTier1 hc (hhold.2.symm ▸ hv)
  rw [hb, hm, Option.map_some, hn, he]

/-- The same of a Tier 2. -/
theorem beginTier_two_holds (h : Reads BDG_CAP_CFG.HOLD v s) (hv : v ≠ 0) (e : Nat) (k x : Bool) :
    (beginTier s 2 e true k x).bdg.tier.map (fun r => (r.n, r.step)) = some (2, .hold) := by
  obtain ⟨r, u, hn, hc, hu, hb⟩ := beginTier_two s e true k x
  have hhold : Reads BDG_CAP_CFG.HOLD v (setFence { u with pins := { u.pins with trgReady := false } } BDG_FENCE.TIER true) :=
    (steady_setFence (by decide) (Steady.refl _)).reads
      (reads_same (hu.reads (reads_setRun (by decide) h) (by decide)) rfl) (by decide)
  obtain ⟨m, hm⟩ := holdOr_holds runTier2 hc (hhold.2.symm ▸ hv)
  rw [hb, hm, Option.map_some, hn]

/-- A Tier 2 that captures nothing quiesces at once. -/
theorem beginTier_two_quiesces (s : State) (e : Nat) (k x : Bool) : ∃ t, beginTier s 2 e false k x = t ∧
    t.bdg.tier.map (fun r => (r.n, r.step)) = some (2, .quiesce) ∧ t.rtr.bufs = [] ∧ t.rtr.inject = [] ∧
    t.rtr.deliver = [] ∧ t.out = [] ∧ t.hmp.quiesce = true ∧ t.pins.trgReady = false := by
  obtain ⟨r, u, hn, hc, -, hb⟩ := beginTier_two s e false k x
  obtain ⟨w, hw, he⟩ := runTier2_steady (setFence { u with pins := { u.pins with trgReady := false } } BDG_FENCE.TIER true) r
  have htier : w.bdg.tier = some { r with step := .quiesce, mark := none } := by rw [hw.tier, setRun_bdg]
  have hpins : w.pins = { u.pins with trgReady := false } := by
    rw [hw.pins, setRun_pins, (steady_setFence (by decide) (Steady.refl _)).pins]
  obtain ⟨m, hm, hq⟩ := hmpQuiesce_eq { w with rtr := { w.rtr with bufs := [], inject := [], deliver := [] }, out := [] }
  refine ⟨_, hb.trans ((holdOr_go runTier2 hc).trans (he.trans hm)), ?_, rfl, rfl, rfl, rfl, hq, ?_⟩
  · rw [htier, Option.map_some, hn]
  · rw [hpins]

/-- The Tier 1 of a Marten core resets its contexts and ends at once. -/
theorem beginTier_one_marten {e : Nat} (hs : TablesOk s) (he : e < 16) (k x : Bool) :
    (beginTier s 1 e false k x).bdg.tier = none ∧
    ∀ i < 32, ((beginTier s 1 e false k x).ctx (32 * e + i)).state = .stopped := by
  obtain ⟨r, hn, hr, hc, hk, hb⟩ := beginTier_one s e false k x
  have hlog := sameBut_logEvent (setRun s r) 0x2001 2 [1, e, b2n false]
  have hw := State.wf_wr _ BDG_TIER_CMD.BUSY 1
    (State.wf_wr { s with bdg := { s.bdg with tier := some r } } BDG_STATUS.TIER r.n hs.regs)
  have hx : (logEvent (setRun s r) 0x2001 2 [1, e, b2n false]).ctxs = s.ctxs :=
    (hlog .ctxs (by decide)).trans (sameBut_setRun s r .ctxs (by decide))
  rw [hb, holdOr_go runTier1 hc, ← hr]
  refine runTier1_marten ((steady_logEvent (Steady.refl (setRun s r))).regs hw).1 ?_ hn hk (hr ▸ he)
  rw [hr, hx]
  exact hs.ctxs

/-- The request's registers do not hold the power state. -/
theorem power_tierCmd (hs : TablesOk s) (e st : Nat) (c : Bool) :
    (((s.wr BDG_TIER_CMD.ENGINE e).wr BDG_TIER_CMD.CAPTURE (b2n c)).wr BDG_TIER_CMD.STATUS st).power = s.power :=
  (reads_tierCmd (f := CSP_STATUS.STATE) (v := s.power) (by decide) ⟨hs.regs, rfl⟩).2

end
end Sys2Proof.Machine

namespace Sys2Proof.Proofs
open Sys2Proof.Machine

/-- Settles O12: an accepted request begins its tier in the block that has left Drowse; a refused one writes its status. -/
theorem tierRequests : Obligations.TierRequests := by
  refine ⟨⟨?_, ?_, ?_, ?_, ?_, ?_, ?_⟩, ?_, ?_, ?_⟩
  · intro s k hs ho
    have hne : (MRT_CTX_CFG0.ENTRY k).addr ≠ CSP_STATUS.STATE.addr := by simp [MRT_CTX_CFG0.ENTRY, CSP_STATUS.STATE]; omega
    refine ⟨_, congrArg Host.Outcome.next (viaFabric_open s _ ho), ?_⟩
    simp only [tier0_ctx (tablesOk_drowseExit hs).ctxs]
    refine ⟨rfl, drowseExit_rd hs _ hne, fun i => ?_, rfl, tier0Ctx_started _ _⟩
    simp [Ctxt.gr, tier0Ctx]
  · intro s e hs he hr
    refine ⟨_, congrArg Host.Outcome.next (tierCommand_begins rfl hr (by simp) (by decide)), ?_⟩
    exact beginTier_one_marten (tablesOk_drowseExit (tablesOk_wr (tablesOk_wr (tablesOk_wr hs _ _) _ _) _ _)) he true false
  · intro s e hs hr hh
    refine ⟨_, congrArg Host.Outcome.next (tierCommand_begins rfl hr (by simp) (by decide)), ?_⟩
    exact beginTier_one_holds (reads_drowseExit (by decide) (reads_tierCmd (by decide) ⟨hs.regs, rfl⟩)) hh e true false
  · intro s hr hf
    obtain ⟨t, ht, h⟩ := beginTier_two_quiesces (drowseExit _) 0 true false
    exact ⟨t, congrArg Host.Outcome.next ((tierCommand_begins rfl hr (fun _ => hf) (by decide)).trans ht), h⟩
  · intro s hs hr hf hh
    refine ⟨_, congrArg Host.Outcome.next (tierCommand_begins rfl hr (fun _ => hf) (by decide)), ?_⟩
    exact beginTier_two_holds (reads_drowseExit (by decide) (reads_tierCmd (by decide) ⟨hs.regs, rfl⟩)) hh 0 true false
  · intro s c hs hr hp
    obtain ⟨u, -, hu⟩ := tier3Or_awake (c := c) (k := true) (x := false) ((power_tierCmd hs 0 stOK c).trans_le hp)
    obtain ⟨htier, hhb, hq, hpins⟩ := beginTier_three_quiesces u 0 c true false
    refine ⟨_, congrArg Host.Outcome.next ((tierCommand_three rfl hr).trans hu), htier, hhb, hq, ?_⟩
    rw [hpins]
  · intro s c hs hr hp
    have hpower := power_tierCmd hs 0 stOK c
    refine ⟨_, congrArg Host.Outcome.next (tierCommand_three rfl hr), ?_⟩
    rw [← hpower] at hp ⊢
    exact tier3Or_asleep hp
  · intro s e c st hr
    exact congrArg Host.Outcome.next (tierCommand_refused hr (by simp))
  · intro s c st hr hf
    exact congrArg Host.Outcome.next (tierCommand_refused hr fun _ => hf)
  · intro s c st hr
    exact congrArg Host.Outcome.next (tierCommand_refused hr (by simp))

end Sys2Proof.Proofs
end

section
namespace Sys2Proof.Machine

/-! ### The test access port (R72 to R76) -/

section
variable {s : State}

/-- An instruction that does not fence is selected alone. -/
theorem selectIr_plain {code : Nat} (hf : (jtagOf code).fences = false) (ht : s.pins.testFence = false) :
    selectIr s code = { s with pins := { s.pins with ir := BitVec.ofNat 8 code, tdo := [] } } := by
  simp [selectIr, hf, ht]

theorem steady_clearHb {t : State} (h : Steady s t) : Steady s (clearHb t) :=
  steady_setFence (by decide) (steady_wr (by decide) (f := BDG_HB_CFG.EXPIRED) (v := 0) h)

/-- The heartbeat that is disarmed has no timer (R611). -/
theorem hostEn_off (s : State) : ∃ u, Steady s u ∧ hostEn s false = { u with bdg := { u.bdg with hbEnd := none } } :=
  ⟨_, steady_clearHb (steady_wr (by decide) (f := BDG_HB_CFG.HOST_EN) (v := 0) (Steady.refl s)), if_neg (by decide)⟩

/-- Under a test fence the heartbeat is disarmed, TRG_READY is low and the HMP quiesces (R75). -/
theorem testFenced_eq (h : s.pins.testFence = true) : ∃ u, Steady s u ∧ testFenced s =
    hmpQuiesce { u with bdg := { u.bdg with hbEnd := none }, pins := { u.pins with trgReady := false } } := by
  have hfence := steady_setFence (by decide) (f := BDG_FENCE.TIER) (on := true) (Steady.refl s)
  obtain ⟨u, hu, he⟩ := hostEn_off (setFence s BDG_FENCE.TIER true)
  refine ⟨u, hfence.trans hu, ?_⟩
  unfold testFenced
  dsimp only
  rw [he]
  exact if_neg (by simp [h])

theorem testFenced_open (h : s.pins.testFence = false) : testFenced s = s := if_pos (by simp [h])

/-- The fence holds up no boot and no power state. -/
theorem testFenced_boot (s : State) : (testFenced s).bdg.boot = s.bdg.boot ∧ (testFenced s).csp = s.csp := by
  cases h : s.pins.testFence with
  | false => rw [testFenced_open h]; exact ⟨rfl, rfl⟩
  | true =>
    obtain ⟨u, hu, he⟩ := testFenced_eq h
    obtain ⟨m, hm, -⟩ := hmpQuiesce_eq { u with
      bdg := { u.bdg with hbEnd := none }, pins := { u.pins with trgReady := false } }
    rw [he, hm]
    exact ⟨hu.boot, hu.csp⟩

theorem testFenced_pins (h : s.pins.testFence = true) :
    (testFenced s).pins = { s.pins with trgReady := false } ∧ (testFenced s).hmp.quiesce = true := by
  obtain ⟨u, hu, he⟩ := testFenced_eq h
  rw [he, hmpQuiesce_pins, hu.pins]
  exact ⟨rfl, hmpQuiesce_quiesce _⟩

/-- The three instructions of R75 fence the block. -/
theorem selectIr_fences {code : Nat} (hf : (jtagOf code).fences = true) (ht : s.pins.testFence = false) :
    (selectIr s code).pins = { s.pins with ir := BitVec.ofNat 8 code, tdo := [], testFence := true, trgReady := false } ∧
    (selectIr s code).hmp.quiesce = true := by
  obtain ⟨hpins, hq⟩ := testFenced_pins (s := { s with pins := { s.pins with
    ir := BitVec.ofNat 8 code, tdo := [], testFence := true } }) rfl
  have hfence := fun u => steady_afterFence (was := s.fenced) (Steady.refl u)
  unfold selectIr
  rw [hf, ht]
  simp only [Bool.not_false, Bool.and_self, if_true]
  rw [(hfence _).pins, (hfence _).quiesce, hpins, hq]
  exact ⟨rfl, rfl⟩

theorem fenced_of_testFence (h : s.pins.testFence = true) : s.fenced = true := by
  simp [State.fenced, h]

theorem jtagOf_unlisted {code : Nat} (h : code ∉ [0x00, 0x01, 0x02, 0x04, 0x05, 0x10]) : jtagOf code = .bypass := by
  unfold jtagOf
  split <;> simp_all

/-- Bits of distinct places stay below the next place. -/
theorem sum_bits_lt (p : Nat → Bool) (n : Nat) : ((List.range n).filter p).foldl (fun n w => n + 2 ^ w) 0 < 2 ^ n := by
  induction n with
  | zero => simp
  | succ n ih =>
    rw [List.range_succ, List.filter_append, List.foldl_append, Nat.pow_succ]
    cases hp : p n <;> simp [hp] <;> omega

theorem b2n_le (b : Bool) : b2n b ≤ 1 := by cases b <;> decide

/-- The cells above FLT_ALIVE capture the levels that come from outside (R74). -/
theorem scanBoundary_inputs (s : State) (v c : Nat) : (scanBoundary s v c).pins.boundary / 2 ^ 19 = v := by
  have hirq : irqLevels s < 2 ^ 16 := sum_bits_lt (irqLevel s) 16
  have hp := b2n_le (!s.pins.porst)
  have hh := b2n_le (!s.pins.hrst)
  have hf := b2n_le s.pins.fltAlive
  show (b2n (!s.pins.porst) + 2 * b2n (!s.pins.hrst) + 4 * irqLevels s + 2 ^ 18 * b2n s.pins.fltAlive + 2 ^ 19 * v) / 2 ^ 19 = v
  omega

theorem idcodeWord_toNat (s : State) :
    (idcodeWord s).toNat = 9 * 2 ^ 28 + 0x4757 * 2 ^ 12 + s.build.manufacturer % 2048 * 2 + 1 := by
  have hm : s.build.manufacturer % 2048 < 2048 := Nat.mod_lt _ (by decide)
  rw [idcodeWord, BitVec.toNat_ofNat, Nat.mod_eq_of_lt (by omega)]

theorem readIdcode_plain (ht : s.pins.testFence = false) : readIdcode s = { s with pins := { s.pins with
    ir := 0x01
    tdo := (if s.pins.porst then [] else
      (List.range 32).map (bitOf (9 * 2 ^ 28 + 0x4757 * 2 ^ 12 + s.build.manufacturer % 2048 * 2 + 1))) } } := by
  unfold readIdcode
  rw [selectIr_plain (by decide) ht]
  dsimp only
  rw [shiftOut, idcodeWord_toNat]
  rfl

theorem scanBypass_plain {code : Byte} (tdi : Bool) (hc : jtagOf code.toNat = .bypass) (ht : s.pins.testFence = false) :
    (if jtagOf code.toNat = .bypass then scanBypass (selectIr s code.toNat) tdi else s) =
      { s with pins := { s.pins with ir := code, bypass := tdi, tdo := if s.pins.porst then [] else [false] } } := by
  rw [if_pos hc, selectIr_plain (by rw [hc]; rfl) ht, BitVec.ofNat_toNat, BitVec.setWidth_eq]
  simp [scanBypass, shiftOut, bitOf]

/-! The pins (R54, R72). -/

theorem pin_preloaded {x : Pin} {c : Nat} (hp : s.pins.porst = false) (hj : s.jtag = .extest ∨ s.jtag = .clamp)
    (hb : x.board = true) (hc : x.cell = some c) : s.pin x = .of (bitOf s.pins.preload c) := by
  unfold State.pin
  rcases hj with hj | hj <;> simp [hp, hj, hb, hc]

theorem pin_highz {x : Pin} (hp : s.pins.porst = false) (hj : s.jtag = .highz) (hb : x.board = true) : s.pin x = .z := by
  simp [State.pin, hp, hj, hb]

theorem pin_porst (x : Pin) (hp : s.pins.porst = true) : s.pin x = if x.releases then .z else .low := by
  simp [State.pin, hp]

end

/-! ### Resets at the pins and bring-up (R49 to R53, R518, R597, R598) -/

section
variable {s : State}

/-- A part that discovery finds answers the signature, and its density is one that the block takes (R65, R66). -/
theorem discover_some {b : List Byte} {f : FlashPart} (h : discover b = some f) :
    leAt b 0 4 = 0x50444653 ∧ 8 ≤ f.mib ∧ f.mib ≤ 256 := by
  unfold discover at h
  by_cases hsig : leAt b 0 4 ≠ 0x50444653
  · simp [hsig] at h
  rw [if_neg hsig] at h
  dsimp only at h
  generalize (if bitOf (sfdpDword b (leAt b 12 3) (leAt b 11 1) 2) 31 = true then _ else _) / 2 ^ 23 = mib at h
  cases hop : sfdpErase (sfdpDword b (leAt b 12 3) (leAt b 11 1)) with
  | none => simp [hop] at h
  | some op =>
    rw [hop] at h
    by_cases hmib : (decide (mib < 8) || decide (256 < mib)) = true
    · simp [hmib] at h
    simp only [hmib] at h
    have hf : f.mib = mib := by simp at h; rw [← h]
    simp at hmib
    exact ⟨not_not.1 hsig, by omega, by omega⟩

/-- PORST_n goes high; a part that discovery finds is driven, and without one the block waits for a load (R597, R598). -/
theorem porstRelease_eq {sfdp : List Byte} {clk delay : Nat} (hp : s.pins.porst = true) : ∃ u : State, u.pins.porst = false ∧
    porstRelease s sfdp clk delay = match discover sfdp with
      | some f => { u with
          burrow := { u.burrow with
            sectors := f.mib * 256 - 512, part := some { f with divider := flashDividers.getD clk 16, delay := delay } }
          bdg := { u.bdg with boot := .image } }
      | none => { u with bdg := { u.bdg with load := 1 } } := by
  unfold porstRelease
  rw [if_neg (by simp [hp])]
  exact ⟨_, rfl, rfl⟩

theorem bringUp_flash {m : List Byte} {u : State} (hu : u = burrowOpen (runImage s m)) (hh : s.pins.hrst = false) :
    bringUp s m true = testFenced { u with
      bdg := { u.bdg with boot := .bringup }, csp := { u.csp with pllEnd := some (u.after 100000) } } := by
  unfold bringUp
  dsimp only
  rw [if_pos rfl, ← hu]
  exact if_neg (by simp [hh])

/-- A good copy runs, and the fabric PLL starts (R518, R597). -/
theorem imageCheck_good {m : List Byte} (hb : s.bdg.boot = .image) (hg : goodCopy s = some m) :
    imageCheck s = bringUp s m true := by
  unfold imageCheck
  rw [if_neg (by simp [hb]), hg]

theorem imageCheck_none (hb : s.bdg.boot = .image) (hg : goodCopy s = none) :
    imageCheck s = { s with bdg := { s.bdg with boot := .none, load := 1 } } := by
  simp [imageCheck, hb, hg]

/-- HRST_n low begins a Tier 3 in a block that runs (R51). -/
theorem hrstAssert_tier3 {s1 : State} (h1 : s1 = { s with pins := { s.pins with hrst := true } }) (hh : s.pins.hrst = false)
    (hp : s.pins.porst = false) (hb : s.bdg.boot = .done) (ho : s.on BDG_STATUS.OUT_OF_SERVICE = false) (hpw : s.power ≤ 1) :
    ∃ u : State, u.pins = s1.pins ∧ hrstAssert s = beginTier u 3 0 false true false := by
  obtain ⟨u, hu, ht⟩ := tier3Or_awake (s := s1) (c := false) (k := true) (x := false) (by rw [h1]; exact hpw)
  obtain ⟨htier, -, -, -⟩ := beginTier_three_quiesces u 0 false true false
  have hsome : (beginTier u 3 0 false true false).bdg.tier.isNone = false := by
    cases hx : (beginTier u 3 0 false true false).bdg.tier with
    | none => simp [hx] at htier
    | some r => rfl
  refine ⟨u, hu, ?_⟩
  unfold hrstAssert
  dsimp only
  rw [if_neg (by simp [hh]), if_neg (by simp [hp, hb]), if_neg (by simp [ho]), ← h1, ht]
  exact if_neg (by simp [hsome])

theorem hrstRelease_waits {r : TierRun} (ht : s.bdg.tier = some r) (hn : r.n = 3) (hr : r.step = .hrst) :
    hrstRelease s = tier3Fill { s with pins := { s.pins with hrst := false } } r := by
  simp [hrstRelease, ht, hn, hr]

end
end Sys2Proof.Machine
end

section
namespace Sys2Proof
variable {α : Type}

/-- A key that reads another value than the unlisted one keeps it when another key is dropped. -/
theorem Tbl.get_drop_of_ne {d : α} {t : Tbl α} {a b : Nat} (hb : a ≠ b) (h : Tbl.get d t a ≠ d) :
    Tbl.get d (t.drop b) a = Tbl.get d t a := by
  induction t with
  | nil => rfl
  | cons e t ih =>
    obtain ⟨k, w⟩ := e
    rw [Tbl.get] at h ⊢
    have hle : ¬ a < k := fun hlt => h (if_pos hlt)
    rw [if_neg hle] at h ⊢
    rw [Tbl.drop]
    split
    · rw [Tbl.get, if_neg hle]
    · split
      · rw [if_neg fun hak => hb (hak.trans (‹b = k›).symm)]
      · rw [Tbl.get, if_neg hle]
        by_cases hak : a = k
        · rw [if_pos hak, if_pos hak]
        · rw [if_neg hak] at h ⊢
          rw [if_neg hak]
          exact ih h

end Sys2Proof

namespace Sys2Proof.Machine

/-! ### The fill of a Tier 3 (R584, R605)

A register that differs from its reset is listed, in any register file, and a write elsewhere leaves it. -/

/-- Where register `a` differs from its reset in `s`, it reads the same in `t`. -/
def KeepsSet (a : Nat) (s t : State) : Prop := s.reg a ≠ resetWord a → t.reg a = s.reg a

section
variable {s t u : State} {a : Nat}

theorem keepsSet_wr {f : Fld} {v : Nat} (hf : a ≠ f.addr) (h : KeepsSet a s t) : KeepsSet a s (t.wr f v) := by
  intro hs
  have ht := h hs
  rw [← ht]
  show Tbl.get _ (Tbl.set _ t.regs f.addr _) a = Tbl.get _ t.regs a
  unfold Tbl.set
  split
  · exact Tbl.get_drop_of_ne hf (ht.trans_ne hs)
  · exact Tbl.get_put_ne _ _ _ _ _ hf

theorem keepsSet_same (h : KeepsSet a s t) (hr : u.regs = t.regs) : KeepsSet a s u := by
  simpa only [KeepsSet, State.reg, hr] using h

theorem keepsSet_ite {c : Prop} [Decidable c] (ht : KeepsSet a s t) (hu : KeepsSet a s u) : KeepsSet a s (if c then t else u) := by
  split
  · exact ht
  · exact hu

theorem keepsSet_logDrop {n : Nat} (h : KeepsSet a s t) (ha : a ≠ BDG_LOG_CFG.LOST.addr) : KeepsSet a s (logDrop t n) :=
  keepsSet_ite h (keepsSet_same (t := t.bump BDG_LOG_CFG.LOST n) (keepsSet_wr ha h) rfl)

theorem keepsSet_logPump (h : KeepsSet a s t) (ha : a ≠ BDG_LOG_CFG.LOST.addr) : KeepsSet a s (logPump t) := by
  unfold logPump
  split
  · exact h
  · exact keepsSet_ite h (keepsSet_ite (keepsSet_logDrop (keepsSet_same h rfl) ha)
      (keepsSet_same (keepsSet_same h rfl) (sameBut_hmpStart _ _ _ _ _ _ .regs (by decide))))

theorem keepsSet_logEvent {point level : Nat} {args : List Nat} (h : KeepsSet a s t) (ha : a ≠ BDG_LOG_CFG.LOST.addr) :
    KeepsSet a s (logEvent t point level args) :=
  keepsSet_ite h (keepsSet_ite (keepsSet_same h rfl) (keepsSet_ite (keepsSet_logDrop (keepsSet_same h rfl) ha)
    (keepsSet_logPump (keepsSet_same h rfl) ha)))

theorem keepsSet_closeSessions {l : List Session} (h : KeepsSet a s t) (ha : a ≠ BDG_LOG_CFG.LOST.addr) :
    KeepsSet a s (closeSessions t l) := by
  have hfold : ∀ (l : List Session) u, KeepsSet a s u →
      KeepsSet a s (l.foldl (fun t x => logEvent t 0x3001 1 [x.number, x.slot]) u) := fun l => by
    induction l with
    | nil => exact fun _ hu => hu
    | cons x l ih => exact fun _ hu => ih _ (keepsSet_logEvent hu ha)
  exact hfold l _ (keepsSet_same h rfl)

theorem keepsSet_sealTier3 (h : KeepsSet a s t) (ha : a ≠ BDG_LOG_CFG.LOST.addr) (hd : a ≠ SEA_STATUS.DBG_UNLOCKED.addr) :
    KeepsSet a s (sealTier3 t) := by
  have hclosed := keepsSet_closeSessions (l := t.sea.sessions) h ha
  exact keepsSet_ite (keepsSet_same (keepsSet_wr hd (keepsSet_same hclosed rfl)) rfl) (keepsSet_same hclosed rfl)

theorem steady_closeSessions {l : List Session} (h : Steady s t) : Steady s (closeSessions t l) :=
  steady_foldl (fun _ _ hu => steady_logEvent hu) (h.same rfl)

theorem steady_sealTier3 (h : Steady s t) : Steady s (sealTier3 t) := by
  have hclosed := steady_closeSessions (l := t.sea.sessions) h
  exact steady_ite (Steady.same (steady_wr (by decide) (f := SEA_STATUS.DBG_UNLOCKED) (v := 0)
    (Steady.same (u := { closeSessions t t.sea.sessions with sea := _ }) hclosed rfl)) rfl) (hclosed.same rfl)

/-- A fill in progress shows in a register that is not at its reset. -/
theorem busy_set (h : s.rd HHG_INIT.BUSY = 1) : s.reg HHG_INIT.BUSY.addr ≠ resetWord HHG_INIT.BUSY.addr := by
  intro hr
  unfold State.rd at h
  rw [hr] at h
  exact absurd h (by decide)

/-- A write of the fill's register that leaves BUSY 1 is read back from any register file. -/
theorem busy_wr {f : Fld} {v : Nat} (ha : f.addr = HHG_INIT.BUSY.addr)
    (hb : bitsOf (putBits (s.reg f.addr) f.hi f.lo v).toNat HHG_INIT.BUSY.hi HHG_INIT.BUSY.lo = 1) :
    (s.wr f v).rd HHG_INIT.BUSY = 1 := by
  have hne : putBits (s.reg f.addr) f.hi f.lo v ≠ resetWord f.addr := by
    intro hr
    rw [hr, ha] at hb
    exact absurd hb (by decide)
  have hreg : (s.wr f v).reg f.addr = putBits (s.reg f.addr) f.hi f.lo v := Tbl.get_set_of_ne _ _ _ hne
  rw [State.rd, ← ha, hreg, hb]

theorem fillStarts_regs {ev : Nat} (hu : u = (s.wr HHG_INIT.BUSY 1).wr HHG_INIT.DONE (if ev = 2 then 0x2000 else 0)) :
    (fillStarts ev s).regs = u.regs := by
  unfold fillStarts
  dsimp only
  rw [← hu]

theorem fillStarts_busy (ev : Nat) (s : State) : (fillStarts ev s).rd HHG_INIT.BUSY = 1 := by
  have hbusy : (s.wr HHG_INIT.BUSY 1).rd HHG_INIT.BUSY = 1 :=
    busy_wr rfl (bitsOf_putBits_self _ _ _ _ (by decide) (by decide))
  have hdone := busy_wr (f := HHG_INIT.DONE) (v := if ev = 2 then 0x2000 else 0) rfl
    ((bitsOf_putBits_disjoint _ _ _ _ _ _ (by decide) (by decide) (by decide)).trans hbusy)
  rw [State.rd, State.reg, fillStarts_regs rfl]
  exact hdone

theorem startFill_three (hu : u = fillStarts 3 (clearFabric 3 s)) :
    startFill 3 s = trgUpdate { sealTier3 u with pins := { u.pins with trgReady := false } } := by
  unfold startFill
  dsimp only
  rw [if_pos rfl, ← hu]

@[simp] theorem trgUpdate_hrst (s : State) : (trgUpdate s).pins.hrst = s.pins.hrst := by
  obtain ⟨b, hb⟩ := trgUpdate_eq s
  rw [hb]

/-- The fill of a Tier 3 runs in the tier in progress, with HRST_n as it was. -/
theorem startFill_tier3 (s : State) : (startFill 3 s).pins.hrst = s.pins.hrst ∧ (startFill 3 s).bdg.tier = s.bdg.tier ∧
    (startFill 3 s).on HHG_INIT.BUSY = true := by
  obtain ⟨u, hu⟩ : ∃ u, u = fillStarts 3 (clearFabric 3 s) := ⟨_, rfl⟩
  have hsame : SameBut [.regs, .hhg] (clearFabric 3 s) u := hu ▸ sameBut_fillStarts 3 (clearFabric 3 s)
  have hbusy : u.rd HHG_INIT.BUSY = 1 := hu ▸ fillStarts_busy 3 (clearFabric 3 s)
  have hseal := steady_sealTier3 (Steady.refl u)
  have hkeep : KeepsSet HHG_INIT.BUSY.addr u (sealTier3 u) := keepsSet_sealTier3 (fun _ => rfl) (by decide) (by decide)
  have hpins : u.pins = s.pins := (hsame .pins (by decide)).trans (clearFabric_pins 3 s)
  have htier : u.bdg.tier = s.bdg.tier := (congrArg Badger.tier (hsame .bdg (by decide))).trans (clearFabric_tier 3 s)
  have hrd : (sealTier3 u).rd HHG_INIT.BUSY = 1 := by rw [State.rd, hkeep (busy_set hbusy)]; exact hbusy
  rw [startFill_three hu, trgUpdate_hrst, trgUpdate_bdg, State.on, trgUpdate_rd]
  refine ⟨?_, hseal.tier.trans htier, ?_⟩
  · rw [hpins]
  show decide ((sealTier3 u).rd HHG_INIT.BUSY ≠ 0) = true
  rw [hrd]
  rfl

end
end Sys2Proof.Machine
end

section
namespace Sys2Proof.Proofs
open Sys2Proof.Machine

/-- Settles O9: a reset at the pins leaves the state that its rule names; an instruction of the test port changes the port's
registers, and the three of R75 besides fence the block and quiesce the HMP. -/
theorem pinResets : Obligations.PinResets := by
  refine ⟨⟨?_, ?_, ?_, ?_, ?_, ?_, ?_, ?_⟩, ?_, ?_, ?_, ?_, ?_, ?_, ?_, ?_, ?_, ?_, ?_⟩
  · exact fun s => ⟨porstAssert s, rfl, rfl, rfl, rfl, rfl, rfl, rfl, rfl, rfl, rfl, rfl, rfl, rfl⟩
  · exact fun s => ⟨porstAssert s, rfl, rfl, rfl, rfl, rfl, rfl, rfl⟩
  · intro s sfdp clk delay hp
    obtain ⟨u, hu, he⟩ := porstRelease_eq (sfdp := sfdp) (clk := clk) (delay := delay) hp
    refine ⟨_, congrArg Host.Outcome.next he, ?_⟩
    cases hd : discover sfdp with
    | none => exact ⟨hu, fun f hf => by simp at hf, fun _ => rfl⟩
    | some f =>
      refine ⟨hu, fun g hg => ?_, fun hn => by simp at hn⟩
      obtain rfl : f = g := Option.some.inj hg
      obtain ⟨hsig, hlow, hhigh⟩ := discover_some hd
      exact ⟨hsig, hlow, hhigh, rfl, rfl, rfl⟩
  · intro s m hb hg hh
    obtain ⟨hboot, hcsp⟩ := testFenced_boot { burrowOpen (runImage s m) with
      bdg := { (burrowOpen (runImage s m)).bdg with boot := .bringup }
      csp := { (burrowOpen (runImage s m)).csp with pllEnd := some ((burrowOpen (runImage s m)).after 100000) } }
    refine ⟨_, congrArg Host.Outcome.next ((imageCheck_good hb hg).trans (bringUp_flash rfl hh)), hboot, ?_⟩
    rw [hcsp]
    rfl
  · intro s hb hg
    exact ⟨_, congrArg Host.Outcome.next (imageCheck_none hb hg), rfl, rfl⟩
  · intro s hh hp hb ho hpw
    obtain ⟨u, hu, he⟩ := hrstAssert_tier3 rfl hh hp hb ho hpw
    obtain ⟨htier, -, hq, hpins⟩ := beginTier_three_quiesces u 0 false true false
    refine ⟨_, congrArg Host.Outcome.next he, ?_, ?_, hq⟩
    · rw [hpins, hu]
    · cases ht : (beginTier u 3 0 false true false).bdg.tier with
      | none => simp [ht] at htier
      | some r => simp [ht] at htier; simp [htier]
  · intro s ht
    exact congrArg Host.Outcome.next (by simp [hrstRelease, ht])
  · intro s r ht hn hr hf
    obtain ⟨hhrst, htier, hbusy⟩ :=
      startFill_tier3 (setRun { s with pins := { s.pins with hrst := false } } { r with step := .fill })
    refine ⟨_, congrArg Host.Outcome.next ((hrstRelease_waits ht hn hr).trans (tier3Fill_starts rfl hf)), ?_, ?_, hbusy⟩
    · rw [hhrst, setRun_pins]
    · rw [htier, setRun_bdg, Option.map_some, hn]
  · intro s ht
    exact congrArg Host.Outcome.next (selectIr_plain (by decide) ht)
  · intro s ht
    exact ⟨_, congrArg Host.Outcome.next (readIdcode_plain ht), rfl, rfl⟩
  · intro s code tdi ht hc
    have hj := jtagOf_unlisted hc
    exact ⟨_, congrArg Host.Outcome.next (scanBypass_plain tdi hj ht), hj, rfl⟩
  · intro s v cells ht
    have hsel := selectIr_plain (s := s) (code := 0x02) (by decide) ht
    refine ⟨_, rfl, ?_, rfl, scanBoundary_inputs _ _ _, ?_, fun hp => ?_⟩
    · rw [hsel]; rfl
    · rw [hsel]; exact ht
    · rw [hsel]; exact if_neg (by simp [hp])
  · intro s v cells ht
    obtain ⟨hpins, hq⟩ := selectIr_fences (s := s) (code := 0x00) (by decide) ht
    have hf : (scanBoundary (selectIr s 0x00) v.toNat cells.toNat).pins.testFence = true := congrArg Pins.testFence hpins
    refine ⟨_, rfl, ?_, hf, fenced_of_testFence hf, hq, rfl, scanBoundary_inputs _ _ _⟩
    exact congrArg (fun p : Pins => jtagOf p.ir.toNat) hpins
  · intro s ht
    obtain ⟨hpins, hq⟩ := selectIr_fences (s := s) (code := 0x04) (by decide) ht
    have hf : (selectIr s 0x04).pins.testFence = true := congrArg Pins.testFence hpins
    refine ⟨_, rfl, ?_, hf, fenced_of_testFence hf, hq, ?_⟩
    · exact congrArg (fun p : Pins => jtagOf p.ir.toNat) hpins
    · rw [hpins]
  · intro s ht
    obtain ⟨hpins, hq⟩ := selectIr_fences (s := s) (code := 0x05) (by decide) ht
    have hf : (selectIr s 0x05).pins.testFence = true := congrArg Pins.testFence hpins
    refine ⟨_, rfl, ?_, hf, fenced_of_testFence hf, hq⟩
    exact congrArg (fun p : Pins => jtagOf p.ir.toNat) hpins
  · intro s x c hp hj hb hc
    exact pin_preloaded hp hj hb hc
  · intro s x hp hj hb
    exact pin_highz hp hj hb
  · intro s hp
    simp only [pin_porst _ hp]
    exact ⟨rfl, rfl, rfl, rfl, rfl⟩
  · intro s ht
    refine ⟨_, congrArg Host.Outcome.next (selectIr_plain (by decide) ht), rfl, rfl, ?_⟩
    show (true && (!s.sea.fuses.debugLock || s.on SEA_STATUS.DBG_UNLOCKED)) = true ↔ _
    simp

end Sys2Proof.Proofs
end

section
namespace Sys2Proof

theorem Tbl.put_ne_nil {α : Type} (t : Tbl α) (a : Nat) (v : α) : t.put a v ≠ [] := fun h => by
  have := Tbl.find_put_self t a v
  simp [h] at this

end Sys2Proof

namespace Sys2Proof.Machine
variable {s : State} {c : Nat} {r : HmpReq} {rest : List HmpReq}

/-! ### Counters and reports -/

theorem sameBut_bump (s : State) (f : Fld) (n : Nat) : SameBut [.regs] s (s.bump f n) := sameBut_wr s f _

theorem sameBut_report (s : State) (a b c d : Nat) : SameBut [.hhg] s (report s a b c d) := by
  intro p hp
  cases p <;> simp_all [Component.same]

/-! ### Commands and beats of a channel of the Host Memory Port (R80, R85, R86) -/

theorem sameBut_setChan (s : State) (c : Nat) (h : HmpChan) : SameBut [.hmp] s (s.setChan c h) := by
  intro p hp
  cases p <;> simp_all [Component.same]

theorem sameBut_withFreeIdx (s : State) (n : Nat) : SameBut [.freeIdx] s { s with freeIdx := n } := by
  intro p hp
  cases p <;> simp_all [Component.same]

/-- A channel with a tag in use is listed, and reads what was written. -/
theorem chan_setChan_of_tags (s : State) (c : Nat) {h : HmpChan} (ht : h.tags ≠ []) : (s.setChan c h).chan c = h :=
  Tbl.get_set_of_ne _ _ _ fun e => ht (congrArg HmpChan.tags e)

/-- The front command is presented where a tag is free and nothing keeps it off the pins, or where it stands there. -/
theorem presents_front {h : HmpChan} (hc : h.cmds = r :: rest) (hq : s.hmp.quiesce = false ∨ h.up = true)
    (hl : h.outstanding < s.rd HMP_CFG.TAG_LIMIT) (hf : h.freeTags s.now ≠ []) (hw : r.write = true → h.wleft = 0) :
    s.presents h = true := by
  rcases hq with hq | hq
  · cases hr : r.write <;> simp_all [State.presents]
  · simp [State.presents, hc, hq]

/-- Nothing is presented in a quiesce, with every tag in use, or by a write behind the beats of the one before it. -/
theorem not_presents {h : HmpChan} (hu : h.up = false) (he : h.early = 0) (hb : s.hmp.quiesce = true ∨
      s.rd HMP_CFG.TAG_LIMIT ≤ h.outstanding ∨ h.freeTags s.now = [] ∨ (0 < h.wleft ∧ h.cmds.head?.any (·.write) = true)) :
    s.presents h = false := by
  cases hc : h.cmds with
  | nil => simp [State.presents, hc]
  | cons r rest =>
    rcases hb with hb | hb | hb | ⟨hb, hw⟩
    · simp [State.presents, hc, hu, he, hb]
    · simp [State.presents, hc, hu, he, Nat.not_lt.2 hb]
    · simp [State.presents, hc, hu, he, hb]
    · have hr : r.write = true := by simpa [hc] using hw
      simp [State.presents, hc, hu, he, hr, hb.ne']

theorem hmpTakeCommand_waits (hp : s.presents (s.chan c) = false) : hmpTakeCommand s c = s := by
  simp [hmpTakeCommand, hp]

/-- What channel `h` holds once its front command `r` has taken tag `g` (R85, R86). -/
def takenChan (now : Nat) (h : HmpChan) (r : HmpReq) (rest : List HmpReq) (g : Nat) : HmpChan :=
  { h with
    cmds := rest, tags := h.tags.put g ⟨r, now, 0, false⟩, up := false
    wleft := if r.write then linesOf r.addr r.len - h.early else h.wleft
    early := if r.write then 0 else h.early }

/-- A presented command takes one of the free tags, by the model's free choice. -/
theorem hmpTakeCommand_takes (hp : s.presents (s.chan c) = true) (hc : (s.chan c).cmds = r :: rest)
    (hf : (s.chan c).freeTags s.now ≠ []) : ∃ g ∈ (s.chan c).freeTags s.now, hmpTakeCommand s c =
      { s.setChan c (takenChan s.now (s.chan c) r rest g) with freeIdx := s.freeIdx + 1 } := by
  have hi : Config.freeValue s.freeIdx % ((s.chan c).freeTags s.now).length < ((s.chan c).freeTags s.now).length :=
    Nat.mod_lt _ (List.length_pos_iff.2 hf)
  refine ⟨((s.chan c).freeTags s.now)[Config.freeValue s.freeIdx % ((s.chan c).freeTags s.now).length],
    List.getElem_mem hi, ?_⟩
  simp [hmpTakeCommand, hp, hc, List.getElem?_eq_getElem hi, takenChan]

theorem hmpTakeBeat_left (h : (s.chan c).wleft ≠ 0) :
    hmpTakeBeat s c = s.setChan c { s.chan c with wleft := (s.chan c).wleft - 1 } :=
  if_pos h

/-- A beat of the write that is presented goes ahead of its command's transfer. -/
theorem hmpTakeBeat_early (h0 : (s.chan c).wleft = 0) (hc : (s.chan c).cmds = r :: rest) (hw : r.write = true)
    (hp : s.presents (s.chan c) = true) (hl : (s.chan c).early < linesOf r.addr r.len) :
    hmpTakeBeat s c = s.setChan c { s.chan c with early := (s.chan c).early + 1 } := by
  simp [hmpTakeBeat, h0, hc, hw, hp, hl]

/-! ### Responses (R88 to R94) -/

section
variable {t : Nat} {g : HmpTag}

theorem takeReadBeat_free {line : List Byte} {stat : Nat} {last : Bool} (h : (s.chan c).tags.find? t = none) :
    takeReadBeat s c t line stat last = (strayResponse s c, none) := by
  simp [takeReadBeat, h]

theorem takeWriteResponse_free {stat : Nat} (h : (s.chan c).tags.find? t = none) :
    takeWriteResponse s c t stat = (strayResponse s c, none) := by
  simp [takeWriteResponse, h]

variable (h : (s.chan c).tags.find? t = some g)
include h

/-- A beat of a read gives its piece to its transfer; the last one frees the tag (R88). -/
theorem takeReadBeat_live {line : List Byte} {stat : Nat} {last : Bool} (hq : g.quarantined = false)
    (hw : g.req.write = false) : takeReadBeat s c t line stat last =
      xferPiece ((countStat s c stat).setChan c { s.chan c with
        tags := if last then (s.chan c).tags.drop t else (s.chan c).tags.put t { g with beats := g.beats + 1 } })
        g.req.xfer (beatPiece g.req g.beats line stat) last := by
  simp [takeReadBeat, h, hq, hw]

/-- The response of a write ends its request and frees the tag (R89). -/
theorem takeWriteResponse_live {stat : Nat} (hq : g.quarantined = false) (hw : g.req.write = true) :
    takeWriteResponse s c t stat =
      xferPiece ((countStat s c stat).setChan c { s.chan c with tags := (s.chan c).tags.drop t }) g.req.xfer
        ⟨g.req.off, g.req.bytes, stat⟩ true := by
  simp [takeWriteResponse, h, hq, hw]

/-- The late response of a quarantined tag counts in TMO and frees it with its last beat (R94). -/
theorem takeReadBeat_quarantined {line : List Byte} {stat : Nat} {last : Bool} (hq : g.quarantined = true) :
    takeReadBeat s c t line stat last = (if last then
      (s.setChan c { s.chan c with tags := (s.chan c).tags.drop t }).bump (HMP_CH_ERR.TMO c) 1 else s, none) := by
  cases last <;> simp [takeReadBeat, h, hq]

theorem takeWriteResponse_quarantined {stat : Nat} (hq : g.quarantined = true) : takeWriteResponse s c t stat =
    ((s.setChan c { s.chan c with tags := (s.chan c).tags.drop t }).bump (HMP_CH_ERR.TMO c) 1, none) := by
  simp [takeWriteResponse, h, hq]

/-- A tag in use for longer than RESP_TMO goes to quarantine with F2, and its request ends (R94). -/
theorem takeRespTmo_late (hq : g.quarantined = false) (hl : g.since + s.respTmo < s.now) : takeRespTmo s c t =
    xferPiece (report (s.setChan c { s.chan c with tags := (s.chan c).tags.put t { g with quarantined := true } }) 0x11 2 0x02 c)
      g.req.xfer ⟨g.req.off, List.replicate g.req.len 0, 4⟩ true := by
  simp [takeRespTmo, h, hq, Nat.not_le.2 hl]

end

/-- A transfer that ends with piece `p` holds it. -/
theorem mem_got_of_xferPiece {id : Nat} {p : Piece} {ended : Bool} {v : State} {x : Xfer}
    (h : xferPiece s id p ended = (v, some x)) : p ∈ x.got := by
  unfold xferPiece at h
  cases hx : s.hmp.xfers.find? id with
  | none => simp [hx] at h
  | some y =>
    by_cases hl : (if ended = true then y.left - 1 else y.left) = 0
    · simp only [hx, if_pos hl, Prod.mk.injEq, Option.some.injEq] at h
      rw [← h.2]
      simp
    · simp [hx, if_neg hl] at h

/-- A transfer of which a tag timed out has status TIMEOUT (R94). -/
theorem status_of_timedOut {x : Xfer} {p : Piece} (h : p ∈ x.got) (hp : p.stat = 4) : x.status = stTIMEOUT :=
  if_pos (List.any_eq_true.2 ⟨p, h, by simp [hp]⟩)

theorem sameBut_strayResponse (s : State) (c : Nat) : SameBut [.regs, .hhg] s (strayResponse s c) :=
  ((sameBut_bump s _ 1).mono (by simp)).step (by simp) (sameBut_report _ _ _ _ _)

theorem strayResponse_waiting (s : State) (c : Nat) :
    (strayResponse s c).hhg.waiting = s.hhg.waiting ++ [⟨0x11, 2, 0x01, c, false⟩] := by
  rw [strayResponse, report_waiting, State.bump_hhg]

theorem strayResponse_reg (s : State) (c a : Nat) : (strayResponse s c).reg a = (s.bump (HMP_CH_ERR.STRAY c) 1).reg a := by
  rw [strayResponse, State.reg, report_regs, State.reg]

/-- What the units make of a response (R92): its transfer, if it has ended, acts. -/
theorem exec_hmpReadBeat {c : Chan} {tag : Fin 2048} {line : List Byte} {stat : Fin 4} {last : Bool} {v : State}
    {o : Option Xfer} (h : takeReadBeat s c tag line stat last = (v, o)) :
    exec (.hmpReadBeat c tag line stat last) s = .next (mgmtDone (afterResponse (v, o))) :=
  congrArg (fun y => Host.Outcome.next (mgmtDone (afterResponse y))) h

theorem exec_hmpWriteResponse {c : Chan} {tag : Fin 2048} {stat : Fin 4} {v : State} {o : Option Xfer}
    (h : takeWriteResponse s c tag stat = (v, o)) :
    exec (.hmpWriteResponse c tag stat) s = .next (mgmtDone (afterResponse (v, o))) :=
  congrArg (fun y => Host.Outcome.next (mgmtDone (afterResponse y))) h

theorem exec_hmpRespTmo {c : Chan} {tag : Fin 2048} {v : State} {o : Option Xfer} (h : takeRespTmo s c tag = (v, o)) :
    exec (.hmpRespTmo c tag) s = .next (mgmtDone (afterResponse (v, o))) :=
  congrArg (fun y => Host.Outcome.next (mgmtDone (afterResponse y))) h

end Sys2Proof.Machine

namespace Sys2Proof.Proofs
open Sys2Proof.Machine

/-- Settles O20: what a channel's front command and its beats do, then what becomes of a response by the tag that it names. -/
theorem hostMemoryPort : Obligations.HostMemoryPort := by
  unfold Obligations.HostMemoryPort
  rintro s c h rfl
  refine ⟨fun r rest hc hq hl hf hw => ?_, fun hu he hb => ?_, fun hw => ?_, fun r rest h0 hc hw hp hl => ?_,
    fun tag line stat last g u ht hq hw hu => ?_, fun tag stat g u ht hq hw hu => ?_, fun tag stat line g ht hq => ?_,
    fun tag g v x ht hq hl hx => ?_, fun hh => congrArg Host.Outcome.next (if_pos hh)⟩
  · obtain ⟨g, hg, ht⟩ := hmpTakeCommand_takes (presents_front hc hq hl hf hw) hc hf
    refine ⟨_, congrArg Host.Outcome.next ht, ?_, g, hg, chan_setChan_of_tags _ _ (Tbl.put_ne_nil _ _ _)⟩
    exact ((sameBut_setChan s c _).mono (by simp)).step (by simp) (sameBut_withFreeIdx _ _)
  · exact congrArg Host.Outcome.next (hmpTakeCommand_waits (not_presents hu he hb))
  · exact congrArg Host.Outcome.next (hmpTakeBeat_left hw)
  · exact congrArg Host.Outcome.next (hmpTakeBeat_early h0 hc hw hp hl)
  · subst hu
    have hb := takeReadBeat_live ht hq hw (line := line) (stat := stat) (last := last)
    exact ⟨fun v hv => exec_hmpReadBeat (hb.trans hv), fun v x hv => exec_hmpReadBeat (hb.trans hv)⟩
  · subst hu
    have hb := takeWriteResponse_live ht hq hw (stat := stat)
    exact ⟨fun v hv => exec_hmpWriteResponse (hb.trans hv), fun v x hv => exec_hmpWriteResponse (hb.trans hv)⟩
  · exact ⟨exec_hmpWriteResponse (takeWriteResponse_quarantined ht hq), exec_hmpReadBeat (takeReadBeat_quarantined ht hq),
      exec_hmpReadBeat (takeReadBeat_quarantined ht hq)⟩
  · exact ⟨status_of_timedOut (mem_got_of_xferPiece hx) rfl, exec_hmpRespTmo ((takeRespTmo_late ht hq hl).trans hx)⟩

/-- Settles O21: both kinds of response end in `strayResponse`. -/
theorem strayResponses : Obligations.StrayResponses := by
  unfold Obligations.StrayResponses
  intro s c tag line stat last hs ht
  refine ⟨strayResponse s c, exec_hmpReadBeat (takeReadBeat_free ht), exec_hmpWriteResponse (takeWriteResponse_free ht), ?_,
    strayResponse_waiting s c, sameBut_strayResponse s c, fun a ha => ?_⟩
  · rw [State.rd, strayResponse_reg]
    exact State.rd_bump_self s (HMP_CH_ERR.STRAY c) 1 hs.regs (by simp [HMP_CH_ERR.STRAY]) (by simp [HMP_CH_ERR.STRAY])
  · rw [strayResponse_reg]
    exact State.reg_bump_ne s (HMP_CH_ERR.STRAY c) 1 a hs.regs ha

end Sys2Proof.Proofs
end

section
namespace Sys2Proof.Machine
variable {s u : State} {q : QNum}

/-! ### Registers that the end of Drowse leaves alone -/

theorem drowseExit_on (h : TablesOk s) (f : Fld) (hf : f.addr ≠ CSP_STATUS.STATE.addr) : (drowseExit s).on f = s.on f := by
  unfold State.on; rw [drowseExit_rd h f hf]

theorem drowseExit_initDone (h : TablesOk s) : (drowseExit s).initDone = s.initDone := by
  unfold State.initDone; rw [drowseExit_rd h _ (by decide)]

theorem drowseExit_openStatus (h : TablesOk s) (v : Queue) : openStatus (drowseExit s) v = openStatus s v := by
  unfold openStatus; rw [drowseExit_initDone h, drowseExit_fenced h]

@[simp] theorem drowseExit_ctx (s : State) (k : Nat) : (drowseExit s).ctx k = s.ctx k := by unfold State.ctx; simp

@[simp] theorem queue_bump (s : State) (f : Fld) (n q : Nat) : (s.bump f n).queue q = s.queue q := rfl

/-! ### OPEN, CLOSE and the doorbells find their queue in a block awake (R107, R116) -/

section
variable (ho : s.fabricOpen = true)
include ho

theorem exec_qDb (tail : BitVec 16) : exec (.qDb q tail) s = .next (qDb (drowseExit s) q tail.toNat) :=
  congrArg _ (viaFabric_open s _ ho)

theorem exec_qCqdb (head : BitVec 16) : exec (.qCqdb q head) s = .next (qCqdb (drowseExit s) q head.toNat) :=
  congrArg _ (viaFabric_open s _ ho)

variable (hs : TablesOk s)
include hs

/-- While firmware restarts, a queue command leaves BUSY and nothing else (R610). -/
theorem exec_queueCommand_restarting (hf : s.on BDG_STATUS.FW_RESTART = true) :
    exec (.openQueue q) s = .next ((drowseExit s).setQueue q { s.queue q with cmdStatus := stBUSY }) ∧
      exec (.closeQueue q) s = .next ((drowseExit s).setQueue q { s.queue q with cmdStatus := stBUSY }) := by
  have hu : (drowseExit s).on BDG_STATUS.FW_RESTART = true := (drowseExit_on hs _ (by decide)).trans hf
  have hq := drowseExit_queue s q
  constructor
  · refine congrArg Host.Outcome.next ((viaFabric_open s _ ho).trans ?_)
    rw [if_pos hu, hq]
  · refine congrArg Host.Outcome.next ((viaFabric_open s _ ho).trans ?_)
    rw [if_pos hu, hq]

theorem exec_queueCommand (hf : s.on BDG_STATUS.FW_RESTART = false) :
    exec (.openQueue q) s = .next (qOpen (drowseExit s) q) ∧ exec (.closeQueue q) s = .next (qClose (drowseExit s) q) := by
  have hu : ¬(drowseExit s).on BDG_STATUS.FW_RESTART = true := by rw [drowseExit_on hs _ (by decide), hf]; decide
  exact ⟨congrArg Host.Outcome.next ((viaFabric_open s _ ho).trans (if_neg hu)),
    congrArg Host.Outcome.next ((viaFabric_open s _ ho).trans (if_neg hu))⟩

end

/-! ### What they do to it (R114 to R119) -/

/-- A queue that has just been opened: its configuration stands, and all else begins again (R114). -/
def Queue.reopened (v : Queue) : Queue :=
  { v with
    state := .opened, cmdStatus := stOK, head := 0, tail := 0, cplTail := 0, phase := true, unconsumed := [], waiting := [],
    accepted := 0, fetching := false, started := [], held := [], writing := 0, noEntries := false }

theorem qOpen_ok {q : Nat} (h : openStatus s (s.queue q) = stOK) : qOpen s q = s.setQueue q (s.queue q).reopened := by
  simp [qOpen, h, Queue.reopened]

theorem qOpen_refused {q : Nat} (h : openStatus s (s.queue q) ≠ stOK) :
    qOpen s q = s.setQueue q { s.queue q with cmdStatus := openStatus s (s.queue q) } := if_pos h

theorem qClose_open {q : Nat} (h : (s.queue q).state = .opened) :
    qClose s q = s.setQueue q { s.queue q with state := .closing, cmdStatus := stOK } := by
  simp [qClose, h]

/-- CLOSE of a queue in ERROR discards and counts what has not started (R119). -/
theorem qClose_error {q : Nat} (h : (s.queue q).state = .error) :
    qClose s q = (s.setQueue q { s.queue q with state := .closing, cmdStatus := stOK, waiting := [], noEntries := true }).bump
      OPP_ERR.DISCARD_CNT (s.queue q).waiting.length := by
  simp [qClose, h]

theorem queueClosed_drained {q : Nat} (h : (s.queue q).state = .closing) (hd : (s.queue q).drained = true) :
    queueClosed s q = s.setQueue q { s.queue q with state := .closed, noEntries := false } := by
  simp [queueClosed, h, hd]

theorem queueClosed_waits {q : Nat} (hd : (s.queue q).drained = false) : queueClosed s q = s := by
  simp [queueClosed, hd]

/-- A fetch begins unless one runs, the ring is empty or pushed to, or the context is FAULTED (R117, R323). -/
theorem startFetch_queue (h : TablesOk s) (q : Nat) : (startFetch s q).queue q = { s.queue q with
    fetching := (s.queue q).fetching || (decide ((s.queue q).state = .opened) && !(s.queue q).push &&
      decide ((s.queue q).head ≠ (s.queue q).tail) && decide ((s.ctx (s.queue q).context).state ≠ .faulted)) } := by
  unfold startFetch
  dsimp only
  split
  · rename_i hc
    have : ((s.queue q).fetching || (decide ((s.queue q).state = .opened) && !(s.queue q).push &&
      decide ((s.queue q).head ≠ (s.queue q).tail) && decide ((s.ctx (s.queue q).context).state ≠ .faulted))) =
        (s.queue q).fetching := by
      simp only [Bool.or_eq_true, decide_eq_true_eq] at hc
      rcases hc with (((hc | hc) | hc) | hc) | hc <;> simp [hc]
    rw [this]
  · rename_i hc
    simp only [Bool.or_eq_true, decide_eq_true_eq, not_or, ne_eq, not_not, Bool.not_eq_true] at hc
    obtain ⟨⟨⟨⟨ho, hp⟩, -⟩, ht⟩, hf⟩ := hc
    rw [State.queue, hmpRead, sameBut_hmpStart _ _ _ _ _ _ .queues (by decide)]
    refine (queue_setQueue_self h q _).trans ?_
    simp [ho, hp, ht, hf]

theorem qDb_moves {q tail : Nat} (ht : tail < (s.queue q).size) (ho : (s.queue q).state = .opened) (hp : (s.queue q).push = false) :
    qDb s q tail = startFetch (s.setQueue q { s.queue q with tail := tail }) q := by
  simp [qDb, Nat.not_le.2 ht, ho, hp]

theorem qDb_discarded {q tail : Nat} (h : (s.queue q).size ≤ tail ∨ (s.queue q).state ≠ .opened ∨ (s.queue q).push = true) :
    qDb s q tail = s.bump OPP_ERR.DISCARD_CNT 1 := by
  rcases h with h | h | h <;> simp [qDb, h]

/-- Entries between the two doorbells' values: those that the driver has not consumed (R118). -/
theorem qCqdb_consumes {q head : Nat} (hh : head < (s.queue q).size) (hc : (s.queue q).isClosed = false)
    (he : (s.queue q).held = []) (hl : ((s.queue q).cplTail + (s.queue q).size - head) % (s.queue q).size ≤ (s.queue q).unconsumed.length) :
    qCqdb s q head = s.setQueue q { s.queue q with
      unconsumed := (s.queue q).unconsumed.drop
        ((s.queue q).unconsumed.length - ((s.queue q).cplTail + (s.queue q).size - head) % (s.queue q).size) } := by
  simp [qCqdb, Nat.not_le.2 hh, hc, he, Nat.not_lt.2 hl, writeHeld]

theorem qCqdb_discarded {q head : Nat} (h : (s.queue q).size ≤ head ∨ (s.queue q).isClosed = true ∨
      (s.queue q).unconsumed.length < ((s.queue q).cplTail + (s.queue q).size - head) % (s.queue q).size) :
    qCqdb s q head = s.bump OPP_ERR.DISCARD_CNT 1 := by
  rcases h with h | h | h <;> simp [qCqdb, h]

/-- A discarded doorbell is counted, and no queue changes (R120). -/
theorem bump_discardCnt (h : TablesOk s) : ((drowseExit s).bump OPP_ERR.DISCARD_CNT 1).queues = s.queues ∧
    ((drowseExit s).bump OPP_ERR.DISCARD_CNT 1).rd OPP_ERR.DISCARD_CNT = min (s.rd OPP_ERR.DISCARD_CNT + 1) (2 ^ 16 - 1) := by
  refine ⟨drowseExit_queues s, ?_⟩
  rw [State.rd_bump_self _ OPP_ERR.DISCARD_CNT 1 (tablesOk_drowseExit h).regs (by decide) (by decide),
    drowseExit_rd h _ (by decide)]
  rfl

/-! ### Descriptors that a ring read has brought (R117, R119, R323) -/

/-- The oldest finished ring read of a queue. -/
def ringRead (s : State) (q : Nat) : Option Xfer :=
  s.hmp.returned.find? (fun x => match x.k with | .descFetch q' _ _ => q' = q | _ => false)

/-- The block from which a finished transfer has been taken. -/
def takeReturned (s : State) (x : Xfer) : State := { s with hmp := { s.hmp with returned := s.hmp.returned.erase x } }

/-- The block in which the `n` descriptors of read `x` have joined queue `q` or completed, and HEAD stands behind them. -/
def fetchTaken (s : State) (q : Nat) (x : Xfer) (first n : Nat) : State :=
  (List.range n).foldl (fun t i => takeFetched t q x first i)
    ((takeReturned s x).setQueue q { s.queue q with head := (first + n) % (s.queue q).size, fetching := false })

section
variable {q : Nat} {x : Xfer} (h : ringRead s q = some x)
include h

theorem ringRead_purpose : ∃ first n, x.k = .descFetch q first n := by
  have hk := List.find?_some h
  split at hk
  · rename_i q' first n hx
    exact ⟨first, n, by rw [hx, of_decide_eq_true hk]⟩
  · cases hk

/-- What a finished ring read does: it waits, is discarded, or is taken. -/
theorem descFetch_eq {first n : Nat} (hk : x.k = .descFetch q first n) : descFetch s q =
    if (decide ((s.ctx (s.queue q).context).state = .faulted) && !(s.queue q).isClosed && !(s.queue q).noEntries) = true then s
    else if ((s.queue q).isClosed || (s.queue q).noEntries) = true then
      ((takeReturned s x).setQueue q { s.queue q with fetching := false }).bump OPP_ERR.DISCARD_CNT
        (if (s.queue q).noEntries = true then n else 0)
    else startFetch (fetchTaken s q x first n) q := by
  unfold descFetch
  split
  · rename_i hn
    exact absurd (hn.symm.trans h) (by simp)
  · rename_i y hy
    obtain rfl : y = x := Option.some.inj (hy.symm.trans h)
    rw [hk]
    rfl

theorem descFetch_faulted (hf : (s.ctx (s.queue q).context).state = .faulted) (hc : (s.queue q).isClosed = false)
    (hn : (s.queue q).noEntries = false) : descFetch s q = s := by
  obtain ⟨first, n, hk⟩ := ringRead_purpose h
  rw [descFetch_eq h hk, if_pos (by simp [hf, hc, hn])]

variable {first n : Nat} (hk : x.k = .descFetch q first n)
include hk

theorem descFetch_discards (hn : (s.queue q).noEntries = true) : descFetch s q =
    ((takeReturned s x).setQueue q { s.queue q with fetching := false }).bump OPP_ERR.DISCARD_CNT n := by
  rw [descFetch_eq h hk, if_neg (by simp [hn]), if_pos (by simp [hn]), if_pos hn]

theorem descFetch_takes (ho : (s.queue q).state = .opened) (hn : (s.queue q).noEntries = false)
    (hf : (s.ctx (s.queue q).context).state ≠ .faulted) : descFetch s q = startFetch (fetchTaken s q x first n) q := by
  rw [descFetch_eq h hk, if_neg (by simp [hf]), if_neg (by simp [Queue.isClosed, ho, hn])]

end

end Sys2Proof.Machine

namespace Sys2Proof.Proofs
open Sys2Proof.Machine

/-- Settles O23: each command's own lemma, in the block that has left Drowse. -/
theorem queueCommands : Obligations.QueueCommands := by
  unfold Obligations.QueueCommands
  rintro s q v hs rfl
  have hu : TablesOk (drowseExit s) := tablesOk_drowseExit hs
  have hq : (drowseExit s).queue q = s.queue q := drowseExit_queue s q
  have hst := drowseExit_openStatus hs (s.queue q)
  have hcnt := bump_discardCnt hs
  have hawake : SameBut [.queues, .regs, .csp] s (drowseExit s) := (sameBut_drowseExit s).mono (by simp)
  refine ⟨fun ho hf hok => ?_, fun ho hf hbad => ?_, fun ho hf hop => ?_, fun ho hf her => ?_, fun ho hf => ?_,
    fun hcl hd => congrArg Host.Outcome.next (queueClosed_drained hcl hd),
    fun _ hd => congrArg Host.Outcome.next (queueClosed_waits hd), fun tail ho ht hop hp => ?_, fun tail ho hbad => ?_,
    fun head ho hh hc he hl => ?_, fun head ho hbad => ?_,
    fun x hx hf hc hn => congrArg Host.Outcome.next (descFetch_faulted hx hf hc hn),
    fun x first n hx hk hn => congrArg Host.Outcome.next (descFetch_discards hx hk hn),
    fun x first n hx hk hop hn hf => congrArg Host.Outcome.next (descFetch_takes hx hk hop hn hf)⟩
  · refine ⟨_, (exec_queueCommand ho hs hf).1, ?_⟩
    rw [qOpen_ok (by rw [hq, hst, hok]), hq]
    exact ⟨queue_setQueue_self hu q _, hawake.step (by simp) (sameBut_setQueue _ _ _)⟩
  · refine ⟨_, (exec_queueCommand ho hs hf).1, ?_⟩
    rw [qOpen_refused (by rw [hq, hst]; exact hbad), hq, hst]
    exact queue_setQueue_self hu q _
  · refine ⟨_, (exec_queueCommand ho hs hf).2, ?_⟩
    rw [qClose_open (hq ▸ hop), hq]
    exact queue_setQueue_self hu q _
  · refine ⟨_, (exec_queueCommand ho hs hf).2, ?_⟩
    rw [qClose_error (hq ▸ her), hq]
    beta_reduce
    rw [queue_bump]
    exact queue_setQueue_self hu q _
  · obtain ⟨hopen, hclose⟩ := exec_queueCommand_restarting ho hs hf
    exact ⟨⟨_, hopen, queue_setQueue_self hu q _⟩, ⟨_, hclose, queue_setQueue_self hu q _⟩⟩
  · have hw := tablesOk_setQueue hu q { s.queue q with tail := tail.toNat }
    refine ⟨_, exec_qDb ho tail, ?_⟩
    rw [qDb_moves (hq ▸ ht) (hq ▸ hop) (hq ▸ hp), hq]
    have hv := startFetch_queue hw q
    rw [queue_setQueue_self hu] at hv
    refine ⟨(congrArg Queue.tail hv :), (congrArg Queue.head hv :), (congrArg Queue.fetching hv).trans (by simp [hop, hp]), ?_⟩
    exact ((hawake.mono (by simp)).step (by simp) (sameBut_setQueue _ _ _)).step (by simp) (sameBut_startFetch _ _)
  · refine ⟨_, exec_qDb ho tail, ?_⟩
    rw [qDb_discarded (hq ▸ hbad)]
    exact hcnt
  · refine ⟨_, exec_qCqdb ho head, ?_⟩
    rw [qCqdb_consumes (hq ▸ hh) (hq ▸ hc) (hq ▸ he) (hq ▸ hl), hq]
    beta_reduce
    rw [queue_setQueue_self hu]
    exact ⟨by rw [List.length_drop]; omega, hawake.step (by simp) (sameBut_setQueue _ _ _)⟩
  · refine ⟨_, exec_qCqdb ho head, ?_⟩
    rw [qCqdb_discarded (hq ▸ hbad)]
    exact hcnt

end Sys2Proof.Proofs
end

section
namespace Sys2Proof
variable {α : Type}

/-- A table that reads something else than the unlisted value lists it. -/
theorem Tbl.mem_of_get_ne {d : α} {t : Tbl α} {a : Nat} (h : Tbl.get d t a ≠ d) : (a, Tbl.get d t a) ∈ t := by
  induction t with
  | nil => exact absurd rfl h
  | cons e t ih =>
    obtain ⟨k, v⟩ := e
    by_cases h1 : a < k
    · simp [Tbl.get, h1] at h
    · by_cases h2 : a = k
      · simp [Tbl.get, h2]
      · simp only [Tbl.get, h1, h2, if_false] at h ⊢
        exact List.mem_cons_of_mem _ (ih h)

variable [DecidableEq α]

/-- The keys of a canonical table begin at `lo`. -/
theorem Tbl.le_of_mem {d : Nat → α} {lo : Nat} {t : Tbl α} (h : Tbl.wfFrom d lo t = true) {e : Nat × α} (he : e ∈ t) :
    lo ≤ e.1 := by
  induction t generalizing lo with
  | nil => simp at he
  | cons x t ih =>
    obtain ⟨k, v⟩ := x
    obtain ⟨hk, -, ht⟩ := (Tbl.wfFrom_cons d lo k v t).1 h
    rcases List.mem_cons.1 he with rfl | he
    · exact hk
    · exact hk.trans (Nat.le_of_succ_le (ih ht he))

/-- What a canonical table lists is what it reads. -/
theorem Tbl.get_of_mem {d : Nat → α} {lo a : Nat} {t : Tbl α} {v : α} (e : α) (h : Tbl.wfFrom d lo t = true)
    (hm : (a, v) ∈ t) : Tbl.get e t a = v := by
  induction t generalizing lo with
  | nil => simp at hm
  | cons x t ih =>
    obtain ⟨k, w⟩ := x
    obtain ⟨-, -, ht⟩ := (Tbl.wfFrom_cons d lo k w t).1 h
    rcases List.mem_cons.1 hm with hm | hm
    · obtain ⟨rfl, rfl⟩ := Prod.mk.inj hm
      simp [Tbl.get]
    · have hk : k + 1 ≤ a := Tbl.le_of_mem ht hm
      simp only [Tbl.get, show ¬a < k by omega, show ¬a = k by omega, if_false]
      exact ih ht hm

/-- No key is listed twice. -/
theorem Tbl.nodup_keys {d : Nat → α} {lo : Nat} {t : Tbl α} (h : Tbl.wfFrom d lo t = true) : (t.map (·.1)).Nodup := by
  induction t generalizing lo with
  | nil => exact List.nodup_nil
  | cons x t ih =>
    obtain ⟨k, v⟩ := x
    obtain ⟨-, -, ht⟩ := (Tbl.wfFrom_cons d lo k v t).1 h
    refine List.nodup_cons.2 ⟨fun hm => ?_, ih ht⟩
    obtain ⟨e, he, hek⟩ := List.mem_map.1 hm
    have hle : k + 1 ≤ e.1 := Tbl.le_of_mem ht he
    have : e.1 = k := hek
    omega

end Sys2Proof

namespace Sys2Proof.Machine
variable {s t : State} {o : Nat}

/-! ### One update of a synchronisation object (R361, R363, R366, R369) -/

/-- The triggers stand in a canonical table. -/
def TrigsOk (s : State) : Prop := Tbl.wf (fun _ => ({} : TrigEntry)) s.syn.trigs = true

/-- The armed triggers on an object. -/
theorem mem_trigsOn (h : TrigsOk s) {i : Nat} : i ∈ trigsOn s o ↔ (s.trig i).armed = true ∧ (s.trig i).obj = o := by
  simp only [trigsOn, List.mem_map, List.mem_filter, Bool.and_eq_true, decide_eq_true_eq, Prod.exists, exists_and_right,
    exists_eq_right]
  constructor
  · rintro ⟨e, hm, hc⟩
    rw [State.trig, Tbl.get_of_mem {} h hm]
    exact hc
  · intro hc
    refine ⟨s.trig i, Tbl.mem_of_get_ne fun he => ?_, hc⟩
    have : (s.trig i).armed = false := congrArg TrigEntry.armed he
    simp [this] at hc

theorem nodup_trigsOn (h : TrigsOk s) (o : Nat) : (trigsOn s o).Nodup :=
  (Tbl.nodup_keys h).sublist (List.filter_sublist.map _)

theorem trigsOk_fireTrig (h : TrigsOk s) (i v : Nat) : TrigsOk (fireTrig s i v) :=
  Tbl.wf_set (fun _ => ({} : TrigEntry)) i _ h

theorem fireTrig_trig_self (h : TrigsOk s) (i v : Nat) : (fireTrig s i v).trig i = (s.trig i).fired v s.nowNs :=
  Tbl.get_set_self (fun _ => ({} : TrigEntry)) i _ h

theorem fireTrig_trig_ne (h : TrigsOk s) {i j : Nat} (v : Nat) (hj : j ≠ i) : (fireTrig s i v).trig j = s.trig j :=
  Tbl.get_set_ne (fun _ => ({} : TrigEntry)) i j _ _ h hj

/-- A trigger fires where it is armed and its condition holds of the new value (R369). -/
def fireIf (w : Nat) (t : State) (i : Nat) : State :=
  if (t.trig i).armed && (t.trig i).meets w then fireTrig t i w else t

/-- What one trigger becomes. -/
theorem fireIf_trig (h : TrigsOk s) (w i j : Nat) : (fireIf w s i).trig j =
    if i = j ∧ (s.trig j).armed = true ∧ (s.trig j).meets w = true then (s.trig j).fired w s.nowNs else s.trig j := by
  unfold fireIf
  by_cases hc : ((s.trig i).armed && (s.trig i).meets w) = true
  · rw [if_pos hc]
    by_cases hij : i = j
    · subst hij
      rw [fireTrig_trig_self h, if_pos ⟨rfl, by simpa using hc⟩]
    · rw [fireTrig_trig_ne h w (Ne.symm hij), if_neg fun hn => hij hn.1]
  · rw [if_neg hc]
    refine (if_neg fun hn => hc ?_).symm
    rw [hn.1]
    simpa using hn.2

theorem trigsOk_fireIf (h : TrigsOk s) (w i : Nat) : TrigsOk (fireIf w s i) := by
  unfold fireIf
  split
  · exact trigsOk_fireTrig h i w
  · exact h

theorem sameBut_fireIf (w : Nat) (s : State) (i : Nat) : SameBut [.syn] s (fireIf w s i) :=
  sameBut_ite (sameBut_fireTrig s i w) (SameBut.refl _ s)

@[simp] theorem fireIf_nowNs (w : Nat) (s : State) (i : Nat) : (fireIf w s i).nowNs = s.nowNs := by
  unfold State.nowNs; rw [show (fireIf w s i).time = s.time from sameBut_fireIf w s i .time (by decide)]

/-- Each trigger of a list fires once. -/
theorem foldl_fireIf_trig {l : List Nat} (hl : l.Nodup) (h : TrigsOk s) (w j : Nat) : (l.foldl (fireIf w) s).trig j =
    if j ∈ l ∧ (s.trig j).armed = true ∧ (s.trig j).meets w = true then (s.trig j).fired w s.nowNs else s.trig j := by
  induction l generalizing s with
  | nil => simp
  | cons i l ih =>
    obtain ⟨hi, hl⟩ := List.nodup_cons.1 hl
    rw [List.foldl_cons, ih hl (trigsOk_fireIf h w i), fireIf_nowNs, fireIf_trig h]
    by_cases hj : j ∈ l
    · have hij : ¬i = j := fun e => hi (e ▸ hj)
      simp [hj, hij]
    · by_cases hij : i = j
      · simp [hij, hj]
      · simp [hij, hj, Ne.symm hij]

@[simp] theorem fireIf_objs (w : Nat) (s : State) (i : Nat) : (fireIf w s i).syn.objs = s.syn.objs := by
  unfold fireIf; split <;> rfl

@[simp] theorem fireIf_poison (w : Nat) (s : State) (i : Nat) : (fireIf w s i).syn.poison = s.syn.poison := by
  unfold fireIf; split <;> rfl

theorem foldl_fireIf_objs (w : Nat) (l : List Nat) (s : State) : (l.foldl (fireIf w) s).syn.objs = s.syn.objs ∧
    (l.foldl (fireIf w) s).syn.poison = s.syn.poison := by
  induction l generalizing s with
  | nil => exact ⟨rfl, rfl⟩
  | cons i l ih => simpa using ih (fireIf w s i)

/-- The block in which object `o` holds `w`, what the access paths had staged of it is dropped, and the waits on it that
`w` ends have ended (R361, R363). -/
def putAndWoken (s : State) (o w : Nat) : State :=
  wakeWaits { s with
    syn := { s.syn with objs := s.syn.objs.set 0 o (BitVec.ofNat 64 w) }
    acc := { s.acc with mrp := s.acc.mrp.unstage (0x200000 + 8 * o), sideband := s.acc.sideband.unstage (0x200000 + 8 * o)
                        amm := s.acc.amm.unstage (0x200000 + 8 * o) } } o w

theorem synPut_eq (s : State) (o v : Nat) : synPut s o v =
    (trigsOn (putAndWoken s o (v % 2 ^ 64)) o).foldl (fireIf (v % 2 ^ 64)) (putAndWoken s o (v % 2 ^ 64)) := rfl

/-- The objects after an update, and what is poisoned. -/
theorem synPut_objs (s : State) (o v : Nat) : (synPut s o v).syn.objs = s.syn.objs.set 0 o (BitVec.ofNat 64 (v % 2 ^ 64)) ∧
    (synPut s o v).syn.poison = s.syn.poison := by
  rw [synPut_eq]
  exact foldl_fireIf_objs _ _ _

section
variable (hs : Tbl.wf (fun _ => (0 : Dword)) s.syn.objs = true) (v : Nat)
include hs

theorem synPut_obj_self (o : Nat) : (synPut s o v).obj o = v % 2 ^ 64 := by
  rw [State.obj, (synPut_objs s o v).1, Tbl.get_set_self (fun _ => (0 : Dword)) o _ hs, BitVec.toNat_ofNat, Nat.mod_mod]

theorem synPut_obj_ne {x : Nat} (hx : x ≠ o) : (synPut s o v).obj x = s.obj x := by
  rw [State.obj, (synPut_objs s o v).1, Tbl.get_set_ne (fun _ => (0 : Dword)) o x _ _ hs hx]
  rfl

end

/-- The waits on the object that the new value ends (R363). -/
theorem synPut_ctx (hs : TablesOk s) (o v k : Nat) : (synPut s o v).ctx k =
    if (s.ctx k).state = .waitSync ∧ (s.ctx k).waitObj = o ∧ waitHolds (s.ctx k).waitCond (v % 2 ^ 64) (s.ctx k).waitVal then
      (s.ctx k).endWait true else s.ctx k := by
  have hctxs : (synPut s o v).ctxs = (putAndWoken s o (v % 2 ^ 64)).ctxs :=
    SameBut.foldl (sameBut_fireIf (v % 2 ^ 64)) _ (putAndWoken s o (v % 2 ^ 64)) .ctxs (by decide)
  rw [State.ctx, hctxs]
  refine Tbl.get_mapAll _ (fun _ (c : Ctxt) => _) k hs.ctxs ?_
  exact if_neg fun hc => by simp at hc

/-- The armed triggers on the object whose condition the new value meets fire (R369). -/
theorem synPut_trig (hs : TrigsOk s) (o v i : Nat) : (synPut s o v).trig i =
    if (s.trig i).armed ∧ (s.trig i).obj = o ∧ (s.trig i).meets (v % 2 ^ 64) then (s.trig i).fired (v % 2 ^ 64) s.nowNs
    else s.trig i := by
  have hok : TrigsOk (putAndWoken s o (v % 2 ^ 64)) := hs
  have htrig : (putAndWoken s o (v % 2 ^ 64)).trig i = s.trig i := rfl
  have hnow : (putAndWoken s o (v % 2 ^ 64)).nowNs = s.nowNs := rfl
  rw [synPut_eq, foldl_fireIf_trig (nodup_trigsOn hok o) hok, htrig, hnow]
  refine if_congr ?_ rfl rfl
  rw [mem_trigsOn hok, htrig]
  tauto

/-- A poisoned object takes no add (R366). -/
theorem synAdd_poisoned (h : s.objPoisoned o = true) (n : Nat) : synAdd s o n = s := if_pos h

theorem synAdd_obj (hs : TablesOk s) (h : s.objPoisoned o = false) (n : Nat) :
    (synAdd s o n).obj o = (s.obj o + n) % 2 ^ 64 := by
  rw [synAdd, if_neg (by simp [h])]
  exact synPut_obj_self hs.objs _ o

/-- A set heals the object (R366). -/
theorem synSet_obj (hs : TablesOk s) (o v : Nat) :
    (synSet s o v).obj o = v % 2 ^ 64 ∧ (synSet s o v).objPoisoned o = false := by
  refine ⟨synPut_obj_self (s := { s with syn := { s.syn with poison := s.syn.poison.filter (· ≠ o) } }) hs.objs v o, ?_⟩
  rw [State.objPoisoned, synSet, (synPut_objs _ o v).2]
  simp

/-! ### Tokens (R122 to R125, R322, R378) -/

section
variable {k : Nat}

/-- A context in WAIT_TRIG takes the oldest token and is READY (R322, R342). -/
theorem wakeTrig_waiting (hc : (s.ctx k).state = .waitTrig) {o : Nat} {rest : List Nat} (hf : (s.ctx k).fifo = o :: rest) :
    wakeTrig s k = s.setCtx k { (s.ctx k).setG (s.ctx k).waitDst o with state := .ready, fifo := rest } := by
  simp [wakeTrig, hc, hf]

theorem wakeTrig_other (hc : (s.ctx k).state ≠ .waitTrig) : wakeTrig s k = s := by
  unfold wakeTrig
  dsimp only
  split
  · rename_i h _
    exact absurd h hc
  · rfl

theorem sameBut_wakeTrig (s : State) (k : Nat) : SameBut [.ctxs] s (wakeTrig s k) := by
  unfold wakeTrig
  dsimp only
  split
  · exact sameBut_setCtx _ _ _
  · exact SameBut.refl _ s

/-- The block in which context `k` has token `o` at the end of its FIFO. -/
def withToken (s : State) (k o : Nat) : State := s.setCtx k { s.ctx k with fifo := (s.ctx k).fifo ++ [o] }

theorem tokenTo_discards (h : trgDiscards s k = true) (o : Nat) :
    tokenTo s k o = report (s.bump (TRG_CTX.DISCARD k) 1) 0x12 0 0x02 k := if_pos h

section
variable (h : trgDiscards s k = false)
include h

theorem tokenTo_drops (hf : 64 ≤ (s.ctx k).fifo.length) (o : Nat) : tokenTo s k o =
    report (synAdd (s.wr (TRG_CTX.OVERFLOW k) 1) (errorCounterOf k) 1) 0x12 2 0x01 k := by
  rw [tokenTo, if_neg (by simp [h]), if_pos hf]

theorem tokenTo_queues (hf : (s.ctx k).fifo.length < 64) (o : Nat) :
    tokenTo s k o = trgUpdate (wakeTrig (withToken s k o) k) := by
  rw [tokenTo, if_neg (by simp [h]), if_neg (Nat.not_le.2 hf)]
  rfl

end

@[simp] theorem trgUpdate_ctx (s : State) (k : Nat) : (trgUpdate s).ctx k = s.ctx k := by
  unfold State.ctx; rw [show (trgUpdate s).ctxs = s.ctxs from sameBut_trgUpdate s .ctxs (by decide)]

/-- What a token that is queued leaves of its context. -/
theorem tokenTo_ctx_queued (hs : TablesOk s) (h : trgDiscards s k = false) (hf : (s.ctx k).fifo.length < 64)
    (hw : (s.ctx k).state ≠ .waitTrig) (o : Nat) :
    (tokenTo s k o).ctx k = { s.ctx k with fifo := (s.ctx k).fifo ++ [o] } := by
  have hc : (withToken s k o).ctx k = _ := ctx_setCtx_self hs k _
  rw [tokenTo_queues h hf, trgUpdate_ctx, wakeTrig_other (by rw [hc]; exact hw), hc]

/-- And of one that waits for it. -/
theorem tokenTo_ctx_taken (hs : TablesOk s) (h : trgDiscards s k = false) (hf : (s.ctx k).fifo = [])
    (hw : (s.ctx k).state = .waitTrig) (o : Nat) :
    (tokenTo s k o).ctx k = { (s.ctx k).setG (s.ctx k).waitDst o with state := .ready, fifo := [] } := by
  have hc : (withToken s k o).ctx k = _ := ctx_setCtx_self hs k _
  have hok : TablesOk (withToken s k o) := tablesOk_setCtx hs k _ (ctx_wf hs k)
  rw [tokenTo_queues h (by rw [hf]; decide), trgUpdate_ctx,
    wakeTrig_waiting (by rw [hc]; exact hw) (by rw [hc]; exact congrArg (· ++ [o]) hf), ctx_setCtx_self hok, hc]
  unfold Ctxt.setG
  split <;> rfl

/-- Whatever becomes of a token, the count of late ones stands. -/
theorem tokenTo_late {n : Nat} (h : Reads (TRG_CTX.LATE k) n s) (o : Nat) : Reads (TRG_CTX.LATE k) n (tokenTo s k o) := by
  have hwr : ∀ f v, f = TRG_CTX.DISCARD k ∨ f = TRG_CTX.OVERFLOW k → Reads (TRG_CTX.LATE k) n (s.wr f v) := by
    rintro f v (rfl | rfl)
    · exact reads_wr_disjoint h rfl (.inl (by simp [TRG_CTX.LATE, TRG_CTX.DISCARD])) (by simp [TRG_CTX.DISCARD])
        (by simp [TRG_CTX.DISCARD])
    · exact reads_wr_disjoint h rfl (.inr (by simp [TRG_CTX.LATE, TRG_CTX.OVERFLOW])) (by simp [TRG_CTX.OVERFLOW])
        (by simp [TRG_CTX.OVERFLOW])
  unfold tokenTo
  refine reads_ite (reads_same (hwr _ _ (.inl rfl)) (report_regs _ _ _ _ _))
    (reads_ite (reads_same (hwr _ 1 (.inr rfl)) ((report_regs _ _ _ _ _).trans ?_)) (reads_same h ?_))
  · exact sameBut_synAdd _ _ _ .regs (by decide)
  · exact (sameBut_trgUpdate _ .regs (by decide)).trans (sameBut_wakeTrig _ _ .regs (by decide))

end

theorem ctx_bump (s : State) (f : Fld) (n k : Nat) : (s.bump f n).ctx k = s.ctx k := rfl

theorem rd_report (s : State) (a b c d : Nat) (f : Fld) : (report s a b c d).rd f = s.rd f := rfl

theorem drowseExit_trgDiscards (hs : TablesOk s) (k : Nat) : trgDiscards (drowseExit s) k = trgDiscards s k := by
  have hne : (MRT_CTX_CFG1.CODE_LEN k).addr ≠ CSP_STATUS.STATE.addr := by
    simp [MRT_CTX_CFG1.CODE_LEN, CSP_STATUS.STATE]; omega
  unfold trgDiscards; rw [drowseExit_rd hs _ hne, drowseExit_ctx]

theorem trgDiscards_bump_late (hs : TablesOk s) (k n : Nat) : trgDiscards (s.bump (TRG_CTX.LATE k) n) k = trgDiscards s k := by
  have hne : (MRT_CTX_CFG1.CODE_LEN k).addr ≠ (TRG_CTX.LATE k).addr := by
    simp [MRT_CTX_CFG1.CODE_LEN, TRG_CTX.LATE]; omega
  unfold trgDiscards
  rw [ctx_bump, State.bump, State.rd_wr_ne s _ _ _ hs.regs hne]

/-- The block, awake, that takes a token: one that comes more than 8 fc after TRG_READY fell counts in LATE (R123). -/
def tokenState (s : State) (k late : Nat) : State :=
  if (!(drowseExit s).pins.trgReady && decide (8 < late)) = true then (drowseExit s).bump (TRG_CTX.LATE k) 1 else drowseExit s

theorem exec_trgToken (hs : TablesOk s) (hv : s.pins.fcValid = true) (hi : s.initDone = true) (k : Ctx) (o : ObjNum) (late : Nat) :
    exec (.trgToken k o late) s = .next (tokenTo (tokenState s k late) k o) := by
  refine congrArg Host.Outcome.next (if_neg ?_)
  simp [drowseExit_initDone hs, hv, hi]

/-- A token that is not late finds the block as it stands. -/
theorem tokenState_zero (s : State) (k : Nat) : tokenState s k 0 = drowseExit s := by simp [tokenState]

section
variable (hs : TablesOk s) (k late : Nat)
include hs

theorem tablesOk_tokenState : TablesOk (tokenState s k late) := by
  unfold tokenState
  split
  · exact tablesOk_bump (tablesOk_drowseExit hs) _ _
  · exact tablesOk_drowseExit hs

theorem tokenState_trgDiscards : trgDiscards (tokenState s k late) k = trgDiscards s k := by
  unfold tokenState
  split
  · rw [trgDiscards_bump_late (tablesOk_drowseExit hs), drowseExit_trgDiscards hs]
  · exact drowseExit_trgDiscards hs k

omit hs in
theorem tokenState_ctx : (tokenState s k late).ctx k = s.ctx k := by
  unfold tokenState
  split
  · rw [ctx_bump, drowseExit_ctx]
  · exact drowseExit_ctx s k

theorem tokenState_late (hr : s.pins.trgReady = false) (hl : 8 < late) :
    Reads (TRG_CTX.LATE k) (min (s.rd (TRG_CTX.LATE k) + 1) 255) (tokenState s k late) := by
  have hne : (TRG_CTX.LATE k).addr ≠ CSP_STATUS.STATE.addr := by simp [TRG_CTX.LATE, CSP_STATUS.STATE]; omega
  have hok := (tablesOk_drowseExit hs).regs
  rw [tokenState, if_pos (by simp [hr, hl]), ← drowseExit_rd hs _ hne]
  exact ⟨State.wf_bump _ _ _ hok, State.rd_bump_self _ (TRG_CTX.LATE k) 1 hok (by simp [TRG_CTX.LATE]) (by simp [TRG_CTX.LATE])⟩

end

/-! ### The thresholds of the Trigger Port (R126) -/

/-- The pair of a legal write of TRG_CFG. -/
abbrev ThresholdsOk (w : Word) : Prop :=
  1 ≤ bitsOf w.toNat 13 8 ∧ bitsOf w.toNat 13 8 ≤ bitsOf w.toNat 5 0 ∧ bitsOf w.toNat 5 0 ≤ 56

/-- The block in which the thresholds of a write have been taken. -/
def thresholdsPut (s : State) (w : Word) : State :=
  if ThresholdsOk w then
    (s.wr TRG_CFG.LOWAT (bitsOf w.toNat 13 8)).wr TRG_CFG.HIWAT (bitsOf w.toNat 5 0) else s

/-- The block in which the wire of a write has been taken; 13 and 14 are none. -/
def wirePut (s : State) (w : Word) : State :=
  if bitsOf w.toNat 19 16 = 13 ∨ bitsOf w.toNat 19 16 = 14 then s else s.wr TRG_CFG.IRQ_WIRE (bitsOf w.toNat 19 16)

theorem trgCfgWrite_eq (s : State) (w : Word) : trgCfgWrite s w = trgUpdate (wirePut (thresholdsPut s w) w) := rfl

section
variable (hs : Tbl.wf resetWord s.regs = true) (w : Word)
include hs

theorem wf_thresholdsPut : Tbl.wf resetWord (thresholdsPut s w).regs = true := by
  unfold thresholdsPut
  split
  · exact State.wf_wr _ _ _ (State.wf_wr _ _ _ hs)
  · exact hs

theorem thresholdsPut_legal (h : ThresholdsOk w) : (thresholdsPut s w).rd TRG_CFG.LOWAT = bitsOf w.toNat 13 8 ∧
    (thresholdsPut s w).rd TRG_CFG.HIWAT = bitsOf w.toNat 5 0 := by
  have hlo := bitsOf_lt w.toNat 13 8
  have hhi := bitsOf_lt w.toNat 5 0
  rw [thresholdsPut, if_pos h]
  constructor
  · rw [State.rd_wr_disjoint _ TRG_CFG.HIWAT TRG_CFG.LOWAT _ (State.wf_wr _ _ _ hs) (by decide) (by decide) rfl (by decide),
      State.rd_wr_self _ TRG_CFG.LOWAT _ hs (by decide) (by decide)]
    exact Nat.mod_eq_of_lt hlo
  · rw [State.rd_wr_self _ TRG_CFG.HIWAT _ (State.wf_wr _ _ _ hs) (by decide) (by decide)]
    exact Nat.mod_eq_of_lt hhi

theorem thresholdsPut_wire : (thresholdsPut s w).rd TRG_CFG.IRQ_WIRE = s.rd TRG_CFG.IRQ_WIRE := by
  unfold thresholdsPut
  split
  · rw [State.rd_wr_disjoint _ TRG_CFG.HIWAT TRG_CFG.IRQ_WIRE _ (State.wf_wr _ _ _ hs) (by decide) (by decide) rfl (by decide),
      State.rd_wr_disjoint _ TRG_CFG.LOWAT TRG_CFG.IRQ_WIRE _ hs (by decide) (by decide) rfl (by decide)]
  · rfl

theorem wirePut_thresholds {f : Fld} (hf : f = TRG_CFG.LOWAT ∨ f = TRG_CFG.HIWAT) : (wirePut s w).rd f = s.rd f := by
  have hput : ∀ v, (s.wr TRG_CFG.IRQ_WIRE v).rd f = s.rd f := fun v => by
    rcases hf with rfl | rfl <;> exact State.rd_wr_disjoint _ _ _ _ hs (by decide) (by decide) rfl (by decide)
  unfold wirePut
  split
  · rfl
  · exact hput _

theorem wirePut_wire : (wirePut s w).rd TRG_CFG.IRQ_WIRE =
    if bitsOf w.toNat 19 16 = 13 ∨ bitsOf w.toNat 19 16 = 14 then s.rd TRG_CFG.IRQ_WIRE else bitsOf w.toNat 19 16 := by
  have hwire := bitsOf_lt w.toNat 19 16
  unfold wirePut
  split
  · rfl
  · rw [State.rd_wr_self _ TRG_CFG.IRQ_WIRE _ hs (by decide) (by decide)]
    exact Nat.mod_eq_of_lt hwire

end

end Sys2Proof.Machine

namespace Sys2Proof.Proofs
open Sys2Proof.Machine

/-- Settles O25: an update is `synPut`'s; a token is taken by `tokenTo` in the block that has left Drowse and counted it
where it is late; a write of TRG_CFG puts its two parts. -/
theorem syncAndTriggerPort : Obligations.SyncAndTriggerPort := by
  unfold Obligations.SyncAndTriggerPort
  refine ⟨fun s o hs => ⟨?_, fun n h => synAdd_poisoned h n, fun n h => synAdd_obj hs h n, synSet_obj hs o,
    fun x a ho ha => ?_, fun x a ho ha => ?_⟩, fun s k o hs hv hi => ?_, fun s w hs ho => ?_⟩
  · rintro v t rfl
    exact ⟨synPut_obj_self hs.objs v o, fun x hx => synPut_obj_ne hs.objs v hx, synPut_ctx hs o v, synPut_trig hs.trigs o v,
      sameBut_synPut s o v⟩
  · exact congrArg Host.Outcome.next ((viaFabric_open s _ ho).trans (if_neg ha))
  · exact congrArg Host.Outcome.next ((viaFabric_open s _ ho).trans (if_pos ha))
  · have hex := exec_trgToken hs hv hi k o
    have htok := tokenState_trgDiscards hs k
    have hctx := tokenState_ctx (s := s) k
    have hok := tablesOk_tokenState hs k
    refine ⟨fun n hr hl => ⟨_, hex n, (tokenTo_late (tokenState_late hs k n hr hl) o).2⟩, fun hd => ⟨_, hex 0, ?_⟩,
      fun hd hf => ⟨_, hex 0, ?_⟩, fun hd hf hw n => ⟨_, hex n, ?_⟩, fun hd hf hw n => ⟨_, hex n, ?_⟩⟩
    · have hne : (TRG_CTX.DISCARD k).addr ≠ CSP_STATUS.STATE.addr := by simp [TRG_CTX.DISCARD, CSP_STATUS.STATE]; omega
      rw [tokenState_zero, tokenTo_discards (by rw [drowseExit_trgDiscards hs, hd])]
      refine ⟨by rw [report_ctxs, State.bump_ctxs, drowseExit_ctxs], ?_,
        by rw [report_waiting, State.bump_hhg, drowseExit_hhg]⟩
      rw [rd_report, ← drowseExit_rd hs _ hne]
      exact State.rd_bump_self _ (TRG_CTX.DISCARD k) 1 (tablesOk_drowseExit hs).regs (by simp [TRG_CTX.DISCARD])
        (by simp [TRG_CTX.DISCARD])
    · rw [tokenState_zero, tokenTo_drops (by rw [drowseExit_trgDiscards hs, hd]) (by rw [drowseExit_ctx]; exact hf)]
      have hsyn := sameBut_synAdd ((drowseExit s).wr (TRG_CTX.OVERFLOW k) 1) (errorCounterOf k) 1
      refine ⟨?_, ?_⟩
      · have hr : Reads (TRG_CTX.OVERFLOW k) 1 ((drowseExit s).wr (TRG_CTX.OVERFLOW k) 1) :=
          ⟨State.wf_wr _ _ _ (tablesOk_drowseExit hs).regs,
            State.rd_wr_self _ _ _ (tablesOk_drowseExit hs).regs (by simp [TRG_CTX.OVERFLOW]) (by simp [TRG_CTX.OVERFLOW])⟩
        rw [State.on, rd_report, (reads_same hr (hsyn .regs (by decide))).2]
        rfl
      · rw [report_waiting, show (synAdd _ _ _).hhg = _ from hsyn .hhg (by decide), State.wr_hhg, drowseExit_hhg]
    · rw [← hctx n] at hf hw ⊢
      exact tokenTo_ctx_queued (hok n) ((htok n).trans hd) hf hw o
    · rw [← hctx n] at hf hw ⊢
      exact tokenTo_ctx_taken (hok n) ((htok n).trans hd) hf hw o
  · have hu := (tablesOk_drowseExit hs).regs
    have hp := wf_thresholdsPut hu w
    have hrd : ∀ f : Fld, f.addr = TRG_CFG.LOWAT.addr → (drowseExit s).rd f = s.rd f := fun f hf =>
      drowseExit_rd hs f (by rw [hf]; decide)
    refine ⟨_, congrArg Host.Outcome.next (viaFabric_open s _ ho), ?_⟩
    simp only [trgCfgWrite_eq, trgUpdate_rd]
    rw [wirePut_thresholds hp w (.inl rfl), wirePut_thresholds hp w (.inr rfl), wirePut_wire hp, thresholdsPut_wire hu,
      hrd TRG_CFG.IRQ_WIRE rfl]
    refine ⟨thresholdsPut_legal hu w, fun hbad => ?_, rfl⟩
    rw [thresholdsPut, if_neg hbad]
    exact ⟨hrd TRG_CFG.LOWAT rfl, hrd TRG_CFG.HIWAT rfl⟩

end Sys2Proof.Proofs
end

section
namespace Sys2Proof.Machine
variable {s u : State} {g : Nat}

/-! ### Commands to Yarrow by YAR_GCMD (R390, R392, R426, R610) -/

/-- A command given while one runs is ignored (R426). -/
theorem viaFirmware_busy {busy status : Fld} (f : State → State) (ho : s.fabricOpen = true)
    (hb : (drowseExit s).on busy = true) : viaFirmware busy status s f = drowseExit s :=
  (viaFabric_open s _ ho).trans (if_pos hb)

section
variable {busy status : Fld} (f : State → State) (ho : s.fabricOpen = true) (hb : (drowseExit s).on busy = false)
include ho hb

theorem viaFirmware_restarting (hf : (drowseExit s).on BDG_STATUS.FW_RESTART = true) :
    viaFirmware busy status s f = (drowseExit s).wr status stBUSY :=
  (viaFabric_open s _ ho).trans ((if_neg (by simp [hb])).trans (if_pos hf))

theorem viaFirmware_runs (hf : (drowseExit s).on BDG_STATUS.FW_RESTART = false) : viaFirmware busy status s f = f (drowseExit s) :=
  (viaFabric_open s _ ho).trans ((if_neg (by simp [hb])).trans (if_neg (by simp [hf])))

end

section
variable (h : Tbl.wf resetWord s.regs = true)
include h

theorem wf_withYar (y : Yarrow) : Tbl.wf resetWord ({ s with yar := y } : State).regs = true := h

theorem rd_gcmd_status {st : Nat} (hst : st < 256) : (s.wr YAR_GCMD.STATUS st).rd YAR_GCMD.STATUS = st :=
  (State.rd_wr_self s YAR_GCMD.STATUS st h (by decide) (by decide)).trans (Nat.mod_eq_of_lt hst)

/-- The status that a command leaves stands beside the group's number (R426). -/
theorem rd_gcmd_group (st : Nat) (hg : g < 4096) : ((s.wr YAR_GCMD.GROUP g).wr YAR_GCMD.STATUS st).rd YAR_GCMD.GROUP = g := by
  rw [State.rd_wr_disjoint _ YAR_GCMD.STATUS YAR_GCMD.GROUP st (State.wf_wr s _ _ h) (by decide) (by decide) (by decide) (by decide),
    State.rd_wr_self s YAR_GCMD.GROUP g h (by decide) (by decide)]
  exact Nat.mod_eq_of_lt hg

/-- The end of a command leaves its status, and the command register idle. -/
theorem gcmdEnd_reads {st : Nat} (hst : st < 256) :
    (gcmdEnd s st).rd YAR_GCMD.STATUS = st ∧ (gcmdEnd s st).on YAR_GCMD.BUSY = false := by
  have hw := State.wf_wr s YAR_GCMD.BUSY 0 h
  have hb : (gcmdEnd s st).rd YAR_GCMD.BUSY = 0 := by
    rw [gcmdEnd, State.rd_wr_disjoint _ YAR_GCMD.STATUS YAR_GCMD.BUSY st hw (by decide) (by decide) (by decide) (by decide),
      State.rd_wr_self s YAR_GCMD.BUSY 0 h (by decide) (by decide), Nat.zero_mod]
  exact ⟨rd_gcmd_status hw hst, by simp [State.on, hb]⟩

end

theorem gcmdEnd_yar (s : State) (st : Nat) : (gcmdEnd s st).yar = s.yar := by rw [gcmdEnd, State.wr_yar, State.wr_yar]

/-! ### DESCRIPTOR_CREATE, DESTROY and CANCEL -/

/-- Yarrow without group `g` and without what came early for it (R392). -/
def withoutGroup (y : Yarrow) (g : Nat) : Yarrow :=
  { y with
    groups := y.groups.set {} g {}
    grants := y.grants.filter fun e => e.g ≠ g
    early := y.early.filter fun e => e.g ≠ g
    stoats := y.stoats.filter fun o => o.g ≠ g }

section
variable (hb : s.on YAR_GCMD.BUSY = false)
include hb

theorem groupCreate_taken (hi : s.initDone = true) (hg : (s.group g).state ≠ 0) (priv : Bool) (a : Nat) :
    groupCreate s g priv a = (s.wr YAR_GCMD.GROUP g).wr YAR_GCMD.STATUS stINTERNAL :=
  (if_neg (by simp [hb])).trans ((if_neg (by simp [hi])).trans (if_pos hg))

theorem groupCreate_reads (hi : s.initDone = true) (hg : (s.group g).state = 0) (priv : Bool) (a : Nat) :
    groupCreate s g priv a = hmpRead { (s.wr YAR_GCMD.GROUP g).wr YAR_GCMD.BUSY 1 with
      yar := { s.yar with creating := some { g := g, priv := priv } } } 6 a 128 .groupImage :=
  (if_neg (by simp [hb])).trans ((if_neg (by simp [hi])).trans (if_neg (by simp [hg])))

theorem groupDestroy_busy (h : stepsOut s g ≠ 0) :
    groupDestroy s g = (s.wr YAR_GCMD.GROUP g).wr YAR_GCMD.STATUS stBUSY :=
  (if_neg (by simp [hb])).trans (if_pos h)

theorem groupDestroy_gone (h : stepsOut s g = 0) : groupDestroy s g =
    ({ s.wr YAR_GCMD.GROUP g with yar := withoutGroup (s.wr YAR_GCMD.GROUP g).yar g } : State).wr YAR_GCMD.STATUS stOK :=
  (if_neg (by simp [hb])).trans (if_neg (by simp [h]))

theorem groupDestroy_yar (h : stepsOut s g = 0) : (groupDestroy s g).yar = withoutGroup s.yar g := by
  rw [groupDestroy_gone hb h, State.wr_yar, State.wr_yar]

end

/-- The group is gone, and no other one. -/
theorem withoutGroup_groups {y : Yarrow} (h : Tbl.wf (fun _ => ({} : Group)) y.groups = true) (g : Nat) :
    (withoutGroup y g).groups.get {} g = {} ∧ ∀ j ≠ g, (withoutGroup y g).groups.get {} j = y.groups.get {} j :=
  ⟨Tbl.get_set_self (fun _ => ({} : Group)) g {} h, fun j hj => Tbl.get_set_ne (fun _ => ({} : Group)) g j {} {} h hj⟩

theorem withoutGroup_early (y : Yarrow) (g : Nat) : (∀ e ∈ (withoutGroup y g).grants, e.g ≠ g) ∧
    (∀ e ∈ (withoutGroup y g).early, e.g ≠ g) ∧ ∀ o ∈ (withoutGroup y g).stoats, o.g ≠ g :=
  ⟨fun _ he => of_decide_eq_true (List.mem_filter.1 he).2, fun _ he => of_decide_eq_true (List.mem_filter.1 he).2,
    fun _ he => of_decide_eq_true (List.mem_filter.1 he).2⟩

/-- MRP may not cancel a privileged group (R129). -/
theorem groupCancel_privileged (hp : (s.group g).priv = true) : groupCancel s g true = s := by
  simp [groupCancel, hp]

/-- The numbers of the group's outstanding steps: begun ones, Stoat steps, and those that wait in a back-end queue. -/
def stepNumbers (s : State) (g : Nat) : List Nat :=
  (s.yar.steps.filter fun e => e.2.g = g).map (·.2.step) ++
    (s.yar.stoats.filter fun o => o.g = g && o.be.isSome).map (·.step) ++ (waitingSteps s g).map (·.2.step)

/-- CANCEL ends every step of the group; one that had a step aborts where it is privileged (R392). -/
theorem groupCancel_ends (hb : s.on YAR_GCMD.BUSY = false) {mrp : Bool} (hp : mrp = false ∨ (s.group g).priv = false) : groupCancel s g mrp =
    settle ((match stepNumbers s g with
      | [] => endAll (s.wr YAR_GCMD.GROUP g) g stTIMEOUT
      | x :: _ => abortIfPriv (endAll (s.wr YAR_GCMD.GROUP g) g stTIMEOUT) g x stTIMEOUT).wr YAR_GCMD.STATUS stOK) := by
  have hc : ¬(s.on YAR_GCMD.BUSY ∨ (mrp ∧ (s.group g).priv)) := by
    rcases hp with hp | hp <;> simp [hb, hp]
  exact if_neg hc

/-! ### The reads of a creation (R388, R390) -/

theorem winCheck_lt (v : Win) (pkey : Nat) (need : Need) (off len : Nat) : winCheck v pkey need off len < 256 := by
  unfold winCheck
  split_ifs <;> decide

theorem localCheck_lt (v : Win) (pkey : Nat) (need : Need) (off len : Nat) : localCheck v pkey need off len < 256 := by
  unfold localCheck
  dsimp only
  split
  · decide
  · exact winCheck_lt _ _ _ _ _

theorem imageStatus_lt (s : State) (priv : Bool) (v : Group) : imageStatus s priv v < 256 := by
  unfold imageStatus
  split_ifs
  · decide
  · decide
  · decide
  · decide
  · decide
  · exact localCheck_lt _ _ _ _ _

theorem Xfer.status_lt (x : Xfer) : x.status < 256 := by
  unfold Xfer.status
  split_ifs <;> decide

/-- The block in which a creation has taken its read, and is over. -/
def creationOver (s : State) (x : Xfer) : State :=
  { s with hmp := { s.hmp with returned := s.hmp.returned.erase x }, yar := { s.yar with creating := none } }

/-- The block in which the group of a creation stands (R388); one with a Foxglove stage powers the island up (R487). -/
def groupMade (s : State) (c : GroupCreate) (x : Xfer) (im : List Byte) : State :=
  let s1 := (creationOver s x).setGroup c.g { state := 1, image := im }
  if ({ state := 1, image := im } : Group).foxStage ≠ 0xFFFF then foxPower s1 else s1

section
variable {c : GroupCreate} {x : Xfer} (hc : s.yar.creating = some c)
  (hx : s.hmp.returned.find? (fun x => x.k = .groupImage || x.k = .groupList) = some x)
include hc hx

/-- A read that failed ends the creation with its status. -/
theorem createImageRead_failed (h : x.status ≠ stOK) : createImageRead s = gcmdEnd (creationOver s x) x.status := by
  simp only [createImageRead, hc, hx, if_pos h]
  rfl

variable (h : x.status = stOK)
include h

theorem createImageRead_refused (hi : c.image = none) (hst : imageStatus s c.priv { image := x.data } ≠ stOK) :
    createImageRead s = gcmdEnd (creationOver s x) (imageStatus s c.priv { image := x.data }) := by
  simp only [createImageRead, hc, hx, if_neg (not_not.2 h), hi, if_pos hst]
  rfl

variable {im : List Byte} (hi : c.image = some im)
include hi

/-- The member list names another node. -/
theorem createImageRead_stranger (hn : leNat x.data ≠ s.node) : createImageRead s = gcmdEnd (creationOver s x) stINTERNAL := by
  simp only [createImageRead, hc, hx, if_neg (not_not.2 h), hi, if_pos hn]
  rfl

theorem createImageRead_member (hn : leNat x.data = s.node) : createImageRead s = gcmdEnd (groupMade s c x im) stOK := by
  simp only [createImageRead, hc, hx, if_neg (not_not.2 h), hi, if_neg (not_not.2 hn)]
  rfl

end

theorem sameBut_foxPower (s : State) : SameBut [.fox] s (foxPower s) := by
  intro p hp
  unfold foxPower
  split
  · cases p <;> simp_all [Component.same]
  · exact SameBut.refl _ s p hp

theorem sameBut_groupMade (s : State) (c : GroupCreate) (x : Xfer) (im : List Byte) :
    SameBut [.fox] ((creationOver s x).setGroup c.g { state := 1, image := im }) (groupMade s c x im) :=
  sameBut_ite (sameBut_foxPower _) (SameBut.refl _ _)

end Sys2Proof.Machine

namespace Sys2Proof.Proofs
open Sys2Proof.Machine

/-- Settles O52: each command of Yarrow by its own lemma; then a creation's reads, whose end is the command's. -/
theorem groupCommands : Obligations.GroupCommands := by
  unfold Obligations.GroupCommands
  refine ⟨?_, ?_, ?_⟩
  · rintro s u g v ho rfl hs rfl hb hf hi
    have hu : TablesOk (drowseExit s) := tablesOk_drowseExit hs
    have hcreate : exec (.descriptorCreate g) s = .next (groupCreate (drowseExit s) g false (gargAddr (drowseExit s))) :=
      congrArg Host.Outcome.next (viaFirmware_runs (fun t => groupCreate t g false (gargAddr t)) ho hb hf)
    have hdestroy : exec (.destroy g) s = .next (groupDestroy (drowseExit s) g) :=
      congrArg Host.Outcome.next (viaFirmware_runs (fun t => groupDestroy t g) ho hb hf)
    have hcancel : ∀ b, exec (.cancel g b) s = .next (groupCancel (drowseExit s) g b) := fun b =>
      congrArg Host.Outcome.next (viaFirmware_runs (fun t => groupCancel t g b) ho hb hf)
    refine ⟨fun hg => ?_, fun hg => ?_, fun hn => ?_, fun hn => ?_, fun hp => ?_, ?_⟩
    · refine ⟨_, hcreate.trans (congrArg Host.Outcome.next (groupCreate_taken hb hi hg _ _)), ?_, ?_, ?_⟩
      · exact rd_gcmd_status (State.wf_wr _ _ _ hu.regs) (by decide)
      · exact rd_gcmd_group hu.regs _ g.isLt
      · rw [State.wr_yar, State.wr_yar]
    · exact hcreate.trans (congrArg Host.Outcome.next (groupCreate_reads hb hi hg _ _))
    · refine ⟨_, hdestroy.trans (congrArg Host.Outcome.next (groupDestroy_busy hb hn)), ?_, ?_⟩
      · exact rd_gcmd_status (State.wf_wr _ _ _ hu.regs) (by decide)
      · rw [State.wr_yar, State.wr_yar]
    · obtain ⟨hgone, hothers⟩ := withoutGroup_groups hu.groups g
      obtain ⟨hgrants, hearly, hstoats⟩ := withoutGroup_early (drowseExit s).yar g
      have hy := groupDestroy_yar hb hn
      refine ⟨_, hdestroy, ?_, ?_, ?_, ?_, ?_, fun j hj => ?_⟩
      · rw [groupDestroy_gone hb hn]
        exact rd_gcmd_status (wf_withYar (State.wf_wr _ _ _ hu.regs) _) (by decide)
      · rw [State.group, hy, hgone]
      · rw [hy]; exact hgrants
      · rw [hy]; exact hearly
      · rw [hy]; exact hstoats
      · rw [State.group, hy, hothers j hj, State.group]
    · rw [hcancel, groupCancel_privileged hp]
    · rintro b n w hp rfl hn
      have hend := groupCancel_ends hb hp
      rw [show stepNumbers (drowseExit s) g = n from hn.symm] at hend
      refine ⟨fun h0 => ?_, fun x rest hx => ?_⟩
      · rw [hcancel, hend, h0]
      · rw [hcancel, hend, hx]
  · rintro s u g ho rfl
    refine ⟨fun hb => ?_, fun hb hf v hv => ?_⟩
    · exact ⟨congrArg Host.Outcome.next (viaFirmware_busy _ ho hb), congrArg Host.Outcome.next (viaFirmware_busy _ ho hb),
        congrArg Host.Outcome.next (viaFirmware_busy _ ho hb)⟩
    · subst hv
      exact ⟨congrArg Host.Outcome.next (viaFirmware_restarting _ ho hb hf),
        congrArg Host.Outcome.next (viaFirmware_restarting _ ho hb hf),
        congrArg Host.Outcome.next (viaFirmware_restarting _ ho hb hf)⟩
  · intro s c x hs hc hx
    have hover : ∀ {st : Nat}, st < 256 → createImageRead s = gcmdEnd (creationOver s x) st →
        Gives .createImageRead s fun t => t.rd YAR_GCMD.STATUS = st ∧ t.on YAR_GCMD.BUSY = false ∧
          t.yar = { s.yar with creating := none } := fun hst he =>
      have ⟨hr, hbusy⟩ := gcmdEnd_reads (s := creationOver s x) hs.regs hst
      ⟨_, congrArg Host.Outcome.next he, hr, hbusy, gcmdEnd_yar _ _⟩
    refine ⟨fun h => hover x.status_lt (createImageRead_failed hc hx h), fun h hi st hst hne => ?_, fun h im hi hn => ?_,
      fun h im hi hn => ?_⟩
    · subst hst
      obtain ⟨t, ht, hr, -, hy⟩ := hover (imageStatus_lt _ _ _) (createImageRead_refused hc hx h hi hne)
      exact ⟨t, ht, hr, hy⟩
    · obtain ⟨t, ht, hr, -, hy⟩ := hover (by decide) (createImageRead_stranger hc hx h hi hn)
      exact ⟨t, ht, hr, hy⟩
    · have hsame := sameBut_groupMade s c x im
      have hw : Tbl.wf resetWord (groupMade s c x im).regs = true := by
        rw [show (groupMade s c x im).regs = s.regs from hsame .regs (by decide)]
        exact hs.regs
      have hy : (groupMade s c x im).yar = ((creationOver s x).setGroup c.g { state := 1, image := im }).yar :=
        hsame .yar (by decide)
      obtain ⟨hr, hbusy⟩ := gcmdEnd_reads hw (st := stOK) (by decide)
      refine ⟨_, congrArg Host.Outcome.next (createImageRead_member hc hx h hi hn), hr, hbusy, ?_, ?_⟩
      · rw [State.group, gcmdEnd_yar, hy]
        exact Tbl.get_set_self (fun _ => ({} : Group)) c.g { state := 1, image := im } hs.groups
      · rw [gcmdEnd_yar, hy]
        rfl

end Sys2Proof.Proofs
end

section
namespace Sys2Proof.Machine
variable {s t : State} {p k : Nat} {x : List Byte}

/-! ### A field just written -/

/-- A field just written reads the value, where it fits. -/
theorem reads_wr_self {f : Fld} {v : Nat} (h : Tbl.wf resetWord s.regs = true) (hf : f.lo ≤ f.hi + 1 ∧ f.hi < 32)
    (hv : v < 2 ^ (f.hi + 1 - f.lo)) : Reads f v (s.wr f v) :=
  ⟨State.wf_wr s f v h, (State.rd_wr_self s f v h hf.1 hf.2).trans (Nat.mod_eq_of_lt hv)⟩

theorem Reads.on {f : Fld} {v : Nat} (h : Reads f v s) : s.on f = decide (v ≠ 0) := by rw [State.on, h.2]

/-! ### A port's lane side and its lanes are read back

The tables of lanes are not among those that `TablesOk` keeps canonical: a value is read back where it is not the one that
an unlisted key holds. -/

theorem lanePort_setLanePort {v : LanePort} (h : v ≠ {}) : (s.setLanePort p v).lanePort p = v :=
  Tbl.get_set_of_ne _ _ p h

theorem lane_setLane {v : LaneIo} (h : v ≠ {}) : (s.setLane k v).lane k = v := Tbl.get_set_of_ne _ _ k h

/-! ### Training sequences (R146 to R149) -/

/-- The candidate seed that a TS leaves (R147): a SEED marked as agreed does not replace one that is known. -/
def tsSeed (known : Option (Nat × Nat × Nat)) (x : List Byte) : Nat :=
  match known with
  | some g => if 2 ^ 31 ≤ leAt x 13 4 then g.2.2 else leAt x 13 4 % 2 ^ 31
  | none => leAt x 13 4 % 2 ^ 31

/-- A TS changes the far end's triple and ALIGNED, and no more of the port. -/
theorem takeTs_lanePort (s : State) (p : Nat) (x : List Byte) : (takeTs s p x).lanePort p =
    { s.lanePort p with
      far := some (leAt x 10 3 % 2 ^ 20, leAt x 9 1 / 16, tsSeed (s.lanePort p).far x)
      farAligned := leAt x 18 1 % 2 = 1 } := by
  unfold takeTs tsSeed
  dsimp only
  cases (s.lanePort p).far with
  | none => exact lanePort_setLanePort fun he => Option.some_ne_none _ (congrArg LanePort.far he)
  | some g =>
    refine (lanePort_setLanePort fun he => Option.some_ne_none _ (congrArg LanePort.far he)).trans ?_
    dsimp only
    split <;> rfl

/-- A TS2 disagrees with what this end knows (R149): another RXMASK than before, or an agreed seed that is not elected. -/
def ts2Differs (s : State) (p : Nat) (x : List Byte) : Bool :=
  ((s.lanePort p).farMask.isSome && (s.lanePort p).farMask ≠ some (leAt x 17 1)) ||
    (2 ^ 31 ≤ leAt x 13 4 && leAt x 13 4 % 2 ^ 31 ≠ electedSeed s p)

theorem takeTs2Word_lanePort (s : State) (p : Nat) (x : List Byte) : (takeTs2Word s p x).lanePort p =
    { s.lanePort p with
      farMask := some (leAt x 17 1), farCount := some (leAt x 19 1)
      count := if ts2Differs s p x then 15 else (s.lanePort p).count
      zeroSent := !ts2Differs s p x && (s.lanePort p).zeroSent } :=
  lanePort_setLanePort fun he => Option.some_ne_none _ (congrArg LanePort.farMask he)

/-- Where no lane searches for its marker, one frame of a TS says what it says of the far end. -/
theorem takeTsFrames_one {type : Nat} {f : Nat × Nat × List Byte} {inv : Bool} (hr : readCtl f.2.2 type = some (inv, x)) :
    takeTsFrames s p type [] [f] = takeTs s p x := by
  simp [takeTsFrames, measureSkew, hr]

theorem seekers_exchange (h : s.laneState p = 5) : seekers s p = [] := by simp [seekers, h]

theorem takeTs1_exchange {f : Nat × Nat × List Byte} {inv : Bool} (h : s.laneState p = 5)
    (hr : readCtl f.2.2 0x1E = some (inv, x)) : takeTs1 s p [f] = takeTs s p x := by
  rw [takeTs1, if_pos (Or.inr h), seekers_exchange h, takeTsFrames_one hr]

theorem takeTs2_exchange {f : Nat × Nat × List Byte} {inv : Bool} (h : s.laneState p = 5)
    (hr : readCtl f.2.2 0x2D = some (inv, x)) : takeTs2 s p [f] = takeTs2Word (takeTs s p x) p x := by
  simp [takeTs2, seekers_exchange h, takeTsFrames_one hr, hr, h]

/-! ### Lost and regained lock (R153, R188) -/

theorem lockLost_lane (s : State) (p k : Nat) : (lockLost s p).lane k = s.lane k := by
  unfold lockLost
  dsimp only
  split
  · rfl
  · split <;> rfl

/-- The timers of a link that runs stand still, and LOCK_TMO runs. -/
theorem lockLost_running (h0 : s.linkState p ≠ 0) (h7 : s.linkState p ≠ 7) (hf : (s.link p).frozen = none) :
    lockLost s p = s.setLink p { s.link p with frozen := some s.now, lockFrom := some s.now } := by
  simp [lockLost, h0, h7, hf]

theorem laneLockLost_inUse (h : s.on (LAN_LANE_STATUS.IN_USE k) = true) :
    laneLockLost s k = lockLost (s.setLane k { s.lane k with lockLost := true }) (k / 8) := if_pos h

theorem lockRegained_retraining (h : s.linkState (k / 8) = 7) :
    lockRegained s k = s.setLane k { s.lane k with lockLost := false } := if_pos (Or.inr h)

theorem lockRegained_last {u : State} (h : s.linkState (k / 8) ≠ 7) (hu : u = s.setLane k { s.lane k with lockLost := false })
    (hl : ((lanesOf u (k / 8)).any fun j => (u.lane j).lockLost && u.on (LAN_LANE_STATUS.IN_USE j)) = false) :
    lockRegained s k = thaw u (k / 8) := by
  subst hu
  exact if_neg (not_or.2 ⟨ne_true_of_eq_false hl, h⟩)

/-! ### Receiver parameters (R151, R167) -/

/-- The least and the greatest value that a receiver parameter holds. -/
def rxLeast (f : Nat × Nat × Bool) : Int := if f.2.2 then -(2 ^ (f.1 + 1 - f.2.1 - 1)) else 0
def rxGreatest (f : Nat × Nat × Bool) : Int := if f.2.2 then 2 ^ (f.1 + 1 - f.2.1 - 1) - 1 else 2 ^ (f.1 + 1 - f.2.1) - 1

theorem rxParams_bits : ∀ f ∈ rxParams, f.2.1 ≤ f.1 ∧ f.1 < 32 := by decide

theorem rxParams_disjoint : ∀ f ∈ rxParams, ∀ g ∈ rxParams, f ≠ g → f.1 < g.2.1 ∨ g.1 < f.2.1 := by decide

theorem rxParam_range {f : Nat × Nat × Bool} (hf : f ∈ rxParams) (w : Word) :
    rxLeast f ≤ rxParam w f ∧ rxParam w f ≤ rxGreatest f := by
  have hlt := bitsOf_lt w.toNat f.1 f.2.1
  simp only [rxParams, List.mem_cons, List.not_mem_nil, or_false] at hf
  rcases hf with rfl | rfl | rfl | rfl | rfl <;> simp [rxParam, rxLeast, rxGreatest] at hlt ⊢ <;> grind

/-- A parameter just written holds the value, kept in its range. -/
theorem rxParam_setRxParam_self {f : Nat × Nat × Bool} (hf : f ∈ rxParams) (w : Word) (v : Int) :
    rxParam (setRxParam w f v) f = max (rxLeast f) (min (rxGreatest f) v) := by
  obtain ⟨hb, h32⟩ := rxParams_bits f hf
  have hbits := fun n => bitsOf_putBits_self w f.1 f.2.1 n (by omega) h32
  simp only [rxParam, setRxParam, hbits]
  simp only [rxParams, List.mem_cons, List.not_mem_nil, or_false] at hf
  rcases hf with rfl | rfl | rfl | rfl | rfl <;> simp [rxLeast, rxGreatest] <;> grind

theorem rxParam_setRxParam_ne {f g : Nat × Nat × Bool} (hf : f ∈ rxParams) (hg : g ∈ rxParams) (h : f ≠ g) (w : Word)
    (v : Int) : rxParam (setRxParam w g v) f = rxParam w f := by
  obtain ⟨hb, h32⟩ := rxParams_bits g hg
  simp only [rxParam, setRxParam, bitsOf_putBits_disjoint w g.1 g.2.1 _ f.1 f.2.1 (by omega) h32 (rxParams_disjoint f hf g hg h)]

/-- No receiver parameter of `w` is more than one code from that of `v`. -/
def OneStep (v w : Word) : Prop := ∀ f ∈ rxParams, (rxParam w f - rxParam v f).natAbs ≤ 1

/-- A parameter moved by at most one code stays so when it is kept in its range. -/
theorem oneStep_setRxParam {v w : Word} {g : Nat × Nat × Bool} {n : Int} (h : OneStep v w) (hg : g ∈ rxParams)
    (hn : (n - rxParam v g).natAbs ≤ 1) : OneStep v (setRxParam w g n) := by
  intro f hf
  by_cases he : f = g
  · subst he
    have ⟨hlo, hhi⟩ := rxParam_range hf v
    rw [rxParam_setRxParam_self hf]
    omega
  · rw [rxParam_setRxParam_ne hf hg he]
    exact h f hf

theorem oneStep_foldl {v : Word} {n : (Nat × Nat × Bool) × Nat → Int} {fs : List ((Nat × Nat × Bool) × Nat)}
    (hfs : ∀ f ∈ fs, f.1 ∈ rxParams) (hn : ∀ f, (n f - rxParam v f.1).natAbs ≤ 1) {w : Word} (h : OneStep v w) :
    OneStep v (fs.foldl (fun x f => setRxParam x f.1 (n f)) w) := by
  induction fs generalizing w with
  | nil => exact h
  | cons f fs ih =>
    exact ih (fun g hg => hfs g (List.mem_cons_of_mem _ hg)) (oneStep_setRxParam h (hfs f List.mem_cons_self) (hn f))

theorem stepParam_oneStep {live seed b d : Int} (hd : -1 ≤ d ∧ d ≤ 1) (freeze : Bool) :
    (stepParam live seed b d freeze - live).natAbs ≤ 1 := by
  unfold stepParam
  split
  · omega
  · split
    · omega
    · split <;> omega

theorem putLive_reg (h : Tbl.wf resetWord s.regs = true) (hk : k < 96) (w : Word) :
    (putLive s k w).reg (LAN_EQ_LIVE_RX.CTLE k).addr = w := by
  have hne : 0x52004 + 0x8 * k ≠ 0x53000 + 0x4 * k := by omega
  have hw : ((s.setReg (LAN_EQ_LIVE_RX.CTLE k).addr w).wr (LAN_LANE_STATUS.CLAMPED k) (b2n (atBound s k w))).reg
      (LAN_EQ_LIVE_RX.CTLE k).addr = w :=
    (State.reg_wr_ne _ _ _ _ (State.wf_setReg s _ w h) hne).trans (State.reg_setReg_self s _ w h)
  unfold putLive
  dsimp only
  split <;> exact hw

theorem adaptStep_parked (h : s.on (LAN_LANE_STATUS.IN_USE k) = false) (dirs : List (Fin 3)) : adaptStep s k dirs = s := by
  simp [adaptStep, h]

/-- A background step moves each live parameter by at most one code. -/
theorem adaptStep_oneStep (hs : Tbl.wf resetWord s.regs = true) (hk : k < 96) (h6 : s.laneState (k / 8) = 6)
    (hu : s.on (LAN_LANE_STATUS.IN_USE k) = true)
    (ht : (s.lane k).lastStep + ns (100000 * s.rd LAN_ADAPT_CFG.PERIOD) ≤ s.now) (dirs : List (Fin 3)) :
    OneStep (s.reg (LAN_EQ_LIVE_RX.CTLE k).addr) ((adaptStep s k dirs).reg (LAN_EQ_LIVE_RX.CTLE k).addr) := by
  have hgo : ¬(s.laneState (k / 8) ≠ 6 ∨ (!s.on (LAN_LANE_STATUS.IN_USE k)) = true ∨
      s.now < (s.lane k).lastStep + ns (100000 * s.rd LAN_ADAPT_CFG.PERIOD)) := by
    simp [h6, hu, ht]
  rw [adaptStep, if_neg hgo, putLive_reg (by exact hs) hk]
  refine oneStep_foldl (fun f hf => (List.of_mem_zip hf).1) (fun f => stepParam_oneStep ?_ _) fun f _ => ?_
  · have := (dirs.getD f.2 1).isLt
    omega
  · rw [Int.sub_self]
    decide

/-! ### Owl (R157, R158, R170 to R174) -/

/-- Registers of lanes and ports that read the same, in one build, make the same lanes fit for a scan. -/
theorem owlLaneOk_congr (hb : t.build = s.build) (hr : ∀ f : Fld, 0x50000 ≤ f.addr → f.addr < 0x60000 → t.rd f = s.rd f)
    (k : Nat) : owlLaneOk t k = owlLaneOk s k := by
  by_cases hk : k < 96
  · have hstate : t.laneState (k / 8) = s.laneState (k / 8) :=
      hr _ (show 0x50000 ≤ 0x50104 + 0x10 * (k / 8) by omega) (show 0x50104 + 0x10 * (k / 8) < 0x60000 by omega)
    have huse : t.on (LAN_LANE_STATUS.IN_USE k) = s.on (LAN_LANE_STATUS.IN_USE k) := by
      rw [State.on, State.on, hr _ (show 0x50000 ≤ 0x53000 + 0x4 * k by omega) (show 0x53000 + 0x4 * k < 0x60000 by omega)]
    have hpresent : t.lanePresent k = s.lanePresent k := by
      unfold State.lanePresent State.portPresent State.laneCount
      rw [hb]
    rw [owlLaneOk, owlLaneOk, hstate, huse, hpresent]
  · simp [owlLaneOk, hk]

/-- OWL_CTRL written, the sampler with the manual scan. -/
def owlAsked (s : State) (w : Word) : State :=
  ({ s with lanes := { s.lanes with owlJtag := false } } : State).setReg OWL_CTRL.LANE.addr (w &&& 0x0FFF7FFF#32)

section
variable (h : Tbl.wf resetWord s.regs = true) (w : Word)
include h

theorem owlAsked_wf : Tbl.wf resetWord (owlAsked s w).regs = true := State.wf_setReg _ _ _ h

theorem owlAsked_ctrl : (owlAsked s w).reg OWL_CTRL.LANE.addr = w &&& 0x0FFF7FFF#32 := State.reg_setReg_self _ _ _ h

theorem owlAsked_rd {f : Fld} (hf : f.addr ≠ OWL_CTRL.LANE.addr) : (owlAsked s w).rd f = s.rd f := by
  have hr : (owlAsked s w).reg f.addr = s.reg f.addr := State.reg_setReg_ne _ _ _ _ h hf
  rw [State.rd, hr, State.rd]

theorem owlAsked_lane : (owlAsked s w).rd OWL_CTRL.LANE = w.toNat % 128 := by
  have hmask : (w &&& 0x0FFF7FFF#32).toNat % 2 ^ 7 = w.toNat % 2 ^ 7 := by
    rw [BitVec.toNat_and, Nat.and_mod_two_pow, show (0x0FFF7FFF#32).toNat % 2 ^ 7 = 2 ^ 7 - 1 from rfl,
      Nat.and_two_pow_sub_one_eq_mod, Nat.mod_mod]
  rw [State.rd, owlAsked_ctrl h w, bitsOf]
  exact (congrArg (· % 2 ^ 7) (Nat.div_one _)).trans hmask

theorem owlAsked_laneOk (k : Nat) : owlLaneOk (owlAsked s w) k = owlLaneOk s k :=
  owlLaneOk_congr (s := s) (t := owlAsked s w) rfl (fun _ _ hf => owlAsked_rd h w (Nat.ne_of_lt hf)) k

end

/-- The scan starts on a lane that is ACTIVE and in use; else the request is refused. -/
theorem owlStart_idle {w : Word} (hb : s.on OWL_STATUS.BUSY = false) : owlStart s w =
    if !owlLaneOk (owlAsked s w) ((owlAsked s w).rd OWL_CTRL.LANE) ∨ (owlAsked s w).rd OWL_CTRL.EYE = 3 then
      (owlAsked s w).wr OWL_STATUS.REFUSED 1
    else
      { (owlAsked s w).wr OWL_STATUS.BUSY 1 with lanes := { (owlAsked s w).lanes with
        owlEnd := some (s.now + 2 ^ (16 + (owlAsked s w).rd OWL_CTRL.DWELL) * 1600000000 / 2125) } } :=
  if_neg (ne_true_of_eq_false hb)

/-- What a request for a scan leaves in the registers (R157, R170): a scan that runs, or REFUSED. -/
theorem owlStart_reads (h : Tbl.wf resetWord s.regs = true) (hb : s.on OWL_STATUS.BUSY = false) (w : Word) :
    (owlStart s w).reg OWL_CTRL.LANE.addr = w &&& 0x0FFF7FFF#32 ∧
      (owlLaneOk s (w.toNat % 128) = true → (owlStart s w).rd OWL_CTRL.EYE ≠ 3 →
        (owlStart s w).on OWL_STATUS.BUSY = true ∧ (owlStart s w).lanes.owlEnd.isSome = true) ∧
      (owlLaneOk s (w.toNat % 128) = false ∨ (owlStart s w).rd OWL_CTRL.EYE = 3 →
        (owlStart s w).on OWL_STATUS.BUSY = false ∧ (owlStart s w).on OWL_STATUS.REFUSED = true) := by
  have hwf := owlAsked_wf h w
  have hctrl : ∀ f v, f.addr = OWL_STATUS.BUSY.addr →
      ((owlAsked s w).wr f v).reg OWL_CTRL.LANE.addr = w &&& 0x0FFF7FFF#32 := fun f v hf =>
    (State.reg_wr_ne _ f v _ hwf (hf ▸ by decide)).trans (owlAsked_ctrl h w)
  have heye : ∀ f v, f.addr = OWL_STATUS.BUSY.addr →
      ((owlAsked s w).wr f v).rd OWL_CTRL.EYE = (owlAsked s w).rd OWL_CTRL.EYE := fun f v hf =>
    State.rd_wr_ne _ f _ v hwf (hf ▸ by decide)
  rw [owlStart_idle hb, owlAsked_lane h, owlAsked_laneOk h]
  split
  next hr =>
    have hbusy : ((owlAsked s w).wr OWL_STATUS.REFUSED 1).on OWL_STATUS.BUSY = false := by
      rw [State.on, State.rd_wr_disjoint _ OWL_STATUS.REFUSED OWL_STATUS.BUSY 1 hwf (by decide) (by decide) rfl (by decide),
        owlAsked_rd h w (by decide)]
      exact hb
    refine ⟨hctrl _ _ rfl, fun hl he => ?_, fun _ => ⟨hbusy, (reads_wr_self hwf (by decide) (by decide)).on⟩⟩
    rw [heye OWL_STATUS.REFUSED 1 rfl] at he
    exact absurd hr (by simp [hl, he])
  next hr =>
    refine ⟨hctrl OWL_STATUS.BUSY 1 rfl, fun _ _ =>
      ⟨(reads_wr_self (f := OWL_STATUS.BUSY) hwf (by decide) (by decide)).on, rfl⟩, fun hn => ?_⟩
    exact absurd (hn.imp (fun hl => by rw [hl]; rfl) fun he => (heye OWL_STATUS.BUSY 1 rfl).symm.trans he) hr

theorem owlDone_outOfUse (hb : s.on OWL_STATUS.BUSY = true) (hl : owlLaneOk s (s.rd OWL_CTRL.LANE) = false) (n : Word) :
    owlDone s n = ({ s.wr OWL_STATUS.BUSY 0 with lanes := { s.lanes with owlEnd := none } } : State).wr
      OWL_STATUS.REFUSED 1 := by
  simp [owlDone, hb, hl]

theorem owlDone_dwellOver (hb : s.on OWL_STATUS.BUSY = true) (hl : owlLaneOk s (s.rd OWL_CTRL.LANE) = true)
    (hd : s.due s.lanes.owlEnd = true) (n : Word) : owlDone s n =
      (({ s.wr OWL_STATUS.BUSY 0 with lanes := { s.lanes with owlEnd := none } } : State).setReg
        OWL_COUNT.MISMATCH.addr n).wr OWL_STATUS.DONE 1 := by
  simp [owlDone, hb, hl, hd]

/-- A scan that ends has its count, or REFUSED, and is over. -/
theorem owlDone_reads (h : Tbl.wf resetWord s.regs = true) (hb : s.on OWL_STATUS.BUSY = true)
    (hl : owlLaneOk s (s.rd OWL_CTRL.LANE) = true) (hd : s.due s.lanes.owlEnd = true) (n : Word) :
    (owlDone s n).reg OWL_COUNT.MISMATCH.addr = n ∧ (owlDone s n).on OWL_STATUS.DONE = true ∧
      (owlDone s n).on OWL_STATUS.BUSY = false ∧ (owlDone s n).lanes.owlEnd = none := by
  have hidle : Reads OWL_STATUS.BUSY 0 ((s.wr OWL_STATUS.BUSY 0).setReg OWL_COUNT.MISMATCH.addr n) :=
    have hw := State.wf_wr s OWL_STATUS.BUSY 0 h
    ⟨State.wf_setReg _ _ _ hw, by
      rw [State.rd, State.reg_setReg_ne _ _ _ _ hw (by decide)]
      exact State.rd_wr_self s OWL_STATUS.BUSY 0 h (by decide) (by decide)⟩
  rw [owlDone_dwellOver hb hl hd]
  refine ⟨?_, (reads_wr_self (f := OWL_STATUS.DONE) (by exact hidle.1) (by decide) (by decide)).on, ?_, rfl⟩
  · exact (State.reg_wr_ne ((s.wr OWL_STATUS.BUSY 0).setReg OWL_COUNT.MISMATCH.addr n) OWL_STATUS.DONE 1 _ hidle.1
      (by decide)).trans (State.reg_setReg_self _ _ _ (State.wf_wr s _ _ h))
  · exact (reads_wr_disjoint (f := OWL_STATUS.DONE) (x := 1) hidle rfl (by decide) (by decide) (by decide)).on

theorem owlDone_refused (h : Tbl.wf resetWord s.regs = true) (hb : s.on OWL_STATUS.BUSY = true)
    (hl : owlLaneOk s (s.rd OWL_CTRL.LANE) = false) (n : Word) :
    (owlDone s n).on OWL_STATUS.REFUSED = true ∧ (owlDone s n).on OWL_STATUS.BUSY = false := by
  have hidle : Reads OWL_STATUS.BUSY 0 (s.wr OWL_STATUS.BUSY 0) := reads_wr_self h (by decide) (by decide)
  rw [owlDone_outOfUse hb hl]
  exact ⟨(reads_wr_self (f := OWL_STATUS.REFUSED) (by exact hidle.1) (by decide) (by decide)).on,
    (reads_wr_disjoint (f := OWL_STATUS.REFUSED) (x := 1) hidle rfl (by decide) (by decide) (by decide)).on⟩

/-- The public segments have the sampler, and no manual scan runs: one that ran is refused. -/
theorem owlTest_reads (h : Tbl.wf resetWord s.regs = true) : (owlTest s).lanes.owlJtag = true ∧
    (owlTest s).on OWL_STATUS.BUSY = false ∧ (s.on OWL_STATUS.BUSY = true → (owlTest s).on OWL_STATUS.REFUSED = true) := by
  have hidle : Reads OWL_STATUS.BUSY 0 (s.wr OWL_STATUS.BUSY 0) := reads_wr_self h (by decide) (by decide)
  unfold owlTest
  dsimp only
  split
  next hb =>
    exact ⟨rfl, (reads_wr_disjoint (f := OWL_STATUS.REFUSED) (x := 1) hidle rfl (by decide) (by decide) (by decide)).on,
      fun _ => (reads_wr_self (f := OWL_STATUS.REFUSED) hidle.1 (by decide) (by decide)).on⟩
  next hb => exact ⟨rfl, eq_false_of_ne_true hb, fun hb' => absurd hb' hb⟩

/-- A lane's summary written after a health scan. -/
def owlSummed (s : State) (k width height : Nat) : State :=
  (((({ s with lanes := { s.lanes with owlJtag := false } } : State).setLane k { s.lane k with scanAt := some s.now }).wr
    (OWL_SUMMARY.WIDTH k) width).wr (OWL_SUMMARY.HEIGHT k) height).wr (OWL_SUMMARY.AGE k) 0

theorem owlSummed_rd (h : Tbl.wf resetWord s.regs = true) {width height : Nat} (hw : width < 256) (hh : height < 256) :
    (owlSummed s k width height).rd (OWL_SUMMARY.WIDTH k) = width ∧
      (owlSummed s k width height).rd (OWL_SUMMARY.HEIGHT k) = height := by
  have hwidth : Reads (OWL_SUMMARY.WIDTH k) width ((({ s with lanes := { s.lanes with owlJtag := false } } : State).setLane k
      { s.lane k with scanAt := some s.now }).wr (OWL_SUMMARY.WIDTH k) width) :=
    reads_wr_self h (show 0 ≤ 7 + 1 ∧ 7 < 32 by decide) hw
  have hheight := reads_wr_self (f := OWL_SUMMARY.HEIGHT k) hwidth.1 (show 8 ≤ 15 + 1 ∧ 15 < 32 by decide) hh
  constructor
  · exact (reads_wr_disjoint (f := OWL_SUMMARY.AGE k) (reads_wr_disjoint (f := OWL_SUMMARY.HEIGHT k) hwidth rfl
      (Or.inl (show 7 < 8 by decide)) (show 8 ≤ 15 + 1 by decide) (show 15 < 32 by decide)) rfl
      (Or.inl (show 7 < 16 by decide)) (show 16 ≤ 23 + 1 by decide) (show 23 < 32 by decide)).2
  · exact (reads_wr_disjoint (f := OWL_SUMMARY.AGE k) hheight rfl
      (Or.inl (show 15 < 16 by decide)) (show 16 ≤ 23 + 1 by decide) (show 23 < 32 by decide)).2

theorem owlHealth_first {width height : Nat} (he : s.on OWL_HEALTH_CFG.ENABLE = true) (hb : s.on OWL_STATUS.BUSY = false)
    (hl : owlLaneOk s k = true) (hn : (s.lane k).scanAt = none) : owlHealth s k width height =
      if width < s.rd OWL_HEALTH_CFG.MIN_WIDTH ∨ height < s.rd OWL_HEALTH_CFG.MIN_HEIGHT then
        report (owlSummed s k width height) 0x0C 1 0x11 k
      else owlSummed s k width height := by
  simp [owlHealth, he, hb, hl, hn, owlSummed]

end Sys2Proof.Machine
end

section
namespace Sys2Proof.Proofs
open Sys2Proof.Machine

/-- Settles O44: each command is the step of the lane or its port that its case names; the register file and the lanes'
tables say what is read back. -/
theorem laneEvents : Obligations.LaneEvents := by
  unfold Obligations.LaneEvents
  refine ⟨fun s p frames hs => ⟨?ts1, ?ts2, ?tsElse, fun h6 h8 => ?ei, fun h6 h8 => ?dx⟩,
    fun s k hs => ⟨fun fill h6 hf => ?fill, fun fill h6 hf => ?slip, fun h6 => ?cdr, fun fill h6 => ?quiet, ?lost,
      fun h7 => ?retraining, fun h7 u hu hl => ?regained, fun dirs hu => ?parked, fun dirs h6 hu ht => ?adapt, ?health⟩,
    fun s w hs ho hb => ?scan, fun s w hs hp => ?jtag, fun s w hp => ?noJtag, fun s n hs hb hl hd => ?done,
    fun s n hs hb hl => ?refused⟩
  case ts1 =>
    rintro f inv x h5 rfl hr
    refine ⟨_, congrArg Host.Outcome.next (takeTs1_exchange h5 hr), (congrArg LanePort.far (takeTs_lanePort s p x)).trans ?_⟩
    unfold tsSeed
    cases (s.lanePort p).far <;> rfl
  case ts2 =>
    rintro f inv x h5 rfl hr
    have hv := takeTs2Word_lanePort (takeTs s p x) p x
    refine ⟨_, congrArg Host.Outcome.next (takeTs2_exchange h5 hr), congrArg LanePort.farMask hv, congrArg LanePort.farCount hv,
      fun m hm hne => ?_⟩
    have hd : ts2Differs (takeTs s p x) p x = true := by
      rw [ts2Differs, takeTs_lanePort]
      simp [hm, hne]
    rw [hd] at hv
    exact ⟨congrArg LanePort.count hv, congrArg LanePort.zeroSent hv⟩
  case tsElse =>
    intro h4 h5
    exact ⟨congrArg Host.Outcome.next (if_neg (not_or.2 ⟨h4, h5⟩)), congrArg Host.Outcome.next (if_pos ⟨h4, h5⟩)⟩
  case ei => exact congrArg Host.Outcome.next (if_neg (by omega))
  case dx => exact congrArg Host.Outcome.next (if_neg (by omega))
  case fill => exact congrArg Host.Outcome.next ((if_neg (not_not.2 h6)).trans (if_pos hf))
  case slip => exact congrArg Host.Outcome.next ((if_neg (not_not.2 h6)).trans (if_neg (Nat.not_le.2 hf)))
  case cdr => exact congrArg Host.Outcome.next (if_pos h6)
  case quiet => exact ⟨congrArg Host.Outcome.next (if_pos h6), congrArg Host.Outcome.next (if_neg h6)⟩
  case lost =>
    rintro hu h0 h7 hf t rfl
    rw [laneLockLost_inUse hu, lockLost_lane]
    refine ⟨?_, ?_⟩
    · rw [lane_setLane fun he => Bool.noConfusion (congrArg LaneIo.lockLost he)]
    · rw [lockLost_running (by exact h0) (by exact h7) (by exact hf), link_setLink (by exact hs.links)]
      exact ⟨rfl, rfl⟩
  case retraining => exact congrArg Host.Outcome.next (lockRegained_retraining h7)
  case regained => exact congrArg Host.Outcome.next (lockRegained_last h7 hu hl)
  case parked => exact congrArg Host.Outcome.next (adaptStep_parked hu dirs)
  case adapt => exact ⟨adaptStep s k dirs, rfl, adaptStep_oneStep hs.regs k.isLt h6 hu ht dirs⟩
  case health =>
    intro w h he hb hl hn
    obtain ⟨hw, hh⟩ := owlSummed_rd (k := k) hs.regs w.isLt h.isLt
    have hx := owlHealth_first (width := w.toNat) (height := h.toNat) he hb hl hn
    by_cases hc : w.toNat < s.rd OWL_HEALTH_CFG.MIN_WIDTH ∨ h.toNat < s.rd OWL_HEALTH_CFG.MIN_HEIGHT
    · refine ⟨_, congrArg Host.Outcome.next (hx.trans (if_pos hc)), (rd_report _ _ _ _ _ _).trans hw,
        (rd_report _ _ _ _ _ _).trans hh, ?_⟩
      rw [if_pos hc]
      rfl
    · refine ⟨_, congrArg Host.Outcome.next (hx.trans (if_neg hc)), hw, hh, ?_⟩
      rw [if_neg hc]
      exact (List.append_nil _).symm
  case scan =>
    have hd := tablesOk_drowseExit hs
    have hok : owlLaneOk (drowseExit s) (w.toNat % 128) = owlLaneOk s (w.toNat % 128) :=
      owlLaneOk_congr (drowseExit_build s)
        (fun f hf _ => drowseExit_rd hs f (Nat.ne_of_gt (Nat.lt_of_lt_of_le (by decide) hf))) _
    rw [← hok]
    exact ⟨_, congrArg Host.Outcome.next (viaFabric_open s (fun s => owlStart s w) ho),
      owlStart_reads hd.regs ((drowseExit_on hs _ (by decide)).trans hb) w⟩
  case jtag => exact ⟨owlTest s, congrArg Host.Outcome.next (if_pos hp), owlTest_reads hs.regs⟩
  case noJtag => exact congrArg Host.Outcome.next (if_neg (ne_true_of_eq_false hp))
  case done => exact ⟨owlDone s n, rfl, owlDone_reads hs.regs hb hl hd n⟩
  case refused => exact ⟨owlDone s n, rfl, owlDone_refused hs.regs hb hl n⟩

end Sys2Proof.Proofs
end

section
namespace Sys2Proof.Machine

/-! ### The lane side of a port at the end of training (R148, R149) -/

/-- Steps that leave the table of ports do so in a row. -/
theorem ports_foldl {α : Type} {f : State → α → State} (hf : ∀ t x, (f t x).lanes.ports = t.lanes.ports) (xs : List α)
    (s : State) : (xs.foldl f s).lanes.ports = s.lanes.ports := by
  induction xs generalizing s with
  | nil => rfl
  | cons x xs ih => exact (ih _).trans (hf s x)

theorem wr_ports (s : State) (f : Fld) (v : Nat) : (s.wr f v).lanes.ports = s.lanes.ports :=
  congrArg Lanes.ports (State.wr_lanes s f v)

theorem report_ports (s : State) (a b c d : Nat) : (report s a b c d).lanes.ports = s.lanes.ports :=
  congrArg Lanes.ports (report_lanes s a b c d)

theorem setLane_ports (s : State) (k : Nat) (v : LaneIo) : (s.setLane k v).lanes.ports = s.lanes.ports := rfl

theorem useLanes_ports (s : State) (p w : Nat) : (useLanes s p w).lanes.ports = s.lanes.ports := by
  refine ports_foldl (fun t k => ?_) _ _
  rw [wr_ports, wr_ports]

theorem seedLane_ports (s : State) (p seed : Nat) (leader : Bool) (i : Nat) :
    (seedLane s p seed leader i).lanes.ports = s.lanes.ports := by
  unfold seedLane
  dsimp only
  rw [wr_ports, setLane_ports]

theorem seedLanes_ports (s : State) (p seed : Nat) (leader : Bool) :
    (seedLanes s p seed leader).lanes.ports = s.lanes.ports := by
  unfold seedLanes
  exact ports_foldl (fun t i => seedLane_ports t p seed leader i) _ _

/-- The lane side of a port whose training has ended with seed `seed`. -/
def trained (s : State) (p seed : Nat) : LanePort :=
  { s.lanePort p with
    timer := none, linkSeed := seed, txMask := (s.lanePort p).farMask.getD 0, rxMask := ownMask s p }

/-- The end of training writes the port's own entry, and no more of the table of ports. -/
theorem laneActive_ports (s : State) (p w cur : Nat) (leader : Bool) (seed : Nat) :
    (laneActive s p w cur leader seed).lanes.ports = (s.setLanePort p (trained s p seed)).lanes.ports := by
  unfold laneActive setLaneState
  dsimp only
  split <;> simp only [report_ports, wr_ports, seedLanes_ports, useLanes_ports] <;> rfl

/-- In a canonical table of ports, LINK_SEED is the seed that training ended with. -/
theorem laneActive_linkSeed {s : State} (h : Tbl.wf (fun _ => ({} : LanePort)) s.lanes.ports = true) (p w cur : Nat)
    (leader : Bool) (seed : Nat) : ((laneActive s p w cur leader seed).lanePort p).linkSeed = seed := by
  rw [State.lanePort, laneActive_ports]
  exact congrArg LanePort.linkSeed (Tbl.get_set_self (fun _ => ({} : LanePort)) p (trained s p seed) h)

/-- The block in reset, with port 0 listed twice in the table of ports, which `TablesOk` does not look at. -/
def portTwice : State := { State.reset with lanes := { ports := [(0, { timer := some 0 }), (0, { linkSeed := 1 })] } }

theorem tablesOk_portTwice : TablesOk portTwice := by
  refine ⟨rfl, rfl, ?_, rfl, rfl, rfl, rfl, rfl, rfl, rfl, rfl, rfl, ?_, rfl, rfl, ?_, ?_⟩ <;>
    exact fun _ he => absurd he List.not_mem_nil

/-- Its first entry leaves the table when training ends with seed 0, for it is then that of an unlisted port; the second
one shows. -/
theorem portTwice_linkSeed : ((laneActive portTwice 0 0 0 true 0).lanePort 0).linkSeed = 1 := by
  rw [State.lanePort, laneActive_ports]
  decide

end Sys2Proof.Machine
end

section
namespace Sys2Proof.Proofs
open Sys2Proof.Machine

/-- Refutes O43: its clause on the end of training asks for LINK_SEED in every state whose `TablesOk` tables are canonical,
and the table of ports is none of those. In `portTwice` the entry of port 0 is dropped, and a second one shows another seed.
With a canonical table of ports that part of the clause holds (`laneActive_linkSeed`). -/
theorem not_laneTraining : ¬ Obligations.LaneTraining := by
  unfold Obligations.LaneTraining
  intro h
  obtain ⟨-, -, -, -, -, -, -, -, -, -, -, -, -, -, -, -, -, -, hactive, -⟩ := h portTwice 0 tablesOk_portTwice
  obtain ⟨-, -, -, hseed, -⟩ := hactive 0 0 true 0 _ rfl
  exact absurd (portTwice_linkSeed.symm.trans hseed) (by decide)

end Sys2Proof.Proofs
end

section
namespace Sys2Proof.Machine

/-! ### The credits of a link's channels (R190, R191) -/

section
variable {s : State} {l : LinkPort} {v w : Nat}

/-- The channels of every link are listed canonically. -/
theorem wf_link_credits (hs : TablesOk s) (p : Nat) : Tbl.wf (fun _ => ({} : Credit)) (s.link p).credits = true := by
  by_cases h : s.link p = {}
  · rw [h]; rfl
  · exact hs.credits _ (Tbl.mem_of_get_ne h)

theorem credit_setCredit_self (h : Tbl.wf (fun _ => ({} : Credit)) l.credits = true) (c : Credit) :
    (l.setCredit v c).credit v = c :=
  Tbl.get_set_self (fun _ => ({} : Credit)) v c h

theorem credit_setCredit_ne (h : Tbl.wf (fun _ => ({} : Credit)) l.credits = true) (c : Credit) (hw : w ≠ v) :
    (l.setCredit v c).credit w = l.credit w :=
  Tbl.get_set_ne (fun _ => ({} : Credit)) v w c _ h hw

theorem wf_setCredit (h : Tbl.wf (fun _ => ({} : Credit)) l.credits = true) (c : Credit) :
    Tbl.wf (fun _ => ({} : Credit)) (l.setCredit v c).credits = true :=
  Tbl.wf_set (fun _ => ({} : Credit)) v c h

theorem link_setLink_ne (h : Tbl.wf (fun _ => ({} : LinkPort)) s.links = true) {p q : Nat} (hq : q ≠ p) :
    (s.setLink p l).link q = s.link q :=
  Tbl.get_set_ne (fun _ => ({} : LinkPort)) p q l _ h hq

end

/-! ### A packet leaves its buffer (R191) -/

section
variable {s : State} {b : RtPkt}

/-- The block with packet `b` out of the router's buffers. -/
def unbuffered (s : State) (b : RtPkt) : State := { s with rtr := { s.rtr with bufs := s.rtr.bufs.erase b } }

theorem sameBut_setLink (s : State) (p : Nat) (l : LinkPort) : SameBut [.links] s (s.setLink p l) := by
  intro c hc
  cases c <;> simp_all [Component.same]

theorem sameBut_withRtr (s : State) (r : Router) : SameBut [.rtr] s { s with rtr := r } := by
  intro c hc
  cases c <;> simp_all [Component.same]

theorem sameBut_releaseBuf (s : State) (b : RtPkt) : SameBut [.links] s (releaseBuf s b) :=
  sameBut_ite (SameBut.refl _ s) (sameBut_ite (SameBut.refl _ s) (sameBut_setLink s _ _))

/-- The credits that go back are those of the packet's own ingress: what a link has to send, and what it has used of its
far end's credits, stays. -/
theorem releaseBuf_link (hs : TablesOk s) (p v : Nat) : ((releaseBuf s b).link p).txWords = (s.link p).txWords ∧
    (((releaseBuf s b).link p).credit v).usedH = ((s.link p).credit v).usedH := by
  unfold releaseBuf
  dsimp only
  split
  · exact ⟨rfl, rfl⟩
  split
  · exact ⟨rfl, rfl⟩
  by_cases hp : p = b.from_
  · subst hp
    rw [link_setLink hs.links]
    refine ⟨rfl, ?_⟩
    by_cases hv : v = vcOf b.pkt.tc b.pkt.rsp
    · rw [hv, credit_setCredit_self (wf_link_credits hs _)]
    · rw [credit_setCredit_ne (wf_link_credits hs _) _ hv]
  · rw [link_setLink_ne hs.links hp]
    exact ⟨rfl, rfl⟩

theorem stripeSet_releaseBuf (s : State) (b c : RtPkt) (d : Nat) : stripeSet (releaseBuf (unbuffered s b) c) d = stripeSet s d := by
  have hb := sameBut_releaseBuf (unbuffered s b) c .build (by decide)
  have hr := sameBut_releaseBuf (unbuffered s b) c .regs (by decide)
  unfold stripeSet State.rd State.reg
  rw [hb, hr]
  rfl

end

/-! ### The fate of a packet (R231, R237, R264) -/

section
variable {s : State} {b : RtPkt}

theorem routePacket_delivered (hd : fateOf s b.from_ b.pkt = .deliver) (hk : pkeyPasses s 12 b.pkt = true)
    (hn : b.pkt.known = true) : routePacket s b =
      { releaseBuf s b with rtr := { (releaseBuf s b).rtr with deliver := s.rtr.deliver ++ [b.pkt] } } := by
  simp [routePacket, hd, hk, hn]

theorem routePacket_unknown (hd : fateOf s b.from_ b.pkt = .deliver) (hk : pkeyPasses s 12 b.pkt = true)
    (hn : b.pkt.known = false) : routePacket s b = (releaseBuf s b).bump XPT_ERR2.BAD 1 := by
  simp [routePacket, hd, hk, hn]

theorem routePacket_keyRefused (hd : fateOf s b.from_ b.pkt = .deliver) (hk : pkeyPasses s 12 b.pkt = false) :
    routePacket s b = routerNak ((releaseBuf s b).bump (RTR_PKEY_REF.COUNT 12) 1) b.pkt stPARTITION := by
  simp [routePacket, hd, hk]

theorem routePacket_stale (hd : fateOf s b.from_ b.pkt = .stale) : routePacket s b = (releaseBuf s b).bump RTR_ERR.STALE 1 := by
  simp [routePacket, hd]

theorem routePacket_noRoute (hd : fateOf s b.from_ b.pkt = .noRoute) :
    routePacket s b = routerNak ((releaseBuf s b).bump RTR_ERR.NOROUTE 1) b.pkt stUNREACHABLE := by
  simp [routePacket, hd]

theorem routePacket_order (hd : fateOf s b.from_ b.pkt = .order) : routePacket s b = (releaseBuf s b).bump RTR_ERR.ORDER 1 := by
  simp [routePacket, hd]

theorem routePacket_toward {d : Nat} (hd : fateOf s b.from_ b.pkt = .toward d) : routePacket s b = holdToward s b d := by
  simp [routePacket, hd]

section
variable {p : Port} (hf : s.rtr.bufs.find? (fun x => x.from_ = p.val && x.dir.isNone) = some b)
include hf

/-- A key that the port refuses is counted, and answered with PARTITION (R237). -/
theorem exec_routerPacket_refused (hk : pkeyPasses s p b.pkt = false) : exec (.routerPacket p.castSucc) s =
    .next (wakeWaiting (routerNak ((releaseBuf (unbuffered s b) b).bump (RTR_PKEY_REF.COUNT p) 1) b.pkt stPARTITION)) := by
  refine congrArg (fun t => Host.Outcome.next (wakeWaiting t)) ((if_pos p.isLt).trans ?_)
  simp [routeArrival, hf, hk, unbuffered]

/-- A packet that passes is routed, out of its buffer (R231). -/
theorem exec_routerPacket_routed (hk : pkeyPasses s p b.pkt = true) {t : State} (ht : routePacket (unbuffered s b) b = t) :
    exec (.routerPacket p.castSucc) s = .next (wakeWaiting t) := by
  refine congrArg (fun t => Host.Outcome.next (wakeWaiting t)) ((if_pos p.isLt).trans (Eq.trans ?_ ht))
  simp [routeArrival, hf, hk, unbuffered]

end

/-- A local packet whose key the block may use is routed (R237). -/
theorem exec_routerPacket_local {o : OutPkt} {rest : List OutPkt} (hi : s.rtr.inject = o :: rest)
    (hk : pkeyPasses s 12 o.pkt = true) : exec (.routerPacket 12) s = .next (wakeWaiting (routePacket
      { s with rtr := { s.rtr with inject := rest } } { from_ := 12 + o.xbar, pkt := o.pkt, since := s.now })) := by
  show execRouterPacket 12 s = _
  simp [execRouterPacket, routeInjected, hi, hk]

theorem exec_routerPacket_notAllowed {o : OutPkt} {rest : List OutPkt} (hi : s.rtr.inject = o :: rest)
    (hk : pkeyPasses s 12 o.pkt = false) : exec (.routerPacket 12) s = .next (wakeWaiting (injectRefused
      (({ s with rtr := { s.rtr with inject := rest } } : State).bump (RTR_PKEY_REF.COUNT 12) 1) o.pkt)) := by
  show execRouterPacket 12 s = _
  simp [execRouterPacket, routeInjected, hi, hk]

end

/-! ### The order of grants (R235) -/

/-- A fold that keeps the entry of the smaller key ends with one of the least. -/
theorem exists_least_foldl {α : Type} {f : Option α → α → Option α} (k : α → Nat) (h0 : ∀ b, f none b = some b)
    (hf : ∀ x b, f (some x) b = if k b < k x then some b else some x) {l : List α} {y : α} (hy : y ∈ l) :
    ∃ b ∈ l, l.foldl f none = some b ∧ ∀ x ∈ l, k b ≤ k x := by
  have hkeep : ∀ (l : List α) (y : α), ∃ b ∈ y :: l, l.foldl f (some y) = some b ∧ ∀ x ∈ y :: l, k b ≤ k x := by
    intro l
    induction l with
    | nil => exact fun y => ⟨y, List.mem_singleton_self y, rfl, by simp⟩
    | cons z l ih =>
      intro y
      rw [List.foldl_cons, hf]
      split
      · obtain ⟨b, hb, he, hm⟩ := ih z
        exact ⟨b, List.mem_cons_of_mem _ hb, he, List.forall_mem_cons.2 ⟨by have := hm z List.mem_cons_self; omega, hm⟩⟩
      · obtain ⟨b, hb, he, hm⟩ := ih y
        obtain ⟨hy, hl⟩ := List.forall_mem_cons.1 hm
        exact ⟨b, by grind, he, List.forall_mem_cons.2 ⟨hy, List.forall_mem_cons.2 ⟨by omega, hl⟩⟩⟩
  cases l with
  | nil => exact absurd hy List.not_mem_nil
  | cons z l =>
    rw [List.foldl_cons, h0]
    exact hkeep l z

theorem rrPick_some {l : List RtPkt} {x : RtPkt} (hx : x ∈ l) (last : Nat) : ∃ b ∈ l, rrPick l last = some b := by
  obtain ⟨b, hb, he, -⟩ : ∃ b ∈ l, rrPick l last = some b ∧
      ∀ y ∈ l, (b.rrKey + 512 - last - 1) % 512 ≤ (y.rrKey + 512 - last - 1) % 512 :=
    exists_least_foldl (fun x : RtPkt => (x.rrKey + 512 - last - 1) % 512) (fun _ => rfl) (fun _ _ => rfl) hx
  exact ⟨b, hb, he⟩

theorem oldestPkt_some {l : List RtPkt} {x : RtPkt} (hx : x ∈ l) :
    ∃ b ∈ l, oldestPkt l = some b ∧ ∀ y ∈ l, b.since ≤ y.since :=
  exists_least_foldl RtPkt.since (fun _ => rfl) (fun _ _ => rfl) hx

section
variable {s : State} {q : Nat}

/-- Of the packets that have waited ENTRY_WAIT the oldest goes first. -/
theorem grantChoice_waited {x : RtPkt} (hx : x ∈ s.rtr.bufs) (hb : mayBegin s q x = true) (hw : waitedLong s x = true) :
    ∃ b ∈ s.rtr.bufs, grantChoice s q = some b ∧ mayBegin s q b = true ∧ waitedLong s b = true ∧
      ∀ y ∈ s.rtr.bufs, mayBegin s q y = true → waitedLong s y = true → b.since ≤ y.since := by
  obtain ⟨b, hm, he, hl⟩ := oldestPkt_some (l := (s.rtr.bufs.filter (mayBegin s q)).filter (waitedLong s)) (x := x)
    (by simp [hx, hb, hw])
  simp only [List.mem_filter] at hm hl
  exact ⟨b, hm.1.1, by rw [grantChoice, he], hm.1.2, hm.2, fun y hy hb hw => hl y ⟨⟨hy, hb⟩, hw⟩⟩

section
variable (hnone : ∀ y ∈ s.rtr.bufs, mayBegin s q y = true → waitedLong s y = false)
include hnone

theorem oldestPkt_waited_none : oldestPkt ((s.rtr.bufs.filter (mayBegin s q)).filter (waitedLong s)) = none := by
  have h : (s.rtr.bufs.filter (mayBegin s q)).filter (waitedLong s) = [] :=
    List.filter_eq_nil_iff.2 fun y hy => by simp [hnone y (List.mem_filter.1 hy).1 (List.mem_filter.1 hy).2]
  rw [h]
  rfl

/-- Before the other entering packets a continuing one goes. -/
theorem grantChoice_continuing {x : RtPkt} (hx : x ∈ s.rtr.bufs) (hb : mayBegin s q x = true) (he : x.entering = false) :
    ∃ b ∈ s.rtr.bufs, grantChoice s q = some b ∧ mayBegin s q b = true ∧ b.entering = false := by
  obtain ⟨b, hm, hp⟩ := rrPick_some (l := (s.rtr.bufs.filter (mayBegin s q)).filter fun b => !b.entering) (x := x)
    (by simp [hx, hb, he]) (s.rtr.rrCont.get 511 q)
  simp only [List.mem_filter] at hm
  exact ⟨b, hm.1.1, by rw [grantChoice, oldestPkt_waited_none hnone, hp], hm.1.2, by simpa using hm.2⟩

/-- Where only entering packets may begin, one of them goes. -/
theorem grantChoice_entering {x : RtPkt} (hx : x ∈ s.rtr.bufs) (hb : mayBegin s q x = true)
    (he : ∀ y ∈ s.rtr.bufs, mayBegin s q y = true → y.entering = true) :
    ∃ b ∈ s.rtr.bufs, grantChoice s q = some b ∧ mayBegin s q b = true := by
  have hcont : (s.rtr.bufs.filter (mayBegin s q)).filter (fun b => !b.entering) = [] :=
    List.filter_eq_nil_iff.2 fun y hy => by simp [he y (List.mem_filter.1 hy).1 (List.mem_filter.1 hy).2]
  obtain ⟨b, hm, hp⟩ := rrPick_some (l := (s.rtr.bufs.filter (mayBegin s q)).filter fun b => b.entering) (x := x)
    (by simp [hx, hb, he x hx hb]) (s.rtr.rrEnt.get 511 q)
  simp only [List.mem_filter] at hm
  exact ⟨b, hm.1.1, by rw [grantChoice, oldestPkt_waited_none hnone, hcont]; exact hp, hm.1.2⟩

end

/-- The order of R235, said of any packet that may begin. -/
theorem grantChoice_order {x : RtPkt} (hx : x ∈ s.rtr.bufs) (hb : mayBegin s q x = true) :
    ∃ b, grantChoice s q = some b ∧ b ∈ s.rtr.bufs ∧ mayBegin s q b = true ∧
      (waitedLong s x = true → waitedLong s b = true ∧ b.since ≤ x.since) ∧
      (waitedLong s b = false → b.entering = true → x.entering = true) := by
  by_cases hlong : ∃ y ∈ s.rtr.bufs, mayBegin s q y = true ∧ waitedLong s y = true
  · obtain ⟨y, hy, hby, hwy⟩ := hlong
    obtain ⟨b, hm, hg, hbb, hwb, hold⟩ := grantChoice_waited hy hby hwy
    exact ⟨b, hg, hm, hbb, fun hw => ⟨hwb, hold x hx hb hw⟩, fun hn => absurd (hwb.symm.trans hn) (by decide)⟩
  have hnone : ∀ y ∈ s.rtr.bufs, mayBegin s q y = true → waitedLong s y = false := fun y hy hby =>
    Bool.eq_false_iff.2 fun hw => hlong ⟨y, hy, hby, hw⟩
  have hnot : waitedLong s x ≠ true := Bool.eq_false_iff.1 (hnone x hx hb)
  by_cases hcont : ∃ y ∈ s.rtr.bufs, mayBegin s q y = true ∧ y.entering = false
  · obtain ⟨y, hy, hby, hey⟩ := hcont
    obtain ⟨b, hm, hg, hbb, heb⟩ := grantChoice_continuing hnone hy hby hey
    exact ⟨b, hg, hm, hbb, fun hw => absurd hw hnot, fun _ he => absurd (heb.symm.trans he) (by decide)⟩
  · have hent : ∀ y ∈ s.rtr.bufs, mayBegin s q y = true → y.entering = true := fun y hy hby =>
      Bool.eq_true_of_not_eq_false fun he => hcont ⟨y, hy, hby, he⟩
    obtain ⟨b, hm, hg, hbb⟩ := grantChoice_entering hnone hx hb hent
    exact ⟨b, hg, hm, hbb, fun hw => absurd hw hnot, fun _ _ => hent x hx hb⟩

/-! ### What a grant does (R192, R230, R235) -/

/-- The link of the egress on which packet `b` goes: its words wait there, and the far end's credits are taken. -/
def grantedLink (l : LinkPort) (b : RtPkt) : LinkPort :=
  let v := vcOf b.pkt.tc b.pkt.rsp
  let c := l.credit v
  { l.setCredit v { c with usedH := (c.usedH + 1) % 2 ^ 16, usedD := (c.usedD + b.pkt.units) % 2 ^ 20 } with
    txWords := l.txWords ++ packetStream b.pkt }

theorem grantedLink_usedH {l : LinkPort} (h : Tbl.wf (fun _ => ({} : Credit)) l.credits = true) (b : RtPkt) :
    ((grantedLink l b).credit (vcOf b.pkt.tc b.pkt.rsp)).usedH =
      ((l.credit (vcOf b.pkt.tc b.pkt.rsp)).usedH + 1) % 2 ^ 16 :=
  congrArg Credit.usedH (credit_setCredit_self h _)

/-- A grant is one of the egress's link, and of the packet's buffer, which is released. -/
theorem egressGrant_some {b : RtPkt} (h : grantChoice s q = some b) : ∃ r : Router, r.bufs = s.rtr.bufs.erase b ∧
    egressGrant s q = releaseBuf { s.setLink q (grantedLink (s.link q) b) with rtr := r } b := by
  unfold egressGrant
  rw [h]
  exact ⟨_, rfl, rfl⟩

theorem egressGrant_none (h : grantChoice s q = none) : egressGrant s q = s := by
  simp [egressGrant, h]

/-! ### Packets that are held too long, and late ones (R231, R235) -/

section
variable {b : RtPkt} (hf : s.rtr.bufs.find? (fun b => b.dir.isSome && b.egress.isNone && s.due b.downEnd) = some b)
include hf

theorem downHoldTmo_held (hl : b.lastEgress = some q) : downHoldTmo s =
    (releaseBuf (unbuffered s b) b).bump (RTR_PORT_STAT.DOWN_DROP q) 1 := by
  simp [downHoldTmo, hf, hl, unbuffered]

/-- One that never had an egress counts at the port that the hash gives it, or as one without a route. -/
theorem downHoldTmo_never (hl : b.lastEgress = none) : downHoldTmo s = (releaseBuf (unbuffered s b) b).bump
    (match hashPick (stripeSet (releaseBuf (unbuffered s b) b) (b.dir.getD 15)) b.pkt with
      | some q => RTR_PORT_STAT.DOWN_DROP q | none => RTR_ERR.NOROUTE) 1 := by
  rw [stripeSet_releaseBuf, downHoldTmo, hf]
  dsimp only
  rw [hl]
  cases hashPick (stripeSet s (b.dir.getD 15)) b.pkt <;> rfl

end

theorem entryWait_late {b : RtPkt} (hf : s.rtr.bufs.find? (fun b => waitedLong s b && !b.late && b.egress.isSome) = some b)
    (he : b.egress = some q) : entryWait s = ({ s with rtr := { s.rtr with
      bufs := s.rtr.bufs.map fun x => if x = b then { x with late := true } else x } } : State).bump (RTR_CONG.ENTRY_LATE q) 1 := by
  simp [entryWait, hf, he]

end

end Sys2Proof.Machine
end

section
namespace Sys2Proof.Proofs
open Sys2Proof.Machine

/-- Settles O40: the rows of R231 and R237 by the fate of the packet, the order of grants as the order of the lists that
`grantChoice` tries, and a grant as a change of its egress's link. -/
theorem routerPackets : Obligations.RouterPackets := by
  unfold Obligations.RouterPackets
  refine ⟨?fates, fun s o rest hi hk => exec_routerPacket_local hi hk, fun s o rest hi hk => exec_routerPacket_notAllowed hi hk,
    ?grant, fun s p h => congrArg Host.Outcome.next (egressGrant_none h), fun s q x hx hb => grantChoice_order hx hb,
    fun s b q hf hl => congrArg Host.Outcome.next (downHoldTmo_held hf hl),
    fun s b hf hl => congrArg Host.Outcome.next (downHoldTmo_never hf hl),
    fun s b q hf he => congrArg Host.Outcome.next (entryWait_late hf he)⟩
  case fates =>
    rintro s p b u hf rfl
    exact ⟨exec_routerPacket_refused hf, fun hk =>
      ⟨fun hd hl hn => exec_routerPacket_routed hf hk (routePacket_delivered hd hl hn),
        fun hd hl hn => exec_routerPacket_routed hf hk (routePacket_unknown hd hl hn),
        fun hd hl => exec_routerPacket_routed hf hk (routePacket_keyRefused hd hl),
        fun hd => exec_routerPacket_routed hf hk (routePacket_stale hd),
        fun hd => exec_routerPacket_routed hf hk (routePacket_noRoute hd),
        fun hd => exec_routerPacket_routed hf hk (routePacket_order hd),
        fun d hd => exec_routerPacket_routed hf hk (routePacket_toward hd)⟩⟩
  case grant =>
    intro s p b h
    obtain ⟨r, hr, he⟩ := egressGrant_some h
    have hrel := sameBut_releaseBuf { s.setLink p (grantedLink (s.link p) b) with rtr := r } b
    refine ⟨_, congrArg Host.Outcome.next he, (congrArg Router.bufs (hrel .rtr (by decide))).trans hr,
      (((SameBut.refl _ s).step (by simp) (sameBut_setLink s _ _)).step (by simp) (sameBut_withRtr _ r)).step (by simp) hrel, fun hs => ?_⟩
    have hc := wf_link_credits hs p
    have ht : TablesOk { s.setLink p (grantedLink (s.link p) b) with rtr := r } :=
      { tablesOk_setLink hs p (grantedLink (s.link p) b) (wf_setCredit hc _) with }
    obtain ⟨hw, hu⟩ := releaseBuf_link (b := b) ht p (vcOf b.pkt.tc b.pkt.rsp)
    have hl : ({ s.setLink p (grantedLink (s.link p) b) with rtr := r } : State).link p = grantedLink (s.link p) b :=
      link_setLink hs.links _
    rw [hl] at hw hu
    exact ⟨hw, hu.trans (grantedLink_usedH hc b)⟩

end Sys2Proof.Proofs
end

section
namespace Sys2Proof.Machine

/-! ### What a slot sends (R142, R180, R184, R187) -/

section
variable {s : State} {p : Port}

theorem exec_frameSlot_runs (hf : s.on CSP_STATUS.FC_RUN = true) (hn : s.safe = false) {t : State} (ht : frameSlot s p = t) :
    exec (.frameSlot p) s = .next (wakeUp t p) := by
  subst ht
  exact congrArg Host.Outcome.next (if_pos (by simp [hf, hn]))

theorem exec_frameSlot_stands (h : s.on CSP_STATUS.FC_RUN = false ∨ s.safe = true) : exec (.frameSlot p) s = .next s :=
  congrArg Host.Outcome.next (if_neg (by rcases h with h | h <;> simp [h]))

variable (hp : s.portPresent p = true)
include hp

theorem frameSlot_training (h6 : s.laneState p ≠ 6) : frameSlot s p = laneSlot s p := by
  simp [frameSlot, hp, h6]

section
variable (h6 : s.laneState p = 6) (h0 : s.linkState p ≠ 0) (hw : (s.link p).txWidth ≠ 0)
include h6 h0 hw

theorem frameSlot_idle (hc : chooseSlot s p = .idle) :
    frameSlot s p = sendFlit s p { fseq := (s.link p).txNext } (List.replicate 240 0) := by
  simp [frameSlot, hp, h6, h0, hw, hc]

theorem frameSlot_again {f : SentFlit} (hc : chooseSlot s p = .again f) (hm : f.marked = false) : frameSlot s p =
    sendFlit (s.setLink p { s.link p with
        replayAt := if (s.link p).replay.any (fun g => g.seq = (f.seq + 1) % 65536) then some ((f.seq + 1) % 65536) else none }) p
      { fseq := f.seq, kind := f.kind, blen := f.blen, keyph := f.keyph, first := f.first, pwords := f.pwords } f.payload := by
  simp [frameSlot, hp, h6, h0, hw, hc, hm]

theorem frameSlot_spoiled {f : SentFlit} (hc : chooseSlot s p = .again f) (hm : f.marked = true) :
    frameSlot s p = protoError s p := by
  simp [frameSlot, hp, h6, h0, hw, hc, hm]

omit hp h6 h0 hw in
/-- FIRST of a flit that carries some words: the first in which a packet begins (R181). -/
def firstMark (words : List (Bool × Dword)) : Nat := match words.findIdx? (·.1) with | some i => i | none => 31

/-- Without a bypass message, and on a link that is not sealed, a flit of new data is words alone. -/
theorem frameSlot_words {words : List (Bool × Dword)} (hc : chooseSlot s p = .data none words) (hn : s.sealed p = false) :
    frameSlot s p = sendNew (s.setLink p { s.link p with txWords := (s.link p).txWords.drop words.length }) p
      { kind := 1, first := firstMark words, pwords := words.length }
      (dataPayload [] words) := by
  have hnote : ∀ l : LinkPort, noteWidth l [] = l := fun _ => rfl
  simp [frameSlot, hp, h6, h0, hw, hc, hn, chargeBypass, hnote]
  rfl

end

end

section
variable {s : State} {p : Nat}

theorem chooseSlot_waits (h : (s.link p).resuming = true ∨ (s.link p).waking = true) : chooseSlot s p = .idle := if_pos h

section
variable {a : Nat} (hr : (s.link p).resuming = false) (hw : (s.link p).waking = false) (ha : (s.link p).replayAt = some a)
include hr hw ha

theorem chooseSlot_again {f : SentFlit} (hf : (s.link p).replay.find? (fun f => f.seq = a) = some f) :
    chooseSlot s p = .again f := by
  simp [chooseSlot, hr, hw, ha, hf]

theorem chooseSlot_replayOver (hf : (s.link p).replay.find? (fun f => f.seq = a) = none) : chooseSlot s p = .idle := by
  simp only [chooseSlot, hr, hw, ha, hf, Bool.false_eq_true, or_self, if_false]

end

theorem link_congr {t : State} (h : t.links = s.links) (p : Nat) : t.link p = s.link p := 
  congrArg (fun x => Tbl.get ({} : LinkPort) x p) h

end

/-! ### What a slot receives (R178, R186) -/

section
variable {s s1 : State} {p : Port} {levels : List (List Nat)} {bytes : List (List Byte)}

/-- The port has counted the frames of one flit. -/
def framesCounted (s : State) (p w : Nat) : State :=
  s.setLink p { s.link p with rxFrames := ((s.link p).rxFrames + 8 / w) % 2 ^ 32 }

/-- The code word that the lanes' bytes make, lane after lane (R179). -/
def unstriped (bytes : List (List Byte)) (w : Nat) : List Byte :=
  (List.range 264).map (fun j => (bytes.getD (j % w) []).getD (j / w) 0)

/-- The reading of a code word whose check holds. -/
def goodReading (word : List Byte) : Option (List Byte × List Nat) :=
  (rsDecode word).find? (fun c => leAt c.1 252 4 = crc32c (c.1.take 252))

section
variable (h6 : s.laneState p = 6) (h0 : s.linkState p ≠ 0) (hw : (s.link p).rxWidth ≠ 0)
  (hl : (rxLanes s p).length = (s.link p).rxWidth)
include h6 h0 hw hl

theorem flitRx_lost {bad : Bool} (hr : rxAllLanes (8 / (s.link p).rxWidth)
      (List.zip (rxLanes s p) (levels ++ List.replicate (s.link p).rxWidth [])) s = (s1, bytes, bad))
    (hb : bad = true ∨ goodReading (unstriped bytes (s.link p).rxWidth) = none) :
    flitRx s p levels = lossDetected (framesCounted s1 p (s.link p).rxWidth) p := by
  unfold flitRx
  extract_lets w lanes
  rw [if_neg (by simp [h6, h0, w, lanes, hw, hl])]
  split
  rename_i r1 b1 bad1 he
  cases he.symm.trans hr
  extract_lets word v s2 good
  rcases hb with rfl | hb
  · rfl
  · rw [show good = none from hb]
    cases bad <;> rfl

theorem flitRx_taken {flit : List Byte} {js : List Nat} (hr : rxAllLanes (8 / (s.link p).rxWidth)
      (List.zip (rxLanes s p) (levels ++ List.replicate (s.link p).rxWidth [])) s = (s1, bytes, false))
    (hg : goodReading (unstriped bytes (s.link p).rxWidth) = some (flit, js))
    (hn : ((framesCounted s1 p (s.link p).rxWidth).link p).resuming = false) {s3 : State}
    (h3 : s3 = js.foldl (fun t j => t.bump (LAN_LANE_ERR.CORR_SYM ((rxLanes s p).getD (j % (s.link p).rxWidth) 0)) 1)
      (framesCounted s1 p (s.link p).rxWidth)) :
    flitRx s p levels = takeFlit (wakeSeen s3 p (hdrOf flit)) p flit := by
  unfold flitRx
  extract_lets w lanes
  rw [if_neg (by simp [h6, h0, w, lanes, hw, hl])]
  split
  rename_i r1 b1 bad1 he
  cases he.symm.trans hr
  extract_lets word v s2 good
  split
  · rename_i c hc
    cases hc.symm.trans hg
    extract_lets u
    have hu : u = s3 := h3.symm
    have hkeep := SameBut.foldl (l := [.regs]) (fun t j => sameBut_bump t (LAN_LANE_ERR.CORR_SYM
      ((rxLanes s p).getD (j % (s.link p).rxWidth) 0)) 1) js (framesCounted s1 p (s.link p).rxWidth) .links (by decide)
    rw [hu, if_neg]
    rw [h3]
    exact Bool.eq_false_iff.1 ((congrArg LinkPort.resuming (link_congr hkeep p)).trans hn)
  · rename_i h
    exact absurd hg (h _ rfl)

end

end

/-! ### Losses and timers (R186 to R188, R197) -/

section
variable {s : State} {p : Nat}

theorem lossDetected_first (h : (s.link p).nakPending = false) :
    lossDetected s p = s.setLink p { s.link p with nakPending := true, nakSend := true } := if_neg (by simp [h])

theorem lossDetected_pending (h : (s.link p).nakPending = true) : lossDetected s p = s := if_pos h

theorem nakTmo_due (hn : (s.link p).nakPending = true) (hf : (s.link p).frozen = none)
    (hd : s.ran (s.link p).nakFrom (100 * s.rd (LNK_TMR0.NAK_TMO p)) = true) :
    nakTmo s p = s.setLink p { s.link p with nakSend := true, nakFrom := none } := by
  simp [nakTmo, hn, hf, hd]

theorem replayTmo_due (hr : (s.link p).replay ≠ []) (hf : (s.link p).frozen = none) (hn : (s.link p).resuming = false)
    (hd : s.ran (s.link p).replayFrom (100 * s.rd (LNK_TMR0.REPLAY_TMO p)) = true) (h0 : s.linkState p ≠ 0) :
    replayTmo s p = startReplay s p (((s.link p).txAcked + 1) % 65536) true := by
  simp [replayTmo, hr, hf, hn, hd, h0]

theorem lockTmo_due (h7 : s.linkState p ≠ 7)
    (hd : s.ran (s.link p).lockFrom (100000 * s.rd (LNK_TMR0.LOCK_TMO p)) = true) :
    lockTmo s p = linkDown s p (some 0x01) true := if_pos ⟨h7, hd⟩

theorem retrainBound_due {t0 rest : Nat} (h7 : s.linkState p = 7) (hr : (s.link p).retrainFrom = some (t0, rest))
    (hd : s.ran (some t0) (100000 * s.rd (LNK_TMR0.LOCK_TMO p) + rest) = true) :
    retrainBound s p = linkDown s p (some 0x01) true := by
  simp [retrainBound, h7, hr, hd]

theorem capTmo_due (h1 : s.linkState p = 1) (hd : s.due (s.link p).capEnd = true) : capTmo s p =
    linkDown (if (s.sealLink p).running then s.wr (SEA_LINK0.CAUSE p) 5 else s) p (some 0x03) true := if_pos ⟨h1, hd⟩

end

/-! ### The registers of a link while its lanes, its keys and the router settle (R197, R221) -/

section
variable {t : State} {p v : Nat} {g : Fld}

/-- A field of the link layer's own registers. -/
def LinkField (g : Fld) : Prop := 0x80000 ≤ g.addr ∧ g.addr < 0x140000

theorem reads_enterDetect (hp : p < 12) (hg : LinkField g) (h : Reads g v t) : Reads g v (enterDetect t p) := by
  obtain ⟨hl, -⟩ := hg
  have hne : g.addr ≠ 0x50104 + 0x10 * p := by omega
  have hidle : Reads g v (lanesIdle t p) := reads_foldl (fun u k hk hu => by
    obtain ⟨i, hi, rfl⟩ := List.mem_map.1 hk
    have hlt : i < 8 := Nat.lt_of_lt_of_le (List.mem_range.1 hi) (laneCount_le t)
    have hlane : g.addr ≠ 0x53000 + 0x4 * (8 * p + i) := by omega
    exact reads_wr hlane hu) h
  have hbegin : Reads g v (beginAttempt (lanesIdle t p) p) := reads_same (reads_wr (f := LAN_PORT_STATUS.ATTEMPTS p) hne hidle) rfl
  exact reads_same (reads_wr (f := LAN_PORT_STATUS.STATE p) hne hbegin) rfl

theorem reads_laneRetrain (hp : p < 12) (hg : LinkField g) (h : Reads g v t) : Reads g v (laneRetrain t p) :=
  reads_ite (reads_enterDetect hp hg h) h

theorem reads_dropKeys (hp : p < 12) (hg : LinkField g) (h : Reads g v t) : Reads g v (dropKeys t p) := by
  obtain ⟨hl, -⟩ := hg
  have hne : g.addr ≠ 0x40100 + 0x8 * p := by omega
  exact reads_same (reads_wr (f := SEA_LINK0.STATE p) hne (reads_same h rfl)) rfl

theorem reads_cleanCheck (hg : LinkField g) (h : Reads g v t) : Reads g v (cleanCheck t) := by
  obtain ⟨-, hu⟩ := hg
  have hne : g.addr ≠ 0x140004 := by omega
  exact reads_ite (reads_wr (f := RTR_EPOCH.DRAINING) hne (reads_wr (f := RTR_EPOCH.OLD_FREE) hne h)) h

theorem reads_report {a b c d : Nat} (h : Reads g v t) : Reads g v (report t a b c d) := reads_same h rfl

/-- A field just written reads the value, and a later write of another field of the same word leaves it. -/
theorem reads_wr_fresh {a hi lo : Nat} (hv : v < 2 ^ (hi + 1 - lo) ∧ lo ≤ hi + 1 ∧ hi < 32)
    (h : Tbl.wf resetWord t.regs = true) : Reads ⟨a, hi, lo⟩ v (t.wr ⟨a, hi, lo⟩ v) :=
  reads_wr_self h hv.2 hv.1

theorem reads_wr_beside {a hi lo hi' lo' x : Nat} (hd : (hi < lo' ∨ hi' < lo) ∧ lo' ≤ hi' + 1 ∧ hi' < 32)
    (h : Reads ⟨a, hi, lo⟩ v t) : Reads ⟨a, hi, lo⟩ v (t.wr ⟨a, hi', lo'⟩ x) :=
  reads_wr_disjoint h rfl hd.1 hd.2.1 hd.2.2

theorem reads_bump {a hi lo n : Nat} (hf : lo ≤ hi + 1 ∧ hi < 32) (h : Reads ⟨a, hi, lo⟩ v t) :
    Reads ⟨a, hi, lo⟩ (min (v + n) (2 ^ (hi + 1 - lo) - 1)) (t.bump ⟨a, hi, lo⟩ n) :=
  ⟨State.wf_bump t _ n h.1, by rw [State.rd_bump_self t _ n h.1 hf.1 hf.2, h.2]⟩

end

/-! ### A link that goes DOWN (R197, R221) -/

section
variable {s : State} {p : Nat}

/-- LNK_STATUS of a link that is DOWN. -/
def statusDown (s : State) (p : Nat) : State :=
  (((setLinkState s p 0).wr (LNK_STATUS.SEALED p) 0).wr (LNK_STATUS.VC_RUN p) 0).wr (LNK_STATUS.QCAUSE p) 0

theorem statusDown_reads (h : Tbl.wf resetWord s.regs = true) : Reads (LNK_STATUS.STATE p) 0 (statusDown s p) ∧
    Reads (LNK_STATUS.SEALED p) 0 (statusDown s p) ∧ Reads (LNK_STATUS.VC_RUN p) 0 (statusDown s p) := by
  have hstate : Reads (LNK_STATUS.STATE p) 0 (setLinkState s p 0) := reads_wr_fresh (by decide) h
  have hsealed : Reads (LNK_STATUS.SEALED p) 0 ((setLinkState s p 0).wr (LNK_STATUS.SEALED p) 0) :=
    reads_wr_fresh (by decide) hstate.1
  have hrun : Reads (LNK_STATUS.VC_RUN p) 0 (((setLinkState s p 0).wr (LNK_STATUS.SEALED p) 0).wr (LNK_STATUS.VC_RUN p) 0) :=
    reads_wr_fresh (by decide) hsealed.1
  exact ⟨reads_wr_beside (by decide) (reads_wr_beside (by decide) (reads_wr_beside (by decide) hstate)),
    reads_wr_beside (by decide) (reads_wr_beside (by decide) hsealed), reads_wr_beside (by decide) hrun⟩

/-- What a link does as it goes DOWN, but for its own table entry: keys are dropped, DOWN counts, F2 is reported, and the
lanes and the router follow. -/
theorem linkDown_fault (h0 : s.linkState p ≠ 0) (c : Nat) (r : Bool) : ∃ (l : LinkPort) (u : State),
    u = report ((dropKeys ((statusDown s p).setLink p l) p).bump (LNK_ERR.DOWN p) 1) 0x0D 2 c p ∧
    linkDown s p (some c) r = cleanCheck (repoint (if r then laneRetrain u p else u)) :=
  ⟨_, _, rfl, if_neg h0⟩

section
variable (hp : p < 12)
include hp

/-- The lanes and the router leave the link's registers. -/
theorem reads_settled {u : State} {g : Fld} {v : Nat} (hg : LinkField g) (r : Bool) (h : Reads g v u) :
    Reads g v (cleanCheck (repoint (if r then laneRetrain u p else u))) :=
  reads_cleanCheck hg (reads_repoint (reads_ite (reads_laneRetrain hp hg h) h))

theorem linkDown_status {g : Fld} (h0 : s.linkState p ≠ 0) (c : Nat) (r : Bool)
    (hg : g.addr = 0x80004 + 0x10000 * p) (h : Reads g 0 (statusDown s p)) : Reads g 0 (linkDown s p (some c) r) := by
  obtain ⟨l, u, rfl, he⟩ := linkDown_fault h0 c r
  have hf : LinkField g := ⟨by omega, by omega⟩
  have hne : g.addr ≠ 0x80020 + 0x10000 * p := by omega
  rw [he]
  exact reads_settled hp hf r (reads_report (reads_wr (f := LNK_ERR.DOWN p) hne (reads_dropKeys hp hf (reads_setLink h))))

theorem linkDown_counts (h : Tbl.wf resetWord s.regs = true) (h0 : s.linkState p ≠ 0) (c : Nat) (r : Bool) :
    (linkDown s p (some c) r).rd (LNK_ERR.DOWN p) = min (s.rd (LNK_ERR.DOWN p) + 1) 255 := by
  obtain ⟨l, u, rfl, he⟩ := linkDown_fault h0 c r
  have hf : LinkField (LNK_ERR.DOWN p) := ⟨show 0x80000 ≤ 0x80020 + 0x10000 * p by omega, show 0x80020 + 0x10000 * p < 0x140000 by omega⟩
  have hne : 0x80020 + 0x10000 * p ≠ 0x80004 + 0x10000 * p := by omega
  have hstatus : Reads (LNK_ERR.DOWN p) (s.rd (LNK_ERR.DOWN p)) (statusDown s p) :=
    reads_wr hne (reads_wr hne (reads_wr hne (reads_wr hne ⟨h, rfl⟩)))
  rw [he]
  exact (reads_settled hp hf r (reads_report (reads_bump (n := 1) (by decide)
    (reads_dropKeys hp hf (reads_setLink (q := p) (l := l) hstatus))))).2

end

theorem dropKeys_hhg (s : State) (p : Nat) : (dropKeys s p).hhg = s.hhg := rfl

theorem statusDown_hhg (s : State) (p : Nat) : (statusDown s p).hhg = s.hhg := by
  rw [statusDown, State.wr_hhg, State.wr_hhg, State.wr_hhg, setLinkState, State.wr_hhg]

theorem sameBut_laneRetrain (s : State) (p : Nat) : SameBut [.regs, .lanes] s (laneRetrain s p) :=
  sameBut_ite (sameBut_enterDetect s p) (SameBut.refl _ s)

/-- The fault is the only one that is reported. -/
theorem linkDown_waiting (h0 : s.linkState p ≠ 0) (c : Nat) (r : Bool) :
    (linkDown s p (some c) r).hhg.waiting = s.hhg.waiting ++ [⟨0x0D, 2, c, p, false⟩] := by
  obtain ⟨l, u, hu, he⟩ := linkDown_fault h0 c r
  have hlanes : SameBut [.regs, .lanes] u (if r then laneRetrain u p else u) :=
    sameBut_ite (sameBut_laneRetrain u p) (SameBut.refl _ u)
  have hclean := sameBut_cleanCheck (repoint (if r then laneRetrain u p else u)) .hhg (by decide)
  rw [he]
  refine (congrArg Hhg.waiting (hclean.trans (hlanes .hhg (by decide)))).trans ?_
  rw [hu, report_waiting, State.bump_hhg, dropKeys_hhg, State.setLink_hhg, statusDown_hhg]

end

end Sys2Proof.Machine
end

section
namespace Sys2Proof.Proofs
open Sys2Proof.Machine

/-- Settles O45: each command is the step that its case names, of the slot's choice, of the flit received or of a timer; the
registers of a link that goes DOWN outlive what its lanes and the router do then. -/
theorem linkData : Obligations.LinkData := by
  unfold Obligations.LinkData
  rintro s p l hs rfl
  refine ⟨fun hf hn hp h6 => exec_frameSlot_runs hf hn (frameSlot_training hp h6), exec_frameSlot_stands,
    fun hf hn hp h6 h0 hw => ⟨fun hc => exec_frameSlot_runs hf hn (frameSlot_idle hp h6 h0 hw hc),
      fun f hc hm => exec_frameSlot_runs hf hn (frameSlot_again hp h6 h0 hw hc hm),
      fun f hc hm => exec_frameSlot_runs hf hn (frameSlot_spoiled hp h6 h0 hw hc hm),
      fun words hc hu => exec_frameSlot_runs hf hn (frameSlot_words hp h6 h0 hw hc hu)⟩,
    chooseSlot_waits, ?replays, ?lost, ?taken, lossDetected_first, lossDetected_pending,
    fun hn hf hd => congrArg Host.Outcome.next (nakTmo_due hn hf hd),
    fun hr hf hn hd h0 => congrArg Host.Outcome.next (replayTmo_due hr hf hn hd h0),
    fun h7 hd => congrArg Host.Outcome.next (lockTmo_due h7 hd),
    fun t0 rest h7 hr hd => congrArg Host.Outcome.next (retrainBound_due h7 hr hd),
    fun h1 hd => congrArg Host.Outcome.next (capTmo_due h1 hd), ?down⟩
  case replays =>
    intro a hr hw ha
    split
    · exact chooseSlot_again hr hw ha ‹_›
    · exact chooseSlot_replayOver hr hw ha ‹_›
  case lost =>
    rintro levels s1 bytes bad word h6 h0 hw hl hr rfl hb
    exact congrArg (fun t => Host.Outcome.next (wakeUp t p)) (flitRx_lost h6 h0 hw hl hr hb)
  case taken =>
    rintro levels s1 bytes s2 word flit js s3 h6 h0 hw hl hr rfl rfl hg hn h3
    exact congrArg (fun t => Host.Outcome.next (wakeUp t p)) (flitRx_taken h6 h0 hw hl hr hg hn h3)
  case down =>
    rintro c r t h0 rfl
    obtain ⟨hstate, hsealed, hrun⟩ := statusDown_reads (p := p) hs.regs
    exact ⟨(linkDown_status p.isLt h0 c r rfl hstate).2, (linkDown_status p.isLt h0 c r rfl hrun).2,
      (linkDown_status p.isLt h0 c r rfl hsealed).on, linkDown_waiting h0 c r, linkDown_counts p.isLt hs.regs h0 c r⟩

end Sys2Proof.Proofs
end

section
namespace Sys2Proof.Machine

/-! ### Probes and capabilities (R196, R200, R201, R684) -/

/-- The round trip that an ECHO received at `at_` shows, t4 − t1 − hold. -/
def echoRtt (m : List Byte) (at_ : Nat) : Nat := at_ / 160000000 - leAt m 2 8 - leAt m 18 4

/-- The offset that it shows: t2 and half the round trip against t4. -/
def echoOfs (m : List Byte) (at_ : Nat) : Int := (leAt m 10 8 : Int) + (echoRtt m at_ / 2 : Nat) - (at_ / 160000000 : Nat)

/-- A round trip that is better than the best so far. -/
def betterRtt (best : Option Nat) (rtt : Nat) : Bool := match best with | some b => decide (rtt < b) | none => true

/-- The link once an ECHO has counted: the best probe gives round trip and offset. -/
def echoed (l : LinkPort) (rtt : Nat) (ofs : Int) : LinkPort :=
  { l with
    echoes := l.echoes + 1, bestRtt := if betterRtt l.bestRtt rtt then some rtt else l.bestRtt
    bestOfs := if betterRtt l.bestRtt rtt then ofs else l.bestOfs }

/-- The block that has taken a far CAP: a quarantined link is back in EXCHANGE, with a CAP of its own where that changed
(R197, R215, R222). -/
def exchangedAgain (u : State) (p : Nat) : State :=
  if u.linkState p = 2 then
    (if ((enterExchange u p).link p).ownGen = (u.link p).ownGen then enterExchange u p else sendCap (enterExchange u p) p)
  else u

/-- The far CAP is kept, and VC_RUN follows it. -/
def farCapKept (v : State) (p : Nat) (m : List Byte) : State := putVcRun (v.setLink p { v.link p with farCap := some m }) p

section
variable {s u : State} {p at_ : Nat} {m : List Byte} (ht : takeLinkMsg s p m = (u, at_))
include ht

theorem takeProbe_answers (hm : isLinkMsg m 1 = true) (h0 : s.linkState p ≠ 0) (hr : (u.link p).resuming = false) :
    takeProbe s p m = sendLink u p 0x02 1 ((m.drop 2).take 8 ++ natLE 8 0 ++ natLE 4 (at_ / 160000000)) := by
  simp [takeProbe, hm, h0, ht, hr]

theorem takeProbe_broken (hm : isLinkMsg m 1 = true) (h0 : s.linkState p ≠ 0) (hr : (u.link p).resuming = true) :
    takeProbe s p m = resumeBroken u p := by
  simp [takeProbe, hm, h0, ht, hr]

theorem takeCap_broken (hm : isLinkMsg m 3 = true) (h0 : s.linkState p ≠ 0) (hr : (u.link p).resuming = true) :
    takeCap s p m = resumeBroken u p := by
  simp [takeCap, hm, h0, ht, hr]

theorem takeVerdict_kept (hm : isLinkMsg m 4 = true) (h0 : s.linkState p ≠ 0) : takeVerdict s p m =
    evaluate (u.setLink p { u.link p with farVerdict := some (leAt m 2 2, leAt m 4 1) }) p := by
  simp [takeVerdict, hm, h0, ht]

theorem takeCap_kept (hm : isLinkMsg m 3 = true) (h0 : s.linkState p ≠ 0) (hr : (u.link p).resuming = false) :
    takeCap s p m = if ((farCapKept (exchangedAgain u p) p m).link p).capSent then judge (farCapKept (exchangedAgain u p) p m) p
      else farCapKept (exchangedAgain u p) p m := by
  unfold takeCap
  rw [if_neg (by simp [hm, h0]), ht]
  exact if_neg (Bool.eq_false_iff.1 hr)

section
variable (hm : isLinkMsg m 2 = true) (h1 : s.linkState p = 1) (hc : (s.link p).capSent = false)
include hm h1 hc

theorem takeEcho_waits (he : (u.link p).echoes < 7) :
    takeEcho s p m = u.setLink p (echoed (u.link p) (echoRtt m at_) (echoOfs m at_)) := by
  unfold takeEcho
  rw [if_neg (by simp [hm, h1, hc]), ht]
  exact if_pos (Nat.succ_lt_succ he)

theorem takeEcho_eighth (he : 7 ≤ (u.link p).echoes) {l : LinkPort} (hl : l = echoed (u.link p) (echoRtt m at_) (echoOfs m at_)) :
    takeEcho s p m = judge (sendCap (renewCap (putRtt (u.setLink p l) p (l.bestRtt.getD 0) l.bestOfs) p) p) p := by
  subst hl
  unfold takeEcho
  rw [if_neg (by simp [hm, h1, hc]), ht]
  exact if_neg (Nat.not_lt.2 (Nat.succ_le_succ he))

end

end

/-! ### Verdicts (R197, R201) -/

section
variable {s : State} {p : Nat}

theorem evaluate_up (h1 : s.linkState p = 1) (hv : currentVerdicts (s.link p) = (some 0, some 0)) : evaluate s p = enterUp s p := by
  simp [evaluate, h1, hv]

theorem evaluate_quarantines {c : Nat} (hst : s.linkState p = 1 ∨ s.linkState p = 3)
    (hc : c = (currentVerdicts (s.link p)).1.getD 0 ||| (currentVerdicts (s.link p)).2.getD 0) (h0 : c ≠ 0) :
    evaluate s p = enterQuarantine s p c := by
  subst hc
  rcases hst with h | h <;> simp only [evaluate, h] <;> simp [h0]

/-- VC_RUN is a field of its own. -/
theorem linkState_putVcRun {v : Nat} (h : Reads (LNK_STATUS.STATE p) v s) : Reads (LNK_STATUS.STATE p) v (putVcRun s p) := by
  unfold putVcRun
  dsimp only
  split
  · exact reads_wr_beside (by decide) h
  · exact h

theorem enterUp_linkState (h : Tbl.wf resetWord s.regs = true) : (enterUp s p).linkState p = 3 := by
  have hup : Reads (LNK_STATUS.STATE p) 3 (setLinkState s p 3) := reads_wr_fresh (by decide) h
  have hcause : Reads (LNK_STATUS.STATE p) 3 ((setLinkState s p 3).wr (LNK_STATUS.QCAUSE p) 0) := reads_wr_beside (by decide) hup
  exact (reads_repoint (reads_setLink (reads_wr_beside (by decide) (linkState_putVcRun hcause)))).2

theorem enterQuarantine_linkState (hp : p < 12) (h : Tbl.wf resetWord s.regs = true) (c : Nat) :
    (enterQuarantine s p c).linkState p = 2 := by
  have hst : Reads (LNK_STATUS.STATE p) 2 (setLinkState (s.wr (LNK_STATUS.QCAUSE p) c) p 2) :=
    reads_wr_fresh (by decide) (State.wf_wr s _ _ h)
  exact (reads_repoint (reads_report (linkState_cleanCheck hp (reads_setLink hst)))).2

theorem cleanCheck_hhg (s : State) : (cleanCheck s).hhg = s.hhg := sameBut_cleanCheck s .hhg (by decide)

theorem repoint_hhg (s : State) : (repoint s).hhg = s.hhg := rfl

/-- F2 with the causes is the only report of a quarantine. -/
theorem enterQuarantine_waiting (s : State) (p c : Nat) : (enterQuarantine s p c).hhg.waiting =
    s.hhg.waiting ++ [⟨0x0D, 2, 0x02, p + c * 2 ^ 16, false⟩] := by
  rw [enterQuarantine, repoint_hhg, report_waiting, cleanCheck_hhg, State.setLink_hhg, setLinkState, State.wr_hhg, State.wr_hhg]

end

/-! ### RETRAIN (R188, R215) -/

section
variable {s : State} {p : Nat}

theorem freeze_link (h : Tbl.wf (fun _ => ({} : LinkPort)) s.links = true) :
    ∃ t, (freeze s p).link p = { s.link p with frozen := some t } := by
  unfold freeze
  dsimp only
  split
  · rename_i hf
    obtain ⟨t, ht⟩ := Option.isSome_iff_exists.1 hf
    exact ⟨t, by rw [← ht]⟩
  · exact ⟨s.now, link_setLink h _⟩

theorem reads_freeze {g : Fld} {v : Nat} (h : Reads g v s) : Reads g v (freeze s p) := reads_ite h (reads_setLink h)

theorem retrainCmd_training (h : s.laneState p < 6) : retrainCmd s p = s := if_pos (.inr (.inr (.inl h)))

/-- RETRAIN is entered from any state of the link with its lanes in ACTIVE or asleep. -/
theorem retrainCmd_enters (h0 : s.linkState p ≠ 0) (h7 : s.linkState p ≠ 7) (h6 : 6 ≤ s.laneState p) (h8 : s.laneState p ≤ 8) :
    retrainCmd s p = enterRetrain s p (s.link p) := if_neg (by omega)

/-- What RETRAIN writes before the lanes start again. -/
theorem enterRetrain_eq (s : State) (p : Nat) (l : LinkPort) : ∃ v : LinkPort,
    enterRetrain s p l = laneRetrain (freeze (((setLinkState s p 7).bump (LNK_REPLAY.RETRAINS p) 1).setLink p v) p) p ∧
      v.leftState = s.linkState p ∧ v.replay = l.replay ∧ v.retrainFrom.map (·.1) = some s.now :=
  ⟨_, rfl, rfl, rfl, rfl⟩

/-- The lanes start a new attempt, and the link is in RETRAIN. -/
theorem enterRetrain_states (p : Port) (h : Tbl.wf resetWord s.regs = true) (l : LinkPort) (h6 : 6 ≤ s.laneState p)
    (h8 : s.laneState p ≤ 8) : (enterRetrain s p l).linkState p = 7 ∧ (enterRetrain s p l).laneState p = 2 := by
  have hp := p.isLt
  obtain ⟨v, he, -⟩ := enterRetrain_eq s p l
  have hne : 0x80004 + 0x10000 * p.val ≠ 0x80024 + 0x10000 * p.val := by omega
  have hne' : 0x50104 + 0x10 * p.val ≠ 0x80024 + 0x10000 * p.val := by omega
  have hf : LinkField (LNK_STATUS.STATE p) :=
    ⟨show 0x80000 ≤ 0x80004 + 0x10000 * p.val by omega, show 0x80004 + 0x10000 * p.val < 0x140000 by omega⟩
  have hlink : Reads (LNK_STATUS.STATE p) 7 ((setLinkState s p 7).bump (LNK_REPLAY.RETRAINS p) 1) :=
    reads_wr (f := LNK_REPLAY.RETRAINS p) hne (reads_wr_fresh (by decide) h)
  have hlane : Reads (LAN_PORT_STATUS.STATE p) (s.laneState p) ((setLinkState s p 7).bump (LNK_REPLAY.RETRAINS p) 1) :=
    reads_wr (f := LNK_REPLAY.RETRAINS p) hne' ⟨State.wf_wr s _ _ h, laneState_setLinkState h hp p⟩
  have hst := (reads_freeze (p := p) (reads_setLink (q := p) (l := v) hlane)).2
  rw [he]
  refine ⟨(reads_laneRetrain hp hf (reads_freeze (reads_setLink hlink))).2, ?_⟩
  rw [laneRetrain, if_pos (by rw [State.laneState, hst]; omega)]
  exact enterDetect_laneState p

/-- The sequence state stays, the timers stand still, and the bound runs from now. -/
theorem enterRetrain_link (h : Tbl.wf (fun _ => ({} : LinkPort)) s.links = true) (p : Nat) (l : LinkPort) :
    ((enterRetrain s p l).link p).leftState = s.linkState p ∧ ((enterRetrain s p l).link p).replay = l.replay ∧
      ((enterRetrain s p l).link p).frozen.isSome = true ∧
      ((enterRetrain s p l).link p).retrainFrom.map (·.1) = some s.now := by
  obtain ⟨v, he, hleft, hreplay, hfrom⟩ := enterRetrain_eq s p l
  have hl : Tbl.wf (fun _ => ({} : LinkPort)) ((setLinkState s p 7).bump (LNK_REPLAY.RETRAINS p) 1).links = true := by
    rw [State.bump_links, setLinkState, State.wr_links]
    exact h
  generalize (setLinkState s p 7).bump (LNK_REPLAY.RETRAINS p) 1 = u at he hl
  obtain ⟨t, ht⟩ := freeze_link (p := p) (wf_links_setLink hl v)
  rw [he, link_congr (sameBut_laneRetrain _ p .links (by decide)), ht, link_setLink hl v]
  exact ⟨hleft, hreplay, rfl, hfrom⟩

end

end Sys2Proof.Machine
end

section
namespace Sys2Proof.Proofs
open Sys2Proof.Machine

/-- Settles O46: each message is taken by its own lemma; UP, QUARANTINE and RETRAIN by the registers and the link's entry
that they leave. -/
theorem linkControl : Obligations.LinkControl := by
  unfold Obligations.LinkControl
  intro s p m u at_ hs ht
  have hs' := tablesOk_drowseExit hs
  have hlane : (drowseExit s).laneState p = s.laneState p := drowseExit_rd hs _ (show 0x50104 + 0x10 * p.val ≠ 0x1000C by omega)
  refine ⟨fun hm h0 hr => congrArg Host.Outcome.next (takeProbe_answers ht hm h0 hr), ?echo, ?cap,
    fun h0 hr => ⟨fun hm => congrArg Host.Outcome.next (takeProbe_broken ht hm h0 hr),
      fun hm => congrArg Host.Outcome.next (takeCap_broken ht hm h0 hr)⟩,
    fun hm h0 => congrArg Host.Outcome.next (takeVerdict_kept ht hm h0), ?up, ?quarantine,
    fun ho h2 => congrArg Host.Outcome.next ((viaFabric_open s _ ho).trans (if_pos ((drowseExit_linkState hs p).trans h2))),
    fun ho h2 => congrArg Host.Outcome.next ((viaFabric_open s _ ho).trans (if_neg (by rwa [drowseExit_linkState hs]))),
    ?retrain, fun ho h6 => congrArg Host.Outcome.next ((viaFabric_open s _ ho).trans (retrainCmd_training (by rwa [hlane])))⟩
  case echo =>
    rintro hm h1 hc l rtt ofs better rfl rfl rfl rfl l1 rfl
    exact ⟨fun he => congrArg Host.Outcome.next (takeEcho_waits ht hm h1 hc he),
      fun he => congrArg Host.Outcome.next (takeEcho_eighth ht hm h1 hc he rfl)⟩
  case cap =>
    rintro hm h0 hr x v w rfl rfl rfl
    exact ⟨fun hc => congrArg Host.Outcome.next ((takeCap_kept ht hm h0 hr).trans (if_pos hc)),
      fun hc => congrArg Host.Outcome.next ((takeCap_kept ht hm h0 hr).trans (if_neg (Bool.eq_false_iff.1 hc)))⟩
  case up =>
    rintro h1 ⟨a, b, hv, rfl, rfl⟩
    exact ⟨evaluate_up h1 hv, enterUp_linkState hs.regs⟩
  case quarantine =>
    exact fun hst c hc h0 _ => ⟨evaluate_quarantines hst hc h0, enterQuarantine_linkState p.isLt hs.regs c,
      enterQuarantine_waiting s p c⟩
  case retrain =>
    intro ho h0 h7 h6 h8
    have hst := drowseExit_linkState hs p
    have hrun : retrainCmd (drowseExit s) p = enterRetrain (drowseExit s) p ((drowseExit s).link p) :=
      retrainCmd_enters (by rwa [hst]) (by rwa [hst]) (by rwa [hlane]) (by rwa [hlane])
    obtain ⟨hlink, hdetect⟩ := enterRetrain_states p hs'.regs ((drowseExit s).link p) (by rwa [hlane]) (by rwa [hlane])
    obtain ⟨hleft, hreplay, hfrozen, hfrom⟩ := enterRetrain_link hs'.links p ((drowseExit s).link p)
    exact ⟨_, congrArg Host.Outcome.next ((viaFabric_open s _ ho).trans hrun), hlink, hdetect, hleft.trans hst,
      hreplay.trans (by rw [drowseExit_link]), hfrozen, hfrom.trans (by rw [State.now, State.now, drowseExit_time])⟩

end Sys2Proof.Proofs
end

section
namespace Sys2Proof.Machine

/-! ### What the operations of sealing change (R512, R525) -/

section
variable {s t u v : State} {p : Nat} {m d : List Byte}

theorem sameBut_setSealLink (s : State) (p : Nat) (k : SealLink) : SameBut [.sea] s (s.setSealLink p k) := by
  intro c hc
  cases c <;> simp_all [Component.same]

/-- An entry that is not the idle one is read back, whatever else the table lists. -/
theorem sealLink_setSealLink {k : SealLink} (h : k ≠ {}) : (s.setSealLink p k).sealLink p = k := Tbl.get_set_of_ne _ _ _ h

theorem sealLink_congr (h : t.sea = s.sea) (p : Nat) : t.sealLink p = s.sealLink p :=
  congrArg (fun x : SealUnit => Tbl.get ({} : SealLink) x.links p) h

theorem sameBut_sendLink (s : State) (p type blen : Nat) (body : List Byte) : SameBut [.links] s (sendLink s p type blen body) :=
  sameBut_setLink s p _

theorem sameBut_sendFrags (s : State) (p type egen : Nat) (data : List Byte) :
    SameBut [.links] s (sendFrags s p type egen data) :=
  SameBut.foldl (fun t _ => sameBut_sendLink t p _ _ _) _ s

theorem sameBut_takeLinkMsg (s : State) (p : Nat) (m : List Byte) : SameBut [.links] s (takeLinkMsg s p m).1 := by
  unfold takeLinkMsg
  dsimp only
  split
  · exact sameBut_setLink s p _
  · exact SameBut.refl _ s

theorem sameBut_takeFrag (s : State) (p type : Nat) (m : List Byte) : SameBut [.sea] s (takeFrag s p type m).1 := by
  unfold takeFrag
  extract_lets
  split
  · exact SameBut.refl _ s
  · split <;> exact sameBut_setSealLink s p _

theorem sameBut_randBytes (s : State) (n : Nat) : SameBut [.sea, .freeIdx] s (randBytes s n).2 := by
  intro c hc
  cases c <;> simp_all [Component.same, randBytes]

theorem sameBut_randScalar (s : State) : SameBut [.sea, .freeIdx] s (randScalar s).2 := by
  intro c hc
  cases c <;> simp_all [Component.same, randScalar]

theorem sameBut_sendRekey (s : State) (p type : Nat) : SameBut [.sea, .freeIdx, .links] s (sendRekey s p type) :=
  (((((SameBut.refl _ s).step (by simp) (sameBut_randBytes s 32)).step (by simp) (sameBut_randScalar _)).step (by simp)
    (sameBut_randScalar _)).step (by simp) (sameBut_setSealLink _ p _)).step (by simp) (sameBut_sendFrags _ p type _ _)

/-- A nonce, a key and the scalar of its signature are three draws. -/
theorem sendRekey_freeIdx (s : State) (p type : Nat) : (sendRekey s p type).freeIdx = s.freeIdx + 3 :=
  sameBut_sendFrags _ p type _ _ .freeIdx (by decide)

theorem reads_setSealLink {g : Fld} {x q : Nat} {k : SealLink} (h : Reads g x t) :
    Reads g x (t.setSealLink q k) := reads_same h rfl

theorem reads_sendRekey {g : Fld} {x q type : Nat} (h : Reads g x t) : Reads g x (sendRekey t q type) :=
  reads_same h (sameBut_sendRekey t q type .regs (by decide))

end

/-! ### The key exchange (R526) -/

section
variable {s u v : State} {p : Nat} {m d : List Byte}

/-- A command that carries a message of its type, on a link that is not DOWN, runs on the block that has taken it. -/
theorem linkMsg_taken {T at_ : Nat} (f : State → State) (ht : takeLinkMsg s p m = (u, at_)) (hm : isLinkMsg m T = true)
    (h0 : s.linkState p ≠ 0) : (if isLinkMsg m T = true ∧ s.linkState p ≠ 0 then f (takeLinkMsg s p m).1 else s) = f u := by
  rw [if_pos ⟨hm, h0⟩, ht]

/-- The outcome of such a command. -/
theorem linkMsg_runs {T at_ : Nat} {f : State → State} {w : State} (ht : takeLinkMsg s p m = (u, at_))
    (h0 : s.linkState p ≠ 0) (hm : isLinkMsg m T = true) (h : f u = w) :
    (.next (if isLinkMsg m T = true ∧ s.linkState p ≠ 0 then f (takeLinkMsg s p m).1 else s) : Out) = .next w :=
  congrArg Host.Outcome.next ((linkMsg_taken f ht hm h0).trans h)

theorem sHello_anchored {a : List Byte} (hk : (u.sealLink p).running = true) (ha : u.sea.fuses.anchor = some a) :
    sHello u p m = if a.take 8 = (m.drop 36).take 8 then
      sendFrags (u.setSealLink p { u.sealLink p with
        egen := max (u.sealLink p).egen (leAt m 2 1), farNonce := (m.drop 4).take 32 }) p 0x21
        (max (u.sealLink p).egen (leAt m 2 1)) (currentCred u)
      else sealFail (u.setSealLink p { u.sealLink p with
        egen := max (u.sealLink p).egen (leAt m 2 1), farNonce := (m.drop 4).take 32 }) p 1 := by
  simp only [sHello, hk, ha]
  rfl

theorem sCred_waits (hk : (u.sealLink p).running = true) (hf : takeFrag u p 0x21 m = (v, none)) : sCred u p m = v := by
  simp [sCred, hk, hf]

theorem sCred_bad (hk : (u.sealLink p).running = true) (hf : takeFrag u p 0x21 m = (v, some d)) (hc : credOk v p d = false) :
    sCred u p m = sealFail v p 2 := by
  simp [sCred, hk, hf, hc]

/-- The block that has accepted a far credential and drawn its ephemeral key. -/
def credited (v : State) (p : Nat) (d : List Byte) : State :=
  (randScalar (randScalar v).2).2.setSealLink p { (randScalar (randScalar v).2).2.sealLink p with
    farAlias := (d.drop 96).take 96, eph := (randScalar v).1 }

theorem credited_sealLink (v : State) (p : Nat) (d : List Byte) :
    ((credited v p d).sealLink p).farAlias = (d.drop 96).take 96 := by
  rw [credited, sealLink_setSealLink]
  exact fun h => Nat.succ_ne_zero _ (congrArg SealLink.eph h)

theorem sCred_good (hk : (u.sealLink p).running = true) (hf : takeFrag u p 0x21 m = (v, some d)) (hc : credOk v p d = true)
    (hr : u.on SEA_STATUS.RNG_OK = true) : ∃ egen data, sCred u p m = sendFrags (credited v p d) p 0x22 egen data := by
  unfold sCred
  rw [if_neg (by simp [hk]), hf]
  exact ⟨_, _, (if_neg (by simp [hc])).trans (if_neg (by simp [hr]))⟩

theorem sKex_noAlias (hk : (u.sealLink p).running = true) (hf : takeFrag u p 0x22 m = (v, some d))
    (ha : (v.sealLink p).farAlias = []) : sKex u p m = sealFail v p 3 := by
  simp [sKex, hk, hf, ha]

/-- The text that the signature of S_KEX covers, with the node and port of the far CAP `c`. -/
def kexText (nn c d : List Byte) : List Byte :=
  ascii "KEX" ++ nn ++ natLE 4 (leAt c 8 3 % 2 ^ 20) ++ natLE 1 (leAt c 11 1 % 16) ++ d.take 96

section
variable {c nn : List Byte} (hk : (u.sealLink p).running = true) (hf : takeFrag u p 0x22 m = (v, some d))
  (hc : (v.link p).farCap = some c) (hn : nn = nonces (u.leader p) (v.sealLink p).nonce (v.sealLink p).farNonce)
include hk hf hc hn

/-- The keys follow from the far ephemeral key where the far signature holds. -/
theorem sKex_capped : ∃ body, sKex u p m = if (v.sealLink p).farAlias.isEmpty = true ∨
    (!ecVerify (v.sealLink p).farAlias (kexText nn c d) ((d.drop 96).take 96)) = true then sealFail v p 3
  else sendLink (v.setSealLink p { v.sealLink p with
      farEph := d.take 96, derived := some (deriveKeys nn (ecdh (v.sealLink p).eph (d.take 96)) (v.sealLink p).egen 0) })
        p 0x23 1 body := by
  subst hn
  unfold sKex
  rw [if_neg (by simp [hk]), hf]
  dsimp only
  rw [hc]
  exact ⟨_, rfl⟩

theorem sKex_unverified (hv : ecVerify (v.sealLink p).farAlias (kexText nn c d) ((d.drop 96).take 96) = false) :
    sKex u p m = sealFail v p 3 := by
  obtain ⟨body, he⟩ := sKex_capped hk hf hc hn
  exact he.trans (if_pos (.inr (by rw [hv]; rfl)))

theorem sKex_derived (ha : (v.sealLink p).farAlias ≠ [])
    (hv : ecVerify (v.sealLink p).farAlias (kexText nn c d) ((d.drop 96).take 96) = true) :
    ((sKex u p m).sealLink p).derived = some (deriveKeys nn (ecdh (v.sealLink p).eph (d.take 96)) (v.sealLink p).egen 0) := by
  obtain ⟨body, he⟩ := sKex_capped hk hf hc hn
  rw [he, if_neg (by simp [ha, hv]), sealLink_congr (sameBut_sendLink _ p _ _ _ .sea (by decide)), sealLink_setSealLink]
  exact fun h => Option.some_ne_none _ (congrArg SealLink.derived h)

end

theorem sFin_mismatch {keys : List (List Byte)} (hd : (u.sealLink p).derived = some keys) (hk : (u.sealLink p).running = true)
    (he : leAt m 2 1 = (u.sealLink p).egen) (hc : (m.drop 4).take 16 ≠ confirmation keys (if u.leader p then 1 else 0)) :
    sFin u p m = sealFail u p 4 := by
  unfold sFin
  dsimp only
  rw [hd]
  exact (if_neg (by simp [hk, he])).trans (if_pos hc)

/-- The exchange is over, with the keys of phase 0 installed in both directions. -/
def keyed (u : State) (p : Nat) (keys : List (List Byte)) : State :=
  (((((installKeys u p 0 keys).setSealLink p { u.sealLink p with running := false, derived := none, installed := u.now }).wr
    (SEA_LINK0.STATE p) 2).wr (SEA_LINK0.KGEN p) 0).wr (SEA_LINK0.TX_PH p) 0).wr (SEA_LINK0.RX_PH p) 0

theorem sFin_match {keys : List (List Byte)} (hd : (u.sealLink p).derived = some keys) (hk : (u.sealLink p).running = true)
    (he : leAt m 2 1 = (u.sealLink p).egen) (hc : (m.drop 4).take 16 = confirmation keys (if u.leader p then 1 else 0)) :
    sFin u p m = judge ((keyed u p keys).setLink p { (keyed u p keys).link p with txPhase := false }) p := by
  unfold sFin
  dsimp only
  rw [hd]
  exact (if_neg (by simp [hk, he])).trans (if_neg (not_not_intro hc))

theorem sFail_running (hk : (u.sealLink p).running = true) (he : leAt m 2 1 = (u.sealLink p).egen) : sFail u p m = sealVerdict
    (((u.setSealLink p { u.sealLink p with running := false, derived := none }).wr (SEA_LINK0.CAUSE p) (leAt m 3 1)).wr
      (SEA_LINK0.STATE p) 0) p :=
  if_neg (by simp [hk, he])

end

/-! ### The rekey (R529, R530) -/

section
variable {s u v : State} {p : Nat} {m d : List Byte}

/-- A good request is answered, the next keys are installed, and STATE shows the rekey. -/
theorem answerRekey_states (h : Tbl.wf resetWord v.regs = true) (hv : rekeySigOk v p d = true)
    (hr : v.on SEA_STATUS.RNG_OK = true) : ((answerRekey v p d).sealLink p).rekey = 2 ∧
      (answerRekey v p d).rd (SEA_LINK0.STATE p) = 3 ∧ ((answerRekey v p d).sealLink p).installed = v.now := by
  have hst : Reads (SEA_LINK0.STATE p) 3 (sendRekey (v.wr (SEA_LINK0.STATE p) 3) p 0x25) :=
    reads_sendRekey (reads_wr_fresh (by decide) h)
  unfold answerRekey
  rw [if_neg (by simp [hv]), if_neg (by simp [hr])]
  generalize sendRekey (v.wr (SEA_LINK0.STATE p) 3) p 0x25 = t at hst ⊢
  dsimp only
  rw [sealLink_setSealLink fun he => Nat.succ_ne_zero 1 (congrArg SealLink.rekey he)]
  exact ⟨rfl, (reads_setSealLink (reads_setLink hst)).2, rfl⟩

/-- A whole request that no request of this end outranks. -/
theorem sRekey_whole (h2 : 2 ≤ u.rd (SEA_LINK0.STATE p)) (hf : takeFrag u p 0x24 m = (v, some d))
    (hw : (v.sealLink p).rekey ≠ 1 ∨ u.rd (LAN_PORT_FAR.FAR_NODE p) ≤ u.node) :
    sRekey u p m = if keysBusy v p = true ∧ (!nextUnused (v.sealLink p)) = true then
      v.setSealLink p { v.sealLink p with held := some d } else answerRekey v p d := by
  unfold sRekey
  rw [if_neg (by omega), hf]
  exact if_neg fun ⟨h1, _, hlt⟩ => hw.elim (absurd h1) (by omega)

theorem sRekeyAck_whole (hf : takeFrag u p 0x25 m = (v, some d)) (h1 : (v.sealLink p).rekey = 1) :
    sRekeyAck u p m = if (!rekeySigOk v p d) = true then v.wr (SEA_LINK0.CAUSE p) 3 else
      (installKeys v p (1 - b2n (u.link p).txPhase) (nextKeys v p d)).setSealLink p
        { v.sealLink p with retryEnd := none, flipTx := true, installed := u.now } := by
  unfold sRekeyAck
  rw [hf]
  exact if_neg fun h => h h1

/-- The block that has asked for a rekey. -/
def rekeyAsked (s : State) (p : Nat) : State :=
  (sendRekey (s.wr (SEA_LINK0.STATE p) 3) p 0x24).setSealLink p { (sendRekey (s.wr (SEA_LINK0.STATE p) 3) p 0x24).sealLink p with
    rekey := 1, tries := 1, wanted := false, retryEnd := some (rekeyRetry s) }

theorem rekeyStart_due {fw : Bool} (h2 : s.rd (SEA_LINK0.STATE p) = 2)
    (hd : fw = true ∨ (s.sealLink p).installed + ns (10 ^ 9 * s.rd SEA_LINK_CFG.REKEY_S) ≤ s.now) :
    rekeyStart s p fw = if keysBusy s p = true then s.setSealLink p { s.sealLink p with wanted := true }
      else if (!s.on SEA_STATUS.RNG_OK) = true then s.wr (SEA_LINK0.CAUSE p) 6 else rekeyAsked s p := by
  unfold rekeyStart
  extract_lets k l count due s1
  have hdue : due = true := by
    simp only [due, Bool.or_eq_true, decide_eq_true_eq]
    exact .inl (hd.elim .inr fun h => .inl (.inr h))
  rw [if_neg (by simp [hdue, h2]), if_neg (show ¬ s.rd (SEA_LINK0.STATE p) = 3 by omega)]
  rfl

theorem rekeyAsked_states (h : Tbl.wf resetWord s.regs = true) : (rekeyAsked s p).rd (SEA_LINK0.STATE p) = 3 ∧
    ((rekeyAsked s p).sealLink p).rekey = 1 ∧ ((rekeyAsked s p).sealLink p).tries = 1 ∧
      ((rekeyAsked s p).sealLink p).retryEnd = some (rekeyRetry s) := by
  have hst : Reads (SEA_LINK0.STATE p) 3 (sendRekey (s.wr (SEA_LINK0.STATE p) 3) p 0x24) :=
    reads_sendRekey (reads_wr_fresh (by decide) h)
  unfold rekeyAsked
  generalize sendRekey (s.wr (SEA_LINK0.STATE p) 3) p 0x24 = t at hst ⊢
  rw [sealLink_setSealLink fun he => Nat.succ_ne_zero 0 (congrArg SealLink.rekey he)]
  exact ⟨(reads_setSealLink hst).2, rfl, rfl, rfl⟩

section
variable (h1 : (s.sealLink p).rekey = 1) (hd : s.due (s.sealLink p).retryEnd = true)
include h1 hd

/-- What a retry sends: a new S_REKEY, or cause 6 without a random source (R513, R530). -/
theorem rekeyRetryTmo_again (ht : (s.sealLink p).tries < 3) : ∃ k, k.tries = (s.sealLink p).tries + 1 ∧ rekeyRetryTmo s p =
    (if s.on SEA_STATUS.RNG_OK = true then sendRekey s p 0x24 else s.wr (SEA_LINK0.CAUSE p) 6).setSealLink p k := by
  unfold rekeyRetryTmo
  extract_lets k s1 s2
  rw [if_neg (by simp [k, h1, hd]), if_neg (show ¬ 3 ≤ (s.sealLink p).tries by omega)]
  exact ⟨_, rfl, rfl⟩

theorem rekeyRetryTmo_third (ht : 3 ≤ (s.sealLink p).tries) : rekeyRetryTmo s p = enterQuarantine (report
    (((s.setSealLink p { s.sealLink p with rekey := 0, retryEnd := none }).wr (SEA_LINK0.CAUSE p) 7).wr (SEA_LINK0.STATE p) 2)
    0x17 3 0x02 p) p 0x100 := by
  unfold rekeyRetryTmo
  extract_lets k s1 s2
  exact (if_neg (by simp [k, h1, hd])).trans (if_pos ht)

theorem rekeyRetryTmo_states (h : Tbl.wf resetWord s.regs = true) (ht : (s.sealLink p).tries < 3) :
    ((rekeyRetryTmo s p).sealLink p).tries = (s.sealLink p).tries + 1 ∧
      (s.on SEA_STATUS.RNG_OK = true → (rekeyRetryTmo s p).freeIdx = s.freeIdx + 3) ∧
      (s.on SEA_STATUS.RNG_OK = false →
        (rekeyRetryTmo s p).rd (SEA_LINK0.CAUSE p) = 6 ∧ (rekeyRetryTmo s p).freeIdx = s.freeIdx) := by
  obtain ⟨k, hk, he⟩ := rekeyRetryTmo_again h1 hd ht
  rw [he, sealLink_setSealLink fun hi => Nat.succ_ne_zero _ (hk.symm.trans (congrArg SealLink.tries hi))]
  refine ⟨hk, fun hr => ?_, fun hr => ?_⟩
  · rw [if_pos hr]
    exact sendRekey_freeIdx s p 0x24
  · rw [if_neg (Bool.eq_false_iff.1 hr)]
    exact ⟨(reads_setSealLink (reads_wr_fresh (by decide) h)).2, by rw [State.setSealLink_freeIdx, State.wr_freeIdx]⟩

end

end

/-! ### Attestation and sessions (R520, R521, R535) -/

section
variable {s : State}

theorem sameBut_setReg (s : State) (a : Nat) (w : Word) : SameBut [.regs] s (s.setReg a w) := by
  intro c hc
  cases c <;> simp_all [Component.same]

theorem reads_setReg {t : State} {g : Fld} {v a : Nat} {w : Word} (ha : g.addr ≠ a) (h : Reads g v t) :
    Reads g v (t.setReg a w) :=
  ⟨State.wf_setReg t a w h.1, by rw [State.rd, State.reg_setReg_ne t a g.addr w h.1 ha]; exact h.2⟩

/-- The report `r` in its window, once STATUS is OK. -/
def reported (t : State) (r : List Byte) : State :=
  (List.range 152).foldl (fun t i => t.setReg (0x42100 + 4 * i) (BitVec.ofNat 32 (leAt r (4 * i) 4))) (t.wr SEA_RCMD.STATUS stOK)

theorem sameBut_reported (t : State) (r : List Byte) : SameBut [.regs] t (reported t r) :=
  (sameBut_wr t _ _).trans (SameBut.foldl (fun u _ => sameBut_setReg u _ _) _ _)

/-- The report's window lies apart from the command's register. -/
theorem reported_status {t : State} (h : Tbl.wf resetWord t.regs = true) (r : List Byte) :
    (reported t r).rd SEA_RCMD.STATUS = stOK :=
  (reads_foldl (fun _ i _ hu => reads_setReg (show 0x40020 ≠ 0x42100 + 4 * i by omega) hu) (reads_wr_fresh (by decide) h)).2

/-- A report is one draw and the window that shows it. -/
theorem attestReport_reported (ha : s.sea.aliasKey ≠ 0) : ∃ r, attestReport s = reported (randScalar s).2 r :=
  ⟨_, if_neg ha⟩

theorem attestReport_ok (h : Tbl.wf resetWord s.regs = true) (ha : s.sea.aliasKey ≠ 0) :
    (attestReport s).rd SEA_RCMD.STATUS = stOK ∧ (attestReport s).freeIdx = s.freeIdx + 1 := by
  obtain ⟨r, he⟩ := attestReport_reported ha
  have hregs : (randScalar s).2.regs = s.regs := sameBut_randScalar s .regs (by decide)
  rw [he]
  exact ⟨reported_status (by rwa [hregs]) r, sameBut_reported _ r .freeIdx (by decide)⟩

theorem attestReport_busy (h : Tbl.wf resetWord s.regs = true) (ha : s.sea.aliasKey = 0) :
    (attestReport s).rd SEA_RCMD.STATUS = stBUSY ∧ (attestReport s).sea = s.sea := by
  rw [attestReport, if_pos ha]
  exact ⟨(reads_wr_fresh (by decide) h).2, State.wr_sea _ _ _⟩

/-- The trace points of closed sessions change no session. -/
theorem closeSessions_sessions (s : State) (l : List Session) :
    (closeSessions s l).sea.sessions = s.sea.sessions.filter fun x => !l.contains x := by
  have h : SameBut [.regs, .bdg, .hmp] { s with sea := { s.sea with sessions := s.sea.sessions.filter fun x => !l.contains x } }
      (closeSessions s l) := SameBut.foldl (fun t x => sameBut_logEvent t _ _ _) l _
  exact congrArg SealUnit.sessions (h .sea (by decide))

theorem sessionIdle_sessions (s : State) :
    (sessionIdle s).sea.sessions = s.sea.sessions.filter fun x => s.now < x.used + ns 600000000000 := by
  rw [sessionIdle, closeSessions_sessions]
  refine List.filter_congr fun x hx => ?_
  rw [Bool.eq_iff_iff]
  simp [hx]

end

end Sys2Proof.Machine
end

section
namespace Sys2Proof.Proofs
open Sys2Proof.Machine

/-- Settles O48: each message runs on the block that has taken it; rekeys, reports and sessions by their own lemmas. -/
theorem linkSealing : Obligations.LinkSealing := by
  unfold Obligations.LinkSealing
  refine ⟨?messages, ?commands⟩
  case messages =>
    rintro s p m u at_ k hs ht rfl h0
    have hu : SameBut [.links] s u := by simpa only [ht] using sameBut_takeLinkMsg s p m
    have run {T : Nat} (f : State → State) {w : State} := linkMsg_runs (T := T) (f := f) (w := w) ht h0
    have frag {T : Nat} {v : State} {o : Option (List Byte)} (hf : takeFrag u p T m = (v, o)) : SameBut [.links, .sea] s v := by
      have hv : SameBut [.sea] u v := by simpa only [hf] using sameBut_takeFrag u p T m
      exact (hu.mono (by simp)).step (by simp) hv
    refine ⟨fun a hm hk ha he => run (sHello · p m) hm ((sHello_anchored hk ha).trans (if_pos he)),
      fun a hm hk ha he => run (sHello · p m) hm ((sHello_anchored hk ha).trans (if_neg he)),
      fun v hm hk hf => run (sCred · p m) hm (sCred_waits hk hf),
      fun v d hm hk hf hc => run (sCred · p m) hm (sCred_bad hk hf hc), ?cred,
      fun v d hm hk hf ha => run (sKex · p m) hm (sKex_noAlias hk hf ha),
      fun v d c nn hm hk hf ha hc hn hv => ⟨_, run (sKex · p m) hm rfl, sKex_derived hk hf hc hn ha hv⟩,
      fun v d c nn hm hk hf hc hn hv => run (sKex · p m) hm (sKex_unverified hk hf hc hn hv),
      fun keys hm hd hk he hc => run (sFin · p m) hm (sFin_mismatch hd hk he hc), ?fin,
      fun hm hk he => run (sFail · p m) hm (sFail_running hk he), fun _ => rfl, ?rekey, ?ack⟩
    case cred =>
      intro v d hm hk hf hc hr
      obtain ⟨egen, data, he⟩ := sCred_good hk hf hc hr
      have hsent := sameBut_sendFrags (credited v p d) p 0x22 egen data
      refine ⟨_, run (sCred · p m) hm he, ?_, ?_⟩
      · rw [sealLink_congr (hsent .sea (by decide)), credited_sealLink]
      · rw [hsent .freeIdx (by decide), ← frag hf .freeIdx (by decide)]
        rfl
    case fin =>
      rintro keys s2 s3 hm hd hk he hc rfl rfl
      exact run (sFin · p m) hm (sFin_match hd hk he hc)
    case rekey =>
      intro v d hm h2 hf hw
      have hregs : Tbl.wf resetWord v.regs = true := by rw [show v.regs = s.regs from frag hf .regs (by decide)]; exact hs.regs
      have hwhole := sRekey_whole h2 hf hw
      refine ⟨fun hb hn => run (sRekey · p m) hm (hwhole.trans (if_pos ⟨hb, by rw [hn]; rfl⟩)), fun hfree => ?_⟩
      have hans : sRekey u p m = answerRekey v p d :=
        hwhole.trans (if_neg fun ⟨hb, hn⟩ => hfree.elim (by simp [hb]) (by simpa using hn))
      refine ⟨fun hv => run (sRekey · p m) hm (hans.trans (if_pos (by rw [hv]; rfl))),
        fun hv hr => run (sRekey · p m) hm (hans.trans ((if_neg (by simp [hv])).trans (if_pos (by rw [hr]; rfl)))),
        fun hv hr => ⟨_, run (sRekey · p m) hm hans, ?_⟩⟩
      obtain ⟨hre, hst, hin⟩ := answerRekey_states (d := d) hregs hv hr
      exact ⟨hre, hst, hin.trans (by rw [State.now, State.now, show v.time = s.time from frag hf .time (by decide)])⟩
    case ack =>
      intro v d hm hf h1
      exact ⟨fun hv => run (sRekeyAck · p m) hm ((sRekeyAck_whole hf h1).trans (if_pos (by rw [hv]; rfl))),
        fun hv => run (sRekeyAck · p m) hm ((sRekeyAck_whole hf h1).trans (if_neg (by simp [hv])))⟩
  case commands =>
    rintro s p k hs rfl
    have hs' := tablesOk_drowseExit hs
    have hsea : (drowseExit s).sea = s.sea := sameBut_drowseExit s .sea (by decide)
    have hst : (drowseExit s).rd (SEA_LINK0.STATE p) = s.rd (SEA_LINK0.STATE p) :=
      drowseExit_rd hs _ (show 0x40100 + 0x8 * p.val ≠ 0x1000C by omega)
    have hbusy : keysBusy (drowseExit s) p = keysBusy s p := by simp [keysBusy]
    have hrng : (drowseExit s).on SEA_STATUS.RNG_OK = s.on SEA_STATUS.RNG_OK := drowseExit_on hs _ (by decide)
    have hretry : rekeyRetry (drowseExit s) = rekeyRetry s := by
      rw [rekeyRetry, drowseExit_after, drowseExit_rd hs _ (by decide), rekeyRetry]
    have fabric (f : State → State) {w : State} (ho : s.fabricOpen = true) (h : f (drowseExit s) = w) :
        (.next (viaFabric s f) : Out) = .next w := congrArg Host.Outcome.next ((viaFabric_open s f ho).trans h)
    refine ⟨?start, ?elapsed, ?wanted, ?noRandom, ?again, ?third, rfl, ?reportBusy, ?report, ?idle⟩
    case start =>
      intro ho h2 hb hr
      have he : rekeyStart (drowseExit s) p true = rekeyAsked (drowseExit s) p :=
        (rekeyStart_due (hst.trans h2) (.inl rfl)).trans ((if_neg (by simp [hbusy, hb])).trans (if_neg (by simp [hrng, hr])))
      obtain ⟨hstate, hre, htries, hend⟩ := rekeyAsked_states (p := p) hs'.regs
      exact ⟨_, fabric (rekeyStart · p true) ho he, hstate, hre, htries, hend.trans (congrArg some hretry)⟩
    case elapsed =>
      intro hd h2 hb hr
      have he : rekeyStart s p false = rekeyAsked s p :=
        (rekeyStart_due h2 (.inr hd)).trans ((if_neg (by simp [hb])).trans (if_neg (by simp [hr])))
      obtain ⟨hstate, hre, -, -⟩ := rekeyAsked_states (p := p) hs.regs
      exact ⟨_, congrArg Host.Outcome.next he, hstate, hre⟩
    case wanted =>
      intro ho h2 hb
      have he := (rekeyStart_due (hst.trans h2) (.inl rfl)).trans (if_pos (hbusy.trans hb))
      refine ⟨_, fabric (rekeyStart · p true) ho he, ?_, hst.trans h2⟩
      rw [sealLink_setSealLink fun h => Bool.noConfusion (congrArg SealLink.wanted h)]
    case noRandom =>
      intro ho h2 hb hr
      have he : rekeyStart (drowseExit s) p true = (drowseExit s).wr (SEA_LINK0.CAUSE p) 6 :=
        (rekeyStart_due (hst.trans h2) (.inl rfl)).trans ((if_neg (by simp [hbusy, hb])).trans (if_pos (by simp [hrng, hr])))
      exact ⟨_, fabric (rekeyStart · p true) ho he, (reads_wr_fresh (by decide) hs'.regs).2⟩
    case again => exact fun h1 hd ht => ⟨_, rfl, rekeyRetryTmo_states h1 hd hs.regs ht⟩
    case third => exact fun h1 hd ht => congrArg Host.Outcome.next (rekeyRetryTmo_third h1 hd ht)
    case reportBusy =>
      intro ho ha
      obtain ⟨hstatus, hkept⟩ := attestReport_busy hs'.regs (by rwa [hsea])
      exact ⟨_, fabric attestReport ho rfl, hstatus, hkept.trans hsea⟩
    case report =>
      intro ho ha
      obtain ⟨hstatus, hdraw⟩ := attestReport_ok hs'.regs (by rwa [hsea])
      exact ⟨_, fabric attestReport ho rfl, hstatus, hdraw.trans (by rw [show (drowseExit s).freeIdx = s.freeIdx from
        sameBut_drowseExit s .freeIdx (by decide)])⟩
    case idle => exact ⟨_, rfl, sessionIdle_sessions s⟩

end Sys2Proof.Proofs
end
